-- ==== Sys2Proof/Word.lean ====
section
/-!
DEFINITION. The word types of the model and the plainest arithmetic over them.
-/

namespace Sys2Proof

/-- One byte. -/
abbrev Byte := BitVec 8
/-- A 32-bit scalar register or vector lane: an integer or an F32 bit pattern (R97). -/
abbrev W32 := BitVec 32
/-- A 48-bit address register (R97). -/
abbrev Addr := BitVec 48
/-- A 64-bit CSR, counter or time stamp. -/
abbrev W64 := BitVec 64
/-- One bundle of instruction memory (R94). -/
abbrev Bundle := BitVec 128
/-- An F32 held as its bit pattern (IEEE 754-2019 binary32). -/
abbrev F32 := BitVec 32

/-- A tile index `40·pr + pc` over the 1,280 physical tiles (R4, R26). -/
abbrev TileIx := Fin 1280
/-- A field number `8·fr + fc` (R4). -/
abbrev FieldIx := Fin 64
/-- A scarf engine: north 0–11, east 12–23, south 24–35, west 36–47 (R4). -/
abbrev EngineIx := Fin 48
/-- A zone `4·(fr div 2) + (fc div 2)` (R4). -/
abbrev ZoneIx := Fin 16

end Sys2Proof
end

