-- ==== Sys2Proof/Machine/Maps.lean ====
section
/-!
DEFINITION. Sparse maps and byte memories as canonical lists: keys strictly rising, and no entry equal to what an
unlisted key reads as. Every store, stack, buffer and register group of the model is held in this form.
-/

namespace Sys2Proof.Machine

/-- A sparse map from natural keys. An unlisted key reads as the default the accessor names. -/
abbrev SMap (α : Type) := List (Nat × α)

/-- What key `k` reads as; `d` when it is not listed. -/
def look {α : Type} (d : α) : SMap α → Nat → α
  | [], _ => d
  | (j, v) :: m, k => if k = j then v else look d m k

/-- `m` with key `k` removed, so that it reads as the default. -/
def drop {α : Type} (m : SMap α) (k : Nat) : SMap α := m.filter fun e => e.1 ≠ k

/-- `m` with `v` listed at key `k`, in its place. -/
def insertKey {α : Type} : SMap α → Nat → α → SMap α
  | [], k, v => [(k, v)]
  | (j, w) :: m, k, v =>
    if k = j then (k, v) :: m else if k < j then (k, v) :: (j, w) :: m else (j, w) :: insertKey m k v

/-- `m` with key `k` reading as `v`. Writing the default removes the entry. -/
def put {α : Type} [DecidableEq α] (d : α) (m : SMap α) (k : Nat) (v : α) : SMap α :=
  if v = d then drop m k else insertKey m k v

/-- `m` with `f` applied to what key `k` reads as. -/
def upd {α : Type} [DecidableEq α] (d : α) (m : SMap α) (k : Nat) (f : α → α) : SMap α :=
  put d m k (f (look d m k))

/-- `f` applied to every listed entry; entries that become the default are removed. -/
def mapListed {α : Type} [DecidableEq α] (d : α) (f : Nat → α → α) (m : SMap α) : SMap α :=
  (m.map (fun e => (e.1, f e.1 e.2))).filter (fun e => e.2 ≠ d)

/-- The keys rise strictly from above `lo`, and no entry is the default. -/
def wfFrom {α : Type} [DecidableEq α] (d : α) : Option Nat → SMap α → Bool
  | _, [] => true
  | lo, (k, v) :: m =>
    (match lo with | none => true | some l => decide (l < k)) && decide (v ≠ d) && wfFrom d (some k) m

/-- The canonical form of a sparse map. -/
def mapWf {α : Type} [DecidableEq α] (d : α) (m : SMap α) : Bool := wfFrom d none m

/-- A byte memory: a canonical list of cells. An unlisted byte reads as zero (a tile's stores and buffers are zeroed by
its power-up reset, R58; for a field stack the value is the model's own, log 3). -/
abbrev Memory := List Host.Cell

/-- The byte at address `a`. -/
def readByte (m : Memory) (a : Nat) : Byte := look 0 m a

/-- `m` with byte `b` at address `a`. -/
def writeByte (m : Memory) (a : Nat) (b : Byte) : Memory := put 0 m a b

/-- The canonical form of a byte memory. -/
def Memory.wf (m : Memory) : Bool := mapWf 0 m

/-- The `n` bytes from address `a`, lowest first. -/
def readBytes (m : Memory) (a : Nat) : Nat → List Byte
  | 0 => []
  | n + 1 => readByte m a :: readBytes m (a + 1) n

/-- `m` with the bytes `bs` written from address `a` upward. -/
def writeBytes (m : Memory) (a : Nat) : List Byte → Memory
  | [] => m
  | b :: bs => writeBytes (writeByte m a b) (a + 1) bs

/-- The little-endian value of a byte string (R2). -/
def leNat : List Byte → Nat
  | [] => 0
  | b :: bs => b.toNat + 256 * leNat bs

/-- The `n` little-endian bytes of a value (R2). -/
def natLe : Nat → Nat → List Byte
  | 0, _ => []
  | n + 1, v => BitVec.ofNat 8 v :: natLe n (v / 256)

/-- The big-endian value of an octet string (R2: digests, signatures and keys). -/
def beNat (bs : List Byte) : Nat := leNat bs.reverse

/-- The `n` most-significant-first octets of a value. -/
def natBe (n v : Nat) : List Byte := (natLe n v).reverse

/-- The little-endian 32-bit word at address `a`. -/
def readW32 (m : Memory) (a : Nat) : W32 := BitVec.ofNat 32 (leNat (readBytes m a 4))

/-- `m` with the little-endian 32-bit word `w` at address `a`. -/
def writeW32 (m : Memory) (a : Nat) (w : W32) : Memory := writeBytes m a (natLe 4 w.toNat)

/-- Bits `[hi:lo]` of a value. -/
def bits (hi lo v : Nat) : Nat := (v / 2 ^ lo) % 2 ^ (hi + 1 - lo)

/-- Bit `i` of a value. -/
def bitOf (v i : Nat) : Bool := v.testBit i

/-- 1 for true, 0 for false. -/
def b2n (b : Bool) : Nat := if b then 1 else 0

/-- A count that saturates at `2^w − 1`. -/
def satAdd (w : Nat) (v n : Nat) : Nat := min (v + n) (2 ^ w - 1)

/-- The list `xs` with entry `i` replaced by `f` of it. -/
def modifyAt {α : Type} (f : α → α) : List α → Nat → List α
  | [], _ => []
  | x :: xs, 0 => f x :: xs
  | x :: xs, i + 1 => x :: modifyAt f xs i

/-- `f` applied for `i = 0 … n − 1`, in that order. -/
def repeatN {α : Type} (f : Nat → α → α) : Nat → α → α
  | 0, x => x
  | n + 1, x => f n (repeatN f n x)

/-- The ceiling of `a ÷ b`. -/
def ceilDiv (a b : Nat) : Nat := (a + b - 1) / b

end Sys2Proof.Machine
end

