-- ==== Sys2Proof/Machine/Crypto.lean ====
section
/-!
DEFINITION. The digests and the signature scheme the spec names: CRC-32 of IEEE 802.3 (R227, R241, R288), SHA-384 (R255,
R257) and ECDSA P-384 (R258). Their constants are those of the named standards (log 10).
-/

namespace Sys2Proof.Machine

/-! ### CRC-32 -/

/-- One bit of the reflected CRC-32 register. -/
def crcBit (c : W32) : W32 := if c.getLsbD 0 then (c >>> 1) ^^^ 0xEDB88320#32 else c >>> 1

/-- One byte of the reflected CRC-32 register. -/
def crcByte (c : W32) (b : Byte) : W32 := repeatN (fun _ x => crcBit x) 8 (c ^^^ b.setWidth 32)

/-- The IEEE 802.3 frame check sequence of bytes (R241): initial value all ones, result complemented. -/
def crc32 (bs : List Byte) : W32 := ~~~(bs.foldl crcByte 0xFFFFFFFF#32)

/-! ### SHA-384 -/

/-- The primes SHA-384's constants come from. -/
def shaPrimes : List Nat := (List.range 410).filter fun n => 2 ≤ n && (List.range 21).all fun k => k < 2 || n ≤ k || n % k != 0

/-- The greatest r below 2^`bits` with r^3 ≤ n, by bits from the top. -/
def cubeRoot (n : Nat) : Nat → Nat → Nat
  | 0, r => r
  | k + 1, r => cubeRoot n k (if (r + 2 ^ k) ^ 3 ≤ n then r + 2 ^ k else r)

/-- The greatest r with r^2 ≤ n, by bits from the top. -/
def squareRoot (n : Nat) : Nat → Nat → Nat
  | 0, r => r
  | k + 1, r => squareRoot n k (if (r + 2 ^ k) ^ 2 ≤ n then r + 2 ^ k else r)

/-- The round constants: fractions of the cube roots of the first 80 primes. -/
def shaK : List W64 := (shaPrimes.take 80).map fun p => BitVec.ofNat 64 (cubeRoot (p * 2 ^ 192) 68 0)

/-- The initial hash: fractions of the square roots of the ninth to sixteenth primes. -/
def shaInit : List W64 := ((shaPrimes.drop 8).take 8).map fun p => BitVec.ofNat 64 (squareRoot (p * 2 ^ 128) 68 0)

/-- The message padded to whole 128 B blocks. -/
def shaPad (bs : List Byte) : List Byte :=
  let z := (239 - bs.length % 128) % 128
  bs ++ [0x80#8] ++ List.replicate z 0 ++ natBe 16 (8 * bs.length)

/-- One more word of the message schedule, kept latest first. -/
def shaExtend (w : List W64) : List W64 :=
  let g (i : Nat) : W64 := w.getD i 0
  let s0 := (g 14).rotateRight 1 ^^^ (g 14).rotateRight 8 ^^^ (g 14 >>> 7)
  let s1 := (g 1).rotateRight 19 ^^^ (g 1).rotateRight 61 ^^^ (g 1 >>> 6)
  (g 15 + s0 + g 6 + s1) :: w

/-- The eight working variables of a round. -/
structure ShaVars where
  a : W64
  b : W64
  c : W64
  d : W64
  e : W64
  f : W64
  g : W64
  h : W64
deriving DecidableEq, Repr

/-- One round. -/
def shaRound (v : ShaVars) (kw : W64 × W64) : ShaVars :=
  let s1 := v.e.rotateRight 14 ^^^ v.e.rotateRight 18 ^^^ v.e.rotateRight 41
  let ch := (v.e &&& v.f) ^^^ (~~~v.e &&& v.g)
  let t1 := v.h + s1 + ch + kw.1 + kw.2
  let s0 := v.a.rotateRight 28 ^^^ v.a.rotateRight 34 ^^^ v.a.rotateRight 39
  let maj := (v.a &&& v.b) ^^^ (v.a &&& v.c) ^^^ (v.b &&& v.c)
  ⟨t1 + s0 + maj, v.a, v.b, v.c, v.d + t1, v.e, v.f, v.g⟩

/-- The eight bytes of a big-endian word. -/
def shaWord (bs : List Byte) : W64 := BitVec.ofNat 64 (beNat bs)

/-- One block. -/
def shaBlock (v : ShaVars) (bs : List Byte) : ShaVars :=
  let w0 := ((List.range 16).map fun i => shaWord ((bs.drop (8 * i)).take 8)).reverse
  let w := (repeatN (fun _ x => shaExtend x) 64 w0).reverse
  let r := (shaK.zip w).foldl shaRound v
  ⟨v.a + r.a, v.b + r.b, v.c + r.c, v.d + r.d, v.e + r.e, v.f + r.f, v.g + r.g, v.h + r.h⟩

/-- `n` blocks. -/
def shaBlocks : Nat → List Byte → ShaVars → ShaVars
  | 0, _, v => v
  | n + 1, bs, v => shaBlocks n (bs.drop 128) (shaBlock v (bs.take 128))

/-- SHA-384, 48 bytes. -/
def sha384 (bs : List Byte) : List Byte :=
  let m := shaPad bs
  let i (n : Nat) : W64 := shaInit.getD n 0
  let v := shaBlocks (m.length / 128) m ⟨i 0, i 1, i 2, i 3, i 4, i 5, i 6, i 7⟩
  [v.a, v.b, v.c, v.d, v.e, v.f].flatMap fun x => natBe 8 x.toNat

/-! ### ECDSA P-384 -/

/-- The curve's field prime. -/
def p384P : Nat := 2 ^ 384 - 2 ^ 128 - 2 ^ 96 + 2 ^ 32 - 1
/-- The order of the base point. -/
def p384N : Nat :=
  0xffffffffffffffffffffffffffffffffffffffffffffffffc7634d81f4372ddf581a0db248b0a77aecec196accc52973
/-- The curve's constant b; a is −3. -/
def p384B : Nat :=
  0xb3312fa7e23ee7e4988e056be3f82d19181d9c6efe8141120314088f5013875ac656398d8a2ed19d2a85c8edd3ec2aef

/-- A point of the curve; none is the point at infinity. -/
abbrev Point := Option (Nat × Nat)

/-- The base point. -/
def p384G : Point := some
  (0xaa87ca22be8b05378eb1c71ef320ad746e1d3b628ba79b9859f741e082542a385502f25dbf55296c3a545e3872760ab7,
   0x3617de4a96262c6f5d9e98bf9292dc29f8f41dbd289a147ce9da3113b5f0b8c00a60b1ce1d7e819d7a431d7c90ea0e5f)

/-- b^e mod m over the low `k` bits of e, most significant first. -/
def powMod (b e m : Nat) : Nat → Nat → Nat
  | 0, r => r
  | k + 1, r => powMod b e m k (if e.testBit k then r * r % m * b % m else r * r % m)

/-- The inverse modulo a prime. -/
def invMod (x m : Nat) : Nat := powMod (x % m) (m - 2) m 384 1

/-- Difference modulo m. -/
def subMod (x y m : Nat) : Nat := (x % m + m - y % m) % m

/-- Point addition. -/
def pointAdd (p q : Point) : Point :=
  match p, q with
  | none, _ => q
  | _, none => p
  | some (x1, y1), some (x2, y2) =>
    if x1 = x2 ∧ (y1 + y2) % p384P = 0 then none
    else
      let l := if x1 = x2 then (3 * x1 * x1 + p384P - 3) % p384P * invMod (2 * y1) p384P % p384P
        else subMod y2 y1 p384P * invMod (subMod x2 x1 p384P) p384P % p384P
      let x3 := subMod (l * l) (x1 + x2) p384P
      some (x3, subMod (l * subMod x1 x3 p384P) y1 p384P)

/-- Scalar multiplication over the low `n` bits of k. -/
def pointMul (k : Nat) (p : Point) : Nat → Point → Point
  | 0, r => r
  | n + 1, r =>
    let r2 := pointAdd r r
    pointMul k p n (if k.testBit n then pointAdd r2 p else r2)

/-- A public key lies on the curve. -/
def onCurve (x y : Nat) : Bool :=
  decide (x < p384P) && decide (y < p384P) && y * y % p384P == (x * x * x + (p384P - 3) * x + p384B) % p384P

/-- ECDSA verification of a digest under a public key (R258). -/
def ecdsaVerify (keyX keyY : Nat) (digest : List Byte) (r s : Nat) : Bool :=
  if r = 0 ∨ s = 0 ∨ p384N ≤ r ∨ p384N ≤ s ∨ !onCurve keyX keyY then false
  else
    let w := invMod s p384N
    let u1 := beNat digest * w % p384N
    let u2 := r * w % p384N
    match pointAdd (pointMul u1 p384G 384 none) (pointMul u2 (some (keyX, keyY)) 384 none) with
    | none => false
    | some (x, _) => x % p384N == r

end Sys2Proof.Machine
end

