-- ==== Sys2Proof/Config.lean ====
section
/-!
DEFINITION. The constants of one module that the spec leaves open: free values, and the factory's identity values. None
has a body, so a statement holds whatever they are.
-/

namespace Sys2Proof.Config

/-- Free values: what the spec says is produced without saying which value (log 7). Applied to a counter of the state. -/
opaque freeValue : Nat → BitVec 64

/-- Factory identity values of the module (log 9): the value of a dictionary entry of the factory block. -/
opaque factory : Nat → List (BitVec 8)

/-- What a prime fault's event carries as its zone for a step that names no zone (log 40). -/
opaque noZone : BitVec 8

/-- How a copy of the retained store lays the values of its image out in its body (R457, log 37). -/
opaque storeBody : List (Nat × Nat) → List (BitVec 8)

/-- The fused trim of a field's tile rails (R143), in mV. -/
opaque railTrim : Nat → Fin 21

/-- How fast a falling tile rail falls, in µV per µs: R145 states the rate of a rise alone (log 75). -/
opaque railFall : Nat

/-- The low byte of the range refusal of an entry whose owning chapter states no code (log 41). -/
opaque rangeCode : Nat → BitVec 8

end Sys2Proof.Config
end

