-- ==== Sys2Proof/Types.lean ====
section
/-!
DEFINITION. The types of the commands' operands: slot predicates, slot function codes, and what a command carries about
the moment it happens (the cycle, measured stalls, measured errors).
-/

namespace Sys2Proof

/-- A slot's predicate: `p[idx] XOR neg` (R95, R99). -/
structure Pred where
  neg : Bool
  idx : BitVec 3
deriving DecidableEq, Repr

/-- The four slots of a bundle (R94). -/
inductive SlotId where
  | c | m | t | v
deriving DecidableEq, Repr

/-- ALU func (R106). -/
inductive AluFn where
  | add | sub | and | or | xor | shl | shr | sra | mul | min | max | minu | maxu
deriving DecidableEq, Repr

/-- Scalar compare conditions (R106). -/
inductive Cond where
  | eq | ne | lt | ge | ltu | geu
deriving DecidableEq, Repr

/-- PLOG func (R106). -/
inductive PFn where
  | and | or | xor | andn
deriving DecidableEq, Repr

/-- The sz field of LDV and STV (R116). -/
inductive Sz where
  | quarter (q : BitVec 2)
  | full
deriving DecidableEq, Repr

/-- WFILL's target (R132). -/
inductive FillKind where
  | weights | scales | columns
deriving DecidableEq, Repr

/-- VFP func (R134). -/
inductive VfpFn where
  | add | sub | mul | fma | fms | fnma | max | min | and | or | xor | iadd | isub | shl | shr
deriving DecidableEq, Repr

/-- VFN func (R134). -/
inductive VfnFn where
  | exp2 | rcp | rsq | abs | neg
deriving DecidableEq, Repr

/-- Vector compare conditions (R135). -/
inductive VCond where
  | eq | ne | lt | le | ilt | ieq
deriving DecidableEq, Repr

/-- VPACK and VUNPK fmt (R136). -/
inductive PackFmt where
  | b4 | b6 | b8 | b16 | mxScales | k4Scales
deriving DecidableEq, Repr

/-- The narrow targets of VCVT and VSR in their fmt order (R137). -/
inductive Narrow where
  | bf16 | e4m3 | e5m2 | e2m3 | e3m2 | e2m1 | int8
deriving DecidableEq, Repr

/-- VCVT fmt: into a narrow format, or from one into FP32 (R137). -/
inductive CvtFmt where
  | into (t : Narrow)
  | outOf (t : Narrow)
deriving DecidableEq, Repr

/-- Hardware errors met while a bundle issues. Soft errors are physical, so the command reports them (log 5). -/
structure HwErr where
  /-- a single-bit instruction memory error was corrected (R39) -/
  imemCorr : Bool
  /-- an uncorrectable instruction memory error was found (R39) -/
  imemUncorr : Bool
  /-- a store word at this offset was corrected (R41) -/
  storeCorr : Option (BitVec 24)
  /-- an uncorrectable store error was found (R41) -/
  storeUncorr : Bool
  /-- a parity error in a vector register, buffer or output queue (R61, cause 0x06) -/
  parity : Bool
deriving DecidableEq, Repr

/-- No hardware error. -/
def HwErr.none : HwErr := ⟨false, false, Option.none, false, false⟩

/-- What a bundle's issue carries beside the bundle: which tile issues it, in which cycle of the beat, the stall cycles
it spent with their causes in order (R320), the activation chunks each truss has read since that tile's last command and
before this cycle (R47), whether it reads one in this cycle, and the hardware errors the issue met. -/
structure Issue where
  tile : TileIx
  cycle : Nat
  stalls : List (BitVec 4 × Nat)
  chunks0 : Nat
  chunks1 : Nat
  now0 : Bool
  now1 : Bool
  err : HwErr
deriving DecidableEq, Repr

/-- An issue with no stall, no chunk read and no error. -/
def Issue.plain (tile : TileIx) (cycle : Nat) : Issue := ⟨tile, cycle, [], 0, 0, false, false, HwErr.none⟩

/-- What a scrubber read of one store line finds (R44). -/
inductive ScrubFound where
  | clean
  | corrected (offset : BitVec 24)
  | uncorrectable
deriving DecidableEq, Repr

/-- The side of the wafer a scarf engine stands on. -/
inductive Side where
  | north | east | south | west
deriving DecidableEq, Repr

end Sys2Proof
end

