-- ==== Sys2Proof/Machine/Float.lean ====
section
/-!
DEFINITION. Number formats, the one rounding of an exact value, element-wise FP32 arithmetic, the special functions,
conversions, stochastic rounding and the two block quantisers (chapter 03). Every result is computed exactly over
non-negative rationals and narrowed once.
-/

namespace Sys2Proof.Machine

/-- Vector rounding modes, `vfp_ctrl.rmode` (R67). -/
inductive RMode where
  | rne | rtz | rup | rdn
deriving DecidableEq, Repr

/-- `vfp_ctrl.rmode` by its two bits. -/
def rmodeOf (v : Nat) : RMode :=
  match v % 4 with
  | 0 => .rne
  | 1 => .rtz
  | 2 => .rup
  | _ => .rdn

/-- A non-negative rational `num ÷ den`. -/
structure NQ where
  num : Nat
  den : Nat
deriving DecidableEq, Repr

/-- The value of an encoding: NaN, a signed infinity, or a signed magnitude. -/
inductive FVal where
  | nan
  | inf (neg : Bool)
  | fin (neg : Bool) (q : NQ)
deriving DecidableEq, Repr

/-- `2^e` for an integer exponent, as a rational. -/
def pow2Q (e : Int) : NQ := if 0 ≤ e then ⟨2 ^ e.toNat, 1⟩ else ⟨1, 2 ^ (-e).toNat⟩

/-- The exact product. -/
def mulQ (a b : NQ) : NQ := ⟨a.num * b.num, a.den * b.den⟩

/-- The exact quotient by a non-zero value. -/
def divQ (a b : NQ) : NQ := ⟨a.num * b.den, a.den * b.num⟩

/-- `a < b`. -/
def ltQ (a b : NQ) : Bool := decide (a.num * b.den < b.num * a.den)

/-- The exact signed sum of two signed magnitudes; the sign of a zero sum is the second component's caller's affair. -/
def addQ (an : Bool) (a : NQ) (bn : Bool) (b : NQ) : Bool × NQ :=
  let x := a.num * b.den
  let y := b.num * a.den
  let d := a.den * b.den
  if an = bn then (an, ⟨x + y, d⟩)
  else if y ≤ x then (an, ⟨x - y, d⟩) else (bn, ⟨y - x, d⟩)

/-- A binary format with a sign bit above `ebits + man` magnitude bits (R69). `infCode` and `nanCode` are magnitude
codes; a format without infinities saturates (R86). -/
structure Fmt where
  man : Nat
  bias : Nat
  ebits : Nat
  maxCode : Nat
  infCode : Option Nat
  /-- the smallest magnitude code that encodes NaN -/
  nanFrom : Option Nat
deriving DecidableEq, Repr

def fp32 : Fmt := ⟨23, 127, 8, 0x7F7FFFFF, some 0x7F800000, some 0x7F800001⟩
def bf16 : Fmt := ⟨7, 127, 8, 0x7F7F, some 0x7F80, some 0x7F81⟩
def e5m2 : Fmt := ⟨2, 15, 5, 0x7B, some 0x7C, some 0x7D⟩
def e4m3 : Fmt := ⟨3, 7, 4, 0x7E, none, some 0x7F⟩
def e3m2 : Fmt := ⟨2, 3, 3, 0x1F, none, none⟩
def e2m3 : Fmt := ⟨3, 1, 2, 0x1F, none, none⟩
def e2m1 : Fmt := ⟨1, 1, 2, 0x07, none, none⟩
/-- UE5M3 as a magnitude format; it carries no sign (R69). -/
def ue5m3 : Fmt := ⟨3, 15, 5, 0xFE, none, some 0xFF⟩

/-- The place of the sign bit. -/
def Fmt.signAt (f : Fmt) : Nat := f.ebits + f.man

/-- The value of a finite magnitude code (R69). -/
def magQ (f : Fmt) (c : Nat) : NQ :=
  let e := c / 2 ^ f.man
  let m := c % 2 ^ f.man
  let sig := if e = 0 then m else 2 ^ f.man + m
  mulQ ⟨sig, 1⟩ (pow2Q ((max e 1 : Nat) - (f.bias : Int) - f.man))

/-- The value of an encoding (R69). -/
def decodeF (f : Fmt) (x : Nat) : FVal :=
  let neg := x.testBit f.signAt
  let c := x % 2 ^ f.signAt
  match f.nanFrom with
  | some n =>
    if n ≤ c then .nan
    else if f.infCode = some c then .inf neg
    else .fin neg (magQ f c)
  | none => .fin neg (magQ f c)

/-- `⌊log2 (num ÷ den)⌋` of a positive rational. -/
def floorLog2 (q : NQ) : Int :=
  let e : Int := (Nat.log2 q.num : Int) - Nat.log2 q.den
  if ltQ q (pow2Q e) then e - 1 else e

/-- The magnitude code of `q` truncated to `f` (its exponent unbounded above), with the remainder `r ÷ d` of one step. -/
def floorCode (f : Fmt) (q : NQ) : Nat × Nat × Nat :=
  if q.num = 0 then (0, 0, 1) else
  let emin : Int := 1 - (f.bias : Int)
  let e := max (floorLog2 q) emin
  let k := e - f.man
  let s := divQ q (pow2Q k)
  ((e - emin).toNat * 2 ^ f.man + s.num / s.den, s.num % s.den, s.den)

/-- Whether a truncated code moves one step away from zero. -/
def roundsUp (m : RMode) (neg : Bool) (code r d : Nat) : Bool :=
  match m with
  | .rne => decide (d < 2 * r) || (decide (d = 2 * r) && code.testBit 0)
  | .rtz => false
  | .rup => decide (0 < r) && !neg
  | .rdn => decide (0 < r) && neg

/-- The magnitude code a finite result beyond the largest finite takes: IEEE overflow where the format has an infinity,
saturation where it has none (R86). -/
def overflowCode (f : Fmt) (m : RMode) (neg : Bool) : Nat :=
  match f.infCode with
  | none => f.maxCode
  | some i =>
    match m with
    | .rne => i
    | .rtz => f.maxCode
    | .rup => if neg then f.maxCode else i
    | .rdn => if neg then i else f.maxCode

/-- `q` rounded once to `f`. -/
def roundMag (f : Fmt) (m : RMode) (neg : Bool) (q : NQ) : Nat :=
  let (code, r, d) := floorCode f q
  let c := if roundsUp m neg code r d then code + 1 else code
  if f.maxCode < c then overflowCode f m neg else c

/-- The sign bit added to a magnitude code. -/
def withSign (f : Fmt) (neg : Bool) (c : Nat) : Nat := if neg then 2 ^ f.signAt + c else c

/-- The canonical NaN (R53, R77). -/
def canonNaN : F32 := 0x7FC00000#32

/-- The FP32 value of a bit pattern. -/
def val32 (x : F32) : FVal := decodeF fp32 x.toNat

/-- A value rounded once to FP32. -/
def toF32 (m : RMode) : FVal → F32
  | .nan => canonNaN
  | .inf neg => BitVec.ofNat 32 (withSign fp32 neg 0x7F800000)
  | .fin neg q => BitVec.ofNat 32 (withSign fp32 neg (roundMag fp32 m neg q))

/-- An F32 is a NaN pattern. -/
def isNaN32 (x : F32) : Bool := decide (0x7F800000 < x.toNat % 2 ^ 31)

/-- The exact product of two values (IEEE 754-2019: Inf × 0 is NaN). -/
def mulV : FVal → FVal → FVal
  | .nan, _ => .nan
  | _, .nan => .nan
  | .inf a, .inf b => .inf (a != b)
  | .inf a, .fin b q => if q.num = 0 then .nan else .inf (a != b)
  | .fin a q, .inf b => if q.num = 0 then .nan else .inf (a != b)
  | .fin a p, .fin b q => .fin (a != b) (mulQ p q)

/-- The exact sum. An exact zero sum is +0, or −0 when rounding toward −Inf or when both terms are −0. -/
def addV (m : RMode) : FVal → FVal → FVal
  | .nan, _ => .nan
  | _, .nan => .nan
  | .inf a, .inf b => if a = b then .inf a else .nan
  | .inf a, .fin _ _ => .inf a
  | .fin _ _, .inf b => .inf b
  | .fin a p, .fin b q =>
    let (s, r) := addQ a p b q
    if r.num = 0 then
      .fin (if p.num = 0 ∧ q.num = 0 ∧ a = b then a else decide (m = .rdn)) r
    else .fin s r

/-- The sign flipped. -/
def negV : FVal → FVal
  | .nan => .nan
  | .inf a => .inf (!a)
  | .fin a q => .fin (!a) q

/-- FP32 addition, rounded once. -/
def addF (m : RMode) (x y : F32) : F32 := toF32 m (addV m (val32 x) (val32 y))

/-- FP32 subtraction, rounded once. -/
def subF (m : RMode) (x y : F32) : F32 := toF32 m (addV m (val32 x) (negV (val32 y)))

/-- FP32 multiplication, rounded once. -/
def mulF (m : RMode) (x y : F32) : F32 := toF32 m (mulV (val32 x) (val32 y))

/-- `x·y + z`, rounded once. -/
def fmaF (m : RMode) (x y z : F32) : F32 := toF32 m (addV m (mulV (val32 x) (val32 y)) (val32 z))

/-- `x·y − z`, rounded once. -/
def fmsF (m : RMode) (x y z : F32) : F32 := toF32 m (addV m (mulV (val32 x) (val32 y)) (negV (val32 z)))

/-- `z − x·y`, rounded once. -/
def fnmaF (m : RMode) (x y z : F32) : F32 := toF32 m (addV m (negV (mulV (val32 x) (val32 y))) (val32 z))

/-- Addition to nearest with ties to even: the `add_rne` of R78. -/
def addRne (x y : F32) : F32 := addF .rne x y

/-- A total key that orders −0 below +0 (R135). -/
def orderKey (x : F32) : Int :=
  let c : Int := (x.toNat % 2 ^ 31 : Nat)
  if x.msb then -c - 1 else c

/-- A key under which ±0 are equal (IEEE 754-2019 compare). -/
def valueKey (x : F32) : Int :=
  let c : Int := (x.toNat % 2 ^ 31 : Nat)
  if x.msb then -c else c

/-- MAX of R135. -/
def maxF (x y : F32) : F32 :=
  if isNaN32 x || isNaN32 y then canonNaN else if orderKey x < orderKey y then y else x

/-- MIN of R135. -/
def minF (x y : F32) : F32 :=
  if isNaN32 x || isNaN32 y then canonNaN else if orderKey y < orderKey x then y else x

/-! ### Special functions (the table "Vector special functions") -/

/-- Fixed-point precision of `exp2Fix`. -/
def expBits : Nat := 256

/-- `ln 2 · 2^256`, by the series `Σ 1 ÷ (k·2^k)`. -/
def ln2Fix : Nat := (List.range 272).foldl (fun acc k => acc + 2 ^ expBits / ((k + 1) * 2 ^ (k + 1))) 0

/-- The Taylor series of `e^y` in fixed point: terms `i`, `i + 1`, …, `fuel` of them. -/
def expTaylor (y : Nat) : Nat → Nat → Nat → Nat → Nat
  | 0, _, _, acc => acc
  | fuel + 1, i, term, acc =>
    let t := term * y / 2 ^ expBits / i
    expTaylor y fuel (i + 1) t (acc + t)

/-- `2^f · 2^256` for `f = fnum ÷ 2^256` in `[0, 1)`. -/
def exp2Fix (fnum : Nat) : Nat :=
  expTaylor (fnum * ln2Fix / 2 ^ expBits) 72 1 (2 ^ expBits) (2 ^ expBits)

/-- `exp2`, to nearest with ties to even. A non-integer power of two is irrational, so the computed value carries a
sticky last bit and is never taken for a tie (UNVERIFIED: that 256 bits decide every FP32 input, log 4). -/
def exp2F (x : F32) : F32 :=
  match val32 x with
  | .nan => canonNaN
  | .inf true => 0#32
  | .inf false => 0x7F800000#32
  | .fin neg q =>
    -- |x| ≥ 2^8 lies beyond the format on either side
    if 256 ≤ q.num / q.den then (if neg then 0#32 else 0x7F800000#32) else
    let whole := q.num / q.den
    let rem := q.num % q.den
    let fix := rem * 2 ^ expBits / q.den
    let n : Int := if neg then (if rem = 0 then -(whole : Int) else -(whole : Int) - 1) else whole
    let f := if rem = 0 then 0 else if neg then 2 ^ expBits - fix else fix
    let g : NQ := if f = 0 then ⟨1, 1⟩ else ⟨2 * exp2Fix f + 1, 2 ^ (expBits + 1)⟩
    toF32 .rne (.fin false (mulQ g (pow2Q n)))

/-- The reciprocal, rounded under `m`. -/
def rcpF (m : RMode) (x : F32) : F32 :=
  match val32 x with
  | .nan => canonNaN
  | .inf neg => toF32 m (.fin neg ⟨0, 1⟩)
  | .fin neg q => if q.num = 0 then toF32 m (.inf neg) else toF32 m (.fin neg ⟨q.den, q.num⟩)

/-- The integer square root, one bit a step from bit `i − 1` down. -/
def isqrtBits (n : Nat) : Nat → Nat → Nat
  | 0, acc => acc
  | i + 1, acc =>
    let t := acc + 2 ^ i
    isqrtBits n i (if t * t ≤ n then t else acc)

/-- `⌊√n⌋`. -/
def isqrt (n : Nat) : Nat := isqrtBits n (Nat.log2 n / 2 + 1) 0

/-- The reciprocal square root, to nearest with ties to even. An inexact root carries a sticky last bit. -/
def rsqF (x : F32) : F32 :=
  match val32 x with
  | .nan => canonNaN
  | .inf true => canonNaN
  | .inf false => 0#32
  | .fin neg q =>
    if q.num = 0 then toF32 .rne (.inf neg)
    else if neg then canonNaN
    else
      let t := q.den * 2 ^ 400
      let s := isqrt (t / q.num)
      let sticky := if s * s * q.num = t then 0 else 1
      toF32 .rne (.fin false ⟨2 * s + sticky, 2 ^ 201⟩)

/-! ### Narrow conversions (R86) -/

/-- The binary format of a narrow target; INT8 has none. -/
def narrowFmt : Narrow → Option Fmt
  | .bf16 => some Machine.bf16
  | .e4m3 => some Machine.e4m3
  | .e5m2 => some Machine.e5m2
  | .e2m3 => some Machine.e2m3
  | .e3m2 => some Machine.e3m2
  | .e2m1 => some Machine.e2m1
  | .int8 => none

/-- The encoding written for a NaN input (R86). -/
def nanNarrow : Narrow → Nat
  | .bf16 => 0x7FC0
  | .e4m3 => 0x7F
  | .e5m2 => 0x7F
  | _ => 0

/-- An integer magnitude as INT8, saturated. -/
def int8Of (neg : Bool) (n : Nat) : Nat :=
  if neg then (if n = 0 then 0 else 256 - min n 128) else min n 127

/-- The nearest integer magnitudes: the floor and its remainder. -/
def roundInt (m : RMode) (neg : Bool) (q : NQ) : Nat :=
  let n := q.num / q.den
  if roundsUp m neg n (q.num % q.den) q.den then n + 1 else n

/-- A conversion under R86. The flag is a NaN input (sets nan_seen). -/
def convNarrow (t : Narrow) (m : RMode) (v : FVal) : Nat × Bool :=
  match v with
  | .nan => (nanNarrow t, true)
  | .inf neg =>
    match narrowFmt t with
    | none => (int8Of neg 255, false)
    | some f => (withSign f neg (f.infCode.getD f.maxCode), false)
  | .fin neg q =>
    match narrowFmt t with
    | none => (int8Of neg (roundInt m neg q), false)
    | some f => (withSign f neg (roundMag f m neg q), false)

/-- A narrow encoding as FP32, exact; a NaN encoding is the canonical NaN and sets nan_seen (R86). -/
def widen (t : Narrow) (x : Nat) : F32 × Bool :=
  match narrowFmt t with
  | none =>
    let b := x % 256
    (toF32 .rne (if b < 128 then .fin false ⟨b, 1⟩ else .fin true ⟨256 - b, 1⟩), false)
  | some f =>
    let v := decodeF f (x % 2 ^ (f.signAt + 1))
    (toF32 .rne v, decide (v = .nan))

/-! ### Stochastic rounding (R89, R90) -/

/-- `mix64` of R90. -/
def mix64 (z : W64) : W64 :=
  let z := (z ^^^ (z >>> 30)) * 0xBF58476D1CE4E5B9#64
  let z := (z ^^^ (z >>> 27)) * 0x94D049BB133111EB#64
  z ^^^ (z >>> 31)

/-- The 24 random bits of R90. -/
def srBits (key : W64) (stream i j : W32) : Nat :=
  let z := mix64 (key ^^^ stream.setWidth 64)
  let z := mix64 (z ^^^ ((i.setWidth 64 <<< 32) ||| j.setWidth 64))
  z.toNat % 2 ^ 24

/-- Whether a finite magnitude lies outside the finite range of the target. -/
def outsideFinite (t : Narrow) (neg : Bool) (q : NQ) : Bool :=
  match narrowFmt t with
  | none => ltQ ⟨if neg then 128 else 127, 1⟩ q
  | some f => ltQ (magQ f f.maxCode) q

/-- `sr_round` of R89. The flag is a NaN input. -/
def srNarrow (t : Narrow) (rb : Nat) (v : FVal) : Nat × Bool :=
  match v with
  | .fin neg q =>
    if outsideFinite t neg q then convNarrow t .rne v else
    match narrowFmt t with
    | none =>
      let n := q.num / q.den
      let fr := (q.num % q.den) * 2 ^ 24 / q.den
      (int8Of neg (if rb < fr then n + 1 else n), false)
    | some f =>
      let (code, r, d) := floorCode f q
      let fr := r * 2 ^ 24 / d
      (withSign f neg (if rb < fr then code + 1 else code), false)
  | v => convNarrow t .rne v

/-! ### Quantisers (R87, R88) -/

/-- The largest magnitude of a list of finite values; zero when there is none. -/
def amaxQ : List FVal → NQ
  | [] => ⟨0, 1⟩
  | .fin _ q :: vs => let r := amaxQ vs; if ltQ r q then q else r
  | _ :: vs => amaxQ vs

/-- The block holds NaN or Inf. -/
def hasSpecial : List FVal → Bool
  | [] => false
  | .fin _ _ :: vs => hasSpecial vs
  | _ :: _ => true

/-- `emax` of R87. -/
def emaxOf : Narrow → Int
  | .e2m1 => 2
  | .e2m3 => 2
  | .e3m2 => 4
  | .e4m3 => 8
  | .e5m2 => 15
  | _ => 0

/-- A magnitude scaled by `2^e`, exact. -/
def scaleV (e : Int) : FVal → FVal
  | .fin neg q => .fin neg (mulQ q (pow2Q e))
  | v => v

/-- One MX block of R87: its scale, its element encodings (each by `conv`), and nan_seen. -/
def mxBlock (t : Narrow) (conv : Nat → FVal → Nat × Bool) (vs : List FVal) : Nat × List Nat × Bool :=
  if hasSpecial vs then (0xFF, vs.map (fun _ => 0), true) else
  let a := amaxQ vs
  let e : Nat := if a.num = 0 then 0 else ((floorLog2 a - emaxOf t) + 127).toNat
  let e := min e 254
  let cs := (vs.zipIdx).map (fun p => conv p.2 (scaleV (127 - (e : Int)) p.1))
  (e, cs.map Prod.fst, cs.any Prod.snd)

/-- The two-step block scale of R88: UE5M3, to nearest, saturating, never zero. -/
def k4Scale (a st : NQ) : Nat :=
  let c := roundMag ue5m3 .rne false (divQ a (mulQ ⟨6, 1⟩ st))
  if c = 0 then 1 else c

/-- The quotient `v ÷ d` of R88. -/
def k4Quot (d : FVal) : FVal → FVal
  | .fin neg q =>
    match d with
    | .fin _ dq => if dq.num = 0 then (if q.num = 0 then .nan else .inf neg) else .fin neg (divQ q dq)
    | .inf _ => .fin neg ⟨0, 1⟩
    | .nan => .nan
  | v => v

/-- One K4 block of R88. -/
def k4Block (st : FVal) (conv : Nat → FVal → Nat × Bool) (vs : List FVal) : Nat × List Nat × Bool :=
  match st with
  | .fin false sq =>
    if sq.num = 0 || hasSpecial vs then (0xFF, vs.map (fun _ => 0), true) else
    let c := k4Scale (amaxQ vs) sq
    let d := val32 (toF32 .rne (.fin false (mulQ (magQ ue5m3 c) sq)))
    let cs := (vs.zipIdx).map (fun p => conv p.2 (k4Quot d p.1))
    (c, cs.map Prod.fst, cs.any Prod.snd)
  | _ => (0xFF, vs.map (fun _ => 0), true)

/-! ### The canonical tree (R78) -/

/-- One level of the tree: neighbours added, an unpaired last node carried up. -/
def pairUp : List F32 → List F32
  | a :: b :: r => addRne a b :: pairUp r
  | [a] => [a]
  | [] => []

/-- The levels of the tree; `fuel` of them. -/
def ctreeLevels : Nat → List F32 → F32
  | _, [] => 0#32
  | _, [a] => a
  | 0, a :: _ => a
  | n + 1, vs => ctreeLevels n (pairUp vs)

/-- The canonical tree of R78. Each level halves the list, so its length bounds the levels. -/
def ctree (vs : List F32) : F32 := ctreeLevels vs.length vs

end Sys2Proof.Machine
end

