-- ==== Sys2Proof/Machine/TileState.lean ====
section
/-!
DEFINITION. The state of one compute tile: program-visible registers, sequencer, trusses, stores, CSRs, instruments and
transfer state (R97, R67, R319–R332, R186, R214). A tile that is not listed in the data plane is an unpowered tile.
-/

namespace Sys2Proof.Machine

/-- Tile states (R57). -/
inductive TState where
  | off | reset | idle | issue | wait | held | fault
deriving DecidableEq, Repr

/-- Which of the three resets of R58 is in progress. -/
inductive ResetKind where
  | powerUp | load | stop
deriving DecidableEq, Repr

/-- A vector register: 512 lanes, lane 0 first. -/
abbrev VReg := List W32

/-- One loop-stack entry (R108). -/
structure LoopEntry where
  start : BitVec 14
  stop : BitVec 14
  left : Nat
deriving DecidableEq, Repr

/-- The program-visible registers (R97). The loop stack's head is the innermost loop. -/
structure Regs where
  s : SMap W32
  p : SMap Bool
  a : SMap Addr
  v : SMap VReg
  loops : List LoopEntry
deriving DecidableEq, Repr

/-- A weight buffer with its block-scale array and its column-scale file (R45, R72). -/
structure WBuf where
  elems : Memory
  scales : Memory
  cols : Memory
deriving DecidableEq, Repr

/-- A batch of rows latched by TROW (R128). -/
structure Batch where
  cfg : W64
  elemAt : Addr
  scaleAt : Addr
  rowScale : F32
  rows : Nat
  started : Nat
deriving DecidableEq, Repr

/-- One outstanding drain: its register and quarter, and the first cycle in which it may take place (R133). -/
structure Drain where
  reg : Nat
  quarter : Nat
  start : Nat
deriving DecidableEq, Repr

/-- A row whose chunks are being read: the weights and scales in force at its first chunk (R73), and the 128 chunk values
of each chunk read so far. -/
structure RowRead where
  buf : WBuf
  chunks : List (List F32)
deriving DecidableEq, Repr

/-- One truss engine. `inflight` holds the results of rows whose chunks have been read and which have not yet entered
the output queue, oldest first. -/
structure Truss where
  bufA : WBuf
  bufB : WBuf
  /-- 0 is A, 1 is B -/
  activeB : Bool
  cfg : W64
  active : Option Batch
  /-- the row of the active batch that is being read -/
  row : Option RowRead
  pending : Option Batch
  inflight : List (List F32)
  queue : List (List F32)
  /-- a row completed into a full queue and the truss stopped reading (R49) -/
  blocked : Bool
  drains : List Drain
  /-- a fill of the inactive buffer is in progress (R45) -/
  filling : Bool
deriving DecidableEq, Repr

/-- The tile CSRs that hold state of their own (R67). -/
structure TileCsr where
  module : BitVec 8
  logicalRow : BitVec 5
  logicalCol : BitVec 5
  logicalValid : Bool
  ctrl : W64
  imemValid : Bool
  faultCause : BitVec 8
  faultPc : BitVec 14
  faultBeat : W32
  intStatus : W64
  intEnable : W64
  imemCorrected : W32
  imemLast : BitVec 14
  storeCorrected : W32
  storeLast : BitVec 24
  bankConflicts : W32
  srKey : W64
  vfpCtrl : W64
  mailbox : SMap W64
deriving DecidableEq, Repr

/-- What the scoreboard tracks (R102): scalar, predicate and address registers, quarters of vector registers, and the CSRs
as one. -/
inductive RegId where
  | s (n : Nat)
  | p (n : Nat)
  | a (n : Nat)
  | q (r n : Nat)
  | csr
deriving DecidableEq, Repr

/-- A pending write: its register, the cycle of the beat by which it counts as complete, and whether a drain makes it. -/
structure Pend where
  reg : RegId
  due : Nat
  drain : Bool
deriving DecidableEq, Repr

/-- The sequencer's place: the next bundle's address (one above 16,383 is out of range, R40), the last issued address,
the cycle last reported, the last done cycle, and BEAT's wait (R55). -/
structure Seq where
  pc : Nat
  lastPc : BitVec 14
  cycle : Nat
  lastDone : Nat
  /-- BEAT has issued and not retired: the first cycle in which it may retire (R113) -/
  beatAt : Option Nat
  /-- the current beat's done report has been made -/
  done : Bool
  /-- the scoreboard (R102) -/
  board : List Pend
  /-- the cycle by which every store of STS and STV has completed (R114) -/
  stored : Nat
  /-- the first cycle in which a bundle may issue: after a taken branch two bubbles pass (R36) -/
  free : Nat
  /-- the first cycle in which a full-register access leaves the M port free (R54) -/
  mFree : Nat
  /-- the first cycle in which the fixed-order reduce leaves the vector unit free (R54) -/
  vFree : Nat
deriving DecidableEq, Repr

/-- A sample record in progress (R326): everything of R329 but seq and latency. -/
structure SampleRec where
  beatLo : W32
  pc : BitVec 14
  ops : BitVec 24
  suppressed : BitVec 4
  cause : BitVec 4
  stallCycles : Nat
  issueCycle : Nat
  trigger : BitVec 10
  /-- the latency its slots have by R54 alone (R327) -/
  fixedLatency : Nat
  /-- an executing slot completes when its schedule or its truss lets it (R114) -/
  timed : Bool
deriving DecidableEq, Repr

/-- An open bandwidth window (R331): its length in boundaries, class, boundaries closed, and counts per port. -/
structure BwWindow where
  len : Nat
  tclass : BitVec 2
  closed : Nat
  counts : SMap W64
deriving DecidableEq, Repr

/-- Counters, sampling and bandwidth windows (R319–R331). -/
structure Instruments where
  cyc : W64
  beats : W64
  issued : W64
  trussBusy : W64
  overrun : W64
  evcnt : SMap (BitVec 48)
  evsel : SMap W64
  sampCtrl : W64
  sampSeq : W32
  sampMissed : BitVec 16
  sampValid : Nat
  sampPtr : Nat
  waitRange : W64
  /-- bundles or increments since the selection count restarted (R325) -/
  selCount : Nat
  /-- an event selected the bundle waiting at RR (R325) -/
  selWait : Bool
  inProgress : Option SampleRec
  buffer : SMap (BitVec 256)
  bwCtrl : W64
  snapTick : W32
  snapSeq : W32
  /-- bank b, port p at key 12·b + p -/
  banks : SMap W64
  window : Option BwWindow
  /-- the counts of a window that has closed and is not yet in its bank, and the tick count at its close -/
  closing : Option (SMap W64 × W32)
  /-- a window opens at the next boundary -/
  openNext : Bool
deriving DecidableEq, Repr

/-- One exchange class of the tile's image (R214). -/
structure XClass where
  cap : Nat
  defer : Bool
  rank : Nat
  senders : Nat
  base : Nat
  slot : Nat
  map : Nat
deriving DecidableEq, Repr

/-- An exchange record: its destination, class and data; sender rank and index once it is carried (R215, R217). -/
structure XRecord where
  module : BitVec 8
  row : BitVec 5
  col : BitVec 5
  cls : BitVec 4
  data : List Byte
deriving DecidableEq, Repr

/-- An armed tag: the store address, and the stack offset that replaces the entry's (R119). -/
structure Arm where
  store : Addr
  stack : Option Nat
  /-- the number of flits or units already moved at this slot -/
  moved : Nat
deriving DecidableEq, Repr

/-- An outstanding UREQ transfer (R122–R124). `left` counts packets or bursts not yet moved. -/
structure Ureq where
  id : Nat
  cvalue : W32
  coff : BitVec 24
  kind : BitVec 8
  cls : BitVec 4
  len : Nat
  loff : BitVec 24
  remote : W64
  /-- bytes asked of the far end so far -/
  asked : Nat
  /-- bytes finished -/
  moved : Nat
  status : BitVec 16
  escaped : Bool
deriving DecidableEq, Repr

/-- Scheduled, unscheduled and exchange transfers of the tile. -/
structure Xfer where
  sched : SMap (BitVec 128)
  armed : SMap (Option Arm)
  ureqs : List Ureq
  classes : SMap (Option XClass)
  issuedX : SMap Nat
  deferred : List XRecord
deriving DecidableEq, Repr

/-- One physical tile. -/
structure Tile where
  tstate : TState
  resetting : Option ResetKind
  regs : Regs
  seq : Seq
  truss0 : Truss
  truss1 : Truss
  store : Memory
  /-- 8-byte words of the store whose check bits decode as uncorrectable (R206), by offset ÷ 8 -/
  poison : SMap Bool
  imem : SMap Bundle
  csr : TileCsr
  inst : Instruments
  xfer : Xfer
  /-- a fatal fault reported to the beat generator and not yet declared (R60), with its cycle -/
  report : Option Nat
deriving DecidableEq, Repr

/-- 512 zero lanes. -/
def zeroV : VReg := List.replicate 512 0

def Regs.zero : Regs := ⟨[], [], [], [], []⟩
def WBuf.zero : WBuf := ⟨[], [], []⟩
def Truss.zero : Truss := ⟨WBuf.zero, WBuf.zero, false, 0, none, none, none, [], [], false, [], false⟩
def Seq.zero : Seq := ⟨0, 0, 0, 0, none, false, [], 0, 0, 0, 0⟩
/-- tile_ctrl's reset value: scrub_interval 8, scrub_enable 1 (R67). -/
def tileCtrlReset : W64 := 0x0880#64
def TileCsr.reset : TileCsr :=
  ⟨0, 0, 0, false, tileCtrlReset, false, 0, 0, 0, 0, 0, 0, 0, 0, 0, 0, 0, 0, []⟩
def Instruments.reset : Instruments :=
  ⟨0, 0, 0, 0, 0, [], [], 0, 0, 0, 0, 0, 0, 0, false, none, [], 0, 0, 0, [], none, none, false⟩
def Xfer.none : Xfer := ⟨[], [], [], [], [], []⟩

/-- A tile whose domain is off: it keeps nothing (R57, R58: a power-up reset leaves every item at its reset value). -/
def Tile.off : Tile :=
  ⟨.off, none, Regs.zero, Seq.zero, Truss.zero, Truss.zero, [], [], [], TileCsr.reset, Instruments.reset, Xfer.none, none⟩

end Sys2Proof.Machine
end

