-- ==== Sys2Proof/Machine/Bundle.lean ====
section
/-!
DEFINITION. The operations of the four slots and their decoder (R94, R95, R96, R106, R116, R126, R134): every slot word
is a no-op, an operation, a word with a reserved field value, or a reserved opcode.
-/

namespace Sys2Proof.Machine

/-- C-slot operations (R106). -/
inductive COp where
  | nop
  | alu (sd sa sb : BitVec 5) (f : AluFn)
  | addi (sd sa : BitVec 5) (imm : BitVec 12)
  | andi (sd sa : BitVec 5) (imm : BitVec 12)
  | ori (sd sa : BitVec 5) (imm : BitVec 12)
  | xori (sd sa : BitVec 5) (imm : BitVec 12)
  | shli (sd sa : BitVec 5) (imm : BitVec 5)
  | shri (sd sa : BitVec 5) (imm : BitVec 5)
  | srai (sd sa : BitVec 5) (imm : BitVec 5)
  | muli (sd sa : BitVec 5) (imm : BitVec 12)
  | movl (sd : BitVec 5) (imm : BitVec 16)
  | movh (sd : BitVec 5) (imm : BitVec 16)
  | cmp (pd : BitVec 3) (sa sb : BitVec 5) (c : Cond)
  | cmpi (pd : BitVec 3) (sa : BitVec 5) (c : Cond) (imm : BitVec 11)
  | plog (pd pa pb : BitVec 3) (f : PFn)
  | br (target : BitVec 14)
  | jal (sd : BitVec 5) (target : BitVec 14)
  | jr (sa : BitVec 5)
  | loop (sc : BitVec 5) (stop : BitVec 14)
  | loopi (count : BitVec 8) (stop : BitVec 14)
  | lpop
  | csrr (pair : BitVec 4) (idx : BitVec 13)
  | csrw (pair : BitVec 4) (idx : BitVec 13)
  | sig
  | beat
deriving DecidableEq, Repr

/-- M-slot operations (R116). -/
inductive MOp where
  | nop
  | lds (sd : BitVec 5) (aB : BitVec 4) (imm : BitVec 13)
  | sts (ss : BitVec 5) (aB : BitVec 4) (imm : BitVec 13)
  | ldv (vd : BitVec 6) (aB : BitVec 4) (sz : Sz) (imm : BitVec 9)
  | stv (vs : BitVec 6) (aB : BitVec 4) (sz : Sz) (imm : BitVec 9)
  | aaddi (ad as_ : BitVec 4) (imm : BitVec 14)
  | aadd (ad as_ : BitVec 4) (ss : BitVec 5) (sh : BitVec 3)
  | amov (ad : BitVec 4) (sl sh : BitVec 5)
  | aget (sd : BitVec 5) (as_ : BitVec 4) (hi : Bool)
  | wfill (t : Bool) (kind : FillKind) (aS : BitVec 4) (sU : BitVec 5)
  | sarm (aL : BitVec 4) (tag : BitVec 12) (ur : Bool) (aR : BitVec 4)
  | ureq (aD : BitVec 4)
  | xsnd (aS : BitVec 4) (sD : BitVec 5) (cls : BitVec 4) (len : BitVec 2)
  | vext (sd : BitVec 5) (vs : BitVec 6) (lane : BitVec 9)
deriving DecidableEq, Repr

/-- T-slot operations (R126). -/
inductive TOp where
  | nop
  | tcfg (t : Bool) (sa sb : BitVec 5)
  | trow (t : Bool) (aA aS : BitVec 4) (sS : BitVec 5) (cnt : BitVec 8)
  | tswp (t : Bool)
  | tdrn (t : Bool) (vd : BitVec 6) (q : BitVec 2) (cnt : BitVec 5)
deriving DecidableEq, Repr

/-- V-slot operations (R134). -/
inductive VOp where
  | nop
  | vfp (vd va vb : BitVec 6) (f : VfpFn)
  | vfn (vd va : BitVec 6) (f : VfnFn)
  | vcmp (vd va vb : BitVec 6) (c : VCond)
  | vcmpp (pd : BitVec 3) (va vb : BitVec 6) (c : VCond) (all : Bool)
  | vsel (vd va vb : BitVec 6)
  | vsplat (vd : BitVec 6) (sa : BitVec 5)
  | viota (vd : BitVec 6)
  | vperm (vd va vb : BitVec 6)
  | vrot (vd va : BitVec 6) (k : BitVec 9)
  | vcvt (vd va : BitVec 6) (fmt : CvtFmt)
  | vsr (vd va : BitVec 6) (fmt : Narrow) (grp : BitVec 3)
  | vpack (vd va : BitVec 6) (fmt : PackFmt)
  | vunpk (vd va : BitVec 6) (fmt : PackFmt)
  | vred (vd va : BitVec 6) (max : Bool)
  | vqmx (vd va : BitVec 6) (fmt : Narrow) (sr : Bool) (grp : BitVec 3)
  | vqk4 (vd va : BitVec 6) (sT : BitVec 5) (sr : Bool) (grp : BitVec 3)
deriving DecidableEq, Repr

/-- What a slot word decodes to. A reserved opcode faults even when suppressed; a reserved field value faults when the
slot executes (R96, R100). -/
inductive Dec (α : Type) where
  | reserved
  | badField
  | op (o : α)
deriving DecidableEq, Repr

/-- Bits `[lo + n − 1 : lo]` of a slot word. -/
def fld (w : W32) (lo n : Nat) : BitVec n := w.extractLsb' lo n

/-- The slot's opcode (R95). -/
def opcodeOf (w : W32) : Nat := (fld w 26 6).toNat

/-- The slot's predicate (R95). -/
def predOf (w : W32) : Pred := ⟨w.getLsbD 25, fld w 22 3⟩

/-- An optional field value, or the illegal-bundle case of R96. -/
def field {α β : Type} (o : Option α) (f : α → β) : Dec β :=
  match o with
  | some a => .op (f a)
  | none => .badField

def aluFnOf : Nat → Option AluFn
  | 0 => some .add | 1 => some .sub | 2 => some .and | 3 => some .or | 4 => some .xor | 5 => some .shl | 6 => some .shr
  | 7 => some .sra | 8 => some .mul | 9 => some .min | 10 => some .max | 11 => some .minu | 12 => some .maxu
  | _ => none

def condOf : Nat → Option Cond
  | 0 => some .eq | 1 => some .ne | 2 => some .lt | 3 => some .ge | 4 => some .ltu | 5 => some .geu | _ => none

def pFnOf : Nat → PFn
  | 0 => .and | 1 => .or | 2 => .xor | _ => .andn

def szOf (v : BitVec 3) : Option Sz :=
  if v.toNat < 4 then some (.quarter (v.setWidth 2)) else if v.toNat = 4 then some .full else none

def fillKindOf : Nat → Option FillKind
  | 0 => some .weights | 1 => some .scales | 2 => some .columns | _ => none

def vfpFnOf : Nat → Option VfpFn
  | 0 => some .add | 1 => some .sub | 2 => some .mul | 3 => some .fma | 4 => some .fms | 5 => some .fnma
  | 6 => some .max | 7 => some .min | 8 => some .and | 9 => some .or | 10 => some .xor | 11 => some .iadd
  | 12 => some .isub | 13 => some .shl | 14 => some .shr | _ => none

/-- VFN func (R134). R134 lists 0 to 4 and does not call 5 to 7 reserved; they are taken as reserved values of R96 (DEDUCED,
log 83). -/
def vfnFnOf : Nat → Option VfnFn
  | 0 => some .exp2 | 1 => some .rcp | 2 => some .rsq | 3 => some .abs | 4 => some .neg | _ => none

def vCondOf : Nat → Option VCond
  | 0 => some .eq | 1 => some .ne | 2 => some .lt | 3 => some .le | 4 => some .ilt | 5 => some .ieq | _ => none

def packFmtOf : Nat → Option PackFmt
  | 0 => some .b4 | 1 => some .b6 | 2 => some .b8 | 3 => some .b16 | 4 => some .mxScales | 5 => some .k4Scales
  | _ => none

/-- The fmt code of R137, 0 to 6. -/
def narrowOf : Nat → Option Narrow
  | 0 => some .bf16 | 1 => some .e4m3 | 2 => some .e5m2 | 3 => some .e2m3 | 4 => some .e3m2 | 5 => some .e2m1
  | 6 => some .int8 | _ => none

/-- VCVT fmt: 0 to 6 into a narrow format, 8 to 14 out of it (R137). -/
def cvtFmtOf (n : Nat) : Option CvtFmt :=
  if n < 8 then (narrowOf n).map .into else (narrowOf (n - 8)).map .outOf

/-- VQMX fmt (R139). R139 lists 0 to 4 and does not call 5 to 7 reserved; they are taken as reserved values of R96 (DEDUCED,
log 83). -/
def mxFmtOf : Nat → Option Narrow
  | 0 => some .e2m1 | 1 => some .e2m3 | 2 => some .e3m2 | 3 => some .e4m3 | 4 => some .e5m2 | _ => none

/-- The C slot's opcode table (R106). -/
def decodeC (w : W32) : Dec COp :=
  match opcodeOf w with
  | 0x00 => .op .nop
  | 0x01 => field (aluFnOf (fld w 0 7).toNat) (.alu (fld w 17 5) (fld w 12 5) (fld w 7 5))
  | 0x02 => .op (.addi (fld w 17 5) (fld w 12 5) (fld w 0 12))
  | 0x03 => .op (.andi (fld w 17 5) (fld w 12 5) (fld w 0 12))
  | 0x04 => .op (.ori (fld w 17 5) (fld w 12 5) (fld w 0 12))
  | 0x05 => .op (.xori (fld w 17 5) (fld w 12 5) (fld w 0 12))
  | 0x06 => .op (.shli (fld w 17 5) (fld w 12 5) (fld w 0 5))
  | 0x07 => .op (.shri (fld w 17 5) (fld w 12 5) (fld w 0 5))
  | 0x08 => .op (.srai (fld w 17 5) (fld w 12 5) (fld w 0 5))
  | 0x09 => .op (.muli (fld w 17 5) (fld w 12 5) (fld w 0 12))
  | 0x0A => .op (.movl (fld w 17 5) (fld w 0 16))
  | 0x0B => .op (.movh (fld w 17 5) (fld w 0 16))
  | 0x0C => field (condOf (fld w 6 3).toNat) (.cmp (fld w 19 3) (fld w 14 5) (fld w 9 5))
  | 0x0D => field (condOf (fld w 11 3).toNat) (fun c => .cmpi (fld w 19 3) (fld w 14 5) c (fld w 0 11))
  | 0x0E => .op (.plog (fld w 19 3) (fld w 16 3) (fld w 13 3) (pFnOf (fld w 11 2).toNat))
  | 0x10 => .op (.br (fld w 0 14))
  | 0x11 => .op (.jal (fld w 17 5) (fld w 0 14))
  | 0x12 => .op (.jr (fld w 17 5))
  | 0x13 => .op (.loop (fld w 17 5) (fld w 0 14))
  | 0x14 => .op (.loopi (fld w 14 8) (fld w 0 14))
  | 0x15 => .op .lpop
  | 0x16 => .op (.csrr (fld w 18 4) (fld w 0 13))
  | 0x17 => .op (.csrw (fld w 18 4) (fld w 0 13))
  | 0x18 => .op .sig
  | 0x19 => .op .beat
  | _ => .reserved

/-- The M slot's opcode table (R116). -/
def decodeM (w : W32) : Dec MOp :=
  match opcodeOf w with
  | 0x00 => .op .nop
  | 0x01 => .op (.lds (fld w 17 5) (fld w 13 4) (fld w 0 13))
  | 0x02 => .op (.sts (fld w 17 5) (fld w 13 4) (fld w 0 13))
  | 0x03 => field (szOf (fld w 9 3)) (fun z => .ldv (fld w 16 6) (fld w 12 4) z (fld w 0 9))
  | 0x04 => field (szOf (fld w 9 3)) (fun z => .stv (fld w 16 6) (fld w 12 4) z (fld w 0 9))
  | 0x05 => .op (.aaddi (fld w 18 4) (fld w 14 4) (fld w 0 14))
  | 0x06 => .op (.aadd (fld w 18 4) (fld w 14 4) (fld w 9 5) (fld w 6 3))
  | 0x07 => .op (.amov (fld w 18 4) (fld w 13 5) (fld w 8 5))
  | 0x08 => .op (.aget (fld w 17 5) (fld w 13 4) (w.getLsbD 12))
  | 0x09 => field (fillKindOf (fld w 19 2).toNat) (fun k => .wfill (w.getLsbD 21) k (fld w 15 4) (fld w 10 5))
  | 0x0A => .op (.sarm (fld w 18 4) (fld w 6 12) (w.getLsbD 5) (fld w 1 4))
  | 0x0B => .op (.ureq (fld w 18 4))
  | 0x0C => .op (.xsnd (fld w 18 4) (fld w 13 5) (fld w 9 4) (fld w 7 2))
  | 0x0D => .op (.vext (fld w 17 5) (fld w 11 6) (fld w 2 9))
  | _ => .reserved

/-- The T slot's opcode table (R126). -/
def decodeT (w : W32) : Dec TOp :=
  match opcodeOf w with
  | 0x00 => .op .nop
  | 0x01 => .op (.tcfg (w.getLsbD 21) (fld w 16 5) (fld w 11 5))
  | 0x02 => .op (.trow (w.getLsbD 21) (fld w 17 4) (fld w 13 4) (fld w 8 5) (fld w 0 8))
  | 0x03 => .op (.tswp (w.getLsbD 21))
  | 0x04 => .op (.tdrn (w.getLsbD 21) (fld w 15 6) (fld w 13 2) (fld w 8 5))
  | _ => .reserved

/-- The V slot's opcode table (R134). -/
def decodeV (w : W32) : Dec VOp :=
  match opcodeOf w with
  | 0x00 => .op .nop
  | 0x01 => field (vfpFnOf (fld w 0 4).toNat) (.vfp (fld w 16 6) (fld w 10 6) (fld w 4 6))
  | 0x02 => field (vfnFnOf (fld w 7 3).toNat) (.vfn (fld w 16 6) (fld w 10 6))
  | 0x03 => field (vCondOf (fld w 1 3).toNat) (.vcmp (fld w 16 6) (fld w 10 6) (fld w 4 6))
  | 0x04 => field (vCondOf (fld w 4 3).toNat)
      (fun c => .vcmpp (fld w 19 3) (fld w 13 6) (fld w 7 6) c (w.getLsbD 3))
  | 0x05 => .op (.vsel (fld w 16 6) (fld w 10 6) (fld w 4 6))
  | 0x06 => .op (.vsplat (fld w 16 6) (fld w 11 5))
  | 0x07 => .op (.viota (fld w 16 6))
  | 0x08 => .op (.vperm (fld w 16 6) (fld w 10 6) (fld w 4 6))
  | 0x09 => .op (.vrot (fld w 16 6) (fld w 10 6) (fld w 1 9))
  | 0x0A => field (cvtFmtOf (fld w 6 4).toNat) (.vcvt (fld w 16 6) (fld w 10 6))
  | 0x0B => field (narrowOf (fld w 7 3).toNat) (fun n => .vsr (fld w 16 6) (fld w 10 6) n (fld w 4 3))
  | 0x0C => field (packFmtOf (fld w 7 3).toNat) (.vpack (fld w 16 6) (fld w 10 6))
  | 0x0D => field (packFmtOf (fld w 7 3).toNat) (.vunpk (fld w 16 6) (fld w 10 6))
  | 0x0E => .op (.vred (fld w 16 6) (fld w 10 6) (w.getLsbD 9))
  | 0x0F => field (mxFmtOf (fld w 7 3).toNat)
      (fun n => .vqmx (fld w 16 6) (fld w 10 6) n (w.getLsbD 6) (fld w 3 3))
  | 0x10 => .op (.vqk4 (fld w 16 6) (fld w 10 6) (fld w 5 5) (w.getLsbD 4) (fld w 1 3))
  | _ => .reserved

/-- One decoded slot. -/
structure Slot (α : Type) where
  pred : Pred
  dec : Dec α
deriving DecidableEq, Repr

/-- A decoded bundle (R94). -/
structure Bun where
  c : Slot COp
  m : Slot MOp
  t : Slot TOp
  v : Slot VOp
deriving DecidableEq, Repr

/-- The four slots of a bundle: C in [127:96] down to V in [31:0] (R94). -/
def decodeBundle (b : Bundle) : Bun :=
  let c := b.extractLsb' 96 32
  let m := b.extractLsb' 64 32
  let t := b.extractLsb' 32 32
  let v := b.extractLsb' 0 32
  ⟨⟨predOf c, decodeC c⟩, ⟨predOf m, decodeM m⟩, ⟨predOf t, decodeT t⟩, ⟨predOf v, decodeV v⟩⟩

end Sys2Proof.Machine
end

