-- ==== Sys2Proof/Machine/Operands.lean ====
section
/-!
DEFINITION. Operand forms: the places of tiles and fields, register reads, predicates and effective addresses of the
tile instruction set (R4, R97, R99, R116, R117, R136).
-/

namespace Sys2Proof.Machine

/-! ### Places (R4) -/

/-- Physical row of a tile. -/
def tileRow (ix : Nat) : Nat := ix / 40
/-- Physical column of a tile. -/
def tileCol (ix : Nat) : Nat := ix % 40
/-- The field a physical tile lies in. -/
def tileField (ix : Nat) : Nat := 8 * (tileRow ix / 4) + tileCol ix / 5
/-- The tile's local index `5·lr + lc` in its field. -/
def tileLocal (ix : Nat) : Nat := 5 * (tileRow ix % 4) + tileCol ix % 5
/-- The physical tile at a row and column. -/
def tileAt (pr pc : Nat) : Nat := 40 * pr + pc
/-- The physical tile of a field at a local index. -/
def fieldTile (f l : Nat) : Nat := tileAt (4 * (f / 8) + l / 5) (5 * (f % 8) + l % 5)
/-- A spare-column tile: local column 4 (R67). -/
def isSpareCol (ix : Nat) : Bool := tileCol ix % 5 == 4
/-- The zone of a field. -/
def fieldZone (f : Nat) : Nat := 4 * (f / 8 / 2) + f % 8 / 2
/-- A field on the wafer perimeter (R220). -/
def isEdgeField (f : Nat) : Bool := f / 8 == 0 || f / 8 == 7 || f % 8 == 0 || f % 8 == 7

/-! ### Registers -/

/-- Scalar register read: s0 reads zero (R97). -/
def readS (r : Regs) (i : Nat) : W32 := if i = 0 then 0 else look 0 r.s i

/-- Scalar register write: a write to s0 is discarded (R97). -/
def writeS (r : Regs) (i : Nat) (v : W32) : Regs := if i = 0 then r else { r with s := put 0 r.s i v }

/-- Predicate read: p0 reads 1 (R97). -/
def readP (r : Regs) (i : Nat) : Bool := if i = 0 then true else look false r.p i

/-- Predicate write: a write to p0 is discarded (R97). -/
def writeP (r : Regs) (i : Nat) (v : Bool) : Regs := if i = 0 then r else { r with p := put false r.p i v }

/-- Address register read. -/
def readA (r : Regs) (i : Nat) : Addr := look 0 r.a i

/-- Address register write. -/
def writeA (r : Regs) (i : Nat) (v : Addr) : Regs := { r with a := put 0 r.a i v }

/-- Vector register read. -/
def readV (r : Regs) (i : Nat) : VReg := look zeroV r.v i

/-- Vector register write. -/
def writeV (r : Regs) (i : Nat) (v : VReg) : Regs := { r with v := put zeroV r.v i v }

/-- Lane `l` of a register. -/
def lane (v : VReg) (l : Nat) : W32 := v.getD l 0

/-- `n` lanes: the first of `xs`, and zero lanes beyond its end. -/
def fit (n : Nat) (xs : List W32) : List W32 := (xs ++ List.replicate n 0).take n

/-- Quarter `q`, lanes 128·q to 128·q + 127. -/
def quarterOf (v : VReg) (q : Nat) : List W32 := fit 128 (v.drop (128 * q))

/-- `v` with quarter `q` replaced. -/
def setQuarter (v : VReg) (q : Nat) (xs : List W32) : VReg :=
  fit (128 * q) v ++ fit 128 xs ++ fit (512 - 128 * (q + 1)) (v.drop (128 * (q + 1)))

/-- A slot executes when its predicate XOR pneg is 1 (R99). -/
def executes (r : Regs) (p : Pred) : Bool := readP r p.idx.toNat != p.neg

/-! ### Effective addresses (R116) -/

/-- Address register plus a signed immediate scaled by `k` bytes, modulo 2^48. -/
def effAddr (base : Addr) {n : Nat} (imm : BitVec n) (k : Nat) : Addr :=
  base + imm.signExtend 48 * BitVec.ofNat 48 k

/-- The address with its low `b` bits ignored. -/
def alignDown (a b : Nat) : Nat := a - a % 2 ^ b

/-- Whether `n` bytes from `a` lie in the tile store range (R117). -/
def inStore (a n : Nat) : Bool := decide (a + n ≤ 2 ^ 24)

/-! ### Lanes and bytes (R136) -/

/-- The 2,048 bytes of a vector register, or of some of its lanes, in ascending lane order. -/
def laneBytes : List W32 → List Byte
  | [] => []
  | w :: ws => natLe 4 w.toNat ++ laneBytes ws

/-- Lanes from bytes, `n` of them. -/
def bytesLanes : Nat → List Byte → List W32
  | 0, _ => []
  | n + 1, bs => BitVec.ofNat 32 (leNat (bs.take 4)) :: bytesLanes n (bs.drop 4)

/-- `n` elements of `w` bits packed from bit 0 of a little-endian string (R70). -/
def packBits (w : Nat) : List Nat → Nat
  | [] => 0
  | x :: xs => x % 2 ^ w + 2 ^ w * packBits w xs

/-- Element `i` of a little-endian bit string of `w`-bit elements (R70). -/
def unpackBits (w i v : Nat) : Nat := v / 2 ^ (w * i) % 2 ^ w

end Sys2Proof.Machine
end

