-- ==== Sys2Proof/Machine/Flags.lean ====
section
/-!
DEFINITION. Flag computations: scalar and vector compares, predicate logic, the sticky flags of a tile and its event
line, saturating and wrapping counts (R59–R63, R106, R135, R321, R322).
-/

namespace Sys2Proof.Machine

/-- A scalar compare; LT and GE compare signed (R106). -/
def condHolds (c : Cond) (a b : W32) : Bool :=
  match c with
  | .eq => a == b
  | .ne => a != b
  | .lt => a.slt b
  | .ge => !a.slt b
  | .ltu => a.ult b
  | .geu => !a.ult b

/-- PLOG (R106). -/
def pLogic (f : PFn) (a b : Bool) : Bool :=
  match f with
  | .and => a && b
  | .or => a || b
  | .xor => a != b
  | .andn => a && !b

/-! ### Sticky bits of int_status (R67) -/

def bitImemCorr : Nat := 0
def bitStoreCorr : Nat := 1
def bitVregClash : Nat := 2
def bitBankConflict : Nat := 3
def bitOqStall : Nat := 4
def bitWswapStall : Nat := 5
def bitOverrun : Nat := 6
def bitXlimit : Nat := 7
def bitEscape : Nat := 8
def bitCounterOvf : Nat := 9
def bitSampleFull : Nat := 10
def bitBwSnapshot : Nat := 11
def bitNan : Nat := 12
def bitSignal : Nat := 13
def bitImemBlocked : Nat := 14

/-- The bits of int_status that are not reserved. -/
def intMask : W64 := 0x3F7FFF#64
/-- The fatal bits, which assert the event line whatever int_enable holds (R60). -/
def fatalMask : W64 := 0x3F0000#64

/-- One bit of a 64-bit register. -/
def bit64 (i : Nat) : W64 := 1#64 <<< i

/-- A hardware set of a sticky bit of int_status. -/
def setInt (t : Tile) (i : Nat) : Tile := { t with csr := { t.csr with intStatus := t.csr.intStatus ||| bit64 i } }

/-- `setInt` when `b` holds. -/
def setIntIf (b : Bool) (t : Tile) (i : Nat) : Tile := if b then setInt t i else t

/-- A W1C write met by hardware sets of `hw`: the set wins (R62). -/
def w1c (old clear hw : W64) : W64 := (old &&& ~~~clear) ||| hw

/-- The tile's event line (R59, R60). -/
def eventLine (t : Tile) : Bool := (t.csr.intStatus &&& (t.csr.intEnable ||| fatalMask)) != 0

/-- A count that saturates at all ones. -/
def satInc {w : Nat} (v : BitVec w) (n : Nat) : BitVec w := BitVec.ofNat w (min (v.toNat + n) (2 ^ w - 1))

/-! ### Programmable event counters (R321, R322) -/

/-- Whether counter `n` counts event `ev` now. -/
def counts (t : Tile) (n ev : Nat) : Bool :=
  let s := look 0 t.inst.evsel n
  s.getLsbD 15 && (s.extractLsb' 0 10).toNat == ev && !t.inst.sampCtrl.getLsbD 3 &&
    (!s.getLsbD 16 || t.tstate = .issue || t.tstate = .wait)

/-- Counter `n` advanced by `k`, wrapping at 2^48 with ovf and counter_ovf set (R322). -/
def bumpOne (t : Tile) (n k : Nat) : Tile :=
  let v := (look 0 t.inst.evcnt n).toNat + k
  let t1 := { t with inst := { t.inst with evcnt := put 0 t.inst.evcnt n (BitVec.ofNat 48 v) } }
  if v < 2 ^ 48 then t1
  else
    setInt { t1 with inst := { t1.inst with evsel := upd 0 t1.inst.evsel n (· ||| bit64 63) } } bitCounterOvf

/-- samp_ctrl's selection interval exponent, at most 20 (R329). -/
def sampK (t : Tile) : Nat := min (t.inst.sampCtrl.extractLsb' 16 5).toNat 20
/-- samp_ctrl.mode. -/
def sampMode (t : Tile) : Nat := (t.inst.sampCtrl.extractLsb' 0 2).toNat

/-- `k` selectable occurrences in each of `cycles` cycles: the count advances, and a cycle that crosses a multiple of 2^k
selects once (R325). A selection made while a record is in progress increments missed (R326). -/
def selectStep (t : Tile) (cycles k : Nat) : Tile :=
  let c := t.inst.selCount + cycles * k
  let hits := min cycles (c / 2 ^ sampK t - t.inst.selCount / 2 ^ sampK t)
  let t1 := { t with inst := { t.inst with selCount := c } }
  if hits = 0 then t1
  else
    let taken := b2n (t1.inst.inProgress.isNone && !t1.inst.selWait)
    { t1 with inst := { t1.inst with
      selWait := t1.inst.selWait || taken == 1, sampMissed := satInc t1.inst.sampMissed (hits - taken) } }

/-- `k` occurrences of event `ev` in each of `cycles` cycles: the event counters and event-mode sampling (R321, R324,
R325). -/
def bumpFor (cycles ev k : Nat) (t : Tile) : Tile :=
  if cycles * k = 0 then t else
  let t1 := repeatN (fun n u => if counts u n ev then bumpOne u n (cycles * k) else u) 8 t
  if sampMode t1 = 2 ∧ (t1.inst.sampCtrl.extractLsb' 32 10).toNat = ev then selectStep t1 cycles k else t1

/-- `k` occurrences of event `ev` in one cycle. -/
def bump (ev k : Nat) (t : Tile) : Tile := bumpFor 1 ev k t

/-- The tile is in a state in which cyc_count counts (R319). -/
def countsCycles (t : Tile) : Bool :=
  match t.tstate with
  | .idle => true | .issue => true | .wait => true | .held => true | _ => false

/-- The tile's own cycle counts up to cycle `cyc` of the tick: cyc_count, and the events of TCLK cycles and of outstanding
transfers (R319, R324). They stand at the cycle last reported. -/
def passTo (cyc : Nat) (t : Tile) : Tile :=
  if t.tstate = .off then t else
  let n := cyc - t.seq.cycle
  let t1 := bumpFor n 0x052 t.xfer.ureqs.length (bumpFor n 0x001 1 t)
  { t1 with
    seq := { t1.seq with cycle := max t1.seq.cycle cyc }
    inst := { t1.inst with cyc := t1.inst.cyc + BitVec.ofNat 64 (if countsCycles t then n else 0) } }

end Sys2Proof.Machine
end

