-- ==== Sys2Proof/Machine/TileCsrs.lean ====
section
/-!
DEFINITION. The tile CSR map: reads and writes of every register under its access code (R65–R67, R9, R3, R319–R331), and
the state the three tile resets leave (R58, R332).
-/

namespace Sys2Proof.Machine

/-- What a tile's operation reads of the rest of the data plane. -/
structure Ctx where
  /-- the module is RUNNING: RWL fields are locked (R9) -/
  running : Bool
  /-- throttle as latched gates both trusses (R51) -/
  throttle : Bool
  /-- a run exists: a fatal fault becomes a beat fault (R60) -/
  run : Bool
  /-- the beat counter as latched at the last boundary -/
  beat : W64
  tick : W64
  /-- bytes of the field's stack window in range under its mode (R200) -/
  stackBytes : Nat
deriving DecidableEq, Repr

/-- The tstate code (R57). OFF is never read back. -/
def tstateCode : TState → Nat
  | .off => 0
  | .reset => 1
  | .idle => 2
  | .issue => 3
  | .wait => 4
  | .held => 5
  | .fault => 6

/-- Rows in flight: started and not yet queued, or of an issued batch and not yet started (R129). -/
def rowsInFlight (u : Truss) : Bool := !u.inflight.isEmpty || u.active.isSome || u.pending.isSome

/-- tile_id (R67). -/
def tileIdReg (ix : Nat) (t : Tile) : W64 :=
  BitVec.ofNat 64
    (t.csr.module.toNat * 2 ^ 56 + t.csr.logicalRow.toNat * 2 ^ 51 + t.csr.logicalCol.toNat * 2 ^ 46 +
      b2n (isSpareCol ix) * 2 ^ 45 + b2n t.csr.logicalValid * 2 ^ 44 + tileField ix * 2 ^ 38 +
      tileRow ix * 2 ^ 27 + tileCol ix * 2 ^ 21)

/-- tile_status (R67). -/
def tileStatusReg (cx : Ctx) (t : Tile) : W64 :=
  BitVec.ofNat 64
    (t.truss1.queue.length * 2 ^ 20 + t.truss0.queue.length * 2 ^ 16 + b2n t.truss1.filling * 2 ^ 11 +
      b2n t.truss0.filling * 2 ^ 10 + b2n t.truss1.activeB * 2 ^ 9 + b2n t.truss0.activeB * 2 ^ 8 +
      b2n cx.throttle * 2 ^ 7 + b2n (rowsInFlight t.truss1) * 2 ^ 6 + b2n (rowsInFlight t.truss0) * 2 ^ 5 +
      b2n t.csr.imemValid * 2 ^ 4 + tstateCode t.tstate)

/-- fault_info (R67). -/
def faultInfoReg (t : Tile) : W64 :=
  BitVec.ofNat 64 (t.csr.faultBeat.toNat * 2 ^ 32 + t.csr.faultPc.toNat * 2 ^ 16 + t.csr.faultCause.toNat)

/-- samp_status (R329). -/
def sampStatusReg (t : Tile) : W64 :=
  BitVec.ofNat 64
    (t.inst.sampSeq.toNat * 2 ^ 32 + t.inst.sampMissed.toNat * 2 ^ 16 + t.inst.sampValid * 2 ^ 8 + t.inst.sampPtr)

/-- A 64-bit read of a tile CSR; reserved offsets read zero (R65, R67). -/
def csrRead (cx : Ctx) (ix : Nat) (t : Tile) (off : Nat) : W64 :=
  if off = 0x0000 then tileIdReg ix t
  else if off = 0x0008 then 0x00090100#64
  else if off = 0x0010 then t.csr.ctrl
  else if off = 0x0018 then tileStatusReg cx t
  else if off = 0x0020 then t.seq.lastPc.setWidth 64
  else if off = 0x0028 then faultInfoReg t
  else if off = 0x0030 then cx.beat
  else if off = 0x0038 then BitVec.ofNat 64 (t.seq.lastDone % 2 ^ 16 * 2 ^ 16 + t.seq.cycle % 2 ^ 16)
  else if off = 0x0040 then t.csr.intStatus
  else if off = 0x0048 then t.csr.intEnable
  else if off = 0x0058 then BitVec.ofNat 64 (t.csr.imemLast.toNat * 2 ^ 32 + t.csr.imemCorrected.toNat)
  else if off = 0x0060 then BitVec.ofNat 64 (t.csr.storeLast.toNat * 2 ^ 32 + t.csr.storeCorrected.toNat)
  else if off = 0x0068 then t.csr.bankConflicts.setWidth 64
  else if off = 0x0070 then t.csr.srKey
  else if off = 0x0078 then t.csr.vfpCtrl
  else if 0x0100 ≤ off ∧ off ≤ 0x0138 then look 0 t.csr.mailbox ((off - 0x0100) / 8)
  else if off = 0x0400 then t.inst.cyc
  else if off = 0x0408 then t.inst.beats
  else if off = 0x0410 then t.inst.issued
  else if off = 0x0418 then t.inst.trussBusy
  else if off = 0x0420 then t.inst.overrun
  else if 0x0500 ≤ off ∧ off ≤ 0x0538 then (look 0 t.inst.evcnt ((off - 0x0500) / 8)).setWidth 64
  else if 0x0580 ≤ off ∧ off ≤ 0x05B8 then look 0 t.inst.evsel ((off - 0x0580) / 8)
  else if off = 0x0600 then t.inst.sampCtrl
  else if off = 0x0608 then sampStatusReg t
  else if off = 0x0618 then t.inst.waitRange
  else if 0x0800 ≤ off ∧ off ≤ 0x0FFF then
    (look 0 t.inst.buffer ((off - 0x0800) / 32)).extractLsb' (64 * ((off - 0x0800) % 32 / 8)) 64
  else if off = 0x1000 then t.inst.bwCtrl
  else if off = 0x1008 then BitVec.ofNat 64 (t.inst.snapTick.toNat * 2 ^ 32 + t.inst.snapSeq.toNat)
  else if 0x1040 ≤ off ∧ off ≤ 0x10FF then look 0 t.inst.banks ((off - 0x1040) / 8)
  else 0

/-- W1C of int_status, met by hardware sets `hw` in the same cycle (R62); its reserved bits stay 0 (R67). -/
def clearInt (t : Tile) (mask hw : W64) : Tile :=
  { t with csr := { t.csr with intStatus := w1c t.csr.intStatus mask (hw &&& intMask) } }

/-- W1S of int_force (R63, R67). -/
def forceInt (t : Tile) (mask : W64) : Tile :=
  { t with csr := { t.csr with intStatus := t.csr.intStatus ||| (mask &&& intMask) } }

/-- A write of evcntN: the written value stands over that cycle's increment (R323). -/
def writeEvcnt (t : Tile) (n : Nat) (v : W64) : Tile :=
  { t with inst := { t.inst with evcnt := put 0 t.inst.evcnt n (v.setWidth 48) } }

/-- A write of evselN: the select fields are written, ovf is W1C (R321). -/
def writeEvsel (t : Tile) (n : Nat) (v : W64) : Tile :=
  let old := look 0 t.inst.evsel n
  let new := (v &&& 0x183FF#64) ||| (old &&& bit64 63 &&& ~~~v)
  { t with inst := { t.inst with evsel := put 0 t.inst.evsel n new } }

/-- A write of samp_release: valid falls by n, to no less than 0 (R328). -/
def releaseSamples (t : Tile) (n : Nat) : Tile :=
  { t with inst := { t.inst with sampValid := t.inst.sampValid - n } }

/-- Whether a mode is off (0b00, and 0b11 which acts as off). -/
def modeOff (m : Nat) : Bool := m == 0 || m == 3

/-- A write of samp_ctrl: a change of mode or k, or a rise of mode from off, restarts the selection count (R325). -/
def writeSampCtrl (t : Tile) (v : W64) : Tile :=
  let new := v &&& 0x3FF001F000F#64
  let t1 := { t with inst := { t.inst with sampCtrl := new } }
  if sampMode t = sampMode t1 ∧ sampK t = sampK t1 then t1
  else { t1 with inst := { t1.inst with selCount := 0, selWait := false } }

/-- A write of bw_ctrl: a rise of enable opens the first window at the next boundary, a fall discards the open window
(R331). -/
def writeBwCtrl (t : Tile) (v : W64) : Tile :=
  let new := v &&& 0x800CFFFF#64
  let was := t.inst.bwCtrl.getLsbD 31
  let now := new.getLsbD 31
  let t1 := { t with inst := { t.inst with bwCtrl := new } }
  if now && !was then { t1 with inst := { t1.inst with openNext := true, window := none } }
  else if was && !now then { t1 with inst := { t1.inst with openNext := false, window := none } }
  else t1

/-- A 64-bit write of a tile CSR under its access code: RO and reserved offsets ignore it, RWL fields keep their value
while the module is RUNNING (R9, R65, R67). -/
def csrWrite (cx : Ctx) (t : Tile) (off : Nat) (v : W64) : Tile :=
  if off = 0x0010 then
    if cx.running then t else { t with csr := { t.csr with ctrl := v &&& 0xFF8E#64 } }
  else if off = 0x0040 then clearInt t v 0
  else if off = 0x0048 then { t with csr := { t.csr with intEnable := v &&& intMask } }
  else if off = 0x0050 then forceInt t v
  else if off = 0x0070 then if cx.running then t else { t with csr := { t.csr with srKey := v } }
  else if off = 0x0078 then if cx.running then t else { t with csr := { t.csr with vfpCtrl := v &&& 3#64 } }
  else if 0x0100 ≤ off ∧ off ≤ 0x0138 then
    { t with csr := { t.csr with mailbox := put 0 t.csr.mailbox ((off - 0x0100) / 8) v } }
  else if 0x0500 ≤ off ∧ off ≤ 0x0538 then writeEvcnt t ((off - 0x0500) / 8) v
  else if 0x0580 ≤ off ∧ off ≤ 0x05B8 then writeEvsel t ((off - 0x0580) / 8) v
  else if off = 0x0600 then writeSampCtrl t v
  else if off = 0x0610 then releaseSamples t (v.extractLsb' 0 7).toNat
  else if off = 0x0618 then { t with inst := { t.inst with waitRange := v &&& 0xBFFF3FFF#64 } }
  else if off = 0x1000 then writeBwCtrl t v
  else t

/-! ### Resets (R58, R332, R585) -/

/-- The instruments after a load reset (R332). -/
def instrumentsLoadReset (i : Instruments) : Instruments :=
  { i with
    cyc := 0, beats := 0, issued := 0, trussBusy := 0, overrun := 0, evcnt := []
    evsel := mapListed 0 (fun _ v => v &&& ~~~(bit64 63)) i.evsel
    selCount := 0, selWait := false, inProgress := none
    sampSeq := 0, sampMissed := 0, sampValid := 0, sampPtr := 0
    snapTick := 0, snapSeq := 0, banks := [], window := none, closing := none, openNext := i.bwCtrl.getLsbD 31 }

/-- A truss with its buffers and queue zero and its work abandoned; which buffer is active and the configuration are not
in R58's table and stay. The column-scale files, part of the scale buffers (R72), are cleared with them (DEDUCED, log 72). -/
def clearTruss (u : Truss) : Truss := { Truss.zero with activeB := u.activeB, cfg := u.cfg }

/-- What every reset clears: registers and truss buffers and queues. The sequencer's unfinished work ends with it; arms,
transfers and exchange records are not in R58's table and stay. -/
def clearWork (t : Tile) : Tile :=
  { t with
    regs := { Regs.zero with loops := t.regs.loops }
    seq := { Seq.zero with lastPc := t.seq.lastPc, lastDone := t.seq.lastDone }
    truss0 := clearTruss t.truss0, truss1 := clearTruss t.truss1 }

/-- The tile as a power-up reset leaves it, in RESET. -/
def powerUpReset : Tile := { Tile.off with tstate := .reset, resetting := some .powerUp }

/-- The tile as a load reset leaves it, in RESET. -/
def loadReset (t : Tile) : Tile :=
  let t1 := clearWork t
  { t1 with
    tstate := .reset, resetting := some .load, report := none
    csr := { t1.csr with
      imemValid := false, intStatus := 0, faultCause := 0, faultPc := 0, faultBeat := 0
      imemCorrected := 0, imemLast := 0, storeCorrected := 0, storeLast := 0, bankConflicts := 0 }
    inst := instrumentsLoadReset t1.inst }

/-- The tile as a stop reset leaves it, in RESET; its outstanding UREQ transfers are abandoned (R199). -/
def stopReset (t : Tile) : Tile :=
  let t1 := clearWork t
  { t1 with
    tstate := .reset, resetting := some .stop, csr := { t1.csr with imemValid := false }
    xfer := { t1.xfer with ureqs := [] } }

/-- The reset in progress ends and the tile is IDLE (R57, R585). -/
def endReset (t : Tile) : Tile :=
  if t.tstate = .reset then { t with tstate := .idle, resetting := none } else t

end Sys2Proof.Machine
end

