-- ==== Sys2Proof/Machine/TrussRow.lean ====
section
/-!
DEFINITION. What a truss row computes (R69–R80, R84, R127–R131): operand classes, the exact block accumulator, special
values, the fold of a chunk's blocks and the canonical tree over its chunks.
-/

namespace Sys2Proof.Machine

/-- The operand classes (R71). -/
inductive OpClass where
  | mx4 | k4 | mx6 | mx8 | fp8t | int8 | bf16
deriving DecidableEq, Repr

/-- The class field of a truss configuration (R127). -/
def classOf (cfg : W64) : Option OpClass :=
  match (cfg.extractLsb' 0 3).toNat with
  | 0 => some .mx4 | 1 => some .k4 | 2 => some .mx6 | 3 => some .mx8 | 4 => some .fp8t | 5 => some .int8
  | 6 => some .bf16 | _ => none

/-- K of every row (R127). -/
def cfgK (cfg : W64) : Nat := (cfg.extractLsb' 16 12).toNat + 1

/-- Elements per chunk (R71). -/
def chunkLen : OpClass → Nat
  | .mx4 => 256 | .k4 => 256 | .bf16 => 32 | _ => 128

/-- Elements per block (R71); a BF16 chunk counts as one block of 32 products. -/
def blockLen : OpClass → Nat
  | .k4 => 16 | _ => 32

/-- Bytes of activation elements per chunk, c_b (R127). -/
def chunkBytes : OpClass → Nat
  | .mx6 => 96 | .bf16 => 64 | _ => 128

/-- Activation scale bytes per chunk, s_b (R127). -/
def scaleBytes : OpClass → Nat
  | .mx4 => 8 | .k4 => 16 | .mx6 => 4 | .mx8 => 4 | _ => 0

/-- Bits per element. -/
def elemBits : OpClass → Nat
  | .mx4 => 4 | .k4 => 4 | .mx6 => 6 | .bf16 => 16 | _ => 8

/-- The largest K per buffer (the table "Truss weight block limits per buffer"). -/
def maxK : OpClass → Nat
  | .mx4 => 4096 | .k4 => 4096 | .bf16 => 1024 | _ => 2048

/-- Whether the class has a format choice (R127). -/
def hasFmtChoice : OpClass → Bool
  | .mx6 => true | .mx8 => true | .fp8t => true | _ => false

/-- A configuration TCFG accepts (R127). -/
def cfgLegal (cfg : W64) : Bool :=
  match classOf cfg with
  | none => false
  | some c => (hasFmtChoice c || (!cfg.getLsbD 3 && !cfg.getLsbD 4)) && decide (cfgK cfg ≤ maxK c)

/-- Chunks per row, n (R127). -/
def rowChunks (cfg : W64) : Nat :=
  match classOf cfg with
  | none => 0
  | some c => ceilDiv (cfgK cfg) (chunkLen c)

/-- The element format of a class with its format bit (R71, R127). -/
def elemFmt (c : OpClass) (bit : Bool) : Fmt :=
  match c with
  | .mx4 => e2m1
  | .k4 => e2m1
  | .mx6 => if bit then e3m2 else e2m3
  | .mx8 => if bit then e5m2 else e4m3
  | .fp8t => if bit then e5m2 else e4m3
  | _ => bf16

/-- The value of an element encoding. -/
def elemVal (c : OpClass) (bit : Bool) (x : Nat) : FVal :=
  if c = .int8 then (if x < 128 then .fin false ⟨x, 1⟩ else .fin true ⟨256 - x, 1⟩)
  else decodeF (elemFmt c bit) x

/-- f of the table "Element integer form": elements are integers times 2^−f. -/
def elemF (c : OpClass) (bit : Bool) : Nat :=
  if c = .int8 then 0 else (elemFmt c bit).bias + (elemFmt c bit).man - 1

/-- The integer q of a finite element. -/
def elemInt (f : Nat) : FVal → Int
  | .fin neg q => let n : Int := (q.num * 2 ^ f / q.den : Nat); if neg then -n else n
  | _ => 0

/-- The value of a block scale byte: E8M0, or UE5M3 for K4; 1 where the class has none (R71). -/
def blockScale (c : OpClass) (x : Nat) : FVal :=
  match c with
  | .k4 => if x = 0xFF then .nan else .fin false (magQ ue5m3 x)
  | .mx4 => if x = 0xFF then .nan else .fin false (pow2Q ((x : Int) - 127))
  | .mx6 => if x = 0xFF then .nan else .fin false (pow2Q ((x : Int) - 127))
  | .mx8 => if x = 0xFF then .nan else .fin false (pow2Q ((x : Int) - 127))
  | _ => .fin false ⟨1, 1⟩

/-- Whether the class reads a row scale and a column scale (R71). -/
def hasRowScale : OpClass → Bool
  | .k4 => true | .fp8t => true | .int8 => true | _ => false

/-- A value is zero. -/
def isZeroV : FVal → Bool
  | .fin _ q => q.num == 0
  | _ => false

/-- The sign of a value. -/
def negOf : FVal → Bool
  | .nan => false
  | .inf n => n
  | .fin n _ => n

/-- A value is infinite. -/
def isInfV : FVal → Bool
  | .inf _ => true
  | _ => false

/-- A value is NaN. -/
def isNaNV : FVal → Bool
  | .nan => true
  | _ => false

/-- The exact accumulator over a block's pairs: Σ q_a·q_w, an integer times 2^(−f_a − f_w) (R74). Held as an exact integer;
R74 states that 80 bits never overflow. -/
def accum (fa fw : Nat) : List (FVal × FVal) → Int
  | [] => 0
  | (a, w) :: r => elemInt fa a * elemInt fw w + accum fa fw r

/-- Some Inf product of the given sign is present. -/
def hasInfProduct (neg : Bool) (ps : List (FVal × FVal)) : Bool :=
  ps.any (fun p => (isInfV p.1 || isInfV p.2) && ((negOf p.1 != negOf p.2) == neg))

/-- The block value of R75 and R76. Inf products of one sign under a scale product that is itself Inf × 0 (one of the row and
column scales Inf, another scale zero) fall under neither row 4 nor row 5 of R76; they give NaN (DESIGN CHOICE, log 83). -/
def blockValue (fa fw : Nat) (ps : List (FVal × FVal)) (sa sw row col : FVal) : F32 :=
  if ps.any (fun p => isNaNV p.1 || isNaNV p.2) || isNaNV sa || isNaNV sw || isNaNV row || isNaNV col then canonNaN
  else if ps.any (fun p => (isInfV p.1 && isZeroV p.2) || (isInfV p.2 && isZeroV p.1)) then canonNaN
  else
    let pos := hasInfProduct false ps
    let neg := hasInfProduct true ps
    let acc := accum fa fw ps
    let anyZero := isZeroV sa || isZeroV sw || isZeroV row || isZeroV col
    if pos && neg then canonNaN
    else if pos || neg then
      if anyZero then canonNaN else toF32 .rne (.inf ((neg != negOf row) != negOf col))
    else if isInfV row || isInfV col then
      if acc ≠ 0 ∧ !anyZero then toF32 .rne (.inf ((decide (acc < 0) != negOf row) != negOf col)) else canonNaN
    else
      match mulV (mulV sa sw) (mulV row col) with
      | .fin sneg sq =>
        let q := mulQ (mulQ ⟨acc.natAbs, 1⟩ (pow2Q (-((fa + fw : Nat) : Int)))) sq
        if q.num = 0 then 0#32 else toF32 .rne (.fin (decide (acc < 0) != sneg) q)
      | _ => canonNaN

/-- What a row reads: the store, the latched weight buffer, and the batch (R73, R128). -/
structure RowSrc where
  store : Memory
  w : WBuf
  b : Batch
  row : Nat
deriving DecidableEq, Repr

/-- The address of chunk `j`'s activation elements (R128). -/
def elemAddr (s : RowSrc) (c : OpClass) (j : Nat) : Nat :=
  (s.b.elemAt.toNat + 64 * (s.b.cfg.extractLsb' 32 16).toNat * s.row + chunkBytes c * j) % 2 ^ 48

/-- The address of chunk `j`'s activation scales (R128). -/
def scaleAddr (s : RowSrc) (c : OpClass) (j : Nat) : Nat :=
  (s.b.scaleAt.toNat + (s.b.cfg.extractLsb' 48 16).toNat * s.row + scaleBytes c * j) % 2 ^ 48

/-- The pairs of block `k` of chunk `j` for column `col`, zero at K index K and above (R130). -/
def blockPairs (c : OpClass) (cfg : W64) (aBits wBits j k : Nat) : List (FVal × FVal) :=
  (List.range (blockLen c)).map fun i =>
    let e := blockLen c * k + i
    if cfgK cfg ≤ chunkLen c * j + e then (.fin false ⟨0, 1⟩, .fin false ⟨0, 1⟩)
    else (elemVal c (cfg.getLsbD 3) (unpackBits (elemBits c) e aBits),
          elemVal c (cfg.getLsbD 4) (unpackBits (elemBits c) e wBits))

/-- The chunk value of chunk `j` for column `col` from the store as it stands when the chunk is read (R105, R128): the left
fold of its block values (R79), or the tree over its 32 products (R84). -/
def chunkValue (s : RowSrc) (c : OpClass) (col j : Nat) : F32 :=
  let cfg := s.b.cfg
  let aBits := leNat (readBytes s.store (elemAddr s c j) (chunkBytes c))
  let wBits := leNat (readBytes s.w.elems (j * 128 * chunkBytes c + col * chunkBytes c) (chunkBytes c))
  if c = .bf16 then
    ctree ((List.range 32).map fun i =>
      if cfgK cfg ≤ 32 * j + i then 0#32
      else toF32 .rne (mulV (decodeF bf16 (unpackBits 16 i aBits)) (decodeF bf16 (unpackBits 16 i wBits))))
  else
    let nb := chunkLen c / blockLen c
    let row := if hasRowScale c then val32 s.b.rowScale else .fin false ⟨1, 1⟩
    let colS := if hasRowScale c then val32 (readW32 s.w.cols (4 * col)) else .fin false ⟨1, 1⟩
    let vals := (List.range nb).map fun k =>
      if cfgK cfg ≤ chunkLen c * j + blockLen c * k then 0#32
      else
        blockValue (elemF c (cfg.getLsbD 3)) (elemF c (cfg.getLsbD 4)) (blockPairs c cfg aBits wBits j k)
          (blockScale c (readByte s.store (scaleAddr s c j + k)).toNat)
          (blockScale c (readByte s.w.scales ((j * nb + k) * 128 + col)).toNat) row colS
    match vals with
    | [] => 0#32
    | v :: vs => vs.foldl addRne v

/-- Every element and scale read of a batch lies in the tile store (R117, R128). -/
def batchInStore (b : Batch) : Bool :=
  match classOf b.cfg with
  | none => true
  | some c =>
    (List.range b.rows).all fun r =>
      (List.range (rowChunks b.cfg)).all fun j =>
        let s : RowSrc := ⟨[], WBuf.zero, b, r⟩
        inStore (elemAddr s c j) (chunkBytes c) && (scaleBytes c == 0 || inStore (scaleAddr s c j) (scaleBytes c))

/-- The active weight buffer of a truss. -/
def activeBuf (u : Truss) : WBuf := if u.activeB then u.bufB else u.bufA

/-- The truss with its inactive buffer replaced (R45). -/
def setInactive (u : Truss) (w : WBuf) : Truss := if u.activeB then { u with bufA := w } else { u with bufB := w }

/-- The inactive weight buffer. -/
def inactiveBuf (u : Truss) : WBuf := if u.activeB then u.bufA else u.bufB

/-- The row being read, or the one whose first chunk comes next: its weights and scales are those in force now (R73). -/
def rowNow (u : Truss) : RowRead := u.row.getD ⟨activeBuf u, []⟩

/-- The 128 results of a row from its chunk values (R80). -/
def rowResult (chunks : List (List F32)) : List F32 :=
  (List.range 128).map fun col => ctree (chunks.map fun v => v.getD col 0)

/-- The truss reads its next chunk (R47, R73, R128). With a row's last chunk the row is in flight, and with the last row of
the batch the pending batch becomes active (R129). -/
def readChunk (store : Memory) (u : Truss) : Truss :=
  match u.active with
  | none => u
  | some b =>
    match classOf b.cfg with
    | none => u
    | some c =>
      let r := rowNow u
      let src : RowSrc := ⟨store, r.buf, b, b.started⟩
      let chunks := r.chunks ++ [(List.range 128).map fun col => chunkValue src c col r.chunks.length]
      if chunks.length < rowChunks b.cfg then { u with row := some ⟨r.buf, chunks⟩ }
      else
        let u1 := { u with
          row := none
          inflight := u.inflight ++ [rowResult chunks] }
        if b.rows ≤ b.started + 1 then { u1 with
          active := u1.pending
          pending := none }
        else { u1 with active := some { b with started := b.started + 1 } }

/-- The store ranges the next chunk reads: its elements and its scales. -/
def chunkRanges (u : Truss) : List (Nat × Nat) :=
  match u.active with
  | none => []
  | some b =>
    match classOf b.cfg with
    | none => []
    | some c =>
      let s : RowSrc := ⟨[], WBuf.zero, b, b.started⟩
      let j := (rowNow u).chunks.length
      [(elemAddr s c j, chunkBytes c), (scaleAddr s c j, scaleBytes c)]

end Sys2Proof.Machine
end

