-- ==== Sys2Proof/Machine/Vector.lean ====
section
/-!
DEFINITION. The vector operations of the V slot as functions of whole registers (R53, R85–R91, R134–R140). Each answers
the result lanes and whether it sets nan_seen.
-/

namespace Sys2Proof.Machine

/-- A vector result and whether it sets nan_seen (R53). -/
abbrev VRes := VReg × Bool

/-- Lane-wise over one register. -/
def map1 (f : W32 → W32) (a : VReg) : VReg := (List.range 512).map fun l => f (lane a l)

/-- Lane-wise over two registers. -/
def map2 (f : W32 → W32 → W32) (a b : VReg) : VReg := (List.range 512).map fun l => f (lane a l) (lane b l)

/-- Lane-wise over three registers. -/
def map3 (f : W32 → W32 → W32 → W32) (a b d : VReg) : VReg :=
  (List.range 512).map fun l => f (lane a l) (lane b l) (lane d l)

/-- A floating-point result: NaN in any lane sets nan_seen (R53). -/
def fpRes (v : VReg) : VRes := (v, v.any isNaN32)

/-- VFP (R134, R135). `d` is the old destination, a source of the fused forms. -/
def vfpOp (m : RMode) (f : VfpFn) (a b d : VReg) : VRes :=
  match f with
  | .add => fpRes (map2 (addF m) a b)
  | .sub => fpRes (map2 (subF m) a b)
  | .mul => fpRes (map2 (mulF m) a b)
  | .fma => fpRes (map3 (fmaF m) a b d)
  | .fms => fpRes (map3 (fmsF m) a b d)
  | .fnma => fpRes (map3 (fnmaF m) a b d)
  | .max => fpRes (map2 maxF a b)
  | .min => fpRes (map2 minF a b)
  | .and => (map2 (· &&& ·) a b, false)
  | .or => (map2 (· ||| ·) a b, false)
  | .xor => (map2 (· ^^^ ·) a b, false)
  | .iadd => (map2 (· + ·) a b, false)
  | .isub => (map2 (· - ·) a b, false)
  | .shl => (map2 (fun x y => x <<< (y.toNat % 32)) a b, false)
  | .shr => (map2 (fun x y => x >>> (y.toNat % 32)) a b, false)

/-- VFN (R53, R134): ABS and NEG change only bit 31. -/
def vfnOp (m : RMode) (f : VfnFn) (a : VReg) : VRes :=
  match f with
  | .exp2 => fpRes (map1 exp2F a)
  | .rcp => fpRes (map1 (rcpF m) a)
  | .rsq => fpRes (map1 rsqF a)
  | .abs => (map1 (fun x => x &&& 0x7FFFFFFF#32) a, false)
  | .neg => (map1 (fun x => x ^^^ 0x80000000#32) a, false)

/-- A vector compare of one lane (R135). -/
def vCondHolds (c : VCond) (x y : W32) : Bool :=
  let ordered := !isNaN32 x && !isNaN32 y
  match c with
  | .eq => ordered && decide (valueKey x = valueKey y)
  | .ne => !ordered || decide (valueKey x ≠ valueKey y)
  | .lt => ordered && decide (valueKey x < valueKey y)
  | .le => ordered && decide (valueKey x ≤ valueKey y)
  | .ilt => x.slt y
  | .ieq => x == y

/-- VCMP (R134). -/
def vcmpOp (c : VCond) (a b : VReg) : VReg := map2 (fun x y => if vCondHolds c x y then 0xFFFFFFFF#32 else 0) a b

/-- VCMPP: OR over the lanes of the compare, or AND when `all` (R134). -/
def vcmppOp (c : VCond) (all : Bool) (a b : VReg) : Bool :=
  let r := (List.range 512).map fun l => vCondHolds c (lane a l) (lane b l)
  if all then r.all id else r.any id

/-- VSEL (R134). -/
def vselOp (a b d : VReg) : VReg := map3 (fun x y z => if z ≠ 0 then x else y) a b d

/-- VPERM (R134). -/
def vpermOp (a b : VReg) : VReg := map1 (fun y => lane a (y.toNat % 512)) b

/-- VROT (R134). -/
def vrotOp (a : VReg) (k : Nat) : VReg := (List.range 512).map fun l => lane a ((l + k) % 512)

/-- VCVT (R86, R137). -/
def vcvtOp (m : RMode) (f : CvtFmt) (a : VReg) : VRes :=
  let r := (List.range 512).map fun l =>
    match f with
    | .into t => let c := convNarrow t m (val32 (lane a l)); (BitVec.ofNat 32 c.1, c.2)
    | .outOf t => widen t (lane a l).toNat
  (r.map Prod.fst, r.any Prod.snd)

/-- The stochastic rounding operands of a scalar register group (R138). -/
structure SrSrc where
  key : W64
  stream : W32
  i : W32
  j0 : W32
  dj : W32
deriving DecidableEq, Repr

/-- The group `g` of R138. -/
def srSrc (t : Tile) (g : Nat) : SrSrc :=
  ⟨t.csr.srKey, readS t.regs (4 * g), readS t.regs (4 * g + 1), readS t.regs (4 * g + 2), readS t.regs (4 * g + 3)⟩

/-- The random bits of lane `l` (R90, R138). -/
def laneBits (s : SrSrc) (l : Nat) : Nat := srBits s.key s.stream s.i (s.j0 + BitVec.ofNat 32 l * s.dj)

/-- The conversion of lane `l`: stochastic when a source is given, else under the rounding mode (R138). -/
def convLane (t : Narrow) (m : RMode) (sr : Option SrSrc) (l : Nat) (v : FVal) : Nat × Bool :=
  match sr with
  | some s => srNarrow t (laneBits s l) v
  | none => convNarrow t m v

/-- VSR (R137, R138). -/
def vsrOp (t : Narrow) (s : SrSrc) (a : VReg) : VRes :=
  let r := (List.range 512).map fun l =>
    let c := srNarrow t (laneBits s l) (val32 (lane a l)); (BitVec.ofNat 32 c.1, c.2)
  (r.map Prod.fst, r.any Prod.snd)

/-- A little-endian bit string laid over a register from byte 0, zero beyond (R136). -/
def ofPacked (v : Nat) : VReg := (List.range 512).map fun l => BitVec.ofNat 32 (v / 2 ^ (32 * l))

/-- A register as one little-endian bit string (R136). -/
def asPacked (a : VReg) : Nat := packBits 32 (a.map BitVec.toNat)

/-- The element width of a VPACK format. -/
def packWidth : PackFmt → Nat
  | .b4 => 4 | .b6 => 6 | .b8 => 8 | .b16 => 16 | .mxScales => 8 | .k4Scales => 8

/-- VPACK (R136). -/
def vpackOp (f : PackFmt) (a : VReg) : VReg :=
  match f with
  | .mxScales => ofPacked (packBits 8 ((List.range 16).map fun b => (lane a (32 * b)).toNat / 256))
  | .k4Scales => ofPacked (packBits 8 ((List.range 32).map fun b => (lane a (16 * b)).toNat / 256))
  | f => ofPacked (packBits (packWidth f) ((List.range 512).map fun l => (lane a l).toNat))

/-- VUNPK (R136). -/
def vunpkOp (f : PackFmt) (a : VReg) : VReg :=
  let v := asPacked a
  match f with
  | .mxScales => (List.range 512).map fun l =>
      if l % 32 = 0 then BitVec.ofNat 32 (256 * unpackBits 8 (l / 32) v) else 0
  | .k4Scales => (List.range 512).map fun l =>
      if l % 16 = 0 then BitVec.ofNat 32 (256 * unpackBits 8 (l / 16) v) else 0
  | f => (List.range 512).map fun l => BitVec.ofNat 32 (unpackBits (packWidth f) l v)

/-- VRED: the canonical tree sum or the maximum into lane 0, +0 elsewhere (R85, R140). -/
def vredOp (max : Bool) (a : VReg) : VRes :=
  let ls := (List.range 512).map (lane a)
  let r := if max then (match ls with | [] => 0#32 | x :: xs => xs.foldl maxF (maxF x x)) else ctree ls
  (r :: List.replicate 511 0, isNaN32 r)

/-- The lanes of quantised blocks: element in [7:0], block scale in [15:8] (R139). -/
def quantLanes (scale : Nat) (elems : List Nat) : List W32 :=
  elems.map fun e => BitVec.ofNat 32 (256 * scale + e % 256)

/-- VQMX over 16 blocks of 32 lanes (R87, R139). -/
def vqmxOp (m : RMode) (t : Narrow) (sr : Option SrSrc) (a : VReg) : VRes :=
  let r := (List.range 16).map fun b =>
    mxBlock t (fun i v => convLane t m sr (32 * b + i) v) ((List.range 32).map fun i => val32 (lane a (32 * b + i)))
  (r.flatMap fun x => quantLanes x.1 x.2.1, r.any fun x => x.2.2)

/-- VQK4 over 32 blocks of 16 lanes (R88, R139). -/
def vqk4Op (m : RMode) (st : F32) (sr : Option SrSrc) (a : VReg) : VRes :=
  let r := (List.range 32).map fun b =>
    k4Block (val32 st) (fun i v => convLane .e2m1 m sr (16 * b + i) v)
      ((List.range 16).map fun i => val32 (lane a (16 * b + i)))
  (r.flatMap fun x => quantLanes x.1 x.2.1, r.any fun x => x.2.2)

end Sys2Proof.Machine
end

