-- ==== Sys2Proof/Machine/Issue.lean ====
section
/-!
DEFINITION. One tile's bundle issue (R35–R40, R94–R140): fetch, decode, the illegal-bundle and address faults, the
structural stalls, the four slots reading the registers as they stood before the bundle, the order in which their writes
land, the next address, and the counters and samples an issue moves.
-/

namespace Sys2Proof.Machine

/-! ### Faults and the store -/

/-- A fatal fault (R60, R61): its int_status bit; for the first, fault_info, FAULT and the report to the beat generator. A
reset in progress ends with it (R57). DESIGN CHOICE (log 83): the 14-bit fault_pc holds an address beyond bundle 16,383 modulo
2^14, and a fault that no bundle's issue takes records the last issued address. -/
def faultTile (cx : Ctx) (cyc cause pc : Nat) (t : Tile) : Tile :=
  let t1 := setInt t (15 + cause)
  if t.tstate = .fault ∨ t.tstate = .off then t1
  else
    let t2 := passTo cyc t1
    { t2 with
      tstate := .fault
      resetting := none
      csr := { t2.csr with
        faultCause := BitVec.ofNat 8 cause, faultPc := BitVec.ofNat 14 pc, faultBeat := cx.beat.setWidth 32 }
      report := if cx.run then some cyc else none }

/-- Some 8-byte word of `n` bytes from `a` decodes as uncorrectable (R206). -/
def poisonedIn (t : Tile) (a n : Nat) : Bool :=
  decide (0 < n) && t.poison.any (fun e => decide (a / 8 ≤ e.1) && decide (e.1 ≤ (a + n - 1) / 8) && e.2)

/-- Bytes written into the store. A word written whole gets valid check bits again. -/
def writeStore (t : Tile) (a : Nat) (bs : List Byte) : Tile :=
  { t with
    store := writeBytes t.store a bs
    poison := t.poison.filter (fun e => decide (8 * e.1 < a) || decide (a + bs.length < 8 * e.1 + 8)) }

/-- A 64 B line written with check bits that decode as uncorrectable (R206). -/
def poisonLine (t : Tile) (a : Nat) : Tile :=
  { t with poison := repeatN (fun i m => put false m (a / 64 * 8 + i) true) 8 t.poison }

/-! ### Register writes and their order (R101, R104) -/

/-- One register write. -/
inductive Wr where
  | s (i : Nat) (v : W32)
  | p (i : Nat) (v : Bool)
  | a (i : Nat) (v : Addr)
  | vq (r q : Nat) (xs : List W32)
deriving DecidableEq, Repr

/-- A register write with the latency of its producer (R54). -/
structure TWr where
  lat : Nat
  wr : Wr
deriving DecidableEq, Repr

/-- One write applied. -/
def applyWr (r : Regs) : Wr → Regs
  | .s i v => writeS r i v
  | .p i v => writeP r i v
  | .a i v => writeA r i v
  | .vq n q xs => writeV r n (setQuarter (readV r n) q xs)

/-- A write placed after every write of no greater latency. -/
def insertWr (w : TWr) : List TWr → List TWr
  | [] => [w]
  | x :: xs => if w.lat < x.lat then w :: x :: xs else x :: insertWr w xs

/-- Writes in the order they complete; those that complete together stay in slot order C, M, T, V (R104). -/
def orderWr (ws : List TWr) : List TWr := ws.foldl (fun acc w => insertWr w acc) []

/-- The registers after a bundle's writes. -/
def applyWrs (r : Regs) (ws : List TWr) : Regs := (orderWr ws).foldl (fun r w => applyWr r w.wr) r

/-- A whole vector register written, quarter by quarter. -/
def wholeV (lat r : Nat) (v : VReg) : List TWr := (List.range 4).map fun q => ⟨lat, .vq r q (quarterOf v q)⟩

/-! ### C slot (R106–R113) -/

/-- The integer operation of ALU (R106). -/
def aluOp (f : AluFn) (a b : W32) : W32 :=
  match f with
  | .add => a + b
  | .sub => a - b
  | .and => a &&& b
  | .or => a ||| b
  | .xor => a ^^^ b
  | .shl => a <<< (b.toNat % 32)
  | .shr => a >>> (b.toNat % 32)
  | .sra => a.sshiftRight (b.toNat % 32)
  | .mul => a * b
  | .min => if a.slt b then a else b
  | .max => if a.slt b then b else a
  | .minu => if a.ult b then a else b
  | .maxu => if a.ult b then b else a

/-- ALU's latency (R54). -/
def aluLat : AluFn → Nat
  | .mul => 3
  | _ => 1

/-- What a C slot does. -/
structure COut where
  writes : List TWr
  taken : Option Nat
  loops : List LoopEntry
  csrw : Option (Nat × W64)
  sig : Bool
  beat : Bool
deriving DecidableEq, Repr

/-- A C slot that only writes registers. -/
def cWrites (loops : List LoopEntry) (ws : List TWr) : COut := ⟨ws, none, loops, none, false, false⟩

/-- A LOOP or LOOPI with its count (R108). -/
def loopOut (loops : List LoopEntry) (pc count : Nat) (stop : BitVec 14) : COut :=
  if count = 0 then ⟨[], some (stop.toNat + 1), loops, none, false, false⟩
  else ⟨[], none, ⟨BitVec.ofNat 14 (pc + 1), stop, count⟩ :: loops, none, false, false⟩

/-- An executing C-slot operation (R106–R113). -/
def execC (cx : Ctx) (ix : Nat) (t : Tile) (pc : Nat) (o : COp) : COut :=
  let r := t.regs
  let rs (i : BitVec 5) : W32 := readS r i.toNat
  let w (lat : Nat) (sd : BitVec 5) (v : W32) : COut := cWrites r.loops [⟨lat, .s sd.toNat v⟩]
  let wp (pd : BitVec 3) (v : Bool) : COut := cWrites r.loops [⟨1, .p pd.toNat v⟩]
  match o with
  | .nop => cWrites r.loops []
  | .alu sd sa sb f => w (aluLat f) sd (aluOp f (rs sa) (rs sb))
  | .addi sd sa imm => w 1 sd (rs sa + imm.signExtend 32)
  | .andi sd sa imm => w 1 sd (rs sa &&& imm.setWidth 32)
  | .ori sd sa imm => w 1 sd (rs sa ||| imm.setWidth 32)
  | .xori sd sa imm => w 1 sd (rs sa ^^^ imm.setWidth 32)
  | .shli sd sa imm => w 1 sd (rs sa <<< imm.toNat)
  | .shri sd sa imm => w 1 sd (rs sa >>> imm.toNat)
  | .srai sd sa imm => w 1 sd ((rs sa).sshiftRight imm.toNat)
  | .muli sd sa imm => w 3 sd (rs sa * imm.signExtend 32)
  | .movl sd imm => w 1 sd (imm.setWidth 32)
  | .movh sd imm => w 1 sd (imm ++ (rs sd).extractLsb' 0 16)
  | .cmp pd sa sb c => wp pd (condHolds c (rs sa) (rs sb))
  | .cmpi pd sa c imm => wp pd (condHolds c (rs sa) (imm.signExtend 32))
  | .plog pd pa pb f => wp pd (pLogic f (readP r pa.toNat) (readP r pb.toNat))
  | .br target => ⟨[], some target.toNat, r.loops, none, false, false⟩
  | .jal sd target => ⟨[⟨1, .s sd.toNat (BitVec.ofNat 32 (pc + 1))⟩], some target.toNat, r.loops, none, false, false⟩
  | .jr sa => ⟨[], some ((rs sa).toNat % 2 ^ 14), r.loops, none, false, false⟩
  | .loop sc stop => loopOut r.loops pc (rs sc).toNat stop
  | .loopi count stop => loopOut r.loops pc count.toNat stop
  | .lpop => cWrites r.loops.tail []
  | .csrr pair idx =>
    let v := csrRead cx ix t (8 * idx.toNat)
    cWrites r.loops [⟨6, .s (2 * pair.toNat) (v.setWidth 32)⟩, ⟨6, .s (2 * pair.toNat + 1) (v.extractLsb' 32 32)⟩]
  | .csrw pair idx =>
    let v := readS r (2 * pair.toNat + 1) ++ readS r (2 * pair.toNat)
    ⟨[], none, r.loops, some (8 * idx.toNat, v), false, false⟩
  | .sig => ⟨[], none, r.loops, none, true, false⟩
  | .beat => ⟨[], none, r.loops, none, false, true⟩

/-- R109's next address with the loop stack it leaves; the flag is a loop return. -/
def nextAddr (pc : Nat) : List LoopEntry → Nat × List LoopEntry × Bool
  | [] => (pc + 1, [], false)
  | e :: es =>
    if pc = e.stop.toNat then
      if 1 < e.left then (e.start.toNat, { e with left := e.left - 1 } :: es, true) else nextAddr pc es
    else (pc + 1, e :: es, false)

/-- An executing C-slot operation is an illegal bundle: a fifth loop, or a loop end below its first bundle (R96). -/
def illegalC (t : Tile) (pc : Nat) (o : COp) : Bool :=
  match o with
  | .loop sc stop =>
    decide (stop.toNat < pc + 1) || (decide ((readS t.regs sc.toNat).toNat ≠ 0) && decide (4 ≤ t.regs.loops.length))
  | .loopi count stop =>
    decide (stop.toNat < pc + 1) || (decide (count.toNat ≠ 0) && decide (4 ≤ t.regs.loops.length))
  | _ => false

/-! ### M slot (R116–R125, R132) -/

/-- A schedule entry's kind (R186): 0 none, 1 mesh send, 2 stack write, 3 stack read. -/
def schedKind (e : BitVec 128) : Nat := (e.extractLsb' 126 2).toNat
/-- A schedule entry's slot cycle. -/
def schedSlot (e : BitVec 128) : Nat := (e.extractLsb' 115 11).toNat
/-- A schedule entry's land cycle. -/
def schedLand (e : BitVec 128) : Nat := (e.extractLsb' 104 11).toNat
/-- A schedule entry's length in 64 B units. -/
def schedUnits (e : BitVec 128) : Nat := (e.extractLsb' 92 12).toNat + 1
/-- A schedule entry's stack offset in bytes. -/
def schedStack (e : BitVec 128) : Nat := (e.extractLsb' 63 29).toNat * 64

/-- The base of the stack window in the local offset map (R177). -/
def stackBase : Nat := 0x1000000000

/-- A local offset range lies wholly in the stack window under the mode in force (R119, R200). -/
def inStack (cx : Ctx) (a n : Nat) : Bool := decide (stackBase ≤ a) && decide (a - stackBase + n ≤ cx.stackBytes)

/-- The exchange class of a tile; without a loaded descriptor nothing is carried. -/
def xclassOf (t : Tile) (c : Nat) : XClass := (look none t.xfer.classes c).getD ⟨0, false, 0, 0, 0, 512, 0⟩

/-- WFILL's unit offset and count from its scalar operand (R132). -/
def fillSpan (u : W32) : Nat × Nat := ((u.extractLsb' 0 9).toNat, (u.extractLsb' 16 10).toNat)

/-- A WFILL within its target's range (R132). -/
def fillInRange (k : FillKind) (so sn : Nat) : Bool :=
  match k with
  | .weights => decide (so + sn ≤ 512)
  | .scales => decide (so + sn ≤ 64)
  | .columns => so == 0 && sn == 1

/-- An executing M-slot operation is an illegal bundle (R96, R119, R132, R215). -/
def illegalM (t : Tile) (o : MOp) : Bool :=
  match o with
  | .sarm _ tag ur _ =>
    let k := schedKind (look 0 t.xfer.sched tag.toNat)
    k == 0 || (ur && k == 1)
  | .wfill _ k _ sU => let s := fillSpan (readS t.regs sU.toNat); !fillInRange k s.1 s.2
  | .xsnd _ _ cls len => decide ((xclassOf t cls.toNat).slot < 64 * 2 ^ len.toNat)
  | _ => false

/-- The effective address of LDS and STS (R116). -/
def wordAddr (t : Tile) (aB : BitVec 4) (imm : BitVec 13) : Nat := alignDown (effAddr (readA t.regs aB.toNat) imm 4).toNat 2

/-- The effective address of quarter `k` of an LDV or STV (R116, R118). -/
def vecAddr (t : Tile) (aB : BitVec 4) (imm : BitVec 9) (k : Nat) : Nat :=
  (alignDown (effAddr (readA t.regs aB.toNat) imm 512).toNat 6 + 512 * k) % 2 ^ 48

/-- The quarters a vector access names, with their distance from the effective address (R118). -/
def szQuarters : Sz → List (Nat × Nat)
  | .quarter q => [(q.toNat, 0)]
  | .full => [(0, 0), (1, 1), (2, 2), (3, 3)]

/-- The store ranges an executing M-slot operation reads or writes through its own address (R117, R178), and whether it
reads. -/
def mRanges (t : Tile) (o : MOp) : List (Nat × Nat × Bool) :=
  match o with
  | .lds _ aB imm => [(wordAddr t aB imm, 4, true)]
  | .sts _ aB imm => [(wordAddr t aB imm, 4, false)]
  | .ldv _ aB sz imm => (szQuarters sz).map fun q => (vecAddr t aB imm q.2, 512, true)
  | .stv _ aB sz imm => (szQuarters sz).map fun q => (vecAddr t aB imm q.2, 512, false)
  | .wfill _ _ aS sU =>
    let sn := (fillSpan (readS t.regs sU.toNat)).2
    if sn = 0 then [] else [(alignDown (readA t.regs aS.toNat).toNat 6, 512 * sn, true)]
  | .ureq aD => [(alignDown (readA t.regs aD.toNat).toNat 5, 32, true)]
  | .xsnd aS _ _ len => [(alignDown (readA t.regs aS.toNat).toNat 6, 64 * 2 ^ len.toNat, true)]
  | _ => []

/-- The stack offset SARM's aR names, its low 6 bits ignored (R119). -/
def sarmStack (t : Tile) (aR : BitVec 4) : Nat := alignDown (readA t.regs aR.toNat).toNat 6

/-- The store range that the tag of a SARM moves: aL's low 6 bits are ignored (R116, R119). -/
def sarmStore (t : Tile) (aL : BitVec 4) (tag : BitVec 12) : Nat × Nat :=
  (alignDown (readA t.regs aL.toNat).toNat 6, 64 * schedUnits (look 0 t.xfer.sched tag.toNat))

/-- An executing M-slot operation is an address fault (R117, R119). A SARM or XSND whose store range leaves the tile's own
store reaches outside what R178 allows the M slot, and takes the fault that R178 names (DEDUCED, log 83). -/
def addrFaultM (cx : Ctx) (t : Tile) (o : MOp) : Bool :=
  (mRanges t o).any (fun x => !inStore x.1 x.2.1) ||
  match o with
  | .sarm aL tag ur aR =>
    let x := sarmStore t aL tag
    !inStore x.1 x.2 || (ur && !inStack cx (sarmStack t aR) x.2)
  | _ => false

/-- An executing M-slot operation uses the M port (R116, R132). -/
def usesMPort (o : MOp) : Bool :=
  match o with
  | .lds .. => true
  | .sts .. => true
  | .ldv .. => true
  | .stv .. => true
  | .wfill .. => true
  | .ureq .. => true
  | _ => false

/-- An exchange record with the sender's rank and its index (R215, R217). -/
structure Carried where
  record : XRecord
  rank : Nat
  index : Nat
deriving DecidableEq, Repr

/-- What an issue does beyond its tile. -/
structure Eff where
  carried : List Carried
  ureq : Option Nat
  lateArms : Nat
  xlimited : Nat
  /-- nan_seen rose -/
  nanRise : Bool
  /-- instruction memory and store words corrected -/
  ecc : Nat
  /-- stall cycles by cause -/
  stalls : List (BitVec 4 × Nat)
  issued : Bool
deriving DecidableEq, Repr

def Eff.none : Eff := ⟨[], Option.none, 0, 0, false, 0, [], false⟩

/-- One XSND or re-issued deferred record, by its class's capacity (R215, R216). The tile, the carried record if any, and
whether it was limited. -/
def exchangeSend (t : Tile) (x : XRecord) : Tile × Option Carried × Bool :=
  let c := xclassOf t x.cls.toNat
  let i := look 0 t.xfer.issuedX x.cls.toNat
  let t1 := { t with xfer := { t.xfer with issuedX := put 0 t.xfer.issuedX x.cls.toNat (i + 1) } }
  if i < c.cap then (bump 0x060 1 t1, some ⟨x, c.rank, i⟩, false)
  else
    let t2 := setInt t1 bitXlimit
    if c.defer ∧ t2.xfer.deferred.length < 64 then
      (bump 0x061 1 { t2 with xfer := { t2.xfer with deferred := t2.xfer.deferred ++ [x] } }, none, true)
    else (bump 0x062 1 t2, none, true)

/-- The smallest transfer id not in use. -/
def freeUreqId (us : List Ureq) : Nat := ((List.range 17).find? (fun i => us.all (fun u => u.id ≠ i))).getD 16

/-- The transfer a 32 B descriptor asks for (R122, R123): an invalid descriptor carries status 0x0001 from the start. -/
def ureqOf (cx : Ctx) (id d : Nat) : Ureq :=
  let kind := bits 127 120 d
  let cls := bits 119 116 d
  let len := 64 * (bits 111 96 d + 1)
  let loff := alignDown (bits 87 64 d) 6
  let remote := bits 63 0 d
  let ok :=
    inStore loff len &&
      (if kind = 1 ∨ kind = 2 then decide (cls ≤ 2) && inStack cx (alignDown remote 6) len
       else if kind = 3 then inStore (alignDown (remote % 2 ^ 46) 6) len
       else false)
  { id := id, cvalue := BitVec.ofNat 32 (bits 255 224 d), coff := BitVec.ofNat 24 (alignDown (bits 151 128 d) 3)
    kind := BitVec.ofNat 8 kind, cls := BitVec.ofNat 4 cls, len := len, loff := BitVec.ofNat 24 loff
    remote := BitVec.ofNat 64 remote, asked := 0, moved := 0, status := if ok then 0 else 1, escaped := false }

/-- Bytes laid into one part of a weight buffer (R131, R132). -/
def fillBuf (w : WBuf) (k : FillKind) (a : Nat) (bs : List Byte) : WBuf :=
  match k with
  | .weights => { w with elems := writeBytes w.elems a bs }
  | .scales => { w with scales := writeBytes w.scales a bs }
  | .columns => { w with cols := writeBytes w.cols a bs }

/-- The truss a T bit names. -/
def trussOf (t : Tile) (one : Bool) : Truss := if one then t.truss1 else t.truss0

/-- The tile with the named truss replaced. -/
def setTruss (t : Tile) (one : Bool) (u : Truss) : Tile := if one then { t with truss1 := u } else { t with truss0 := u }

/-- An executing M-slot operation (R116–R125, R132): sources from `t0`, effects on `t`. DEDUCED (log 24): a full-register
access and a fill take their data at issue, and an XSND's record is injected, its source read, at its issue. -/
def execM (cx : Ctx) (t0 t : Tile) (cyc : Nat) (o : MOp) : Tile × List TWr × Eff :=
  let r := t0.regs
  match o with
  | .nop => (t, [], Eff.none)
  | .lds sd aB imm => (t, [⟨4, .s sd.toNat (readW32 t0.store (wordAddr t0 aB imm))⟩], Eff.none)
  | .sts ss aB imm => (writeStore t (wordAddr t0 aB imm) (natLe 4 (readS r ss.toNat).toNat), [], Eff.none)
  | .ldv vd aB sz imm =>
    (t, (szQuarters sz).map (fun q =>
      ⟨if sz = .full then 8 else 5,
        .vq vd.toNat q.1 (bytesLanes 128 (readBytes t0.store (vecAddr t0 aB imm q.2) 512))⟩), Eff.none)
  | .stv vs aB sz imm =>
    ((szQuarters sz).foldl (fun u q =>
      writeStore u (vecAddr t0 aB imm q.2) (laneBytes (quarterOf (readV r vs.toNat) q.1))) t, [], Eff.none)
  | .aaddi ad as_ imm => (t, [⟨1, .a ad.toNat (effAddr (readA r as_.toNat) imm 1)⟩], Eff.none)
  | .aadd ad as_ ss sh =>
    (t, [⟨1, .a ad.toNat (readA r as_.toNat + (readS r ss.toNat).signExtend 48 <<< sh.toNat)⟩], Eff.none)
  | .amov ad sl sh => (t, [⟨1, .a ad.toNat ((readS r sh.toNat).extractLsb' 0 16 ++ readS r sl.toNat)⟩], Eff.none)
  | .aget sd as_ hi =>
    let a := readA r as_.toNat
    (t, [⟨1, .s sd.toNat (if hi then a.extractLsb' 32 16 |>.setWidth 32 else a.setWidth 32)⟩], Eff.none)
  | .wfill one k aS sU =>
    let (so, sn) := fillSpan (readS r sU.toNat)
    if sn = 0 then (t, [], Eff.none) else
    let bs := readBytes t0.store (alignDown (readA r aS.toNat).toNat 6) (512 * sn)
    let u := trussOf t one
    let u1 := { setInactive u (fillBuf (inactiveBuf u) k (512 * so) bs) with filling := true }
    (bump 0x024 sn (setTruss t one u1), [], Eff.none)
  | .sarm aL tag ur aR =>
    let e := look 0 t0.xfer.sched tag.toNat
    let t1 := bump 0x053 1 t
    if schedSlot e ≤ cyc + 1 then (bump 0x054 1 t1, [], { Eff.none with lateArms := 1 })
    else
      let arm : Arm := ⟨readA r aL.toNat, if ur then some (sarmStack t0 aR - stackBase) else none, 0⟩
      ({ t1 with xfer := { t1.xfer with armed := put none t1.xfer.armed tag.toNat (some arm) } }, [], Eff.none)
  | .ureq aD =>
    let d := leNat (readBytes t0.store (alignDown (readA r aD.toNat).toNat 5) 32)
    let id := freeUreqId t.xfer.ureqs
    (bump 0x050 1 { t with xfer := { t.xfer with ureqs := t.xfer.ureqs ++ [ureqOf cx id d] } }, [],
      { Eff.none with ureq := some id })
  | .xsnd aS sD cls len =>
    let d := readS r sD.toNat
    let data := readBytes t0.store (alignDown (readA r aS.toNat).toNat 6) (64 * 2 ^ len.toNat)
    let x : XRecord := ⟨d.extractLsb' 10 8, d.extractLsb' 5 5, d.extractLsb' 0 5, cls, data⟩
    let (t1, c, lim) := exchangeSend t x
    (t1, [], { Eff.none with carried := c.toList, xlimited := b2n lim })
  | .vext sd vs l => (t, [⟨3, .s sd.toNat (lane (readV r vs.toNat) l.toNat)⟩], Eff.none)

/-! ### T slot (R126–R133) -/

/-- A truss is clock-gated (R51). -/
def gated (cx : Ctx) (t : Tile) (one : Bool) : Bool := cx.throttle || t.csr.ctrl.getLsbD (if one then 2 else 1)

/-- The truss an operation addresses. -/
def tTruss : TOp → Option Bool
  | .nop => none
  | .tcfg t _ _ => some t
  | .trow t _ _ _ _ => some t
  | .tswp t => some t
  | .tdrn t _ _ _ => some t

/-- The configuration TCFG sets (R127). -/
def tcfgWord (t : Tile) (sa sb : BitVec 5) : W64 := readS t.regs sb.toNat ++ readS t.regs sa.toNat

/-- An executing T-slot operation is an illegal bundle: a gated truss, or a configuration R127 does not allow. -/
def illegalT (cx : Ctx) (t : Tile) (o : TOp) : Bool :=
  (match tTruss o with | some one => gated cx t one | none => false) ||
  match o with
  | .tcfg _ sa sb => !cfgLegal (tcfgWord t sa sb)
  | _ => false

/-- The batch a TROW latches (R128). -/
def batchOf (t : Tile) (one : Bool) (aA aS : BitVec 4) (sS : BitVec 5) (cnt : BitVec 8) : Batch :=
  ⟨(trussOf t one).cfg, readA t.regs aA.toNat, readA t.regs aS.toNat, readS t.regs sS.toNat,
    if cnt.toNat = 0 then 256 else cnt.toNat, 0⟩

/-- The next chunk of the named truss would read a poisoned store word. -/
def chunkPoisoned (t : Tile) (u : Truss) : Bool := (chunkRanges u).any fun x => poisonedIn t x.1 x.2

/-- The named truss reads a chunk, which truss_busy and the chunk events count (R319). A blocked truss reads none (R49). -/
def countedChunk (store : Memory) (one : Bool) (t : Tile) : Tile :=
  let u := trussOf t one
  if u.active.isNone ∨ u.blocked then t else
  let t1 := setTruss t one (readChunk store u)
  bump (if one then 0x021 else 0x020) 1 { t1 with inst := { t1.inst with trussBusy := t1.inst.trussBusy + 1 } }

/-- `countedChunk`, or the fatal fault of a double-bit store error when the chunk reads a poisoned word (R41). -/
def chunkOrFault (cx : Ctx) (cyc : Nat) (one : Bool) (t : Tile) : Tile :=
  if chunkPoisoned t (trussOf t one) ∧ !(trussOf t one).blocked then faultTile cx cyc 2 t.seq.lastPc.toNat t
  else countedChunk t.store one t

/-- The drains of a TDRN issued in cycle `cyc` (R133). -/
def drainList (cyc vd q cnt : Nat) : List Drain :=
  (List.range (cnt + 1)).map fun i => ⟨(vd + (q + i) / 4) % 64, (q + i) % 4, cyc + i⟩

/-- A batch taken by a truss (R128, R129): an idle truss reads its first chunk at once, from `store`; on a busy one the batch
waits until the active batch has read its last chunk, which it may have done in this very cycle. -/
def takeBatch (store : Memory) (idle one : Bool) (b : Batch) (t : Tile) : Tile :=
  let u := trussOf t one
  if idle then countedChunk store one (setTruss t one { u with active := some b })
  else if u.active.isNone then setTruss t one { u with active := some b }
  else setTruss t one { u with pending := some b }

/-- An executing T-slot operation (R127–R133) in cycle `cyc`: sources from `t0`, effects on `t`. -/
def execT (t0 t : Tile) (cyc : Nat) (o : TOp) : Tile :=
  match o with
  | .nop => t
  | .tcfg one sa sb => setTruss t one { trussOf t one with cfg := tcfgWord t0 sa sb }
  | .trow one aA aS sS cnt =>
    takeBatch t0.store (trussOf t0 one).active.isNone one (batchOf t0 one aA aS sS cnt) t
  | .tswp one =>
    let u := trussOf t one
    bump 0x025 1 (setTruss t one { u with activeB := !u.activeB })
  | .tdrn one vd q cnt =>
    setTruss t one { trussOf t one with drains := drainList cyc vd.toNat q.toNat cnt.toNat }

/-! ### V slot (R134–R140) -/

/-- The vector rounding mode in force. -/
def tileRmode (t : Tile) : RMode := rmodeOf t.csr.vfpCtrl.toNat

/-- What a V slot does: its writes, and whether a floating-point result sets nan_seen. -/
structure VOut where
  writes : List TWr
  nan : Bool
deriving DecidableEq, Repr

/-- A whole-register result. -/
def vWhole (lat : Nat) (vd : BitVec 6) (r : VRes) : VOut := ⟨wholeV lat vd.toNat r.1, r.2⟩

/-- VFP's latency: the add, multiply and FMA row, or the max, min and logic row (R134). -/
def vfpLat : VfpFn → Nat
  | .add => 4 | .sub => 4 | .mul => 4 | .fma => 4 | .fms => 4 | .fnma => 4 | _ => 2

/-- VFN's latency. -/
def vfnLat : VfnFn → Nat
  | .exp2 => 6 | .rcp => 6 | .rsq => 8 | _ => 2

/-- An executing V-slot operation (R134–R140). -/
def execV (t : Tile) (o : VOp) : VOut :=
  let r := t.regs
  let rv (i : BitVec 6) : VReg := readV r i.toNat
  let m := tileRmode t
  match o with
  | .nop => ⟨[], false⟩
  | .vfp vd va vb f => vWhole (vfpLat f) vd (vfpOp m f (rv va) (rv vb) (rv vd))
  | .vfn vd va f => vWhole (vfnLat f) vd (vfnOp m f (rv va))
  | .vcmp vd va vb c => vWhole 2 vd (vcmpOp c (rv va) (rv vb), false)
  | .vcmpp pd va vb c all => ⟨[⟨2, .p pd.toNat (vcmppOp c all (rv va) (rv vb))⟩], false⟩
  | .vsel vd va vb => vWhole 2 vd (vselOp (rv va) (rv vb) (rv vd), false)
  | .vsplat vd sa => vWhole 2 vd (List.replicate 512 (readS r sa.toNat), false)
  | .viota vd => vWhole 2 vd ((List.range 512).map (BitVec.ofNat 32), false)
  | .vperm vd va vb => vWhole 3 vd (vpermOp (rv va) (rv vb), false)
  | .vrot vd va k => vWhole 3 vd (vrotOp (rv va) k.toNat, false)
  | .vcvt vd va fmt => vWhole 3 vd (vcvtOp m fmt (rv va))
  | .vsr vd va fmt g => vWhole 4 vd (vsrOp fmt (srSrc t g.toNat) (rv va))
  | .vpack vd va fmt => vWhole 3 vd (vpackOp fmt (rv va), false)
  | .vunpk vd va fmt => vWhole 3 vd (vunpkOp fmt (rv va), false)
  | .vred vd va mx => vWhole 12 vd (vredOp mx (rv va))
  | .vqmx vd va fmt sr g => vWhole 12 vd (vqmxOp m fmt (if sr then some (srSrc t g.toNat) else none) (rv va))
  | .vqk4 vd va sT sr g =>
    vWhole 12 vd (vqk4Op m (readS r sT.toNat) (if sr then some (srSrc t g.toNat) else none) (rv va))

/-- Whether a V-slot operation is a special function, or a stochastic round or quantise (R324). -/
def vEvents (o : VOp) : List Nat :=
  match o with
  | .vfn _ _ .exp2 => [0x030]
  | .vfn _ _ .rcp => [0x030]
  | .vfn _ _ .rsq => [0x030]
  | .vsr .. => [0x032]
  | .vqmx .. => [0x032]
  | .vqk4 .. => [0x032]
  | _ => []

/-! ### The whole bundle -/

/-- The operation of a slot when it executes; none when it is suppressed (R99, R100). -/
def running? {α : Type} (r : Regs) (s : Slot α) : Option (Dec α) := if executes r s.pred then some s.dec else none

/-- The operation an executing slot carries; the no-op otherwise. -/
def opOr {α : Type} (d : α) (r : Regs) (s : Slot α) : α :=
  match running? r s with
  | some (.op o) => o
  | _ => d

/-- A slot word that is illegal of itself: a reserved opcode, executed or not, or a reserved field of an executing slot
(R96, R100). -/
def slotIllegal {α : Type} (r : Regs) (s : Slot α) : Bool :=
  match s.dec with
  | .reserved => true
  | .badField => executes r s.pred
  | .op _ => false

/-- The bundle is illegal, cause 0x03 (R51, R71, R96, tile_ctrl's vec_gate). -/
def bundleIllegal (cx : Ctx) (t : Tile) (pc : Nat) (b : Bun) : Bool :=
  let r := t.regs
  slotIllegal r b.c || slotIllegal r b.m || slotIllegal r b.t || slotIllegal r b.v ||
    illegalC t pc (opOr .nop r b.c) || illegalM t (opOr .nop r b.m) || illegalT cx t (opOr .nop r b.t) ||
    (t.csr.ctrl.getLsbD 3 && decide (opOr .nop r b.v ≠ .nop))

/-! ### The scoreboard (R54, R99, R102, R103) -/

/-- A whole vector register: its four quarters. -/
def whole (r : BitVec 6) : List RegId := [.q r.toNat 0, .q r.toNat 1, .q r.toNat 2, .q r.toNat 3]

/-- The quarters that LDV and STV move. -/
def szRegs (r : BitVec 6) (sz : Sz) : List RegId := (szQuarters sz).map fun k => .q r.toNat k.1

/-- The registers a C-slot operation reads. -/
def readsC : COp → List RegId
  | .alu _ sa sb _ => [.s sa.toNat, .s sb.toNat]
  | .addi _ sa _ => [.s sa.toNat] | .andi _ sa _ => [.s sa.toNat] | .ori _ sa _ => [.s sa.toNat]
  | .xori _ sa _ => [.s sa.toNat] | .shli _ sa _ => [.s sa.toNat] | .shri _ sa _ => [.s sa.toNat]
  | .srai _ sa _ => [.s sa.toNat] | .muli _ sa _ => [.s sa.toNat]
  | .movh sd _ => [.s sd.toNat]
  | .cmp _ sa sb _ => [.s sa.toNat, .s sb.toNat]
  | .cmpi _ sa _ _ => [.s sa.toNat]
  | .plog _ pa pb _ => [.p pa.toNat, .p pb.toNat]
  | .jr sa => [.s sa.toNat]
  | .loop sc _ => [.s sc.toNat]
  | .csrr _ _ => [.csr]
  | .csrw pair _ => [.s (2 * pair.toNat), .s (2 * pair.toNat + 1)]
  | .nop => [] | .movl _ _ => [] | .br _ => [] | .jal _ _ => [] | .loopi _ _ => [] | .lpop => [] | .sig => [] | .beat => []

/-- The registers an M-slot operation reads. -/
def readsM : MOp → List RegId
  | .lds _ aB _ => [.a aB.toNat]
  | .sts ss aB _ => [.s ss.toNat, .a aB.toNat]
  | .ldv _ aB _ _ => [.a aB.toNat]
  | .stv vs aB sz _ => .a aB.toNat :: szRegs vs sz
  | .aaddi _ as_ _ => [.a as_.toNat]
  | .aadd _ as_ ss _ => [.a as_.toNat, .s ss.toNat]
  | .amov _ sl sh => [.s sl.toNat, .s sh.toNat]
  | .aget _ as_ _ => [.a as_.toNat]
  | .wfill _ _ aS sU => [.a aS.toNat, .s sU.toNat]
  | .sarm aL _ ur aR => .a aL.toNat :: (if ur then [.a aR.toNat] else [])
  | .ureq aD => [.a aD.toNat]
  | .xsnd aS sD _ _ => [.a aS.toNat, .s sD.toNat]
  | .vext _ vs l => [.q vs.toNat (l.toNat / 128)]
  | .nop => []

/-- The registers a T-slot operation reads; the row scale only where its truss's class has one (R128). -/
def readsT (t : Tile) : TOp → List RegId
  | .tcfg _ sa sb => [.s sa.toNat, .s sb.toNat]
  | .trow one aA aS sS _ =>
    [.a aA.toNat, .a aS.toNat] ++ (if (classOf (trussOf t one).cfg).any hasRowScale then [.s sS.toNat] else [])
  | .nop => [] | .tswp _ => [] | .tdrn _ _ _ _ => []

/-- The registers a V-slot operation reads. -/
def readsV : VOp → List RegId
  | .vfp vd va vb f =>
    whole va ++ whole vb ++ (match f with | .fma => whole vd | .fms => whole vd | .fnma => whole vd | _ => [])
  | .vcmp _ va vb _ => whole va ++ whole vb
  | .vcmpp _ va vb _ _ => whole va ++ whole vb
  | .vsel vd va vb => whole va ++ whole vb ++ whole vd
  | .vsplat _ sa => [.s sa.toNat]
  | .vperm _ va vb => whole va ++ whole vb
  | .vqk4 _ va sT _ _ => .s sT.toNat :: whole va
  | .vfn _ va _ => whole va | .vrot _ va _ => whole va | .vcvt _ va _ => whole va | .vsr _ va _ _ => whole va
  | .vpack _ va _ => whole va | .vunpk _ va _ => whole va | .vred _ va _ => whole va | .vqmx _ va _ _ _ => whole va
  | .nop => [] | .viota _ => []

/-- The registers a C-slot operation writes, with its latency (R54); a CSR write shows to a CSR read 2 cycles on. -/
def writesC : COp → List (RegId × Nat)
  | .alu sd _ _ f => [(.s sd.toNat, aluLat f)]
  | .addi sd _ _ => [(.s sd.toNat, 1)] | .andi sd _ _ => [(.s sd.toNat, 1)] | .ori sd _ _ => [(.s sd.toNat, 1)]
  | .xori sd _ _ => [(.s sd.toNat, 1)] | .shli sd _ _ => [(.s sd.toNat, 1)] | .shri sd _ _ => [(.s sd.toNat, 1)]
  | .srai sd _ _ => [(.s sd.toNat, 1)] | .muli sd _ _ => [(.s sd.toNat, 3)]
  | .movl sd _ => [(.s sd.toNat, 1)] | .movh sd _ => [(.s sd.toNat, 1)] | .jal sd _ => [(.s sd.toNat, 1)]
  | .cmp pd _ _ _ => [(.p pd.toNat, 1)] | .cmpi pd _ _ _ => [(.p pd.toNat, 1)] | .plog pd _ _ _ => [(.p pd.toNat, 1)]
  | .csrr pair _ => [(.s (2 * pair.toNat), 6), (.s (2 * pair.toNat + 1), 6)]
  | .csrw _ _ => [(.csr, 2)]
  | .nop => [] | .br _ => [] | .jr _ => [] | .loop _ _ => [] | .loopi _ _ => [] | .lpop => [] | .sig => [] | .beat => []

/-- The registers an M-slot operation writes, with its latency. -/
def writesM : MOp → List (RegId × Nat)
  | .lds sd _ _ => [(.s sd.toNat, 4)]
  | .ldv vd _ sz _ => (szRegs vd sz).map fun g => (g, if sz = .full then 8 else 5)
  | .aaddi ad _ _ => [(.a ad.toNat, 1)] | .aadd ad _ _ _ => [(.a ad.toNat, 1)] | .amov ad _ _ => [(.a ad.toNat, 1)]
  | .aget sd _ _ => [(.s sd.toNat, 1)]
  | .vext sd _ _ => [(.s sd.toNat, 3)]
  | .nop => [] | .sts _ _ _ => [] | .stv _ _ _ _ => [] | .wfill _ _ _ _ => [] | .sarm _ _ _ _ => [] | .ureq _ => []
  | .xsnd _ _ _ _ => []

/-- A V-slot operation's latency (R54). -/
def latV : VOp → Nat
  | .vfp _ _ _ f => vfpLat f
  | .vfn _ _ f => vfnLat f
  | .vperm _ _ _ => 3 | .vrot _ _ _ => 3 | .vcvt _ _ _ => 3 | .vpack _ _ _ => 3 | .vunpk _ _ _ => 3
  | .vsr _ _ _ _ => 4
  | .vred _ _ _ => 12 | .vqmx _ _ _ _ _ => 12 | .vqk4 _ _ _ _ _ => 12
  | .nop => 0 | .vcmp _ _ _ _ => 2 | .vcmpp _ _ _ _ _ => 2 | .vsel _ _ _ => 2 | .vsplat _ _ => 2 | .viota _ => 2

/-- The register a V-slot operation writes. -/
def regsV : VOp → List RegId
  | .vcmpp pd _ _ _ _ => [.p pd.toNat]
  | .vfp vd _ _ _ => whole vd | .vfn vd _ _ => whole vd | .vcmp vd _ _ _ => whole vd | .vsel vd _ _ => whole vd
  | .vsplat vd _ => whole vd | .viota vd => whole vd | .vperm vd _ _ => whole vd | .vrot vd _ _ => whole vd
  | .vcvt vd _ _ => whole vd | .vsr vd _ _ _ => whole vd | .vpack vd _ _ => whole vd | .vunpk vd _ _ => whole vd
  | .vred vd _ _ => whole vd | .vqmx vd _ _ _ _ => whole vd | .vqk4 vd _ _ _ _ => whole vd
  | .nop => []

/-- The registers a V-slot operation writes, with its latency. -/
def writesV (o : VOp) : List (RegId × Nat) := (regsV o).map fun g => (g, latV o)

/-- The quarters a TDRN's drains write, with the least time each takes from issue (R133). -/
def writesT : TOp → List (RegId × Nat)
  | .tdrn _ vd q cnt => (drainList 0 vd.toNat q.toNat cnt.toNat).map fun d => (.q d.reg d.quarter, d.start + 2)
  | _ => []

/-- The predicate of a slot, read whether or not the slot executes (R99). -/
def slotPred {α : Type} (s : Slot α) : RegId := .p s.pred.idx.toNat

/-- What a bundle reads: its slots' predicates, and the sources of its executing slots (R99, R100). -/
def bundleReads (t : Tile) (b : Bun) : List RegId :=
  let r := t.regs
  [slotPred b.c, slotPred b.m, slotPred b.t, slotPred b.v] ++ readsC (opOr .nop r b.c) ++ readsM (opOr .nop r b.m) ++
    readsT t (opOr .nop r b.t) ++ readsV (opOr .nop r b.v)

/-- What the C, M and V slots of a bundle write; s0 and p0 take no write (R97). -/
def bundleWrites (r : Regs) (b : Bun) : List (RegId × Nat) :=
  (writesC (opOr .nop r b.c) ++ writesM (opOr .nop r b.m) ++ writesV (opOr .nop r b.v)).filter
    fun x => x.1 ≠ .s 0 && x.1 ≠ .p 0

/-- A drain of the tile is still to write this register (R103, R133). -/
def drainOwed (t : Tile) (g : RegId) : Bool :=
  (t.truss0.drains ++ t.truss1.drains).any fun d => RegId.q d.reg d.quarter = g

/-- A read of `g` in cycle `cyc` must wait for a pending write or an outstanding drain. -/
def readWaits (t : Tile) (cyc : Nat) (g : RegId) : Bool :=
  drainOwed t g || t.seq.board.any fun x => x.reg = g && decide (cyc < x.due)

/-- A write that completes in cycle `due` must wait for a slot's write that completes later; no write waits on a drain. -/
def writeWaits (t : Tile) (due : Nat) (g : RegId) : Bool :=
  t.seq.board.any fun x => x.reg = g && !x.drain && decide (due < x.due)

/-- The registers a bundle must wait for (R102, R103). -/
def waitsFor (t : Tile) (cyc : Nat) (b : Bun) : List RegId :=
  (bundleReads t b).filter (readWaits t cyc) ++
    ((bundleWrites t.regs b ++ writesT (opOr .nop t.regs b.t)).filter fun x => writeWaits t (cyc + x.2) x.1).map Prod.fst

/-- A quarter of a vector register. -/
def isQuarter : RegId → Bool
  | .q _ _ => true
  | _ => false

/-- Why a bundle cannot issue yet: its operands, or the state a unit is in (R35, R36, R45, R49, R54, R124, R129, R132,
R133). -/
inductive Hold where
  | bubble | operand | vector | queueFull | batchPending | drainsOut | swapFill | mPort | ureqs | vUnit
deriving DecidableEq, Repr

/-- The first stall that applies in cycle `cyc`, in the order of the table "Stall causes" (R320). -/
def bundleHold (t : Tile) (cyc : Nat) (b : Bun) : Option Hold :=
  let m := opOr .nop t.regs b.m
  let o := opOr .nop t.regs b.t
  let u := trussOf t ((tTruss o).getD false)
  let isDrain : Bool := match o with | .tdrn .. => true | _ => false
  let isRow : Bool := match o with | .trow .. => true | _ => false
  let isSwap : Bool := match o with | .tswp .. => true | _ => false
  let isUreq : Bool := match m with | .ureq _ => true | _ => false
  if cyc < t.seq.free then some .bubble
  else if (waitsFor t cyc b).any (fun g => !isQuarter g) then some .operand
  else if !(waitsFor t cyc b).isEmpty then some .vector
  else if (tTruss o).isSome ∧ !isDrain ∧ u.blocked then some .queueFull
  else if isRow ∧ u.pending.isSome then some .batchPending
  else if isDrain ∧ !u.drains.isEmpty then some .drainsOut
  else if isSwap ∧ u.filling then some .swapFill
  else if usesMPort m ∧ (t.truss0.filling ∨ t.truss1.filling ∨ cyc < t.seq.mFree) then some .mPort
  else if isUreq ∧ 16 ≤ t.xfer.ureqs.length then some .ureqs
  else if opOr .nop t.regs b.v ≠ .nop ∧ cyc < t.seq.vFree then some .vUnit
  else none

/-- The sticky flag a structural stall sets (R45, R49). -/
def holdFlag (t : Tile) : Hold → Tile
  | .queueFull => setInt t bitOqStall
  | .swapFill => setInt t bitWswapStall
  | _ => t

/-- The fault an executing bundle takes at issue: a bad address (0x04), an uncorrectable store word read by the M slot
(0x02), or a reported store or parity error (R61). -/
def issueFault (cx : Ctx) (i : Issue) (t : Tile) (b : Bun) : Option Nat :=
  let m := opOr .nop t.regs b.m
  let badRow := match opOr .nop t.regs b.t with
    | .trow one aA aS sS cnt => !batchInStore (batchOf t one aA aS sS cnt)
    | _ => false
  let rowBad := match opOr .nop t.regs b.t with
    | .trow one aA aS sS cnt =>
      let u := trussOf t one
      u.active.isNone && chunkPoisoned t { u with active := some (batchOf t one aA aS sS cnt) }
    | _ => false
  if addrFaultM cx t m || badRow then some 4
  else if (mRanges t m).any (fun x => x.2.2 && poisonedIn t x.1 x.2.1) || rowBad || i.err.storeUncorr then some 2
  else if i.err.parity then some 6
  else none

/-- The latency a bundle has by R54 and R114 alone: the last of its executing slots to complete (R327). -/
def fixedLatency (csrw : Bool) (m : MOp) (sn : Nat) (ws : List TWr) : Nat :=
  let w := ws.foldl (fun n x => max n x.lat) (if csrw then 2 else 0)
  match m with
  | .sts .. => max w 1
  | .stv _ _ (.quarter _) _ => max w 1
  | .stv _ _ .full _ => max w 4
  | .wfill .. => max w sn
  | _ => w

/-- An operation completes when its schedule, its truss or the M port lets it, not by its latency alone (R114). -/
def timedOp (m : MOp) (o : TOp) : Bool :=
  (match m with | .wfill .. => true | .sarm .. => true | .ureq .. => true | _ => false) ||
    match o with | .trow .. => true | .tdrn .. => true | _ => false

/-- The bundle at `pc` lies in the enabled wait range (R320). -/
def inWaitRange (t : Tile) (pc : Nat) : Bool :=
  let w := t.inst.waitRange
  w.getLsbD 31 && decide ((w.extractLsb' 0 14).toNat ≤ pc) && decide (pc ≤ (w.extractLsb' 16 14).toNat)

/-- The stall cycles of an issue as their causes count: within the wait range every cycle, the issue's too, has cause 11
(R320). -/
def stallCauses (t : Tile) (pc : Nat) (i : Issue) : List (BitVec 4 × Nat) :=
  if inWaitRange t pc then [(11, (i.stalls.foldl (fun n s => n + s.2) 0) + 1)] else i.stalls

/-- `n` stall cycles of a cause counted by the events (R324). -/
def countStall (cause n : Nat) (t : Tile) : Tile := bumpFor n (0x010 + cause) 1 (bumpFor n 0x010 1 t)

/-- The stall cycles counted by the events. -/
def countStalls (ss : List (BitVec 4 × Nat)) (t : Tile) : Tile := ss.foldl (fun u s => countStall s.1.toNat s.2 u) t

/-- The cause of a cycle in which BEAT waits to retire: the bundle at RR is the one after it (R320). -/
def beatCause (t : Tile) : BitVec 4 := if inWaitRange t t.seq.pc then 11 else 12

/-- The cycles lost to bank conflicts, which count whatever cause R320 gives them in the wait range (R42). -/
def countConflicts (n : Nat) (t : Tile) : Tile :=
  if n = 0 then t
  else
    setInt (bumpFor n 0x040 1 { t with csr := { t.csr with bankConflicts := satInc t.csr.bankConflicts n } }) bitBankConflict

/-- The stall cycles of an issue that a bank conflict caused. -/
def conflictCycles (ss : List (BitVec 4 × Nat)) : Nat := ss.foldl (fun n s => if s.1 = 9 then n + s.2 else n) 0

/-- The correction that a fetch met (R39). -/
def countImem (i : Issue) (pc : Nat) (t : Tile) : Tile :=
  if i.err.imemCorr then
    setInt { t with csr := { t.csr with
      imemCorrected := satInc t.csr.imemCorrected 1, imemLast := BitVec.ofNat 14 pc } } bitImemCorr
  else t

/-- The correction that a bundle's store reads met (R41). -/
def countStore (i : Issue) (t : Tile) : Tile :=
  match i.err.storeCorr with
  | none => t
  | some o =>
    setInt (bump 0x042 1 { t with csr := { t.csr with
      storeCorrected := satInc t.csr.storeCorrected 1, storeLast := o } }) bitStoreCorr

/-- The suppressed slots that carry an operation, C, M, T, V from the top bit (R329). -/
def suppressedBits (r : Regs) (b : Bun) : Nat :=
  let f {α : Type} [DecidableEq α] (n : α) (s : Slot α) : Nat := b2n (decide (s.dec ≠ .op n) && !executes r s.pred)
  8 * f COp.nop b.c + 4 * f MOp.nop b.m + 2 * f TOp.nop b.t + f VOp.nop b.v

/-- The number of set bits of a 4-bit value. -/
def pop4 (v : Nat) : Nat := v % 2 + v / 2 % 2 + v / 4 % 2 + v / 8 % 2

/-- The sampling engine at a bundle's issue (R325–R327). -/
def sampleIssue (cx : Ctx) (i : Issue) (pc : Nat) (w : Bundle) (b : Bun) (r : Regs) (lat : Nat) (timed : Bool)
    (ss : List (BitVec 4 × Nat)) (t : Tile) : Tile :=
  let t1 := if sampMode t = 1 then selectStep t 1 1 else t
  if !t1.inst.selWait then t1 else
  let atRR := ss.filter (fun s => s.1 ≠ 1)
  let rec_ : SampleRec :=
    { beatLo := cx.beat.setWidth 32, pc := BitVec.ofNat 14 pc
      ops := w.extractLsb' 122 6 ++ w.extractLsb' 90 6 ++ w.extractLsb' 58 6 ++ w.extractLsb' 26 6
      suppressed := BitVec.ofNat 4 (suppressedBits r b)
      cause := match atRR.getLast? with | some s => s.1 | none => 0
      stallCycles := min (atRR.foldl (fun n s => n + s.2) 0) 0xFFFF, issueCycle := i.cycle
      trigger := if sampMode t1 = 2 then t1.inst.sampCtrl.extractLsb' 32 10 else 0, fixedLatency := lat, timed := timed }
  { t1 with inst := { t1.inst with selWait := false, inProgress := some rec_ } }

/-- The bundle's counters (R319, R324). -/
def countIssue (r : Regs) (b : Bun) (taken looped nan : Bool) (t : Tile) : Tile :=
  let c := opOr .nop r b.c
  let m := opOr .nop r b.m
  let o := opOr .nop r b.t
  let v := opOr .nop r b.v
  let t1 := { t with inst := { t.inst with issued := t.inst.issued + 1 } }
  let t2 := bump 0x006 (b2n (decide (v ≠ .nop))) (bump 0x005 (b2n (decide (o ≠ .nop)))
    (bump 0x004 (b2n (decide (m ≠ .nop))) (bump 0x003 (b2n (decide (c ≠ .nop))) (bump 0x002 1 t1))))
  let t3 := bump 0x009 (b2n looped) (bump 0x008 (b2n taken) (bump 0x007 (pop4 (suppressedBits r b)) t2))
  (vEvents v).foldl (fun u e => bump e 1 u) (bump 0x031 (b2n nan) t3)

/-- A write of a quarter that lands in the cycle in which a drain's value lands there is discarded (R52). -/
def clashes (t : Tile) (cyc : Nat) (w : TWr) : Bool :=
  match w.wr with
  | .vq r q _ => t.seq.board.any fun x => x.drain && x.reg = .q r q && x.due = cyc + w.lat
  | _ => false

/-- The cycle by which the store of an M-slot operation issued in cycle `cyc` has completed (R114). -/
def storeDue (cyc : Nat) : MOp → Nat
  | .sts _ _ _ => cyc + 1
  | .stv _ _ (.quarter _) _ => cyc + 1
  | .stv _ _ .full _ => cyc + 4
  | _ => 0

/-- An M-slot operation moves a whole vector register, which takes the M port for 4 cycles (R54). -/
def fullAccess : MOp → Bool
  | .ldv _ _ .full _ => true
  | .stv _ _ .full _ => true
  | _ => false

/-- The scoreboard and the units after an issue in cycle `cyc` (R36, R54, R102, R114). -/
def seqIssued (cyc : Nat) (taken : Bool) (m : MOp) (v : VOp) (ws : List (RegId × Nat)) (q : Seq) : Seq :=
  { q with
    board := (q.board.filter fun x => decide (cyc < x.due)) ++ ws.map fun w => ⟨w.1, cyc + w.2, false⟩
    stored := max q.stored (storeDue cyc m)
    free := if taken then cyc + 3 else cyc + 1
    mFree := if fullAccess m then cyc + 4 else q.mFree
    vFree := match v with | .vred _ _ _ => cyc + 2 | .vqmx _ _ _ _ _ => cyc + 2 | .vqk4 _ _ _ _ _ => cyc + 2 | _ => q.vFree }

/-- A CSRW's clear of int_status comes before the bundle's own sets of its cycle, so that the sets win (R62). -/
def csrwClear (w : Option (Nat × W64)) (t : Tile) : Tile :=
  match w with
  | some (o, x) => if o = 0x0040 then clearInt t x 0 else t
  | none => t

/-- The rest of a CSRW comes after the bundle's counts: a written evcnt stands (R323), and ovf stays set when its counter
wrapped in this cycle (R62). -/
def csrwRest (cx : Ctx) (before t : Tile) (w : Option (Nat × W64)) : Tile :=
  match w with
  | none => t
  | some (o, x) =>
    if o = 0x0040 then t else
    let u := csrWrite cx t o x
    let n := (o - 0x0580) / 8
    if 0x0580 ≤ o ∧ o ≤ 0x05B8 ∧ (look 0 t.inst.evcnt n).toNat < (look 0 before.inst.evcnt n).toNat then
      { u with inst := { u.inst with evsel := upd 0 u.inst.evsel n (· ||| bit64 63) } }
    else u

/-- The tile that a bundle's slots act on: the stall cycles of its issue are counted, and a CSRW's clear of int_status has
come first. -/
def issueSeen (pc : Nat) (i : Issue) (w : Option (Nat × W64)) (t0 tn : Tile) : Tile :=
  csrwClear w (countConflicts (conflictCycles i.stalls) (countStalls (stallCauses t0 pc i) tn))

/-- The bundle issues (R35, R101, R104): every slot reads the tile as it stood, `t0`; writes land in completion order on
`tn`, the tile after the chunks of this cycle; and F1 chooses the next address. -/
def issueNow (cx : Ctx) (ix : Nat) (i : Issue) (w : Bundle) (b : Bun) (pc : Nat) (t0 tn : Tile) : Tile × Eff :=
  let r := t0.regs
  let c := execC cx ix t0 pc (opOr .nop r b.c)
  let mop := opOr .nop r b.m
  let ss := stallCauses t0 pc i
  let (t1, mw, em) := execM cx t0 (issueSeen pc i c.csrw t0 tn) i.cycle mop
  let t2 := execT t0 t1 i.cycle (opOr .nop r b.t)
  let v := execV t0 (opOr .nop r b.v)
  let all := c.writes ++ mw ++ v.writes
  let ws := all.filter fun x => !clashes t0 i.cycle x
  let (next, loops, looped) :=
    match c.taken with
    | some a => (a, c.loops, false)
    | none => nextAddr pc c.loops
  let q := seqIssued i.cycle c.taken.isSome mop (opOr .nop r b.v) (bundleWrites r b) t2.seq
  let t3 := { t2 with
    regs := { applyWrs t2.regs ws with loops := loops }
    seq := { q with
      pc := next, lastPc := BitVec.ofNat 14 pc
      beatAt := if c.beat then some (i.cycle + 1) else q.beatAt } }
  let t4 := setIntIf (all.any (clashes t0 i.cycle)) (setIntIf v.nan (setIntIf c.sig t3 bitSignal) bitNan) bitVregClash
  let sn := match mop with | .wfill _ _ _ sU => (fillSpan (readS r sU.toNat)).2 | _ => 0
  let t5 := countStore i (countIssue r b c.taken.isSome looped v.nan t4)
  let t6 := sampleIssue cx i pc w b r (fixedLatency c.csrw.isSome mop sn all) (timedOp mop (opOr .nop r b.t)) ss t5
  (csrwRest cx t0 t6 c.csrw, { em with
    nanRise := v.nan && !t0.csr.intStatus.getLsbD bitNan
    ecc := b2n i.err.imemCorr + b2n i.err.storeCorr.isSome
    stalls := ss, issued := true })

/-- The tile as its sequencer finds it in this cycle: the chunks that its trusses read before it are read (R47). -/
def chunksRead (cx : Ctx) (i : Issue) (t : Tile) : Tile :=
  let t1 := repeatN (fun _ u => chunkOrFault cx i.cycle false u) i.chunks0 (passTo i.cycle t)
  repeatN (fun _ u => chunkOrFault cx i.cycle true u) i.chunks1 t1

/-- The chunks that the trusses read in this cycle. -/
def chunksNow (cx : Ctx) (i : Issue) (t : Tile) : Tile :=
  let t1 := if i.now0 then chunkOrFault cx i.cycle false t else t
  if i.now1 then chunkOrFault cx i.cycle true t1 else t1

/-- The sequencer may issue: the tile is in ISSUE and BEAT has not issued (R55, R57). -/
def mayIssue (t : Tile) : Bool := decide (t.tstate = .issue) && t.seq.beatAt.isNone

/-- The bundle at the sequencer's next address; none beyond bundle 16,383 (R40). -/
def fetched (t : Tile) : Option Bundle := if t.seq.pc < 16384 then some (look 0 t.imem t.seq.pc) else none

/-- The sequencer fetches, judges and issues the bundle at its next address. -/
def issueBundle (cx : Ctx) (ix : Nat) (i : Issue) (t : Tile) : Tile × Eff :=
  let t0 := chunksRead cx i t
  if !mayIssue t0 then (chunksNow cx i t0, Eff.none) else
  let pc := t0.seq.pc
  match fetched t0 with
  | none => (faultTile cx i.cycle 3 pc (chunksNow cx i t0), Eff.none)
  | some w =>
    if i.err.imemUncorr then (faultTile cx i.cycle 1 pc (chunksNow cx i t0), Eff.none) else
    let tn := chunksNow cx i (countImem i pc t0)
    let met := { Eff.none with ecc := b2n i.err.imemCorr }
    let b := decodeBundle w
    if bundleIllegal cx t0 pc b then (faultTile cx i.cycle 3 pc tn, met) else
    match bundleHold t0 i.cycle b with
    | some h => (holdFlag tn h, met)
    | none =>
      match issueFault cx i t0 b with
      | some f => (faultTile cx i.cycle f pc (if f = 4 then tn else countStore i tn), met)
      | none => if tn.tstate = .fault then (tn, met) else issueNow cx ix i w b pc t0 tn

/-! ### Completions inside a tile -/

/-- The rest of the row being read, when no row is in flight and no issue has reported its chunks; a row has at most 32. -/
def finishRow (cx : Ctx) (cyc : Nat) (one : Bool) (t : Tile) : Tile :=
  repeatN (fun _ u => if (trussOf u one).inflight.isEmpty then chunkOrFault cx cyc one u else u) 32 t

/-- A truss row's results enter the output queue; a full queue blocks the truss (R47, R49). NaN in any column sets nan_seen
(R77). -/
def rowComplete (cx : Ctx) (cyc : Nat) (one : Bool) (t : Tile) : Tile × Bool :=
  let t1 := if (trussOf t one).inflight.isEmpty then finishRow cx cyc one t else t
  let u := trussOf t1 one
  match u.inflight with
  | [] => (t1, false)
  | row :: rest =>
    if 8 ≤ u.queue.length then (setTruss t1 one { u with blocked := true }, false)
    else
      let nan := row.any isNaN32
      let t2 := setTruss t1 one { u with inflight := rest, queue := u.queue ++ [row] }
      (setIntIf nan (bump 0x031 (b2n nan) (bump 0x022 1 t2)) bitNan, nan && !t.csr.intStatus.getLsbD bitNan)

/-- The drains left after one in cycle `cyc`: the next takes place later than it (R133). -/
def drainsAfter (cyc : Nat) : List Drain → List Drain
  | [] => []
  | d :: ds => { d with start := max d.start (cyc + 1) } :: ds

/-- A V- or M-slot write of a quarter is pending that completes in a cycle `f` accepts. -/
def slotPends (t : Tile) (g : RegId) (f : Nat → Bool) : Bool := t.seq.board.any fun x => x.reg = g && !x.drain && f x.due

/-- The next outstanding drain, once its time has come: the oldest queued row moves into its quarter, to be read 2 cycles
later; with no row queued it waits for one in flight, and with none in flight it is a fatal fault (R48, R50, R133). A V- or
M-slot write that completes in the cycle in which the drain's value lands is discarded (R52); one that completes later
stands (R103). -/
def drainOne (cx : Ctx) (cyc : Nat) (one : Bool) (t : Tile) : Tile :=
  let u := trussOf t one
  match u.drains with
  | [] => t
  | d :: ds =>
    if cyc < d.start then t else
    match u.queue with
    | row :: rest =>
      let g := RegId.q d.reg d.quarter
      let t1 := setTruss t one { u with queue := rest, drains := drainsAfter cyc ds, blocked := false }
      let v := setQuarter (readV t1.regs d.reg) d.quarter row
      let t2 := if slotPends t g (cyc + 2 < ·) then t1 else { t1 with regs := writeV t1.regs d.reg v }
      let t3 := { t2 with seq := { t2.seq with board := t2.seq.board ++ [⟨g, cyc + 2, true⟩] } }
      setIntIf (slotPends t g (· = cyc + 2)) (bump 0x023 1 t3) bitVregClash
    | [] => if rowsInFlight u then t else faultTile cx cyc 5 t.seq.lastPc.toNat t

/-- A fill of the truss's inactive buffer writes its last unit (R45). -/
def fillDone (one : Bool) (t : Tile) : Tile := setTruss t one { trussOf t one with filling := false }

/-- Every earlier operation of the tile has completed by cycle `cyc` (R55, R114). -/
def workDone (cyc : Nat) (t : Tile) : Bool :=
  let u (x : Truss) : Bool := !rowsInFlight x && x.drains.isEmpty && !x.filling
  u t.truss0 && u t.truss1 && t.xfer.armed.isEmpty && decide (t.seq.stored ≤ cyc) &&
    t.seq.board.all fun x => decide (x.due ≤ cyc)

/-- BEAT retires in cycle `cyc` (R55, R56, R113): the tile reports done and waits; cycles past 1,999 are overrun. -/
def beatRetire (cyc : Nat) (t : Tile) : Tile × Nat :=
  match t.seq.beatAt with
  | none => (t, 0)
  | some b =>
    if t.tstate = .issue ∧ workDone cyc t ∧ b ≤ cyc then
      let late := cyc - 1999
      let waited := cyc + 1 - b
      let tp := passTo cyc t
      let t1 := { tp with
        tstate := .wait
        seq := { tp.seq with beatAt := none, lastDone := cyc, done := true }
        inst := { tp.inst with overrun := tp.inst.overrun + BitVec.ofNat 64 late } }
      (setIntIf (decide (0 < late)) (countStall (beatCause t).toNat waited t1) bitOverrun, waited)
    else (t, 0)

end Sys2Proof.Machine
end

