-- ==== Sys2Proof/Machine/DataState.lean ====
section
/-!
DEFINITION. The state of the data plane (R13): tiles, mesh, field stacks and arbiters, scarf engines, the beat generator
and plumb, the latched joint inputs, the placement engine with its copy of the image, the host DMA engines, and the
data-event ring.
-/

namespace Sys2Proof.Machine

/-! ### Events (R313–R315) -/

/-- An event record (R314). -/
structure EvRec where
  seq : W64
  time : W64
  tick : W64
  beat : W64
  code : BitVec 16
  module : BitVec 8
  detail : List Byte
deriving DecidableEq, Repr

/-- A subscriber of one plane's events (R315): its source address, the engine it last acknowledged on (R294), its next
wanted sequence and the time of its last acknowledgement. -/
structure Subscriber where
  addr : Nat
  engine : Nat
  next : W64
  lastAck : W64
deriving DecidableEq, Repr

/-- An event ring of up to 4,096 records, oldest first (R313). `sent` is the records of the datagram last sent to a
subscriber. -/
structure EvRing where
  recs : List EvRec
  next : W64
  subs : List Subscriber
  sent : List (List Byte)
deriving DecidableEq, Repr

/-- A ring whose sequence starts at 1. -/
def EvRing.fresh : EvRing := ⟨[], 1, [], []⟩

/-! ### Fields and arbiters (R200–R222) -/

/-- field_status.stack_mode (R220). -/
inductive StackMode where
  | full | reduced | failed | untrained
deriving DecidableEq, Repr

/-- Stack training states (R202). -/
inductive StkState where
  | off | cal | level | deskew | test | map | ready | fail
deriving DecidableEq, Repr

/-- The four counts of one router (R220). -/
structure Rtr where
  escapeMoves : BitVec 16
  lateArms : BitVec 16
  lateLands : BitVec 16
  xchgLimit : BitVec 16
deriving DecidableEq, Repr

def Rtr.zero : Rtr := ⟨0, 0, 0, 0⟩

/-- What an arbiter request moves: a burst of a tile's UREQ transfer, the data another requester writes, or a read whose
data goes to that requester. -/
inductive BurstOf where
  | tileXfer (tile : Nat) (id : Nat) (off : Nat)
  | put (data : List Byte)
  | get
deriving DecidableEq, Repr

/-- A pending request at a field's arbiter (R208). -/
structure StackReq where
  q : Nat
  cls : Nat
  write : Bool
  addr : Nat
  len : Nat
  what : BurstOf
deriving DecidableEq, Repr

/-- A field's stack arbiter (R207–R212). Requests stand oldest first. -/
structure Arb where
  req : SMap W64
  shadow : SMap W64
  credit : SMap Nat
  ptr : SMap Nat
  roundCycles : Nat
  pending : List StackReq
  wait : SMap W32
  grants : SMap W32
  discarded : SMap W32
  starve : W64
  present : W64
  /-- the refresh window of this tick has opened: no burst is granted up to cycle 1,999 (R203) -/
  refresh : Bool
  /-- the data of the burst last granted to a requester that is no tile, and its requester -/
  out : Option (Nat × List Byte)
deriving DecidableEq, Repr

/-- A 64 B line a scheduled write replaced, with what it held: a read whose slot follows too closely may return either
(R192). `at_` is the cycle of the write's last flit, counted over ticks. -/
structure RecentLine where
  line : Nat
  at_ : Nat
  old : List Byte
deriving DecidableEq, Repr

/-- One field: its CSRs, its routers' counts, its stack and arbiter. -/
structure Field where
  on : Bool
  module : BitVec 8
  /-- physical channels that failed training (R201) -/
  failed : List Nat
  mode : StackMode
  train : StkState
  /-- a warm start tests the stored trims; a channel that fails trains anew from STK_CAL (R202) -/
  warm : Bool
  intStatus : W64
  intEnable : W64
  routerCfg : W64
  eccUncorr : W32
  eccCorr : W32
  /-- logical channel to 0x80 + physical channel -/
  chanMap : SMap Byte
  rtr : SMap Rtr
  arb : Arb
  mem : Memory
  recent : List RecentLine
  /-- uncorrectable reads of each physical channel in this run (R205) -/
  chanUncorr : SMap Nat
  /-- channels marked for retraining (R205) -/
  retrain : SMap Bool
deriving DecidableEq, Repr

/-- router_cfg's reset value: escape_threshold 4,096, adaptive_enable 1 (R220). -/
def routerCfgReset : W64 := 0x10000001#64

def Arb.zero : Arb := ⟨[], [], [], [], 0, [], [], [], [], 0, 0, false, none⟩

/-- A field whose stack domain is off. -/
def Field.off : Field :=
  ⟨false, 0, [], .untrained, .off, false, 0, 0, routerCfgReset, 0, 0, [], [], Arb.zero, [], [], [], []⟩

/-! ### Mesh (R180–R199, R217) -/

/-- A scheduled flit on its way to its destination store (R188): the executed beat it was sent in, its land cycle, the
physical tile, the store offset and the data. -/
structure Flit where
  beat : W64
  land : Nat
  k : Nat
  source : Nat
  tile : Nat
  offset : Nat
  data : List Byte
deriving DecidableEq, Repr

/-- A scheduled stack read waiting for its return (R192). -/
structure StackReturn where
  tile : Nat
  tag : Nat
  store : Nat
  stack : Nat
  /-- the burst's data as of its slot -/
  data : List Byte
  land : Nat
  done : Nat
deriving DecidableEq, Repr

/-- An unscheduled packet of a UREQ put (R194): its source tile and transfer, the router at which it entered the mesh, the
destination module and tile as the address names them, the far offset, the source offset and the length. -/
structure Packet where
  tile : Nat
  id : Nat
  start : Nat
  module : BitVec 8
  row : Nat
  col : Nat
  offset : Nat
  source : Nat
  len : Nat
  /-- the router at which it moved to the escape channel (R196) -/
  escaped : Option Nat
  /-- the data of a packet that entered over a scarf link -/
  data : Option (List Byte)
  /-- a response: the status it carries back to its transfer's engine (R194, R198) -/
  ack : Option (BitVec 16)
  /-- it has left the module over a scarf link and its answer is to come -/
  away : Bool
deriving DecidableEq, Repr

/-- A carried exchange record in flight (R217), and the router at which it entered this module's mesh. -/
structure XFlight where
  router : Nat
  beat : W64
  record : XRecord
  rank : Nat
  index : Nat
deriving DecidableEq, Repr

/-- Maps and traffic of the on-wafer mesh. -/
structure Mesh where
  /-- physical module of each logical module -/
  moduleMap : SMap Nat
  /-- physical tile of each logical tile 32·r + c -/
  tileMap : SMap (Option Nat)
  flits : List Flit
  returns : List StackReturn
  packets : List Packet
  xrecs : List XFlight
  /-- the input port each tile's local eject served last (R185) -/
  served : SMap Nat
deriving DecidableEq, Repr

/-! ### Scarf engines (R223–R254) -/

/-- Scarf training states (R233). -/
inductive ScfState where
  | off | bias | adapt | lane | id | lat | up | fail
deriving DecidableEq, Repr

/-- A scheduled or unscheduled flit unit queued for a cell (R227, R228): its header and its data; and what the header's
layout does not show (log 27): an exchange record's beat, rank and index, a scheduled flit's number k in its send, and the
engine over which a flit in transit entered this module with the credit class it came in. -/
structure TxFlit where
  header : BitVec 128
  data : List Byte
  xrec : Option XFlight
  k : Nat
  entry : Option (Nat × Nat)
deriving DecidableEq, Repr

/-- What an end sends in SCF_ID (R235): its module, its side and engine index, and its description's digest. -/
structure ScfIdent where
  module : BitVec 8
  side : Nat
  index : Nat
  digest : W32
deriving DecidableEq, Repr

/-- A scarf cell: its control unit with the check value sent, and its flit units (R226, R227). -/
structure Cell where
  seq : BitVec 24
  ack : BitVec 24
  nack : Bool
  swapReq : Bool
  swapNow : Bool
  swapLane : Nat
  credits : List Nat
  marker : Option (BitVec 128)
  phase : W32
  words : List (BitVec 128)
  units : List TxFlit
  crc : W32
deriving DecidableEq, Repr

/-- A scheduled flit held by its entry engine until its release (R245). -/
structure HeldFlit where
  arriveBeat : BitVec 8
  land : Nat
  k : Nat
  row : Nat
  col : Nat
  offset : Nat
  data : List Byte
deriving DecidableEq, Repr

/-- One scarf engine (R224–R239, R254). -/
structure Engine where
  on : Bool
  state : ScfState
  failCause : BitVec 4
  lanesGood : BitVec 9
  /-- hot spare lane, 15 when none -/
  spareLane : Nat
  /-- the active lane whose copy arrives on the hot spare (R234) -/
  copyLane : Option Nat
  /-- the active lanes in lane order -/
  lanes : List Nat
  /-- symbols corrected on each lane in the frame, and lanes on which a codeword was uncorrectable (R237) -/
  laneCorr : SMap Nat
  laneBad : SMap Bool
  /-- the identity sent in SCF_ID (R235) -/
  ident : Option ScfIdent
  peerModule : BitVec 8
  latency : BitVec 10
  retries : BitVec 16
  scarfLate : BitVec 16
  corrected : W32
  txSeq : BitVec 24
  /-- highest seq received in order without error -/
  rxAck : BitVec 24
  nackDue : Bool
  /-- a bad cell was seen and its replay is awaited -/
  rejecting : Bool
  /-- how often in a row the next cell in order has failed (R232) -/
  fails : Nat
  retry : List Cell
  /-- the time from which unacknowledged cells have waited for ack to advance (R232) -/
  ackSince : W64
  replay : List Cell
  credits : List Nat
  held : List HeldFlit
  /-- state words waiting to be sent -/
  words : List (BitVec 128)
  txQueue : List TxFlit
  /-- a marker waits for the next cell -/
  markerDue : Option (BitVec 128)
  /-- the marker of an accepted cell that plumb has not yet taken, with the sender's boundary that R229 computes for it, in
  1/16 LCLK cycles from this module's own; and the state words -/
  markerIn : Option (BitVec 128 × Int)
  wordsIn : List (BitVec 128)
  swapReq : Bool
  /-- a swap in progress on the receive lanes: the lane replaced and the good cells seen on the spare -/
  swapping : Option (Nat × Nat)
  swapNow : Bool
  /-- this end has sent swap_now for its receive lanes, and the peer's first cell under the new assignment has come -/
  swapSent : Bool
  swapSeen : Bool
  /-- the transmit lanes in lane order, the transmit direction's hot spare, and the lane the peer asks to replace -/
  txLanes : List Nat
  txSpare : Nat
  txSwap : Option Nat
  /-- the peer has set swap_now for them: the next cell goes out under the new assignment -/
  txReady : Bool
  /-- the latest cell the engine sent -/
  sent : Option Cell
  /-- scarf late has been raised in this frame (R253) -/
  lateRaised : Bool
deriving DecidableEq, Repr

/-- An engine whose domain is off. -/
def Engine.off : Engine :=
  { on := false, state := .off, failCause := 0, lanesGood := 0, spareLane := 15, copyLane := none, lanes := []
    laneCorr := [], laneBad := [], ident := none, peerModule := 0, latency := 0, retries := 0, scarfLate := 0
    corrected := 0, txSeq := 0, rxAck := 0, nackDue := false, rejecting := false, fails := 0, retry := [], ackSince := 0
    replay := [], credits := [], held := [], words := [], txQueue := [], markerDue := none, markerIn := none, wordsIn := []
    swapReq := false, swapping := none, swapNow := false, swapSent := false, swapSeen := false, txLanes := []
    txSpare := 15, txSwap := none, txReady := false, sent := none, lateRaised := false }

/-- The system description (R241) with the module's own number. -/
structure SysDesc where
  own : BitVec 8
  sysId : W32
  sizeX : Nat
  sizeY : Nat
  scarfDelay : Nat
  eligible : BitVec 256
  digest : W32
deriving DecidableEq, Repr

/-! ### The beat and plumb (R141–R176) -/

/-- A state word (R158). -/
structure StateWord where
  origin : BitVec 8
  wseq : BitVec 8
  stepReq : Nat
  hold : Bool
  beatFault : Bool
  rootClaim : Bool
  locked : Bool
  orderSeq : BitVec 8
  turn : Nat
  op : Nat
  cause : BitVec 8
  stamp : W64
deriving DecidableEq, Repr

/-- The J1 items as the data plane latches them (R17, R18), and the seq of the last order acted on (R19). -/
structure J1 where
  stepReq : Nat
  hold : Bool
  throttle : Bool
  order : BitVec 16
  acted : BitVec 8
  /-- the tick whose closing boundary latched the latest change (R142) -/
  stamp : W64
  /-- an item changed since the last boundary -/
  changed : Bool
deriving DecidableEq, Repr

/-- The beat generator (R141–R153, R168). -/
structure BeatGen where
  marking : Bool
  tick : W64
  count : W64
  step : Nat
  pend : Option (Nat × W64)
  lastSwitch : W64
  /-- the tile rails in µV, without the fields' fused trims (R143, R145) -/
  rail : Nat
  governor : BitVec 8
  /-- the member that set the scheduled step -/
  pendGov : BitVec 8
  /-- a start has been accepted since the last load or stop (R60) -/
  run : Bool
  /-- beats advance in the current tick -/
  advancing : Bool
  /-- a start or resume order waits to advance beats: true for a start -/
  armed : Option Bool
  /-- a checkpoint (none) or a turn code waits for the next turn point -/
  atTurnPoint : Option (Option Nat)
  /-- both trusses of every tile are clock-gated by throttle (R20) -/
  gated : Bool
  /-- beats stopped under a hold and the hold end event is due (R176) -/
  afterHold : Bool
  /-- a hold has kept the run's beats still since beats last advanced (R21 row 7) -/
  held : Bool
  /-- J3 HALT stands, and the tick during which it acted (R152) -/
  halted : Bool
  haltTick : W64
  /-- HALTED as the beat generator drives it -/
  haltedOut : Bool
  /-- a beat fault detected and not yet declared -/
  pendFault : Option (BitVec 8)
  /-- the beat fault declared in this run -/
  fault : Option (BitVec 8)
  /-- any member's beat fault shows: beat_fault of the J4 snapshot (R153) -/
  faultShown : Bool
  /-- cumulative stretch since assembly -/
  cstretch : W32
  /-- ticks with a stretch, and their stretches, since the last snapshot (R151) -/
  frameStretched : Nat
  frameOverrun : Nat
  /-- TCLK cycles of executed beats since the last snapshot (R334) -/
  frameCycles : Nat
deriving DecidableEq, Repr

/-- A marker as an engine last received it, with the tick of its receipt (R157, R161). -/
structure MarkerIn where
  root : BitVec 8
  backup : BitVec 8
  hop : Nat
  cstretch : W32
  rtick : BitVec 16
  tick : W64
  at_ : W64
  /-- the phase error in cycles that the steering measures against it (R161) -/
  err : Nat
deriving DecidableEq, Repr

/-- Plumb in this module (R155–R175). -/
structure Plumb where
  root : Option (BitVec 8)
  backup : Option (BitVec 8)
  hop : Nat
  rtick : W64
  markers : SMap (Option MarkerIn)
  /-- each member's words, latest first -/
  words : SMap (List StateWord)
  /-- the tick at which each member's latest word arrived -/
  heard : SMap W64
  /-- the first copy of each member's wseq seen -/
  seen : SMap (List (BitVec 8))
  wseq : BitVec 8
  lastSent : W64
  /-- a state word is due (R158) -/
  wordDue : Bool
  locked : Bool
  /-- the tick count has been taken from the upstream marker since election (R242) -/
  synced : Bool
  phaseError : Nat
  alignWarnings : Nat
  warnedFrame : Bool
  rootLost : Bool
  rootClaim : Bool
  takeover : Option W64
  failoverAt : Option W64
  trained : Bool
  trainedAt : W64
  assembled : Bool
  incomplete : Bool
  /-- the order seq whose mismatch has been raised (R166) -/
  mismatchRaised : Option (BitVec 8)
  /-- the last word this module sent -/
  sent : Option StateWord
deriving DecidableEq, Repr

/-! ### Placement (R255–R291) -/

/-- One section table entry (R257). -/
structure SectEntry where
  kind : Nat
  module : Nat
  row : Nat
  col : Nat
  offset : Nat
  length : Nat
  digest : List Byte
deriving DecidableEq, Repr

/-- The image header's fields (R256). -/
structure ImgHeader where
  sectionCount : Nat
  tableOff : Nat
  sizeX : Nat
  sizeY : Nat
  scarfDelay : Nat
  minStep : Nat
  rmode : Nat
  turnMask : Nat
  widths : Nat
  tpPeriod : Nat
  srKey : W64
  storeMax : Nat
  turnStore : Nat
  stackMax : Nat
  turnStack : Nat
  turnMs : List Nat
  xcap : List (Nat × Bool)
deriving DecidableEq, Repr

/-- A loaded image: header, section table, digest of the signed region, and its bytes as received. -/
structure Image where
  header : ImgHeader
  sections : List SectEntry
  digest : List Byte
  bytes : Memory
deriving DecidableEq, Repr

/-- A turn or checkpoint in progress (R279, R288): the next phase, 0 for A to 3 for D; whether it is a checkpoint alone;
the code it leads to; TSCLK at its turn point; the beat counter there; and phase A's staging and header of each field, in
place in the field's stack. -/
structure TurnJob where
  phase : Nat
  checkpoint : Bool
  target : Nat
  since : W64
  beat : W64
deriving DecidableEq, Repr

/-- The placement engine (R263, R267–R290). -/
structure Place where
  image : Option Image
  /-- image bytes the data plane has received of the load in progress -/
  incoming : Memory
  /-- checks 2 to 8 of the load in progress passed, and its last byte has arrived with check 9 passed -/
  accepted : Bool
  arrived : Bool
  repair : SMap Bool
  code : Nat
  turnState : Nat
  loadCheck : BitVec 16
  turnOk : BitVec 8
  job : Option TurnJob
  /-- the stack live ranges of each logical field of the logical module carried (R257, R279) -/
  ranges : SMap (List (Nat × Nat))
deriving DecidableEq, Repr

/-- The J4 placement record (R17, R274). -/
structure PlaceRec where
  turnState : Nat
  code : Nat
  loadCheck : BitVec 16
  turnOk : BitVec 8
  /-- physical module of each logical module -/
  moduleMap : List Nat
  /-- physical tile of each logical tile, 0xFFFF when unmapped -/
  tileMap : List Nat
  /-- physical field of each logical field -/
  fieldMap : List Nat
  /-- engine status records -/
  engines : List (BitVec 128)
deriving DecidableEq, Repr

/-! ### Host DMA (R292–R294, R309–R312) -/

/-- A queue pair (R309). -/
structure QueuePair where
  qpn : W32
  psn : W32
  rkey : W32
  hostQpn : W32
  hostPsn : W32
  cls : Nat
  error : Bool
deriving DecidableEq, Repr

/-- One host engine: its queue pairs, discarded frames (R292), the lane its spare channel carries (R293) and the priority
its flow control pauses (R292). -/
structure HostEngine where
  on : Bool
  qps : List QueuePair
  discarded : Nat
  sparedLane : Option Nat
  pfc : Nat
deriving DecidableEq, Repr

/-- A command transport message's header and the engine and address it came by (R294, R295). -/
structure Msg where
  engine : Nat
  addr : Nat
  session : W32
  seq : W32
  cmdId : W64
deriving DecidableEq, Repr

/-- The response the data plane last sent: the message it answers, whose engine it leaves by and whose seq and cmd_id it
echoes (R294, R295), or none where no message asked (the model's own output latch, log 8). -/
structure Reply where
  msg : Option Msg
  status : BitVec 16
  data : List Byte
deriving DecidableEq, Repr

/-! ### The counter summary (R333) -/

/-- The accumulators of the module summary. -/
structure Summary where
  beats : Nat
  ticks : Nat
  bundles : Nat
  chunks : Nat
  overrun : Nat
  maxDone : Nat
  maxDoneTile : Nat
  nans : Nat
  escapes : Nat
  xlimited : Nat
  lateLands : Nat
  ecc : Nat
  waitCycles : Nat
  stalls : SMap Nat
  scarf : SMap Nat
  stack : SMap Nat
  /-- truss chunk cycles per zone (R334) -/
  zones : SMap Nat
deriving DecidableEq, Repr

def Summary.zero : Summary := ⟨0, 0, 0, 0, 0, 0, 0, 0, 0, 0, 0, 0, 0, [], [], [], []⟩

/-- The whole data plane. -/
structure Data where
  on : Bool
  j1 : J1
  beat : BeatGen
  plumb : Plumb
  desc : Option SysDesc
  tiles : SMap Tile
  fields : SMap Field
  mesh : Mesh
  engines : SMap Engine
  place : Place
  hosts : SMap HostEngine
  ring : EvRing
  reply : Option Reply
  sum : Summary
  /-- the lines of J3 TILE_PWR_EN are raised (R17) -/
  tilePwrEn : Bool
  /-- the next free value the data plane takes (the model's own) -/
  free : Nat
deriving DecidableEq, Repr

def HostEngine.off : HostEngine := ⟨false, [], 0, none, 3⟩

/-- The latched J1 items before Skour has written any (log 1). -/
def J1.reset : J1 := ⟨0, false, false, 0, 0, 0, false⟩

/-- The beat generator while it marks no boundaries: every rule takes the step as 12 (R144), and the tile rails stand
at that step's voltage (log 75). -/
def BeatGen.reset : BeatGen :=
  ⟨false, 0, 0, 12, none, 0, 620000, 0, 0, false, false, none, none, false, false, false, false, 0, false, none, none, false,
    0, 0, 0, 0⟩

def Plumb.reset : Plumb :=
  ⟨none, none, 31, 0, [], [], [], [], 0, 0, false, false, false, 0, 0, false, false, false, none, none, false, 0, false,
    false, none, none⟩

def Place.reset : Place := ⟨none, [], false, false, [], 0, 0, 0xFFFF, 0, none, []⟩

/-- The data plane without power. -/
def Data.reset : Data :=
  ⟨false, J1.reset, BeatGen.reset, Plumb.reset, none, [], [], ⟨[], [], [], [], [], [], []⟩, [], Place.reset, [],
    EvRing.fresh, none, Summary.zero, true, 0⟩

end Sys2Proof.Machine
end

