-- ==== Sys2Proof/Machine/DataOps.lean ====
section
/-!
DEFINITION. Shared operations of the data plane: data events, updates of one tile or field with everything that follows
from them (event lines, the module summary, router counts), the field CSR map (R220), and router port counts (R330).
-/

namespace Sys2Proof.Machine

/-- What the data plane reads from outside itself: the TSCLK time, and whether the module is RUNNING (R9) or HELD. -/
structure Env where
  ts : W64
  running : Bool
  held : Bool
deriving DecidableEq, Repr

/-- The module's own physical number (R241); 0 while it holds no description. -/
def ownModule (d : Data) : BitVec 8 := match d.desc with | some s => s.own | none => 0

/-! ### Data events (R313, R314) -/

/-- Every subscriber has acknowledged a record. -/
def ackedByAll (r : EvRing) (seq : W64) : Bool := r.subs.all fun s => seq.ult s.next

/-- A record placed in the ring; a full ring drops its oldest. The flag is that an unacknowledged record was dropped. -/
def ringPush (r : EvRing) (x : EvRec) : EvRing × Bool :=
  let x := { x with seq := r.next }
  if r.recs.length < 4096 then ({ r with recs := r.recs ++ [x], next := r.next + 1 }, false)
  else
    let lost := match r.recs with | o :: _ => !ackedByAll r o.seq | [] => false
    ({ r with recs := r.recs.tail ++ [x], next := r.next + 1 }, lost)

/-- A record raised; when it replaces one not yet acknowledged, an events-lost record with code `lostCode` follows. -/
def ringRaise (r : EvRing) (lostCode : BitVec 16) (x : EvRec) : EvRing :=
  let (r1, lost) := ringPush r x
  if lost then (ringPush r1 { x with code := lostCode, detail := natLe 4 2 }).1 else r1

/-- A data event (R313). -/
def raiseData (e : Env) (code : Nat) (detail : List Byte) (d : Data) : Data :=
  let x : EvRec := ⟨0, e.ts, d.beat.tick, d.beat.count, BitVec.ofNat 16 code, ownModule d, detail⟩
  { d with ring := ringRaise d.ring 0x01FF x }

/-! ### Tiles -/

/-- A tile by its index. -/
def tileOf (d : Data) (ix : Nat) : Tile := look Tile.off d.tiles ix
/-- A field by its number. -/
def fieldOf (d : Data) (f : Nat) : Field := look Field.off d.fields f
/-- A scarf engine by its index. -/
def engineOf (d : Data) (i : Nat) : Engine := look Engine.off d.engines i

/-- Capacity of a stack under its mode (R200). -/
def stackCap : StackMode → Nat
  | .full => 2 ^ 35
  | .reduced => 2 ^ 34
  | _ => 0

/-- What tile `ix` reads of the data plane. -/
def ctxOf (e : Env) (d : Data) (ix : Nat) : Ctx :=
  ⟨e.running, d.beat.gated, d.beat.run, d.beat.count, d.beat.tick, stackCap (fieldOf d (tileField ix)).mode⟩

/-- The logical place of a tile as the tile event carries it (R314). -/
def logicalPlace (t : Tile) : Nat :=
  if t.csr.logicalValid then t.csr.logicalRow.toNat * 32 + t.csr.logicalCol.toNat else 0xFFFF

/-- The tile event's detail (R314). -/
def tileDetail (ix : Nat) (t : Tile) : List Byte :=
  natLe 2 (logicalPlace t) ++ natLe 2 ix ++ natLe 8 t.csr.intStatus.toNat ++ natLe 8 (faultInfoReg t).toNat

/-- Tile `ix` becomes `t`: the tile event is raised on a rising edge of its event line (R313). -/
def setTile (e : Env) (ix : Nat) (t : Tile) (d : Data) : Data :=
  let old := tileOf d ix
  let d1 := { d with tiles := put Tile.off d.tiles ix t }
  if eventLine t && !eventLine old then raiseData e 0x0101 (tileDetail ix t) d1 else d1

/-! ### Fields -/

/-- A field's event line (R221). -/
def fieldLine (f : Field) : Bool := (f.intStatus &&& f.intEnable) != 0

/-- Field `n` becomes `f`: the field event is raised on a rising edge of its event line. -/
def setField (e : Env) (n : Nat) (f : Field) (d : Data) : Data :=
  let old := fieldOf d n
  let d1 := { d with fields := put Field.off d.fields n f }
  if fieldLine f && !fieldLine old then raiseData e 0x0102 (natLe 1 n ++ natLe 8 f.intStatus.toNat) d1 else d1

/-- A hardware set of a field_int_status bit. -/
def fieldInt (f : Field) (i : Nat) : Field := { f with intStatus := f.intStatus ||| bit64 i }

def fbitDestUnmapped : Nat := 0
def fbitMapBlocked : Nat := 1
def fbitLateArm : Nat := 2
def fbitLateLand : Nat := 3
def fbitXchgLate : Nat := 4
def fbitArbDiscard : Nat := 5
def fbitStarve : Nat := 6
def fbitStackCorr : Nat := 7
def fbitStackUncorr : Nat := 8
/-- The bits of field_int_status that are not reserved. -/
def fieldIntMask : W64 := 0x1FF#64

/-- The router counts of tile `ix` updated. -/
def onRtr (f : Rtr → Rtr) (ix : Nat) (x : Field) : Field := { x with rtr := upd Rtr.zero x.rtr (tileLocal ix) f }

/-! ### The module summary (R333) -/

/-- The 4 KiB-bounded packets of a UREQ put (R194). -/
def putPackets (tile id : Nat) (u : Ureq) : Nat → Nat → List Packet
  | 0, _ => []
  | fuel + 1, off =>
    if u.len ≤ off then [] else
    let far := alignDown (u.remote.toNat % 2 ^ 46) 6 + off
    let n := min (u.len - off) (4096 - far % 4096)
    let g := u.remote
    { tile := tile, id := id, start := tile, module := g.extractLsb' 56 8, row := (g.extractLsb' 51 5).toNat
      col := (g.extractLsb' 46 5).toNat, offset := far, source := u.loff.toNat + off, len := n, escaped := none
      data := none, ack := none, away := false } :: putPackets tile id u fuel (off + n)

/-- Adaptive routing is enabled in a field's routers (R196). -/
def adaptive (f : Field) : Bool := f.routerCfg.getLsbD 0

/-- The escape channel from injection on, while adaptive_enable is 0 in the field of the router (R196). -/
def injected (f : Field) (router : Nat) : Option Nat := if adaptive f then none else some router

/-- A tile that carries a logical tile. -/
def carrying (t : Tile) : Bool := t.csr.logicalValid && decide (t.tstate ≠ .off)

/-- A tile's share of the module summary, which only a tile that carries a logical tile has (R333). -/
def sumTile (ix : Nat) (old new : Tile) (x : Eff) (s : Summary) : Summary :=
  if !carrying new then s else
  { s with
    bundles := s.bundles + b2n x.issued
    chunks := s.chunks + (new.inst.trussBusy - old.inst.trussBusy).toNat
    zones := upd 0 s.zones (fieldZone (tileField ix)) (· + (new.inst.trussBusy - old.inst.trussBusy).toNat)
    nans := s.nans + b2n x.nanRise
    ecc := s.ecc + x.ecc
    xlimited := s.xlimited + x.xlimited
    stalls := x.stalls.foldl (fun m c => upd 0 m c.1.toNat (· + c.2)) s.stalls }

/-- Everything an issue does beyond its tile: carried records, a put's packets, router counts and the summary. -/
def applyEff (e : Env) (ix : Nat) (old new : Tile) (x : Eff) (d : Data) : Data :=
  let f := tileField ix
  let packs :=
    match x.ureq with
    | none => []
    | some id =>
      match new.xfer.ureqs.find? (fun u => u.id = id) with
      | some u => if u.kind.toNat = 3 ∧ u.status = 0 then
          (putPackets ix id u 1025 0).map fun p => { p with escaped := injected (fieldOf d f) ix } else []
      | none => []
  let d1 := { d with
    mesh := { d.mesh with
      packets := d.mesh.packets ++ packs
      xrecs := d.mesh.xrecs ++ x.carried.map fun c => ⟨ix, d.beat.count, c.record, c.rank, c.index⟩ }
    sum := sumTile ix old new x d.sum }
  let fl := fieldOf d1 f
  let fl1 := if x.lateArms = 0 then fl else
    fieldInt (onRtr (fun r => { r with lateArms := satInc r.lateArms x.lateArms }) ix fl) fbitLateArm
  let fl2 := if x.xlimited = 0 then fl1 else
    onRtr (fun r => { r with xchgLimit := satInc r.xchgLimit x.xlimited }) ix fl1
  if x.lateArms = 0 ∧ x.xlimited = 0 then d1 else setField e f fl2 d1

/-- One tile takes a step of its own: the tile, its event line and everything beyond it. -/
def onTile (e : Env) (ix : Nat) (f : Ctx → Tile → Tile × Eff) (d : Data) : Data :=
  let old := tileOf d ix
  let (t, x) := f (ctxOf e d ix) old
  applyEff e ix old t x (setTile e ix t d)

/-- One tile changed, with nothing beyond its event line. -/
def editTile (e : Env) (ix : Nat) (f : Ctx → Tile → Tile) (d : Data) : Data :=
  setTile e ix (f (ctxOf e d ix) (tileOf d ix)) d

/-- One field changed, with its event line. -/
def editField (e : Env) (n : Nat) (f : Field → Field) (d : Data) : Data := setField e n (f (fieldOf d n)) d

/-- Every listed tile changed, lowest first, with its event line. -/
def editTiles (e : Env) (f : Nat → Ctx → Tile → Tile) (d : Data) : Data :=
  d.tiles.foldl (fun x p => editTile e p.1 (f p.1) x) d

/-! ### Field CSRs (R220, R65) -/

/-- arb_reqN's reset value (R207, R220). -/
def arbReqReset (q : Nat) : W64 :=
  if q < 20 then 0x0001000000000401#64
  else if q < 22 then 0x0001000000000801#64
  else if q = 22 then 0x0001000000000812#64
  else 0x0001000000000C10#64

/-- arb_reqN. -/
def arbReq (a : Arb) (q : Nat) : W64 := look (arbReqReset q) a.req q

/-- The stack_mode code. -/
def modeCode : StackMode → Nat
  | .full => 0 | .reduced => 1 | .failed => 2 | .untrained => 3

/-- The train_state code (R202). -/
def stkCode : StkState → Nat
  | .off => 0 | .cal => 1 | .level => 2 | .deskew => 3 | .test => 4 | .map => 5 | .ready => 6 | .fail => 7

/-- No unscheduled packet or exchange record is in flight anywhere in the module, its scarf engines included (R181). -/
def quiescent (d : Data) : Bool :=
  d.mesh.packets.all (·.away) && d.mesh.xrecs.isEmpty &&
    d.engines.all fun g => g.2.txQueue.all fun u => decide (u.header.extractLsb' 126 2 ≠ 2)

/-- A stack_map register: eight logical channels (R220). -/
def stackMapReg (f : Field) (n : Nat) : W64 :=
  BitVec.ofNat 64 (leNat ((List.range 8).map fun i => look 0 f.chanMap (8 * n + i)))

/-- A router's counts as their register. -/
def rtrReg (r : Rtr) : W64 := r.escapeMoves ++ r.lateArms ++ r.lateLands ++ r.xchgLimit

/-- A 64-bit read of a field CSR (R65, R220). -/
def fieldCsrRead (quiet : Bool) (n : Nat) (f : Field) (off : Nat) : W64 :=
  if off = 0x0000 then BitVec.ofNat 64 (f.module.toNat * 2 ^ 56 + b2n (isEdgeField n) * 2 ^ 13 + n)
  else if off = 0x0008 then
    BitVec.ofNat 64 (f.failed.length * 2 ^ 24 + modeCode f.mode * 2 ^ 18 + stkCode f.train * 2 ^ 8 + b2n quiet)
  else if off = 0x0010 then f.intStatus
  else if off = 0x0018 then f.intEnable
  else if off = 0x0028 then f.routerCfg
  else if off = 0x0030 then f.eccUncorr ++ f.eccCorr
  else if 0x0040 ≤ off ∧ off ≤ 0x0078 then stackMapReg f ((off - 0x0040) / 8)
  else if 0x0100 ≤ off ∧ off ≤ 0x0198 then rtrReg (look Rtr.zero f.rtr ((off - 0x0100) / 8))
  else if 0x0400 ≤ off ∧ off ≤ 0x04B8 then arbReq f.arb ((off - 0x0400) / 8)
  else if 0x0500 ≤ off ∧ off ≤ 0x05B8 then
    look 0 f.arb.grants ((off - 0x0500) / 8) ++ look 0 f.arb.discarded ((off - 0x0500) / 8)
  else if 0x0600 ≤ off ∧ off ≤ 0x06B8 then (look 0 f.arb.wait ((off - 0x0600) / 8)).setWidth 64
  else if off = 0x0700 then f.arb.starve
  else if off = 0x0708 then f.arb.present
  else 0

/-- A 64-bit write of a field CSR under its access code (R9, R65, R220). -/
def fieldCsrWrite (running : Bool) (f : Field) (off : Nat) (v : W64) : Field :=
  if off = 0x0010 then { f with intStatus := w1c f.intStatus v 0 }
  else if off = 0x0018 then { f with intEnable := v &&& fieldIntMask }
  else if off = 0x0020 then { f with intStatus := f.intStatus ||| (v &&& fieldIntMask) }
  else if off = 0x0028 then if running then f else { f with routerCfg := v &&& 0xFFFF0001#64 }
  else if 0x0400 ≤ off ∧ off ≤ 0x04B8 then
    let q := (off - 0x0400) / 8
    { f with arb := { f.arb with req := put (arbReqReset q) f.arb.req q (v &&& 0xFFFFFFFF00000F13#64) } }
  else if off = 0x0700 then { f with arb := { f.arb with starve := w1c f.arb.starve v 0 } }
  else f

/-! ### Paths and port counts (R187, R330) -/

/-- The tiles strictly after `a` on the way to `b` along one line, `fuel` of them at most; `step` moves one place nearer. -/
def walk (step : Nat → Nat) : Nat → Nat → Nat → List Nat
  | 0, _, _ => []
  | fuel + 1, a, b => if a = b then [] else step a :: walk step fuel (step a) b

/-- The routers after `a` on the dimension-order path to `b`: along the row first, then the column (R187). -/
def dimPath (a b : Nat) : List Nat :=
  let turnAt := tileAt (tileRow a) (tileCol b)
  walk (fun x => if tileCol x < tileCol b then x + 1 else x - 1) 40 a turnAt ++
    walk (fun x => if tileRow x < tileRow b then x + 40 else x - 40) 32 turnAt b

/-- The latency of one hop: 2 cycles in a field, 4 across a stitch (R183). -/
def hopCycles (a b : Nat) : Nat := if tileField a = tileField b then 2 else 4

/-- The sum of the hop latencies along a path from `a`. -/
def pathCycles : Nat → List Nat → Nat
  | _, [] => 0
  | a, b :: r => hopCycles a b + pathCycles b r

/-- The port pair of a hop: the direction out of `a` and the direction into `b` (R330). -/
def hopPorts (a b : Nat) : Nat × Nat :=
  if b = a + 1 then (2, 7) else if a = b + 1 then (6, 3) else if b = a + 40 then (4, 1) else (0, 5)

/-- `n` bytes crossing port `p` of a tile's router, of scheduled or unscheduled traffic (R330). -/
def countPort (p n : Nat) (sched : Bool) (t : Tile) : Tile :=
  match t.inst.window with
  | none => t
  | some w =>
    if t.tstate = .off ∨ (w.tclass = 1 ∧ !sched) ∨ (w.tclass = 2 ∧ sched) then t
    else { t with inst := { t.inst with window := some { w with counts := upd 0 w.counts p (· + BitVec.ofNat 64 n) } } }

/-- A tile's port count without its event line moving. -/
def portAt (d : Data) (ix p n : Nat) (sched : Bool) : Data :=
  { d with tiles := put Tile.off d.tiles ix (countPort p n sched (tileOf d ix)) }

/-- `n` bytes along a path from `a`. -/
def countPath (n : Nat) (sched : Bool) : Nat → List Nat → Data → Data
  | _, [], d => d
  | a, b :: r, d =>
    let p := hopPorts a b
    countPath n sched b r (portAt (portAt d a p.1 n sched) b p.2 n sched)

/-- The bytes counted for `n` bytes of data: whole 64 B units. -/
def units64 (n : Nat) : Nat := 64 * ceilDiv n 64

/-- A choice the data plane leaves open (R192), from the model's free values. -/
def freeBit (d : Data) (i : Nat) : Bool := (Config.freeValue d.free).getLsbD (i % 64)

end Sys2Proof.Machine
end

