-- ==== Sys2Proof/Machine/Router.lean ====
section
/-!
DEFINITION. What the routers and stack controllers decide: which flit an output serves (R185), the direction a packet's head
takes and when it moves to the escape channel (R195, R196), and where an offset of the stack window stands (R200).
-/

namespace Sys2Proof.Machine

/-! ### Outputs (R184, R185) -/

/-- The virtual channels in the order in which an output serves them (R184, R185). -/
inductive Channel where
  | scheduled | record | escape | adaptive
deriving DecidableEq, Repr

/-- The rank of a channel, lowest first. -/
def Channel.rank : Channel → Nat
  | .scheduled => 0 | .record => 1 | .escape => 2 | .adaptive => 3

/-- A flit ready for an output: its input port, its channel, and whether it belongs to a response. -/
structure Contender where
  port : Fin 13
  channel : Channel
  response : Bool
deriving DecidableEq, Repr

/-- The order of R185 but for the input ports: the channel's rank, and a response ahead of a request of the same rank. -/
def Contender.rank (c : Contender) : Nat := 2 * c.channel.rank + b2n (!c.response)

/-- How far an input port stands behind the port served last, going round. -/
def turnsAfter (last port : Nat) : Nat := (port + 12 - last % 13) % 13

/-- `a` is served ahead of `b` when the output served input port `last` before (R185). -/
def outranks (last : Nat) (a b : Contender) : Bool :=
  decide (a.rank < b.rank) || (a.rank == b.rank && decide (turnsAfter last a.port < turnsAfter last b.port))

/-- The output serves `c` although `others` are ready too. -/
def winsOver (last : Nat) (c : Contender) (others : List Contender) : Bool := others.all fun o => !outranks last o c

/-- The input port by which a path that starts at `a` enters its last router: its link port, or the local port when it never
leaves `a`. -/
def inPort : Nat → List Nat → Fin 13
  | _, [] => 12
  | a, [b] => Fin.ofNat 13 (hopPorts a b).2
  | _, b :: c :: r => inPort b (c :: r)

/-- Flits of a path from `a` that ends at router `t` are served by its output while `others` are ready: none when another
goes first, else the mesh with the port remembered (R185). -/
def served (d : Data) (a : Nat) (path : List Nat) (t : Nat) (ch : Channel) (response : Bool) (others : List Contender) :
    Option Data :=
  let c : Contender := ⟨inPort a path, ch, response⟩
  if winsOver (look 0 d.mesh.served t) c others then
    some { d with mesh := { d.mesh with served := put 0 d.mesh.served t c.port } }
  else none

/-! ### Unscheduled routes (R184, R195, R196) -/

/-- Flits a virtual channel buffers for requests, and again for responses (R184). -/
def channelDepth : Nat := 8

/-- One hop of a head in the adaptive channel: where it went, and the free credits of the two directions when it left. -/
structure Hop where
  next : Nat
  rowFree : Nat
  colFree : Nat
deriving DecidableEq, Repr

/-- The router next to `a` along the row, and along the column, on the way to `b`. -/
def alongRow (a b : Nat) : Nat := if tileCol a < tileCol b then a + 1 else a - 1
def alongCol (a b : Nat) : Nat := if tileRow a < tileRow b then a + 40 else a - 40

/-- The direction a head takes (R195): one that brings it closer; of two, the one with more free credits, and on a tie the
one along the row. -/
def adaptiveHop (a b rowFree colFree : Nat) : Nat :=
  if tileCol a = tileCol b then alongCol a b
  else if tileRow a = tileRow b then alongRow a b
  else if rowFree < colFree then alongCol a b else alongRow a b

/-- The credits a hop spends lie in the buffer of the direction it took. -/
def hopFree (a : Nat) (h : Hop) : Nat := if tileRow a = tileRow h.next then h.rowFree else h.colFree

/-- A route of the adaptive channel from `a` toward `b` that ends at `stop`. -/
def adaptiveRoute (b stop : Nat) : Nat → List Hop → Bool
  | a, [] => a == stop
  | a, h :: r =>
    a != b && h.next == adaptiveHop a b h.rowFree h.colFree && decide (1 ≤ hopFree a h) &&
      decide (hopFree a h ≤ channelDepth) && adaptiveRoute b stop h.next r

/-- The path of a packet that entered at `a` for router `b`: adaptive all the way, or adaptive up to the router at which it
moved to the escape channel and in dimension order from there (R187, R195, R196); none when `hops` are no such route. -/
def packetPath (a b : Nat) (escaped : Option Nat) (hops : List Hop) : Option (List Nat) :=
  match escaped with
  | none => if adaptiveRoute b b a hops then some (hops.map Hop.next) else none
  | some r => if adaptiveRoute b r a hops then some (hops.map Hop.next ++ dimPath r b) else none

/-- Cycles a head waits before it moves to the escape channel: escape_threshold, and 256 below that (R196, R220). -/
def escapeAfter (f : Field) : Nat := max 256 (f.routerCfg.extractLsb' 16 16).toNat

/-! ### The stack window (R200, R201) -/

/-- A place in a stack: logical channel, block within the channel, and byte within the block (R200). -/
structure StackPlace where
  channel : Nat
  block : Nat
  byte : Nat
deriving DecidableEq, Repr

/-- The place that a stack window offset selects in a mode (R200); a stack without capacity has none. -/
def stackPlace (m : StackMode) (x : Nat) : Option StackPlace :=
  match m with
  | .full => some ⟨x / 256 % 64, x / 2 ^ 14 % 2 ^ 21, x % 256⟩
  | .reduced => some ⟨x / 256 % 32, x / 2 ^ 13 % 2 ^ 21, x % 256⟩
  | _ => none

/-- The physical channel that carries an offset, by the field's channel map (R201, R220). -/
def physChannel (f : Field) (x : Nat) : Nat :=
  match stackPlace f.mode x with
  | some p => (look 0 f.chanMap p.channel).toNat % 128
  | none => 0

end Sys2Proof.Machine
end

