-- ==== Sys2Proof/Machine/Mesh.lean ====
section
/-!
DEFINITION. The mesh, the field stacks and the stack arbiter (chapter 06), with the tile-level events that the data plane
delivers: scrubber, instruction memory writes, resets, instruments.
-/

namespace Sys2Proof.Machine

/-! ### Modules and engines by place (R223, R240, R244) -/

/-- The physical module that carries a logical module (R180); identity where the map lists nothing. -/
def physModule (d : Data) (m : Nat) : Nat := look m d.mesh.moduleMap m

/-- The logical module this module carries. -/
def logicalModule (d : Data) : Nat :=
  ((List.range 256).find? fun m => physModule d m = (ownModule d).toNat).getD (ownModule d).toNat

/-- System sizes (a, b); 1 × 1 without a description. -/
def sysSize (d : Data) : Nat × Nat := match d.desc with | some s => (s.sizeX + 1, s.sizeY + 1) | none => (1, 1)

/-- A physical module number names a member (R240). -/
def isMember (d : Data) (m : Nat) : Bool :=
  decide (m % 16 < (sysSize d).1) && decide (m / 16 < (sysSize d).2)

/-- The members of the system. -/
def members (d : Data) : List Nat := (List.range 256).filter (isMember d)

/-- The side an engine index stands on. -/
def engineSide (i : Nat) : Side :=
  if i < 12 then .north else if i < 24 then .east else if i < 36 then .south else .west

/-- The side's number: 0 north, 1 east, 2 south, 3 west. -/
def sideNo : Side → Nat
  | .north => 0 | .east => 1 | .south => 2 | .west => 3

/-- An engine's band (R223). -/
def engineBand (i : Nat) : Nat :=
  match engineSide i with
  | .north => i
  | .east => i - 12
  | .south => 35 - i
  | .west => 47 - i

/-- The engine of a side at a band. -/
def engineAt (s : Side) (k : Nat) : Nat :=
  match s with
  | .north => k
  | .east => 12 + k
  | .south => 35 - k
  | .west => 47 - k

/-- An engine's attachment router (R223). -/
def attachTile (i : Nat) : Nat :=
  let k := engineBand i
  match engineSide i with
  | .north => tileAt 0 (10 * k / 3 + 1)
  | .east => tileAt (8 * k / 3 + 1) 39
  | .south => tileAt 31 (10 * k / 3 + 1)
  | .west => tileAt (8 * k / 3 + 1) 0

/-- A tile's band toward a side: by its row for east and west, by its column for north and south (R223). -/
def tileBand (s : Side) (t : Nat) : Nat :=
  match s with
  | .east => 3 * tileRow t / 8
  | .west => 3 * tileRow t / 8
  | _ => 3 * tileCol t / 10

/-- The neighbour of module `m` on a side, modulo the system's size (R223). -/
def neighbour (d : Data) (s : Side) (m : Nat) : Nat :=
  let (a, b) := sysSize d
  let x := m % 16
  let y := m / 16
  match s with
  | .north => (y + b - 1) % b * 16 + x
  | .south => (y + 1) % b * 16 + x
  | .east => y * 16 + (x + 1) % a
  | .west => y * 16 + (x + a - 1) % a

/-- A side that faces along a dimension of size 1 is uncabled (R240). -/
def uncabled (d : Data) (s : Side) : Bool :=
  match s with
  | .east => (sysSize d).1 == 1
  | .west => (sysSize d).1 == 1
  | _ => (sysSize d).2 == 1

/-- The side a scheduled send from one physical module to a neighbouring one takes, east and south first (R244, R248). -/
def sideFrom (d : Data) (own m : Nat) : Option Side :=
  [Side.east, Side.south, Side.west, Side.north].find? fun s => !uncabled d s && neighbour d s own == m

/-- The side that a send from this module takes. -/
def sideToward (d : Data) (m : Nat) : Option Side := sideFrom d (ownModule d).toNat m

/-- The side an unscheduled packet takes next: x first, the shorter way round, east or south on a tie (R248). -/
def routeSide (d : Data) (m : Nat) : Option Side :=
  let (a, b) := sysSize d
  let own := (ownModule d).toNat
  let dx := (m % 16 + a - own % 16) % a
  let dy := (m / 16 + b - own / 16) % b
  if dx ≠ 0 then some (if 2 * dx ≤ a then .east else .west)
  else if dy ≠ 0 then some (if 2 * dy ≤ b then .south else .north)
  else none

/-- The engine nearest a band on a side that is in SCF_UP, the lower index on a tie (R248). -/
def nearestUp (d : Data) (s : Side) (k : Nat) : Option Nat :=
  let ok (j : Nat) : Bool := decide ((engineOf d (engineAt s j)).state = .up)
  let cands := (List.range 12).filter ok
  let dist (j : Nat) : Nat := if j ≤ k then k - j else j - k
  cands.foldl (fun best j =>
    match best with
    | none => some (engineAt s j)
    | some b =>
      let jb := engineBand b
      if dist j < dist jb ∨ (dist j = dist jb ∧ engineAt s j < b) then some (engineAt s j) else some b) none

/-- The physical tile of a logical tile (R180). -/
def physTile (d : Data) (r c : Nat) : Option Nat := look none d.mesh.tileMap (32 * r + c)

/-- A flit header (R227). -/
def flitHeader (kind : Nat) (resp last : Bool) (cls dest row col off ab land ybnd src : Nat) : BitVec 128 :=
  BitVec.ofNat 128
    (kind * 2 ^ 126 + b2n resp * 2 ^ 125 + b2n last * 2 ^ 124 + cls * 2 ^ 121 + dest * 2 ^ 113 + row * 2 ^ 108 + col * 2 ^ 103 +
      off * 2 ^ 57 + ab * 2 ^ 49 + land * 2 ^ 38 + ybnd * 2 ^ 34 + src * 2 ^ 26)

/-- A flit queued at an engine for its next cells. -/
def queueFlit (i : Nat) (f : TxFlit) (d : Data) : Data :=
  { d with engines := upd Engine.off d.engines i (fun g => { g with txQueue := g.txQueue ++ [f] }) }

/-! ### Events inside a tile -/

/-- The beat generator hears of nothing here: a report stands in the tile until the boundary (R60). -/
def noEff (t : Tile) : Tile × Eff := (t, Eff.none)

/-- A scrubber read of one store line (R41, R44); a line whose check bits decode as uncorrectable faults whatever else is
found, with fault_pc the last issued address (DESIGN CHOICE, log 83). -/
def scrubRead (line : Nat) (found : ScrubFound) (cx : Ctx) (t : Tile) : Tile × Eff :=
  if !t.csr.ctrl.getLsbD 7 then noEff t
  else if poisonedIn t (64 * line) 64 ∨ found = .uncorrectable then
    noEff (faultTile cx t.seq.cycle 2 t.seq.lastPc.toNat t)
  else
    match found with
    | .corrected o =>
      (setInt (bump 0x042 1 { t with csr := { t.csr with
        storeCorrected := satInc t.csr.storeCorrected 1, storeLast := o } }) bitStoreCorr, { Eff.none with ecc := 1 })
    | _ => noEff t

/-- The instruction memory accepts writes (R38). -/
def imemOpen (t : Tile) : Bool := t.tstate == .reset || t.tstate == .idle

/-- A write to instruction memory: accepted in RESET or IDLE, else discarded with imem_write_blocked (R38). -/
def imemWrite (at_ : Nat) (w : Bundle) (t : Tile) : Tile :=
  if imemOpen t then { t with imem := put 0 t.imem at_ w }
  else setInt t bitImemBlocked

/-- The sample record of the bundle in progress is written (R327–R329). `measured` is the latency as measured of a bundle with
an operation that its schedule completes; the fixed latencies are its floor, and every other bundle's latency. -/
def sampleWrite (measured : Nat) (t : Tile) : Tile :=
  match t.inst.inProgress with
  | none => t
  | some r =>
    let i := t.inst
    if i.sampCtrl.getLsbD 2 ∧ i.sampValid = 64 then
      { t with inst := { i with inProgress := none, sampMissed := satInc i.sampMissed 1 } }
    else
      let v : BitVec 256 := BitVec.ofNat 256
        (r.beatLo.toNat * 2 ^ 224 + i.sampSeq.toNat * 2 ^ 192 + r.pc.toNat * 2 ^ 178 + r.ops.toNat * 2 ^ 152 +
          r.suppressed.toNat * 2 ^ 148 + r.cause.toNat * 2 ^ 144 + r.stallCycles * 2 ^ 128 + r.issueCycle * 2 ^ 112 +
          min (if r.timed then max r.fixedLatency measured else r.fixedLatency) 0xFFFF * 2 ^ 96 + r.trigger.toNat * 2 ^ 86)
      let valid := min (i.sampValid + 1) 64
      let t1 := { t with inst := { i with
        inProgress := none, buffer := put 0 i.buffer i.sampPtr v, sampPtr := (i.sampPtr + 1) % 64
        sampSeq := i.sampSeq + 1, sampValid := valid } }
      setIntIf (decide (i.sampValid < 64) && decide (valid = 64)) t1 bitSampleFull

/-- The counts of a window that has closed go to bank w mod 2 (R331). -/
def bwClose (t : Tile) : Tile :=
  match t.inst.closing with
  | none => t
  | some (counts, tick) =>
    let i := t.inst
    let b := i.snapSeq.toNat % 2
    let banks := repeatN (fun p m => put 0 m (12 * b + p) (look 0 counts p)) 12 i.banks
    setInt { t with inst := { i with
      banks := banks, snapSeq := i.snapSeq + 1, snapTick := tick, closing := none } } bitBwSnapshot

/-- A window that opens under bw_ctrl as it stands (R331). -/
def newWindow (c : W64) : BwWindow := ⟨(c.extractLsb' 0 16).toNat + 1, c.extractLsb' 18 2, 0, []⟩

/-- The boundary after which the tick count is `tick`: a window that has counted its L boundaries closes and the next opens, or
the first window opens (R331). Counts of an earlier window that are not yet in their bank go there first. -/
def windowBoundary (tick : W64) (t : Tile) : Tile :=
  if t.tstate = .off then t else
  match t.inst.window with
  | some w =>
    if w.closed + 1 < w.len then { t with inst := { t.inst with window := some { w with closed := w.closed + 1 } } }
    else
      let t1 := bwClose t
      { t1 with inst := { t1.inst with closing := some (w.counts, tick.setWidth 32), window := some (newWindow t1.inst.bwCtrl) } }
  | none =>
    if t.inst.openNext then { t with inst := { t.inst with openNext := false, window := some (newWindow t.inst.bwCtrl) } } else t

/-! ### Scheduled transfers (R186–R192) -/

/-- The cycle counted over ticks, for the 64-cycle gap of R192. -/
def absCycle (d : Data) (cyc : Nat) : Nat := d.beat.tick.toNat * 2000 + cyc

/-- 64 B of a field's stack as a scheduled read with its slot now sees it: the old or the new data, at the model's free
choice, where a scheduled write is less than 64 cycles old (R192). -/
def stackLine (d : Data) (f : Field) (now i line : Nat) : List Byte :=
  match f.recent.find? fun r => r.line = line && decide (now < r.at_ + 64) with
  | some r => if freeBit d i then r.old else readBytes f.mem (64 * line) 64
  | none => readBytes f.mem (64 * line) 64

/-- `n` lines of a scheduled stack read. -/
def stackLines (d : Data) (f : Field) (now : Nat) : Nat → Nat → List Byte
  | _, 0 => []
  | line, n + 1 => stackLine d f now n line ++ stackLines d f now (line + 1) n

/-- A scheduled stack write of bytes at an offset in cycle `now`, remembering each 64 B line it replaces until 64 cycles
after `last`, the cycle of the write's last flit. -/
def stackWriteSched (now last off : Nat) (bs : List Byte) (f : Field) : Field :=
  let lines := (List.range (ceilDiv bs.length 64)).map fun i => off / 64 + i
  let keep := f.recent.filter fun r => decide (now < r.at_ + 64) && !lines.contains r.line
  { f with
    recent := keep ++ lines.map fun l => ⟨l, last, readBytes f.mem (64 * l) 64⟩
    mem := writeBytes f.mem off bs }

/-- Bytes through a field's stack in 64 B units (R333). -/
def countStack (f n : Nat) (d : Data) : Data :=
  { d with sum := { d.sum with stack := upd 0 d.sum.stack f (fun v => min (v + ceilDiv n 64) (2 ^ 32 - 1)) } }

/-- The arm of a tag, if it is armed in this beat. -/
def armOf (t : Tile) (tag : Nat) : Option Arm := look none t.xfer.armed tag

/-- The tile with a tag's arm replaced. -/
def setArm (tag : Nat) (a : Option Arm) (t : Tile) : Tile :=
  { t with xfer := { t.xfer with armed := put none t.xfer.armed tag a } }

/-- Flit `k` of a mesh send leaves: to its destination in this module, to the facing scarf engine, or nowhere (R182,
R187, R188, R244, R245). -/
def sendFlit (e : Env) (src : Nat) (ent : BitVec 128) (k : Nat) (bs : List Byte) (d : Data) : Data :=
  let m := physModule d (bits 91 84 ent.toNat)
  let r := bits 83 79 ent.toNat
  let c := bits 78 74 ent.toNat
  let off := bits 73 56 ent.toNat * 64 + 512 * k
  if m = (ownModule d).toNat then
    match physTile d r c with
    | none => editField e (tileField src) (fieldInt · fbitDestUnmapped) d
    | some t =>
      let d1 := countPath (units64 bs.length) true src (dimPath src t) d
      { d1 with mesh := { d1.mesh with flits := d1.mesh.flits ++ [⟨d.beat.count, schedLand ent, k, src, t, off, bs⟩] } }
  else
    match sideToward d m with
    | none => editField e (tileField src) (fieldInt · fbitDestUnmapped) d
    | some s =>
      let i := engineAt s (tileBand s src)
      let at_ := attachTile i
      let n := units64 bs.length
      let ab := (d.beat.count.toNat + (match d.desc with | some x => x.scarfDelay | none => 0)) % 256
      let h := flitHeader 1 false (decide (schedUnits ent ≤ 8 * (k + 1))) 0 m r c off ab (schedLand ent)
        (tileBand .north src) (ownModule d).toNat
      let d1 := portAt (countPath n true src (dimPath src at_) d) at_ 10 n true
      let d2 := { d1 with sum := { d1.sum with scarf := upd 0 d1.sum.scarf (2 * sideNo s) (· + n) } }
      queueFlit i ⟨h, bs, none, k, none⟩ d2

/-- The stack controller grants no burst in cycles 1,920 to 1,999 of a tick (R203). -/
def refreshing (cyc : Nat) : Bool := decide (1920 ≤ cyc) && decide (cyc ≤ 1999)

/-- Cycle slot + k of an armed tag, flit `k` of it (R119, R188, R192). An unarmed tag moves nothing (R120), and a stack burst
moves nothing while the stack refreshes (R203). -/
def scheduledSlot (e : Env) (ix tag cyc : Nat) (d : Data) : Data :=
  let t := tileOf d ix
  match armOf t tag with
  | none => d
  | some a =>
    let ent := look 0 t.xfer.sched tag
    let k := a.moved
    let total := 64 * schedUnits ent
    let n := min 512 (total - 512 * k)
    let from_ := (alignDown a.store.toNat 6 + 512 * k) % 2 ^ 24
    if cyc ≠ schedSlot ent + k ∨ (schedKind ent ≠ 1 ∧ refreshing cyc) then d else
    let f := tileField ix
    let off := a.stack.getD (schedStack ent)
    let arm' := if total ≤ 512 * (k + 1) then none else some { a with moved := k + 1 }
    if schedKind ent = 3 then
      let data := stackLines d (fieldOf d f) (absCycle d cyc) (off / 64) (schedUnits ent)
      let d1 := editTile e ix (fun _ t => setArm tag none t) d
      { d1 with
        free := d1.free + 1
        mesh := { d1.mesh with
          returns := d1.mesh.returns ++ [⟨ix, tag, alignDown a.store.toNat 6, off, data, schedLand ent, 0⟩] } }
    else if poisonedIn t from_ n then
      editTile e ix (fun cx t => faultTile cx cyc 2 t.seq.lastPc.toNat (setArm tag none t)) d
    else
      let bs := readBytes t.store from_ n
      let d1 := editTile e ix (fun _ t => bump 0x055 1 (setArm tag arm' t)) d
      if schedKind ent = 1 then sendFlit e ix ent k bs d1
      else if schedKind ent = 2 then
        let d2 := portAt (countStack f n d1) ix 8 (units64 n) true
        editField e f (stackWriteSched (absCycle d cyc) (absCycle d (schedSlot ent + ceilDiv total 512 - 1)) (off + 512 * k)
          bs) d2
      else d1

/-- A scheduled flit written into its destination store; a tile without power keeps nothing (R188). -/
def writeFlit (e : Env) (f : Flit) (d : Data) : Data :=
  if (tileOf d f.tile).tstate = .off then d
  else editTile e f.tile (fun _ t => bump 0x056 1 (writeStore t (f.offset % 2 ^ 24) f.data)) d

/-- The list without entry `n`. -/
def removeAt {α : Type} (l : List α) (n : Nat) : List α := l.take n ++ l.drop (n + 1)

/-- The `n`-th flit in flight leaves the landing buffer and is written, served by its router's local eject (R185). -/
def flitWritten (e : Env) (n : Nat) (f : Flit) (others : List Contender) (d : Data) : Option Data :=
  (served d f.source (dimPath f.source f.tile) f.tile .scheduled false others).map fun d1 =>
    writeFlit e f { d1 with mesh := { d1.mesh with flits := removeAt d.mesh.flits n } }

/-- The `n`-th landing flit is written in cycle land + k of its beat (R188). -/
def flitLand (e : Env) (n cyc : Nat) (others : List Contender) (d : Data) : Data :=
  match d.mesh.flits[n]? with
  | none => d
  | some f => if cyc = f.land + f.k ∧ d.beat.count = f.beat then (flitWritten e n f others d).getD d else d

/-- The `n`-th flit reaches its router in cycle `cyc`, after land + k − 1: written on arrival and counted (R190). -/
def flitLate (e : Env) (n cyc : Nat) (others : List Contender) (d : Data) : Data :=
  match d.mesh.flits[n]? with
  | none => d
  | some f =>
    if cyc < f.land + f.k ∧ d.beat.count = f.beat then d else
    match flitWritten e n f others d with
    | none => d
    | some d1 =>
    let d2 := { d1 with sum := { d1.sum with lateLands := d1.sum.lateLands + 1 } }
    editField e (tileField f.tile) (fun x =>
      fieldInt (onRtr (fun r => { r with lateLands := satInc r.lateLands 1 }) f.tile x) fbitLateLand) d2

/-- What a stack read finds in each of its 64 B lines: corrected words, or an uncorrectable word (R204, R206). -/
structure StackFound where
  corrected : Nat
  /-- bit i: line i of the access holds an uncorrectable word -/
  badLines : Nat
deriving DecidableEq, Repr

/-- A physical channel delivered an uncorrectable read; its sixteenth in a run marks it for retraining (R205). -/
def countChannel (ch : Nat) (f : Field) : Field :=
  let n := look 0 f.chanUncorr ch + 1
  { f with
    chanUncorr := put 0 f.chanUncorr ch n
    retrain := if 16 ≤ n then put false f.retrain ch true else f.retrain }

/-- The physical channels that the bad lines of a read at stack offset `x` came from (R200, R201). -/
def badChannels (f : Field) (bad x : Nat) : List Nat :=
  (((List.range (bad.log2 + 1)).filter fun i => bitOf bad i).map fun i => physChannel f (x + 64 * i)).eraseDups

/-- The corrections and uncorrectable lines of a read at stack offset `x` counted in its field (R204–R206). -/
def countStackRead (found : StackFound) (x : Nat) (f : Field) : Field :=
  let f1 := if found.corrected = 0 then f
    else fieldInt { f with eccCorr := satInc f.eccCorr found.corrected } fbitStackCorr
  if found.badLines = 0 then f1
  else
    fieldInt ((badChannels f1 found.badLines x).foldl (fun g ch => countChannel ch g)
      { f1 with eccUncorr := satInc f1.eccUncorr 1 }) fbitStackUncorr

/-- Lines of a store access poisoned where `bad` marks them (R206). -/
def poisonLines (a bad n : Nat) (t : Tile) : Tile :=
  repeatN (fun i u => if bitOf bad i then poisonLine u (a + 64 * i) else u) n t

/-- The next 128 B unit of the `n`-th returning stack read is written into the store in cycle land + u (R192, R206). -/
def stackReturn (e : Env) (n cyc : Nat) (found : StackFound) (d : Data) : Data :=
  match d.mesh.returns[n]? with
  | none => d
  | some r =>
    if cyc ≠ r.land + r.done then d else
    let bs := (r.data.drop (128 * r.done)).take 128
    let at_ := (r.store + 128 * r.done) % 2 ^ 24
    let r' := { r with done := r.done + 1 }
    let rest := removeAt d.mesh.returns n
    let rets := if r.data.length ≤ 128 * r'.done then rest else rest.take n ++ [r'] ++ rest.drop n
    let f := tileField r.tile
    let d1 := { d with mesh := { d.mesh with returns := rets } }
    let d2 := editField e f (countStackRead found (r.stack + 128 * r.done)) d1
    let d3 := { d2 with sum := { d2.sum with ecc := d2.sum.ecc + found.corrected } }
    let d4 := portAt (countStack f bs.length d3) r.tile 9 (units64 bs.length) true
    if (tileOf d4 r.tile).tstate = .off then d4
    else editTile e r.tile (fun _ t => poisonLines at_ found.badLines 2 (writeStore t at_ bs)) d4

/-! ### Unscheduled packets and exchange records (R194–R198, R217, R218) -/

/-- The tile's transfer `id` changed. -/
def onUreq (id : Nat) (f : Ureq → Ureq) (t : Tile) : Tile :=
  { t with xfer := { t.xfer with ureqs := t.xfer.ureqs.map fun u => if u.id = id then f u else u } }

/-- A packet's end told to its transfer: bytes finished, or the first failing status (R198). -/
def packetDone (e : Env) (p : Packet) (status : BitVec 16) (d : Data) : Data :=
  editTile e p.tile (fun _ t => onUreq p.id (fun u =>
    { u with moved := u.moved + p.len, status := if u.status = 0 then status else u.status }) t) d

/-- What a far module answers to the packets of a put (R198). -/
inductive FarAnswer where
  | accepted | unmapped | refused | unreachable
deriving DecidableEq, Repr

/-- The completion status of an answer. -/
def FarAnswer.status : FarAnswer → BitVec 16
  | .accepted => 0 | .unmapped => 2 | .refused => 3 | .unreachable => 5

/-- A request's acknowledgement sets out for its transfer's engine from router `t`, as a response (R194). A packet that came
over a scarf link is answered by its own module (log 27). -/
def acknowledge (p : Packet) (t : Nat) (status : BitVec 16) (d : Data) : Data :=
  if p.data.isSome then d
  else
    let a := { p with
      start := t
      ack := some status
      escaped := injected (fieldOf d (tileField t)) t }
    { d with mesh := { d.mesh with packets := d.mesh.packets ++ [a] } }

/-- The dateline class of a packet's hop over side `s` (R249): its x hops before or after the x dateline, its y hops before or
after the y dateline. The link across a dateline already leads to a buffer past it (DEDUCED, log 27). -/
def hopClass (d : Data) (s : Side) (cls : Nat) : Nat :=
  let own := (ownModule d).toNat
  let (a, b) := sysSize d
  match s with
  | .east => if own % 16 = a - 1 then 2 else max cls 1
  | .west => if own % 16 = 0 then 2 else max cls 1
  | .south => if own / 16 = b - 1 then 5 else max cls 4
  | .north => if own / 16 = 0 then 5 else max cls 4

/-- The band by which unscheduled traffic of a tile leaves its module: its row's for an x hop, ybnd for a y hop (R248). -/
def exitBand (s : Side) (t : Nat) : Nat :=
  match s with
  | .east => tileBand .east t
  | .west => tileBand .east t
  | _ => tileBand .north t

/-- The engine by which unscheduled traffic of tile `t` leaves for physical module `m` (R248, R250). -/
def exitEngine (d : Data) (t m : Nat) : Option (Side × Nat) :=
  (if isMember d m then routeSide d m else none).bind fun s => (nearestUp d s (exitBand s t)).map fun i => (s, i)

/-- The flits of an unscheduled packet as they leave the module over side `s`. -/
def packetFlits (d : Data) (s : Side) (m : Nat) (p : Packet) (bs : List Byte) : List TxFlit :=
  (List.range (ceilDiv bs.length 512)).map fun k =>
    { header := flitHeader 2 false (decide (bs.length ≤ 512 * (k + 1))) (hopClass d s 0) m p.row p.col
        (p.offset + 512 * k) 0 0 (tileBand .north p.tile) (ownModule d).toNat
      data := (bs.drop (512 * k)).take 512, xrec := none, k := k, entry := none }

/-- The packet's destination tile's data written, and the packet acknowledged: its tile unmapped (R182), its domain off or in
reset, or the bytes in its store (R198). -/
def packetWrite (e : Env) (p : Packet) (t : Nat) (bs : List Byte) (d : Data) : Data :=
  if (tileOf d t).tstate = .off ∨ (tileOf d t).tstate = .reset then acknowledge p t 3 d
  else
    acknowledge p t 0 (editTile e t (fun _ u => bump 0x056 (ceilDiv bs.length 512) (writeStore u (p.offset % 2 ^ 24) bs)) d)

/-- A packet of a put reaches the output it leaves by (R182, R194, R198, R248–R250): its destination's local eject, or the
router of an exit engine. A packet of a transfer that a packet ahead of it failed is discarded; one whose source decodes as
uncorrectable is not sent, and its tile faults (R41). -/
def requestArrive (e : Env) (n : Nat) (p : Packet) (hops : List Hop) (others : List Contender) (d : Data) : Data :=
  let d0 := { d with mesh := { d.mesh with packets := removeAt d.mesh.packets n } }
  let u := (tileOf d p.tile).xfer.ureqs.find? fun u => u.id = p.id
  let m := if p.data.isSome then (ownModule d).toNat else physModule d p.module.toNat
  let ch : Channel := if p.escaped.isSome then .escape else .adaptive
  let bs := match p.data with | some x => x | none => readBytes (tileOf d p.tile).store (p.source % 2 ^ 24) p.len
  if p.data.isNone && (match u with | some u => u.status ≠ 0 | none => false) then packetDone e p 0 d0
  else if p.data.isNone ∧ poisonedIn (tileOf d p.tile) (p.source % 2 ^ 24) p.len then
    editTile e p.tile (fun cx t => faultTile cx t.seq.cycle 2 t.seq.lastPc.toNat t) d0
  else if m ≠ (ownModule d).toNat then
    match exitEngine d p.tile m with
    | none => packetDone e p 5 d0
    | some (s, i) =>
      let at_ := attachTile i
      match served d0 p.tile (dimPath p.tile at_) at_ ch false others with
      | none => d
      | some d1 =>
        let nb := units64 bs.length
        let d2 := portAt (countPath nb false p.tile (dimPath p.tile at_) d1) at_ 10 nb false
        let d3 := { d2 with
          sum := { d2.sum with scarf := upd 0 d2.sum.scarf (2 * sideNo s) (· + nb) }
          mesh := { d2.mesh with packets := d2.mesh.packets ++ [{ p with away := true }] } }
        (packetFlits d s m p bs).foldl (fun x f => queueFlit i f x) d3
  else
    match physTile d p.row p.col with
    | none => acknowledge p p.start 2 (editField e (tileField p.start) (fieldInt · fbitDestUnmapped) d0)
    | some t =>
      match packetPath p.start t p.escaped hops with
      | none => d
      | some path =>
        match served d0 p.start path t ch false others with
        | none => d
        | some d1 => packetWrite e p t bs (countPath (units64 bs.length) false p.start path d1)

/-- The `n`-th packet reaches its end: a request, or a response at its transfer's engine (R194, R195, R198). `hops` are those
its head took in the adaptive channel, `others` what else is ready at the output it reaches (R185), and `far` the answer of
the module that a packet left for. -/
def packetArrive (e : Env) (n : Nat) (hops : List Hop) (others : List Contender) (far : FarAnswer) (d : Data) : Data :=
  match d.mesh.packets[n]? with
  | none => d
  | some p =>
    let d0 := { d with mesh := { d.mesh with packets := removeAt d.mesh.packets n } }
    if p.away then packetDone e p far.status d0
    else match p.ack with
      | none => requestArrive e n p hops others d
      | some status =>
        match packetPath p.start p.tile p.escaped hops with
        | none => d
        | some path =>
          match served d0 p.start path p.tile (if p.escaped.isSome then .escape else .adaptive) true others with
          | none => d
          | some d1 => packetDone e p status d1

/-- The head of the `n`-th packet has been ready for `waited` cycles at a router without an adaptive output that accepts it;
past the threshold of the router's field it moves to the escape channel there (R196, R197). -/
def escapeMove (e : Env) (n router waited : Nat) (d : Data) : Data :=
  match d.mesh.packets[n]? with
  | none => d
  | some p =>
    if p.escaped.isSome ∨ p.away ∨ waited ≤ escapeAfter (fieldOf d (tileField router)) then d else
    let d1 := { d with
      mesh := { d.mesh with packets := modifyAt (fun p => { p with escaped := some router }) d.mesh.packets n }
      sum := { d.sum with escapes := d.sum.escapes + 1 } }
    let d2 := editField e (tileField router)
      (onRtr (fun r => { r with escapeMoves := satInc r.escapeMoves 1 }) router) d1
    if p.data.isSome then d2
    else editTile e p.tile (fun _ t => onUreq p.id (fun u => { u with escaped := true }) t) d2

/-- Transfer `id` of a tile finishes: its completion word is written through the service port (R123, R197, R198). -/
def ureqComplete (e : Env) (ix id : Nat) (d : Data) : Data :=
  match (tileOf d ix).xfer.ureqs.find? (fun u => u.id = id) with
  | none => d
  | some u =>
    let inFlight := d.mesh.packets.any fun p => p.data.isNone && p.tile == ix && p.id == id
    if (u.moved < u.len ∧ u.status ≠ 1) ∨ inFlight then d else
    editTile e ix (fun _ t =>
      let word := u.status.toNat + 2 ^ 32 * u.cvalue.toNat
      let t1 := writeStore t u.coff.toNat (natLe 8 word)
      let t2 := { t1 with xfer := { t1.xfer with ureqs := t1.xfer.ureqs.filter fun v => v.id ≠ id } }
      setIntIf u.escaped (bump 0x051 1 t2) bitEscape) d

/-- A carried record lands in its slot with its arrival map bit and count (R217, R218). `b` is its beat. -/
def placeRecord (x : XFlight) (b : W64) (t : Tile) : Tile :=
  let c := xclassOf t x.record.cls.toNat
  let p := b.toNat % 2
  let slotAt := c.base + p * c.senders * c.cap * c.slot + (x.rank * c.cap + x.index) * c.slot
  let bit := x.rank * c.cap + x.index
  let mapAt := c.map + p * (ceilDiv (c.senders * c.cap) 512 * 64) + bit / 8
  let cntAt := c.map - 8 + 4 * p
  let t1 := writeStore t (slotAt % 2 ^ 24) x.record.data
  let old := readByte t1.store (mapAt % 2 ^ 24)
  let t2 := writeStore t1 (mapAt % 2 ^ 24) [old ||| BitVec.ofNat 8 (2 ^ (bit % 8))]
  bump 0x063 1 (writeStore t2 (cntAt % 2 ^ 24) (natLe 4 ((readW32 t2.store (cntAt % 2 ^ 24)).toNat + 1)))

/-- A record leaves for physical module `m` by the engine of its router's band (R248–R250). -/
def recordLeave (x : XFlight) (m : Nat) (d : Data) : Data :=
  match exitEngine d x.router m with
  | none => d
  | some (s, i) =>
    let n := units64 x.record.data.length
    let at_ := attachTile i
    let d1 := portAt (countPath n false x.router (dimPath x.router at_) d) at_ 10 n false
    let d2 := { d1 with sum := { d1.sum with scarf := upd 0 d1.sum.scarf (2 * sideNo s) (· + n) } }
    queueFlit i
      { header := flitHeader 2 false true (hopClass d s 0) m x.record.row.toNat x.record.col.toNat 0 0 0
          (tileBand .north x.router) (ownModule d).toNat
        data := x.record.data, xrec := some x, k := 0, entry := none } d2

/-- The `n`-th exchange record lands in cycle `cyc` of the current beat, or leaves over a scarf link (R182, R185, R217, R218).
One that came over a link waits for its arrival beat (R251). -/
def recordLand (e : Env) (n cyc : Nat) (others : List Contender) (d : Data) : Data :=
  match d.mesh.xrecs[n]? with
  | none => d
  | some x =>
    if d.beat.count.ult x.beat then d else
    let d0 := { d with mesh := { d.mesh with xrecs := removeAt d.mesh.xrecs n } }
    let m := physModule d x.record.module.toNat
    if m ≠ (ownModule d).toNat then recordLeave x m d0
    else
      match physTile d x.record.row.toNat x.record.col.toNat with
      | none => editField e (tileField x.router) (fieldInt · fbitDestUnmapped) d0
      | some t =>
        let path := dimPath x.router t
        match served d0 x.router path t .record false others with
        | none => d
        | some d1 =>
          let d2 := countPath (units64 x.record.data.length) false x.router path d1
          let late := decide (1999 < cyc) || decide (x.beat ≠ d.beat.count)
          let d3 := if (tileOf d t).tstate = .off then d2 else editTile e t (fun _ u => placeRecord x x.beat u) d2
          if late then editField e (tileField t) (fieldInt · fbitXchgLate) d3 else d3

/-! ### The stack arbiter (R207–R213) -/

/-- A requester is present. -/
def isPresent (a : Arb) (q : Nat) : Bool := a.present.getLsbD q

/-- The weight of a shadow policy. -/
def weightOf (r : W64) : Nat := (r.extractLsb' 8 4).toNat

/-- A request's class under a requester's shadow; 3 acts as 2 (R209). -/
def reqClass (a : Arb) (r : StackReq) : Nat :=
  let s := look 0 a.shadow r.q
  min (if s.getLsbD 4 then (s.extractLsb' 0 2).toNat else r.cls) 2

/-- `round_over()` of R208. -/
def roundOver (a : Arb) : Bool :=
  a.roundCycles == 1024 ||
    !((List.range 24).any fun q =>
      isPresent a q && decide (0 < look 0 a.credit q) && a.pending.any fun r => r.q == q)

/-- A round begins: every requester's policy and credit are reloaded (R208). -/
def roundStart (a : Arb) : Arb :=
  repeatN (fun q x => { x with
    shadow := put 0 x.shadow q (arbReq x q), credit := put 0 x.credit q (weightOf (arbReq x q)) }) 24
    { a with roundCycles := 0 }

/-- The requester a class grants, searching upward from its pointer (R208). -/
def pickIn (a : Arb) (cls : Nat) : Option Nat :=
  ((List.range 24).map fun i => (look 0 a.ptr cls + i) % 24).find? fun q =>
    isPresent a q && decide (0 < look 0 a.credit q) && a.pending.any fun r => r.q == q && reqClass a r == cls

/-- The first class with a requester to grant. -/
def pick (a : Arb) : Option (Nat × Nat) :=
  [0, 1, 2].findSome? fun cls => (pickIn a cls).map fun q => (cls, q)

/-- The list without its first entry that satisfies `p`. -/
def removeFirst {α : Type} (p : α → Bool) : List α → List α
  | [] => []
  | x :: r => if p x then r else x :: removeFirst p r

/-- One offered arbitration cycle (R208–R210): the grant, if any, and the arbiter after it with every starvation count
moved. -/
def arbCycle (a0 : Arb) : Arb × Option StackReq :=
  let a1 := if roundOver a0 then roundStart a0 else a0
  let a2 := { a1 with roundCycles := a1.roundCycles + 1 }
  let g : Option (Nat × StackReq) := match pick a2 with
    | none => none
    | some (cls, q) => (a2.pending.find? fun r => r.q == q && reqClass a2 r == cls).map fun r => (cls, r)
  let a3 := match g with
    | none => a2
    | some (cls, r) =>
      let left := look 0 a2.credit r.q - 1
      { a2 with
        credit := put 0 a2.credit r.q left
        ptr := put 0 a2.ptr cls (if left = 0 then (r.q + 1) % 24 else r.q)
        pending := removeFirst (fun x => decide (x = r)) a2.pending
        grants := upd 0 a2.grants r.q (· + 1) }
  let a4 := repeatN (fun q x =>
    let th := ((arbReq x q).extractLsb' 32 32).toNat
    let waiting := isPresent a2 q && (a2.pending.any fun r => r.q == q)
    let granted := match g with | some (_, r) => r.q == q | none => false
    let w := (look 0 x.wait q).toNat
    let w' := if !waiting || granted then 0 else if th ≠ 0 ∧ th ≤ w + 1 then th else w + 1
    { x with wait := put 0 x.wait q (BitVec.ofNat 32 w') }) 24 a3
  (a4, g.map Prod.snd)

/-- The next burst of a tile's stack transfer: at most 2 KiB in one 2 KiB-aligned block (R208). A read that met uncorrectable
data goes on to its end (R123, R198). -/
def nextBurst (ix : Nat) (u : Ureq) : Option StackReq :=
  if u.status = 1 ∨ u.len ≤ u.asked ∨ (u.kind.toNat ≠ 1 ∧ u.kind.toNat ≠ 2) then none else
  let a := alignDown u.remote.toNat 6 - stackBase + u.asked
  some ⟨tileLocal ix, u.cls.toNat, u.kind.toNat == 2, a, min (u.len - u.asked) (2048 - a % 2048),
    .tileXfer ix u.id u.asked⟩

/-- A tile's transfer asks for its next burst (R208). -/
def tileRequest (e : Env) (ix id : Nat) (d : Data) : Data :=
  match (tileOf d ix).xfer.ureqs.find? (fun u => u.id = id) with
  | none => d
  | some u =>
    match nextBurst ix u with
    | none => d
    | some r =>
      if !(fieldOf d (tileField ix)).arb.present.getLsbD (tileLocal ix) then d else
      let d1 := editTile e ix (fun _ t => onUreq id (fun u => { u with asked := u.asked + r.len }) t) d
      editField e (tileField ix) (fun f => { f with arb := { f.arb with pending := f.arb.pending ++ [r] } }) d1

/-- A burst is of one requester, up to 2 KiB in one 2 KiB-aligned block, in the stack, and carries its data (R208). -/
def burstOk (f : Field) (r : StackReq) : Bool :=
  decide (0 < r.len) && decide (r.addr % 2048 + r.len ≤ 2048) && decide (r.addr + r.len ≤ stackCap f.mode) &&
    (match r.what with
      | .put bs => r.write && decide (bs.length = r.len)
      | .get => !r.write
      | .tileXfer _ _ _ => false)

/-- Another requester's request (host DMA, checkpoint and copy engine, scarf port; R207). -/
def otherRequest (e : Env) (f : Nat) (r : StackReq) (d : Data) : Data :=
  if burstOk (fieldOf d f) r then
    editField e f (fun x => { x with arb := { x.arb with pending := x.arb.pending ++ [r] } }) d
  else d

/-- A granted burst of a tile's transfer moves its data; a masked or reset tile has no transfer left to move it for. -/
def moveBurst (e : Env) (f : Nat) (r : StackReq) (found : StackFound) (d : Data) : Data :=
  match r.what with
  | .put bs => editField e f (fun x => { x with mem := writeBytes x.mem r.addr bs }) (countStack f r.len d)
  | .get =>
    let d1 := editField e f (fun x => countStackRead found r.addr
      { x with arb := { x.arb with out := some (r.q, readBytes x.mem r.addr r.len) } }) (countStack f r.len d)
    { d1 with sum := { d1.sum with ecc := d1.sum.ecc + found.corrected } }
  | .tileXfer ix id off =>
    match (tileOf d ix).xfer.ureqs.find? (fun u => u.id = id) with
    | none => d
    | some u =>
      let at_ := (u.loff.toNat + off) % 2 ^ 24
      let d1 := portAt (countStack f r.len d) ix (if r.write then 8 else 9) (units64 r.len) false
      if r.write then
        let t := tileOf d1 ix
        if poisonedIn t at_ r.len then
          editTile e ix (fun cx t => faultTile cx t.seq.cycle 2 t.seq.lastPc.toNat t) d1
        else
          let d2 := editField e f (fun x => { x with mem := writeBytes x.mem r.addr (readBytes t.store at_ r.len) }) d1
          editTile e ix (fun _ t => onUreq id (fun u => { u with moved := u.moved + r.len }) t) d2
      else
        let bs := readBytes (fieldOf d1 f).mem r.addr r.len
        let d2 := editField e f (countStackRead found r.addr) d1
        let d3 := { d2 with sum := { d2.sum with ecc := d2.sum.ecc + found.corrected } }
        editTile e ix (fun _ t =>
          onUreq id (fun u => { u with
            moved := u.moved + r.len, status := if found.badLines = 0 ∨ u.status ≠ 0 then u.status else 4 })
            (poisonLines at_ found.badLines 32 (writeStore t at_ bs))) d3

/-- The arbiter's next offered cycle, in cycle `cyc` of the tick, and the burst it grants (R203, R208). -/
def stackGrant (e : Env) (f cyc : Nat) (found : StackFound) (d : Data) : Data :=
  let x := fieldOf d f
  if refreshing cyc ∨ (x.arb.refresh ∧ cyc < 2000) ∨ x.train ≠ .ready then d else
  let (a, g) := arbCycle x.arb
  let d1 := editField e f (fun x => { x with arb := a }) d
  match g with
  | none => d1
  | some r => moveBurst e f r found d1

/-- A requester's count reaches its threshold: its arb_starve bit and starve are set (R210, R213). -/
def arbStarve (q : Nat) (f : Field) : Field :=
  let th := ((arbReq f.arb q).extractLsb' 32 32).toNat
  if isPresent f.arb q ∧ th ≠ 0 ∧ th ≤ (look 0 f.arb.wait q).toNat then
    fieldInt { f with arb := { f.arb with starve := f.arb.starve ||| bit64 q } } fbitStarve
  else f

/-- PRESENT of a requester falls (R212). -/
def arbMask (q : Nat) (f : Field) : Field :=
  if !isPresent f.arb q then f else
  let gone := (f.arb.pending.filter fun r => r.q == q).length
  fieldInt { f with arb := { f.arb with
    present := f.arb.present &&& ~~~(bit64 q)
    pending := f.arb.pending.filter fun r => r.q != q
    discarded := upd 0 f.arb.discarded q (fun v => satInc v gone)
    wait := put 0 f.arb.wait q 0 } } fbitArbDiscard

/-- PRESENT of a requester rises; requester 23 is masked for good on a field that is not an edge field (R207, R212). -/
def arbUnmask (n q : Nat) (f : Field) : Field :=
  if !f.on ∨ 24 ≤ q ∨ (q = 23 ∧ !isEdgeField n) ∨ isPresent f.arb q then f else
  { f with arb := { f.arb with
    present := f.arb.present ||| bit64 q, pending := f.arb.pending.filter fun r => r.q != q
    wait := put 0 f.arb.wait q 0 } }

/-- The PRESENT sideband of requester `q` of field `f` (R207, R212): a tile's while its domain is on and not in reset, the host
DMA engines' and the copy engine's while the data plane is on, the scarf port's while an adjoining engine's domain is on. -/
def sideband (d : Data) (f q : Nat) : Bool :=
  if q < 20 then
    match (tileOf d (fieldTile f q)).tstate with
    | .off => false | .reset => false | _ => true
  else if q < 23 then d.on
  else isEdgeField f && (List.range 48).any fun i => tileField (attachTile i) == f && (engineOf d i).on

/-- The requesters of field `f` follow their PRESENT sidebands (R212). -/
def followPresent (e : Env) (f : Nat) (d : Data) : Data :=
  if !(fieldOf d f).on then d
  else editField e f (repeatN (fun q x => if sideband d f q then arbUnmask f q x else arbMask q x) 24) d

/-- The requesters of every field follow. -/
def followAll (e : Env) (d : Data) : Data := d.fields.foldl (fun x p => followPresent e p.1 x) d

/-- A load reset of tile `ix` zeroes its router counts (R222). -/
def zeroRtr (ix : Nat) (d : Data) : Data :=
  { d with fields := upd Field.off d.fields (tileField ix) (onRtr (fun _ => Rtr.zero) ix) }

/-- A bulk transfer of requester `q` is served in 2 KiB bursts, one grant each (R207, R208, log 87); one of weight 0, or not
present, is never granted. -/
def bulkGrant (q n : Nat) (f : Field) : Field :=
  { f with arb := { f.arb with grants := upd 0 f.arb.grants q (· + BitVec.ofNat 32 (ceilDiv n 2048)) } }

/-- Requester `q` of a field can be granted. -/
def grantable (q : Nat) (f : Field) : Bool := isPresent f.arb q && decide (weightOf (arbReq f.arb q) ≠ 0)

/-! ### Stack training (R201, R202) -/

/-- The channel map R201 assigns: failed channels replaced by the spares 64 and 65 in order in full mode, the first 32
good channels in reduced mode. -/
def chanAssign (failed : List Nat) : SMap Byte :=
  if failed.length ≤ 2 then
    let spares := [64, 65].filter fun s => !failed.contains s
    ((List.range 64).foldl (fun (st : SMap Byte × List Nat) i =>
      if failed.contains i then
        (put 0 st.1 i (BitVec.ofNat 8 (0x80 + st.2.headD 0)), st.2.tail)
      else (put 0 st.1 i (BitVec.ofNat 8 (0x80 + i)), st.2)) ([], spares)).1
  else if failed.length ≤ 34 then
    let good := ((List.range 66).filter fun c => !failed.contains c).take 32
    (good.zipIdx).foldl (fun m p => put 0 m p.2 (BitVec.ofNat 8 (0x80 + p.1))) []
  else []

/-- The stack mode under a number of failed channels (R201). -/
def modeFor (n : Nat) : StackMode := if n ≤ 2 then .full else if n ≤ 34 then .reduced else .failed

/-- A field's stack finishes its training state (R202). `failed` lists physical channels that failed in STK_TEST; in a warm
start's test they send the stack back through full training from STK_CAL. -/
def stackTrainDone (failed : List Nat) (f : Field) : Field :=
  let bad := (failed.filter fun c => decide (c < 66)).eraseDups
  if !f.on then f else
  match f.train with
  | .cal => { f with train := .level }
  | .level => { f with train := .deskew }
  | .deskew => { f with train := .test }
  | .test =>
    if f.warm && !bad.isEmpty then { f with
      train := .cal
      warm := false }
    else { f with
      train := .map
      failed := bad }
  | .map =>
    let m := modeFor f.failed.length
    { f with
      mode := m, chanMap := chanAssign f.failed, retrain := [], chanUncorr := []
      train := if m = .failed then .fail else .ready }
  | _ => f

/-- A stack domain switches on: training begins at STK_CAL, or at STK_TEST on a warm start with stored trims (R202,
R222). -/
def stackOn (warm : Bool) (f : Field) : Field :=
  { Field.off with
    on := true
    train := if warm then .test else .cal
    warm := warm
    retrain := f.retrain }

/-- A stack domain switches off. Its contents are lost with it; Skour keeps the retraining marks (R205). -/
def stackOff (f : Field) : Field := { Field.off with retrain := f.retrain }

/-! ### Maps (R180, R181) -/

/-- Beats are stopped and no unscheduled packet or record is in flight: a map write takes effect (R181). -/
def mapWritable (d : Data) : Bool := !d.beat.advancing && quiescent d

/-- A map write refused: every powered field shows it (R181). -/
def mapBlocked (e : Env) (d : Data) : Data :=
  d.fields.foldl (fun x p => if p.2.on then editField e p.1 (fieldInt · fbitMapBlocked) x else x) d

/-- A write of one tile map entry. -/
def writeTileMap (e : Env) (n : Nat) (t : Option Nat) (d : Data) : Data :=
  if mapWritable d then { d with mesh := { d.mesh with tileMap := put none d.mesh.tileMap n t } } else mapBlocked e d

/-- A write of one module map entry. The map's default is the identity. -/
def writeModuleMap (e : Env) (n m : Nat) (d : Data) : Data :=
  if mapWritable d then { d with mesh := { d.mesh with moduleMap := put n d.mesh.moduleMap n m } } else mapBlocked e d

end Sys2Proof.Machine
end

