-- ==== Sys2Proof/Machine/Line.lean ====
section
/-!
DEFINITION. The scarf line format (R225–R227): GF(2^10), the RS(272,256) codewords of a cell, and the bytes that a cell
places on its lanes.
-/

namespace Sys2Proof.Machine

/-! ### GF(2^10) and RS(272,256) (R225) -/

/-- A symbol of GF(2^10). -/
abbrev Sym := BitVec 10

/-- The product by x under x^10 + x^3 + 1. -/
def symStep (a : Sym) : Sym := if a.getLsbD 9 then (a <<< 1) ^^^ 0b1001#10 else a <<< 1

/-- The product of two symbols. -/
def symMul (a b : Sym) : Sym :=
  (repeatN (fun i (s : Sym × Sym) => (if b.getLsbD i then s.1 ^^^ s.2 else s.1, symStep s.2)) 10 (0, a)).1

/-- α^n, with α = x. -/
def symPow (n : Nat) : Sym := repeatN (fun _ a => symStep a) n 1

/-- A polynomial, highest coefficient first, times (X + r). -/
def polyRoot (p : List Sym) (r : Sym) : List Sym := List.zipWith (· ^^^ ·) (p ++ [0]) (0 :: p.map (symMul r))

/-- The generator, roots α^0 to α^15, without its leading 1. -/
def rsGenerator : List Sym := ((List.range 16).foldl (fun p i => polyRoot p (symPow i)) [1]).tail

/-- The 16 check symbols of data: the remainder of data·X^16 by the generator. -/
def rsCheck (data : List Sym) : List Sym :=
  data.foldl (fun r s =>
    let q := s ^^^ r.headD 0
    List.zipWith (· ^^^ ·) (r.tail ++ [0]) (rsGenerator.map (symMul q))) (List.replicate 16 0)

/-- A codeword: its data followed by its check symbols (log 86). -/
def rsEncode (data : List Sym) : List Sym := data ++ rsCheck data

/-- The value of a word, highest coefficient first, at a symbol: zero at α^0 to α^15 for a codeword. -/
def symEval (a : Sym) (w : List Sym) : Sym := w.foldl (fun s c => symMul s a ^^^ c) 0

/-! ### Bytes on the lanes (R225, R226) -/

/-- `n` 10-bit symbols of a number, lowest bits first (log 86). -/
def symsOf : Nat → Nat → List Sym
  | 0, _ => []
  | n + 1, v => BitVec.ofNat 10 v :: symsOf n (v / 1024)

/-- A list of bytes cut or filled with zeros to `n`. -/
def sized (n : Nat) (bs : List Byte) : List Byte := (bs ++ List.replicate (n - bs.length) 0).take n

/-- Bytes 0 to 507 of a cell's control unit (R227). -/
def controlBytes (c : Cell) : List Byte :=
  natLe 3 c.seq.toNat ++ natLe 3 c.ack.toNat ++
    natLe 1 (b2n c.nack + 2 * b2n c.swapReq + 4 * b2n c.swapNow + 8 * b2n c.marker.isSome) ++ natLe 1 c.swapLane ++
    (List.range 16).flatMap (fun i => natLe 2 (c.credits.getD i 0)) ++ natLe 16 (c.marker.getD 0).toNat ++
    natLe 4 c.phase.toNat ++ natLe 4 0 ++
    (List.range 8).flatMap (fun i => natLe 16 (c.words.getD i 0).toNat) ++
    (List.range 19).flatMap (fun i => natLe 16 ((c.units.map TxFlit.header).getD i 0).toNat) ++ natLe 12 0

/-- The check value of a control unit (R227). -/
def controlCrc (c : Cell) : W32 := crc32 (controlBytes c)

/-- The cell with its check value. -/
def sealCell (c : Cell) : Cell := { c with crc := controlCrc c }

/-- Unit `u` of a cell: unit 0 is the control unit, units 1 to 19 hold its flits (R226). -/
def unitBytes (c : Cell) (u : Nat) : List Byte :=
  if u = 0 then controlBytes c ++ natLe 4 c.crc.toNat else sized 512 ((c.units.map TxFlit.data).getD (u - 1) [])

/-- The 2,560 bytes of period `p` of a cell: unit u lies at byte 512·(u mod 5) of period ⌊u ÷ 5⌋ (R226). -/
def periodBytes (c : Cell) (p : Nat) : List Byte := (List.range 5).flatMap fun j => unitBytes c (5 * p + j)

/-- The data bytes that the `l`-th active lane carries in a period: byte n goes to lane n mod 8 (R225). -/
def lineBytes (c : Cell) (p l : Nat) : List Byte :=
  let bs := periodBytes c p
  (List.range 320).map fun j => bs.getD (8 * j + l) 0

/-- The codeword on the `l`-th active lane in period `p` of a cell. -/
def lineWord (c : Cell) (p l : Nat) : List Sym := rsEncode (symsOf 256 (leNat (lineBytes c p l)))

/-- An error on the line: the period, the active lane by its place, the symbol of the codeword, and the bits that changed. -/
structure LineError where
  period : Fin 4
  lane : Fin 8
  symbol : Fin 272
  flip : Sym
deriving DecidableEq, Repr

/-- The change of one symbol of a codeword. -/
def symFlip (es : List LineError) (p l j : Nat) : Sym :=
  es.foldl (fun x e => if e.period.val = p ∧ e.lane.val = l ∧ e.symbol.val = j then x ^^^ e.flip else x) 0

/-- The word that arrives on a lane in a period. -/
def lineArrives (c : Cell) (es : List LineError) (p l : Nat) : List Sym :=
  (lineWord c p l).zipIdx.map fun x => x.1 ^^^ symFlip es p l x.2

/-- The symbols of a codeword that arrive changed. -/
def symErrors (es : List LineError) (p l : Nat) : Nat :=
  if es.isEmpty then 0 else (List.range 272).countP fun j => symFlip es p l j != 0

/-- The four codewords of a lane decode: each corrects up to 8 symbols, and one with more is uncorrectable (R225, log 86). -/
def laneDecodes (es : List LineError) (l : Nat) : Bool := (List.range 4).all fun p => decide (symErrors es p l ≤ 8)

/-- The symbols corrected on a lane in a cell. -/
def laneCorrections (es : List LineError) (l : Nat) : Nat :=
  (List.range 4).foldl (fun n p => if symErrors es p l ≤ 8 then n + symErrors es p l else n) 0

/-- A cell is good when all its codewords decode and its check value matches (R230). -/
def cellGood (c : Cell) (es : List LineError) : Bool :=
  (List.range 8).all (laneDecodes es) && decide (c.crc = controlCrc c)

end Sys2Proof.Machine
end

