-- ==== Sys2Proof/Machine/Scarf.lean ====
section
/-!
DEFINITION. The scarf engines (chapter 07): training, cells and retry, lane swaps, engine failures, and the release of
scheduled flits at the entry engine.
-/

namespace Sys2Proof.Machine

/-- The scf_state code (R233). -/
def scfCode : ScfState → Nat
  | .off => 0 | .bias => 1 | .adapt => 2 | .lane => 3 | .id => 4 | .lat => 5 | .up => 6 | .fail => 7

/-- The engine status record (R254). -/
def statusRecord (d : Data) (i : Nat) (g : Engine) : BitVec 128 :=
  ownModule d ++ BitVec.ofNat 2 (sideNo (engineSide i)) ++ BitVec.ofNat 4 (i % 12) ++ BitVec.ofNat 3 (scfCode g.state) ++
    g.failCause ++ g.lanesGood ++ BitVec.ofNat 4 g.spareLane ++ g.peerModule ++ g.latency ++ g.retries ++ g.scarfLate ++
    g.corrected ++ 0#12

/-- A scarf event with the engine's status record (R253). -/
def raiseScarf (e : Env) (code i : Nat) (d : Data) : Data :=
  raiseData e code (natLe 16 (statusRecord d i (engineOf d i)).toNat) d

/-- One engine changed. -/
def editEngine (i : Nat) (f : Engine → Engine) (d : Data) : Data :=
  { d with engines := upd Engine.off d.engines i f }

/-! ### Training (R233–R239) -/

/-- What a training state's work found: success or failure of calibration, the bit errors of each lane's 2^31 bits in the
receive direction and, as the peer found them, in the transmit direction, the peer's identity, or the latency in
nanoseconds. -/
inductive TrainFound where
  | calibrated (ok : Bool)
  | lanes (rx tx : List Nat)
  | peer (ident : ScfIdent)
  | latency (ns : Nat)
deriving DecidableEq, Repr

/-- The lanes that pass, lowest first: at most 4,096 bit errors (R234). -/
def passing (errs : List Nat) : List Nat := (List.range 9).filter fun n => decide (errs.getD n 4097 ≤ 4096)

/-- A mask of lanes. -/
def laneMask (ls : List Nat) : BitVec 9 := BitVec.ofNat 9 (ls.foldl (fun m n => m + 2 ^ n) 0)

/-- The engine fails with a cause (R233). -/
def trainFail (cause : Nat) (g : Engine) : Engine := { g with state := .fail, failCause := BitVec.ofNat 4 cause }

/-- Every class's receive buffers empty: 8 flits each (R227, R249). -/
def fullCredits : List Nat := List.replicate 12 8 ++ List.replicate 4 0

/-- The opposite side. -/
def facing : Side → Side
  | .north => .south | .south => .north | .east => .west | .west => .east

/-- The identity this end sends in SCF_ID (R235). -/
def ownIdent (d : Data) (i : Nat) : ScfIdent :=
  ⟨ownModule d, sideNo (engineSide i), i % 12, match d.desc with | some x => x.digest | none => 0⟩

/-- The identity R223 gives the peer under the description (R235). -/
def peerIdent (d : Data) (i : Nat) : ScfIdent :=
  { ownIdent d i with
    module := BitVec.ofNat 8 (neighbour d (engineSide i) (ownModule d).toNat)
    side := sideNo (facing (engineSide i))
    index := 11 - i % 12 }

/-- One training state's end (R233–R236); none when the finding is not the state's. A hot spare carries a copy of the lowest
active lane (log 86). -/
def trainNext (d : Data) (i : Nat) (x : TrainFound) (g : Engine) : Option Engine :=
  match g.state, x with
  | .bias, .calibrated ok => some (if ok then { g with state := .adapt } else trainFail 1 g)
  | .adapt, .calibrated ok => some (if ok then { g with state := .lane } else trainFail 2 g)
  | .lane, .lanes rx tx =>
    let ls := passing rx
    let ts := passing tx
    let g1 := { g with lanesGood := laneMask ls }
    some (if ls.length < 8 then trainFail 3 g1
      else { g1 with
        state := .id
        lanes := ls.take 8
        spareLane := ls.getD 8 15
        copyLane := if 8 < ls.length then ls.head? else none
        txLanes := ts.take 8
        txSpare := ts.getD 8 15
        ident := some (ownIdent d i) })
  | .id, .peer p =>
    let g1 := { g with peerModule := p.module }
    let want := peerIdent d i
    some (if p.module ≠ want.module ∨ p.side ≠ want.side ∨ p.index ≠ want.index then trainFail 4 g1
      else if p.digest ≠ want.digest then trainFail 5 g1
      else { g1 with state := .lat })
  | .lat, .latency ns =>
    let g1 := { g with latency := BitVec.ofNat 10 (min ns 1023) }
    some (if 270 < ns then trainFail 6 g1
      else { g1 with
        state := .up
        failCause := 0
        credits := fullCredits
        fails := 0
        rejecting := false
        replay := g.retry
        laneCorr := []
        laneBad := [] })
  | _, _ => none

/-- The engine has finished training or takes no part in it. -/
def trainingOver (g : Engine) : Bool :=
  match g.state with
  | .up => true | .fail => true | .off => true | _ => false

/-- Every engine of the module has finished training. -/
def allTrained (d : Data) : Bool := (List.range 48).all fun i => trainingOver (engineOf d i)

/-- An engine finishes a training state (R233, R242, R253): link up, link failed, and the module's own training end, from which
it sends markers and state words. -/
def scarfTrainDone (e : Env) (i : Nat) (x : TrainFound) (d : Data) : Data :=
  match trainNext d i x (engineOf d i) with
  | none => d
  | some g =>
    let d1 := editEngine i (fun _ => g) d
    let d2 := match g.state with
      | .up => raiseScarf e 0x0120 i d1
      | .fail => raiseScarf e 0x0121 i d1
      | _ => d1
    if allTrained d2 ∧ !d2.plumb.trained then
      { d2 with plumb := { d2.plumb with trained := true, trainedAt := e.ts, wordDue := true } }
    else d2

/-- An engine whose side the system description marks uncabled: its domain stays off (R239). -/
def keptOff (d : Data) (i : Nat) : Bool := d.desc.isSome && uncabled d (engineSide i)

/-- An engine's domain switches on: its counts are zero and training begins (R233, R254), from SCF_ADAPT with a valid trim
record in a warm start (R451). -/
def engineOn (trimmed : Bool) (i : Nat) (d : Data) : Data :=
  if keptOff d i then d
  else editEngine i (fun _ => { Engine.off with
    on := true
    state := if trimmed then .adapt else .bias }) d

/-- A retrain from SCF_ADAPT (R232, R239). -/
def retrain (g : Engine) : Engine :=
  match g.state with
  | .off => g
  | _ => { g with
      state := .adapt
      rejecting := false
      fails := 0
      swapReq := false
      swapping := none
      swapNow := false
      swapSent := false
      swapSeen := false
      txSwap := none
      txReady := false }

/-! ### Cells (R226–R232) -/

/-- Flit kind, dateline class and response bit of a header (R227). -/
def hdrKind (h : BitVec 128) : Nat := bits 127 126 h.toNat
def hdrResp (h : BitVec 128) : Bool := h.getLsbD 125
def hdrClass (h : BitVec 128) : Nat := bits 123 121 h.toNat
def hdrModule (h : BitVec 128) : Nat := bits 120 113 h.toNat

/-- The credit a class of traffic uses: the six dateline classes, each request then response (R227). -/
def creditIx (h : BitVec 128) : Nat := 2 * hdrClass h + b2n (hdrResp h)

/-- A flit's rank in the fill order of R228, lowest first. -/
def fillRank (f : TxFlit) : Nat :=
  if hdrKind f.header = 1 then 0
  else if f.xrec.isSome then 1
  else 2 + 2 * (5 - hdrClass f.header) + (1 - b2n (hdrResp f.header))

/-- Flits in fill order, the queue's order within a rank. -/
def fillOrder (q : List TxFlit) : List TxFlit :=
  (List.range 14).flatMap fun r => q.filter fun f => min (fillRank f) 13 = r

/-- Up to `n` flits taken in fill order while their class has credit: the units, the credits left, the flits left. -/
def takeUnits : Nat → List TxFlit → List Nat → List TxFlit × List Nat × List TxFlit
  | 0, q, cr => ([], cr, q)
  | _, [], cr => ([], cr, [])
  | n + 1, f :: q, cr =>
    if hdrKind f.header = 2 ∧ cr.getD (creditIx f.header) 0 = 0 then
      let r := takeUnits (n + 1) q cr
      (r.1, r.2.1, f :: r.2.2)
    else
      let cr1 := if hdrKind f.header = 2 then modifyAt (· - 1) cr (creditIx f.header) else cr
      let r := takeUnits n q cr1
      (f :: r.1, r.2)

/-- A plumb unit of up to 32 state words (R228). -/
def plumbUnit (ws : List (BitVec 128)) : TxFlit :=
  { header := BitVec.ofNat 128 (3 * 2 ^ 126), data := (ws.take 32).flatMap fun w => natLe 16 w.toNat
    xrec := none, k := 0, entry := none }

/-- The words of a plumb unit's data. -/
def unitWords : Nat → List Byte → List (BitVec 128)
  | 0, _ => []
  | _, [] => []
  | n + 1, bs => BitVec.ofNat 128 (leNat (bs.take 16)) :: unitWords n (bs.drop 16)

/-- Unscheduled flits of a list in a credit class. -/
def countClass (k : Nat) (l : List TxFlit) : Nat := l.countP fun f => hdrKind f.header == 2 && creditIx f.header == k

/-- The free receive buffers of engine `i`: a flit that entered over it holds one until it has left again (R227, R249). -/
def freeCredits (d : Data) (i : Nat) : List Nat :=
  (List.range 16).map fun k => if k < 12 then 8 - d.engines.foldl (fun n p =>
    n + p.2.txQueue.countP fun f => decide (f.entry = some (i, k))) 0 else 0

/-- A lane replaced by the hot spare in a lane assignment. -/
def swapIn (lane spare : Nat) (ls : List Nat) : List Nat := ls.map fun n => if n = lane then spare else n

/-- The control unit of a cell as it is sent (R227, R229, R230, R237). A replay keeps the swap flags it was first sent with and
carries a marker only when one is due (log 86). -/
def withControl (free : List Nat) (phase : W32) (g : Engine) (c : Cell) : Cell :=
  sealCell { c with
    ack := g.rxAck
    nack := g.nackDue
    swapReq := c.swapReq || g.swapReq
    swapNow := c.swapNow || g.swapNow || g.txReady
    swapLane := match g.swapping with | some p => p.1 | none => c.swapLane
    credits := free
    marker := g.markerDue
    phase := if g.markerDue.isSome then phase else 0 }

/-- The engine once cell `c` has gone: what it carried is no longer due, and after the peer's swap_now this cell is the first
under the new assignment (R237). -/
def afterSend (c : Cell) (g : Engine) : Engine :=
  { g with
    nackDue := false
    markerDue := none
    swapReq := false
    swapSent := g.swapSent || g.swapNow
    swapNow := false
    txLanes := match g.txReady, g.txSwap with
      | true, some l => swapIn l g.txSpare g.txLanes
      | _, _ => g.txLanes
    txSpare := if g.txReady then 15 else g.txSpare
    txSwap := if g.txReady then none else g.txSwap
    txReady := false
    sent := some c }

/-- A cell without words or flits. -/
def idleCell (seq : BitVec 24) : Cell :=
  { seq := seq, ack := 0, nack := false, swapReq := false, swapNow := false, swapLane := 0, credits := [], marker := none
    phase := 0, words := [], units := [], crc := 0 }

/-- The engine's next cell (R227–R231): a replay if one is due, else a new cell. While the retry buffer is full it sends a cell
that carries neither flits nor words, under the number before the oldest cell not acknowledged, so that no receiver waits for
it (log 86). `phase` is marker_phase. -/
def nextCell (ts : W64) (free : List Nat) (phase : W32) (g : Engine) : Cell × Engine :=
  match g.replay with
  | c :: rest =>
    let c1 := withControl free phase g c
    (c1, afterSend c1 { g with replay := rest })
  | [] =>
    if 16 ≤ g.retry.length then
      let c := withControl free phase g (idleCell ((g.retry.headD (idleCell 1)).seq - 1))
      (c, afterSend c g)
    else
      let nPlumb := min 19 (ceilDiv (g.words.length - 8) 32)
      let rest := g.words.drop 8
      let plumb := (List.range nPlumb).map fun j => plumbUnit (rest.drop (32 * j))
      let (units, cr, left) := takeUnits (19 - nPlumb) (fillOrder g.txQueue) g.credits
      let c := withControl free phase g { idleCell (g.txSeq + 1) with words := g.words.take 8, units := plumb ++ units }
      (c, afterSend c { g with
        txSeq := c.seq
        words := rest.drop (32 * nPlumb)
        credits := cr
        txQueue := left
        ackSince := if g.retry.isEmpty then ts else g.ackSince
        retry := g.retry ++ [c] })

/-- The engine sends one cell (R226, R228). -/
def cellSend (e : Env) (i : Nat) (phase : W32) (d : Data) : Data :=
  if (engineOf d i).state = .up then editEngine i (fun g => (nextCell e.ts (freeCredits d i) phase g).2) d else d

/-- `a` acknowledges `s`: `s` is not after `a` in 24-bit sequence order. -/
def ackCovers (a s : BitVec 24) : Bool := decide ((a - s).toNat < 2 ^ 23)

/-- The sender's boundary in 1/16 LCLK cycles from this module's own: the cell's arrival, less the measured one-way latency of
21.25 such cycles per nanosecond, less marker_phase (R229). -/
def senderBoundary (arrival : Int) (g : Engine) (phase : W32) : Int :=
  arrival - (85 * g.latency.toNat / 4 : Nat) - phase.toNat

/-- The credits a report leaves: those of flits in cells the peer had not yet received are spent (R227, log 86). -/
def creditsLeft (report : List Nat) (unacked : List Cell) : List Nat :=
  report.zipIdx.map fun x => x.1 - unacked.foldl (fun n c => n + countClass x.2 c.units) 0

/-- The control unit's part of an accepted cell (R227, R229–R231, R237). -/
def takeControl (ts : W64) (arrival : Int) (c : Cell) (g : Engine) : Engine :=
  let retry := g.retry.filter fun x => !ackCovers c.ack x.seq
  let switched := c.swapNow && g.swapSent && !g.swapSeen
  { g with
    retry := retry
    ackSince := if retry.length < g.retry.length then ts else g.ackSince
    replay := if c.nack then retry else g.replay.filter fun x => !ackCovers c.ack x.seq
    credits := creditsLeft c.credits retry
    markerIn := match c.marker with | some m => some (m, senderBoundary arrival g c.phase) | none => g.markerIn
    wordsIn := g.wordsIn ++ c.words
    txSwap := if c.swapReq then some c.swapLane else g.txSwap
    txReady := g.txReady || (c.swapNow && g.txSwap.isSome)
    swapSeen := g.swapSeen || switched
    lanes := match switched, g.swapping with
      | true, some p => swapIn p.1 g.spareLane g.lanes
      | _, _ => g.lanes }

/-- The side a flit leaves by goes on along the dimension its entry side lies on. -/
def sameDimension (s t : Side) : Bool :=
  match s, t with
  | .east, .east => true | .east, .west => true | .west, .east => true | .west, .west => true
  | .north, .north => true | .north, .south => true | .south, .north => true | .south, .south => true
  | _, _ => false

/-- An unscheduled flit for another module goes on: at its entry band, or, where it turns into y, at ybnd (R248, R249). One
with no way on, or whose destination is not a member, is discarded (R250). -/
def transitFlit (i : Nat) (f : TxFlit) (d : Data) : Data :=
  let h := f.header
  match (if isMember d (hdrModule h) then routeSide d (hdrModule h) else none) with
  | none => d
  | some s =>
    match nearestUp d s (if sameDimension (engineSide i) s then engineBand i else bits 37 34 h.toNat) with
    | none => d
    | some j =>
      let h1 := BitVec.ofNat 128 (h.toNat - hdrClass h * 2 ^ 121 + hopClass d s (hdrClass h) * 2 ^ 121)
      queueFlit j { f with header := h1, entry := some (i, creditIx h) } d

/-- An unscheduled flit for this module: an exchange record waits for its arrival beat (R251), data for the stack goes to the
adjoining field's arbiter as requester 23 (R252), other data joins the mesh at the entry router (R249). -/
def arriveFlit (i : Nat) (f : TxFlit) (d : Data) : Data :=
  let h := f.header
  let off := bits 102 57 h.toNat
  let at_ := attachTile i
  let fd := tileField at_
  match f.xrec with
  | some x =>
    let dd := match d.desc with | some s => s.scarfDelay | none => 0
    { d with mesh := { d.mesh with
      xrecs := d.mesh.xrecs ++ [{ x with router := at_, beat := x.beat + BitVec.ofNat 64 dd }] } }
  | none =>
    if stackBase ≤ off then
      { d with fields := upd Field.off d.fields fd fun x =>
          if off - stackBase + f.data.length ≤ stackCap x.mode ∧ x.arb.present.getLsbD 23 then
            { x with arb := { x.arb with pending :=
                x.arb.pending ++ [⟨23, ((arbReq x.arb 23).extractLsb' 0 2).toNat, true, off - stackBase, f.data.length, .put f.data⟩] } }
          else x }
    else
      let p : Packet :=
        { tile := at_, id := 0, start := at_, module := BitVec.ofNat 8 (logicalModule d), row := bits 112 108 h.toNat
          col := bits 107 103 h.toNat, offset := off, source := 0, len := f.data.length
          escaped := injected (fieldOf d fd) at_, data := some f.data, ack := none, away := false }
      { d with mesh := { d.mesh with packets := d.mesh.packets ++ [p] } }

/-- The scheduled flits an entry engine can hold (R245). -/
def holdDepth : Nat := 1280

/-- A flit unit of an accepted cell: a scheduled flit is held for its release (R245), an unscheduled flit arrives here or goes
on to the next module (R248–R252), a plumb unit yields its words. -/
def takeUnit (i : Nat) (f : TxFlit) (d : Data) : Data :=
  let h := f.header
  let d1 := { d with sum := { d.sum with
    scarf := upd 0 d.sum.scarf (2 * sideNo (engineSide i) + 1) (· + units64 f.data.length) } }
  let d2 := portAt d1 (attachTile i) 11 (units64 f.data.length) (hdrKind h == 1)
  if hdrKind h = 1 then
    editEngine i (fun g => if holdDepth ≤ g.held.length then g else { g with
      held := g.held ++ [{ arriveBeat := h.extractLsb' 49 8, land := bits 48 38 h.toNat, k := f.k, row := bits 112 108 h.toNat
                           col := bits 107 103 h.toNat, offset := bits 102 57 h.toNat, data := f.data }] }) d2
  else if hdrKind h = 3 then
    editEngine i (fun g => { g with wordsIn := g.wordsIn ++ unitWords 32 f.data }) d
  else if hdrKind h = 2 then
    if hdrModule h = (ownModule d).toNat then arriveFlit i f d2 else transitFlit i f d2
  else d

/-- The symbols a cell's codewords corrected are counted for the engine and its lanes, with the lanes on which one was
uncorrectable (R225, R237, R254). -/
def countLines (es : List LineError) (g : Engine) : Engine :=
  if es.isEmpty then g else
  repeatN (fun l g =>
    let n := laneCorrections es l
    let lane := g.lanes.getD l 0
    { g with
      corrected := satInc g.corrected n
      laneCorr := upd 0 g.laneCorr lane (· + n)
      laneBad := if laneDecodes es l then g.laneBad else put false g.laneBad lane true }) 8 g

/-- A bad cell (R230, R232): it is asked for again, once; while its replay is awaited only another failure of that cell is. -/
def rejectCell (c : Cell) (g : Engine) : Engine :=
  let same := c.seq == g.rxAck + 1
  if g.rejecting && !same then g else { g with
    rejecting := true
    nackDue := true
    retries := satInc g.retries 1
    fails := if same then g.fails + 1 else g.fails }

/-- A cell arrives at `arrival`, in 1/16 LCLK cycles from the boundary that closes its marker's tick here, with the line's
errors (R225, R229–R232). A bad cell, and every cell after it until its replay, is discarded. -/
def cellReceive (e : Env) (i : Nat) (c : Cell) (arrival : Int) (errs : List LineError) (d : Data) : Data :=
  let g := engineOf d i
  if g.state ≠ .up then d else
  let d1 := editEngine i (countLines errs) d
  if !cellGood c errs then editEngine i (rejectCell c) d1
  else if c.seq = g.rxAck + 1 then
    let d2 := editEngine i (fun g =>
      let n := match g.swapping with | some p => p.2 + 1 | none => 0
      let g1 := takeControl e.ts arrival c g
      { g1 with
        rxAck := c.seq
        rejecting := false
        fails := 0
        swapping := g.swapping.map fun p => (p.1, n)
        swapNow := g.swapNow || decide (g.swapping.isSome ∧ n = 64) }) d1
    c.units.foldl (fun x u => takeUnit i u x) d2
  else if !g.rejecting ∧ ackCovers g.rxAck c.seq then
    editEngine i (takeControl e.ts arrival { c with words := [] }) d1
  else d1

/-! ### Failures and swaps (R232, R237, R253) -/

/-- An engine is the exit of a scheduled send of the loaded image (R244). -/
def isExit (d : Data) (i : Nat) : Bool :=
  d.tiles.any fun p => p.2.csr.logicalValid && p.2.xfer.sched.any fun s =>
    schedKind s.2 == 1 &&
      (let m := physModule d (bits 91 84 s.2.toNat)
       m != (ownModule d).toNat && (match sideToward d m with
        | some w => engineAt w (tileBand w p.1) == i
        | none => false))

/-- A tile has reported a fatal fault that is not yet declared (R60). -/
def tileReported (d : Data) : Bool := d.tiles.any fun p => p.2.report.isSome

/-- A beat fault waits for its boundary; the first one detected stands (R152). -/
def noteFault (cause : Nat) (d : Data) : Data :=
  match d.beat.pendFault with
  | some _ => d
  | none => { d with beat := { d.beat with pendFault := some (if tileReported d then 2 else BitVec.ofNat 8 cause) } }

/-- A beat fault whose condition first held at the boundary that began the tick (R173, R175): it stands before what the tick
itself detected, and of two the lower code (R152). -/
def noteFirst (cause : Nat) (d : Data) : Data :=
  { d with beat := { d.beat with pendFault := some (match d.beat.pendFault with
    | some c => if (c = 5 ∨ c = 6) ∧ c.toNat < cause then c else BitVec.ofNat 8 cause
    | none => BitVec.ofNat 8 cause) } }

/-- Unscheduled flits that waited at an engine out of service go by the nearest one of its side that is in service, or are
discarded (R248, R250). -/
def moveQueued (i : Nat) (d : Data) : Data :=
  let fs := (engineOf d i).txQueue.filter fun f => hdrKind f.header == 2
  let d1 := editEngine i (fun g => { g with txQueue := g.txQueue.filter fun f => hdrKind f.header != 2 }) d
  match nearestUp d1 (engineSide i) (engineBand i) with
  | none => d1
  | some j => fs.foldl (fun x f => queueFlit j f x) d1

/-- An engine goes down: one seq has failed 8 times in a row, or its ack has not advanced for 4 µs while cells are
unacknowledged (R232). `entry` reports that a scheduled send of the image enters here, which other modules' sections say
(R253, R259). -/
def engineDown (e : Env) (i : Nat) (entry : Bool) (d : Data) : Data :=
  let g := engineOf d i
  let stalled := !g.retry.isEmpty && decide (g.ackSince.toNat + 4000 ≤ e.ts.toNat)
  if g.state ≠ .up ∨ (g.fails < 8 ∧ !stalled) then d else
  let d1 := raiseScarf e 0x0123 i (moveQueued i (editEngine i (fun g => { retrain g with failCause := 7 }) d))
  if (e.running ∨ e.held) ∧ (entry ∨ isExit d i) then noteFault 8 d1 else d1

/-- A lane is to be swapped out: more than 16,384 symbols corrected in the frame, or an uncorrectable codeword (R237). -/
def laneDegraded (g : Engine) (lane : Nat) : Bool := decide (16384 < look 0 g.laneCorr lane) || look false g.laneBad lane

/-- A degraded lane: with a hot spare the receiver asks for a swap (R237); without one the lane stays (R238). -/
def swapRequest (i lane : Nat) (d : Data) : Data :=
  editEngine i (fun g =>
    if g.state = .up ∧ lane ∈ g.lanes ∧ g.spareLane < 9 ∧ g.swapping.isNone ∧ laneDegraded g lane then
      { g with
        swapReq := true
        swapping := some (lane, 0)
        copyLane := some lane }
    else g) d

/-- The swap is complete: the peer's first cell after swap_now has come, under the new assignment (R237, R253). -/
def swapComplete (e : Env) (i : Nat) (d : Data) : Data :=
  match (engineOf d i).swapping with
  | none => d
  | some (lane, _) =>
    if !(engineOf d i).swapSeen then d else
    raiseScarf e 0x0122 i (editEngine i (fun g => { g with
      spareLane := 15
      copyLane := none
      swapping := none
      swapSent := false
      swapSeen := false
      laneCorr := put 0 g.laneCorr lane 0
      laneBad := put false g.laneBad lane false }) d)

/-- A flit written after its nominal arrival cycle (R246, R253). -/
def flitLateBy (e : Env) (i late : Nat) (d : Data) : Data :=
  if late = 0 then d else
  let d1 := editEngine i (fun g => { g with scarfLate := satInc g.scarfLate 1 }) d
  let d2 := if (engineOf d i).lateRaised then d1
    else raiseScarf e 0x0124 i (editEngine i (fun g => { g with lateRaised := true }) d1)
  if 288 < late then noteFault 8 d2 else d2

/-- The entry engine releases its `n`-th held flit in cycle `cyc`, counted on from the start of the flit's arrival beat: not
before cycle land + k − H_d − 2 (R245). A flit in time stands in its router's landing buffer until cycle land + k; a late one
is written on reaching its destination (R246). -/
def flitRelease (e : Env) (i n cyc : Nat) (d : Data) : Data :=
  match (engineOf d i).held[n]? with
  | none => d
  | some f =>
    let beats := (d.beat.count.setWidth 8 - f.arriveBeat).toNat
    if 128 ≤ beats ∨ (beats = 0 ∧ (!d.beat.advancing ∨ 2256 ≤ cyc)) ∨ cyc < 2000 * beats then d else
    let at_ := attachTile i
    let d1 := editEngine i (fun g => { g with held := removeAt g.held n }) d
    match physTile d f.row f.col with
    | none => editField e (tileField at_) (fieldInt · fbitDestUnmapped) d1
    | some t =>
      let hd := pathCycles at_ (dimPath at_ t)
      if cyc < f.land + f.k - hd - 2 then d else
      let d2 := countPath (units64 f.data.length) true at_ (dimPath at_ t) d1
      let late := cyc + hd + 2 - (f.land + f.k)
      let x : Flit := { beat := d.beat.count, land := f.land, k := f.k, source := at_, tile := t, offset := f.offset, data := f.data }
      if late = 0 then { d2 with mesh := { d2.mesh with flits := d2.mesh.flits ++ [x] } }
      else flitLateBy e i late (writeFlit e x d2)

end Sys2Proof.Machine
end

