-- ==== Sys2Proof/Machine/Beat.lean ====
section
/-!
DEFINITION. The beat generator and plumb (chapter 05): boundaries, stretch, beat faults, holds and orders, clock steps,
root election and failover; the joint inputs as the data plane latches them (R17–R22); the J4 snapshot (R22, R333, R529).
-/

namespace Sys2Proof.Machine

/-! ### Members and words -/

/-- The system has more than one module (R167). -/
def inSystem (d : Data) : Bool := decide (sysSize d ≠ (1, 1))

/-- The latest word of a member. -/
def latestWord (d : Data) (m : Nat) : Option StateWord := (look [] d.plumb.words m).head?

/-- The latest word of a member stamped at or before `lim`. -/
def wordBy (d : Data) (lim m : Nat) : Option StateWord := (look [] d.plumb.words m).find? fun w => w.stamp.toNat ≤ lim

/-- The members' latest words stamped at or before t − 9 (R164, R168). -/
def agreedWords (d : Data) (t : Nat) : List StateWord :=
  if t < 9 then [] else (members d).filterMap (wordBy d (t - 9))

/-- step_req as the module asks for it: 12 while throttle is 1 (R20, R21). -/
def ownStepReq (d : Data) : Nat := if d.j1.throttle then 12 else min d.j1.stepReq 12

/-- The order's fields (R17). -/
def orderSeq (o : BitVec 16) : BitVec 8 := o.extractLsb' 8 8
def orderTurn (o : BitVec 16) : Nat := (o.extractLsb' 5 3).toNat
def orderOp (o : BitVec 16) : Nat := (o.extractLsb' 0 5).toNat

/-- The latched order has not been acted on (R19, R165). -/
def orderArmed (d : Data) : Bool := orderSeq d.j1.order != d.j1.acted

/-- A state word as its 128 bits (R158). -/
def wordBits (w : StateWord) : BitVec 128 :=
  2#8 ++ w.origin ++ w.wseq ++ BitVec.ofNat 4 w.stepReq ++ BitVec.ofBool w.hold ++ BitVec.ofBool w.beatFault ++
    BitVec.ofBool w.rootClaim ++ BitVec.ofBool w.locked ++ w.orderSeq ++ BitVec.ofNat 3 w.turn ++ BitVec.ofNat 5 w.op ++
    w.cause ++ 0#24 ++ w.stamp.setWidth 48

/-- The state word 128 bits spell; none when their kind is not 0x02. -/
def wordOf (x : BitVec 128) : Option StateWord :=
  if x.extractLsb' 120 8 = 2 then
    some ⟨x.extractLsb' 112 8, x.extractLsb' 104 8, (x.extractLsb' 100 4).toNat, x.getLsbD 99, x.getLsbD 98,
      x.getLsbD 97, x.getLsbD 96, x.extractLsb' 88 8, (x.extractLsb' 85 3).toNat, (x.extractLsb' 80 5).toNat,
      x.extractLsb' 72 8, (x.extractLsb' 0 48).setWidth 64⟩
  else none

/-- A marker as its 128 bits (R157). -/
def markerBits (root backup : BitVec 8) (hop : Nat) (cstretch : W32) (rtick tick : W64) : BitVec 128 :=
  1#8 ++ root ++ backup ++ BitVec.ofNat 5 hop ++ 0#3 ++ cstretch ++ rtick.setWidth 16 ++ tick.setWidth 48

/-- The marker 128 bits spell, received in tick `at_` with the phase error measured against it. -/
def markerOf (at_ : W64) (err : Nat) (x : BitVec 128) : Option MarkerIn :=
  if x.extractLsb' 120 8 = 1 then
    some ⟨x.extractLsb' 112 8, x.extractLsb' 104 8, (x.extractLsb' 99 5).toNat, x.extractLsb' 64 32,
      x.extractLsb' 48 16, (x.extractLsb' 0 48).setWidth 64, at_, err⟩
  else none

/-- A 16-bit tick taken to the 64-bit tick nearest `t`. -/
def nearTick (t : W64) (x : BitVec 16) : W64 :=
  let diff := x - t.setWidth 16
  t + diff.signExtend 64

/-- Queue 128 bits of plumb on every engine in service but `but`. -/
def floodWord (but : Nat) (w : BitVec 128) (d : Data) : Data :=
  { d with engines := mapListed Engine.off (fun i g =>
      if g.state = .up ∧ i ≠ but then { g with words := g.words ++ [w] } else g) d.engines }

/-- A word taken into a member's list, the newest wseq first; words older than the newest one past the 9-tick bound are
no longer read and are let go. -/
def insertWord (t : Nat) (w : StateWord) (ws : List StateWord) : List StateWord :=
  let ws1 := match ws with
    | [] => [w]
    | x :: r => if (w.wseq - x.wseq).toNat < 128 then w :: ws else x :: w :: r
  let recent := ws1.takeWhile fun x => t < x.stamp.toNat + 9
  recent ++ (ws1.drop recent.length).take 1

/-! ### Plumb events (R176): the listed contents in order, module numbers U8, counts U64, cycles U16 -/

def evRootElected (e : Env) (d : Data) : Data :=
  raiseData e 0x0110 (natLe 1 (d.plumb.root.getD 0xFF).toNat ++ natLe 1 (d.plumb.backup.getD 0xFF).toNat ++
    natLe 8 d.beat.tick.toNat) d
def evLock (e : Env) (d : Data) : Data :=
  raiseData e 0x0111 (natLe 1 (b2n d.plumb.locked) ++ natLe 2 d.plumb.phaseError) d
def evAlign (e : Env) (d : Data) : Data := raiseData e 0x0112 (natLe 2 d.plumb.phaseError) d
def evStep (e : Env) (d : Data) : Data :=
  raiseData e 0x0113 (natLe 1 d.beat.step ++ natLe 1 d.beat.governor.toNat ++ natLe 8 d.beat.tick.toNat) d
def evGovernor (e : Env) (d : Data) : Data :=
  raiseData e 0x0114 (natLe 1 d.beat.governor.toNat ++ natLe 1 d.beat.step) d
def evHoldStart (e : Env) (ms : List Nat) (d : Data) : Data :=
  raiseData e 0x0115 ((List.range 8).flatMap (fun i => natLe 1 (ms.getD i 0xFF)) ++ natLe 2 ms.length ++
    natLe 8 d.beat.tick.toNat) d
def evHoldEnd (e : Env) (d : Data) : Data := raiseData e 0x0116 (natLe 8 d.beat.tick.toNat) d
def evMismatch (e : Env) (q : BitVec 8) (ms : List Nat) (d : Data) : Data :=
  raiseData e 0x0117 (natLe 1 q.toNat ++ (ms.take 24).flatMap (natLe 1)) d
def evBeatFault (e : Env) (origin cause : BitVec 8) (stamp : W64) (d : Data) : Data :=
  raiseData e 0x0118 (natLe 1 origin.toNat ++ natLe 1 cause.toNat ++ natLe 8 stamp.toNat) d
def evMemberLost (e : Env) (m : Nat) (d : Data) : Data := raiseData e 0x0119 (natLe 1 m) d

/-! ### The clock step (R144, R168, R169) -/

/-- want, and the lowest-numbered member that sets it; in a system of one the module itself, which its records name 0xFF
(R529). There too the words are those stamped at or before t − 9, which gives R168's leads (R167, log 76). -/
def wantedStep (d : Data) (t : Nat) : Option (Nat × BitVec 8) :=
  (agreedWords d t).foldl (fun b w =>
    let o := if inSystem d then w.origin else 0xFF
    match b with
    | none => some (min w.stepReq 12, o)
    | some (s, _) => if s < min w.stepReq 12 then some (min w.stepReq 12, o) else b) none

/-- Voltage of the tile rails at a step in mV (R143). -/
def stepMv (s : Nat) : Nat := [850, 830, 810, 790, 770, 750, 730, 710, 690, 670, 650, 635, 620].getD s 620

/-- What the tile rails stand at or move to, in µV: the higher of the step in force and of a faster step scheduled (R145). -/
def railGoal (g : BeatGen) : Nat :=
  1000 * max (stepMv g.step) (match g.pend with | some (p, _) => if p < g.step then stepMv p else 0 | none => 0)

/-- The tile rails after `len` cycles at the step in force: a rise of 5 mV/µs, or a fall, toward where they are to stand. -/
def railMove (len : Nat) (g : BeatGen) : Nat :=
  let goal := railGoal g
  if g.rail = goal then goal
  else if g.rail < goal then min goal (g.rail + 50 * len / (20 - g.step))
  else max goal (g.rail - Config.railFall * len / (100 * (20 - g.step)))

/-- The rail of a field's tiles in µV: with its fused trim (R143). -/
def fieldRail (d : Data) (f : Nat) : Nat := d.beat.rail + 1000 * (Config.railTrim f).val

/-- One evaluation of the step schedule at the boundary that closes tick `t` (R168). -/
def stepSchedule (t want : Nat) (g : BeatGen) : BeatGen :=
  let g1 := match g.pend with
    | none => g
    | some (p, pt) =>
      if p < g.step ∧ g.step ≤ want then { g with pend := none }
      else if g.step < p ∧ p < want then { g with pend := some (want, BitVec.ofNat 64 (max pt.toNat (t + 23))) }
      else g
  if g1.pend.isNone ∧ want ≠ g1.step then
    let lead := if g1.step < want then 23 else 55
    { g1 with pend := some (want, BitVec.ofNat 64 (max (t + lead) (g1.lastSwitch.toNat + 32))) }
  else g1

/-- The schedule with its governing modules (R169, R176): the member that set want when a step was scheduled governs from
the switch; a member that sets the step in force takes over without a switch, with a governor event. -/
def evalSteps (e : Env) (t : Nat) (d : Data) : Data :=
  match wantedStep d t with
  | none => d
  | some (want, m) =>
    let g := stepSchedule t want d.beat
    let keep := want == g.step && g.pend.isNone
    let d1 := { d with beat := { g with
      pendGov := if g.pend ≠ d.beat.pend then m else g.pendGov
      governor := if keep then m else g.governor } }
    if keep ∧ m ≠ d.beat.governor then evGovernor e d1 else d1

/-- The scheduled step comes into force (R144, R168). -/
def stepSwitch (e : Env) (d : Data) : Data :=
  match d.beat.pend with
  | none => d
  | some (p, pt) =>
    if d.beat.marking ∧ pt.toNat ≤ d.beat.tick.toNat then
      evStep e { d with beat := { d.beat with step := p, lastSwitch := pt, pend := none, governor := d.beat.pendGov } }
    else d

/-! ### Stretch (R147–R149) -/

/-- A carrying tile has reported done or a fatal fault in this beat (R55, R60). -/
def tileDone (t : Tile) : Bool :=
  match t.tstate with
  | .wait => true | .fault => true | .issue => false | _ => true

/-- Every carrying tile has reported done. -/
def allDone (d : Data) : Bool := d.tiles.all fun p => !carrying p.2 || tileDone p.2

/-- The cycle in which a carrying tile reported done, or its fatal fault, in the tick (R147); 0 when neither. -/
def doneAt (t : Tile) : Nat :=
  if !carrying t then 0
  else match t.tstate with
    | .wait => t.seq.lastDone
    | _ => t.report.getD 0

/-- The cycle by the end of which every carrying tile has reported done or a fatal fault; 1,999 at least. -/
def doneCycle (d : Data) : Nat := d.tiles.foldl (fun n p => max n (doneAt p.2)) 1999

/-- The catch-up stretch of the tick being closed (R148). -/
def catchUp (d : Data) : Nat :=
  if !inSystem d then 0 else
  d.plumb.markers.foldl (fun n p =>
    match p.2 with
    | some m =>
      let lag := (m.cstretch - d.beat.cstretch).toNat
      if m.tick.toNat + 1 = d.beat.tick.toNat ∧ lag < 2 ^ 31 then max n lag else n
    | none => n) 0

/-- The tick's stretch when every condition of R147 can be met within 256 cycles. -/
def stretchOf (d : Data) : Option Nat :=
  if d.beat.advancing ∧ !allDone d then none else
  let s := max (if d.beat.advancing then doneCycle d - 1999 else 0) (catchUp d)
  if 256 < s then none else some s

/-! ### Closing the tick -/

/-- A tile still busy when a tick of `len` cycles closes counts its cycles past 1,999, and its BEAT waits on (R56, R149). -/
def tileOverrun (len : Nat) (t : Tile) : Tile :=
  let late := len - 2000
  let t1 := { t with inst := { t.inst with overrun := t.inst.overrun + BitVec.ofNat 64 late } }
  setIntIf (decide (0 < late)) (match t.seq.beatAt with
    | none => t1
    | some b => countStall (beatCause t).toNat (len - b) { t1 with seq := { t1.seq with beatAt := some (b - len) } }) bitOverrun

/-- The cycles a busy tile's unfinished work waits for, counted on in the tick that follows one of `len` cycles. -/
def tileRebase (len : Nat) (t : Tile) : Tile :=
  let back (u : Truss) : Truss := { u with drains := u.drains.map fun d => { d with start := d.start - len } }
  { t with
    truss0 := back t.truss0
    truss1 := back t.truss1
    seq := { t.seq with
      board := t.seq.board.map fun x => { x with due := x.due - len }
      stored := t.seq.stored - len
      free := t.seq.free - len
      mFree := t.seq.mFree - len
      vFree := t.seq.vFree - len } }

/-- One tile at the boundary that closes a tick of `len` cycles (R56, R319–R324): its counters. -/
def tileClose (executed : Bool) (len : Nat) (t : Tile) : Tile :=
  if t.tstate = .off then t else
  let t1 := passTo len t
  let i := t1.inst
  let t2 := { t1 with inst := { i with
    beats := i.beats + BitVec.ofNat 64 (b2n (executed && (t.tstate == .issue || t.tstate == .wait))) } }
  if executed ∧ t.tstate = .wait then bumpFor (len - 1 - t.seq.lastDone) 0x01F 1 t2
  else if !executed ∧ t.tstate = .held then bump 0x070 1 t2
  else if t.tstate = .issue then tileRebase len (tileOverrun len t2)
  else t2

/-- The summary's share of a closed tick (R333): beats, ticks, cycles in WAIT, and the largest done cycle. -/
def sumClose (len : Nat) (d : Data) : Data :=
  let ex := d.beat.advancing
  let wait := if ex then d.tiles.foldl (fun n p =>
    if carrying p.2 && p.2.tstate == .wait then n + (len - 1 - p.2.seq.lastDone) else n) 0 else 0
  let top := if ex then d.tiles.foldl (fun (b : Nat × Nat) p =>
    if carrying p.2 && p.2.tstate == .wait && b.1 < p.2.seq.lastDone then
      (p.2.seq.lastDone, logicalPlace p.2) else b) (d.sum.maxDone, d.sum.maxDoneTile) else (d.sum.maxDone, d.sum.maxDoneTile)
  { d with sum := { d.sum with
    beats := d.sum.beats + b2n ex, ticks := d.sum.ticks + 1, waitCycles := d.sum.waitCycles + wait
    overrun := d.sum.overrun + d.tiles.foldl (fun n p =>
      if !carrying p.2 then n
      else match p.2.tstate with
        | .wait => if ex then n + (p.2.seq.lastDone - 1999) else n
        | .issue => n + (len - 2000)
        | _ => n) 0
    maxDone := top.1, maxDoneTile := top.2
    stalls := d.tiles.foldl (fun m p =>
      match p.2.seq.beatAt with
      | some b => if carrying p.2 && p.2.tstate == .issue then upd 0 m (beatCause p.2).toNat (· + (len - b)) else m
      | none => m) d.sum.stalls } }

/-- What a beat leaves behind is gone at its end: arms and exchange counts (R120, R191, R215). -/
def tileBeatEnd (t : Tile) : Tile :=
  { t with seq := { t.seq with done := false }, xfer := { t.xfer with armed := [], issuedX := [] } }

/-- The counts, tiles and stack arbiters at the end of a tick with stretch `s`. -/
def closeTick (e : Env) (s : Nat) (d : Data) : Data :=
  let len := 2000 + s
  let ex := d.beat.advancing
  let d1 := sumClose len d
  let d2 := editTiles e (fun _ _ t =>
    let t1 := windowBoundary (d.beat.tick + 1) (tileClose ex len t)
    let t2 := { t1 with seq := { t1.seq with cycle := 0 } }
    if ex then tileBeatEnd t2 else t2) d1
  let fields := mapListed Field.off (fun _ f => { f with arb := { f.arb with refresh := false } }) d2.fields
  { d2 with
    fields := fields
    beat := { d2.beat with
      tick := d.beat.tick + 1
      rail := railMove len d.beat
      count := d.beat.count + BitVec.ofNat 64 (b2n ex)
      cstretch := d.beat.cstretch + BitVec.ofNat 32 s
      frameStretched := d.beat.frameStretched + b2n (decide (0 < s))
      frameOverrun := d.beat.frameOverrun + s
      frameCycles := d.beat.frameCycles + (if ex then len else 0) } }

/-! ### Tiles at a boundary (R37, R56, R57, R216) -/

/-- The sequencer at cycle 0 of a beat that follows a finished one: every operation has completed. -/
def seqFresh (q : Seq) : Seq :=
  { q with
    board := []
    stored := 0
    free := 0
    mFree := 0
    vFree := 0 }

/-- A tile enters an executed beat: from bundle 0 at the first beat after a start, its loop stack empty and both truss
configurations zero (R37, R98); else where BEAT left it. -/
def tileGo (t : Tile) : Tile :=
  match t.tstate with
  | .wait => { t with tstate := .issue, seq := seqFresh t.seq }
  | .held => { t with tstate := .issue, seq := seqFresh t.seq }
  | .idle => if t.csr.logicalValid && t.csr.imemValid then
      { t with
        tstate := .issue
        seq := { seqFresh t.seq with
          pc := 0
          beatAt := none }
        regs := { t.regs with loops := [] }
        truss0 := { t.truss0 with cfg := 0 }
        truss1 := { t.truss1 with cfg := 0 } }
    else t
  | _ => t

/-- Deferred exchange records are issued again at cycle 0, in their order (R216). -/
def reissue (t : Tile) : Tile × Eff :=
  let q := t.xfer.deferred
  let t0 := { t with xfer := { t.xfer with deferred := [] } }
  q.foldl (fun (acc : Tile × Eff) x =>
    let (u, c, lim) := exchangeSend acc.1 x
    (u, { acc.2 with carried := acc.2.carried ++ c.toList, xlimited := acc.2.xlimited + b2n lim })) (t0, Eff.none)

/-- Beats stop: a waiting tile is held. -/
def tileHold (t : Tile) : Tile := match t.tstate with | .wait => { t with tstate := .held } | _ => t

/-- The tiles for the tick that follows. -/
def tilesNext (e : Env) (adv : Bool) (d : Data) : Data :=
  if adv then
    let d1 := editTiles e (fun _ _ t => tileGo t) d
    d1.tiles.foldl (fun x p =>
      if p.2.tstate = .issue ∧ !p.2.xfer.deferred.isEmpty then onTile e p.1 (fun _ t => reissue t) x else x) d1
  else editTiles e (fun _ _ t => tileHold t) d

/-- A stop takes effect (R21, R57, R58, R282): the run ends, every tile in ISSUE, WAIT or HELD takes its stop reset, and a
tile in FAULT or IDLE stays there with imem_valid 0 (R301, log 30); a migration is abandoned. -/
def stopRun (e : Env) (d : Data) : Data :=
  let d1 := followAll e <| editTiles e (fun _ _ t =>
    match t.tstate with
    | .issue => stopReset t | .wait => stopReset t | .held => stopReset t
    | .fault => { t with csr := { t.csr with imemValid := false } }
    | .idle => { t with csr := { t.csr with imemValid := false } }
    | _ => t) d
  { d1 with
    beat := { d1.beat with
      run := false, advancing := false, armed := none, atTurnPoint := none, afterHold := false, held := false
      pendFault := none }
    place := { d1.place with image := none, job := none, turnState := 0, code := 0, loadCheck := 0xFFFF, turnOk := 0 } }

/-! ### Faults, holds and orders at a boundary -/

/-- A beat fault is declared (R153): beats stop, and a state word with the cause is due. -/
def declareFault (e : Env) (cause : BitVec 8) (stamp : W64) (d : Data) : Data :=
  if d.beat.fault.isSome then d else
  evBeatFault e (ownModule d) cause stamp { d with
    beat := { d.beat with fault := some cause, faultShown := true, advancing := false, armed := none, atTurnPoint := none }
    j1 := { d.j1 with stamp := stamp }
    plumb := { d.plumb with wordDue := true } }

/-- The fault to declare at a boundary: the first detected, and the lower code when two fell in one cycle (R152). -/
def faultDue (ovr : Bool) (d : Data) : Option (BitVec 8) :=
  match d.beat.pendFault with
  | some c => some c
  | none =>
    let early := d.tiles.any fun p => match p.2.report with | some c => decide (c < 2255) || !ovr | none => false
    if early then some 2 else if ovr then some 1 else none

/-- Reports taken by the beat generator. -/
def clearReports (d : Data) : Data :=
  { d with
    tiles := mapListed Tile.off (fun _ t => { t with report := none }) d.tiles
    beat := { d.beat with pendFault := none } }

/-- A member's word that beats must stop for, once its stamp is 9 ticks old (R153). -/
def remoteFault (d : Data) (t : Nat) : Option StateWord :=
  if inSystem d then (agreedWords d t).find? fun w => w.beatFault && w.origin != ownModule d else none

/-- The members whose hold stops beats at the boundary that closes tick `t` (R164, R167). -/
def holders (d : Data) (t : Nat) : List Nat :=
  if inSystem d then (agreedWords d t).filterMap fun w => if w.hold then some w.origin.toNat else none
  else if d.j1.hold || d.j1.throttle then [(ownModule d).toNat] else []

/-- Two members carry one order seq with different op or turn (R166): the seq, and the members that differ from the
lowest-numbered one that carries it. A word with op 0 carries no pending order (R158). -/
def orderConflict (d : Data) : Option (BitVec 8 × List Nat) :=
  let ws := (members d).filterMap fun m => (latestWord d m).bind fun w => if w.op = 0 then none else some (m, w)
  (List.range ws.length).findSome? fun i =>
    match ws[i]? with
    | none => none
    | some (_, w) =>
      let odd := (ws.drop (i + 1)).filterMap fun p =>
        if p.2.orderSeq = w.orderSeq ∧ (p.2.op ≠ w.op ∨ p.2.turn ≠ w.turn) then some p.1 else none
      if odd.isEmpty then none else some (w.orderSeq, odd)

/-- The armed order's members' words agree on it (R165): the highest stamp among them. -/
def orderAgreed (d : Data) : Option Nat :=
  let o := d.j1.order
  (members d).foldl (fun acc m =>
    match acc, latestWord d m with
    | some n, some w =>
      if w.orderSeq = orderSeq o ∧ w.op = orderOp o ∧ w.turn = orderTurn o then some (max n w.stamp.toNat) else none
    | _, _ => none) (some 0)

/-- The armed order takes effect at the boundary that closes tick `t` (R165, R167). -/
def orderDue (d : Data) (t : Nat) : Bool :=
  orderArmed d && (!inSystem d || (match orderAgreed d with | some n => decide (n + 9 ≤ t) | none => false))

/-- R270's composition of the map of code h followed by that of code g, on the pairs (f, k). -/
def turnPair (c : Nat) : Nat × Nat :=
  match c with
  | 0 => (0, 0) | 1 => (0, 1) | 2 => (0, 2) | 3 => (0, 3) | 4 => (1, 3) | 5 => (1, 1) | 6 => (1, 0) | _ => (1, 2)

/-- The turn code of a pair. -/
def turnCode (p : Nat × Nat) : Nat :=
  ((List.range 8).find? fun c => turnPair c == p).getD 0

/-- The code in force after an order of `g` under `h` (R270). -/
def compose (h g : Nat) : Nat :=
  let (fh, kh) := turnPair h
  let (fg, kg) := turnPair g
  turnCode ((fg + fh) % 2, (kg + (if fg = 0 then kh else 4 - kh)) % 4)

/-- The due order acts once (R19, R21): stop ends the run; checkpoint and turn wait for a turn point; start and resume
wait for beats to be free. Codes R17 does not define are acted on with no effect. -/
def actOrder (e : Env) (d : Data) : Data :=
  let op := orderOp d.j1.order
  let d1 := { d with j1 := { d.j1 with acted := orderSeq d.j1.order } }
  if op = 3 then stopRun e d1
  else if op = 4 ∧ d.beat.run then
    { d1 with
      beat := { d1.beat with atTurnPoint := some none }
      place := { d1.place with turnState := if d1.place.turnState = 1 then 0 else d1.place.turnState } }
  else if op = 5 ∧ d.beat.run then
    { d1 with
      beat := { d1.beat with atTurnPoint := some (some (orderTurn d.j1.order)) }
      place := { d1.place with turnState := 1 } }
  else if op = 1 then { d1 with
    fields := d1.fields.map fun p => (p.1, { p.2 with chanUncorr := [] })
    beat := { d1.beat with run := true, armed := some true } }
  else if op = 2 ∧ d.beat.run then { d1 with beat := { d1.beat with armed := some false } }
  else d1

/-- The order-mismatch event, once for each seq that the members' words carry with different orders (R166, R176). -/
def raiseMismatch (e : Env) (d : Data) : Data :=
  if !inSystem d then d
  else match orderConflict d with
    | none => { d with plumb := { d.plumb with mismatchRaised := none } }
    | some (q, ms) =>
      if d.plumb.mismatchRaised = some q then d
      else evMismatch e q ms { d with plumb := { d.plumb with mismatchRaised := some q } }

/-- Orders at the boundary that closes tick `t`. -/
def orders (e : Env) (t : Nat) (d : Data) : Data := if orderDue d t then actOrder e d else raiseMismatch e d

/-- The boundary just closed is a turn point (R275). -/
def isTurnPoint (executed : Bool) (d : Data) : Bool :=
  match d.place.image with
  | some i => executed && i.header.tpPeriod != 0 && d.beat.count.toNat % i.header.tpPeriod == 0
  | none => false

/-- A pending checkpoint or turn takes effect at a turn point (R277, R278): beats stop and the migration begins. The
boundary that closes tick E + 9 begins tick E + 10 and may itself be the turn point of R165 (DESIGN CHOICE, log 77). -/
def turnPoint (e : Env) (executed : Bool) (d : Data) : Data :=
  match d.beat.atTurnPoint with
  | none => d
  | some g =>
    if isTurnPoint executed d then
      { d with
        beat := { d.beat with atTurnPoint := none, advancing := false, armed := none }
        place := { d.place with
          turnState := if g.isSome then 2 else d.place.turnState
          job := some ⟨0, g.isNone, (g.map (compose d.place.code)).getD d.place.code, e.ts, d.beat.count⟩ } }
    else d

/-! ### Plumb at a boundary -/

/-- The candidate upstream engines: those whose marker was received in the tick just closed and carries a root, lowest hop
first, then north, east, south, west, then index (R162). Engine indices already run in that order. -/
def upstream (d : Data) (t : W64) : Option (Nat × MarkerIn) :=
  (List.range 48).foldl (fun b i =>
    match look none d.plumb.markers i with
    | some m =>
      if m.at_ = t ∧ m.hop < 31 ∧ (engineOf d i).state = .up ∧ some m.root = d.plumb.root then
        match b with
        | some (_, x) => if m.hop < x.hop then some (i, m) else b
        | none => some (i, m)
      else b
    | none => b) none

/-- Markers leave on every engine in service at the boundary that closes tick `t`, once the cabled engines have finished
training (R157, R242). -/
def sendMarkers (t : W64) (d : Data) : Data :=
  if !inSystem d ∨ !d.plumb.trained then d else
  let own := ownModule d
  let isRoot := d.plumb.root == some own
  let up := upstream d t
  let hop := if isRoot then 0 else match up with | some (_, m) => min (m.hop + 1) 31 | none => 31
  let rt := if isRoot then t else d.plumb.rtick
  let w := markerBits (d.plumb.root.getD 0xFF) (d.plumb.backup.getD 0xFF) hop d.beat.cstretch rt t
  { d with
    plumb := { d.plumb with hop := hop, rtick := rt }
    engines := mapListed Engine.off (fun _ g => if g.state = .up then { g with markerDue := some w } else g) d.engines }

/-- The eligible members, lowest first (R155). -/
def eligibles (d : Data) : List Nat :=
  match d.desc with
  | some s => (members d).filter fun m => s.eligible.getLsbD m
  | none => []

/-- The election is due: a word from every member, and no assembly yet. -/
def electionDue (d : Data) : Bool :=
  inSystem d && !d.plumb.assembled && d.plumb.trained && (members d).all fun m => (latestWord d m).isSome

/-- Election at the first boundary with a word from every member (R155, R242). The root's tick count starts again, and the
changes known so far count as made at its start (log 78). -/
def elect (e : Env) (d : Data) : Data :=
  if !electionDue d then d
  else
    let el := eligibles d
    let root := (el[0]?).map (BitVec.ofNat 8)
    let own := root == some (ownModule d)
    let b := d.beat
    let tick := if own then 0 else b.tick
    let p := d.plumb
    let old := p.words.map fun x => (x.1, x.2.map fun w => { w with stamp := 0 })
    evRootElected e { d with
      plumb := { p with
        root := root, backup := (el[1]?).map (BitVec.ofNat 8), assembled := true, synced := own, wordDue := true
        rtick := if own then -1 else tick, words := old, heard := p.heard.map fun x => (x.1, tick), lastSent := tick }
      j1 := { d.j1 with stamp := 0 }
      beat := { b with tick := tick, step := 12, pend := none, lastSwitch := tick, cstretch := 0 } }

/-- The word the module sends (R158): a module that could not lock sends no armed order (R156). -/
def ownWord (d : Data) : StateWord :=
  { origin := ownModule d, wseq := d.plumb.wseq + 1, stepReq := ownStepReq d
    hold := d.j1.hold || d.j1.throttle || d.plumb.rootLost
    beatFault := d.beat.fault.isSome, rootClaim := d.plumb.rootClaim, locked := d.plumb.locked
    orderSeq := orderSeq d.j1.order, turn := orderTurn d.j1.order
    op := if orderArmed d && (!inSystem d || d.plumb.locked) then orderOp d.j1.order else 0
    cause := d.beat.fault.getD 0, stamp := d.j1.stamp }

/-- The module's own word stands among the members' words. -/
def keepOwn (w : StateWord) (d : Data) : Data :=
  { d with plumb := { d.plumb with
    wseq := w.wseq
    words := upd [] d.plumb.words (ownModule d).toNat (insertWord d.beat.tick.toNat w) } }

/-- In a system of one the module knows its own word at once (R167). -/
def knowOwn (d : Data) : Data := if inSystem d then d else keepOwn (ownWord d) d

/-- The J1 items latched since the last boundary carry its tick as their stamp, and a word is due (R142, R158). -/
def stampJ1 (t : W64) (d : Data) : Data :=
  if d.j1.changed then
    knowOwn { d with j1 := { d.j1 with changed := false, stamp := t }, plumb := { d.plumb with wordDue := true } }
  else d

/-- A step change is owed: scheduled, agreed, or, in a system of one, latched (R21 row 7). -/
def stepOwed (t : Nat) (d : Data) : Bool :=
  d.beat.pend.isSome || (!inSystem d && ownStepReq d != d.beat.step) ||
    (match wantedStep d t with | some (w, _) => w != d.beat.step | none => false)

/-- Whether beats advance in the tick that follows, and the events of a hold's start and end (R21, R164, R176). After a
hold, beats wait for a step change that is owed (R21 row 7). -/
def resolveBeats (e : Env) (executed : Bool) (t : Nat) (d : Data) : Data :=
  let hs := holders d t
  let b := d.beat
  let free := hs.isEmpty && b.fault.isNone && !b.faultShown && !b.halted && b.run && d.place.job.isNone &&
    !(b.held && stepOwed t d)
  let adv := free && (b.advancing || b.armed.isSome)
  let stopped := executed && !adv && !hs.isEmpty && b.run && !b.faultShown
  let d1 := { d with beat := { b with
    advancing := adv
    armed := if adv then none else b.armed
    afterHold := (b.afterHold || stopped) && !adv
    held := (b.held || (b.run && !hs.isEmpty)) && !adv
    gated := d.j1.throttle && !adv } }
  let d2 := if stopped then evHoldStart e hs d1 else d1
  tilesNext e adv (if adv ∧ b.afterHold then evHoldEnd e d2 else d2)

/-- A beat fault whose condition first holds at a boundary (R163): nothing detected before it stands. -/
def noteLast (cause : Nat) (ovr : Bool) (d : Data) : Data := if ovr then d else noteFault cause d

/-- The upstream marker of the tick being closed steers the module (R161–R163): its phase error, the alignment warning, and
the fault of an error of 32 cycles or more. -/
def steer (e : Env) (ovr : Bool) (d : Data) : Data :=
  match upstream d d.beat.tick with
  | none => d
  | some (_, m) =>
    let q := d.plumb
    let d1 := { d with plumb := { q with phaseError := m.err } }
    let d2 := if m.err ≤ 8 then d1 else
      let d' := { d with plumb := { q with phaseError := m.err, alignWarnings := q.alignWarnings + 1, warnedFrame := true } }
      if q.warnedFrame then d' else evAlign e d'
    if 32 ≤ m.err then noteLast 4 ovr d2 else d2

/-- After the election a member takes its tick count from its upstream marker (R242): the tick being closed is the one after
the tick whose boundary sent the marker. Its schedule starts again with the root's count (log 78). -/
def syncTick (d : Data) : Data :=
  if !d.plumb.assembled ∨ d.plumb.synced then d
  else match upstream d d.beat.tick with
    | none => d
    | some (_, m) =>
      let t : W64 := ((m.tick + 1).setWidth 48).setWidth 64
      { d with
        beat := { d.beat with tick := t, lastSwitch := 0, pend := none }
        plumb := { d.plumb with
          synced := true, rtick := nearTick m.tick m.rtick, lastSent := t, heard := d.plumb.heard.map fun x => (x.1, t)
          markers := d.plumb.markers.map fun x => (x.1, x.2.map fun y => if y.at_ = d.beat.tick then { y with at_ := t } else y) } }

/-- A boundary (R141–R176, R21): the tick of `s` stretch cycles closes, faults are declared, the latched inputs are
resolved in R21's order, the tiles enter the next tick, markers leave and the step schedule is evaluated. The boundary of
an election closes the tick before tick 0 of the root's count; a member evaluates the schedule again once it has taken its
count. -/
def boundary (e : Env) (ovr : Bool) (s : Nat) (dIn : Data) : Data :=
  let d0 := steer e ovr (syncTick dIn)
  let t := d0.beat.tick
  let ex := d0.beat.advancing
  let due := faultDue ovr d0
  let d1 := stampJ1 t (closeTick e s d0)
  let d2 := match due with
    | some c => if c = 2 ∧ !d1.beat.run then clearReports d1 else declareFault e c t (clearReports d1)
    | none => d1
  let d3 := match remoteFault d2 t.toNat with
    | some w => if d2.beat.faultShown then d2 else
        evBeatFault e w.origin w.cause w.stamp { d2 with beat := { d2.beat with faultShown := true, advancing := false } }
    | none => d2
  let d4 := orders e t.toNat d3
  let d5 := turnPoint e ex d4
  let d6 := resolveBeats e ex t.toNat d5
  let d7 := elect e d6
  if electionDue d6 then sendMarkers (if d7.plumb.synced then -1 else t) d7
  else if inSystem d7 ∧ d7.plumb.assembled ∧ !d7.plumb.synced then sendMarkers t d7
  else evalSteps e t.toNat (sendMarkers t d7)

/-- A tick ends within its bounds (R147). -/
def beatBoundary (e : Env) (d : Data) : Data :=
  if d.on ∧ d.beat.marking then
    match stretchOf d with
    | some s => boundary e false s d
    | none => d
  else d

/-- The tick closes at the end of cycle 2,255 with a stretch of 256 and a beat fault (R149). -/
def beatOverrun (e : Env) (d : Data) : Data :=
  if d.on ∧ d.beat.marking ∧ (stretchOf d).isNone then boundary e true 256 d else d

/-! ### J1 (R17–R20) -/

/-- step_req, hold_req and throttle as Skour writes them; the data plane latches each while it is powered. -/
structure J1Levels where
  stepReq : Nat
  hold : Bool
  throttle : Bool
deriving DecidableEq, Repr

/-- The levels latched for the next boundary (R18). -/
def latchLevels (x : J1Levels) (d : Data) : Data :=
  if !d.on ∨ (d.j1.stepReq = x.stepReq ∧ d.j1.hold = x.hold ∧ d.j1.throttle = x.throttle) then d
  else { d with j1 := { d.j1 with stepReq := x.stepReq, hold := x.hold, throttle := x.throttle, changed := true } }

/-- An order word latched (R19): one with an unchanged seq is ignored; while J3 HALT stands it is discarded at once (R21).
An accepted start begins a run (R60). -/
def latchOrder (o : BitVec 16) (d : Data) : Data :=
  if !d.on ∨ orderSeq d.j1.order = orderSeq o then d
  else
    let fresh := orderSeq o != d.j1.acted
    { d with
      j1 := { d.j1 with
        order := o, changed := true, acted := if d.beat.halted then orderSeq o else d.j1.acted }
      beat := { d.beat with run := d.beat.run || (fresh && orderOp o == 1 && !d.beat.halted) } }

/-! ### J3 in the data plane (R21, R152, R542) -/

/-- The beat generator stops marking boundaries: from then on every rule takes the step as 12 (R144). -/
def stopMarking (g : BeatGen) : BeatGen := { g with marking := false, step := 12, pend := none, rail := 620000 }

/-- HALT: the beat generator and beats stop at once, pending J1 orders are discarded with the turn that waited, and a
migration is abandoned (R17, R21, R282). -/
def haltBeats (d : Data) : Data :=
  { d with
    j1 := { d.j1 with acted := orderSeq d.j1.order }
    beat := { stopMarking d.beat with
      halted := true, advancing := false, armed := none, atTurnPoint := none
      haltTick := if d.beat.halted then d.beat.haltTick else d.beat.tick }
    place := { d.place with
      job := none, turnState := if d.place.turnState = 1 ∨ d.place.turnState = 2 then 0 else d.place.turnState } }

/-- TILE_PWR_EN falls: every tile is off (R57). -/
def dropTiles (e : Env) (d : Data) : Data :=
  followAll e { editTiles e (fun _ _ _ => Tile.off) d with tilePwrEn := false }

/-- The module-halted fault, declared at once while a run exists, with the tick during which HALT acted (R152). -/
def haltFault (e : Env) (d : Data) : Data := if d.beat.run then declareFault e 7 d.beat.haltTick d else d

/-- The beat generator raises HALTED (R542). -/
def haltedRise (e : Env) (d : Data) : Data :=
  if d.beat.halted ∧ !d.beat.haltedOut then
    haltFault e { d with beat := { d.beat with haltedOut := true } }
  else d

/-- 2 µs after HALT the fault is declared though HALTED has not come (R152). -/
def haltedLate (e : Env) (d : Data) : Data := if d.beat.halted ∧ !d.beat.haltedOut then haltFault e d else d

/-! ### Plumb's own events -/

/-- The word that is sent: on a latched change, a new root or a beat fault, which may be declared after boundaries are no
longer marked (R153), and at least once every 1,024 ticks (R158); in a system only once its engines have trained (R242). -/
def wordWaits (d : Data) : Bool :=
  d.on && (!inSystem d || d.plumb.trained) && (d.beat.marking || d.beat.fault.isSome) &&
    (d.plumb.wordDue || decide (d.plumb.lastSent.toNat + 1024 ≤ d.beat.tick.toNat))

/-- The module sends its own word when one is due (R158, R159). -/
def wordSend (d : Data) : Data :=
  if wordWaits d then
    let w := ownWord d
    let d1 := keepOwn w d
    floodWord 48 (wordBits w) { d1 with plumb := { d1.plumb with
      lastSent := d.beat.tick, wordDue := false, sent := some w
      heard := put 0 d.plumb.heard (ownModule d).toNat d.beat.tick } }
  else d

/-- The engine's first received word is taken (R159, R160, R171): a copy already seen is dropped; the first one is
forwarded and becomes its member's word. Lateness is judged from assembly on: before it the counts are each module's own
(R142, R160, log 78). -/
def wordReceive (i : Nat) (d : Data) : Data :=
  match (engineOf d i).wordsIn with
  | [] => d
  | x :: rest =>
    let d0 := editEngine i (fun g => { g with wordsIn := rest }) d
    match wordOf x with
    | none => d0
    | some w =>
      let o := w.origin.toNat
      if w.origin = ownModule d ∨ w.wseq ∈ look [] d.plumb.seen o then d0
      else
        let p := d0.plumb
        let d1 := floodWord i x { d0 with plumb := { p with
          seen := upd [] p.seen o (fun l => w.wseq :: l.take 63)
          words := upd [] p.words o (insertWord d.beat.tick.toNat w)
          heard := put 0 p.heard o d.beat.tick
          takeover := if w.rootClaim && p.backup == some w.origin && p.takeover.isNone then some (w.stamp + 32)
            else p.takeover } }
        if w.stamp.toNat + 9 < d.beat.tick.toNat ∧ p.assembled then noteFault 3 d1 else d1

/-- The phase error in cycles against a sender's boundary that lies `b` sixteenths of an LCLK cycle after this module's own
(R161, R229, log 86): corrected for the difference of the two cumulative stretches, in cycles of the step in force. -/
def phaseErr (b : Int) (theirs : W32) (d : Data) : Nat :=
  (b * (2 * (20 - d.beat.step : Nat)) / 425 - (theirs - d.beat.cstretch).toInt).natAbs

/-- The engine's received marker is taken (R157, R161, R170, R172): it counts at the boundary that closes the tick. -/
def markerReceive (i : Nat) (d : Data) : Data :=
  match (engineOf d i).markerIn with
  | none => d
  | some (x, b) =>
    let d0 := editEngine i (fun g => { g with markerIn := none }) d
    match markerOf d.beat.tick (phaseErr b (x.extractLsb' 64 32) d) x with
    | none => d0
    | some m =>
      let p := d0.plumb
      let rt := nearTick d.beat.tick m.rtick
      let follows := p.assembled && some m.root == p.root && decide (m.hop < 31)
      { d0 with plumb := { p with
        markers := put none p.markers i (some m)
        rtick := if follows && p.synced && p.rtick.slt rt then rt else p.rtick
        backup := if follows then (if m.backup = 0xFF then none else some m.backup) else p.backup } }

/-- The module's tile PLLs lock to the root, or cannot (R156, R176). -/
def plumbLock (e : Env) (ok : Bool) (d : Data) : Data :=
  if d.on ∧ d.beat.marking then
    let d1 := { d with plumb := { d.plumb with locked := ok, wordDue := true }, j1 := { d.j1 with stamp := d.beat.tick } }
    if ok ≠ d.plumb.locked ∨ !ok then evLock e d1 else d1
  else d

/-- The root's freshest tick is more than 20 ticks older than the tick that the latest boundary closed (R170, R171, R173):
21 ticks after the root's last marker. -/
def rootLost (d : Data) : Data :=
  let p := d.plumb
  if inSystem d ∧ p.assembled ∧ p.synced ∧ p.root ≠ some (ownModule d) ∧ !p.rootLost ∧
      p.rtick.toInt + 20 < d.beat.tick.toInt - 1 then
    let own := p.backup == some (ownModule d)
    let t := d.beat.tick - 1
    let d1 := { d with
      plumb := { p with
        rootLost := true, wordDue := true, rootClaim := own
        takeover := if own then some (t + 32) else p.takeover }
      j1 := { d.j1 with stamp := t } }
    if p.backup.isNone then noteFirst 6 d1 else d1
  else d

/-- The lowest eligible member other than the ones named. -/
def nextEligible (d : Data) (but : List Nat) : Option (BitVec 8) :=
  ((eligibles d).find? fun m => !but.contains m).map (BitVec.ofNat 8)

/-- The takeover tick (R170–R172): the backup is root, the next eligible member is backup. -/
def rootTakeover (e : Env) (d : Data) : Data :=
  match d.plumb.takeover, d.plumb.backup with
  | some t, some b =>
    if t.toNat ≤ d.beat.tick.toNat then
      let own := b == ownModule d
      let d1 := evRootElected e { d with
        plumb := { d.plumb with
          root := some b, backup := nextEligible d [b.toNat], rootLost := false, rootClaim := false, takeover := none
          failoverAt := some d.beat.tick, locked := own, wordDue := true, rtick := d.beat.tick }
        j1 := { d.j1 with stamp := d.beat.tick } }
      if own ≠ d.plumb.locked then evLock e d1 else d1
    else d
  | _, _ => d

/-- The root names a new backup after 2,048 ticks of the old one's silence (R172). -/
def backupRedesignate (d : Data) : Data :=
  match d.plumb.backup with
  | some b =>
    if d.plumb.root = some (ownModule d) ∧ (look 0 d.plumb.heard b.toNat).toNat + 2048 ≤ d.beat.tick.toNat then
      { d with plumb := { d.plumb with backup := nextEligible d [(ownModule d).toNat, b.toNat] } }
    else d
  | none => d

/-- A member has been silent for 2,048 ticks of a run (R175). -/
def memberLost (e : Env) (m : Nat) (d : Data) : Data :=
  if inSystem d ∧ d.beat.run ∧ isMember d m ∧ m ≠ (ownModule d).toNat ∧
      (look 0 d.plumb.heard m).toNat + 2048 ≤ d.beat.tick.toNat then
    noteFirst 5 (evMemberLost e m d)
  else d

/-- The cabled sides with no engine in service (R242). -/
def deadSide (d : Data) : Bool :=
  [Side.north, Side.east, Side.south, Side.west].any fun s => !uncabled d s && (nearestUp d s 0).isNone

/-- Assembly fails (R242): a cabled side has no engine in service, or a member has sent no word within 2 s of the
module's training end. The event names the first missing member, or 0xFF when a side is dead. -/
def assemblyIncomplete (e : Env) (d : Data) : Data :=
  if !inSystem d ∨ d.plumb.assembled ∨ d.plumb.incomplete ∨ !d.plumb.trained then d else
  let missing := (members d).find? fun m => (latestWord d m).isNone
  let late := decide (d.plumb.trainedAt.toNat + 2000000000 ≤ e.ts.toNat)
  if deadSide d ∨ (late ∧ missing.isSome) then
    raiseData e 0x0125 (natLe 1 (missing.getD 0xFF)) { d with plumb := { d.plumb with incomplete := true } }
  else d

/-- A root failover has settled (R174). -/
def settled (d : Data) : Bool :=
  match d.plumb.failoverAt with
  | none => true
  | some t => (members d).all fun m =>
      match latestWord d m with
      | some w => w.locked && !w.beatFault && decide (t.toNat ≤ w.stamp.toNat)
      | none => false

/-! ### The data plane's power, and the J4 snapshot -/

/-- The data plane powers up (R19, R142, R313): everything at its reset value, the order J1 presents taken as acted on.
The system description and the stack channels marked for retraining are kept. -/
def dataPowerUp (j : J1Levels) (o : BitVec 16) (d : Data) : Data :=
  { Data.reset with
    on := true, desc := d.desc, free := d.free
    j1 := ⟨j.stepReq, j.hold, j.throttle, o, orderSeq o, 0, false⟩
    fields := mapListed Field.off (fun _ f => { Field.off with retrain := f.retrain }) d.fields
    hosts := mapListed HostEngine.off (fun _ g => { HostEngine.off with pfc := g.pfc }) d.hosts }

/-- The data plane loses its power. -/
def dataPowerDown (d : Data) : Data :=
  { Data.reset with
    desc := d.desc, free := d.free
    fields := mapListed Field.off (fun _ f => { Field.off with retrain := f.retrain }) d.fields
    hosts := mapListed HostEngine.off (fun _ g => { HostEngine.off with pfc := g.pfc }) d.hosts }

/-- The assembly of a system of one (R142, R155, R176): the module is root where it is eligible, and knows its own word. -/
def assembleOne (e : Env) (d : Data) : Data :=
  if inSystem d then d
  else
    let ok := match d.desc with | some s => s.eligible.getLsbD s.own.toNat | none => true
    evRootElected e (knowOwn { d with plumb := { d.plumb with
      root := if ok then some (ownModule d) else none, hop := if ok then 0 else 31 } })

/-- The beat generator begins marking boundaries (R141, R142, R144). -/
def beginMarking (e : Env) (d : Data) : Data :=
  if d.beat.marking ∨ !d.on then d
  else assembleOne e { d with
    beat := { d.beat with
      marking := true, tick := 0, step := 12, pend := none, lastSwitch := 0, gated := d.j1.throttle
      governor := if inSystem d then d.beat.governor else 0xFF
      pendGov := if inSystem d then d.beat.pendGov else 0xFF }
    plumb := { d.plumb with hop := 31 } }

/-- Clip to an unsigned field of `n` bytes. -/
def clipLe (n v : Nat) : List Byte := natLe n (min v (256 ^ n - 1))

/-- The counter summary's 512 B (R333). -/
def summaryBytes (s : Summary) : List Byte :=
  clipLe 4 s.beats ++ clipLe 4 s.ticks ++ natLe 8 s.bundles ++ natLe 8 s.chunks ++ natLe 8 s.overrun ++
    natLe 2 s.maxDone ++ natLe 2 s.maxDoneTile ++ clipLe 4 s.nans ++ clipLe 4 s.escapes ++ clipLe 4 s.xlimited ++
    clipLe 4 s.lateLands ++ clipLe 4 s.ecc ++ natLe 8 0 ++ natLe 8 s.waitCycles ++
    (List.range 15).flatMap (fun c => natLe 8 (look 0 s.stalls (c + 1))) ++
    (List.range 8).flatMap (fun c => natLe 8 (look 0 s.scarf c)) ++
    (List.range 64).flatMap (fun f => clipLe 4 (look 0 s.stack f))

/-- Zone activity byte z (R334). -/
def zoneActivity (d : Data) (z : Nat) : Nat :=
  let n := d.tiles.foldl (fun k p => if carrying p.2 && fieldZone (tileField p.1) == z then k + 1 else k) 0
  let den := 2 * n * d.beat.frameCycles
  if den = 0 then 0 else min 255 (255 * look 0 d.sum.zones z / den)

/-- The J4 snapshot's 1 KiB (R529); `droop` holds the field rails' minima as measured. -/
def snapshotBytes (e : Env) (droop : Nat → Byte) (d : Data) : List Byte :=
  let b := d.beat
  let flags := b2n b.advancing + 2 * b2n (b.run && !b.advancing) + 4 * b2n b.faultShown + 8 * b2n b.gated +
    16 * b2n d.plumb.locked
  natLe 8 b.count.toNat ++ natLe 8 b.tick.toNat ++ natLe 1 b.step ++ natLe 1 flags ++
    natLe 1 (b.fault.getD 0).toNat ++ natLe 1 d.j1.acted.toNat ++
    natLe 1 (if inSystem d then b.governor.toNat else 0xFF) ++ natLe 1 (d.plumb.root.getD 0xFF).toNat ++
    natLe 1 (d.plumb.backup.getD 0xFF).toNat ++ natLe 1 0 ++ clipLe 4 b.frameStretched ++ clipLe 4 b.frameOverrun ++
    (List.range 16).flatMap (fun z => natLe 1 (zoneActivity d z)) ++ (List.range 64).map droop ++
    natLe 8 e.ts.toNat ++ List.replicate 392 0 ++ summaryBytes d.sum

/-- The per-frame accumulators start again once the snapshot is taken (R151, R163, R237, R253, R333). -/
def snapshotTaken (d : Data) : Data :=
  { d with
    sum := Summary.zero
    beat := { d.beat with frameStretched := 0, frameOverrun := 0, frameCycles := 0 }
    plumb := { d.plumb with warnedFrame := false }
    engines := mapListed Engine.off (fun _ g => { g with lateRaised := false, laneCorr := [] }) d.engines }

end Sys2Proof.Machine
end

