-- ==== Sys2Proof/Machine/Image.lean ====
section
/-!
DEFINITION. The image (R255–R259) and the loader's checks 2 to 9 with the load report (R260, R261).
-/

namespace Sys2Proof.Machine

/-- A little-endian field of `n` bytes at an offset. -/
def fieldAt (m : Memory) (off n : Nat) : Nat := leNat (readBytes m off n)

/-! ### Received ranges -/

/-- A range of bytes joined to the received ranges. -/
def addRange (lo hi : Nat) (rs : List (Nat × Nat)) : List (Nat × Nat) :=
  let apart := rs.filter fun r => r.2 < lo || hi < r.1
  let near := rs.filter fun r => !(r.2 < lo || hi < r.1)
  if hi ≤ lo then rs
  else (near.foldl (fun a r => min a r.1) lo, near.foldl (fun a r => max a r.2) hi) :: apart

/-- Every byte from `lo` up to `hi` has been received. -/
def hasRange (lo hi : Nat) (rs : List (Nat × Nat)) : Bool := hi ≤ lo || rs.any fun r => r.1 ≤ lo && hi ≤ r.2

/-! ### Header and section table -/

/-- The header's fields (R256). -/
def readHeader (m : Memory) : ImgHeader :=
  { sectionCount := fieldAt m 0x008 4, tableOff := fieldAt m 0x010 8, sizeX := fieldAt m 0x018 1
    sizeY := fieldAt m 0x019 1, scarfDelay := fieldAt m 0x01A 1, minStep := fieldAt m 0x01B 1
    rmode := fieldAt m 0x01C 1 % 4, turnMask := fieldAt m 0x01D 1, widths := fieldAt m 0x020 4
    tpPeriod := fieldAt m 0x024 4, srKey := BitVec.ofNat 64 (fieldAt m 0x028 8), storeMax := fieldAt m 0x030 4
    turnStore := fieldAt m 0x034 4, stackMax := fieldAt m 0x038 8, turnStack := fieldAt m 0x040 8
    turnMs := (List.range 8).map fun t => fieldAt m (0x048 + 2 * t) 2
    xcap := (List.range 16).map fun c => (fieldAt m (0x058 + 2 * c) 1, fieldAt m (0x059 + 2 * c) 1 % 2 == 1) }

/-- Section table entry `i` (R257). -/
def readSect (m : Memory) (h : ImgHeader) (i : Nat) : SectEntry :=
  let b := h.tableOff + 80 * i
  { kind := fieldAt m b 2, module := fieldAt m (b + 2) 1, row := fieldAt m (b + 3) 1, col := fieldAt m (b + 4) 1
    offset := fieldAt m (b + 8) 8, length := fieldAt m (b + 16) 8, digest := readBytes m (b + 24) 48 }

/-- The section table. -/
def readTable (m : Memory) (h : ImgHeader) : List SectEntry := (List.range h.sectionCount).map (readSect m h)

/-- The end of the signed region, where the signature block stands (R255). -/
def signedEnd (h : ImgHeader) : Nat := h.tableOff + 80 * h.sectionCount

/-- The image as the loader holds it. -/
def readImage (m : Memory) : Image :=
  let h := readHeader m
  ⟨h, readTable m h, sha384 (readBytes m 0 (signedEnd h)), m⟩

/-- w[fc]. -/
def widthOf (h : ImgHeader) (fc : Nat) : Nat := bits (4 * fc + 3) (4 * fc) h.widths

/-- The sum of a pattern below `n`. -/
def sumBelow (u : Nat → Nat) (n : Nat) : Nat := (List.range n).foldl (fun a g => a + u g) 0

/-- cl, the logical columns. -/
def logicalCols (h : ImgHeader) : Nat := sumBelow (widthOf h) 8

/-- The field column of column `c` of a pattern, and the index within it. -/
def columnField (u : Nat → Nat) (c : Nat) : Nat × Nat :=
  let fc := ((List.range 8).find? fun f => c < sumBelow u (f + 1)).getD 7
  (fc, c - sumBelow u fc)

/-- Kinds of one section per logical tile, per logical field, and for the whole image (R257). -/
def tileKind (k : Nat) : Bool := decide (1 ≤ k) && decide (k ≤ 5)
def fieldKind (k : Nat) : Bool := k == 6 || k == 7
def wholeKind (k : Nat) : Bool := k == 8

/-- Check 2: well formed, and every kind known. -/
def wellFormed (m : Memory) (len : Nat) : Bool :=
  let h := readHeader m
  decide (fieldAt m 0 4 = 0x4B545739) && decide (fieldAt m 4 2 = 1) && decide (fieldAt m 6 2 = 1024) &&
    decide (1024 ≤ len) && decide (h.tableOff % 64 = 0) && decide (1024 ≤ h.tableOff) &&
    decide (signedEnd h + 112 ≤ len) &&
    (readTable m h).all fun s =>
      (tileKind s.kind || fieldKind s.kind || wholeKind s.kind) && s.offset % 64 == 0 && decide (s.offset + s.length ≤ len) &&
        (s.kind != 1 || s.length % 16 == 0) && (s.kind != 2 || s.length == 65536) && (s.kind != 3 || s.length == 256) &&
        (!(s.kind == 4 || s.kind == 6) || s.length % 16 == 0) && (!(s.kind == 5 || s.kind == 7) || decide (8 ≤ s.length)) &&
        (s.kind != 8 || (s.module == 0xFF && decide (s.length ≤ 65536)))

/-- A key that tells section places apart. -/
def sectKey (s : SectEntry) : Nat := ((s.kind * 256 + s.module) * 256 + s.row) * 256 + s.col

/-- Some value stands twice. -/
def hasDup : List Nat → Bool
  | [] => false
  | x :: xs => xs.contains x || hasDup xs

/-- A section names a logical tile or field of the declared mesh. -/
def inMesh (h : ImgHeader) (s : SectEntry) : Bool :=
  if wholeKind s.kind then true
  else
    decide (s.module % 16 ≤ h.sizeX) && decide (s.module / 16 ≤ h.sizeY) &&
      (if tileKind s.kind then decide (s.row < 32) && decide (s.col < logicalCols h)
       else decide (s.row < 8) && decide (s.col < 8))

/-- The keys of the sections this module must hold once: one of each kind per logical tile or field. The profile may be
missing (R362). -/
def neededKeys (h : ImgHeader) (own : Nat) : List Nat :=
  let key (k r c : Nat) : Nat := ((k * 256 + own) * 256 + r) * 256 + c
  [1, 2, 3, 4, 5].flatMap (fun k => (List.range 32).flatMap fun r => (List.range (logicalCols h)).map (key k r)) ++
    [6, 7].flatMap fun k => (List.range 8).flatMap fun r => (List.range 8).map (key k r)

/-- Check 3. -/
def sectionsRight (h : ImgHeader) (ss : List SectEntry) (own : Nat) : Bool :=
  let keys := ss.map sectKey
  !hasDup keys && (ss.all (inMesh h)) && (neededKeys h own).all keys.contains

/-! ### Repair map and capacity (R265, R266) -/

/-- A repair map as the set of failed tiles 40·pr + pc. -/
abbrev Repair := SMap Bool

/-- The repair map its 160 bytes spell. -/
def repairOf (bs : List Byte) : Repair :=
  (List.range 1280).foldl (fun m i =>
    if (bs.getD (i / 8) 0).getLsbD (i % 8) then m ++ [(i, true)] else m) []

/-- The 160 bytes of a repair map. -/
def repairBytes (r : Repair) : List Byte :=
  (List.range 160).map fun i => BitVec.ofNat 8
    ((List.range 8).foldl (fun v j => v + 2 ^ j * b2n (look false r (8 * i + j))) 0)

/-- A physical tile is good. -/
def good (r : Repair) (pr pc : Nat) : Bool := !look false r (40 * pr + pc)

/-- The good tiles of a segment, west to east, by physical column. -/
def goodCols (r : Repair) (pr fc : Nat) : List Nat := ((List.range 5).map (5 * fc + ·)).filter (good r pr)

/-- cap_w[fc] (R266). -/
def capW (r : Repair) (fc : Nat) : Nat :=
  (List.range 32).foldl (fun n pr => min n (goodCols r pr fc).length) 4

/-- cap_widths (R291). -/
def capWidths (r : Repair) : Nat := (List.range 8).foldl (fun v fc => v + capW r fc * 16 ^ fc) 0

/-- The module area's size (R280). -/
def moduleArea : Nat := 512 * 2 ^ 20

/-- The capacity of the least stack of the module under its fields' modes. -/
def leastStack (d : Data) : Nat := (List.range 64).foldl (fun n f => min n (stackCap (fieldOf d f).mode)) (2 ^ 35)

/-! ### The load report and checks 4 to 8 (R260, R261) -/

/-- The load report (R261). -/
structure LoadReport where
  result : BitVec 16
  resource : Nat
  locations : Nat
  worst : Nat
  total : Nat
deriving DecidableEq, Repr

def LoadReport.ok : LoadReport := ⟨0, 0, 0, 0, 0⟩
/-- A refusal that reports no overflow. -/
def LoadReport.plain (code : Nat) : LoadReport := ⟨BitVec.ofNat 16 code, 0, 0, 0, 0⟩

/-- The report's first 24 bytes, as the run event carries them. -/
def reportBytes (x : LoadReport) : List Byte :=
  natLe 2 x.result.toNat ++ natLe 1 x.resource ++ natLe 1 0 ++ natLe 4 x.locations ++ natLe 8 x.worst ++ natLe 8 x.total

/-- An image-key slot of the security engine: its key_id and public key. -/
structure ImageKey where
  keyId : W64
  x : Nat
  y : Nat
deriving DecidableEq, Repr

/-- Check 5 (R258). -/
def checkSignature (keys : List (Option ImageKey)) (m : Memory) : Nat :=
  let h := readHeader m
  let b := signedEnd h
  match keys.findSome? fun k => match k with
    | some x => if x.keyId.toNat = fieldAt m b 8 then some x else none
    | none => none with
  | none => 0x0511
  | some k =>
    if ecdsaVerify k.x k.y (sha384 (readBytes m 0 b)) (beNat (readBytes m (b + 16) 48)) (beNat (readBytes m (b + 64) 48))
    then 0 else 0x0510

/-- Check 6. -/
def inRange (h : ImgHeader) : Bool :=
  decide (h.minStep ≤ 12) && decide (1 ≤ h.scarfDelay) && decide (h.scarfDelay ≤ 3) &&
    ((List.range 8).all fun fc => decide (1 ≤ widthOf h fc) && decide (widthOf h fc ≤ 4)) &&
    decide (h.turnStore ≤ 2 ^ 24) && h.xcap.all fun c => decide (c.1 ≤ 255)

/-- Check 7, with its report. -/
def checkSystem (h : ImgHeader) (desc : Option SysDesc) : Option LoadReport :=
  match desc with
  | none => some ⟨0x0313, 5, 0, 0, 0⟩
  | some s =>
    if h.sizeX = s.sizeX ∧ h.sizeY = s.sizeY ∧ h.scarfDelay = s.scarfDelay then none
    else
      let img := (h.sizeX + 1) * (h.sizeY + 1)
      let sys := (s.sizeX + 1) * (s.sizeY + 1)
      if sys < img then
        let w := 1024 * h.storeMax + 64 * h.stackMax
        some ⟨0x0313, 5, img - sys, w, (img - sys) * w⟩
      else some ⟨0x0313, 5, 0, 0, 0⟩

/-- Check 8, the first resource over capacity (R261). `least` is the least stack capacity of the module's fields. -/
def checkCapacity (h : ImgHeader) (ss : List SectEntry) (own : Nat) (r : Repair) (least : Nat) : Option LoadReport :=
  let cols := (List.range 8).foldl (fun n fc => n + (widthOf h fc - capW r fc)) 0
  let excess := ss.filterMap fun s =>
    if s.kind = 1 ∧ s.module = own ∧ 2 ^ 18 < s.length then some (s.length - 2 ^ 18) else none
  if 0 < cols then some ⟨0x0310, 1, 32 * cols, 2 ^ 24, 2 ^ 24 * 32 * cols⟩
  else if excess ≠ [] then
    some ⟨0x0315, 2, excess.length, excess.foldl max 0, excess.foldl (· + ·) 0⟩
  else if 2 ^ 24 < h.storeMax then some ⟨0x0311, 3, 1, h.storeMax - 2 ^ 24, h.storeMax - 2 ^ 24⟩
  else if least < h.stackMax + moduleArea then
    let w := h.stackMax + moduleArea - least
    some ⟨0x0312, 4, 64, w, 64 * w⟩
  else none

/-- Checks 2 to 8 in order: the refusal's report, or none when all pass. -/
def judgeImage (m : Memory) (len own : Nat) (r : Repair) (capWord : Nat) (keys : List (Option ImageKey))
    (desc : Option SysDesc) (least : Nat) : Option LoadReport :=
  let h := readHeader m
  let ss := readTable m h
  let sig := checkSignature keys m
  if !wellFormed m len then some (.plain 0x0110)
  else if !sectionsRight h ss own then some (.plain 0x0111)
  else if capWidths r ≠ capWord then some (.plain 0x0112)
  else if sig ≠ 0 then some (.plain sig)
  else if !inRange h then some (.plain 0x0316)
  else match checkSystem h desc with
    | some x => some x
    | none => checkCapacity h ss own r least

/-! ### Check 9 -/

/-- The pairs (offset, length) of a live-range section. -/
def liveRanges (m : Memory) (s : SectEntry) : List (Nat × Nat) :=
  (List.range (s.length / 16)).map fun i => (fieldAt m (s.offset + 16 * i) 8, fieldAt m (s.offset + 16 * i + 8) 8)

/-- A section this module receives (R259). -/
def mine (own : Nat) (s : SectEntry) : Bool := s.module == own || wholeKind s.kind

/-- Check 9 of one section: its digest, and its data or ranges within the store or the stack window below the module
area. `cap` is the stack capacity of the field that carries it. -/
def checkSection (m : Memory) (cap : Nat) (s : SectEntry) : Option LoadReport :=
  let lim := if fieldKind s.kind then cap - moduleArea else 2 ^ 24
  if sha384 (readBytes m s.offset s.length) ≠ s.digest then some (.plain 0x0512)
  else if s.kind = 4 ∨ s.kind = 6 then
    if (liveRanges m s).all fun x => decide (x.1 + x.2 ≤ lim) then none else some (.plain 0x0110)
  else if s.kind = 5 ∨ s.kind = 7 then
    if fieldAt m s.offset 8 + (s.length - 8) ≤ lim then none else some (.plain 0x0110)
  else none

end Sys2Proof.Machine
end

