-- ==== Sys2Proof/Machine/Placement.lean ====
section
/-!
DEFINITION. The placement engine: maps (R267–R271), legal turns (R272), the schedule checks (R189, R192, R247, R274), the
data plane's part of a load (R263), turns and checkpoints (R275–R283, R288), restores (R290), the placement record (R274).
-/

namespace Sys2Proof.Machine

/-! ### Maps (R267–R271) -/

/-- The slot of a logical place on a grid of last row `nr` and last column `nc` under a turn code (R269). -/
def turnSlot (code nr nc r c : Nat) : Nat × Nat :=
  match code with
  | 0 => (r, c)
  | 1 => (c, nr - r)
  | 2 => (nr - r, nc - c)
  | 3 => (nr - c, r)
  | 4 => (nr - r, c)
  | 5 => (r, nc - c)
  | 6 => (c, r)
  | _ => (nr - c, nr - r)

/-- The slot pattern u of a code (R270). -/
def slotPattern (h : ImgHeader) (code fc : Nat) : Nat :=
  if code = 2 ∨ code = 5 then widthOf h (7 - fc) else widthOf h fc

/-- The physical tile of logical tile (r, c) (R267). -/
def placeTile (h : ImgHeader) (rep : Repair) (code r c : Nat) : Option Nat :=
  let (r', s) := turnSlot code 31 (logicalCols h - 1) r c
  let (fc, j) := columnField (slotPattern h code) s
  ((goodCols rep r' fc)[j]?).map fun pc => tileAt r' pc

/-- The tile map of a code. -/
def mapOf (h : ImgHeader) (rep : Repair) (code : Nat) : SMap (Option Nat) :=
  (List.range 1024).filterMap fun n =>
    if n % 32 < logicalCols h then (placeTile h rep code (n / 32) (n % 32)).map fun t => (n, some t) else none

/-- The physical module of logical module m under a code (R243, R271). -/
def turnModule (sizes : Nat × Nat) (code m : Nat) : Nat :=
  if m % 16 < sizes.1 ∧ m / 16 < sizes.2 then
    let (y, x) := turnSlot code (sizes.2 - 1) (sizes.1 - 1) (m / 16) (m % 16)
    16 * y + x
  else m

/-- The module map of a code; modules that map to themselves are not listed. -/
def moduleMapOf (sizes : Nat × Nat) (code : Nat) : SMap Nat :=
  (List.range 256).filterMap fun m => let p := turnModule sizes code m; if p = m then none else some (m, p)

/-- A code is legal for an image on this module (R272). -/
def codeLegal (h : ImgHeader) (rep : Repair) (sizes : Nat × Nat) (code : Nat) : Bool :=
  bitOf h.turnMask code &&
    (!(code == 1 || code == 3 || code == 6 || code == 7) || (logicalCols h == 32 && sizes.1 == sizes.2)) &&
    (List.range 8).all fun fc => decide (slotPattern h code fc ≤ capW rep fc)

/-- The physical field of logical field (lfr, lfc) under a code: the field of its first logical tile's slot. -/
def placeField (h : ImgHeader) (code lfr lfc : Nat) : Nat :=
  let (r', s) := turnSlot code 31 (logicalCols h - 1) (4 * lfr) (sumBelow (widthOf h) lfc)
  8 * (r' / 4) + (columnField (slotPattern h code) s).1

/-- The logical tiles of the image. -/
def logicalTiles (h : ImgHeader) : List (Nat × Nat) :=
  (List.range 32).flatMap fun r => (List.range (logicalCols h)).map fun c => (r, c)

/-- The logical field of a logical tile, and its index j there (R280). -/
def tileSlotOf (h : ImgHeader) (r c : Nat) : Nat × Nat :=
  let (lfc, k) := columnField (widthOf h) c
  (8 * (r / 4) + lfc, 4 * (r % 4) + k)

/-! ### Sections of the image -/

/-- The section of a kind at a place. -/
def sectAt (i : Image) (kind m r c : Nat) : Option SectEntry :=
  i.sections.find? fun s => s.kind == kind && s.module == m && s.row == r && s.col == c

/-- A section's bytes. -/
def sectBytes (i : Image) (s : SectEntry) : List Byte := readBytes i.bytes s.offset s.length

/-- Entry `tag` of a schedule table's bytes. -/
def schedEntry (bs : List Byte) (tag : Nat) : BitVec 128 := BitVec.ofNat 128 (leNat ((bs.drop (16 * tag)).take 16))

/-- The entries of a logical tile's schedule table that move something. -/
def schedOf (i : Image) (m r c : Nat) : List (BitVec 128) :=
  match sectAt i 2 m r c with
  | none => []
  | some s => ((List.range 4096).map (schedEntry (sectBytes i s))).filter fun e => schedKind e ≠ 0

/-! ### Check 10 (R189, R192, R247, R280) -/

/-- One scheduled flit of the module: the link outputs it uses as (cycle, router, direction), where it waits to land, and
the exit engine it uses with the cycle it reaches it. -/
structure FlitUse where
  links : List Nat
  waits : Option (Nat × Nat × Nat)
  exit : Option (Nat × Nat)
deriving DecidableEq, Repr

/-- The link uses of a path, in one number each. -/
def linkUses : Nat → Nat → List Nat → List Nat
  | _, _, [] => []
  | cyc, a, b :: r => ((cyc * 1280 + a) * 8 + (hopPorts a b).1) :: linkUses (cyc + hopCycles a b) b r

/-- The longest entry-to-destination latency over any sparing of the far module (R247). -/
def worstEntry (h : ImgHeader) (code entry r c : Nat) : Nat :=
  let (r', s) := turnSlot code 31 (logicalCols h - 1) r c
  let (fc, j) := columnField (slotPattern h code) s
  let w := slotPattern h code fc
  (List.range (6 - w)).foldl (fun n k =>
    max n (pathCycles entry (dimPath entry (tileAt r' (5 * fc + j + k))))) 0

/-- The uses of one entry's flits when it passes R189, R192 or R247; none when it fails. `own` is the physical module that
carries the sender under the code; the engines and stacks are those of this module (log 88). -/
def entryUses (d : Data) (h : ImgHeader) (rep : Repair) (code own src : Nat) (e : BitVec 128) : Option (List FlitUse) :=
  let n := ceilDiv (schedUnits e) 8
  let slot := schedSlot e
  let land := schedLand e
  let sizes := (h.sizeX + 1, h.sizeY + 1)
  let cap := stackCap (fieldOf d (tileField src)).mode
  if schedKind e = 1 then
    let m := bits 91 84 e.toNat
    let r := bits 83 79 e.toNat
    let c := bits 78 74 e.toNat
    if 1999 < slot + n - 1 ∨ !isMember d m ∨ logicalCols h ≤ c then none else
    let p := turnModule sizes code m
    if p = own then
      match placeTile h rep code r c with
      | none => none
      | some t =>
        let path := dimPath src t
        let lat := pathCycles src path
        if land < slot + lat + 2 ∨ 1999 < land + n - 1 then none
        else some ((List.range n).map fun k =>
          ⟨linkUses (slot + k + 1) src path, some (t, slot + k + 1 + lat, land + k), none⟩)
    else
      match sideFrom d own p with
      | none => none
      | some s =>
        let i := engineAt s (tileBand s src)
        let path := dimPath src (attachTile i)
        let hs := pathCycles src path
        let entry := attachTile (engineAt (facing s) (tileBand s src))
        let hd := worstEntry h code entry r c
        if 1999 < land ∨ 2000 * h.scarfDelay + land < slot + n + hs + hd + 2560 ∨ (engineOf d i).state ≠ .up then none
        else some ((List.range n).map fun k =>
          ⟨linkUses (slot + k + 1) src path, none, some (i, slot + k + 1 + hs)⟩)
  else if schedKind e = 2 then
    if 1999 < slot + n - 1 ∨ cap < schedStack e + 64 * schedUnits e + moduleArea then none else some []
  else if schedKind e = 3 then
    if land < slot + 96 ∨ 1999 < slot + n - 1 ∨ 1999 < land + ceilDiv (schedUnits e) 2 - 1 ∨
        cap < schedStack e + 64 * schedUnits e + moduleArea then none
    else some []
  else some []

/-- Every entry passes on its own: all the flits' uses. -/
def gatherUses (d : Data) (h : ImgHeader) (rep : Repair) (code own : Nat) (tab : Nat → Nat → List (BitVec 128)) :
    Option (List FlitUse) :=
  (logicalTiles h).foldl (fun acc (rc : Nat × Nat) =>
    match acc, placeTile h rep code rc.1 rc.2 with
    | some us, some src =>
      (tab rc.1 rc.2).foldl (fun a e =>
        match a, entryUses d h rep code own src e with
        | some xs, some ys => some (xs ++ ys)
        | _, _ => none) (some us)
    | _, _ => none) (some [])

/-- No landing buffer holds more than its 64 flits: at each flit's arrival at most 63 others wait there. -/
def buffersFit (us : List FlitUse) : Bool :=
  let ws := us.filterMap FlitUse.waits
  ws.all fun w => decide ((ws.filter fun x => x.1 == w.1 && decide (x.2.1 ≤ w.2.1) && decide (w.2.1 < x.2.2)).length ≤ 64)

/-- At most 296 scheduled flits per beat and 76 in any 512 cycles, also across a boundary into the next beat, leave through
each engine (R247). -/
def enginesFit (us : List FlitUse) : Bool :=
  let xs := us.filterMap FlitUse.exit
  xs.all fun x =>
    decide ((xs.filter fun y => y.1 == x.1).length ≤ 296) &&
      decide ((xs.filter fun y => y.1 == x.1 && ((decide (x.2 ≤ y.2) && decide (y.2 < x.2 + 512)) ||
        decide (y.2 + 2000 < x.2 + 512))).length ≤ 76)

/-- Check 10 under the maps of a code, for the tables of logical module `m` (R274). -/
def scheduleOk (d : Data) (h : ImgHeader) (rep : Repair) (code m : Nat) (tab : Nat → Nat → List (BitVec 128)) : Bool :=
  match gatherUses d h rep code (turnModule (h.sizeX + 1, h.sizeY + 1) code m) tab with
  | none => false
  | some us => !hasDup (us.flatMap FlitUse.links) && buffersFit us && enginesFit us

/-- The schedule tables that the module's tiles hold, by logical tile. -/
def heldTables (d : Data) (r c : Nat) : List (BitVec 128) :=
  match physTile d r c with
  | none => []
  | some ix => ((tileOf d ix).xfer.sched.map Prod.snd).filter fun e => schedKind e ≠ 0

/-- turn_ok: a bit for each legal code whose schedule checks pass (R17, R274). -/
def turnOkOf (d : Data) (h : ImgHeader) (rep : Repair) (m : Nat) (tab : Nat → Nat → List (BitVec 128)) : BitVec 8 :=
  let sizes := (h.sizeX + 1, h.sizeY + 1)
  BitVec.ofNat 8 ((List.range 8).foldl (fun v c =>
    if codeLegal h rep sizes c && scheduleOk d h rep c m tab then v + 2 ^ c else v) 0)

/-! ### The data plane's part of a load (R263) -/

/-- Tile domains and resets for a set of maps (R29, R263): a tile the maps use is reset, from power-up when its domain was
off; every other tile's domain is switched off. -/
def resetForMaps (e : Env) (map : SMap (Option Nat)) (d : Data) : Data :=
  let used := map.filterMap Prod.snd
  followAll e (repeatN (fun ix x =>
    if used.contains ix then
      let t := tileOf x ix
      if t.tstate = .off then (if d.tilePwrEn then editTile e ix (fun _ _ => powerUpReset) x else x)
      else zeroRtr ix (editTile e ix (fun _ t => loadReset t) x)
    else editTile e ix (fun _ _ => Tile.off) x) 1280 d)

/-- A load begins: what was loaded is gone, imem_valid reads 0 in every tile (R260), and a beat fault is past (R154). -/
def loadBegin (e : Env) (d : Data) : Data :=
  let d1 := editTiles e (fun _ _ t => { t with csr := { t.csr with imemValid := false } }) d
  { d1 with
    place := { d1.place with
      image := none, incoming := [], accepted := false, arrived := false, loadCheck := 0xFFFF, turnOk := 0
      turnState := 0, code := 0 }
    beat := { d1.beat with fault := none, faultShown := false, pendFault := none } }

/-- Checks 2 to 8 have passed (R263 steps 1, 2 and 5): tiles are reset, the maps of code 0 are written, the beat counter
is 0 and a beat fault of an earlier run is past (R154). -/
def loadAccept (e : Env) (h : ImgHeader) (rep : Repair) (d : Data) : Data :=
  let map := mapOf h rep 0
  let d0 := resetForMaps e map d
  let d2 := if mapWritable d0 then { d0 with mesh := { d0.mesh with
      tileMap := map
      moduleMap := [] } } else mapBlocked e d0
  let d1 := { d2 with fields := mapListed Field.off (fun _ f => if f.on then { f with module := ownModule d } else f) d2.fields }
  { d1 with
    place := { d1.place with accepted := true, repair := rep, code := 0, turnState := 0, job := none }
    beat := { d1.beat with
      count := 0, fault := none, faultShown := false, pendFault := none, run := false, armed := none, afterHold := false
      held := false } }

/-- The load ends without an image. -/
def loadDrop (e : Env) (d : Data) : Data := loadBegin e d

/-- Instruction memory as a section gives it. -/
def imemOf (bs : List Byte) : SMap Bundle :=
  (List.range (bs.length / 16)).foldl (fun m i =>
    put 0 m i (BitVec.ofNat 128 (leNat ((bs.drop (16 * i)).take 16)))) []

/-- A schedule table as its section gives it. -/
def schedTable (bs : List Byte) : SMap (BitVec 128) :=
  (List.range 4096).foldl (fun m i => put 0 m i (schedEntry bs i)) []

/-- The exchange classes as descriptors and the header give them (R214, R257). -/
def classesOf (h : ImgHeader) (bs : List Byte) : SMap (Option XClass) :=
  (List.range 16).foldl (fun m c =>
    let f (o n : Nat) : Nat := leNat ((bs.drop (16 * c + o)).take n)
    let cap := h.xcap.getD c (0, false)
    put none m c (some ⟨cap.1, cap.2, f 0 2, f 2 2, f 4 4, 64 * 2 ^ (f 8 1 % 4), f 12 4⟩)) []

/-- What a tile that carries logical tile (r, c) of module m gets from sections 1 to 3 (R263). -/
def writeTile (h : ImgHeader) (m r c : Nat) (code sched xch : List Byte) (t : Tile) : Tile :=
  if !imemOpen t then setInt t bitImemBlocked
  else { t with
    imem := imemOf code
    csr := { t.csr with
      module := BitVec.ofNat 8 m, logicalRow := BitVec.ofNat 5 r, logicalCol := BitVec.ofNat 5 c, logicalValid := true
      srKey := h.srKey, vfpCtrl := BitVec.ofNat 64 h.rmode, imemValid := true }
    xfer := { t.xfer with sched := schedTable sched, classes := classesOf h xch } }

/-- A section's bytes at a place; none listed reads empty. -/
def bytesAt (i : Image) (kind m r c : Nat) : List Byte := ((sectAt i kind m r c).map (sectBytes i)).getD []

/-- The module area's start in a field's stack (R280). -/
def areaBase (f : Field) : Nat := stackCap f.mode - moduleArea

/-- The image shadow of a logical field (R280): for each of its tiles, sections 1 to 4 as length, digest and bytes, in
slot order. -/
def shadowBytes (i : Image) (m lf : Nat) : List Byte :=
  (List.range 16).flatMap fun j =>
    let r := 4 * (lf / 8) + j / 4
    let c := sumBelow (widthOf i.header) (lf % 8) + j % 4
    if widthOf i.header (lf % 8) ≤ j % 4 then [] else
    [1, 2, 3, 4].flatMap fun k =>
      let bs := bytesAt i k m r c
      natLe 8 bs.length ++ sha384 bs ++ bs

/-- A logical field's stack contents at a load: initial data, then the shadow. -/
def loadField (i : Image) (m lf : Nat) (f : Field) : Field :=
  let x := bytesAt i 7 m (lf / 8) (lf % 8)
  { f with mem := writeBytes (writeBytes f.mem (leNat (x.take 8)) (x.drop 8)) (areaBase f + 0x10000000) (shadowBytes i m lf) }

/-- Every tile the maps use has ended its reset (R585). -/
def tilesReady (d : Data) : Bool :=
  d.mesh.tileMap.all fun p => match p.2 with | some t => decide ((tileOf d t).tstate ≠ .reset) | none => true

/-- The image written into tiles and stacks (R263 steps 3, 4 and 7). -/
def loadWrite (e : Env) (i : Image) (d : Data) : Data :=
  let m := logicalModule d
  let d1 := (logicalTiles i.header).foldl (fun x (rc : Nat × Nat) =>
    match physTile x rc.1 rc.2 with
    | none => x
    | some ix => editTile e ix (fun _ t =>
        if t.tstate = .off then t else
        let init := bytesAt i 5 m rc.1 rc.2
        let t1 := writeTile i.header m rc.1 rc.2 (bytesAt i 1 m rc.1 rc.2) (bytesAt i 2 m rc.1 rc.2)
          (bytesAt i 3 m rc.1 rc.2) t
        writeStore t1 (leNat (init.take 8)) (init.drop 8)) x) d
  repeatN (fun lf x => editField e (placeField i.header 0 (lf / 8) (lf % 8)) (loadField i m lf) x) 64 d1

/-- Live ranges as bytes. -/
def rangesOf (bs : List Byte) : List (Nat × Nat) :=
  (List.range (bs.length / 16)).map fun i => (leNat ((bs.drop (16 * i)).take 8), leNat ((bs.drop (16 * i + 8)).take 8))

/-- Where each logical field's stack live ranges are listed: the image's sections of kind 6. -/
def imageRanges (i : Image) (m : Nat) : SMap (List (Nat × Nat)) :=
  (List.range 64).foldl (fun s lf => put [] s lf (rangesOf (bytesAt i 6 m (lf / 8) (lf % 8)))) []

/-- The placement engine evaluates check 10 (R274): for a load whose last section has arrived and whose tiles have ended
their resets it writes the image first; for a loaded image it judges again, under the maps of the load and of every legal
code. -/
def placementCheck (e : Env) (d : Data) : Data :=
  let p := d.place
  match p.image with
  | some i =>
    let m := logicalModule d
    { d with place := { p with
        loadCheck := if scheduleOk d i.header p.repair 0 m (heldTables d) then 0 else 0x0314
        turnOk := turnOkOf d i.header p.repair m (heldTables d) } }
  | none =>
    if !p.arrived ∨ !tilesReady d then d else
    let i := readImage p.incoming
    let m := logicalModule d
    if scheduleOk d i.header p.repair 0 m (schedOf i m) then
      let d1 := loadWrite e i d
      { d1 with place := { d1.place with
        image := some i
        loadCheck := 0
        turnOk := turnOkOf d i.header p.repair m (schedOf i m)
        ranges := imageRanges i m } }
    else { d with place := { p with loadCheck := 0x0314, turnOk := 0 } }

/-! ### Turns and checkpoints (R279–R282, R288) -/

/-- The part of `src` in [lo, lo + n) laid over `dst`. -/
def copyRange (src dst : Memory) (lo n : Nat) : Memory :=
  dst.filter (fun x => decide (x.1 < lo)) ++ src.filter (fun x => decide (lo ≤ x.1) && decide (x.1 < lo + n)) ++
    dst.filter (fun x => decide (lo + n ≤ x.1))

/-- One item of a shadow: its bytes, whether its digest holds, and where the next one starts. -/
def shadowItem (m : Memory) (at_ : Nat) : List Byte × Bool × Nat :=
  let n := min (fieldAt m at_ 8) (8 * 2 ^ 20)
  let bs := readBytes m (at_ + 56) n
  (bs, decide (sha384 bs = readBytes m (at_ + 8) 48), at_ + 56 + n)

/-- The items of a logical field's shadow in a field: (slot, kind, bytes), and whether every digest holds. -/
def shadowItems (h : ImgHeader) (f : Field) (lf : Nat) : List (Nat × Nat × List Byte) × Bool :=
  let keys := (List.range 16).flatMap fun j =>
    if widthOf h (lf % 8) ≤ j % 4 then [] else [1, 2, 3, 4].map fun k => (j, k)
  let r := keys.foldl (fun (acc : List (Nat × Nat × List Byte) × Bool × Nat) jk =>
    let (bs, ok, next) := shadowItem f.mem acc.2.2
    (acc.1 ++ [(jk.1, jk.2, bs)], acc.2.1 && ok, next)) ([], true, areaBase f + 0x10000000)
  (r.1, r.2.1)

/-- The item of a slot and kind. -/
def itemOf (xs : List (Nat × Nat × List Byte)) (j k : Nat) : List Byte :=
  ((xs.find? fun x => x.1 == j && x.2.1 == k).map fun x => x.2.2).getD []

/-- A tile's live bytes, packed in list order. -/
def packLive (store : Memory) (rs : List (Nat × Nat)) : List Byte := rs.flatMap fun x => readBytes store x.1 x.2

/-- Packed bytes back in their ranges. -/
def unpackLive (rs : List (Nat × Nat)) (bs : List Byte) (t : Tile) : Tile :=
  (rs.foldl (fun (acc : Tile × List Byte) x =>
    (writeStore acc.1 x.1 (acc.2.take x.2), acc.2.drop x.2)) (t, bs)).1

/-- The field checkpoint header (R288). -/
def checkpointHeader (i : Image) (m lf code : Nat) (beat : W64) (used : Nat → Nat) : List Byte :=
  let body := natLe 4 0x4B435031 ++ i.digest ++ natLe 1 m ++ natLe 1 (lf / 8) ++ natLe 1 (lf % 8) ++ natLe 1 code ++
    natLe 8 beat.toNat ++ (List.range 16).flatMap (fun j => natLe 4 (used j)) ++ List.replicate 3964 0
  body ++ natLe 4 (crc32 body).toNat

/-- The bytes a checkpoint engine or copy engine moves in a field are granted to requester 22 (R207, log 87). -/
def copyGrant (n : Nat) (f : Field) : Field := bulkGrant 22 n f

/-- Requester 22 can be granted in every powered field (R208). -/
def copyServed (d : Data) : Bool := d.fields.all fun p => !p.2.on || grantable 22 p.2

/-- Phase A in one logical field: staging and header. -/
def captureField (i : Image) (job : TurnJob) (lf : Nat) (d : Data) : Field → Field := fun f =>
  let m := logicalModule d
  let (items, _) := shadowItems i.header f lf
  let live (j : Nat) : List Byte :=
    let r := 4 * (lf / 8) + j / 4
    let c := sumBelow (widthOf i.header) (lf % 8) + j % 4
    if widthOf i.header (lf % 8) ≤ j % 4 then [] else
    match physTile d r c with
    | some ix => packLive (tileOf d ix).store (rangesOf (itemOf items j 4))
    | none => []
  let base := areaBase f
  let f1 := repeatN (fun j x => { x with mem := writeBytes x.mem (base + 2 ^ 24 * j) (live j) }) 16 f
  let hdr := checkpointHeader i m lf d.place.code job.beat (fun j => (live j).length)
  copyGrant ((List.range 16).foldl (fun n j => n + (live j).length) 4096) { f1 with mem := writeBytes f1.mem (base + 0x10800000) hdr }

/-- Phase A (R279): staging, headers, and for a turn the load reset of every tile that carries a logical tile. -/
def phaseA (e : Env) (i : Image) (job : TurnJob) (d : Data) : Data :=
  let d1 := repeatN (fun lf x =>
    editField e (placeField i.header d.place.code (lf / 8) (lf % 8)) (captureField i job lf d) x) 64 d
  if job.checkpoint then d1
  else followAll e (d1.tiles.foldl (fun x p =>
    if carrying p.2 then zeroRtr p.1 (editTile e p.1 (fun _ t => loadReset t) x) else x) d1)

/-- What a sending module hands over for one physical field (R279): the live ranges of the logical field, the stack that holds
them, and the start of its module area there. -/
structure Arrived where
  field : Nat
  ranges : List (Nat × Nat)
  mem : Memory
  area : Nat
deriving DecidableEq, Repr

/-- The part of `src` in [lo, lo + n) laid over `dst` from `base` on. -/
def moveRange (src dst : Memory) (lo base n : Nat) : Memory :=
  copyRange (src.filterMap fun x => if lo ≤ x.1 ∧ x.1 < lo + n then some (x.1 - lo + base, x.2) else none) dst base n

/-- Phase B (R279): each logical field's live ranges and module area, from the old field to the new one, or from another
module as `arrived` gives them per physical field, over its scarf links and requester 23 (R252, log 87). -/
def phaseB (e : Env) (i : Image) (job : TurnJob) (arrived : List Arrived) (d : Data) : Data :=
  let sizes := (i.header.sizeX + 1, i.header.sizeY + 1)
  let old := logicalModule d
  let stays := turnModule sizes job.target old == (ownModule d).toNat
  repeatN (fun lf x =>
    let from_ := placeField i.header d.place.code (lf / 8) (lf % 8)
    let dest := placeField i.header job.target (lf / 8) (lf % 8)
    let here : Arrived := ⟨dest, look [] d.place.ranges lf, (fieldOf d from_).mem, areaBase (fieldOf d from_)⟩
    match if stays then some here else arrived.find? fun a => a.field == dest with
    | none => x
    | some a =>
      editField e dest (fun f =>
        let m := moveRange a.mem f.mem a.area (areaBase f) moduleArea
        copyGrant (moduleArea + a.ranges.foldl (fun n r => n + r.2) 0)
          { f with mem := a.ranges.foldl (fun m r => copyRange a.mem m r.1 r.2) m })
        { x with place := { x.place with ranges := put [] x.place.ranges lf a.ranges } }) 64 d

/-- Phase C (R279): the maps of the new code, and the tile domains under R29. -/
def phaseC (e : Env) (i : Image) (job : TurnJob) (d : Data) : Data :=
  let map := mapOf i.header d.place.repair job.target
  let used := map.filterMap Prod.snd
  let d1 := followAll e (repeatN (fun ix x => editTile e ix (fun _ t =>
    if used.contains ix then (if t.tstate = .off ∧ d.tilePwrEn then powerUpReset else t) else Tile.off) x) 1280 d)
  { d1 with mesh := { d1.mesh with
      tileMap := map, moduleMap := moduleMapOf (i.header.sizeX + 1, i.header.sizeY + 1) job.target } }

/-- Every shadow's digests hold (R279, R281). -/
def shadowsHold (i : Image) (code : Nat) (d : Data) : Bool :=
  (List.range 64).all fun lf => (shadowItems i.header (fieldOf d (placeField i.header code (lf / 8) (lf % 8))) lf).2

/-- Phase D (R279): tiles written from the shadow, staging copied back, imem_valid set. -/
def phaseD (e : Env) (i : Image) (job : TurnJob) (d : Data) : Data :=
  let m := logicalModule d
  (logicalTiles i.header).foldl (fun x (rc : Nat × Nat) =>
    let (lf, j) := tileSlotOf i.header rc.1 rc.2
    let f := fieldOf d (placeField i.header job.target (lf / 8) (lf % 8))
    let (items, _) := shadowItems i.header f lf
    match physTile x rc.1 rc.2 with
    | none => x
    | some ix => editTile e ix (fun _ t =>
        if t.tstate = .off then t else
        let rs := rangesOf (itemOf items j 4)
        let n := rs.foldl (fun n r => n + r.2) 0
        let t1 := writeTile i.header m rc.1 rc.2 (itemOf items j 1) (itemOf items j 2) (itemOf items j 3) t
        unpackLive rs (readBytes f.mem (areaBase f + 2 ^ 24 * j) n) t1) x) d

/-- The next phase of a turn or checkpoint is carried out (R279): A once the module is quiescent, D once the new tiles
have ended their resets and every shadow holds. -/
def turnPhaseDone (e : Env) (arrived : List Arrived) (d : Data) : Data :=
  match d.place.job, d.place.image with
  | some job, some i =>
    let next (x : Data) : Data := { x with place := { x.place with job := some { job with phase := job.phase + 1 } } }
    if !copyServed d then d
    else if job.phase = 0 then (if quiescent d then next (phaseA e i job d) else d)
    else if job.checkpoint then d
    else if job.phase = 1 then next (phaseB e i job arrived d)
    else if job.phase = 2 then (if quiescent d then next (phaseC e i job d) else d)
    else if job.phase = 3 then (if tilesReady d && shadowsHold i job.target d then next (phaseD e i job d) else d)
    else d
  | _, _ => d

/-- Milliseconds since a TSCLK time, as the event's 16-bit field carries them. -/
def msSince (now since : W64) : Nat := min ((now - since).toNat / 1000000) 0xFFFF

/-- Phase D has finished (R279): turn_state reads 3 and the new code is in force. -/
def turnComplete (e : Env) (d : Data) : Data :=
  match d.place.job with
  | some job =>
    if job.checkpoint ∨ job.phase ≠ 4 then d else
    raiseData e 0x0131 (natLe 1 job.target ++ natLe 2 (msSince e.ts job.since)) { d with
      place := { d.place with turnState := 3, code := job.target, job := none } }
  | none => d

/-- A turn's failure (R281): 1 a shadow's digest, 2 a transfer, 3 its time. -/
inductive TurnFault where
  | digest | transfer | timeout
deriving DecidableEq, Repr

/-- The event's cause number (R314). -/
def turnFaultNo : TurnFault → Nat
  | .digest => 1 | .transfer => 2 | .timeout => 3

/-- The failure holds in this state; a failed transfer is what the migration reports. -/
def turnFaultHolds (e : Env) (c : TurnFault) (i : Image) (job : TurnJob) (d : Data) : Bool :=
  match c with
  | .digest => job.phase == 3 && !shadowsHold i job.target d
  | .transfer => job.phase == 1
  | .timeout => decide (1000000 * max 1000 (4 * i.header.turnMs.getD job.target 0) < (e.ts - job.since).toNat)

/-- A turn fails: turn_state reads 4 (R281). -/
def turnFailed (e : Env) (c : TurnFault) (d : Data) : Data :=
  match d.place.job, d.place.image with
  | some job, some i =>
    if !job.checkpoint && turnFaultHolds e c i job d then
      raiseData e 0x0132 (natLe 1 (turnFaultNo c)) { d with place := { d.place with turnState := 4, job := none } }
    else d
  | _, _ => d

/-- Phase A is complete in every field (R288): the checkpoint captured event. A checkpoint ends with it. -/
def checkpointCaptured (e : Env) (d : Data) : Data :=
  match d.place.job with
  | some job =>
    if job.checkpoint ∧ job.phase = 1 then
      raiseData e 0x0130 (natLe 8 job.beat.toNat) { d with place := { d.place with job := none } }
    else d
  | none => d

/-! ### Restore (R290) -/

/-- One field's header fits the loaded image, the logical field and a beat value. -/
def headerFits (i : Image) (m lf : Nat) (beat : Option Nat) (f : Field) : Bool :=
  let b := areaBase f + 0x10800000
  let bs := readBytes f.mem b 4096
  decide (fieldAt f.mem b 4 = 0x4B435031) && decide ((crc32 (bs.take 4092)).toNat = leNat (bs.drop 4092)) &&
    decide ((bs.drop 4).take 48 = i.digest) && decide (fieldAt f.mem (b + 52) 1 = m) &&
    decide (fieldAt f.mem (b + 53) 1 = lf / 8) && decide (fieldAt f.mem (b + 54) 1 = lf % 8) &&
    (match beat with | some v => decide (fieldAt f.mem (b + 56) 8 = v) | none => true)

/-- The beat value of the first logical field's header. -/
def restoreBeat (i : Image) (d : Data) : Nat :=
  let f := fieldOf d (placeField i.header d.place.code 0 0)
  fieldAt f.mem (areaBase f + 0x10800000 + 56) 8

/-- Every header of a restore fits (R290 step 3). -/
def restoreFits (i : Image) (d : Data) : Bool :=
  (List.range 64).all fun lf =>
    headerFits i (logicalModule d) lf (some (restoreBeat i d)) (fieldOf d (placeField i.header d.place.code (lf / 8) (lf % 8)))

/-- Staging copied into the store live ranges of the loaded image, and the beat counter set (R290 step 4). -/
def restoreApply (e : Env) (i : Image) (d : Data) : Data :=
  let m := logicalModule d
  let d1 := (logicalTiles i.header).foldl (fun x (rc : Nat × Nat) =>
    let (lf, j) := tileSlotOf i.header rc.1 rc.2
    let f := fieldOf d (placeField i.header d.place.code (lf / 8) (lf % 8))
    match physTile x rc.1 rc.2 with
    | none => x
    | some ix => editTile e ix (fun _ t =>
        if t.tstate = .off then t else
        let rs := rangesOf (bytesAt i 4 m rc.1 rc.2)
        unpackLive rs (readBytes f.mem (areaBase f + 2 ^ 24 * j) (rs.foldl (fun n r => n + r.2) 0)) t) x) d
  { d1 with beat := { d1.beat with count := BitVec.ofNat 64 (restoreBeat i d) } }

/-! ### The placement record (R274) -/

/-- The record as it stands. -/
def placementRecord (d : Data) : PlaceRec :=
  { turnState := d.place.turnState, code := d.place.code, loadCheck := d.place.loadCheck, turnOk := d.place.turnOk
    moduleMap := (List.range 256).map (physModule d)
    tileMap := (List.range 1024).map fun n => (look none d.mesh.tileMap n).getD 0xFFFF
    fieldMap := (List.range 64).map fun lf =>
      match d.place.image with
      | some i => placeField i.header d.place.code (lf / 8) (lf % 8)
      | none => lf
    engines := (List.range 48).map fun i => statusRecord d i (engineOf d i) }

end Sys2Proof.Machine
end

