-- ==== Sys2Proof/Machine/HostData.lean ====
section
/-!
DEFINITION. The data plane's side of the host ports (R292–R294, R309–R315, R239): tile and field CSR access, bulk
transfers, queue pairs, event acknowledgements.
-/

namespace Sys2Proof.Machine

/-- The data plane answers a message (R294). -/
def answer (m : Option Msg) (status : Nat) (bs : List Byte) (d : Data) : Data :=
  { d with reply := some ⟨m, BitVec.ofNat 16 status, bs⟩ }

/-! ### Global addresses (R177) -/

/-- The parts of a global address. -/
def gModule (a : W64) : Nat := (a.extractLsb' 56 8).toNat
def gRow (a : W64) : Nat := (a.extractLsb' 51 5).toNat
def gCol (a : W64) : Nat := (a.extractLsb' 46 5).toNat
def gOff (a : W64) : Nat := (a.extractLsb' 0 46).toNat

/-- The image-load address range (R309). -/
def isLoadAddr (a : W64) : Bool := a.extractLsb' 44 2 == 3

/-! ### Tile and field CSR access (R65, R66, R312) -/

/-- What a CSR access names: a tile register, a field register, or the status that refuses it. -/
inductive CsrPlace where
  | tile (ix off : Nat)
  | field (f off : Nat)
  | refused (status : Nat)
deriving DecidableEq, Repr

/-- The place an address and a phys field name (R312). -/
def csrPlace (d : Data) (a : W64) (phys : Nat) : CsrPlace :=
  let off := gOff a
  let isTile : Bool := decide (0x2000000 ≤ off) && decide (off < 0x2010000)
  let isField : Bool := decide (0x3000000 ≤ off) && decide (off < 0x3010000)
  if !(isTile || isField) ∨ off % 8 ≠ 0 ∨ (phys ≠ 0xFFFF ∧ 1280 ≤ phys) then .refused 1
  else
    let pick (ix : Nat) : CsrPlace :=
      if isTile then (if (tileOf d ix).tstate = .off then .refused 2 else .tile ix (off - 0x2000000))
      else if (fieldOf d (tileField ix)).on then .field (tileField ix) (off - 0x3000000) else .refused 2
    if phys ≠ 0xFFFF then pick phys
    else if gModule a ≠ logicalModule d then .refused 4
    else match physTile d (gRow a) (gCol a) with
      | none => .refused 3
      | some ix => pick ix

/-- Data of a refused access: all ones for a domain that is off, else 0. -/
def refusedData (s : Nat) : List Byte := List.replicate 8 (if s = 2 then 0xFF else 0)

/-- TCSR_READ. -/
def tcsrRead (e : Env) (m : Msg) (a : W64) (phys : Nat) (d : Data) : Data :=
  match csrPlace d a phys with
  | .refused s => answer (some m) s (refusedData s) d
  | .tile ix off => answer (some m) 0 (natLe 8 (csrRead (ctxOf e d ix) ix (tileOf d ix) off).toNat) d
  | .field f off => answer (some m) 0 (natLe 8 (fieldCsrRead (quiescent d) f (fieldOf d f) off).toNat) d

/-- TCSR_WRITE. -/
def tcsrWrite (e : Env) (m : Msg) (a : W64) (phys : Nat) (v : W64) (d : Data) : Data :=
  match csrPlace d a phys with
  | .refused s => answer (some m) s [] d
  | .tile ix off => answer (some m) 0 [] (editTile e ix (fun cx t => csrWrite cx t off v) d)
  | .field f off => answer (some m) 0 [] (editField e f (fun x => fieldCsrWrite e.running x off v) d)

/-! ### Bulk transfers (R309–R311) -/

/-- Where a transfer of `n` bytes lands: a tile's store or a field's stack; none when R309 or R310 refuses it. -/
inductive BulkPlace where
  | store (ix off : Nat)
  | stack (ix f off : Nat)
deriving DecidableEq, Repr

/-- The arbiter requester of a host engine's transfers: the field's host DMA engine 0 or 1 (R207, R311). A queue pair's is its
number mod 2; the command transport's is the host engine's (log 87). -/
def dmaOf (n : Nat) : Nat := 20 + n % 2

/-- The place of a bulk transfer (R309, R310). -/
def bulkPlace (d : Data) (a : W64) (n : Nat) : Option BulkPlace :=
  if d.place.turnState = 2 ∨ gModule a ≠ logicalModule d then none
  else match physTile d (gRow a) (gCol a) with
    | none => none
    | some ix =>
      let f := tileField ix
      let off := gOff a
      if (tileOf d ix).tstate = .off then none
      else if off + n ≤ 2 ^ 24 then some (.store ix off)
      else if stackBase ≤ off ∧ (fieldOf d f).on ∧ off - stackBase + n ≤ stackCap (fieldOf d f).mode then
        some (.stack ix f (off - stackBase))
      else none

/-- The corner tile of a host engine (R182's table of ports). -/
def hostTile (engine : Nat) : Nat :=
  match engine with
  | 0 => tileAt 0 0 | 1 => tileAt 0 39 | 2 => tileAt 31 39 | _ => tileAt 31 0

/-- Bytes written at a place, over the mesh from the engine's corner and through the service port (R43, R311). -/
def bulkWrite (e : Env) (engine q : Nat) (p : BulkPlace) (bs : List Byte) (d : Data) : Data :=
  let n := units64 bs.length
  match p with
  | .store ix off =>
    let d1 := countPath n false (hostTile engine) (dimPath (hostTile engine) ix) d
    editTile e ix (fun _ t => bump 0x041 (ceilDiv bs.length 64) (writeStore t off bs)) d1
  | .stack ix f off =>
    let d1 := countPath n false (hostTile engine) (dimPath (hostTile engine) ix) d
    editField e f (fun x => bulkGrant q bs.length { x with mem := writeBytes x.mem off bs })
      (countStack f bs.length (portAt d1 ix 8 n false))

/-- Bytes read at a place. -/
def bulkRead (d : Data) (p : BulkPlace) (n : Nat) : List Byte :=
  match p with
  | .store ix off => readBytes (tileOf d ix).store off n
  | .stack _ f off => readBytes (fieldOf d f).mem off n

/-- A transfer to or from a stack waits for good when its requester can never be granted (R208). -/
def bulkServed (d : Data) (q : Nat) (p : BulkPlace) : Bool :=
  match p with
  | .store _ _ => true
  | .stack _ f _ => grantable q (fieldOf d f)

/-- What a read leaves in the counts; a store word that decodes as uncorrectable faults its tile (R41), and what a stack read
finds is counted in its field (R204–R206). -/
def bulkReadCount (e : Env) (engine q : Nat) (p : BulkPlace) (n : Nat) (found : StackFound) (d : Data) : Data :=
  match p with
  | .store ix off =>
    editTile e ix (fun cx t =>
        let t1 := bump 0x041 (ceilDiv n 64) t
        if poisonedIn t off n then faultTile cx t.seq.cycle 2 t.seq.lastPc.toNat t1 else t1)
      (countPath (units64 n) false ix (dimPath ix (hostTile engine)) d)
  | .stack ix f off =>
    let d1 := countStack f n (portAt (countPath (units64 n) false ix (dimPath ix (hostTile engine)) d) ix 9 (units64 n) false)
    editField e f (fun x => countStackRead found off (bulkGrant q n x))
      { d1 with sum := { d1.sum with ecc := d1.sum.ecc + found.corrected } }

/-- TSTREAM_PUT (R311). -/
def tstreamPut (e : Env) (m : Msg) (a : W64) (bs : List Byte) (d : Data) : Data :=
  if isLoadAddr a ∨ 8152 < bs.length then answer (some m) 1 [] d
  else match bulkPlace d a bs.length with
    | none => answer (some m) 1 [] d
    | some p => if bulkServed d (dmaOf m.engine) p then answer (some m) 0 [] (bulkWrite e m.engine (dmaOf m.engine) p bs d) else d

/-- TSTREAM_GET (R311). -/
def tstreamGet (e : Env) (m : Msg) (a : W64) (n : Nat) (found : StackFound) (d : Data) : Data :=
  if isLoadAddr a ∨ 8160 < n then answer (some m) 1 [] d
  else match bulkPlace d a n with
    | none => answer (some m) 1 [] d
    | some p =>
      if bulkServed d (dmaOf m.engine) p then
        answer (some m) 0 (bulkRead d p n) (bulkReadCount e m.engine (dmaOf m.engine) p n found d)
      else d

/-! ### Queue pairs (R309, R310) -/

/-- A host engine. -/
def hostOf (d : Data) (i : Nat) : HostEngine := look HostEngine.off d.hosts i
/-- A host engine changed. -/
def editHost (i : Nat) (f : HostEngine → HostEngine) (d : Data) : Data :=
  { d with hosts := upd HostEngine.off d.hosts i f }

/-- The lowest queue pair number not in use. -/
def freeQpn (qs : List QueuePair) : Nat := ((List.range 1025).find? fun n => qs.all fun q => q.qpn.toNat ≠ n).getD 1024

/-- QP_OPEN: up to 1,024 queue pairs per engine. The number is the lowest free one; the starting PSN and the rkey are values
the spec leaves open. -/
def qpOpen (m : Msg) (hostQpn hostPsn : W32) (cls : Nat) (d : Data) : Data :=
  let g := hostOf d m.engine
  if 1024 ≤ g.qps.length then answer (some m) 1 [] d
  else
    let n := freeQpn g.qps
    let psn := (Config.freeValue d.free).setWidth 24
    let key := (Config.freeValue (d.free + 1)).setWidth 32
    let q : QueuePair := ⟨BitVec.ofNat 32 n, psn.setWidth 32, key, hostQpn, hostPsn, cls, false⟩
    let d1 := editHost m.engine (fun g => { g with qps := g.qps ++ [q] }) { d with free := d.free + 2 }
    answer (some m) 0 (natLe 4 n ++ natLe 4 psn.toNat ++ natLe 4 key.toNat) d1

/-- QP_CLOSE. -/
def qpClose (m : Msg) (qpn : W32) (d : Data) : Data :=
  if (hostOf d m.engine).qps.any fun q => q.qpn == qpn then
    answer (some m) 0 [] (editHost m.engine (fun g => { g with qps := g.qps.filter fun q => q.qpn ≠ qpn }) d)
  else answer (some m) 1 [] d

/-- The queue pair goes to the error state with a remote access NAK (R310). -/
def qpError (engine : Nat) (qpn : W32) (d : Data) : Data :=
  answer none 1 [] (editHost engine (fun g =>
    { g with qps := g.qps.map fun q => if q.qpn = qpn then { q with error := true } else q }) d)

/-- A request is admitted by its queue pair: open, not in error, with the rkey it was given (R309). -/
def qpAdmits (d : Data) (engine : Nat) (qpn key : W32) : Bool :=
  (hostOf d engine).qps.any fun q => q.qpn == qpn && !q.error && q.rkey == key

/-- A RoCEv2 WRITE to anything but the image-load address. -/
def rdmaWrite (e : Env) (engine : Nat) (qpn key : W32) (a : W64) (bs : List Byte) (d : Data) : Data :=
  if !qpAdmits d engine qpn key then qpError engine qpn d
  else match bulkPlace d a bs.length with
    | none => qpError engine qpn d
    | some p => if bulkServed d (dmaOf qpn.toNat) p then answer none 0 [] (bulkWrite e engine (dmaOf qpn.toNat) p bs d) else d

/-- A RoCEv2 READ. -/
def rdmaRead (e : Env) (engine : Nat) (qpn key : W32) (a : W64) (n : Nat) (found : StackFound) (d : Data) : Data :=
  if !qpAdmits d engine qpn key ∨ isLoadAddr a then qpError engine qpn d
  else match bulkPlace d a n with
    | none => qpError engine qpn d
    | some p =>
      if bulkServed d (dmaOf qpn.toNat) p then
        answer none 0 (bulkRead d p n) (bulkReadCount e engine (dmaOf qpn.toNat) p n found d)
      else d

/-- Image bytes as the data plane receives them (R16). -/
def storeIncoming (off : Nat) (bs : List Byte) (d : Data) : Data :=
  { d with place := { d.place with incoming := writeBytes d.place.incoming off bs } }

/-! ### Scarf retrains (R239) -/

/-- SCARF_RETRAIN: refused while RUNNING; index 0xFF names the whole side. -/
def scarfRetrain (running : Bool) (m : Msg) (side index : Nat) (d : Data) : Data :=
  if running then answer (some m) 0x0410 [] d
  else
    let d1 := repeatN (fun i x =>
      if sideNo (engineSide i) = side ∧ (index = 0xFF ∨ i % 12 = index) then editEngine i retrain x else x) 48 d
    answer (some m) 0 [] d1

/-! ### Events to hosts (R313, R315) -/

/-- An event record's 64 bytes (R314). -/
def eventBytes (x : EvRec) : List Byte :=
  natLe 8 x.seq.toNat ++ natLe 8 x.time.toNat ++ natLe 8 x.tick.toNat ++ natLe 8 x.beat.toNat ++ natLe 2 x.code.toNat ++
    natLe 1 x.module.toNat ++ natLe 1 0 ++ (x.detail ++ List.replicate (28 - x.detail.length) 0).take 28

/-- Up to 64 records from a wanted sequence, or from the oldest held. -/
def recordsFrom (r : EvRing) (next : W64) : List (List Byte) := ((r.recs.filter fun x => !x.seq.ult next).take 64).map eventBytes

/-- An event acknowledgement (R315): a subscriber's wanted sequence and its last acknowledgement; a new subscriber is taken
while fewer than 8 are kept. -/
def ringAck (ts : W64) (engine addr : Nat) (next : W64) (subscribe : Bool) (r : EvRing) : EvRing :=
  let s : Subscriber := ⟨addr, engine, next, ts⟩
  if r.subs.any fun x => x.addr == addr then
    { r with subs := r.subs.map fun x => if x.addr = addr then s else x, sent := recordsFrom r next }
  else if subscribe ∧ r.subs.length < 8 then { r with subs := r.subs ++ [s], sent := recordsFrom r next }
  else r

/-- The records of a subscriber are sent again (R315). -/
def ringResend (addr : Nat) (r : EvRing) : EvRing :=
  match r.subs.find? fun x => x.addr == addr with
  | some s => { r with sent := recordsFrom r s.next }
  | none => r

/-- A subscriber that has acknowledged nothing for 5 s lapses (R315). -/
def ringLapse (ts : W64) (addr : Nat) (r : EvRing) : EvRing :=
  { r with subs := r.subs.filter fun x => !(x.addr == addr && decide (5000000000 ≤ (ts - x.lastAck).toNat)) }

/-- DATA_EVENT_ACK. -/
def dataEventAck (e : Env) (m : Msg) (next : W64) (subscribe : Bool) (d : Data) : Data :=
  answer (some m) 0 [] { d with ring := ringAck e.ts m.engine m.addr next subscribe d.ring }

/-! ### Ports (R292, R293) -/

/-- A frame that is neither command transport nor RoCEv2. -/
inductive OtherFrame where
  | ipv4 | otherUdp | neighbourDiscovery | echo | pause (priority : Nat)
deriving DecidableEq, Repr

/-- IPv4 and other UDP ports are discarded and counted; discovery, echo and flow control are handled by the engine itself
and leave no state (R292). -/
def otherFrame (engine : Nat) (k : OtherFrame) (d : Data) : Data :=
  match k with
  | .ipv4 => editHost engine (fun g => { g with discarded := g.discarded + 1 }) d
  | .otherUdp => editHost engine (fun g => { g with discarded := g.discarded + 1 }) d
  | .neighbourDiscovery => d
  | .echo => d
  | .pause _ => d

/-- A port retrains: the spare channel takes a lane that fails its self-check, and the flow-control priority applies
(R292, R293). -/
def portRetrain (engine : Nat) (failed : Option Nat) (pfc : Nat) (d : Data) : Data :=
  editHost engine (fun g => { g with
    pfc := pfc
    sparedLane := match g.sparedLane, failed with
      | none, some l => some l
      | s, _ => s }) d

end Sys2Proof.Machine
end

