-- ==== Sys2Proof/Machine/CtrlState.lean ====
section
/-!
DEFINITION. The state of the control plane (R13): sessions, run control, the load in progress, run events, and the joint J2
as it presents it to the control block (chapter 09, R17, R528).
-/

namespace Sys2Proof.Machine

/-- Module states (R31, R445). -/
inductive ModState where
  | off | standby | coldStart | warmStart | ready | running | held | safeStop | leakCut | service
deriving DecidableEq, Repr

/-- The module state code (R445). -/
def modCode : ModState → Nat
  | .off => 0 | .standby => 1 | .coldStart => 2 | .warmStart => 3 | .ready => 4 | .running => 5 | .held => 6
  | .safeStop => 7 | .leakCut => 8 | .service => 9

/-- Run states (R301). -/
inductive RcState where
  | noImage | loading | loaded | armed | running | held | turning | void | stopping
deriving DecidableEq, Repr

/-- The rc_state code (R301). -/
def rcCode : RcState → Nat
  | .noImage => 0 | .loading => 1 | .loaded => 2 | .armed => 3 | .running => 4 | .held => 5 | .turning => 6 | .void => 7
  | .stopping => 8

/-- The J2 state word (R528), with the run bits of the J4 snapshot that Skour relays with it (log 20). -/
structure J2Word where
  module : ModState
  order : Nat
  pending : Bool
  step : Nat
  cap : F32
  capWidths : W32
  verdict : BitVec 16
  verdictCount : Byte
  rackAlive : Bool
  throttle : Bool
  advancing : Bool
  beatFault : Bool
deriving DecidableEq, Repr

/-- An order request on J2 (R17, R305, R358). -/
structure OrderReq where
  cmdId : W64
  stamp : W64
  turn : Nat
  op : Nat
deriving DecidableEq, Repr

/-- The run-control commands (R300, R304). -/
inductive RunCmd where
  | loadBegin (len : Nat) (repair : List Byte)
  | restore
  | sysDesc (payload : List Byte)
  | start | hold | resume | checkpoint
  | turn (g : Nat)
  | stop
  | hostCap (v : F32)
deriving DecidableEq, Repr

/-- A run-control command as it arrived: its header, its stamp, and the state word at its arrival (R24, R303). -/
structure Waiting where
  msg : Msg
  cmd : RunCmd
  stamp : W64
  word : J2Word
deriving DecidableEq, Repr

/-- A stored response (R298). -/
structure Response where
  seq : W32
  cmdId : W64
  status : BitVec 16
  data : List Byte
deriving DecidableEq, Repr

/-- A session (R299, R300). -/
structure Session where
  num : W32
  /-- the OPEN that made it -/
  addr : Nat
  openSeq : W32
  lastMsg : W64
  /-- last HEARTBEAT since the control role was granted, and the grant -/
  lastBeat : Option W64
  granted : W64
  /-- its last 256 responses, latest first -/
  answered : List Response
deriving DecidableEq, Repr

/-- A response as it left: the model's own output latch (log 8). -/
structure CtrlReply where
  engine : Nat
  session : W32
  resp : Response
  resent : Bool
deriving DecidableEq, Repr

/-- A load in progress (R308). -/
structure LoadJob where
  len : Nat
  repair : List Byte
  bytes : Memory
  got : List (Nat × Nat)
  last : W64
  /-- checks 2 to 9 have passed -/
  judged : Bool
deriving DecidableEq, Repr

/-- A J2 journal record before Skour takes it (R307). -/
structure JournalRec where
  time : W64
  source : Nat
  authority : Nat
  kind : Nat
  index : Nat
  sub : Nat
  value : W64
  result : BitVec 16
deriving DecidableEq, Repr

/-- The control plane. -/
structure Ctrl where
  on : Bool
  rc : RcState
  restart : Bool
  /-- why the run is void: 0x0417 after a beat fault, 0x0415 after a failed turn -/
  voidCode : BitVec 16
  sessions : List Session
  control : Option W32
  nextSession : W32
  queue : List Waiting
  current : Option Waiting
  orderReq : Option OrderReq
  hostCap : F32
  hostAlive : Bool
  journal : List JournalRec
  lastCmd : W64
  ring : EvRing
  load : Option LoadJob
  image : Option ImgHeader
  /-- the repair map that the load of the image delivered, as LOAD_BEGIN carried it (R263, R273) -/
  repair : List Byte
  desc : Option SysDesc
  keys : List (Option ImageKey)
  /-- the profile and step_expected on J2, sent once per load (R17) -/
  profile : Option (List Byte)
  stepExpected : Nat
  profileDue : Bool
  word : J2Word
  placement : W32
  /-- HALT_CAUSE on J3 -/
  haltCause : Byte
  reply : Option CtrlReply
deriving DecidableEq, Repr

/-- The state word before Skour has written one. -/
def J2Word.reset : J2Word :=
  ⟨.off, 1, false, 12, 0x46EA6000#32, 0x44444444#32, 0, 0, false, false, false, false⟩

/-- The placement word with load_check not yet made (R17). -/
def placementReset : W32 := 0xFFFF0000#32

/-- The control block without power. Session numbers start at 1 (log 21). -/
def Ctrl.reset : Ctrl :=
  ⟨false, .noImage, false, 0x0417, [], none, 1, [], none, none, 0, false, [], 0, EvRing.fresh, none, none, [], none,
    [none, none, none, none], none, 0, false, J2Word.reset, placementReset, 0, none⟩

end Sys2Proof.Machine
end

