-- ==== Sys2Proof/Machine/Control.lean ====
section
/-!
DEFINITION. The command transport and run control (chapter 09): sessions, the judging of run-control commands, order
requests and verdicts, loads, and how run control follows the state word.
-/

namespace Sys2Proof.Machine

/-- What the control plane reads from outside itself: TSCLK, the counts event records carry, the module's number. -/
structure CEnv where
  ts : W64
  tick : W64
  beat : W64
  module : BitVec 8
deriving DecidableEq, Repr

/-- A run event (R313, R314). -/
def raiseRun (e : CEnv) (code : Nat) (detail : List Byte) (c : Ctrl) : Ctrl :=
  { c with ring := ringRaise c.ring 0x02FF ⟨0, e.ts, e.tick, e.beat, BitVec.ofNat 16 code, e.module, detail⟩ }

/-- rc_state moves, with its event (R301). -/
def setRc (e : CEnv) (s : RcState) (cmd : W64) (c : Ctrl) : Ctrl :=
  if c.rc = s then c
  else raiseRun e 0x0202 (natLe 1 (rcCode c.rc) ++ natLe 1 (rcCode s) ++ natLe 8 cmd.toNat) { c with rc := s }

/-! ### Sessions and responses (R297–R300) -/

/-- A session by its number. -/
def sessionOf (c : Ctrl) (n : W32) : Option Session := c.sessions.find? fun s => s.num == n

/-- A session changed. -/
def editSession (n : W32) (f : Session → Session) (c : Ctrl) : Ctrl :=
  { c with sessions := c.sessions.map fun s => if s.num = n then f s else s }

/-- A response leaves by the engine its request came by, and its session keeps it (R294, R298). -/
def respond (m : Msg) (status : Nat) (bs : List Byte) (c : Ctrl) : Ctrl :=
  let r : Response := ⟨m.seq, m.cmdId, BitVec.ofNat 16 status, bs⟩
  editSession m.session (fun s => { s with answered := (r :: s.answered).take 256 })
    { c with reply := some ⟨m.engine, m.session, r, false⟩ }

/-- A response to a message that names no session: nothing is kept. -/
def respondBare (m : Msg) (status : Nat) (c : Ctrl) : Ctrl :=
  { c with reply := some ⟨m.engine, m.session, ⟨m.seq, m.cmdId, BitVec.ofNat 16 status, []⟩, false⟩ }

/-- The stored response to a seq already answered (R298). -/
def answeredAs (s : Session) (seq : W32) : Option Response := s.answered.find? fun r => r.seq == seq

/-- A message of a known session whose seq is new goes on to `f`; a known seq gets its stored response; an unknown session
is refused (R297, R298). -/
def inSession (e : CEnv) (m : Msg) (f : Ctrl → Ctrl) (c : Ctrl) : Ctrl :=
  if !c.on then c
  else match sessionOf c m.session with
    | none => respondBare m 0x0102 c
    | some s =>
      let c1 := editSession m.session (fun s => { s with lastMsg := e.ts }) c
      match answeredAs s m.seq with
      | some r => { c1 with reply := some ⟨m.engine, m.session, r, true⟩ }
      | none => f c1

/-- The buffer of J2 journal records is full (R23): one place stays free for the command whose verdict is awaited, so that the
record of a command that run control accepted always finds one. -/
def journalFull (c : Ctrl) : Bool := decide (4096 ≤ c.journal.length + b2n c.current.isSome)

/-- A J2 journal record; a full buffer takes none (R23). -/
def journal (m : Msg) (typ : Nat) (time value : W64) (result : Nat) (c : Ctrl) : Ctrl :=
  if journalFull c then c
  else
    let r : JournalRec := ⟨time, 0x10 + m.engine, 4, 3, 0x7002, typ, value, BitVec.ofNat 16 result⟩
    { c with journal := c.journal ++ [r] }

/-- The response a session keeps of the OPEN that made it, while it is among the last 256 (R298). -/
def openAnswer (s : Session) : Option Response := s.answered.getLast?.filter fun r => r.seq == s.openSeq

/-- OPEN (R299, R300). A resent OPEN gets the response it was given (R298). -/
def openSession (e : CEnv) (m : Msg) (control force : Bool) (c : Ctrl) : Ctrl :=
  if !c.on then c
  else match (c.sessions.filter fun s => s.addr == m.addr && s.openSeq == m.seq).findSome? openAnswer with
    | some r => { c with reply := some ⟨m.engine, m.session, r, true⟩ }
    | none =>
      let held := c.control.isSome
      if 8 ≤ c.sessions.length then respondBare m 0x0103 c
      else if control ∧ held ∧ !force then respondBare m 0x0502 c
      else if control ∧ journalFull c then respondBare m 0x0419 c
      else
        let n := c.nextSession
        let s : Session := ⟨n, m.addr, m.seq, e.ts, none, e.ts, []⟩
        let c1 := { c with sessions := c.sessions ++ [s], nextSession := n + 1 }
        let c2 := if control then
            journal m 1 e.ts m.cmdId 0 { c1 with control := some n, hostAlive := false }
          else c1
        let c3 := respond { m with session := n } 0 (natLe 4 n.toNat) c2
        { c3 with reply := some ⟨m.engine, m.session, ⟨m.seq, m.cmdId, 0, natLe 4 n.toNat⟩, false⟩ }

/-- A session ends; the control role ends with it (R299, R300). -/
def dropSession (n : W32) (c : Ctrl) : Ctrl :=
  { c with
    sessions := c.sessions.filter fun s => s.num ≠ n
    control := if c.control = some n then none else c.control
    hostAlive := if c.control = some n then false else c.hostAlive }

/-- CLOSE (R299). -/
def closeSession (e : CEnv) (m : Msg) (c : Ctrl) : Ctrl :=
  inSession e m (fun x => dropSession m.session (respond m 0 [] x)) c

/-- The state word's 16 bytes (R528). -/
def wordBytes (w : J2Word) : List Byte :=
  natLe 1 (modCode w.module) ++ natLe 1 (w.order + 128 * b2n w.pending) ++ natLe 1 w.step ++ natLe 1 0 ++
    natLe 4 w.cap.toNat ++ natLe 4 w.capWidths.toNat ++ natLe 2 w.verdict.toNat ++ [w.verdictCount] ++
    natLe 1 (b2n w.rackAlive + 2 * b2n w.throttle)

/-- HEARTBEAT (R296, R300, R316): the status block. -/
def heartbeat (e : CEnv) (m : Msg) (c : Ctrl) : Ctrl :=
  inSession e m (fun x =>
    let own := decide (x.control = some m.session)
    let x1 := if own then
        { editSession m.session (fun s => { s with lastBeat := some e.ts }) x with hostAlive := true } else x
    let block := wordBytes x1.word ++ natLe 1 (rcCode x1.rc) ++ natLe 1 (b2n x1.hostAlive) ++
      natLe 4 (x1.control.getD 0).toNat ++ natLe 8 x1.lastCmd.toNat
    respond m 0 block x1) c

/-- RUN_EVENT_ACK (R315). -/
def runEventAck (e : CEnv) (m : Msg) (next : W64) (subscribe : Bool) (c : Ctrl) : Ctrl :=
  inSession e m (fun x => respond m 0 [] { x with ring := ringAck e.ts m.engine m.addr next subscribe x.ring }) c

/-- A session silent for more than 60 s is closed (R299). -/
def sessionTimeout (e : CEnv) (n : W32) (c : Ctrl) : Ctrl :=
  match sessionOf c n with
  | some s => if 60000000000 < (e.ts - s.lastMsg).toNat then dropSession n c else c
  | none => c

/-- The control session has sent no HEARTBEAT for more than 5 s (R300, R316). -/
def roleLost (e : CEnv) (c : Ctrl) : Ctrl :=
  match c.control with
  | none => c
  | some n =>
    match sessionOf c n with
    | none => c
    | some s =>
      if 5000000000 < (e.ts - s.lastBeat.getD s.granted).toNat then { c with control := none, hostAlive := false } else c

/-! ### Checks (R304) -/

/-- The message type of a run-control command (R296). -/
def cmdType : RunCmd → Nat
  | .loadBegin .. => 0x10 | .restore => 0x12 | .sysDesc _ => 0x13 | .start => 0x20 | .hold => 0x21 | .resume => 0x22
  | .checkpoint => 0x23 | .turn _ => 0x24 | .stop => 0x25 | .hostCap _ => 0x26

/-- The J2 op code of an accepted command that Skour judges (R305, R358). -/
def cmdOp : RunCmd → Option Nat
  | .start => some 1 | .resume => some 2 | .stop => some 3 | .checkpoint => some 4 | .turn _ => some 5
  | .hold => some 0x10 | .hostCap _ => some 0x11 | _ => none

/-- The placement word's fields (R17). -/
def pwLoadCheck (p : W32) : Nat := (p.extractLsb' 16 16).toNat
def pwTurnOk (p : W32) (t : Nat) : Bool := p.getLsbD (8 + t)
def pwCode (p : W32) : Nat := (p.extractLsb' 5 3).toNat
def pwTurnState (p : W32) : Nat := (p.extractLsb' 2 3).toNat

/-- A system description's fields from its 44 bytes (R241). -/
def descOf (own : Byte) (b : List Byte) : SysDesc :=
  let x := (b.getD 4 0).toNat
  ⟨own, BitVec.ofNat 32 (leNat (b.take 4)), x % 16, x / 16, (b.getD 5 0).toNat % 4,
    BitVec.ofNat 256 (leNat ((b.drop 8).take 32)), BitVec.ofNat 32 (leNat ((b.drop 40).take 4))⟩

/-- The refusals of a description's contents (R241). -/
def descValid (payload : List Byte) : Bool :=
  let b := payload.drop 1
  let s := descOf (payload.headD 0) b
  decide (payload.length = 45) && decide (crc32 (b.take 40) = s.digest) && decide (s.scarfDelay ≠ 0) &&
    decide (s.own.toNat % 16 ≤ s.sizeX) && decide (s.own.toNat / 16 ≤ s.sizeY)

/-- The refusal of a run that is void (R301). -/
def voidRefusal (c : Ctrl) : Option Nat := if c.rc = .void then some c.voidCode.toNat else none

/-- A run exists to act on: ARMED, RUNNING or HELD (R304). -/
def hasRun (r : RcState) : Bool := r == .armed || r == .running || r == .held

/-- The command's own checks (R273, R304). `fits` tells whether every checkpoint header fits a restore (R290), `settled`
whether a root failover has settled (R174); `caps` is the repair map the load delivered. -/
def ownChecks (w : J2Word) (fits settled : Bool) (rep : Repair) (cmd : RunCmd) (c : Ctrl) : Nat :=
  let ready := decide (w.module = .ready)
  match cmd with
  | .loadBegin .. => if ready then 0 else 0x0410
  | .restore =>
    if !ready then 0x0410
    else if c.image.isNone ∨ c.rc = .noImage ∨ c.rc = .stopping then 0x0412
    else match voidRefusal c with
      | some s => s
      | none => if fits then 0 else 0x0413
  | .sysDesc p => if w.module = .running ∨ w.module = .held then 0x0410 else if descValid p then 0 else 0x0101
  | .start =>
    if c.image.isNone then 0x0412
    else match voidRefusal c with
      | some s => s
      | none => if c.rc = .turning then 0x0414 else if c.rc = .armed ∨ c.rc = .running then 0x041B
        else if c.rc = .stopping then 0x0412 else 0
  | .hold => 0
  | .resume =>
    match voidRefusal c with
    | some s => s
    | none => if c.rc = .turning then 0x0414 else if c.restart then 0x0416 else if !settled then 0x0418
      else if c.rc = .held then 0 else 0x041C
  | .checkpoint =>
    match c.image with
    | none => 0x0412
    | some h => if h.tpPeriod = 0 then 0x0412 else if c.rc = .turning then 0x0414 else if hasRun c.rc then 0 else 0x041D
  | .turn g =>
    match c.image with
    | none => 0x0412
    | some h =>
      let t := compose (pwCode c.placement) g
      if h.tpPeriod = 0 then 0x0412 else if c.rc = .turning ∨ pwTurnState c.placement = 2 then 0x0414
      else if !codeLegal h rep (h.sizeX + 1, h.sizeY + 1) t then 0x0411
      else if !pwTurnOk c.placement t then 0x0314 else if hasRun c.rc then 0 else 0x041D
  | .stop => if c.rc = .noImage ∨ c.rc = .loaded then 0x041D else if c.rc = .loading then 0x041E else 0
  | .hostCap _ => 0

/-- Checks 2 to 5 of R304, in order; 0 accepts. -/
def checkCmd (w : J2Word) (fits settled : Bool) (rep : Repair) (cmd : RunCmd) (c : Ctrl) : Nat :=
  let powered := w.module == .ready || w.module == .running || w.module == .held
  let skip3 : Bool := match cmd with | .hostCap _ => true | .sysDesc _ => w.module == .standby | _ => false
  let ordered : Bool := match cmd with | .start => true | .resume => true | .loadBegin .. => true | _ => false
  if journalFull c then 0x0419
  else if !powered ∧ !skip3 then 0x0410
  else if ordered ∧ w.order ≠ 2 then 0x041A
  else ownChecks w fits settled rep cmd c

/-! ### Judging one command (R303–R307) -/

/-- A command is judged: its response, its journal record, and the cmd_id HEARTBEAT reports. -/
def finishCmd (x : Waiting) (status : Nat) (bs : List Byte) (c : Ctrl) : Ctrl :=
  journal x.msg (cmdType x.cmd) x.stamp x.msg.cmdId status
    (respond x.msg status bs { c with lastCmd := x.msg.cmdId })

/-- What an accepted command changes beyond the control plane. -/
inductive Carry where
  | nothing
  | loadBegun
  | described (s : SysDesc)
  | restored
deriving DecidableEq, Repr

/-- The control plane's part of an accepted command: an order request for Skour, or its effect here (R305, R308, R290). -/
def acceptCmd (e : CEnv) (x : Waiting) (c : Ctrl) : Ctrl × Carry :=
  match cmdOp x.cmd with
  | some op =>
    let turn := match x.cmd with | .turn g => g | _ => 0
    let cap := match x.cmd with | .hostCap v => v | _ => c.hostCap
    ({ c with current := some x, orderReq := some ⟨x.msg.cmdId, x.stamp, turn, op⟩, hostCap := cap }, .nothing)
  | none =>
    match x.cmd with
    | .loadBegin len rep =>
      let job : LoadJob := ⟨len, rep, [], [], e.ts, false⟩
      (setRc e .loading x.msg.cmdId (finishCmd x 0 [] { c with load := some job, image := none, restart := false }),
        .loadBegun)
    | .sysDesc p =>
      let s := descOf (p.headD 0) (p.drop 1)
      (finishCmd x 0 [] { c with desc := some s }, .described s)
    | .restore => (setRc e .held x.msg.cmdId (finishCmd x 0 [] { c with restart := true }), .restored)
    | _ => (c, .nothing)

/-- One command judged: the role check of R300 first, then those of R304. -/
def judge (e : CEnv) (fits settled : Bool) (rep : Repair) (x : Waiting) (c : Ctrl) : Ctrl × Carry :=
  let code := if c.control ≠ some x.msg.session then 0x0501 else checkCmd x.word fits settled rep x.cmd c
  if code = 0 then acceptCmd e x c else (finishCmd x code [] c, .nothing)

/-- A command takes its place among those that wait: in the order of the stamps, and on equal stamps of the host engines
(R303). -/
def insertWaiting (x : Waiting) (q : List Waiting) : List Waiting :=
  let (early, late) := q.partition fun y => y.stamp != x.stamp || decide (y.msg.engine ≤ x.msg.engine)
  early ++ x :: late

/-- A run-control command arrives (R297, R298, R303): it waits while an earlier one waits or has no verdict. -/
def arrive (e : CEnv) (fits settled : Bool) (rep : Repair) (m : Msg) (cmd : RunCmd) (c : Ctrl) : Ctrl × Carry :=
  if !c.on then (c, .nothing)
  else match sessionOf c m.session with
    | none => (finishCmd ⟨m, cmd, e.ts, c.word⟩ 0x0102 [] c, .nothing)
    | some s =>
      let c1 := editSession m.session (fun s => { s with lastMsg := e.ts }) c
      let x : Waiting := ⟨m, cmd, e.ts, c.word⟩
      match answeredAs s m.seq with
      | some r => ({ c1 with reply := some ⟨m.engine, m.session, r, true⟩ }, .nothing)
      | none =>
        if c.current.isSome || !c.queue.isEmpty then
          if 64 ≤ c.queue.length then (finishCmd x 0x041F [] c1, .nothing)
          else ({ c1 with queue := insertWaiting x c1.queue }, .nothing)
        else judge e fits settled rep x c1

/-- The next waiting command is judged once no verdict is awaited (R303); one that was answered while it waited gets the stored
response (R298). -/
def judgeNext (e : CEnv) (fits settled : Bool) (rep : Repair) (c : Ctrl) : Ctrl × Carry :=
  match c.current, c.queue with
  | none, x :: rest =>
    match (sessionOf c x.msg.session).bind fun s => answeredAs s x.msg.seq with
    | some r => ({ c with queue := rest, reply := some ⟨x.msg.engine, x.msg.session, r, true⟩ }, .nothing)
    | none => judge e fits settled rep x { c with queue := rest }
  | _, _ => (c, .nothing)

/-- Skour's verdict on the command awaited (R301, R306). -/
def verdictIn (e : CEnv) (code : Nat) (c : Ctrl) : Ctrl :=
  match c.current with
  | none => c
  | some x =>
    let c1 := finishCmd x code [] { c with current := none, orderReq := none }
    if code ≠ 0 then c1
    else match x.cmd with
      | .start => setRc e .armed x.msg.cmdId { c1 with restart := false }
      | .resume => setRc e .armed x.msg.cmdId c1
      | .stop => setRc e .stopping x.msg.cmdId c1
      | _ => c1

/-- No verdict within 20 frames of arrival (R306). -/
def verdictTimeout (e : CEnv) (c : Ctrl) : Ctrl :=
  match c.current with
  | some x => if 20000000 ≤ (e.ts - x.stamp).toNat then verdictIn e 0x0420 c else c
  | none => c

/-! ### Following the state word (R301, R302) -/

/-- The module has left READY, RUNNING and HELD: any run and any load is abandoned. -/
def abandon (e : CEnv) (c : Ctrl) : Ctrl :=
  setRc e .noImage 0 { c with load := none, image := none, restart := false }

/-- rc_state follows the state word and the placement word. A beat fault leaves a loaded image or a run that only a stop
may follow (R154, R301). -/
def followWord (e : CEnv) (c : Ctrl) : Ctrl :=
  let w := c.word
  let ts := pwTurnState c.placement
  if w.module ≠ .ready ∧ w.module ≠ .running ∧ w.module ≠ .held then abandon e c
  else if w.beatFault ∧ (hasRun c.rc ∨ c.rc = .turning ∨ c.rc = .loaded) then setRc e .void 0 { c with voidCode := 0x0417 }
  else if ts = 2 ∧ hasRun c.rc then setRc e .turning 0 c
  else if ts = 3 ∧ c.rc = .turning then setRc e .held 0 { c with restart := true }
  else if ts = 4 ∧ (c.rc = .turning ∨ hasRun c.rc) then setRc e .void 0 { c with voidCode := 0x0415 }
  else if (c.rc = .armed ∨ c.rc = .held) ∧ w.advancing ∧ w.module = .running then setRc e .running 0 c
  else if c.rc = .running ∧ w.module = .held then setRc e .held 0 c
  else c

/-- A new state word and placement word on J2 (R17, R24, R302, R306). -/
def takeWord (e : CEnv) (w : J2Word) (p : W32) (c : Ctrl) : Ctrl :=
  if !c.on then { c with word := w, placement := p }
  else
    let fresh := w.verdictCount != c.word.verdictCount
    let c1 := { c with word := w, placement := p }
    followWord e (if fresh then verdictIn e w.verdict.toNat c1 else c1)

/-! ### Loads (R260, R308) -/

/-- The load's result leaves as the load-complete event (R308); a refusal leaves no image (R260). -/
def endLoad (e : CEnv) (r : LoadReport) (c : Ctrl) : Ctrl :=
  let c1 := raiseRun e 0x0201 (reportBytes r) { c with load := none }
  if r.result = 0 then setRc e .loaded 0 c1 else setRc e .noImage 0 { c1 with image := none }

/-- Image bytes taken into the control block's copy; bytes beyond the image length are not part of it. -/
def takeBytes (e : CEnv) (off : Nat) (bs : List Byte) (j : LoadJob) : LoadJob :=
  let b := bs.take (j.len - off)
  { j with bytes := writeBytes j.bytes off b, got := addRange off (off + b.length) j.got, last := e.ts }

/-- Every byte of the image this module receives has arrived (R259, R308): all but the sections of other modules. -/
def loadFull (own : Nat) (j : LoadJob) : Bool :=
  let h := readHeader j.bytes
  if !hasRange 0 (min 1024 j.len) j.got then false
  else if j.len ≤ signedEnd h ∨ !hasRange 0 (signedEnd h) j.got then hasRange 0 j.len j.got
  else
    let others := (readTable j.bytes h).filter fun s => !mine own s
    hasRange 0 j.len (others.foldl (fun rs s => addRange s.offset (min j.len (s.offset + s.length)) rs) j.got)

/-- Checks 2 to 9 on a load whose last byte has arrived. -/
def judgeLoad (own capWord least : Nat) (fieldCap : Nat → Nat → Nat) (c : Ctrl) (j : LoadJob) : Option LoadReport :=
  match judgeImage j.bytes j.len own (repairOf j.repair) capWord c.keys c.desc least with
  | some r => some r
  | none =>
    let h := readHeader j.bytes
    ((readTable j.bytes h).filter (mine own)).findSome? fun s => checkSection j.bytes (fieldCap s.row s.col) s

/-- No load data for 10 s (R308). -/
def loadTimedOut (e : CEnv) (c : Ctrl) : Bool :=
  match c.load with
  | some j => !j.judged && decide (10000000000 ≤ (e.ts - j.last).toNat)
  | none => false

/-- The profile section and step_expected go out on J2 (R17, R263 step 6); the image is loaded only once the load completes. -/
def sendProfile (j : LoadJob) (c : Ctrl) : Ctrl :=
  let h := readHeader j.bytes
  let p := (readTable j.bytes h).find? fun s => wholeKind s.kind
  { c with
    profile := p.map fun s => readBytes j.bytes s.offset s.length
    stepExpected := h.minStep, profileDue := true }

/-- The last byte has arrived, Skour holds the profile and min_step (R263, R264), and check 10 is known: the load completes, or
is refused with 0x0314 (R274, R308). -/
def loadComplete (e : CEnv) (c : Ctrl) : Option LoadReport × Ctrl :=
  match c.load with
  | some j =>
    if !j.judged ∨ c.profileDue ∨ pwLoadCheck c.placement = 0xFFFF then (none, c)
    else if pwLoadCheck c.placement = 0 then
      (some .ok, endLoad e .ok { c with
        image := some (readHeader j.bytes)
        repair := j.repair })
    else
      let r := LoadReport.plain (pwLoadCheck c.placement)
      (some r, endLoad e r c)
  | none => (none, c)

/-! ### Datagrams (R295–R297) -/

/-- A message's 32-byte header (R295). -/
def headerBytes (typ flags len : Nat) (m : Msg) (status : Nat) : List Byte :=
  natLe 2 0x4B57 ++ natLe 1 1 ++ natLe 1 typ ++ natLe 2 flags ++ natLe 2 len ++ natLe 4 m.session.toNat ++
    natLe 4 m.seq.toNat ++ natLe 8 m.cmdId.toNat ++ natLe 2 status ++ natLe 6 0

/-- The bytes of a type's fixed fields, and whether data may follow them; none for a type that no host sends (R296). -/
def typeLen (typ : Nat) : Option (Nat × Bool) :=
  if typ = 0x01 then some (2, false)
  else if typ = 0x10 then some (168, false)
  else if typ = 0x11 then some (8, true)
  else if typ = 0x13 then some (1, true)
  else if typ = 0x24 then some (1, false)
  else if typ = 0x26 then some (4, false)
  else if typ = 0x30 then some (10, false)
  else if typ = 0x31 then some (20, false)
  else if typ = 0x32 then some (8, true)
  else if typ = 0x33 then some (12, false)
  else if typ = 0x34 then some (9, false)
  else if typ = 0x35 then some (4, false)
  else if typ = 0x36 then some (2, false)
  else if typ = 0x41 ∨ typ = 0x43 then some (9, false)
  else if typ = 0x02 ∨ typ = 0x03 ∨ typ = 0x12 ∨ typ = 0x20 ∨ typ = 0x21 ∨ typ = 0x22 ∨ typ = 0x23 ∨ typ = 0x25 then some (0, false)
  else none

/-- Field values that a type defines: OPEN's role and force, TURN's code, an engine of a side, a traffic class, subscribe
(R296, R297). -/
def valuesOk (typ : Nat) (p : List Byte) : Bool :=
  let b (i : Nat) : Nat := (p.getD i 0).toNat
  if typ = 0x01 then decide (b 0 ≤ 1) && decide (b 1 ≤ 1)
  else if typ = 0x24 then decide (b 0 < 8)
  else if typ = 0x34 then decide (b 8 < 3)
  else if typ = 0x36 then decide (b 0 < 4) && (decide (b 1 < 12) || b 1 == 0xFF)
  else if typ = 0x41 ∨ typ = 0x43 then decide (b 8 ≤ 1)
  else true

/-- The datagram is answered with 0x0101 and otherwise ignored (R297). -/
def badDatagram (bs : List Byte) : Bool :=
  let f (o n : Nat) : Nat := leNat ((bs.drop o).take n)
  let p := bs.drop 32
  decide (bs.length < 32) || f 0 2 != 0x4B57 || f 2 1 != 1 || f 6 2 != p.length ||
    (match typeLen (f 3 1) with
      | none => true
      | some (n, more) => (if more then decide (p.length < n) else p.length != n) || !valuesOk (f 3 1) p)

/-- The header of a datagram that came by host engine `engine` from `addr`. -/
def datagramMsg (engine addr : Nat) (bs : List Byte) : Msg :=
  let f (o n : Nat) : Nat := leNat ((bs.drop o).take n)
  ⟨engine, addr, BitVec.ofNat 32 (f 8 4), BitVec.ofNat 32 (f 12 4), BitVec.ofNat 64 (f 16 8)⟩

/-- BAD_MESSAGE (R297). -/
def badMessage (engine addr : Nat) (bs : List Byte) (c : Ctrl) : Ctrl :=
  if c.on && badDatagram bs then respondBare (datagramMsg engine addr bs) 0x0101 c else c

/-- The control block switches on: its run-event sequence starts at 1 (R313). Keys, description and J2's items stay. -/
def ctrlPowerUp (c : Ctrl) : Ctrl :=
  { Ctrl.reset with on := true, keys := c.keys, desc := c.desc, word := c.word, placement := c.placement }

/-- The control block loses its power. -/
def ctrlPowerDown (c : Ctrl) : Ctrl :=
  { Ctrl.reset with keys := c.keys, desc := c.desc, word := c.word, placement := c.placement }

end Sys2Proof.Machine
end

