-- ==== Sys2Proof/Machine/MgmtState.lean ====
section
/-!
DEFINITION. The state of the management plane (chapters 11 to 16): Skour, its retained store and journal, the power path,
the coolant and thermal policy, the actuator sequencers, and the rack bus. Entries of the object dictionary whose value is
only stored stand in `dict`; every other entry is computed from the fields here when it is read.
-/

namespace Sys2Proof.Machine

/-! ### Skour, the retained store and the journal (chapter 14) -/

/-- A pair's state, in the codes of pair_state (R468). -/
inductive PairSt where
  | active | standby | resync | selftest | failed | retired
deriving DecidableEq, Repr

/-- Whether Skour runs: up; in a management-only warm start since a time and a beat counter of the latest snapshot; or down
(R438, R449, R455). -/
inductive SkourRun where
  | up
  | restart (since : W64) (sillOrdered : Bool) (beats : Nat)
  | down
deriving DecidableEq, Repr

/-- A journal entry (R463). -/
structure JEnt where
  sequence : Nat
  time : W64
  beat : W32
  source : Nat
  authority : Nat
  index : Nat
  sub : Nat
  kind : Nat
  value : W64
  result : BitVec 16
deriving DecidableEq, Repr

/-- A settings or records image in one copy of the retained store (R457, R458). -/
structure StoreCopy where
  valid : Bool
  gen : Nat
  values : SMap Nat
deriving DecidableEq, Repr

/-- A start in progress (R447, R451); `primed`: its prime has begun. -/
structure StartJob where
  cold : Bool
  step : Nat
  since : W64
  began : W64
  primed : Bool
deriving DecidableEq, Repr

/-- The clock monitor's judgement of an oscillator (R440). -/
inductive OscCond where
  | good | lost | deviating
deriving DecidableEq, Repr

/-- The clock monitor (R440–R443): what drives REF, each oscillator's condition, and the moves to OSC-B in the last hour. -/
structure Clocks where
  source : Nat
  a : OscCond
  b : OscCond
  moves : List W64
deriving DecidableEq, Repr

/-! ### Power (chapter 11) -/

/-- The reasons for which Skour holds throttle on J1, each apart (R342, R343, R365, R388, R391, R393, R401, R417). -/
structure Throttles where
  busUv : Bool
  blocks : Bool
  capUnmet : Bool
  flowTerm : Bool
  flowStop : Bool
  clamp : Bool
  valves : SMap Bool
deriving DecidableEq, Repr

/-- One phase of a power profile (R360). -/
structure Phase where
  beats : Nat
  act : Nat
  peakAct : Nat
  stackAct : Nat
  stackPeak : Nat
deriving DecidableEq, Repr

/-- A profile (R360); none when missing or malformed (R362). -/
structure Profile where
  loopFrom : Nat
  phases : List Phase
deriving DecidableEq, Repr

/-- A breach of the envelope guarantee in progress (R369): its highest frame power ÷ cap and its length in frames. -/
structure Breach where
  peak : Rat
  frames : Nat
deriving DecidableEq, Repr

/-- The power path and Skour's power policy. Powers are in mW. -/
structure Power where
  /-- 1,000 frame powers at most, latest first (R351) -/
  frames : List Nat
  minuteSum : Nat
  minuteFrames : Nat
  /-- energy since power came, in µJ, beyond the whole mJ of the energy entry -/
  energyPart : Nat
  /-- service draw over the last second (R363) -/
  service : Nat
  capStep : Nat
  /-- the cap step at the last request, for cap_reason -/
  hostCap : Rat
  /-- metered ÷ predicted of the frames of the last 10 s, latest first; none for a frame outside RUNNING (R363) -/
  ratios : List (Option Rat)
  k : Rat
  /-- frames since the last fast-loop slowdown (R364) -/
  sinceSlow : Option Nat
  /-- the effective cap at the last frame, and the unscheduled lowerings with their age in frames (R368) -/
  lastCap : Rat
  lowered : List (Nat × Rat)
  breach : Option Breach
  excursion : Nat
  /-- consecutive frames above the bound that R368 leaves in force -/
  overBound : Nat
  /-- when the envelope in force was accepted (R367) -/
  envelopeAt : W64
  /-- frames in the inlet's warning band, and frames of the bus within range (R337, R342) -/
  warnFrames : Nat
  busOkFrames : Nat
  /-- converter faults of the last 24 hours, and when an isolated block restarts (R341) -/
  convFaults : SMap (List W64)
  convRestart : SMap W64
  throttles : Throttles
  profile : Option Profile
  /-- a forecast is due (R371) -/
  forecastDue : Bool
  /-- the inlet was lost and Skour waits for it to stay in range (R338) -/
  inletLost : Bool
  /-- tile domains that domain_force switched on (R445) -/
  forced : List Nat
  /-- disabled phases of each field, which stay so until a cold start tests them (R344) -/
  phasesOut : SMap (List Nat)
deriving DecidableEq, Repr

/-! ### Coolant and thermal policy (chapter 12) -/

/-- Skour's or Sill's flow-stop detector (R389, R390): consecutive updates below by meter and by differential pressure,
consecutive updates clear, and the stop declared, with its detector (0 meter, 1 differential pressure) and time. -/
structure FlowWatch where
  meterLow : Nat
  dpLow : Nat
  clear : Nat
  stop : Option (Nat × W64)
deriving DecidableEq, Repr

/-- Sensor readings as last converted (R377, R584), and the policy's state. Temperatures are in 0.1 °C, pressures in mbar,
flow in 0.01 L/min. -/
structure Cool where
  tileRaw : SMap Int
  stack : SMap Int
  conv : SMap Int
  zoneIn : SMap Int
  zoneOut : SMap Int
  dp : SMap Nat
  /-- each zone's differential pressures of the last 10 ms, latest first: 100 conversions (R377, R411) -/
  dpLast : SMap (List Nat)
  flow : Nat
  /-- the meter's conversions since the last frame boundary, their sum and number, and their mean over the last frame (R403) -/
  flowSum : Nat
  flowN : Nat
  flowMean : Rat
  supply : Nat
  ret : Nat
  /-- per physical tile: frames apart, frames in disagreement while in it, frames in agreement (R379) -/
  apart : SMap Nat
  inDis : SMap Nat
  agree : SMap Nat
  /-- over the present coolant period: the hottest of each zone, the sum of outlet less inlet, and frames (R381) -/
  hot : SMap Int
  rise : SMap Int
  frames : Nat
  demand : SMap Rat
  duty : SMap Nat
  /-- zone activity bytes of the last 16 frames, latest first (R381) -/
  activity : List (List Nat)
  /-- Q_avail in 10⁻⁶ L/min: this 1,000 frames' sum and count, and the last 60 sums, latest first (R386) -/
  qSum : Nat
  qCount : Nat
  qWins : List Nat
  /-- evaluations in a row with the margin at or above 20 % (R387) -/
  marginOk : Nat
  flowTerm : Rat
  watch : FlowWatch
  thermalStep : Nat
  /-- a clamp reading stands: frames since entry, and frames at thermal_step 12 (R393) -/
  clamp : Option (Nat × Nat)
  /-- frames in which every reading has been cool (R394) -/
  coolFrames : Nat
  convHot : SMap Nat
  /-- frames with the inlet above 40.0 °C, and below 17.0 °C, and whether the event of each was raised (R397) -/
  inletHot : Nat
  inletCold : Nat
  hotTold : Bool
  coldTold : Bool
  /-- the bypass stands open (R384, R385) -/
  bypass : Bool
deriving DecidableEq, Repr

/-! ### Actuators (chapter 13) -/

/-- The phase a valve channel is in (R406); a pull-in's rise and regulation read alike in valve_state. `decay true` ends in
hold, `decay false` in off. -/
inductive ChanSt where
  | off | pull | hold | deferred
  | decay (toHold : Bool)
  | faulted
deriving DecidableEq, Repr

/-- A valve channel: its phase; whether a window or command, or a force, holds it open; whether the pull-in is the second of a
try or a retest's (R411, R417); what is due: a second pull-in, the cross-check, the stuck-open check; the mean current of the
last frame; the duty of its window (R413); and p_c, the zone's mean differential pressure in mbar over the 10 ms before the
pull-in that opened it (R411, R412). -/
structure Chan where
  st : ChanSt
  window : Bool
  force : Bool
  second : Bool
  retest : Bool
  again : Bool
  cross : Bool
  check : Bool
  current : F32
  duty : Nat
  before : Rat
deriving DecidableEq, Repr

/-- What a pump or fan is doing (R424–R426). -/
inductive UnitSt where
  | stopped | starting | running | tachLoss | faulted
deriving DecidableEq, Repr

/-- A pump or fan: target in %, output in V, trim in V, measured rpm, start retries made. -/
structure DriveUnit where
  st : UnitSt
  target : Nat
  volts : Rat
  trim : Rat
  rpm : Nat
  retries : Nat
  /-- the output stands at 0 V until this time, when the next retry begins (R425) -/
  retryAt : Option W64
deriving DecidableEq, Repr

/-- The schedule Skour writes for a coolant period (R429). -/
structure Schedule where
  duties : List Nat
  commands : List Bool
  pump : Nat
  fans : List Nat
deriving DecidableEq, Repr

/-- The sequencers. Pumps are units 0 and 1, fans 16 to 19, as event details number them (R527). -/
structure Act where
  chans : SMap Chan
  /-- channels waiting for each bank's pull-in, first in first out (R409) -/
  waiting : SMap (List Nat)
  bankOff : SMap Bool
  bankTrips : SMap (List W64)
  units : SMap DriveUnit
  running : Option Nat
  schedule : Schedule
  /-- the pairing switch of the service deck: channels 18 and 19 drive the tray valve (R419) -/
  paired : Bool
  /-- retests made and the time of the last (R417) -/
  retests : SMap (Nat × W64)
  /-- events and records Skour has not yet taken (R430), each with its event's detail -/
  queue : List (JEnt × List Byte)
  lost : Nat
deriving DecidableEq, Repr

/-! ### The rack bus and the dictionary's paths (chapters 15 and 16) -/

/-- A dictionary requester: channel 0 for A, 1 for B, 2 for management Ethernet; its node address or IPv6 address; its
source port (0 on the rack bus). -/
structure Requester where
  chan : Nat
  addr : Nat
  port : Nat
deriving DecidableEq, Repr

/-- A transfer in progress (R498–R500). -/
structure Transfer where
  who : Requester
  tag : Nat
  op : Nat
  index : Nat
  sub : Nat
  total : Nat
  next : Nat
  bytes : List Byte
  last : W64
deriving DecidableEq, Repr

/-- A dictionary response (R498), and a first step's record within its value (R519). -/
structure DictReply where
  who : Requester
  tag : Nat
  op : Nat
  index : Nat
  sub : Nat
  result : BitVec 16
  segment : Nat
  total : Nat
  value : List Byte
deriving DecidableEq, Repr

/-- A request as its store of last responses knows it (R501): its op, entry, length, segment and value bytes. -/
structure DictReq where
  who : Requester
  tag : Nat
  op : Nat
  index : Nat
  sub : Nat
  length : Nat
  segment : Nat
  value : List Byte
deriving DecidableEq, Repr

/-- A pending safety write (R520). -/
structure SafetyWrite where
  who : Requester
  index : Nat
  sub : Nat
  value : Nat
  len : Nat
  challenge : W32
  at_ : W64
deriving DecidableEq, Repr

/-- A message waiting on a channel (R488): its identifier, its class and its data. -/
structure QMsg where
  ident : BitVec 29
  cls : Nat
  data : List Byte
deriving DecidableEq, Repr

/-- A channel's state, in the codes of chan_state (R503). -/
inductive BusSt where
  | off | detecting | active | passive | recovering | closed | listen
deriving DecidableEq, Repr

/-- One rack bus channel (R469–R497). -/
structure BusChan where
  st : BusSt
  /-- rate detection: the rate listened at, dwells made, edges seen (R473, R474) -/
  dwell : Nat
  dwells : Nat
  edges : Bool
  queue : List QMsg
  recoveries : List W64
  collisions : Nat
  /-- the result of the last cancel (R489) -/
  cancelled : Option Bool
  /-- after a data rate mismatch only class 0 messages leave until data_rate is changed (R474) -/
  muted : Bool
deriving DecidableEq, Repr

/-- An alarm whose condition lasts (R490): its data and how often it has been repeated. -/
structure Alarm where
  seq : Nat
  code : Nat
  cause : Nat
  module : ModState
  time : W64
  repeats : Nat
  /-- when it was last sent -/
  sentAt : W64
deriving DecidableEq, Repr

/-- A frame the module sent or a datagram it sent: the model's own output latch (log 8). -/
structure Sent where
  chan : Nat
  ident : BitVec 29
  data : List Byte
deriving DecidableEq, Repr

/-- The rack bus, precision time and the paths to the dictionary. -/
structure Bus where
  chans : SMap BusChan
  /-- an accepted matrix or gnomon_node takes effect at the next matrix cycle start (R481) -/
  matrixDue : Option Nat
  gnomonDue : Option Nat
  addressDue : Bool
  /-- event records not yet sent (R526) -/
  events : List (List Byte)
  alarms : List Alarm
  /-- alarms of other modules, latest first -/
  heard : List (List Byte)
  /-- basic cycle starts since a usable reference, and since any reference (R484, R485) -/
  refUsable : Nat
  refAny : Nat
  freeSince : Option W64
  exclusive : Bool
  /-- the offset TSCLK is still to be slewed by, in ns (R486, R524) -/
  slew : Int
  /-- Sync messages in a row within 1,000 ns, and the last Sync (R524) -/
  ptpGood : Nat
  ptpLast : W64
  transfers : List Transfer
  answers : List (DictReq × DictReply × W64)
  safety : List SafetyWrite
  cursors : List (Requester × Nat)
  reply : Option DictReply
  sent : List Sent
  /-- the first 24 bytes of the status, as taken at the last frame boundary (R491), and its last window's time -/
  status : List Byte
  statusTime : Nat
  /-- the data of the last reference sent (R454) -/
  lastRef : List Byte
deriving DecidableEq, Repr

/-! ### The joints as Skour holds them -/

/-- Skour's side of J1, J2 and J4 (R17, R528–R530). -/
structure Joints where
  stepReq : Nat
  hostHold : Bool
  order : BitVec 16
  /-- step_req, hold_req and throttle as Skour last wrote them on J1 -/
  out : J1Levels
  verdict : BitVec 16
  verdictCount : Byte
  hostAlive : Bool
  rackLast : Option W64
  snapshot : List Byte
  /-- the frame of the latest snapshot since the data plane powered up (R22) -/
  snapFrame : Option Nat
  /-- a start or resume order has been written and no snapshot has shown beats advancing for it (R32) -/
  waiting : Bool
  placement : PlaceRec
  /-- seq of a turn order written and not yet acted on, with its code (R286) -/
  turnOrder : Option (Byte × Nat)
  turnNow : Nat
  runFrames : Nat
  minStep : Nat
  /-- the module has begun to stop a run (R199) -/
  stopping : Bool
  /-- the state word and the placement word as last written on J2 -/
  word : J2Word
  placeWord : W32
deriving DecidableEq, Repr

/-- The management plane. -/
structure Mgmt where
  run : SkourRun
  active : Nat
  pairs : List PairSt
  mismatches : List (List W64)
  /-- what drives REF, and the oscillators (R440) -/
  clocks : Clocks
  module : ModState
  /-- frames since power came -/
  frame : Nat
  dict : SMap Nat
  settings : List StoreCopy
  records : List StoreCopy
  settingsDirty : Bool
  recordsDirty : Bool
  stackTrims : SMap Bool
  opticalTrims : SMap Bool
  /-- stacks that stood failed when the trims were last written (R450) -/
  stackFailed : SMap Bool
  coldNext : Bool
  journal : SMap JEnt
  jNext : Nat
  jHeld : Nat
  eventSeq : Nat
  start : Option StartJob
  startDue : Option Bool
  /-- when the pending power order was accepted (R353) -/
  orderAt : Option W64
  /-- service domains that are on: bits d − 1,396 (R347) -/
  service : Nat
  joints : Joints
  power : Power
  cool : Cool
  act : Act
  bus : Bus
deriving DecidableEq, Repr

def Clocks.reset : Clocks := ⟨0, .good, .good, []⟩
def Throttles.none : Throttles := ⟨false, false, false, false, false, false, []⟩
def Power.reset : Power :=
  ⟨[], 0, 0, 0, 0, 0, 30000, [], 1, none, 30000, [], none, 0, 0, 0, 0, 0, [], [], Throttles.none, none, false, false, [], []⟩
def FlowWatch.reset : FlowWatch := ⟨0, 0, 0, none⟩
def Cool.reset : Cool :=
  ⟨[], [], [], [], [], [], [], 0, 0, 0, 0, 0, 0, [], [], [], [], [], 0, [], [], [], 0, 0, [], 0, 30000, FlowWatch.reset, 0, none, 0, [],
    0, 0, false, false, false⟩
def Chan.off : Chan := ⟨.off, false, false, false, false, false, false, false, 0, 0, 0⟩
def DriveUnit.stopped : DriveUnit := ⟨.stopped, 0, 0, 0, 0, 0, none⟩
def Schedule.idle : Schedule := ⟨List.replicate 16 0, [false, false, false, false], 0, [0, 0, 0, 0]⟩
def Act.reset : Act := ⟨[], [], [], [], [], none, Schedule.idle, false, [], [], 0⟩
def BusChan.off : BusChan := ⟨.off, 0, 0, false, [], [], 0, none, false⟩
def Bus.reset : Bus := ⟨[], none, none, false, [], [], [], 3, 1, none, true, 0, 0, 0, [], [], [], [], none, [], [], 0, []⟩
/-- The placement record before the data plane has sent one: nothing mapped, identity maps. -/
def PlaceRec.reset : PlaceRec :=
  ⟨0, 0, 0xFFFF, 0, List.range 256, List.replicate 1024 0xFFFF, List.range 64, List.replicate 48 0⟩
def Joints.reset : Joints :=
  ⟨0, false, 0, ⟨0, false, false⟩, 0, 0, false, none, List.replicate 1024 0, none, false,
    PlaceRec.reset, none, 0, 0, 0, false, J2Word.reset, placementReset⟩
def StoreCopy.blank : StoreCopy := ⟨true, 0, []⟩

/-- The management plane of a module that has never had power: a retained store as manufactured, an empty journal. -/
def Mgmt.reset : Mgmt :=
  { run := .down, active := 0, pairs := [.active, .standby], mismatches := [[], []], clocks := Clocks.reset, module := .off
    frame := 0, dict := [], settings := [StoreCopy.blank, StoreCopy.blank], records := [StoreCopy.blank, StoreCopy.blank]
    settingsDirty := false, recordsDirty := false, stackTrims := [], opticalTrims := [], stackFailed := []
    coldNext := false, journal := []
    jNext := 1, jHeld := 0, eventSeq := 1, start := none, startDue := none, orderAt := none, service := 0
    joints := Joints.reset, power := Power.reset, cool := Cool.reset, act := Act.reset, bus := Bus.reset }

end Sys2Proof.Machine
end

