-- ==== Sys2Proof/Machine/SillState.lean ====
section
/-!
DEFINITION. The state of Sill, the safety island (chapter 17): its latches, outputs, comparators, watchdog and journal copy.
-/

namespace Sys2Proof.Machine

/-- The solid-state disconnect (R335). -/
inductive Ssd where
  | opened | precharging | closed
deriving DecidableEq, Repr

/-- A leak channel (R398, R555): conductance in 0.1 µS, consecutive samples at threshold, open, and dry. -/
structure LeakChan where
  g : Nat
  high : Nat
  low : Nat
  dry : Nat
  faulted : Bool
  confirmed : Bool
deriving DecidableEq, Repr

/-- A lengthened watchdog window (R545): by a Sill-ordered reset or an announced restart, and its start. -/
structure LongWindow where
  ordered : Bool
  since : W64
deriving DecidableEq, Repr

/-- A challenge Sill issued (R519, R522). -/
structure Challenge where
  index : Nat
  sub : Nat
  value : W32
  at_ : W64
deriving DecidableEq, Repr

/-- What an exit clears (R554, R555). -/
structure Latches where
  safeStop : Bool
  leakCut : Bool
  inletLock : Bool
  safeCause : Byte
  leakCause : Byte
  firstCause : Byte
  acted : List Byte
  trayCut : Bool
  leakOut : Bool
  latchAt : Option W64
  latched : Option (Nat × Nat)
  sf6At : Option W64
deriving DecidableEq, Repr

/-- Sill. Its times are on its own clock (R27). -/
structure Sill where
  on : Bool
  /-- nonvolatile (R536) -/
  safeStop : Bool
  leakCut : Bool
  inletLock : Bool
  safeCause : Byte
  leakCause : Byte
  firstCause : Byte
  /-- HALT_CAUSE of every function that has acted since the last exit, first first (R552) -/
  acted : List Byte
  /-- the relay's contacts (R549) -/
  trayCut : Bool
  leakOut : Bool
  /-- a fault of Sill's own checks or a stop of Sill (R535, R540) -/
  fault : Bool
  stopped : Bool
  selftest : Nat
  ssd : Ssd
  contactor : Bool
  /-- HALT as Sill drives it, and HALTED as it last read it -/
  halt : Bool
  halted : Bool
  haltAt : Option W64
  haltMissing : Bool
  tilePwrEn : Bool
  present : Bool
  interlock : Bool
  leakA : LeakChan
  leakB : LeakChan
  watch : FlowWatch
  /-- consecutive tile or stack conversions at the trip limit, and whether the latest was a tile's (R395) -/
  hotTile : Nat
  hotStack : Nat
  /-- consecutive updates without any flow sensing, and updates of valid flow sensing since (R539, R552) -/
  blind : Nat
  sensing : Nat
  /-- bus current in A and voltage in mV, inlet voltage in V (R534) -/
  busAmps : Nat
  busMv : Nat
  inletV : Nat
  inletA : Nat
  lastService : W64
  services : Nat
  longWindow : Option LongWindow
  /-- the end of the last long window that began with an ordered reset (R546) -/
  longEnd : Option W64
  sf6At : Option W64
  sf4At : Option W64
  latchAt : Option W64
  latched : Option (Nat × Nat)
  challenges : List Challenge
  /-- its copy of the last 64 journal entries, oldest first (R466) -/
  copy : List JEnt
  acts : SMap Nat
  expiries : Nat
  lastCause : Byte
  /-- when the function that firstCause names acted, and when the last one did (R551, R553) -/
  firstAt : W64
  lastAct : Option W64
  /-- the last exit, and what it cleared (R553) -/
  exited : Option (W64 × Latches)
  /-- the last answer on the service UART (log 8) -/
  uart : List Byte
deriving DecidableEq, Repr

def LeakChan.dry0 : LeakChan := ⟨100, 0, 0, 0, false, false⟩

/-- Sill without power, its nonvolatile register as manufactured. -/
def Sill.reset : Sill :=
  { on := false, safeStop := false, leakCut := false, inletLock := false, safeCause := 0, leakCause := 0, firstCause := 0
    acted := [], trayCut := false, leakOut := false, fault := false, stopped := false, selftest := 0, ssd := .opened
    contactor := false, halt := false, halted := false, haltAt := none, haltMissing := false, tilePwrEn := true
    present := true, interlock := true, leakA := LeakChan.dry0, leakB := LeakChan.dry0, watch := FlowWatch.reset
    hotTile := 0, hotStack := 0, blind := 0, sensing := 0, busAmps := 0, busMv := 0, inletV := 0
    inletA := 0, lastService := 0, services := 0, longWindow := none, longEnd := none, sf6At := none, sf4At := none
    latchAt := none, latched := none, challenges := [], copy := [], acts := [], expiries := 0, lastCause := 0
    firstAt := 0, lastAct := none, exited := none, uart := [] }

end Sys2Proof.Machine
end

