-- ==== Sys2Proof/Machine/Entries.lean ====
section
/-!
DEFINITION. The entry map of the object dictionary (R504, R532): every entry's index, sub-indices, type, access code, default
and retention, as the tables of chapters 08 and 11 to 16 give them, and the store of their values.
-/

namespace Sys2Proof.Machine

/-- Access codes (R3, R508). -/
inductive Acc where
  | ro | rw | rwj | rws
deriving DecidableEq, Repr

/-- One row of the entry map: sub-indices `first` to `last` at `index`, each of `len` bytes (R505). -/
structure DEntry where
  index : Nat
  first : Nat
  last : Nat
  len : Nat
  f32 : Bool
  acc : Acc
  dflt : Nat
  retained : Bool
deriving DecidableEq, Repr

/-- An ASCII string padded with zeros to 16 bytes. -/
def asciiPad (s : String) : List Byte :=
  let b := s.toList.map fun c => BitVec.ofNat 8 c.toNat
  b ++ List.replicate (16 - b.length) 0

/-- `n` bytes of value `v`, as one little-endian number. -/
def allBytes (n v : Nat) : Nat := leNat (List.replicate n (BitVec.ofNat 8 v))
/-- Bytes 0, 1, 2, … as one little-endian number. -/
def identityBytes (n : Nat) : Nat := leNat ((List.range n).map (BitVec.ofNat 8))
/-- The envelope at its default: from minute 0, every entry 30,000 W (R373). -/
def envelopeDefault : Nat := leNat (natLe 4 0 ++ (List.range 60).flatMap fun _ => natLe 2 30000)
/-- temp_table at its default (R403). -/
def tempTableDefault : Nat :=
  leNat ([(450, 20), (550, 25), (650, 35), (750, 55), (850, 80), (900, 95), (950, 100), (1050, 100)].flatMap
    fun x => natLe 2 x.1 ++ natLe 1 x.2 ++ natLe 1 0)
/-- A table of eight (input, output) byte pairs. -/
def pairTable (xs : List (Nat × Nat)) : Nat := leNat (xs.flatMap fun x => natLe 1 x.1 ++ natLe 1 x.2)
/-- pump_table and fan_table at their defaults (R403). -/
def pumpTableDefault : Nat := pairTable [(0, 0), (40, 0), (50, 30), (60, 45), (70, 60), (80, 75), (90, 90), (100, 100)]
def fanTableDefault : Nat := pairTable [(0, 25), (20, 25), (40, 40), (60, 55), (80, 75), (90, 90), (100, 100), (100, 100)]
/-- The factory matrix (R481): window 0 of each basic cycle exclusive to node 1 for the reference, its selector the cycle
index (R477); every other window arbitrating. -/
def matrixDefault : Nat :=
  leNat ((List.range 128).flatMap fun k =>
    natLe 4 (if k % 16 = 0 then 2 ^ 30 + 1 * 2 ^ 25 + 1 * 2 ^ 20 + (k / 16) * 2 ^ 7 else 2 * 2 ^ 30))
/-- The authority table with all 16 entries empty: level 0xFF (R511). -/
def authorityDefault : Nat := leNat ((List.range 16).flatMap fun _ => natLe 17 0 ++ natLe 1 0xFF)
/-- An entry the factory or the firmware build fixes (log 9). -/
def factoryDefault (k : Nat) : Nat := leNat (Config.factory k)

/-! ### Names: `0x100 × index + sub-index` -/

namespace Ent
abbrev vendorName : Nat := 0x100001
abbrev productCode : Nat := 0x100002
abbrev serialNumber : Nat := 0x100003
abbrev hwRevision : Nat := 0x100004
abbrev manufactureDate : Nat := 0x100005
abbrev fwVersion : Nat := 0x100101
abbrev keyId : Nat := 0x100201
abbrev keyPublic : Nat := 0x100301
abbrev physicalModule : Nat := 0x100401
abbrev sysId : Nat := 0x100402
abbrev sysDigest : Nat := 0x100403
abbrev logicalModule : Nat := 0x100404
abbrev nodeAddress : Nat := 0x110001
abbrev strapAddress : Nat := 0x110002
abbrev addressInUse : Nat := 0x110003
abbrev rateMode : Nat := 0x110101
abbrev dataRate : Nat := 0x110102
abbrev nominalRate : Nat := 0x110201
abbrev nbt : Nat := 0x110301
abbrev dbt : Nat := 0x110401
abbrev tdc : Nat := 0x110501
abbrev chanState : Nat := 0x110601
abbrev tec : Nat := 0x110701
abbrev rec : Nat := 0x110801
abbrev chanFlags : Nat := 0x110901
abbrev busOffs : Nat := 0x110A01
abbrev recoveries : Nat := 0x110B01
abbrev autoRecover : Nat := 0x110C01
abbrev channelRestart : Nat := 0x110C02
abbrev collisions : Nat := 0x110D01
abbrev collisionClear : Nat := 0x110D03
abbrev windowMissed : Nat := 0x110E01
abbrev eventsDropped : Nat := 0x110E03
abbrev framesIgnored : Nat := 0x110E04
abbrev matrix : Nat := 0x111001
abbrev matrixGen : Nat := 0x111002
abbrev gnomonNode : Nat := 0x111101
abbrev gnomonBackup : Nat := 0x111102
abbrev timeSource : Nat := 0x111103
abbrev gnomonOffset : Nat := 0x111104
abbrev eventChannel : Nat := 0x111201
abbrev alarmSeq : Nat := 0x111202
abbrev macAddress : Nat := 0x120001
abbrev ipv6Addresses : Nat := 0x120002
abbrev mgmtLink : Nat := 0x120003
abbrev eventTargets : Nat := 0x120101
abbrev authorityTable : Nat := 0x120102
abbrev readsRefused : Nat := 0x120103
abbrev hostPfcPriority : Nat := 0x120201
abbrev ptpEnable : Nat := 0x121001
abbrev ptpDomain : Nat := 0x121002
abbrev ptpTransport : Nat := 0x121003
abbrev ptpState : Nat := 0x121004
abbrev ptpOffset : Nat := 0x121005
abbrev ptpMaster : Nat := 0x121006
abbrev tsclkNow : Nat := 0x121007
abbrev moduleState : Nat := 0x200001
abbrev stateTime : Nat := 0x200002
abbrev startMode : Nat := 0x200101
abbrev coldInterval : Nat := 0x200102
abbrev startStep : Nat := 0x200103
abbrev startFault : Nat := 0x200104
abbrev lastStart : Nat := 0x200105
abbrev lastCold : Nat := 0x200106
abbrev startMs : Nat := 0x200107
abbrev selftestStep : Nat := 0x200108
abbrev serviceOrder : Nat := 0x200201
abbrev mgmtRestart : Nat := 0x200301
abbrev mgmtRestarts : Nat := 0x200302
abbrev rackAlive : Nat := 0x200401
abbrev hostAlive : Nat := 0x200402
abbrev autonomous : Nat := 0x200403
abbrev rackHeartbeat : Nat := 0x200404
abbrev autonomyEvents : Nat := 0x200405
abbrev flagClear : Nat := 0x200501
abbrev retainedState : Nat := 0x210001
abbrev settingsGen : Nat := 0x210002
abbrev recordsGen : Nat := 0x210003
abbrev restoreFactory : Nat := 0x210004
abbrev stackTrimsValid : Nat := 0x210101
abbrev opticalTrimsValid : Nat := 0x210102
abbrev inputVoltage : Nat := 0x300001
abbrev inputCurrent : Nat := 0x300002
abbrev inletState : Nat := 0x300003
abbrev inletFlags : Nat := 0x300004
abbrev inputFaults : Nat := 0x300005
abbrev auxVoltage : Nat := 0x300101
abbrev auxPower : Nat := 0x300102
abbrev busVoltage : Nat := 0x300201
abbrev convState : Nat := 0x301001
abbrev convPower : Nat := 0x301101
abbrev convRestore : Nat := 0x301201
abbrev phasesWorking : Nat := 0x302001
abbrev phaseStep : Nat := 0x302002
abbrev envelope : Nat := 0x310001
abbrev capRack : Nat := 0x310002
abbrev powerOrder : Nat := 0x310101
abbrev orderDelay : Nat := 0x310102
abbrev orderPending : Nat := 0x310103
abbrev capHost : Nat := 0x310201
abbrev capThermal : Nat := 0x310202
abbrev capSafety : Nat := 0x310203
abbrev capEffective : Nat := 0x310204
abbrev capReason : Nat := 0x310205
abbrev capStep : Nat := 0x310206
abbrev stepReq : Nat := 0x310207
abbrev forecast : Nat := 0x311001
abbrev profileState : Nat := 0x311002
abbrev kCorr : Nat := 0x311003
abbrev energy : Nat := 0x312001
abbrev power1s : Nat := 0x312002
abbrev power1min : Nat := 0x312003
abbrev energyGaps : Nat := 0x312004
abbrev framesOverCap : Nat := 0x312101
abbrev longestExcursion : Nat := 0x312102
abbrev peakRatio : Nat := 0x312103
abbrev guaranteeBreaks : Nat := 0x312104
abbrev tileDomainsOn : Nat := 0x320001
abbrev stackDomainsOn : Nat := 0x320002
abbrev opticalDomainsOn : Nat := 0x320003
abbrev serviceDomainsOn : Nat := 0x320004
abbrev domainFaults : Nat := 0x320101
abbrev lastDomainFault : Nat := 0x320102
abbrev domainForce : Nat := 0x321001
abbrev flow : Nat := 0x400001
abbrev pSupply : Nat := 0x400002
abbrev pReturn : Nat := 0x400003
abbrev qAvail : Nat := 0x400004
abbrev flowMargin : Nat := 0x400005
abbrev coolantFlags : Nat := 0x400006
abbrev flowStops : Nat := 0x400007
abbrev stopThreshold : Nat := 0x400101
abbrev dpStop : Nat := 0x400102
abbrev zoneTIn : Nat := 0x401001
abbrev zoneTOut : Nat := 0x401101
abbrev zoneDp : Nat := 0x401201
abbrev zoneDemand : Nat := 0x401301
abbrev zoneDuty : Nat := 0x401401
abbrev tempTable : Nat := 0x410001
abbrev dutyFloor : Nat := 0x410002
abbrev dtTarget : Nat := 0x410003
abbrev forecastEnable : Nat := 0x410004
abbrev pumpTable : Nat := 0x410101
abbrev fanTable : Nat := 0x410102
abbrev leakState : Nat := 0x420001
abbrev leakGA : Nat := 0x420002
abbrev leakGB : Nat := 0x420003
abbrev leakFlags : Nat := 0x420004
abbrev leakThreshold : Nat := 0x420005
abbrev leakEvents : Nat := 0x420006
abbrev tileUsed : Nat := 0x500001
abbrev tileRaw : Nat := 0x500002
abbrev stackTemps : Nat := 0x500101
abbrev convTemps : Nat := 0x500201
abbrev tileSensorFaults : Nat := 0x500301
abbrev stackSensorFaults : Nat := 0x500302
abbrev otherSensorFaults : Nat := 0x500303
abbrev pairDisagree : Nat := 0x500401
abbrev pairSuspect : Nat := 0x500402
abbrev tileUnobserved : Nat := 0x500403
abbrev sensorMasks : Nat := 0x500501
abbrev maskSensor : Nat := 0x500502
abbrev hottestUsed : Nat := 0x500601
abbrev hottestTile : Nat := 0x500602
abbrev tClamp : Nat := 0x510001
abbrev tTrip : Nat := 0x510002
abbrev tStackClamp : Nat := 0x510003
abbrev thermalStep : Nat := 0x510004
abbrev thermalFlags : Nat := 0x510005
abbrev clampEvents : Nat := 0x510006
abbrev valveState : Nat := 0x600001
abbrev valveCurrent : Nat := 0x600002
abbrev valveFaults : Nat := 0x600101
abbrev valveFaultCause : Nat := 0x600102
abbrev valveFaultClear : Nat := 0x600103
abbrev bankOff : Nat := 0x600201
abbrev bankTrips : Nat := 0x600202
abbrev deferredFlags : Nat := 0x600301
abbrev deferrals : Nat := 0x600302
abbrev dipMissing : Nat := 0x600401
abbrev stuckOpen : Nat := 0x600402
abbrev pullinTime : Nat := 0x601001
abbrev dipMin : Nat := 0x601002
abbrev dpOpen : Nat := 0x601003
abbrev manifoldProfile : Nat := 0x602001
abbrev valvesHeld : Nat := 0x602002
abbrev pumpRunning : Nat := 0x610001
abbrev leadPump : Nat := 0x610002
abbrev pumpTarget : Nat := 0x610101
abbrev pumpRpm : Nat := 0x610201
abbrev pumpVoltage : Nat := 0x610301
abbrev pumpFlags : Nat := 0x610401
abbrev fanTarget : Nat := 0x611001
abbrev fanRpm : Nat := 0x611101
abbrev fanVoltage : Nat := 0x611201
abbrev fanFlags : Nat := 0x611301
abbrev actuatorHold : Nat := 0x612001
abbrev unitFaultClear : Nat := 0x612002
abbrev seqEventsLost : Nat := 0x612003
abbrev stateWord : Nat := 0x700001
abbrev j4Snapshot : Nat := 0x700002
abbrev j1StepReq : Nat := 0x700003
abbrev j1Flags : Nat := 0x700004
abbrev j1Order : Nat := 0x700005
abbrev rackHold : Nat := 0x700101
abbrev governingModule : Nat := 0x700301
abbrev governingStep : Nat := 0x700302
abbrev repairMap : Nat := 0x710001
abbrev failedTiles : Nat := 0x710002
abbrev capWidths : Nat := 0x710101
abbrev capColumns : Nat := 0x710102
abbrev stackUsable : Nat := 0x710103
abbrev retireTile : Nat := 0x711001
abbrev restoreTile : Nat := 0x711002
abbrev tileMap : Nat := 0x712001
abbrev moduleMap : Nat := 0x712002
abbrev fieldMap : Nat := 0x712003
abbrev turnNow : Nat := 0x720001
abbrev turnState : Nat := 0x720002
abbrev turnsDone : Nat := 0x720003
abbrev turnInterval : Nat := 0x720101
abbrev runSinceTurn : Nat := 0x720102
abbrev turnDue : Nat := 0x720103
abbrev counterSummary : Nat := 0x800001
abbrev summaryTick : Nat := 0x800002
abbrev journalNext : Nat := 0x900001
abbrev journalOldest : Nat := 0x900002
abbrev journalLost : Nat := 0x900003
abbrev journalCursor : Nat := 0x900101
abbrev journalRead : Nat := 0x900102
abbrev eventNext : Nat := 0x900201
abbrev sillState : Nat := 0xA00001
abbrev lastHaltCause : Nat := 0xA00002
abbrev lastHaltTime : Nat := 0xA00003
abbrev safeStopExit : Nat := 0xA00004
abbrev leakCutExit : Nat := 0xA00005
abbrev sfActs : Nat := 0xA00101
abbrev traySignals : Nat := 0xA00201
abbrev trayOffRequests : Nat := 0xA00202
abbrev watchdogExpiries : Nat := 0xA00301
abbrev sillSelftest : Nat := 0xA00302
abbrev skourActive : Nat := 0xB00001
abbrev pairState : Nat := 0xB00002
abbrev pairMismatches : Nat := 0xB00003
abbrev switchovers : Nat := 0xB00004
abbrev pairRestore : Nat := 0xB00005
abbrev oscActive : Nat := 0xB00101
abbrev oscFlags : Nat := 0xB00102
abbrev oscOffset : Nat := 0xB00103
abbrev oscSwitches : Nat := 0xB00104
abbrev oscRevertClear : Nat := 0xB00105
abbrev diagSelect : Nat := 0xF00001
abbrev diagWindow : Nat := 0xF00002
end Ent

/-- Identity, management Ethernet and time entries (R532). -/
def entriesIdent : List DEntry :=
  [⟨0x1000, 0x01, 0x01, 16, false, .ro, leNat (asciiPad "Kryron Devices"), true⟩,
   ⟨0x1000, 0x02, 0x02, 16, false, .ro, leNat (asciiPad "KD-TW9-800"), true⟩,
   ⟨0x1000, 0x03, 0x03, 16, false, .ro, factoryDefault 0x100003, true⟩,
   ⟨0x1000, 0x04, 0x04, 2, false, .ro, factoryDefault 0x100004, true⟩,
   ⟨0x1000, 0x05, 0x05, 4, false, .ro, factoryDefault 0x100005, true⟩,
   ⟨0x1001, 0x01, 0x04, 4, false, .ro, factoryDefault 0x100101, false⟩,
   ⟨0x1002, 0x01, 0x04, 8, false, .ro, factoryDefault 0x100201, true⟩,
   ⟨0x1003, 0x01, 0x04, 97, false, .ro, factoryDefault 0x100301, true⟩,
   ⟨0x1004, 0x01, 0x01, 1, false, .ro, 0xFF, false⟩,
   ⟨0x1004, 0x02, 0x02, 4, false, .ro, 0, false⟩,
   ⟨0x1004, 0x03, 0x03, 4, false, .ro, 0, false⟩,
   ⟨0x1004, 0x04, 0x04, 1, false, .ro, 0xFF, false⟩,
   ⟨0x1200, 0x01, 0x01, 6, false, .ro, factoryDefault 0x120001, true⟩,
   ⟨0x1200, 0x02, 0x02, 64, false, .ro, 0, false⟩,
   ⟨0x1200, 0x03, 0x03, 1, false, .ro, 0, false⟩,
   ⟨0x1201, 0x01, 0x01, 144, false, .rwj, 0, true⟩,
   ⟨0x1201, 0x02, 0x02, 288, false, .rwj, authorityDefault, true⟩,
   ⟨0x1201, 0x03, 0x03, 4, false, .ro, 0, false⟩,
   ⟨0x1202, 0x01, 0x01, 1, false, .rwj, 3, true⟩,
   ⟨0x1210, 0x01, 0x01, 1, false, .rwj, 1, true⟩,
   ⟨0x1210, 0x02, 0x02, 1, false, .rwj, 0, true⟩,
   ⟨0x1210, 0x03, 0x03, 1, false, .rwj, 0, true⟩,
   ⟨0x1210, 0x04, 0x04, 1, false, .ro, 0, false⟩,
   ⟨0x1210, 0x05, 0x05, 4, true, .ro, 0, false⟩,
   ⟨0x1210, 0x06, 0x06, 8, false, .ro, 0, false⟩,
   ⟨0x1210, 0x07, 0x07, 8, false, .ro, 0, false⟩]

/-- Rack bus entries (R503). -/
def entriesBus : List DEntry :=
  [⟨0x1100, 0x01, 0x01, 1, false, .rwj, 0, true⟩,
   ⟨0x1100, 0x02, 0x02, 1, false, .ro, 0, false⟩,
   ⟨0x1100, 0x03, 0x03, 1, false, .ro, 0, false⟩,
   ⟨0x1101, 0x01, 0x01, 1, false, .rwj, 0, true⟩,
   ⟨0x1101, 0x02, 0x02, 1, false, .rwj, 5, true⟩,
   ⟨0x1102, 0x01, 0x02, 2, false, .ro, 1000, true⟩,
   ⟨0x1103, 0x01, 0x02, 4, false, .ro, 0x003E0F0F, false⟩,
   ⟨0x1104, 0x01, 0x02, 4, false, .ro, 0x000A0303, false⟩,
   ⟨0x1105, 0x01, 0x02, 4, false, .ro, 0x000C0800, false⟩,
   ⟨0x1106, 0x01, 0x02, 1, false, .ro, 0, false⟩,
   ⟨0x1107, 0x01, 0x02, 2, false, .ro, 0, false⟩,
   ⟨0x1108, 0x01, 0x02, 1, false, .ro, 0, false⟩,
   ⟨0x1109, 0x01, 0x02, 2, false, .ro, 0, false⟩,
   ⟨0x110A, 0x01, 0x02, 4, false, .ro, 0, true⟩,
   ⟨0x110B, 0x01, 0x02, 4, false, .ro, 0, true⟩,
   ⟨0x110C, 0x01, 0x01, 1, false, .rwj, 1, true⟩,
   ⟨0x110C, 0x02, 0x02, 1, false, .rwj, 0, false⟩,
   ⟨0x110D, 0x01, 0x02, 1, false, .ro, 0, false⟩,
   ⟨0x110D, 0x03, 0x03, 1, false, .rwj, 0, false⟩,
   ⟨0x110E, 0x01, 0x02, 4, false, .ro, 0, false⟩,
   ⟨0x110E, 0x03, 0x03, 4, false, .ro, 0, false⟩,
   ⟨0x110E, 0x04, 0x04, 4, false, .ro, 0, false⟩,
   ⟨0x1110, 0x01, 0x01, 512, false, .rwj, matrixDefault, true⟩,
   ⟨0x1110, 0x02, 0x02, 4, false, .ro, 0, true⟩,
   ⟨0x1111, 0x01, 0x01, 1, false, .rwj, 1, true⟩,
   ⟨0x1111, 0x02, 0x02, 1, false, .rwj, 0, true⟩,
   ⟨0x1111, 0x03, 0x03, 1, false, .ro, 2, false⟩,
   ⟨0x1111, 0x04, 0x04, 4, true, .ro, 0, false⟩,
   ⟨0x1112, 0x01, 0x01, 1, false, .rwj, 0, true⟩,
   ⟨0x1112, 0x02, 0x02, 2, false, .ro, 0, true⟩]

/-- Skour entries of 0x2000 to 0x21FF, and flag_clear (R468, R532). -/
def entriesSkour : List DEntry :=
  [⟨0x2000, 0x01, 0x01, 1, false, .ro, 0, false⟩,
   ⟨0x2000, 0x02, 0x02, 8, false, .ro, 0, false⟩,
   ⟨0x2001, 0x01, 0x01, 1, false, .rwj, 0, true⟩,
   ⟨0x2001, 0x02, 0x02, 4, false, .rwj, 720, true⟩,
   ⟨0x2001, 0x03, 0x03, 1, false, .ro, 0, false⟩,
   ⟨0x2001, 0x04, 0x04, 2, false, .ro, 0, true⟩,
   ⟨0x2001, 0x05, 0x05, 1, false, .ro, 0, true⟩,
   ⟨0x2001, 0x06, 0x06, 8, false, .ro, 0, true⟩,
   ⟨0x2001, 0x07, 0x07, 4, false, .ro, 0, true⟩,
   ⟨0x2001, 0x08, 0x08, 1, false, .ro, 0, true⟩,
   ⟨0x2002, 0x01, 0x01, 1, false, .rws, 0, false⟩,
   ⟨0x2003, 0x01, 0x01, 1, false, .rwj, 0, false⟩,
   ⟨0x2003, 0x02, 0x02, 4, false, .ro, 0, true⟩,
   ⟨0x2004, 0x01, 0x01, 1, false, .ro, 0, false⟩,
   ⟨0x2004, 0x02, 0x02, 1, false, .ro, 0, false⟩,
   ⟨0x2004, 0x03, 0x03, 1, false, .ro, 0, false⟩,
   ⟨0x2004, 0x04, 0x04, 1, false, .rw, 0, false⟩,
   ⟨0x2004, 0x05, 0x05, 4, false, .ro, 0, true⟩,
   ⟨0x2005, 0x01, 0x01, 12, false, .rwj, 0, false⟩,
   ⟨0x2100, 0x01, 0x01, 1, false, .ro, 0, false⟩,
   ⟨0x2100, 0x02, 0x02, 4, false, .ro, 0, false⟩,
   ⟨0x2100, 0x03, 0x03, 4, false, .ro, 0, false⟩,
   ⟨0x2100, 0x04, 0x04, 1, false, .rws, 0, false⟩,
   ⟨0x2101, 0x01, 0x01, 8, false, .ro, 0, false⟩,
   ⟨0x2101, 0x02, 0x02, 8, false, .ro, 0, false⟩]

/-- Power entries (R373). -/
def entriesPower : List DEntry :=
  [⟨0x3000, 0x01, 0x01, 4, true, .ro, 0, false⟩,
   ⟨0x3000, 0x02, 0x02, 4, true, .ro, 0, false⟩,
   ⟨0x3000, 0x03, 0x03, 1, false, .ro, 0, false⟩,
   ⟨0x3000, 0x04, 0x04, 1, false, .ro, 0, false⟩,
   ⟨0x3000, 0x05, 0x05, 4, false, .ro, 0, true⟩,
   ⟨0x3001, 0x01, 0x01, 4, true, .ro, 0, false⟩,
   ⟨0x3001, 0x02, 0x02, 4, true, .ro, 0, false⟩,
   ⟨0x3002, 0x01, 0x01, 4, true, .ro, 0, false⟩,
   ⟨0x3010, 0x01, 0x04, 1, false, .ro, 0, true⟩,
   ⟨0x3011, 0x01, 0x04, 4, true, .ro, 0, false⟩,
   ⟨0x3012, 0x01, 0x01, 1, false, .rws, 0, false⟩,
   ⟨0x3020, 0x01, 0x01, 64, false, .ro, allBytes 64 16, true⟩,
   ⟨0x3020, 0x02, 0x02, 1, false, .ro, 0, true⟩,
   ⟨0x3100, 0x01, 0x01, 124, false, .rwj, envelopeDefault, true⟩,
   ⟨0x3100, 0x02, 0x02, 4, true, .ro, 0x46EA6000, false⟩,
   ⟨0x3101, 0x01, 0x01, 1, false, .rwj, 1, true⟩,
   ⟨0x3101, 0x02, 0x02, 2, false, .rwj, 0, true⟩,
   ⟨0x3101, 0x03, 0x03, 2, false, .ro, 0, false⟩,
   ⟨0x3102, 0x01, 0x01, 4, true, .ro, 0x46EA6000, false⟩,
   ⟨0x3102, 0x02, 0x02, 4, true, .ro, 0x46EA6000, false⟩,
   ⟨0x3102, 0x03, 0x03, 4, true, .ro, 0x46EA6000, false⟩,
   ⟨0x3102, 0x04, 0x04, 4, true, .ro, 0x46EA6000, false⟩,
   ⟨0x3102, 0x05, 0x05, 1, false, .ro, 6, false⟩,
   ⟨0x3102, 0x06, 0x06, 1, false, .ro, 0, false⟩,
   ⟨0x3102, 0x07, 0x07, 1, false, .ro, 0, false⟩,
   ⟨0x3110, 0x01, 0x01, 484, false, .ro, 0, false⟩,
   ⟨0x3110, 0x02, 0x02, 1, false, .ro, 0, false⟩,
   ⟨0x3110, 0x03, 0x03, 4, true, .ro, 0x3F800000, false⟩,
   ⟨0x3120, 0x01, 0x01, 8, false, .ro, 0, true⟩,
   ⟨0x3120, 0x02, 0x02, 4, true, .ro, 0, false⟩]

/-- Power entries (R373). -/
def entriesPower2 : List DEntry :=
  [⟨0x3120, 0x03, 0x03, 4, true, .ro, 0, false⟩,
   ⟨0x3120, 0x04, 0x04, 4, false, .ro, 0, true⟩,
   ⟨0x3121, 0x01, 0x01, 4, false, .ro, 0, true⟩,
   ⟨0x3121, 0x02, 0x02, 2, false, .ro, 0, true⟩,
   ⟨0x3121, 0x03, 0x03, 4, true, .ro, 0, true⟩,
   ⟨0x3121, 0x04, 0x04, 4, false, .ro, 0, true⟩,
   ⟨0x3200, 0x01, 0x01, 160, false, .ro, 0, false⟩,
   ⟨0x3200, 0x02, 0x02, 8, false, .ro, 0, false⟩,
   ⟨0x3200, 0x03, 0x03, 8, false, .ro, 0, false⟩,
   ⟨0x3200, 0x04, 0x04, 1, false, .ro, 0, false⟩,
   ⟨0x3201, 0x01, 0x01, 4, false, .ro, 0, true⟩,
   ⟨0x3201, 0x02, 0x02, 2, false, .ro, 0xFFFF, true⟩,
   ⟨0x3210, 0x01, 0x01, 4, false, .rwj, 0, false⟩]

/-- Coolant and thermal entries (R403). -/
def entriesCoolant : List DEntry :=
  [⟨0x4000, 0x01, 0x01, 4, true, .ro, 0, false⟩,
   ⟨0x4000, 0x02, 0x02, 4, true, .ro, 0, false⟩,
   ⟨0x4000, 0x03, 0x03, 4, true, .ro, 0, false⟩,
   ⟨0x4000, 0x04, 0x04, 4, true, .ro, 0, false⟩,
   ⟨0x4000, 0x05, 0x05, 4, true, .ro, 0, false⟩,
   ⟨0x4000, 0x06, 0x06, 2, false, .ro, 0, false⟩,
   ⟨0x4000, 0x07, 0x07, 4, false, .ro, 0, true⟩,
   ⟨0x4001, 0x01, 0x01, 4, true, .rws, 0x40800000, true⟩,
   ⟨0x4001, 0x02, 0x02, 4, true, .rws, 0x3D4CCCCD, true⟩,
   ⟨0x4010, 0x01, 0x10, 4, true, .ro, 0, false⟩,
   ⟨0x4011, 0x01, 0x10, 4, true, .ro, 0, false⟩,
   ⟨0x4012, 0x01, 0x10, 4, true, .ro, 0, false⟩,
   ⟨0x4013, 0x01, 0x10, 1, false, .ro, 0, false⟩,
   ⟨0x4014, 0x01, 0x10, 1, false, .ro, 0, false⟩,
   ⟨0x4100, 0x01, 0x01, 32, false, .rwj, tempTableDefault, true⟩,
   ⟨0x4100, 0x02, 0x02, 1, false, .rwj, 20, true⟩,
   ⟨0x4100, 0x03, 0x03, 4, true, .rwj, 0x41000000, true⟩,
   ⟨0x4100, 0x04, 0x04, 1, false, .rwj, 1, true⟩,
   ⟨0x4101, 0x01, 0x01, 16, false, .rwj, pumpTableDefault, true⟩,
   ⟨0x4101, 0x02, 0x02, 16, false, .rwj, fanTableDefault, true⟩,
   ⟨0x4200, 0x01, 0x01, 1, false, .ro, 0, false⟩,
   ⟨0x4200, 0x02, 0x02, 4, true, .ro, 0, false⟩,
   ⟨0x4200, 0x03, 0x03, 4, true, .ro, 0, false⟩,
   ⟨0x4200, 0x04, 0x04, 1, false, .ro, 0, true⟩,
   ⟨0x4200, 0x05, 0x05, 4, true, .rws, 0x42200000, true⟩,
   ⟨0x4200, 0x06, 0x06, 4, false, .ro, 0, true⟩,
   ⟨0x5000, 0x01, 0x01, 2560, false, .ro, 0, false⟩,
   ⟨0x5000, 0x02, 0x02, 5120, false, .ro, 0, false⟩,
   ⟨0x5001, 0x01, 0x01, 128, false, .ro, 0, false⟩,
   ⟨0x5002, 0x01, 0x01, 16, false, .ro, 0, false⟩]

/-- Coolant and thermal entries (R403). -/
def entriesCoolant2 : List DEntry :=
  [⟨0x5003, 0x01, 0x01, 320, false, .ro, 0, false⟩,
   ⟨0x5003, 0x02, 0x02, 8, false, .ro, 0, false⟩,
   ⟨0x5003, 0x03, 0x03, 8, false, .ro, 0, false⟩,
   ⟨0x5004, 0x01, 0x01, 160, false, .ro, 0, false⟩,
   ⟨0x5004, 0x02, 0x02, 160, false, .ro, 0, true⟩,
   ⟨0x5004, 0x03, 0x03, 160, false, .ro, 0, true⟩,
   ⟨0x5005, 0x01, 0x01, 320, false, .ro, 0, true⟩,
   ⟨0x5005, 0x02, 0x02, 2, false, .rws, 0xFFFF, false⟩,
   ⟨0x5006, 0x01, 0x01, 4, true, .ro, 0, false⟩,
   ⟨0x5006, 0x02, 0x02, 2, false, .ro, 0xFFFF, false⟩,
   ⟨0x5100, 0x01, 0x01, 4, true, .rws, 0x42D20000, true⟩,
   ⟨0x5100, 0x02, 0x02, 4, true, .ro, 0x42E60000, false⟩,
   ⟨0x5100, 0x03, 0x03, 4, true, .rws, 0x42BE0000, true⟩,
   ⟨0x5100, 0x04, 0x04, 1, false, .ro, 0, false⟩,
   ⟨0x5100, 0x05, 0x05, 1, false, .ro, 0, false⟩,
   ⟨0x5100, 0x06, 0x06, 4, false, .ro, 0, true⟩]

/-- Actuator entries (R433). -/
def entriesActuator : List DEntry :=
  [⟨0x6000, 0x01, 0x01, 20, false, .ro, 0, false⟩,
   ⟨0x6000, 0x02, 0x02, 80, false, .ro, 0, false⟩,
   ⟨0x6001, 0x01, 0x01, 4, false, .ro, 0, true⟩,
   ⟨0x6001, 0x02, 0x02, 20, false, .ro, 0, true⟩,
   ⟨0x6001, 0x03, 0x03, 4, false, .rws, 0, false⟩,
   ⟨0x6002, 0x01, 0x01, 1, false, .ro, 0, true⟩,
   ⟨0x6002, 0x02, 0x02, 4, false, .ro, 0, true⟩,
   ⟨0x6003, 0x01, 0x01, 4, false, .ro, 0, false⟩,
   ⟨0x6003, 0x02, 0x02, 4, false, .ro, 0, false⟩,
   ⟨0x6004, 0x01, 0x01, 4, false, .ro, 0, true⟩,
   ⟨0x6004, 0x02, 0x02, 4, false, .ro, 0, true⟩,
   ⟨0x6010, 0x01, 0x01, 2, false, .rwj, 3000, true⟩,
   ⟨0x6010, 0x02, 0x02, 4, true, .rwj, 0x3E4CCCCD, true⟩,
   ⟨0x6010, 0x03, 0x03, 4, true, .rwj, 0x3CF5C28F, true⟩,
   ⟨0x6020, 0x01, 0x01, 1, false, .rws, 0, true⟩,
   ⟨0x6020, 0x02, 0x02, 1, false, .ro, 0, true⟩,
   ⟨0x6100, 0x01, 0x01, 1, false, .ro, 0xFF, false⟩,
   ⟨0x6100, 0x02, 0x02, 1, false, .ro, 0, true⟩,
   ⟨0x6101, 0x01, 0x02, 1, false, .ro, 0, false⟩,
   ⟨0x6102, 0x01, 0x02, 2, false, .ro, 0, false⟩,
   ⟨0x6103, 0x01, 0x02, 4, true, .ro, 0, false⟩,
   ⟨0x6104, 0x01, 0x02, 1, false, .ro, 0, true⟩,
   ⟨0x6110, 0x01, 0x04, 1, false, .ro, 0, false⟩,
   ⟨0x6111, 0x01, 0x04, 2, false, .ro, 0, false⟩,
   ⟨0x6112, 0x01, 0x04, 4, true, .ro, 0, false⟩,
   ⟨0x6113, 0x01, 0x04, 1, false, .ro, 0, true⟩,
   ⟨0x6120, 0x01, 0x01, 1, false, .ro, 0, false⟩,
   ⟨0x6120, 0x02, 0x02, 1, false, .rws, 0, false⟩,
   ⟨0x6120, 0x03, 0x03, 4, false, .ro, 0, false⟩]

/-- Joints, summary, safety and other entries (R532). -/
def entriesOther : List DEntry :=
  [⟨0x7000, 0x01, 0x01, 16, false, .ro, 0, false⟩,
   ⟨0x7000, 0x02, 0x02, 1024, false, .ro, 0, false⟩,
   ⟨0x7000, 0x03, 0x03, 1, false, .ro, 0, false⟩,
   ⟨0x7000, 0x04, 0x04, 1, false, .ro, 0, false⟩,
   ⟨0x7000, 0x05, 0x05, 2, false, .ro, 0, false⟩,
   ⟨0x7001, 0x01, 0x01, 1, false, .rwj, 0, false⟩,
   ⟨0x7003, 0x01, 0x01, 1, false, .ro, 0xFF, false⟩,
   ⟨0x7003, 0x02, 0x02, 1, false, .ro, 0, false⟩,
   ⟨0x8000, 0x01, 0x01, 512, false, .ro, 0, false⟩,
   ⟨0x8000, 0x02, 0x02, 8, false, .ro, 0, false⟩,
   ⟨0xA000, 0x01, 0x01, 1, false, .ro, 0, false⟩,
   ⟨0xA000, 0x02, 0x02, 1, false, .ro, 0, true⟩,
   ⟨0xA000, 0x03, 0x03, 8, false, .ro, 0, true⟩,
   ⟨0xA000, 0x04, 0x04, 1, false, .rws, 0, false⟩,
   ⟨0xA000, 0x05, 0x05, 1, false, .rws, 0, false⟩,
   ⟨0xA001, 0x01, 0x08, 4, false, .ro, 0, true⟩,
   ⟨0xA002, 0x01, 0x01, 1, false, .ro, 0, false⟩,
   ⟨0xA002, 0x02, 0x02, 4, false, .ro, 0, true⟩,
   ⟨0xA003, 0x01, 0x01, 4, false, .ro, 0, true⟩,
   ⟨0xA003, 0x02, 0x02, 1, false, .ro, 0, false⟩,
   ⟨0xF000, 0x01, 0x01, 4, false, .rw, 0, false⟩,
   ⟨0xF000, 0x02, 0x02, 256, false, .ro, 0, false⟩]

/-- Sparing and turn entries (R291). -/
def entriesTurn : List DEntry :=
  [⟨0x7100, 0x01, 0x01, 160, false, .ro, 0, true⟩,
   ⟨0x7100, 0x02, 0x02, 2, false, .ro, 0, true⟩,
   ⟨0x7101, 0x01, 0x01, 4, false, .ro, 0x44444444, true⟩,
   ⟨0x7101, 0x02, 0x02, 1, false, .ro, 32, true⟩,
   ⟨0x7101, 0x03, 0x03, 8, false, .ro, 0x00000007E0000000, true⟩,
   ⟨0x7110, 0x01, 0x01, 2, false, .rwj, 0xFFFF, false⟩,
   ⟨0x7110, 0x02, 0x02, 2, false, .rws, 0xFFFF, false⟩,
   ⟨0x7120, 0x01, 0x01, 2048, false, .ro, 2 ^ 16384 - 1, false⟩,
   ⟨0x7120, 0x02, 0x02, 256, false, .ro, identityBytes 256, false⟩,
   ⟨0x7120, 0x03, 0x03, 64, false, .ro, identityBytes 64, false⟩,
   ⟨0x7200, 0x01, 0x01, 1, false, .ro, 0, false⟩,
   ⟨0x7200, 0x02, 0x02, 1, false, .ro, 0, false⟩,
   ⟨0x7200, 0x03, 0x03, 4, false, .ro, 0, true⟩,
   ⟨0x7201, 0x01, 0x01, 4, false, .rwj, 900, true⟩,
   ⟨0x7201, 0x02, 0x02, 4, false, .ro, 0, false⟩,
   ⟨0x7201, 0x03, 0x03, 1, false, .ro, 0, false⟩]

/-- Journal and redundancy entries (R468, R532). -/
def entriesSkour2 : List DEntry :=
  [⟨0x9000, 0x01, 0x01, 4, false, .ro, 1, false⟩,
   ⟨0x9000, 0x02, 0x02, 4, false, .ro, 1, false⟩,
   ⟨0x9000, 0x03, 0x03, 4, false, .ro, 0, true⟩,
   ⟨0x9001, 0x01, 0x01, 4, false, .rw, 1, false⟩,
   ⟨0x9001, 0x02, 0x02, 256, false, .ro, 0, false⟩,
   ⟨0x9002, 0x01, 0x01, 4, false, .ro, 1, false⟩,
   ⟨0xB000, 0x01, 0x01, 1, false, .ro, 0, false⟩,
   ⟨0xB000, 0x02, 0x02, 2, false, .ro, 0, false⟩,
   ⟨0xB000, 0x03, 0x03, 4, false, .ro, 0, true⟩,
   ⟨0xB000, 0x04, 0x04, 4, false, .ro, 0, true⟩,
   ⟨0xB000, 0x05, 0x05, 1, false, .rws, 0, false⟩,
   ⟨0xB001, 0x01, 0x01, 1, false, .ro, 0, false⟩,
   ⟨0xB001, 0x02, 0x02, 1, false, .ro, 0, true⟩,
   ⟨0xB001, 0x03, 0x03, 4, true, .ro, 0, false⟩,
   ⟨0xB001, 0x04, 0x04, 4, false, .ro, 0, true⟩,
   ⟨0xB001, 0x05, 0x05, 1, false, .rws, 0, false⟩]

/-- Event objects of each range: OCTET[48], RO, zero, not retained (R525, table "Dictionary events"). -/
def eventObjects : List DEntry :=
  [(0x11FF, 7), (0x12FF, 1), (0x20FF, 3), (0x21FF, 1), (0x30FF, 2), (0x31FF, 2), (0x40FF, 6), (0x42FF, 2), (0x50FF, 3),
    (0x51FF, 2), (0x60FF, 5), (0x61FF, 7), (0x72FF, 1), (0xA0FF, 1), (0xB0FF, 1)].map
    fun x => ⟨x.1, 1, x.2, 48, false, .ro, 0, false⟩

/-- The whole entry map. -/
def entryMap : List DEntry :=
  entriesIdent ++ entriesBus ++ entriesSkour ++ entriesPower ++ entriesPower2 ++ entriesCoolant ++
    entriesCoolant2 ++ entriesActuator ++ entriesOther ++ entriesTurn ++ entriesSkour2 ++ eventObjects

/-- The entry at an index and sub-index of 1 or more. -/
def entryAt (index sub : Nat) : Option DEntry :=
  entryMap.find? fun e => e.index == index && decide (e.first ≤ sub) && decide (sub ≤ e.last)
/-- The entry by its name. -/
def entryOf (k : Nat) : Option DEntry := entryAt (k / 256) (k % 256)
/-- Some entry stands at the index. -/
def indexHolds (index : Nat) : Bool := entryMap.any fun e => e.index == index
/-- The highest sub-index in use at an index (R504). -/
def highestSub (index : Nat) : Nat := entryMap.foldl (fun n e => if e.index = index then max n e.last else n) 0
/-- An entry's default (R507). -/
def dflt (k : Nat) : Nat := match entryOf k with | some e => e.dflt | none => 0

/-- The stored value of an entry. -/
def dget (m : Mgmt) (k : Nat) : Nat := look (dflt k) m.dict k

/-- An entry's stored value changed; a retained one makes its image due (R458). -/
def dset (k v : Nat) (m : Mgmt) : Mgmt :=
  if dget m k = v then m
  else
    let m1 := { m with dict := put (dflt k) m.dict k v }
    match entryOf k with
    | some e =>
      if !e.retained then m1
      else if e.acc = .ro then { m1 with recordsDirty := true } else { m1 with settingsDirty := true }
    | none => m1

/-- A U32 count incremented; it wraps at its width. -/
def dinc (k : Nat) (m : Mgmt) : Mgmt := dset k ((dget m k + 1) % 2 ^ 32) m

/-- Bits of a flag entry set. -/
def dsetBits (k mask : Nat) (m : Mgmt) : Mgmt := dset k (dget m k ||| mask) m
/-- Bits of a flag entry cleared. -/
def dclearBits (k mask : Nat) (m : Mgmt) : Mgmt := dset k (dget m k - (dget m k &&& mask)) m
/-- A bit of an entry. -/
def dbit (m : Mgmt) (k i : Nat) : Bool := (dget m k).testBit i

/-- The sticky bits of an entry as a mask; 0 when it has none (R62, R509). -/
def stickyMask (k : Nat) : Nat :=
  if k = Ent.inletFlags then 0x7
  else if k = Ent.coolantFlags then 0x3C
  else if k = Ent.leakFlags then 0xF
  else if k = Ent.tileSensorFaults then 2 ^ 2560 - 1
  else if k = Ent.stackSensorFaults then 2 ^ 64 - 1
  else if k = Ent.otherSensorFaults then 2 ^ 59 - 1
  else if k = Ent.pairDisagree then 2 ^ 1280 - 1
  else if k = Ent.deferredFlags ∨ k = Ent.stuckOpen then 0xFFFFF
  else if k = Ent.pumpFlags ∨ k = Ent.pumpFlags + 1 then 2
  else if Ent.fanFlags ≤ k ∧ k ≤ Ent.fanFlags + 3 then 2
  else if k = Ent.oscFlags then 0xF
  else if k = Ent.chanFlags ∨ k = Ent.chanFlags + 1 then 0xEB
  else if k = Ent.sillState then 0x20
  else 0

end Sys2Proof.Machine
end

