-- ==== Sys2Proof/Machine/Module.lean ====
section
/-!
DEFINITION. The module: its data, control and management planes, Sill, and TSCLK. What Skour does in every rule: committing
journal entries, raising events, moving the module state, keeping the repair map, writing J1.
-/

namespace Sys2Proof.Machine

/-- The whole module. `ts` is TSCLK in ns; `sf` is Sill's own time in ns, counted on SFCLK and WDCLK (R27). -/
structure Module where
  ts : W64
  sf : W64
  data : Data
  ctrl : Ctrl
  mgmt : Mgmt
  sill : Sill
deriving DecidableEq, Repr

/-- The module before it has ever had power. -/
def Module.reset : Module := ⟨0, 0, Data.reset, Ctrl.reset, Mgmt.reset, Sill.reset⟩

def onData (f : Data → Data) (x : Module) : Module := { x with data := f x.data }
def onCtrl (f : Ctrl → Ctrl) (x : Module) : Module := { x with ctrl := f x.ctrl }
def onMgmt (f : Mgmt → Mgmt) (x : Module) : Module := { x with mgmt := f x.mgmt }
def onSill (f : Sill → Sill) (x : Module) : Module := { x with sill := f x.sill }

/-- What the data plane reads from outside itself. -/
def envOf (x : Module) : Env := ⟨x.ts, x.mgmt.module == .running, x.mgmt.module == .held⟩
/-- What the control plane reads from outside itself. -/
def cenvOf (x : Module) : CEnv := ⟨x.ts, x.data.beat.tick, x.data.beat.count, ownModule x.data⟩

/-! ### Small updates -/

def setE (k v : Nat) (x : Module) : Module := onMgmt (dset k v) x
def incE (k : Nat) (x : Module) : Module := onMgmt (dinc k) x
def getE (x : Module) (k : Nat) : Nat := dget x.mgmt k
def editJoints (f : Joints → Joints) (x : Module) : Module := onMgmt (fun m => { m with joints := f m.joints }) x
def editPower (f : Power → Power) (x : Module) : Module := onMgmt (fun m => { m with power := f m.power }) x
def editCool (f : Cool → Cool) (x : Module) : Module := onMgmt (fun m => { m with cool := f m.cool }) x
def editAct (f : Act → Act) (x : Module) : Module := onMgmt (fun m => { m with act := f m.act }) x
def editBus (f : Bus → Bus) (x : Module) : Module := onMgmt (fun m => { m with bus := f m.bus }) x
/-- `f` when `c` holds; else nothing. -/
def onlyIf (c : Bool) (f : Module → Module) (x : Module) : Module := if c then f x else x

/-- Skour runs. -/
def skourUp (x : Module) : Bool := x.mgmt.run == .up

/-! ### Values of F32 entries -/

/-- The rational an F32 pattern stands for; 0 for NaN and infinities, which no stored setting holds (R506). -/
def f32Rat (v : Nat) : Rat :=
  match decodeF fp32 v with
  | .fin neg q => if neg then -(mkRat q.num q.den) else mkRat q.num q.den
  | _ => 0

/-- A rational as an F32 pattern, rounded to nearest even. -/
def ratF32 (q : Rat) : Nat := (toF32 .rne (.fin (decide (q < 0)) ⟨q.num.natAbs, q.den⟩)).toNat

/-- The value of an F32 entry. -/
def getF (x : Module) (k : Nat) : Rat := f32Rat (getE x k)

/-- The value of an F32 threshold for readings in steps of 1/n: the step whose own F32 the entry holds, else its exact
value. A reading and a threshold written as the same decimal are then equal (log 36). -/
def getSnap (n : Nat) (x : Module) (k : Nat) : Rat :=
  let q := getF x k
  let r : Rat := mkRat (q * n + 1 / 2).floor n
  if ratF32 r = getE x k then r else q

/-- A temperature of 0.1 °C units as its I16 pattern. -/
def i16 (t : Int) : Nat := (BitVec.ofInt 16 t).toNat

/-! ### The journal (R463–R466) -/

/-- Byte `i` of the latest J4 snapshot. -/
def snapByte (m : Mgmt) (i : Nat) : Nat := (m.joints.snapshot.getD i 0).toNat

/-- The beat counter of the latest J4 snapshot. -/
def snapCount (m : Mgmt) : Nat := leNat (m.joints.snapshot.take 8)

/-- Run bits of the latest J4 snapshot (R529): beats advancing; held; beat_fault. -/
def snapAdvancing (m : Mgmt) : Bool := (snapByte m 17).testBit 0
def snapHeld (m : Mgmt) : Bool := (snapByte m 17).testBit 1
def snapFault (m : Mgmt) : Bool := (snapByte m 17).testBit 2

/-- The clock step in force as Skour knows it: from the latest snapshot; 12 while the beat generator marks no boundaries
(R141, R144). -/
def stepNow (m : Mgmt) : Nat :=
  match m.module with
  | .ready => if m.joints.snapFrame.isSome then snapByte m 16 else 12
  | .running => if m.joints.snapFrame.isSome then snapByte m 16 else 12
  | .held => if m.joints.snapFrame.isSome then snapByte m 16 else 12
  | _ => 12

/-- Low 32 bits of the beat counter in the latest J4 snapshot. -/
def snapBeat (m : Mgmt) : W32 := BitVec.ofNat 32 (leNat (m.joints.snapshot.take 4))

/-- An entry takes the next sequence and its place in the ring (R465). -/
def journalPut (e : JEnt) (m : Mgmt) : Mgmt :=
  { m with
    journal := insertKey m.journal (m.jNext % 65536) { e with sequence := m.jNext }
    jNext := if m.jNext = 0xFFFFFFFF then 1 else m.jNext + 1
    jHeld := min 65536 (m.jHeld + 1) }

/-- An entry is committed, and Sill keeps it among the last 64 (R465, R466). -/
def commitEnt (e : JEnt) (x : Module) : Module :=
  let c := x.sill.copy ++ [{ e with sequence := x.mgmt.jNext }]
  { x with
    mgmt := journalPut e x.mgmt
    sill := if x.sill.on then { x.sill with copy := c.drop (c.length - 64) } else x.sill }

/-- What waits for Skour: at most 256 items, the oldest replaced and counted (R430). -/
def enqueue (e : JEnt) (detail : List Byte) (x : Module) : Module :=
  editAct (fun a =>
    if a.queue.length < 256 then { a with queue := a.queue ++ [(e, detail)] }
    else { a with queue := a.queue.tail ++ [(e, detail)], lost := a.lost + 1 }) x

/-- An entry of the module's own: committed while Skour runs; else it waits, Sill's in Sill's copy with sequence 0. -/
def note (source kind key : Nat) (value : Nat) (x : Module) : Module :=
  let e : JEnt :=
    ⟨0, x.ts, snapBeat x.mgmt, source, 0, key / 256, key % 256, kind, BitVec.ofNat 64 value, 0⟩
  if skourUp x then commitEnt e x
  else if source = 4 then onSill (fun s => { s with copy := (s.copy ++ [e]).drop (s.copy.length - 63) }) x
  else enqueue e [] x

/-- An accepted or refused order of a requester (R464). -/
def commitOrder (source authority kind key : Nat) (value : W64) (result : Nat) (x : Module) : Module :=
  commitEnt ⟨0, x.ts, snapBeat x.mgmt, source, authority, key / 256, key % 256, kind, value, BitVec.ofNat 16 result⟩ x

/-! ### Dictionary events (R525–R527) -/

/-- An event record leaves for its object, the journal and its listeners. `at_` is when it occurred. -/
def recordEvent (obj : Nat) (at_ : W64) (detail : List Byte) (x : Module) : Module :=
  let d24 := (detail ++ List.replicate 24 0).take 24
  let jseq := x.mgmt.jNext
  let x1 := commitEnt ⟨0, at_, snapBeat x.mgmt, 0, 0, obj / 256, obj % 256, 5, BitVec.ofNat 64 (leNat (d24.take 8)), 0⟩ x
  let n := x1.mgmt.eventSeq
  let rec_ := natLe 4 n ++ natLe 8 at_.toNat ++ natLe 4 jseq ++ natLe 2 (obj / 256) ++ natLe 1 (obj % 256) ++
    natLe 1 (getE x1 Ent.addressInUse) ++ natLe 4 (snapBeat x1.mgmt).toNat ++ d24
  editBus (fun b => { b with events := b.events ++ [rec_] })
    (setE obj (leNat rec_) (onMgmt (fun m => { m with eventSeq := if n = 0xFFFFFFFF then 1 else n + 1 }) x1))

/-- An event is raised; while Skour is away it waits (R454). -/
def raiseEvent (obj : Nat) (detail : List Byte) (x : Module) : Module :=
  if skourUp x then recordEvent obj x.ts detail x
  else enqueue ⟨0, x.ts, snapBeat x.mgmt, 5, 0, obj / 256, obj % 256, 5, 0, 0⟩ detail x

/-- A safety alarm's condition begins (R490). -/
def beginAlarm (code cause : Nat) (x : Module) : Module :=
  let n := (getE x Ent.alarmSeq + 1) % 65536
  editBus (fun b => { b with alarms := b.alarms ++ [⟨n, code, cause, x.mgmt.module, x.ts, 0, x.ts⟩] }) (setE Ent.alarmSeq n x)

/-- A safety alarm's condition ends. -/
def endAlarm (code : Nat) (x : Module) : Module :=
  editBus (fun b => { b with alarms := b.alarms.filter fun a => a.code ≠ code }) x

/-! ### The repair map and capacity (R265, R266) -/

/-- The repair map as the placement rules read it. -/
def repairMap (m : Mgmt) : Repair := repairOf (natLe 160 (dget m Ent.repairMap))

/-- Number of bits set. -/
def popCount (n v : Nat) : Nat := (List.range n).foldl (fun k i => k + b2n (v.testBit i)) 0

/-- failed_tiles, cap_widths and cap_columns follow the repair map. -/
def syncCapacity (m : Mgmt) : Mgmt :=
  let cw := capWidths (repairMap m)
  dset Ent.capColumns ((List.range 8).foldl (fun n fc => n + bits (4 * fc + 3) (4 * fc) cw) 0)
    (dset Ent.capWidths cw (dset Ent.failedTiles (popCount 1280 (dget m Ent.repairMap)) m))

/-- A physical tile's repair map bit is set or cleared, with its journal entry (kind 9). -/
def markTile (ix : Nat) (bad : Bool) (x : Module) : Module :=
  let v := getE x Ent.repairMap
  if v.testBit ix = bad then x
  else
    let v1 := if bad then v + 2 ^ ix else v - 2 ^ ix
    note 0 9 Ent.repairMap ix (onMgmt syncCapacity (setE Ent.repairMap v1 x))

/-- stack_usable (R266): the least usable capacity of the 64 fields; a failed stack counts as zero. -/
def stackUsable (d : Data) : Nat := leastStack d - min (leastStack d) moduleArea

/-! ### J1 (R17, R342, R343, R401, R417) -/

/-- throttle on J1: the OR of every reason held apart. -/
def throttleOn (t : Throttles) : Bool :=
  t.busUv || t.blocks || t.capUnmet || t.flowTerm || t.flowStop || t.clamp || !t.valves.isEmpty

/-- The J1 levels Skour holds. -/
def j1Levels (m : Mgmt) : J1Levels :=
  ⟨m.joints.stepReq, m.joints.hostHold || decide (dget m Ent.rackHold = 1), throttleOn m.power.throttles⟩

/-- Skour presents levels on J1; while it is away they stand as they were (R18). -/
def presentLevels (v : J1Levels) (x : Module) : Module :=
  if skourUp x then onData (latchLevels v) (editJoints (fun j => { j with out := v }) x) else x

/-- Skour writes the J1 levels it holds. -/
def writeJ1 (x : Module) : Module := presentLevels (j1Levels x.mgmt) x

/-- Skour presents an order word on J1 (R19). -/
def presentOrder (o : BitVec 16) (x : Module) : Module := onData (latchOrder o) (editJoints (fun j => { j with order := o }) x)

/-- The reasons for throttle changed, with J1. -/
def setThrottle (f : Throttles → Throttles) (x : Module) : Module :=
  writeJ1 (editPower (fun p => { p with throttles := f p.throttles }) x)

/-- The order word with its seq one on (R17). -/
def nextOrder (m : Mgmt) (op turn : Nat) : BitVec 16 :=
  BitVec.ofNat 16 (((m.joints.order.toNat / 256 + 1) % 256) * 256 + (turn % 8) * 32 + op)

/-- Skour writes an order on J1. -/
def writeOrder (op turn : Nat) (x : Module) : Module := presentOrder (nextOrder x.mgmt op turn) x

/-- step_req follows cap_step and thermal_step (R364), and never lies below the image's min_step (R264). -/
def writeStep (x : Module) : Module :=
  let s := max (max x.mgmt.power.capStep x.mgmt.cool.thermalStep) x.mgmt.joints.minStep
  writeJ1 (editJoints (fun j => { j with stepReq := s }) x)

/-! ### Module states (R445, R544) -/

/-- The data plane is powered in this state. -/
def ModState.dataOn : ModState → Bool
  | .off => false | .standby => false | .coldStart => true | .warmStart => true | .ready => true | .running => true
  | .held => true | .safeStop => true | .leakCut => false | .service => false

/-- READY, RUNNING or HELD. -/
def ModState.runs : ModState → Bool
  | .ready => true | .running => true | .held => true | _ => false

/-- The state register moves to `t`, with its journal entry; the host cap lasts until READY, RUNNING and HELD are left
(R356); the forecast is due (R371). -/
def toState (t : ModState) (x : Module) : Module :=
  let old := x.mgmt.module
  if old = t then x
  else
    let x1 := onMgmt (fun m => { m with module := t }) (setE Ent.stateTime x.ts.toNat x)
    let x2 := editPower (fun p => { p with forecastDue := true, hostCap := if t.runs then p.hostCap else 30000 }) x1
    note 0 4 Ent.moduleState (256 * modCode old + modCode t) x2

/-! ### Power domains (R347, R348) -/

/-- Tile domain `ix` is on. -/
def tileOn (d : Data) (ix : Nat) : Bool := !((tileOf d ix).tstate == .off)
/-- Any tile domain is on. -/
def anyTileOn (d : Data) : Bool := d.tiles.any fun p => !(p.2.tstate == .off)

/-- The data plane and everything it powers goes off, in the reverse of R348's order. The run it carried is gone with it, and
so are the host hold and an order in waiting (DESIGN CHOICE, log 79). -/
def dataOff (x : Module) : Module :=
  writeJ1 (setThrottle (fun t => { t with valves := [] })
    (editPower (fun p => { p with forced := [] })
      (editJoints (fun j => { j with
        hostHold := false, stopping := false, turnOrder := none, waiting := false, snapFrame := none }) (onData dataPowerDown x))))

/-- A start or a stop of the data plane: unpowered to powered with the items J1 presents (R19). -/
def dataOn (x : Module) : Module :=
  if x.data.on then x else onData (dataPowerUp x.mgmt.joints.out x.mgmt.joints.order) x

/-- Group 1: actuator drive and security domains (R348); the control block comes up with the security domain. -/
def groupOneOn (x : Module) : Module :=
  onCtrl (fun c => if c.on then c else ctrlPowerUp c) (onMgmt (fun m => { m with service := m.service ||| 0xC0 }) x)
/-- The actuator drive and security domains lose the bus (R30): valves close, the control block is gone. -/
def groupOneOff (x : Module) : Module :=
  onCtrl ctrlPowerDown
    (setE Ent.valvesHeld 0 (editCool (fun c => { c with bypass := false })
      (editAct (fun a => { Act.reset with paired := a.paired, queue := a.queue, lost := a.lost })
        (onMgmt (fun m => { m with service := m.service &&& 0x3F }) x))))

end Sys2Proof.Machine
end

