-- ==== Sys2Proof/Machine/SillOps.lean ====
section
/-!
DEFINITION. What Sill does (chapter 17): the joint J3, its latches and the state register, the inlet, the eight safety
functions, the watchdog over Skour, the leak channels, and the service UART.
-/

namespace Sys2Proof.Machine

/-! ### Times -/

/-- Nanoseconds of TSCLK from `t` to now. -/
def sinceT (x : Module) (t : W64) : Nat := (x.ts - t).toNat

/-- Nanoseconds of Sill's own clock from `t` to now: every bound that Sill keeps (R27). -/
def sinceSf (x : Module) (t : W64) : Nat := (x.sf - t).toNat

/-! ### The inlet and what depends on the bus (R335, R336, R374) -/

/-- Blocks in service (R343). -/
def blocksIn (m : Mgmt) : Nat := (List.range 4).foldl (fun n i => n + b2n (dget m (Ent.convState + i) == 1)) 0

/-- The 54 V bus falls: blocks leave service, group 1 and the data plane lose power, and a start in progress is gone. -/
def busDown (x : Module) : Module :=
  let m1 := repeatN (fun i m => if dget m (Ent.convState + i) = 1 then dset (Ent.convState + i) 0 m else m) 4 x.mgmt
  dataOff (groupOneOff { x with mgmt := dset Ent.busVoltage 0 { m1 with start := none, startDue := none } })

/-- The SSD opens and the contactor after it (R336). -/
def openInlet (x : Module) : Module :=
  setE Ent.inletState 0 (busDown (onSill (fun s => { s with ssd := .opened, contactor := false }) x))

/-- The inlet is connected. -/
def inletClosed (x : Module) : Bool := x.sill.ssd == .closed

/-! ### The state register (R544, R550) -/

/-- The state the latches and loops force, if any. -/
def forcedState (x : Module) : Option ModState :=
  let s := x.sill
  if s.leakCut then some .leakCut
  else if s.inletLock ∨ !s.interlock ∨ !s.present ∨ s.stopped ∨ s.fault then some .off
  else if s.safeStop then some (if inletClosed x then .safeStop else .off)
  else none

/-- The register follows Sill, and a start in progress is at its end (R33, R445); entering LEAK_CUT or SAFE_STOP begins its
alarm (R490). -/
def followSill (x : Module) : Module :=
  match forcedState x with
  | none => x
  | some t =>
    if x.mgmt.module = t then x
    else
      let x1 := toState t (onMgmt (fun m => { m with start := none, startDue := none }) x)
      let c := (if t = .leakCut then x.sill.leakCause else x.sill.firstCause).toNat
      match t with
      | .leakCut => beginAlarm 1 c x1
      | .safeStop => beginAlarm 2 c x1
      | _ => x1

/-- HALT_CAUSE shown now (R550). -/
def shownCause (s : Sill) : Byte := if s.leakCut then s.leakCause else s.firstCause

/-! ### J3 (R21, R542) -/

/-- Sill asserts HALT and HALT_CAUSE (R542 step 1): the beat generator stops, and pending J1 orders are discarded. -/
def assertHalt (cause : Byte) (x : Module) : Module :=
  onSill (fun s => { s with halt := true, haltAt := some x.sf, halted := false })
    (onCtrl (fun c => { c with haltCause := cause }) (onData haltBeats x))

/-- TILE_PWR_EN falls on all 64 lines (R542 step 3). -/
def dropTilePower (x : Module) : Module :=
  onSill (fun s => { s with tilePwrEn := false }) (onData (fun d => dropTiles (envOf x) d) x)

/-- HALTED rises while HALT stands, and Sill drops the lines (R542, R152). -/
def haltedRises (x : Module) : Module :=
  if !x.sill.halt then x
  else dropTilePower (onSill (fun s => { s with halted := true }) (onData (fun d => haltedRise (envOf x) d) x))

/-- HALTED has not come 2 µs after HALT: the fault is declared, and Sill drops the lines (R152, R542). -/
def haltedTimeout (x : Module) : Module :=
  if x.sill.halt ∧ !x.sill.halted then dropTilePower (onData (fun d => haltedLate (envOf x) d) x) else x

/-- HALTED has not come within 100 µs (R543). -/
def haltedMissing (x : Module) : Module :=
  if x.sill.halt ∧ !x.sill.halted then onSill (fun s => { s with haltMissing := true }) x else x

/-- The inlet opens and Sill refuses to close it. -/
def lockInlet (x : Module) : Module := followSill (openInlet (onSill (fun s => { s with inletLock := true }) x))

/-- A tile rail is still above 0.20 V 1 ms after the drop (R543). `mv` is the highest tile rail. -/
def tileRailCheck (mv : Nat) (x : Module) : Module :=
  if x.sill.halt ∧ !x.sill.tilePwrEn ∧ 200 < mv then lockInlet x else x

/-! ### A safety function acts (R537, R551) -/

/-- Sill's latches, causes and relay as they stand. -/
def latchesOf (s : Sill) : Latches :=
  ⟨s.safeStop, s.leakCut, s.inletLock, s.safeCause, s.leakCause, s.firstCause, s.acted, s.trayCut, s.leakOut, s.latchAt,
    s.latched, s.sf6At⟩

/-- A trigger in the SFCLK cycle of a confirmation: the agreement is withheld, and what the exit cleared stands (R553).
Commands with no frame between them stand in one cycle (log 91). -/
def withhold (now : W64) (s : Sill) : Sill :=
  match s.exited with
  | some (t, l) =>
    if t = now then
      { s with
        safeStop := l.safeStop, leakCut := l.leakCut, inletLock := l.inletLock, safeCause := l.safeCause
        leakCause := l.leakCause, firstCause := l.firstCause, acted := l.acted, trayCut := l.trayCut, leakOut := l.leakOut
        latchAt := l.latchAt, latched := l.latched, sf6At := l.sf6At, exited := none }
    else s
  | none => s

/-- Sill records that a function acts: the first since the last exit gives the cause shown; of two in one SFCLK cycle the one
of the lower number (R550, R551). -/
def noteAct (cause : Byte) (now : W64) (s0 : Sill) : Sill :=
  let s := withhold now s0
  let first := s.acted.isEmpty || (s.firstAt == now && decide (cause.toNat % 16 < s.firstCause.toNat % 16))
  { s with
    acts := upd 0 s.acts (cause.toNat % 16) (· + 1)
    firstCause := if first then cause else s.firstCause
    firstAt := if first then now else s.firstAt
    lastAct := some now
    acted := s.acted ++ [cause] }

/-- The function's count, its journal entry and its event. -/
def countAct (fn trigger : Nat) (x : Module) : Module :=
  let cause := BitVec.ofNat 8 (16 * trigger + fn)
  let before := modCode x.mgmt.module
  let x1 := onSill (noteAct cause x.sf) x
  let x2 := incE (Ent.sfActs + fn - 1) x1
  raiseEvent 0xA0FF01 (natLe 1 cause.toNat ++ natLe 1 before) (note 4 6 Ent.lastHaltCause cause.toNat x2)

/-- last_halt_cause and last_halt_time take the cause shown and the time of its act. -/
def showCause (x : Module) : Module :=
  let c := shownCause x.sill
  if c = x.sill.lastCause ∧ x.sill.acted.length ≠ 1 then x
  else
    setE Ent.lastHaltTime x.ts.toNat (setE Ent.lastHaltCause c.toNat (onSill (fun s => { s with lastCause := c }) x))

/-- A function acts through J3: counted, then HALT with the cause shown (R542, R550). -/
def actJ3 (fn trigger : Nat) (x : Module) : Module :=
  let x1 := countAct fn trigger x
  assertHalt (shownCause x1.sill) x1

/-- The safe-stop latch is set (R541). -/
def latchSafe (fn trigger : Nat) (x : Module) : Module :=
  onSill (fun s => { s with
    safeStop := true, safeCause := BitVec.ofNat 8 (16 * trigger + fn)
    latchAt := if s.safeStop then s.latchAt else some x.sf, latched := if s.safeStop then s.latched else some (fn, trigger) }) x

/-- What every act ends with: the cause shown and the state register. -/
def actDone (x : Module) : Module := followSill (showCause x)

/-- SF-1 (R399): channel A (1) or B (2) has confirmed a leak while the main input is connected. -/
def sf1 (b : Bool) (x : Module) : Module :=
  let c := if b then x.sill.leakB else x.sill.leakA
  let trig := if b then 2 else 1
  if !x.sill.on ∨ !c.confirmed ∨ x.sill.leakCut ∨ !inletClosed x then x
  else
    let x1 := countAct 1 trig x
    let x2 := onSill (fun s => { s with
      leakCut := true, leakCause := BitVec.ofNat 8 (16 * trig + 1), trayCut := true, leakOut := true }) x1
    let g := ratF32 (mkRat c.g 10)
    raiseEvent 0x42FF01 (natLe 1 (b2n b) ++ natLe 4 g)
      (actDone (openInlet (assertHalt (shownCause x2.sill) x2)))

/-- SF-2 (R392): Sill's own flow stop has not been restored within 2 s, while a tile domain is on. -/
def sf2 (x : Module) : Module :=
  match x.sill.watch.stop with
  | some (det, t) =>
    if x.sill.on ∧ 2000000000 ≤ sinceSf x t ∧ anyTileOn x.data ∧
        !x.sill.acted.contains (BitVec.ofNat 8 (16 * (det + 1) + 2)) then
      actDone (latchSafe 2 (det + 1) (actJ3 2 (det + 1) x))
    else x
  | none => x

/-- SF-3 (R395): two consecutive conversions of a tile or stack sensor at its limit. -/
def sf3 (stack : Bool) (x : Module) : Module :=
  let n := if stack then x.sill.hotStack else x.sill.hotTile
  let trig := if stack then 2 else 1
  if x.sill.on ∧ 2 ≤ n ∧ !(x.sill.acted.contains (BitVec.ofNat 8 (16 * trig + 3))) then
    actDone (latchSafe 3 trig (actJ3 3 trig x))
  else x

/-- SF-4 (R537): bus current above 700 A for more than 50 µs, or bus voltage above 59.5 V for more than 10 µs. -/
def sf4 (voltage : Bool) (measured us : Nat) (x : Module) : Module :=
  if !x.sill.on then x
  else if voltage then
    if 59500 < measured ∧ 10 < us then
      let x1 := onSill (fun s => { s with busMv := measured }) x
      actDone (lockInlet (actJ3 4 2 x1))
    else x
  else if 700 < measured ∧ 50 < us then
    let x1 := onSill (fun s => { s with busAmps := measured }) x
    actDone (onSill (fun s => { s with sf4At := some x.sf }) (latchSafe 4 1 (actJ3 4 1 x1)))
  else x

/-- 1 ms after an SF-4 overcurrent J3 the bus current is read again (R538). -/
def busRecheck (amps : Nat) (x : Module) : Module :=
  match x.sill.sf4At with
  | some _ =>
    let x1 := onSill (fun s => { s with sf4At := none, busAmps := amps }) x
    if 200 < amps then lockInlet x1 else x1
  | none => x

/-- The input-loss path (R338): counted and journaled, the inlet opened, the module in OFF, the alarm sent. -/
def inputLossPath (cause : Nat) (x : Module) : Module :=
  let x1 := note 0 9 Ent.inputFaults cause (incE Ent.inputFaults x)
  let x2 := editPower (fun p => { p with inletLost := true }) (openInlet x1)
  let x3 := if (forcedState x2).isSome then x2 else toState .off x2
  beginAlarm 4 0 x3

/-- SF-5 (R537, R337): inlet above 920 V for 50 µs or above 120 A for 2 µs. -/
def sf5 (current : Bool) (measured us : Nat) (x : Module) : Module :=
  if !x.sill.on ∨ !inletClosed x then x
  else if current then
    if 120 < measured ∧ 2 ≤ us then
      let x1 := onSill (fun s => { s with inletLock := true, inletA := measured }) (actJ3 5 2 x)
      actDone (inputLossPath 3 x1)
    else x
  else if 920 < measured ∧ 50 ≤ us then
    actDone (inputLossPath 1 (onSill (fun s => { s with inletV := measured }) (actJ3 5 1 x)))
  else x

/-- The trigger of SF-6 whose condition holds (R546). -/
def sf6Trigger (x : Module) : Option Nat :=
  match x.sill.longWindow with
  | some w => if 600006104 ≤ sinceSf x w.since then some 2 else none
  | none =>
    match x.sill.longEnd with
    | some t => if 62500000 ≤ sinceSf x x.sill.lastService ∧ sinceSf x t ≤ 10000000000 then some 1 else none
    | none => none

/-- SF-6. -/
def sf6 (x : Module) : Module :=
  match sf6Trigger x with
  | some t =>
    if x.sill.on ∧ x.sill.sf6At.isNone then
      actDone (onSill (fun s => { s with sf6At := some x.sf, longWindow := none }) (latchSafe 6 t (actJ3 6 t x)))
    else x
  | none => x

/-- 10 s after SF-6 the watchdog is still not serviced (R546). -/
def skourSilent (x : Module) : Module :=
  match x.sill.sf6At with
  | some t => if 10000000000 ≤ sinceSf x t ∧ x.sill.lastService.toNat < t.toNat then lockInlet x else x
  | none => x

/-- SF-7 (R537, R548): INTERLOCK open for more than 1 ms, or PRESENT for more than 20 µs. It sets no latch; it acts even
when Sill has stopped; without power only the loop's state changes. -/
def sf7 (present : Bool) (us : Nat) (x : Module) : Module :=
  if (present ∧ 20 < us ∧ x.sill.present) ∨ (!present ∧ 1000 < us ∧ x.sill.interlock) then
    let trig := if present then 2 else 1
    let x1 := onSill (fun s => if present then { s with present := false } else { s with interlock := false }) x
    let x2 := if present ∨ !x.sill.on then x1 else incE Ent.trayOffRequests x1
    let x3 := if x.sill.stopped ∨ !x.sill.on then x2 else actJ3 7 trig x2
    actDone (openInlet x3)
  else x

/-- What SF-8 finds (R537): both leak channels faulted, no usable flow sensor, no valid hub message for more than 10 ms, or
a fault of Sill's own checks and the part it names (R559). -/
inductive SensingLost where
  | leak | flow | link
  | sill (part : Fin 7)
deriving DecidableEq, Repr

/-- SF-8. -/
def sf8 (k : SensingLost) (x : Module) : Module :=
  if !x.sill.on then x
  else match k with
    | .leak =>
      if x.sill.leakA.faulted ∧ x.sill.leakB.faulted ∧ !x.sill.acted.contains 0x18#8 then
        actDone (latchSafe 8 1 (actJ3 8 1 x)) else x
    | .flow =>
      if anyTileOn x.data ∧ 10 < x.sill.blind ∧ !x.sill.acted.contains 0x28#8 then
        actDone (latchSafe 8 2 (actJ3 8 2 x)) else x
    | .link =>
      let x1 := onSill (fun s => { s with sensing := 0 }) x
      if anyTileOn x.data ∧ !x.sill.acted.contains 0x28#8 then actDone (latchSafe 8 2 (actJ3 8 2 x1)) else x1
    | .sill part =>
      if x.sill.fault then x
      else
        let x1 := onSill (fun s => { s with fault := true, selftest := part.val, inletLock := true }) (actJ3 8 3 x)
        actDone (openInlet (dropTilePower (setE Ent.sillSelftest part.val x1)))

/-- An SF-2 or SF-3 trigger still holds 10 s after the latch (R541). -/
def safeStopInlet (x : Module) : Module :=
  match x.sill.latchAt with
  | some t =>
    let flow := match x.sill.watch.stop with | some (_, u) => decide (2000000000 ≤ sinceSf x u) | none => false
    let holds := flow || decide (2 ≤ x.sill.hotTile) || decide (2 ≤ x.sill.hotStack)
    if x.sill.safeStop ∧ holds ∧ 10000000000 ≤ sinceSf x t ∧ inletClosed x then lockInlet x else x
  | none => x

/-- The external supervisor (R535): Sill has not toggled for 10 ms. -/
def supervisor (x : Module) : Module :=
  let x1 := onSill (fun s => { s with stopped := true }) (assertHalt x.ctrl.haltCause x)
  followSill (openInlet (dropTilePower x1))

/-! ### The watchdog (R439, R545) -/

/-- Skour services the watchdog: a long window ends with the first service; services more than 2.0 ms apart count from 1. -/
def serviceWatchdog (x : Module) : Module :=
  onSill (fun s => { s with
    services := if sinceSf x s.lastService ≤ 2000000 then s.services + 1 else 1
    lastService := x.sf, longWindow := none
    longEnd := match s.longWindow with
      | some w => if w.ordered then some x.sf else s.longEnd
      | none => s.longEnd }) x

/-- Skour stops for a management-only warm start (R455): announced, or ordered by Sill. -/
def stopSkour (ordered : Bool) (x : Module) : Module :=
  onSill (fun s => { s with longWindow := some ⟨ordered, x.sf⟩ })
    (onMgmt (fun m => { m with run := .restart x.ts ordered (snapCount m) }) x)

/-- Skour has serviced the watchdog since SF-6 acted. -/
def servedSince (s : Sill) : Bool := match s.sf6At with | some t => decide (t.toNat < s.lastService.toNat) | none => true

/-- The watchdog has gone 62.5 ms without service (R545): Sill orders a reset of Skour, unless that is SF-6's trigger or SF-6
has acted and no service has come since. -/
def watchdogExpiry (x : Module) : Module :=
  if x.sill.on ∧ x.sill.longWindow.isNone ∧ 62500000 ≤ sinceSf x x.sill.lastService ∧ (sf6Trigger x).isNone ∧
      servedSince x.sill then
    let x1 := incE Ent.watchdogExpiries (onSill (fun s => { s with expiries := s.expiries + 1 }) x)
    stopSkour true (note 4 6 Ent.watchdogExpiries 0 x1)
  else x

/-! ### Leak channels (R398, R555) -/

/-- A channel takes a sample of `g` × 0.1 µS against the threshold. -/
def leakStep (thr : Rat) (g : Nat) (c : LeakChan) : LeakChan :=
  let v : Rat := mkRat g 10
  let high := if thr ≤ v then c.high + 1 else 0
  let low := if g < 50 then c.low + 1 else 0
  let dry := if 50 ≤ g ∧ v < thr / 2 then c.dry + 1 else 0
  ⟨g, high, low, dry, c.faulted && decide (g < 50), c.confirmed || decide (10 ≤ high)⟩

/-- leak_state (R403). -/
def leakStateOf (s : Sill) : Nat :=
  if s.leakA.confirmed ∨ s.leakB.confirmed then 2 else if 0 < s.leakA.high ∨ 0 < s.leakB.high then 1 else 0

/-- LEAK_SAMPLE: conductance, flags and counts follow. -/
def leakSample (b : Bool) (g : Nat) (x : Module) : Module :=
  if !x.sill.on then x
  else
    let c0 := if b then x.sill.leakB else x.sill.leakA
    let c := leakStep (getSnap 10 x Ent.leakThreshold) g c0
    let x1 := onSill (fun s => if b then { s with leakB := c } else { s with leakA := c }) x
    let x2 := setE (if b then Ent.leakGB else Ent.leakGA) (ratF32 (mkRat g 10)) x1
    let x3 := if c.confirmed ∧ !c0.confirmed then
        incE Ent.leakEvents (onMgmt (dsetBits Ent.leakFlags (if b then 8 else 4)) x2) else x2
    setE Ent.leakState (leakStateOf x3.sill) x3

/-- A channel has read below 5 µS for more than 100 samples (R398). -/
def leakFault (b : Bool) (x : Module) : Module :=
  let c := if b then x.sill.leakB else x.sill.leakA
  if !x.sill.on ∨ c.faulted ∨ c.low ≤ 100 then x
  else
    let x1 := onSill (fun s => if b then { s with leakB := { c with faulted := true } }
      else { s with leakA := { c with faulted := true } }) x
    raiseEvent 0x42FF02 (natLe 1 (b2n b)) (onMgmt (dsetBits Ent.leakFlags (if b then 2 else 1)) x1)

/-! ### sill_state, tray_signals and the service UART (R557, R559) -/

/-- sill_state. -/
def sillState (s : Sill) : Nat :=
  let code := if s.leakCut then 3 else if s.fault then 4 else if s.safeStop then 2 else if s.on then 1 else 0
  code + 8 * b2n s.inletLock + 16 * b2n s.longWindow.isSome + 32 * b2n s.haltMissing

/-- tray_signals. -/
def traySignals (s : Sill) : Nat := b2n s.present + 2 * b2n s.interlock + 4 * b2n s.trayCut + 8 * b2n s.leakOut

/-- The hottest raw reading of the usable tile sensors of powered tiles; 0 when there is none. -/
def hottestRaw (x : Module) : Int :=
  let ok (n : Nat) : Bool := tileOn x.data (n / 2) && !dbit x.mgmt Ent.tileSensorFaults n && !dbit x.mgmt Ent.sensorMasks n
  match x.mgmt.cool.tileRaw.filter fun p => ok p.1 with
  | [] => 0
  | p :: r => r.foldl (fun t q => max t q.2) p.2

/-- The status record's first 28 bytes. -/
def statusBody (x : Module) : List Byte :=
  let s := x.sill
  natLe 1 (sillState s) ++ natLe 1 (shownCause s).toNat ++ natLe 1 s.lastCause.toNat ++ natLe 1 s.selftest ++
    natLe 4 s.expiries ++ (List.range 8).flatMap (fun n => natLe 1 (min 255 (look 0 s.acts (n + 1)))) ++
    natLe 2 x.mgmt.cool.flow ++ natLe 2 (i16 (hottestRaw x)) ++ natLe 2 (min 65535 s.leakA.g) ++
    natLe 2 (min 65535 s.leakB.g) ++ natLe 1 (traySignals s) ++ natLe 1 0 ++ natLe 2 s.copy.length

/-- An upper-case hexadecimal digit. -/
def hexDigit (n : Nat) : Byte := BitVec.ofNat 8 (if n < 10 then 48 + n else 55 + n)
/-- One line of an answer: the letter, a space, the bytes in hexadecimal, CR LF. -/
def uartLine (letter : Nat) (bs : List Byte) : List Byte :=
  [BitVec.ofNat 8 letter, 32] ++ bs.flatMap (fun b => [hexDigit (b.toNat / 16), hexDigit (b.toNat % 16)]) ++ [13, 10]

/-- A journal entry's 32 bytes (R463). -/
def entBytes (e : JEnt) : List Byte :=
  natLe 4 e.sequence ++ natLe 8 e.time.toNat ++ natLe 4 e.beat.toNat ++ natLe 1 e.source ++ natLe 1 e.authority ++
    natLe 3 (e.index * 256 + e.sub) ++ natLe 1 e.kind ++ natLe 8 e.value.toNat ++ natLe 2 e.result.toNat

/-- Command S. -/
def uartS (x : Module) : List Byte :=
  let b := statusBody x
  uartLine 83 (b ++ natLe 4 (crc32 b).toNat)
/-- Command J: 64 lines, oldest first, then E alone. -/
def uartJ (s : Sill) : List Byte :=
  let es := s.copy.map entBytes ++ List.replicate (64 - s.copy.length) (List.replicate 32 0)
  es.flatMap (uartLine 74) ++ [69, 13, 10]
/-- Command V: Sill's firmware version, the second of fw_version. -/
def uartV (x : Module) : List Byte := uartLine 86 (natLe 4 (getE x (Ent.fwVersion + 1)))

/-- Sill answers on the UART. -/
def answerUart (f : Module → List Byte) (x : Module) : Module :=
  if x.sill.on ∧ !x.sill.stopped then
    let bs := f x
    onSill (fun s => { s with uart := bs }) x
  else x

end Sys2Proof.Machine
end

