-- ==== Sys2Proof/Machine/PowerPolicy.lean ====
section
/-!
DEFINITION. Skour's power policy (chapter 11): the four caps, the power profile, the predicted power, the choice of the clock
step, the envelope guarantee and the forecast. Powers are rationals in W; metered frame powers are in mW.
-/

namespace Sys2Proof.Machine

/-! ### The caps (R343, R356, R357) -/

/-- Minute index of a TSCLK time. -/
def minuteOf (ts : W64) : Nat := ts.toNat / 60000000000

/-- The rack cap of a minute: before the envelope entry 0 applies, after it entry 59; above 30,000 W acts as 30,000 W. -/
def rackCapAt (env minute : Nat) : Nat :=
  let start := env % 2 ^ 32
  let i := min 59 (minute - start)
  min 30000 (bits (32 + 16 * i + 15) (32 + 16 * i) env)

/-- The rack cap in force. -/
def rackCap (x : Module) : Nat := rackCapAt (getE x Ent.envelope) (minuteOf x.ts)

/-- The safety cap for `n` blocks in service (R343). -/
def safetyCap (n : Nat) : Nat := min 30000 (10000 * n)

/-- The least of three caps without the thermal one, which the flow margin needs (R387). -/
def coldCap (x : Module) : Rat := min (min (rackCap x : Rat) x.mgmt.power.hostCap) (safetyCap (blocksIn x.mgmt) : Rat)

/-- The effective cap (R356). -/
def effectiveCap (x : Module) : Rat := min (coldCap x) x.mgmt.cool.flowTerm

/-- The cap that a scheduled lowering starting within 1.2 s brings (R364, R367). -/
def scheduledCap (x : Module) : Option Nat :=
  let env := getE x Ent.envelope
  let next := minuteOf x.ts + 1
  let at_ := next * 60000000000
  if rackCapAt env next < rackCapAt env (minuteOf x.ts) ∧ at_ - x.ts.toNat ≤ 1200000000 ∧
      x.mgmt.power.envelopeAt.toNat + 2000000000 ≤ at_ then some (rackCapAt env next) else none

/-- A lowering of the rack cap starts within `ns` (R453). -/
def loweringWithin (ns : Nat) (x : Module) : Bool :=
  let env := getE x Ent.envelope
  let next := minuteOf x.ts + 1
  decide (rackCapAt env next < rackCapAt env (minuteOf x.ts)) && decide (next * 60000000000 - x.ts.toNat ≤ ns)

/-! ### The profile (R360–R362) -/

/-- One phase entry. -/
def phaseOf (b : List Byte) : Phase :=
  ⟨leNat (b.take 4), leNat ((b.drop 4).take 2), leNat ((b.drop 6).take 2), leNat ((b.drop 8).take 2),
    leNat ((b.drop 10).take 2)⟩

/-- The profile of a section's bytes; none when malformed (R362). -/
def readProfile (b : List Byte) : Option Profile :=
  let n := leNat ((b.drop 6).take 2)
  let ps := (List.range n).map fun i => phaseOf ((b.drop (32 + 16 * i)).take 16)
  let loop := leNat ((b.drop 8).take 2)
  let fine := ps.all fun p => decide (0 < p.beats) && decide (p.act ≤ 6144) && decide (p.peakAct ≤ 6144) &&
    decide (p.stackAct ≤ 4096) && decide (p.stackPeak ≤ 4096)
  if leNat (b.take 4) = 0x4B505246 ∧ leNat ((b.drop 4).take 2) = 1 ∧ 1 ≤ n ∧ n ≤ 4094 ∧ loop < n ∧
      b.length = 32 + 16 * n ∧ fine then some ⟨loop, ps⟩ else none

/-- The phase used for every beat without a valid profile (R362). -/
def fullPhase : Phase := ⟨1, 6144, 6144, 4096, 4096⟩

/-- The phase after phase `i`. -/
def Profile.after (p : Profile) (i : Nat) : Nat := if i + 1 < p.phases.length then i + 1 else p.loopFrom

def Profile.phase (p : Profile) (i : Nat) : Phase := p.phases.getD i fullPhase

/-- The phase that holds beat `b`, counted from phase `i` on, and the beats left in it. -/
def Profile.seek (p : Profile) : Nat → Nat → Nat → Nat × Nat
  | 0, i, _ => (i, 1)
  | fuel + 1, i, b =>
    let n := (p.phase i).beats
    if b < n then (i, n - b) else p.seek fuel (p.after i) (b - n)

/-- The beats of the phases before the loop, and of the loop. -/
def Profile.lead (p : Profile) : Nat := (p.phases.take p.loopFrom).foldl (fun n x => n + x.beats) 0
def Profile.round (p : Profile) : Nat := (p.phases.drop p.loopFrom).foldl (fun n x => n + x.beats) 0

/-- The phase in force at a beat counter value, and the beats left in it. -/
def Profile.at_ (p : Profile) (b : Nat) : Nat × Nat :=
  let n := p.phases.length
  if b < p.lead then p.seek (n + 1) 0 b else p.seek (n + 1) p.loopFrom ((b - p.lead) % max 1 p.round)

/-- The phases met in `n` beats from phase `i` with `left` beats left in it, each with its share of beats; one whole round
of the loop beyond the end is enough for a greatest value, and every round is listed for a mean. -/
def Profile.span (p : Profile) : Nat → Nat → Nat → Nat → List (Phase × Nat)
  | 0, _, _, _ => []
  | fuel + 1, i, left, n =>
    if n = 0 then []
    else
      let k := min left n
      let j := p.after i
      (p.phase i, k) :: p.span fuel j (p.phase j).beats (n - k)

/-- Executed beats per second at a step, unstretched (R143): TCLK ÷ 2,000. -/
def beatsPerSecond (s : Nat) : Nat := 1000000 - 50000 * s

/-- Peak activity and stack activity over `n` beats from beat counter `b`, in 1/4,096. -/
def peakOver (p : Option Profile) (b n : Nat) : Nat × Nat :=
  match p with
  | none => (6144, 4096)
  | some p =>
    let (i, left) := p.at_ b
    (p.span (2 * p.phases.length + 1) i left n).foldl (fun a x => (max a.1 x.1.peakAct, max a.2 x.1.stackPeak)) (0, 0)

/-- Peak activities over the next 2 s at a step (R364). -/
def peakNext (x : Module) (s : Nat) : Nat × Nat :=
  peakOver x.mgmt.power.profile (snapCount x.mgmt) (2 * beatsPerSecond s)

/-! ### The prediction (R363) -/

/-- `T(s, a)`: a tile's draw. -/
def tileDraw (s : Nat) (a : Rat) : Rat :=
  let v : Rat := mkRat (stepMv s) 850
  17 * a * mkRat (20 - s : Nat) 20 * v * v + 3 * v * v

/-- Tiles carrying a logical tile, scarf engines and host engines powered. -/
def carryCount (x : Module) : Nat := (x.mgmt.joints.placement.tileMap.filter fun t => t ≠ 0xFFFF).length
def scarfsOn (x : Module) : Nat := (x.data.engines.filter fun p => p.2.on).length
def hostsOn (x : Module) : Nat := (x.data.hosts.filter fun p => p.2.on).length

/-- `P(s, a, σ)` for `n` tiles, with activities in 1/4,096. -/
def predictFor (n : Nat) (x : Module) (s act stack : Nat) : Rat :=
  let d := n * tileDraw s (mkRat act 4096) + 64 * (8 + 24 * mkRat stack 4096) + 28 * scarfsOn x +
    29 * hostsOn x + mkRat x.mgmt.power.service 1000
  x.mgmt.power.k * (500 + mkRat 107 100 * d)

/-- `P(s, a, σ)`: N is the number of tiles that carry a logical tile. -/
def predict (x : Module) (s act stack : Nat) : Rat := predictFor (carryCount x) x s act stack

/-- The prediction at step `s` from the profile's peaks over the next 2 s at the step in force. -/
def predictPeak (x : Module) (s : Nat) : Rat :=
  let p := peakNext x (stepNow x.mgmt)
  predict x s p.1 p.2

/-! ### The clock step (R364, R365, R372) -/

/-- The first step from `s` on whose prediction `p` fits 0.97 × cap, or 12. -/
def firstFit (p : Nat → Rat) (cap : Rat) : Nat → Nat → Nat
  | 0, _ => 12
  | fuel + 1, s => if 12 ≤ s then 12 else if p s ≤ mkRat 97 100 * cap then s else firstFit p cap fuel (s + 1)

/-- The first step from `s` on whose peak prediction fits. -/
def fitStep (x : Module) (cap : Rat) (fuel s : Nat) : Nat := firstFit (predictPeak x) cap fuel s

/-- phase_step as stored; a field unusable for tiles is no constraint of its own. -/
def phaseStepOf (x : Module) : Nat := getE x Ent.phaseStep

/-- R364's procedure. -/
def chooseStep (x : Module) : Nat :=
  let cap := match scheduledCap x with | some c => min (effectiveCap x) (c : Rat) | none => effectiveCap x
  let p := x.mgmt.power
  let s := fitStep x cap 13 (max x.mgmt.joints.minStep (phaseStepOf x))
  let recent : Bool := match p.sinceSlow with | some n => decide (n < 1000) | none => false
  if s < p.capStep ∧ (mkRat 92 100 * cap < predictPeak x s ∨ recent) then p.capStep else s

/-- The step R364 gives for a = σ = 1 under the effective cap (R448); the tiles under test count as N (DESIGN CHOICE, log 89:
no logical tile is placed yet). -/
def testStep (x : Module) : Nat :=
  let on := (x.data.tiles.filter fun p => !(p.2.tstate == .off)).length
  firstFit (fun s => predictFor on x s 4096 4096) (effectiveCap x) 13 (max x.mgmt.joints.minStep (phaseStepOf x))

/-- The cap that is least, in the order rack, host, thermal, safety (R372). -/
def leastCap (x : Module) : Nat :=
  let c := effectiveCap x
  if (rackCap x : Rat) = c then 1 else if x.mgmt.power.hostCap = c then 2 else if x.mgmt.cool.flowTerm = c then 3 else 4

/-- cap_reason at a change of step_req (R372). -/
def reasonOf (x : Module) (s : Nat) : Nat :=
  if s = x.mgmt.joints.minStep then 6 else if s = phaseStepOf x then 5
  else if s = x.mgmt.cool.thermalStep then 7 else leastCap x

/-- step_req is written, with cap_reason when it changes. -/
def requestStep (x : Module) : Module :=
  let x1 := writeStep x
  let s := x1.mgmt.joints.stepReq
  if s = x.mgmt.joints.stepReq then x1 else setE Ent.capReason (reasonOf x1 s) x1

/-- A cap step is taken (R364). -/
def takeCapStep (s : Nat) (x : Module) : Module :=
  requestStep (setE Ent.capStep s (editPower (fun p => { p with capStep := s }) x))

/-- The frame exceeded the effective cap (R365): one step slower, or throttle at step 12, where R364 goes on. -/
def fastLoop (x : Module) : Module :=
  if stepNow x.mgmt < 12 then
    takeCapStep (stepNow x.mgmt + 1) (editPower (fun p => { p with sinceSlow := some 0 }) x)
  else
    let y := takeCapStep (chooseStep x) x
    if y.mgmt.power.throttles.capUnmet then y
    else
      raiseEvent 0x31FF01 (natLe 4 (ratF32 (effectiveCap y)) ++ natLe 4 (getE y Ent.power1s))
        (setThrottle (fun t => { t with capUnmet := true }) y)

/-- The cap-unmet throttle clears once the effective cap exceeds `P(12, 1, 1)` by 10 % (R365). -/
def clearCapUnmet (x : Module) : Module :=
  if x.mgmt.power.throttles.capUnmet ∧ mkRat 110 100 * predict x 12 4096 4096 < effectiveCap x then
    setThrottle (fun t => { t with capUnmet := false }) x
  else x

/-- The reaction to the number of blocks in service (R343). -/
def blockThrottle (x : Module) : Module :=
  let low := decide (blocksIn x.mgmt ≤ 1) && inletClosed x && decide (2 ≤ getE x Ent.inletState)
  let started := x.mgmt.service.testBit 6
  if x.mgmt.power.throttles.blocks then
    (if 2 ≤ blocksIn x.mgmt then setThrottle (fun t => { t with blocks := false }) x else x)
  else if low && started then setThrottle (fun t => { t with blocks := true }) x else x

/-! ### The meter (R351) and the guarantee (R366–R369) -/

/-- The mean of the last 1,000 frame powers, in W. -/
def meanPower (fs : List Nat) : Rat := if fs.isEmpty then 0 else mkRat (((fs.foldl (· + ·) 0 : Nat) : Int)) (1000 * fs.length)

/-- A frame's power enters the meter: energy in mJ, power_1s, the minute's mean at its end. -/
def meterFrame (mw : Nat) (newMinute : Bool) (x : Module) : Module :=
  let p := x.mgmt.power
  let part := p.energyPart + mw
  let frames := (mw :: p.frames).take 1000
  let x1 := editPower (fun p => { p with
    frames := frames, energyPart := part % 1000
    minuteSum := if newMinute then 0 else p.minuteSum + mw
    minuteFrames := if newMinute then 0 else p.minuteFrames + 1 }) x
  let x2 := if newMinute then
      setE Ent.power1min (ratF32 (mkRat (p.minuteSum + mw) (1000 * (p.minuteFrames + 1)))) x1 else x1
  setE Ent.power1s (ratF32 (meanPower frames))
    (onMgmt (fun m => { m with dict := put 0 m.dict Ent.energy ((dget m Ent.energy + part / 1000) % 2 ^ 64) }) x2)

/-- The bound a frame must keep: the present cap, or a cap in force before a lowering of fewer than 20 frames (R368). -/
def frameBound (cap : Rat) (ls : List (Nat × Rat)) : Rat :=
  ls.foldl (fun b l => if l.1 ≤ 20 then max b l.2 else b) cap
/-- The bound power_1s must keep. -/
def secondBound (cap : Rat) (ls : List (Nat × Rat)) : Rat :=
  ls.foldl (fun b l => if l.1 < 1000 then max b l.2 else b) cap

/-- A lowering of the effective cap that no scheduled envelope made is noted with the cap before it (R367, R368). -/
def noteLowering (x : Module) : Module :=
  let p := x.mgmt.power
  let cap := effectiveCap x
  let aged := (p.lowered.map fun l => (l.1 + 1, l.2)).filter fun l => decide (l.1 < 1000)
  let minuteStart := minuteOf x.ts * 60000000000
  let scheduled := decide (cap = (rackCap x : Rat)) && decide (p.envelopeAt.toNat + 2000000000 ≤ minuteStart) &&
    decide (x.ts.toNat - minuteStart < 1000000)
  let ls := if cap < p.lastCap ∧ !scheduled then (0, p.lastCap) :: aged else aged
  editPower (fun p => { p with lowered := ls, lastCap := cap }) x

/-- The bounds are judged for a frame (R366, R369). -/
def judgeFrame (mw : Nat) (x : Module) : Module :=
  let p := x.mgmt.power
  let cap := effectiveCap x
  let w : Rat := mkRat mw 1000
  let ratio : Rat := if cap = 0 then 0 else w / cap
  let overCap := cap < w
  let exc := if overCap then p.excursion + 1 else 0
  let x1 := if overCap then incE Ent.framesOverCap x else x
  let x2 := if getE x1 Ent.longestExcursion < exc then setE Ent.longestExcursion (min exc 65535) x1 else x1
  let x3 := if getF x2 Ent.peakRatio < ratio then setE Ent.peakRatio (ratF32 ratio) x2 else x2
  let judged : Rat := if cap < 11000 then min (rackCap x : Rat) p.hostCap else cap
  let fb := frameBound judged p.lowered
  let above := if fb < w then p.overBound + 1 else 0
  let x4 := editPower (fun p => { p with
    excursion := exc
    overBound := above }) x3
  let broken := inletClosed x && (decide (mkRat 105 100 * fb < w) || decide (10 < above) ||
    decide (secondBound judged p.lowered < meanPower p.frames))
  match p.breach with
  | none =>
    if broken then incE Ent.guaranteeBreaks (editPower (fun p => { p with breach := some ⟨ratio, 1⟩ }) x4) else x4
  | some b =>
    if broken then editPower (fun p => { p with breach := some ⟨max b.peak ratio, b.frames + 1⟩ }) x4
    else
      raiseEvent 0x31FF02 (natLe 4 (ratF32 cap) ++ natLe 4 (ratF32 b.peak) ++ natLe 4 b.frames)
        (editPower (fun p => { p with breach := none }) x4)

/-- Metered ÷ predicted power of a RUNNING frame (R363). -/
def frameRatio (mw : Nat) (x : Module) : Option Rat :=
  if x.mgmt.module ≠ .running then none
  else
    let p := x.mgmt.power
    let ph := match p.profile with
      | some q => q.phase (q.at_ (snapCount x.mgmt)).1
      | none => fullPhase
    let base := predict x (stepNow x.mgmt) ph.act ph.stackAct / p.k
    some (if base = 0 then 1 else mkRat mw 1000 / base)

/-- k over the RUNNING frames of the last 10 s, clamped to 1.00 to 1.50 (R363). With no such frame it stays as it is (DESIGN
CHOICE, log 89). -/
def updateK (mw : Nat) (x : Module) : Module :=
  let rs := (frameRatio mw x :: x.mgmt.power.ratios).take 10000
  let ran := rs.filterMap id
  let mean : Rat := ran.foldl (fun a b => a + b) (0 : Rat) / (ran.length : Rat)
  editPower (fun p => { p with
    ratios := rs
    k := if ran.isEmpty then p.k else max 1 (min (mkRat 3 2) mean) }) x

/-- The beat generator marks boundaries, so that a step is in force (R141, R144): the data plane runs and has handed over a
snapshot. -/
def beatsMarked (m : Mgmt) : Bool := m.module.runs && m.joints.snapFrame.isSome

/-- The whole power policy of a frame boundary (R364). The fast loop of R365 acts on the step in force, and so while boundaries
are marked (DEDUCED, log 51). -/
def powerFrame (mw : Nat) (x : Module) : Module :=
  let x1 := judgeFrame mw (noteLowering x)
  let x2 := editPower (fun p => { p with sinceSlow := p.sinceSlow.map (· + 1) }) (updateK mw x1)
  let x3 := clearCapUnmet (blockThrottle x2)
  if beatsMarked x3.mgmt ∧ effectiveCap x3 < mkRat mw 1000 then fastLoop x3 else takeCapStep (chooseStep x3) x3

/-! ### The forecast (R370, R371) -/

/-- Beats of the profile listed from a beat counter over `n` beats: their mean activities. -/
def meanOver (p : Option Profile) (b n : Nat) : Rat × Rat :=
  match p with
  | none => (6144, 4096)
  | some p =>
    let (i, left) := p.at_ b
    let rounds := n / max 1 p.round
    let part := n - rounds * p.round
    let ps := p.span (2 * p.phases.length + 1) i left part
    let whole := (p.phases.drop p.loopFrom).map fun x => (x, x.beats * rounds)
    let all_ := ps ++ (if b < p.lead then p.span (2 * p.phases.length + 1) i left n else whole)
    let tot := all_.foldl (fun t x => t + x.2) 0
    if tot = 0 then (0, 0)
    else (mkRat (all_.foldl (fun t x => t + x.1.act * x.2) 0) tot,
      mkRat (all_.foldl (fun t x => t + x.1.stackAct * x.2) 0) tot)

/-- A prediction as a whole number of W in 16 bits. -/
def watts (q : Rat) : Nat := min 65535 q.floor.toNat

/-- The step R364 would choose against a minute's rack cap with the other caps as they stand. -/
def forecastStep (x : Module) (rack : Nat) : Nat :=
  let cap := min (min (rack : Rat) x.mgmt.power.hostCap) (min (safetyCap (blocksIn x.mgmt) : Rat) x.mgmt.cool.flowTerm)
  max (fitStep x cap 13 (max x.mgmt.joints.minStep (phaseStepOf x))) x.mgmt.cool.thermalStep

/-- The module state a minute is forecast in: a pending power order takes effect when it acts (R371). -/
def forecastState (x : Module) (minute : Nat) : ModState :=
  match x.mgmt.orderAt with
  | some t =>
    if t.toNat + getE x Ent.orderDelay * 1000000000 ≤ minute * 60000000000 then
      (match getE x Ent.powerOrder with
        | 0 => .off | 1 => .standby | _ => if x.mgmt.module = .standby then .ready else x.mgmt.module)
    else x.mgmt.module
  | none => x.mgmt.module

/-- Returns of the profile to its loop phase in the beats before beat counter `b` (R360). -/
def Profile.loops (p : Profile) (b : Nat) : Nat := (b - p.lead) / max 1 p.round

/-- One minute's entry, `i` minutes from now. -/
def forecastEntry (x : Module) (i : Nat) : List Byte :=
  let minute := minuteOf x.ts + i
  let rack := rackCapAt (getE x Ent.envelope) minute
  let s := forecastStep x rack
  let n := 60 * beatsPerSecond s
  let b := snapCount x.mgmt + i * n
  let st := forecastState x minute
  let runs := decide (st = .running)
  let p := x.mgmt.power.profile
  let looped : Bool := match p with | some q => decide (q.loops b < q.loops (b + n)) | none => false
  let byRack := decide (forecastStep x 30000 < s)
  let idle := predict x (stepNow x.mgmt) 0 0
  let standby : Rat := 500 + mkRat x.mgmt.power.service 1000
  let (avg, peak) : Rat × Rat :=
    if runs then
      let m := meanOver p b n
      let k := peakOver p b n
      (predict x s m.1.floor.toNat m.2.floor.toNat, predict x s k.1 k.2)
    else match st with
      | .off => (getF x Ent.auxPower, getF x Ent.auxPower)
      | .leakCut => (getF x Ent.auxPower, getF x Ent.auxPower)
      | .standby => (standby, standby)
      | _ => (idle, idle)
  natLe 2 (watts avg) ++ natLe 2 (watts peak) ++ natLe 1 (if runs then s else stepNow x.mgmt) ++
    natLe 1 (b2n runs + 2 * b2n (runs && byRack) + 4 * b2n (runs && looped) + 8 * b2n (getE x Ent.profileState == 2)) ++ natLe 2 0

/-- The forecast's 484 bytes are computed anew. -/
def recomputeForecast (x : Module) : Module :=
  let bs := natLe 4 (minuteOf x.ts) ++ (List.range 60).flatMap (forecastEntry x)
  editPower (fun p => { p with forecastDue := false }) (setE Ent.forecast (leNat bs) x)

end Sys2Proof.Machine
end

