-- ==== Sys2Proof/Machine/PowerPath.lean ====
section
/-!
DEFINITION. The power path (chapter 11): the inlet, the converter blocks, the bus, the regulator phases, the power domains and
the power-state orders.
-/

namespace Sys2Proof.Machine

/-! ### The inlet (R335–R338) -/

/-- A start step begins, with its journal entry (R447, R463). -/
def beginStep (cold : Bool) (step : Nat) (began : W64) (x : Module) : Module :=
  note 0 7 Ent.startStep step (onMgmt (fun m => { m with
    start := some ⟨cold, step, x.ts, began, match m.start with | some j => j.primed | none => false⟩ }) x)

/-- The module in OFF may close its inlet on a standing power order of 1 or 2: cold start step 4 begins (R445, R447). -/
def beginInlet (x : Module) : Module :=
  if x.mgmt.module = .off ∧ 1 ≤ getE x Ent.powerOrder ∧ x.mgmt.orderAt.isNone ∧ (forcedState x).isNone ∧
      !x.mgmt.power.inletLost ∧ x.mgmt.start.isNone then
    beginStep true 4 x.ts x
  else x

/-- Step 4 is in progress. -/
def closing (x : Module) : Bool := match x.mgmt.start with | some j => j.step == 4 | none => false

/-- The SSD is fully on: HALT is released where no latch holds it, and step 5 begins in STANDBY (R335, R447, R554). -/
def inletOn (x : Module) : Module :=
  let x1 := onSill (fun s => { s with ssd := .closed, contactor := true, halt := false, halted := false, tilePwrEn := true }) x
  beginStep true 5 x.ts (toState .standby (setE Ent.inletState 2 x1))

/-- INLET_CLOSE (R335): `behind` V behind the contactor; the inlet reading and the converter inputs after precharge, in V.
A contactor that holds 50 V or more back fails step 4 in OFF (R449).
Sill does not close a locked or interrupted inlet (R548). -/
def inletClose (behind inlet reached : Nat) (x : Module) : Module :=
  if !closing x ∨ !x.sill.on ∨ (forcedState x).isSome ∨ x.sill.ssd ≠ .opened ∨ inlet < 680 ∨ 880 < inlet then x
  else if 50 ≤ behind then
    setE Ent.startFault (4 * 256 + 1) (onMgmt (fun m => dsetBits Ent.inletFlags 2 { m with start := none }) x)
  else
    let x1 := onSill (fun s => { s with inletV := inlet }) x
    if inlet ≤ reached + 20 ∧ reached ≤ inlet + 20 then inletOn x1
    else setE Ent.inletState 1 (onSill (fun s => { s with contactor := true, ssd := .precharging }) x1)

/-- Precharge has not completed within 500 ms: step 4 fails in OFF (R335, R449). -/
def prechargeTimeout (x : Module) : Module :=
  if x.sill.ssd ≠ .precharging then x
  else
    let x1 := onMgmt (dsetBits Ent.inletFlags 4) (openInlet x)
    setE Ent.startFault (4 * 256 + 2) (onMgmt (fun m => { m with start := none }) x1)

/-- INLET_OPEN (R336): Skour asks Sill to open the inlet; the module is in OFF. -/
def inletOpen (x : Module) : Module :=
  if x.sill.ssd = .opened then x
  else
    let x1 := openInlet x
    if (forcedState x1).isSome then followSill x1 else toState .off x1

/-- The inlet has stood in its warning band for more than 100 frames (R337). -/
def inputOutOfRange (x : Module) : Module :=
  if x.mgmt.power.warnFrames ≤ 100 ∨ dbit x.mgmt Ent.inletFlags 0 then x
  else raiseEvent 0x30FF01 (natLe 4 (getE x Ent.inputVoltage)) (onMgmt (dsetBits Ent.inletFlags 1) x)

/-- What INPUT_LOSS measures at the inlet (R337): volts above or below for a time in µs, or amperes. -/
inductive InletMeas where
  | volts (v us : Nat)
  | amps (a us : Nat)
deriving DecidableEq, Repr

/-- INPUT_LOSS (R337, R338): V above 920 V in 50 µs, V below 640 V for more than 2 ms, I above 120 A in 2 µs. -/
def inputLoss (k : InletMeas) (x : Module) : Module :=
  if !inletClosed x then x
  else match k with
    | .volts v us =>
      if 920 < v ∧ 50 ≤ us then inputLossPath 1 x
      else if v < 640 ∧ 2000 < us then inputLossPath 2 x else x
    | .amps a us => if 120 < a ∧ 2 ≤ us then inputLossPath 3 x else x

/-- The inlet has stayed within 680 V to 880 V for 10 s (R338): Skour acts on power_order. -/
def inletRecovered (x : Module) : Module :=
  if x.mgmt.power.inletLost ∧ skourUp x then
    beginInlet (endAlarm 4 (editPower (fun p => { p with inletLost := false }) x))
  else x

/-! ### Converter blocks and the bus (R341–R343) -/

/-- Throttle and forecast follow a change of the blocks in service; without any block the bus falls (R343, R374). -/
def blocksChanged (x : Module) : Module :=
  let x1 := editPower (fun p => { p with forecastDue := true }) x
  if blocksIn x1.mgmt = 0 then dataOff (groupOneOff (setE Ent.busVoltage 0 x1)) else blockThrottle x1

/-- Block `n` faults (R341): isolated; retired at its third fault within 24 hours. -/
def converterFault (n : Nat) (x : Module) : Module :=
  if getE x (Ent.convState + n) ≠ 1 then x
  else
    let recent := (look [] x.mgmt.power.convFaults n).filter fun t => decide (sinceT x t < 86400000000000)
    let times := x.ts :: recent
    let retire := decide (3 ≤ times.length)
    let x1 := editPower (fun p => { p with
      convFaults := put [] p.convFaults n times
      convRestart := if retire then drop p.convRestart n else insertKey p.convRestart n x.ts }) x
    let x2 := setE (Ent.convState + n) (if retire then 3 else 2) x1
    blocksChanged (onlyIf retire (note 0 9 (Ent.convState + n) n) x2)

/-- Skour restarts an isolated block 10 s after its fault (R341). -/
def converterRestart (n : Nat) (x : Module) : Module :=
  if getE x (Ent.convState + n) = 2 ∧ inletClosed x ∧ skourUp x ∧
      10000000000 ≤ sinceT x (look 0 x.mgmt.power.convRestart n) then
    let x1 := editPower (fun p => { p with convRestart := drop p.convRestart n }) x
    blocksChanged (setE (Ent.convState + n) 1 x1)
  else x

/-- The bus has stayed below 48.0 V for more than 100 µs (R342). -/
def busUndervoltage (mv us : Nat) (x : Module) : Module :=
  if !inletClosed x ∨ !skourUp x ∨ 48000 ≤ mv ∨ us ≤ 100 then x
  else
    let v := ratF32 (mkRat mv 1000)
    raiseEvent 0x30FF02 (natLe 4 v) (setThrottle (fun t => { t with busUv := true })
      (setE Ent.busVoltage v (editPower (fun p => { p with busOkFrames := 0 }) x)))

/-- The bus has been within 51.0 V to 57.0 V for 1,000 frames (R342). -/
def busUndervoltageClear (x : Module) : Module :=
  if x.mgmt.power.throttles.busUv ∧ 1000 ≤ x.mgmt.power.busOkFrames ∧ skourUp x then
    setThrottle (fun t => { t with busUv := false }) x
  else x

/-! ### Regulator phases (R344–R346) -/

/-- The fastest step a field with `n` working phases allows; none when it is unusable (R345). -/
def stepForPhases (n : Nat) : Option Nat :=
  if 11 ≤ n then some 0
  else match n with
    | 10 => some 1 | 9 => some 3 | 8 => some 4 | 7 => some 6 | 6 => some 8 | 5 => some 10 | 4 => some 12 | _ => none

/-- Working phases of field `f`, up to 16. -/
def phasesOf (m : Mgmt) (f : Nat) : Nat := bits (8 * f + 7) (8 * f) (dget m Ent.phasesWorking)

/-- The slowest of the usable fields' steps. -/
def slowestPhaseStep (m : Mgmt) : Nat :=
  (List.range 64).foldl (fun s f => max s ((stepForPhases (phasesOf m f)).getD 0)) 0

/-- phases_working and phase_step follow the disabled phases. -/
def syncPhases (m : Mgmt) : Mgmt :=
  let v := leNat ((List.range 64).map fun f => BitVec.ofNat 8 (min 16 (18 - (look [] m.power.phasesOut f).length)))
  let m1 := dset Ent.phasesWorking v m
  dset Ent.phaseStep (slowestPhaseStep m1) m1

/-- The 20 physical tiles of a field. -/
def fieldTiles (f : Nat) : List Nat := (List.range 1280).filter fun ix => tileField ix == f

/-- A tile domain is disabled (R347). -/
def tileOff (ix : Nat) (x : Module) : Module :=
  onData (fun d => followPresent (envOf x) (tileField ix) (setTile (envOf x) ix Tile.off d)) x

/-- A field with 3 or fewer working phases is lost: its tiles' repair map bits are set and their domains stay off (R346). -/
def loseField (f : Nat) (x : Module) : Module :=
  (fieldTiles f).foldl (fun y ix => tileOff ix (markTile ix true y)) x

/-- Phase `p` of field `f` is disabled (R344). -/
def phaseDisable (f p : Nat) (x : Module) : Module :=
  let out := look [] x.mgmt.power.phasesOut f
  if out.contains p then x
  else
    let x1 := onMgmt syncPhases (editPower (fun w => { w with phasesOut := put [] w.phasesOut f (p :: out), forecastDue := true }) x)
    if phasesOf x1.mgmt f ≤ 3 then loseField f x1 else x1

/-! ### Power domains (R347–R350) -/

/-- A domain by its number (R347). -/
inductive DomainOf where
  | tile (ix : Nat) | stack (f : Nat) | scarf (i : Nat) | host (i : Nat) | service (n : Nat)
deriving DecidableEq, Repr

def domainOf (d : Nat) : DomainOf :=
  if d < 1280 then .tile d else if d < 1344 then .stack (d - 1280) else if d < 1392 then .scarf (d - 1344)
  else if d < 1396 then .host (d - 1392) else .service (d - 1396)

/-- A warm start's stack begins with its stored trims when they are valid and none of its channels is marked (R451). -/
def stackWarm (warm : Bool) (x : Module) (f : Nat) : Bool :=
  warm && look false x.mgmt.stackTrims f && (fieldOf x.data f).retrain.isEmpty

/-- Tiles that stand at row-shift index `j` of their segment under the repair map (R267, R448). -/
def shiftTile (m : Mgmt) (pr fc j : Nat) : Option Nat := (goodCols (repairMap m) pr fc)[j]?.map fun pc => 40 * pr + pc

/-- The tile domains a start switches on: indices 0 to 3 of every segment. -/
def startTiles (m : Mgmt) : List Nat :=
  (List.range 256).flatMap fun s => (List.range 4).filterMap fun j => shiftTile m (s / 8) (s % 8) j

/-- A physical tile's domain may be on (R29): while an image is loaded, a tile its maps use; else one of row-shift index 0 to
3. A spare not in service, a retired tile and a tile that a narrower image leaves out stay off. -/
def tileInService (x : Module) (ix : Nat) : Bool :=
  if x.data.place.image.isSome then x.data.mesh.tileMap.any fun p => p.2 == some ix
  else ((goodCols (repairMap x.mgmt) (ix / 40) (ix % 40 / 5)).take 4).contains (ix % 40)

/-- The supply of service domain `n` is present (R30): the bus for actuator drive and security, either input for the others. -/
def serviceFed (n : Nat) (x : Module) : Bool := if 6 ≤ n then decide (0 < blocksIn x.mgmt) else x.mgmt.service != 0

/-- Groups of R348 that are on: a domain that its own failure keeps off holds no later group back. -/
def groupsOn (x : Module) : Nat :=
  if x.mgmt.service &&& 0xC0 ≠ 0xC0 then 0
  else if !(List.range 64).all (fun f => (fieldOf x.data f).on || (fieldOf x.data f).train == .fail) then 1
  else if !(List.range 48).all (fun i =>
      (engineOf x.data i).on || (engineOf x.data i).state == .fail || keptOff x.data i) then 2
  else 3

/-- The groups that must be on before domain `d` is switched on (R348). -/
def groupsBefore (d : Nat) : Nat :=
  match domainOf d with
  | .service _ => 0 | .stack _ => 1 | .scarf _ => 2 | .host _ => 2 | .tile _ => 3

/-- A domain is enabled and reaches its rail: what it carries starts from its power-up reset. A tile that is not in service
or is marked in the repair map stays off (R29), and no tile domain comes up while TILE_PWR_EN is low. -/
def domainOn (warm : Bool) (d : Nat) (x : Module) : Module :=
  let e := envOf x
  match domainOf d with
  | .tile ix =>
    if !x.data.on ∨ tileOn x.data ix ∨ !x.data.tilePwrEn ∨ (getE x Ent.repairMap).testBit ix ∨ !tileInService x ix then x
    else onData (fun y => setTile e ix powerUpReset y) x
  | .stack f =>
    if !x.data.on ∨ (fieldOf x.data f).on then x
    else
      onData (fun y => followPresent e f (editField e f (stackOn (stackWarm warm x f)) y)) x
  | .scarf i =>
    if !x.data.on ∨ (engineOf x.data i).on then x
    else onData (fun y => followPresent e (tileField (attachTile i)) (engineOn (warm && look false x.mgmt.opticalTrims i) i y)) x
  | .host i =>
    if !x.data.on ∨ (hostOf x.data i).on then x
    else onData (editHost i fun g => { g with on := true, pfc := getE x Ent.hostPfcPriority }) x
  | .service n =>
    if !serviceFed n x then x
    else
      let x1 := onMgmt (fun m => { m with service := m.service ||| 2 ^ n }) x
      if n = 7 then onCtrl (fun c => if c.on then c else ctrlPowerUp c) x1 else x1

/-- A domain is disabled. -/
def domainOff (d : Nat) (x : Module) : Module :=
  let e := envOf x
  match domainOf d with
  | .tile ix => tileOff ix x
  | .stack f => onData (fun y => editField e f stackOff y) x
  | .scarf i => onData (fun y => followPresent e (tileField (attachTile i)) (editEngine i (fun _ => Engine.off) y)) x
  | .host i => onData (editHost i fun g => { HostEngine.off with pfc := g.pfc }) x
  | .service n =>
    let x1 := onMgmt (fun m => { m with service := m.service &&& (0xFF - 2 ^ n) }) x
    if n = 7 then onCtrl ctrlPowerDown x1 else x1

/-- DOMAIN_ENABLE: the start or the loader enables a domain, no group before the previous one is on (R348). In SERVICE only
domain_force does (R445). -/
def domainEnable (d : Nat) (x : Module) : Module :=
  let m := x.mgmt.module
  if m = .service ∨ groupsOn x < groupsBefore d then x else domainOn (decide (m = .warmStart)) d x

/-- DOMAIN_FAULT (R349): a domain has not reached its rail within 1 ms of its enable. -/
def domainFault (d : Nat) (x : Module) : Module :=
  let x1 := setE Ent.lastDomainFault d (incE Ent.domainFaults (domainOff d x))
  match domainOf d with
  | .tile ix => markTile ix true x1
  | .stack f =>
    onData (fun y => editField (envOf x) f (fun g => { g with mode := .failed, train := .fail }) y) x1
  | .scarf i => onData (editEngine i (trainFail 1)) x1
  | _ => x1

/-! ### Power-state orders (R353–R355, R446, R450) -/

/-- A start in progress is abandoned (R446): start_fault records the step with cause 3. -/
def abandonStart (x : Module) : Module :=
  match x.mgmt.start with
  | some j => setE Ent.startFault (j.step * 256 + 3) (onMgmt (fun m => { m with start := none, startDue := none }) x)
  | none => onMgmt (fun m => { m with startDue := none }) x

/-- The standby part of an order (R354): a stop order on J1 when a run exists, the data plane off, the bypass open (R384,
R421). -/
def goStandby (x : Module) : Module :=
  let x1 := onlyIf (x.mgmt.module == .running || x.mgmt.module == .held) (writeOrder 3 0) (abandonStart x)
  toState .standby (editCool (fun c => { c with bypass := !x.mgmt.act.paired }) (dataOff x1))

/-- The next start is cold unless every condition of R450 holds. -/
def nextIsCold (x : Module) : Bool :=
  let interval := getE x Ent.coldInterval
  let trimmed := (List.range 64).all fun f => look false x.mgmt.stackFailed f || look false x.mgmt.stackTrims f
  x.mgmt.coldNext || getE x Ent.startMode != 0 || (getE x Ent.retainedState).testBit 2 || !trimmed ||
    (interval != 0 && decide (interval * 3600000000000 ≤ x.ts.toNat - getE x Ent.lastCold))

/-- An order that acts (R354); standby or on closes the inlet of a module in OFF (R445). -/
def actOnOrder (order : Nat) (x : Module) : Module :=
  let m := x.mgmt.module
  match order with
  | 2 =>
    if m = .off then beginInlet x
    else if m = .standby ∧ x.mgmt.start.isNone then onMgmt (fun y => { y with startDue := some (nextIsCold x) }) x else x
  | 1 => if m = .off then beginInlet x else if m = .standby then onMgmt (fun y => { y with startDue := none }) x else goStandby x
  | _ =>
    if m = .off ∧ x.mgmt.start.isNone then x
    else toState .off (openInlet (if m = .off ∨ m = .standby then abandonStart x else goStandby x))

/-- POWER_ORDER_ACT: a pending order's delay has passed; in SAFE_STOP and LEAK_CUT it is kept (R355). -/
def powerOrderAct (x : Module) : Module :=
  match x.mgmt.orderAt with
  | some t =>
    if !skourUp x ∨ x.mgmt.module = .safeStop ∨ x.mgmt.module = .leakCut ∨
        sinceT x t < getE x Ent.orderDelay * 1000000000 then x
    else
      let o := getE x Ent.powerOrder
      let x1 := note 0 0xB Ent.powerOrder o (onMgmt (fun m => { m with orderAt := none }) x)
      editPower (fun p => { p with forecastDue := true }) (actOnOrder o x1)
  | none => x

/-- order_pending: seconds until the order acts. -/
def orderSeconds (x : Module) : Nat :=
  match x.mgmt.orderAt with
  | some t => ceilDiv (getE x Ent.orderDelay * 1000000000 - sinceT x t) 1000000000
  | none => 0

end Sys2Proof.Machine
end

