-- ==== Sys2Proof/Machine/Actuators.lean ====
section
/-!
DEFINITION. Valve, pump and fan drive (chapter 13): the sequencers' channels and banks, movement detection, zone valve windows,
valve faults and retests, and the pump and fan loops.
-/

namespace Sys2Proof.Machine

/-- The actuator drive domain is on (R30). -/
def actOn (x : Module) : Bool := x.mgmt.service.testBit 6

def chanOf (x : Module) (c : Nat) : Chan := look Chan.off x.mgmt.act.chans c
def editChan (c : Nat) (f : Chan → Chan) (x : Module) : Module :=
  editAct (fun a => { a with chans := upd Chan.off a.chans c f }) x

/-- Byte `i` of an octet entry set. -/
def setByte (k i v : Nat) (m : Mgmt) : Mgmt :=
  let o := dget m k
  dset k (o - bits (8 * i + 7) (8 * i) o * 256 ^ i + v * 256 ^ i) m

/-- The bank of a channel (R404). -/
def bankOf (c : Nat) : Nat := c / 4

/-- A tile domain of zone `z` is on. -/
def zoneTilesOn (d : Data) (z : Nat) : Bool :=
  d.tiles.any fun p => !(p.2.tstate == .off) && fieldZone (tileField p.1) == z

/-- Under profile 1 the tray valve's pair acts as channel 19 (R419). -/
def profile1 (x : Module) : Bool := x.mgmt.act.paired
def chanKey (x : Module) (c : Nat) : Nat := if profile1 x ∧ c = 18 then 19 else c

/-- A zone's mean differential pressure over the last 10 ms, in mbar. -/
def dpMean (x : Module) (z : Nat) : Rat :=
  match look [] x.mgmt.cool.dpLast z with
  | [] => (look 0 x.mgmt.cool.dp z : Nat)
  | v :: r => mkRat ((v :: r).foldl (· + ·) 0 : Nat) (r.length + 1)

/-- The isolation valves, and the tray valve under profile 1: valves_held ends when one leaves hold (R431). -/
def heldValve (x : Module) (c : Nat) : Bool := c == 16 || c == 17 || (c == 19 && profile1 x)

/-! ### Valve faults (R417) -/

/-- Throttle follows the zone valve faults whose zone has a tile domain on. -/
def syncValveThrottle (x : Module) : Module :=
  let f := getE x Ent.valveFaults
  let zs : SMap Bool := ((List.range 16).filter fun z => f.testBit z && zoneTilesOn x.data z).map fun z => (z, true)
  if zs = x.mgmt.power.throttles.valves then x else setThrottle (fun t => { t with valves := zs }) x

/-- A channel gives up its place in its bank's queue. -/
def leaveQueue (c : Nat) (x : Module) : Module :=
  editAct (fun a => { a with waiting := upd [] a.waiting (bankOf c) (·.filter (· ≠ c)) }) x

/-- A channel gets a valve fault: latched, turned off, the event raised; an isolation valve is held no more (R431). -/
def valveFault (c cause : Nat) (x0 : Module) : Module :=
  let x := leaveQueue c x0
  let x1 := editAct (fun a => { a with retests := insertKey a.retests c (0, x.ts) })
    (editChan c (fun k => { Chan.off with st := .faulted, window := k.window, force := k.force }) x)
  let x2 := onMgmt (fun m => setByte Ent.valveFaultCause c cause (dsetBits Ent.valveFaults (2 ^ c) m)) x1
  let x3 := onlyIf (heldValve x c) (setE Ent.valvesHeld 0) x2
  raiseEvent 0x60FF01 (natLe 1 c ++ natLe 1 cause) (syncValveThrottle x3)

/-- A latched fault is cleared. -/
def clearValveFault (c : Nat) (x : Module) : Module :=
  if !dbit x.mgmt Ent.valveFaults c then x
  else
    let x1 := onMgmt (fun m => setByte Ent.valveFaultCause c 0 (dclearBits Ent.valveFaults (2 ^ c) m)) x
    let x2 := editAct (fun a => { a with retests := drop a.retests c, bankOff := a.bankOff }) x1
    syncValveThrottle (editChan c (fun k => if k.st = .faulted then { k with st := .off } else k) x2)

/-! ### Pull-ins in a shared bank (R406, R409) -/

/-- A pull-in is in progress in the bank. -/
def bankBusy (x : Module) (b : Nat) : Bool :=
  (List.range 4).any fun i => match (chanOf x (4 * b + i)).st with | .pull => true | .decay h => h | _ => false

/-- The bank is powered. -/
def bankOn (x : Module) (b : Nat) : Bool := actOn x && !look false x.mgmt.act.bankOff b && !dbit x.mgmt Ent.bankOff b

/-- A pull-in starts; the first of a try takes its zone's p_c (R411). -/
def beginPull (c : Nat) (x : Module) : Module :=
  let p := dpMean x c
  editChan c (fun k => { k with
    st := .pull
    before := if c < 16 ∧ !k.second then p else k.before }) x

/-- An isolation valve's channel drives its coil. -/
def isoDriven (x : Module) : Bool :=
  [16, 17].any fun c => match (chanOf x c).st with | .pull => true | .hold => true | .decay _ => true | _ => false

/-- A pull-in is requested: it starts, or waits behind the one in progress in its bank. Under profile 1 the tray valve is
pulled in only while no other channel of its bank is driven (R420). -/
def requestPull (c : Nat) (x : Module) : Module :=
  let b := bankOf c
  if !bankOn x b ∨ (profile1 x ∧ c = 19 ∧ isoDriven x) then x
  else if bankBusy x b then
    editAct (fun a => { a with waiting := upd [] a.waiting b (· ++ [c]) })
      (editChan c (fun k => { k with st := .deferred }) (onMgmt (fun m => dinc Ent.deferrals (dsetBits Ent.deferredFlags (2 ^ c) m)) x))
  else beginPull c x

/-- The bank's next waiting pull-in starts. -/
def startNext (b : Nat) (x : Module) : Module :=
  match look [] x.mgmt.act.waiting b with
  | c :: rest =>
    if bankBusy x b then x
    else beginPull c (editAct (fun a => { a with waiting := put [] a.waiting b rest }) x)
  | [] => x

/-- An off command (R406): a regulated phase, or the decay that ends a pull-in, goes to a fast decay to zero; a deferred
pull-in is given up. A retest in progress goes on. `check` asks for the stuck-open check (R412). -/
def turnOff (check : Bool) (c : Nat) (x : Module) : Module :=
  let k := chanOf x c
  let dead : Chan := { Chan.off with
    st := .decay false
    before := k.before
    current := k.current
    check := check }
  if k.retest then editChan c (fun k => { k with window := false }) x
  else match k.st with
    | .deferred => leaveQueue c (editChan c (fun k => { Chan.off with current := k.current }) x)
    | .hold => editChan c (fun _ => dead) x
    | .pull => startNext (bankOf c) (editChan c (fun _ => dead) x)
    | .decay true => startNext (bankOf c) (editChan c (fun _ => dead) x)
    | _ => editChan c (fun k => { k with window := false, again := false }) x

/-- PULLIN_START: a channel that is off, or faulted under a retest, asks for a pull-in. -/
def pullinStart (c : Nat) (x : Module) : Module :=
  match (chanOf x c).st with
  | .off => requestPull c (editChan c (fun k => { k with window := true, second := false, again := false }) x)
  | _ => x

/-! ### Movement detection (R410, R419) -/

/-- Samples of 1 MHz from sample `i` of a pull-in on, in mA: the sum of 4 falls `dip` below its highest so far, between 100 µs
and the first sample at or above 3.8 A. `l` holds the three samples before, `best` the highest sum. -/
def dipFrom (dip : Rat) : Nat → Nat × Nat × Nat → Nat → List Nat → Bool
  | _, _, _, [] => false
  | i, l, best, v :: r =>
    if 3800 ≤ v then false
    else
      let sum := l.1 + l.2.1 + l.2.2 + v
      let top := if i < 3 then 0 else max best sum
      (decide (100 ≤ i) && decide ((sum : Rat) + dip ≤ top)) || dipFrom dip (i + 1) (l.2.1, l.2.2, v) top r

/-- A pull-in's samples show movement (R410): the running mean of 4 falls at least dip_min, or twice dip_min on the pair's sum
(R419). -/
def dipSeen (x : Module) (c : Nat) (samples : List Nat) : Bool :=
  let d := 1000 * getSnap 100 x Ent.dipMin
  dipFrom (4 * (if profile1 x ∧ c = 19 then 2 * d else d)) 0 (0, 0, 0) 0 samples

/-- The channel leaves regulation at pullin_time and enters fast decay (R406). -/
def regulationEnd (c : Nat) (x : Module) : Module :=
  match (chanOf x c).st with
  | .pull => editChan c (fun k => { k with st := .decay true }) x
  | _ => x

/-- Bits of the repair map for the 80 tiles of a zone (R417). -/
def loseZone (z : Nat) (x : Module) : Module :=
  ((List.range 1280).filter fun ix => fieldZone (tileField ix) == z).foldl (fun y ix => markTile ix true y) x

/-- A retest ends (R417). -/
def retestDone (c : Nat) (pass : Bool) (x : Module) : Module :=
  let n := (look (0, 0) x.mgmt.act.retests c).1
  let left := 6 - n
  let ev := raiseEvent 0x60FF02 (natLe 1 c ++ natLe 1 (b2n pass) ++ natLe 4 left)
  let x1 := editChan c (fun k => { k with retest := false, cross := false, st := if pass then .off else .faulted }) x
  if pass then ev (clearValveFault c x1)
  else
    let x2 := ev x1
    if 6 ≤ n then loseZone c x2 else x2

/-- The pull-in has ended (R406, R411): `moved` tells whether it showed movement. -/
def pullEnded (c : Nat) (moved : Bool) (x : Module) : Module :=
  let k := chanOf x c
  if moved then
    (if k.retest then retestDone c true x else editChan c (fun k => { k with st := .hold }) x)
  else if k.retest then editChan c (fun k => { k with st := .hold, cross := true }) x
  else if !k.second then editChan c (fun k => { k with st := .decay false, again := true }) x
  else if c < 16 then editChan c (fun k => { k with st := .hold, cross := true }) x
  else incE Ent.dipMissing (editChan c (fun k => { k with st := .hold }) x)

/-- FAST_DECAY_END: to hold at the end of a pull-in, judged by the pull-in's samples, or to off; then the bank's next pull-in
starts. -/
def decayEnd (c : Nat) (samples : List Nat) (x : Module) : Module :=
  match (chanOf x c).st with
  | .decay true => startNext (bankOf c) (pullEnded c (dipSeen x c samples) x)
  | .decay false => editChan c (fun k => { k with st := .off }) x
  | _ => x

/-- 50 ms after a pull-in without movement a second one is requested (R411). -/
def movementRetry (c : Nat) (x : Module) : Module :=
  if (chanOf x c).again ∧ (chanOf x c).st = .off then
    requestPull c (editChan c (fun k => { k with again := false, second := true }) x)
  else x

/-- dp_open in mbar. -/
def dpOpen (x : Module) : Rat := 1000 * getSnap 1000 x Ent.dpOpen

/-- How far the zone's mean differential pressure over the last 10 ms lies below the p_c of its pull-in, in mbar. -/
def dpFall (x : Module) (z : Nat) : Rat := (chanOf x z).before - dpMean x z

/-- The zone's differential pressure sensor is usable; one that is not enters no comparison (R378). -/
def dpUsable (x : Module) (z : Nat) : Bool := !dbit x.mgmt Ent.otherSensorFaults (40 + z)

/-- The cross-check 30 ms after a second pull-in without movement began: p_c − p_o against dp_open (R411). -/
def crossCheck (c : Nat) (x : Module) : Module :=
  let k := chanOf x c
  if !k.cross then x
  else if dpUsable x c ∧ dpOpen x ≤ dpFall x c then
    let x1 := raiseEvent 0x60FF03 (natLe 1 c ++ natLe 4 (ratF32 (dpFall x c / 1000))) (incE Ent.dipMissing x)
    if k.retest then retestDone c true x1 else editChan c (fun k => { k with cross := false, second := false }) x1
  else if k.retest then retestDone c false x
  else valveFault c 1 x

/-- 200 µs into a pull-in the current is below 0.5 A, or 1.0 A for the pair (R408, R419). -/
def openCoil (c ma : Nat) (x : Module) : Module :=
  let lim := if profile1 x ∧ (c = 18 ∨ c = 19) then 1000 else 500
  match (chanOf x c).st with
  | .pull =>
    if ma < lim then
      (if (chanOf x c).retest then startNext (bankOf c) (retestDone c false x)
       else startNext (bankOf c) (valveFault (chanKey x c) 2 x))
    else x
  | _ => x

/-- The current exceeds 6.0 A, or 12.0 A for the pair (R408, R419). -/
def coilShort (c ma : Nat) (x : Module) : Module :=
  let lim := if profile1 x ∧ (c = 18 ∨ c = 19) then 12000 else 6000
  if ma ≤ lim ∨ (chanOf x c).st = .off ∨ (chanOf x c).st = .faulted then x
  else if (chanOf x c).retest then startNext (bankOf c) (retestDone c false x)
  else startNext (bankOf c) (valveFault (chanKey x c) 3 x)

/-! ### Banks (R405) -/

/-- A bank has stood in limit for more than 200 µs, or its own protection acts. -/
def bankTrip (b us : Nat) (own : Bool) (x : Module) : Module :=
  if !bankOn x b ∨ (us ≤ 200 ∧ !own) then x
  else
    let recent := (look [] x.mgmt.act.bankTrips b).filter fun t => decide (sinceT x t < 600000000000)
    let times := x.ts :: recent
    let x1 := editAct (fun a => { a with
      bankTrips := put [] a.bankTrips b times, waiting := drop a.waiting b, bankOff := put false a.bankOff b true }) x
    let x2 := repeatN (fun i y => editChan (4 * b + i) (fun k =>
      let latched := dbit x.mgmt Ent.valveFaults (4 * b + i)
      { Chan.off with
        st := if latched then .faulted else .off
        window := k.window
        force := k.force
        duty := k.duty }) y) 4 (onlyIf (b == 4) (setE Ent.valvesHeld 0) x1)
    let x3 := raiseEvent 0x60FF05 (natLe 1 b ++ natLe 4 times.length) (incE Ent.bankTrips x2)
    if times.length < 3 then x3
    else repeatN (fun i y => valveFault (4 * b + i) 4 y) 4 (onMgmt (dsetBits Ent.bankOff (2 ^ b)) x3)

/-- 1 s after a trip the bank is on again, and each valve that a window or command holds open is pulled in; under profile 1 the
tray valve before the isolation valves (R420). -/
def bankRetry (b : Nat) (x : Module) : Module :=
  let since := match look [] x.mgmt.act.bankTrips b with | t :: _ => sinceT x t | [] => 0
  if !actOn x ∨ !look false x.mgmt.act.bankOff b ∨ dbit x.mgmt Ent.bankOff b ∨ since < 1000000000 then x
  else
    let x1 := editAct (fun a => { a with bankOff := drop a.bankOff b }) x
    (if b = 4 ∧ profile1 x then [3, 0, 1] else List.range 4).foldl (fun y i =>
      let k := chanOf y (4 * b + i)
      if (k.window || k.force) && k.st == .off then requestPull (4 * b + i) y else y) x1

/-! ### Zone valve windows (R413–R416) -/

/-- The duty the sequencers hold for a zone; 100 while forced. -/
def dutyOf (x : Module) (z : Nat) : Nat :=
  if (chanOf x z).force then 100 else x.mgmt.act.schedule.duties.getD z 0

/-- A zone's window opens at its offset with the duty in force (R413); one of 0 % opens none, and a window of a whole period
ends there. A valve already open stays so without a pull-in (R414, R415). -/
def windowStart (z : Nat) (x : Module) : Module :=
  let k := chanOf x z
  let d := dutyOf x z
  if !actOn x ∨ k.st = .faulted then x
  else if d = 0 then (if k.window ∧ 97 ≤ k.duty then turnOff true z x else x)
  else
    let x1 := editChan z (fun k => { k with window := true, duty := d, check := false }) x
    match k.st with
    | .off => requestPull z (editChan z (fun k => { k with second := false, again := false }) x1)
    | .decay false => requestPull z (editChan z (fun k => { k with second := false, again := false }) x1)
    | _ => x1

/-- A zone's window ends: off, unless a force stands or its next window adjoins (R414); a pull-in still deferred is
cancelled (R416). -/
def windowEnd (z : Nat) (x : Module) : Module :=
  let k := chanOf x z
  if !k.window ∨ k.force ∨ (97 ≤ k.duty ∧ 0 < dutyOf x z) then x else turnOff true z x

/-- 60 ms after a window: the zone's mean pressure of the last 10 ms against the p_c before its pull-in (R412). -/
def stuckOpen (z : Nat) (x : Module) : Module :=
  let k := chanOf x z
  if !k.check ∨ k.st ≠ .off then x
  else
    let x1 := editChan z (fun k => { k with check := false }) x
    if dpUsable x z ∧ dpOpen x < dpFall x z then
      raiseEvent 0x60FF04 (natLe 1 z ++ natLe 4 (ratF32 (dpFall x z / 1000)))
        (onMgmt (dsetBits Ent.stuckOpen (2 ^ z)) x1)
    else x1

/-- Skour forces a zone to 100 % (R383, R391, R415). -/
def forceZone (z : Nat) (x : Module) : Module :=
  let x1 := editCool (fun c => { c with duty := put 0 c.duty z 100 }) (editChan z (fun k => { k with force := true }) x)
  match (chanOf x z).st with
  | .off => requestPull z x1
  | .decay false => requestPull z x1
  | _ => x1

/-- Every force ends at a period start; the valve stays open until its window (R415). -/
def endForces (x : Module) : Module :=
  editAct (fun a => { a with
    chans := mapListed Chan.off (fun _ k => if k.force then { k with force := false, window := true, duty := 100 } else k) a.chans }) x

/-- A channel among 16 to 19 is opened or closed on command. -/
def commandValve (c : Nat) (openIt : Bool) (x : Module) : Module :=
  let k := chanOf x c
  if openIt then
    (if k.window then x else match k.st with
      | .off => requestPull c (editChan c (fun k => { k with window := true, second := false }) x)
      | _ => editChan c (fun k => { k with window := true }) x)
  else if !k.window then x
  else turnOff false c (onlyIf (heldValve x c) (setE Ent.valvesHeld 0) x)

/-- A faulted zone valve is retested: every 10 s, up to 6 times (R417). -/
def valveRetest (z : Nat) (x : Module) : Module :=
  let r := look (0, 0) x.mgmt.act.retests z
  if !skourUp x ∨ !dbit x.mgmt Ent.valveFaults z ∨ 6 ≤ r.1 ∨ (chanOf x z).st ≠ .faulted ∨ !bankOn x (bankOf z) ∨
      sinceT x r.2 < 10000000000 then x
  else
    let x1 := editAct (fun a => { a with retests := insertKey a.retests z (r.1 + 1, x.ts) }) x
    requestPull z (editChan z (fun k => { k with retest := true }) x1)

/-! ### Pumps and fans (R422–R428) -/

def unitOf (x : Module) (u : Nat) : DriveUnit := look DriveUnit.stopped x.mgmt.act.units u
def editUnit (u : Nat) (f : DriveUnit → DriveUnit) (x : Module) : Module :=
  editAct (fun a => { a with units := upd DriveUnit.stopped a.units u f }) x

/-- Pump 0 and 1, fans 0x10 to 0x13 (R527). -/
def isPump (u : Nat) : Bool := decide (u < 2)

/-- The drive limits (R424). -/
structure Limits where
  vMin : Rat
  vMax : Rat
  rpmMin : Nat
  rpmMax : Nat
  kp : Rat
  ki : Rat
  trimLim : Rat
deriving DecidableEq, Repr

def limitsOf (u : Nat) : Limits :=
  if isPump u then ⟨12, 48, 1800, 6000, mkRat 2 1000, mkRat 10 1000, 9⟩ else ⟨4, 12, 900, 4800, mkRat 5 10000, mkRat 25 10000, 2⟩

def clampQ (lo hi v : Rat) : Rat := max lo (min hi v)

/-- The output a target sets before the loop has run: the linear term and the kept trim. -/
def baseVolts (l : Limits) (pct : Nat) (trim : Rat) : Rat :=
  clampQ l.vMin l.vMax (l.vMin + (l.vMax - l.vMin) * mkRat pct 100 + trim)

/-- The entry of a unit's flags. -/
def unitFlags (u : Nat) : Nat := if isPump u then Ent.pumpFlags + u else Ent.fanFlags + (u - 16)

/-- A unit with a new target (R424): 0 stops it; from rest it starts. -/
def DriveUnit.retarget (u pct : Nat) (d : DriveUnit) : DriveUnit :=
  let l := limitsOf u
  if d.st = .faulted then { d with target := pct }
  else if pct = 0 then DriveUnit.stopped
  else if d.target = pct ∧ d.st ≠ .stopped then d
  else match d.st with
    | .stopped => { d with st := .starting, target := pct, volts := baseVolts l pct 0, trim := 0, retries := 0 }
    | .running => { d with target := pct, volts := baseVolts l pct d.trim }
    | .starting => if d.retries = 0 then { d with target := pct, volts := baseVolts l pct 0 } else { d with target := pct }
    | _ => { d with target := pct }

/-- A unit takes a target; a stop ends its retries (R433). -/
def setTarget (u pct : Nat) (x : Module) : Module :=
  onlyIf (pct == 0) (onMgmt (dclearBits (unitFlags u) 4)) (editUnit u (DriveUnit.retarget u pct) x)

/-- host_alive is 0: a target never falls (R428). -/
def heldTarget (x : Module) (u new : Nat) : Nat :=
  if x.mgmt.joints.hostAlive then new else max (unitOf x u).target new

/-- The pump that may run (R422). -/
def runnablePump (x : Module) : Option Nat :=
  let lead := getE x Ent.leadPump
  if (unitOf x lead).st ≠ .faulted then some lead
  else if (unitOf x (1 - lead)).st ≠ .faulted then some (1 - lead) else none

/-- The pump that runs: while a flow stop lasts, the one that its reaction started (R391); else the one of R422. -/
def nextPump (x : Module) : Option Nat :=
  match x.mgmt.act.running with
  | some p =>
    if x.mgmt.cool.watch.stop.isSome ∧ (unitOf x p).st ≠ .faulted then some p else runnablePump x
  | none => runnablePump x

/-- The running pump takes a target; starting it stops the other (R422). -/
def setPump (pct : Nat) (x : Module) : Module :=
  match nextPump x with
  | some p =>
    editAct (fun a => { a with running := some p }) (setTarget p pct (setTarget (1 - p) 0 x))
  | none => editAct (fun a => { a with running := none }) x

/-- Any fan is faulted. -/
def fanFaulted (x : Module) : Bool := (List.range 4).any fun n => (unitOf x (16 + n)).st == .faulted

/-- A fan takes a target; while any fan is faulted every other runs at 100 % (R427). -/
def setFan (n pct : Nat) (x : Module) : Module := setTarget (16 + n) (if fanFaulted x then 100 else pct) x

/-- A unit is faulted (R425): a pump passes the running role with its target, a fan drives the others to 100 %. -/
def unitFault (u : Nat) (x : Module) : Module :=
  let target := (unitOf x u).target
  let x1 := onMgmt (fun m => dsetBits (unitFlags u) 1 (dclearBits (unitFlags u) 4 m))
    (editUnit u (fun d => { d with st := .faulted, volts := 0, trim := 0 }) x)
  if isPump u then
    let x2 := raiseEvent 0x61FF02 (natLe 1 u) x1
    let x3 := if x2.mgmt.act.running = some u then setPump target x2 else x2
    if (runnablePump x3).isNone then raiseEvent 0x61FF05 [] x3 else x3
  else
    let x2 := raiseEvent 0x61FF03 (natLe 1 u) x1
    repeatN (fun n y => setFan n 100 y) 4 x2

/-- UNIT_START_CHECK (R425): 2 s after voltage is applied, `pulses` tells whether the tachometer gave 2 pulses. Before a retry
the output stands at 0 V for 500 ms. -/
def unitStartCheck (u : Nat) (pulses : Bool) (x : Module) : Module :=
  let d := unitOf x u
  if d.st ≠ .starting ∨ d.retryAt.isSome then x
  else if pulses then
    onMgmt (dclearBits (unitFlags u) 4) (editUnit u (fun d => { d with
      st := .running, retries := 0, volts := baseVolts (limitsOf u) d.target 0 }) x)
  else if d.retries < 3 then
    let x1 := onMgmt (dsetBits (unitFlags u) 4)
      (editUnit u (fun d => { d with retries := d.retries + 1, volts := 0, retryAt := some (x.ts + 500000000) }) x)
    if d.retries = 0 then raiseEvent 0x61FF01 (natLe 1 u) x1 else x1
  else unitFault u x

/-- TACH_LOSS (R426): no pulse for more than 200 ms. -/
def tachLoss (u ms : Nat) (x : Module) : Module :=
  let d := unitOf x u
  if d.st ≠ .running ∨ d.target = 0 ∨ ms ≤ 200 then x
  else
    let v := (limitsOf u).vMax
    raiseEvent 0x61FF04 (natLe 1 u ++ natLe 4 (ratF32 v))
      (onMgmt (dsetBits (unitFlags u) 2) (editUnit u (fun d => { d with st := .tachLoss, volts := v }) x))

/-- TACH_RECOVER (R426): 5 s of pulses at intervals of 200 ms or less. -/
def tachRecover (u : Nat) (x : Module) : Module :=
  if (unitOf x u).st = .tachLoss then editUnit u (fun d => { d with st := .running, trim := 0 }) x else x

/-- One turn of the speed loop with a measured speed (R424). -/
def loopStep (u rpm : Nat) (d : DriveUnit) : DriveUnit :=
  let l := limitsOf u
  let d := { d with rpm := rpm }
  if d.st ≠ .running ∨ d.target = 0 then d
  else
    let rpmT : Rat := max (l.rpmMin : Rat) (l.rpmMax * mkRat d.target 100)
    let err := rpmT - rpm
    let trim := clampQ (-l.trimLim) l.trimLim (d.trim + l.ki * err * mkRat 1 100)
    { d with trim := trim, volts := clampQ l.vMin l.vMax (l.vMin + (l.vMax - l.vMin) * mkRat d.target 100 + l.kp * err + trim) }

/-- A retry whose 500 ms at 0 V have passed begins at v_max (R425). -/
def beginRetry (u : Nat) (now : W64) (d : DriveUnit) : DriveUnit :=
  match d.retryAt with
  | some t => if t.toNat ≤ now.toNat then { d with volts := (limitsOf u).vMax, retryAt := none } else d
  | none => d

/-- DRIVE_LOOP: the measured speeds of pumps 0 and 1 and fans 0 to 3. -/
def driveLoop (rpm : List Nat) (x : Module) : Module :=
  if !actOn x then x
  else (List.range 6).foldl (fun y i =>
    let u := if i < 2 then i else 14 + i
    editUnit u (fun d => beginRetry u x.ts (loopStep u (rpm.getD i 0) d)) y) x

/-- TARGET_STEP: Skour sets a unit's target within a period (R424, R429); a pump's by its running role. -/
def targetStep (u pct : Nat) (x : Module) : Module :=
  if !actOn x then x
  else if isPump u then (if x.mgmt.act.running = some u then setTarget u (heldTarget x u pct) x else x)
  else setFan (u - 16) (heldTarget x u pct) x

/-- A start tests pumps and fans again (R427), and latched banks and valve faults are cleared (R405, R418). -/
def clearUnitFaults (mask : Nat) (x : Module) : Module :=
  (List.range 6).foldl (fun y i =>
    let u := if i < 2 then i else 14 + i
    if mask.testBit i then
      onMgmt (dclearBits (unitFlags u) 5)
        (editUnit u (fun d => if d.st = .faulted then DriveUnit.stopped else d) y)
    else y) x

def clearValveFaults (mask : Nat) (x : Module) : Module :=
  (List.range 20).foldl (fun y c =>
    if mask.testBit c then
      clearValveFault c (onMgmt (dclearBits Ent.bankOff (2 ^ bankOf c))
        (editAct (fun a => if dbit y.mgmt Ent.bankOff (bankOf c) then { a with bankOff := drop a.bankOff (bankOf c) } else a) y))
    else y) x

/-! ### Schedules (R429, R430) -/

/-- The pump target of a schedule: while the host is silent it does not fall, but for the stop that R384 orders in STANDBY
(R428). -/
def pumpHeld (x : Module) (pct : Nat) : Nat :=
  if x.mgmt.module = .standby ∧ pct = 0 then 0
  else match x.mgmt.act.running with | some p => heldTarget x p pct | none => pct

/-- A schedule written into the sequencers takes force: commands and targets at once, duties at each zone's window. -/
def writeSchedule (s : Schedule) (x : Module) : Module :=
  let x1 := editAct (fun a => { a with schedule := s }) x
  if !actOn x then x1
  else
    let x2 := (List.range 4).foldl (fun y i => commandValve (16 + i) (s.commands.getD i false) y) x1
    (List.range 4).foldl (fun y n => setFan n (heldTarget x (16 + n) (s.fans.getD n 0)) y) (setPump (pumpHeld x s.pump) x2)

/-- valve_state's code of a channel (R433). -/
def chanCode (s : ChanSt) : Nat :=
  match s with | .off => 0 | .pull => 1 | .hold => 2 | .deferred => 3 | .faulted => 4 | .decay _ => 5

/-- A zone is open: its channel in hold with no latched fault (R389). -/
def zoneOpen (x : Module) (z : Nat) : Bool := (chanOf x z).st == .hold && !dbit x.mgmt Ent.valveFaults z

end Sys2Proof.Machine
end

