-- ==== Sys2Proof/Machine/Coolant.lean ====
section
/-!
DEFINITION. Coolant and thermal policy (chapter 12): the sensors and the used readings, zone demands and duties, the flow
margin and the flow-stop detectors of Skour and Sill, the clamp, and the temperature flags.
-/

namespace Sys2Proof.Machine

/-! ### Sensors (R377–R379, R584) -/

/-- A sensor of the table "Coolant and thermal sensors". Tile sensor 2·(40·pr + pc) + n; converter sensor 2·block + n. -/
inductive SensorId where
  | tile (n : Fin 2560) | stack (f : FieldIx) | conv (n : Fin 8) | zoneIn (z : ZoneIx) | zoneOut (z : ZoneIx)
  | dp (z : ZoneIx) | meter | supply | ret
deriving DecidableEq, Repr

/-- A conversion: a value (0.1 °C, mbar, or 0.01 L/min), or the sensor finds itself unable to measure. -/
inductive Reading where
  | ok (v : Int)
  | bad
deriving DecidableEq, Repr

/-- The bit of other_sensor_faults a sensor has (R403). -/
def otherBit : SensorId → Nat
  | .conv n => n.val | .zoneIn z => 8 + 2 * z.val | .zoneOut z => 9 + 2 * z.val | .dp z => 40 + z.val | .meter => 56
  | .supply => 57 | .ret => 58 | .tile n => n.val | .stack f => f.val

/-- The entry that holds a sensor's fault flag. -/
def faultEntry : SensorId → Nat
  | .tile _ => Ent.tileSensorFaults | .stack _ => Ent.stackSensorFaults | _ => Ent.otherSensorFaults

/-- A sensor is usable: its fault flag is 0 and it is not masked (R378). -/
def usable (m : Mgmt) (s : SensorId) : Bool :=
  !(dbit m (faultEntry s) (otherBit s)) &&
    (match s with | .tile n => !dbit m Ent.sensorMasks n.val | _ => true)

/-- A conversion stored: the fault reading with its flag when the sensor cannot measure. -/
def storeReading (s : SensorId) (r : Reading) (m : Mgmt) : Mgmt :=
  let hot : Int := match r with | .ok v => v | .bad => 1500
  let cold : Nat := match r with | .ok v => v.toNat | .bad => 0
  let c := m.cool
  let c1 : Cool := match s with
    | .tile n => { c with tileRaw := put 0 c.tileRaw n.val hot }
    | .stack f => { c with stack := insertKey c.stack f.val hot }
    | .conv n => { c with conv := put 0 c.conv n.val hot }
    | .zoneIn z => { c with zoneIn := insertKey c.zoneIn z.val hot }
    | .zoneOut z => { c with zoneOut := put 0 c.zoneOut z.val hot }
    | .dp z => { c with
        dp := put 0 c.dp z.val cold
        dpLast := upd [] c.dpLast z.val fun l => (cold :: l).take 100 }
    | .meter => { c with flow := cold, flowSum := c.flowSum + cold, flowN := c.flowN + 1 }
    | .supply => { c with supply := cold }
    | .ret => { c with ret := cold }
  let m1 := { m with cool := c1 }
  match r with
  | .bad => dsetBits (faultEntry s) (2 ^ otherBit s) m1
  | .ok _ => m1

/-- A tile sensor by its number. -/
def tileSensor (n : Nat) : SensorId := .tile ⟨n % 2560, Nat.mod_lt _ (by decide)⟩

/-- A tile's usable readings. -/
def tileReadings (m : Mgmt) (ix : Nat) : List Int :=
  ((List.range 2).filter fun n => usable m (tileSensor (2 * ix + n))).map fun n => look 0 m.cool.tileRaw (2 * ix + n)

/-- A tile's pair is in disagreement: a suspect one stays so, also over a loss of power (R379). -/
def inDisagreement (m : Mgmt) (ix : Nat) : Bool := m.cool.inDis.any (fun p => p.1 == ix) || dbit m Ent.pairSuspect ix

/-- The used reading of an observed tile in units of 0.05 °C; none when no sensor is usable (R379). -/
def observed (m : Mgmt) (ix : Nat) : Option Int :=
  match tileReadings m ix with
  | [a, b] => some (if inDisagreement m ix then 2 * max a b else a + b)
  | [a] => some (2 * a)
  | _ => none

/-- The highest observed used reading among powered tiles that `p` picks. -/
def hottestOf (x : Module) (p : Nat → Bool) : Option Int :=
  x.data.tiles.foldl (fun acc t =>
    if t.2.tstate == .off || !p t.1 then acc
    else match acc, observed x.mgmt t.1 with
      | some a, some b => some (max a b)
      | none, b => b
      | a, none => a) none

/-- A powered tile's used reading in units of 0.05 °C (R379). -/
def usedReading (x : Module) (ix : Nat) : Int :=
  match observed x.mgmt ix with
  | some v => v
  | none =>
    match hottestOf x (fun j => j ≠ ix && tileField j == tileField ix) with
    | some v => v + 200
    | none => match hottestOf x (fun j => j ≠ ix) with
      | some v => v + 200
      | none => 3000

/-- Powered tiles. -/
def poweredTiles (x : Module) : List Nat := (x.data.tiles.filter fun p => !(p.2.tstate == .off)).map Prod.fst

/-- A field's stack reading when usable. -/
def stackReading (m : Mgmt) (f : Nat) : Option Int :=
  if !(dbit m Ent.stackSensorFaults f) && m.cool.stack.any (fun p => p.1 == f) then some (look 0 m.cool.stack f) else none

/-- A powered tile left with no usable sensor becomes unobserved: its bits are set and the event raised (R379). -/
def noteUnobserved (x : Module) : Module :=
  (poweredTiles x).foldl (fun y ix =>
    if (tileReadings y.mgmt ix).isEmpty ∧ !dbit y.mgmt Ent.tileUnobserved ix then
      raiseEvent 0x50FF03 (natLe 2 ix) (markTile ix true (onMgmt (dsetBits Ent.tileUnobserved (2 ^ ix)) y))
    else y) x

/-! ### The clamp (R383, R393, R394) -/

/-- T_clamp and T_stack_clamp in 0.1 °C. -/
def tClamp (x : Module) : Rat := 10 * getSnap 10 x Ent.tClamp
def tStackClamp (x : Module) : Rat := 10 * getSnap 10 x Ent.tStackClamp

/-- Powered tiles whose used reading stands at or above the clamp, and stacks likewise. -/
def hotTiles (x : Module) : List Nat :=
  (poweredTiles x).filter fun ix => decide (2 * tClamp x ≤ (usedReading x ix : Rat))
def hotStacks (x : Module) : List Nat :=
  (List.range 64).filter fun f => match stackReading x.mgmt f with
    | some v => decide (tStackClamp x ≤ (v : Rat)) | none => false

/-- thermal_step moves, with step_req (R393). -/
def setThermal (s : Nat) (x : Module) : Module :=
  let s := min 12 s
  requestStep (setE Ent.thermalStep s (editCool (fun c => { c with thermalStep := s }) x))

/-- A clamp reading is found: one step slower than the step in force, and its event (R393). -/
def enterClamp (kind which : Nat) (reading : Int) (x : Module) : Module :=
  let x1 := setThermal (max x.mgmt.cool.thermalStep (stepNow x.mgmt + 1)) x
  let x2 := incE Ent.clampEvents (editCool (fun c => { c with clamp := some (0, 0) }) x1)
  raiseEvent 0x51FF01
    (natLe 1 kind ++ natLe 2 which ++ natLe 2 (i16 reading) ++ natLe 1 x2.mgmt.cool.thermalStep) x2

/-- The clamp follows the readings of a conversion; a hot tile's zone goes to 100 % at once (R383). -/
def checkClamp (x : Module) : Module :=
  let ts := hotTiles x
  let ss := hotStacks x
  let x1 := ts.foldl (fun y ix =>
    let z := fieldZone (tileField ix)
    if (chanOf y z).force then y else forceZone z y) x
  match x.mgmt.cool.clamp, ts, ss with
  | none, ix :: _, _ => enterClamp 0 ix (usedReading x ix / 2) x1
  | none, [], f :: _ => enterClamp 1 f (look 0 x.mgmt.cool.stack f) x1
  | some _, [], [] => editCool (fun c => { c with clamp := none }) x1
  | _, _, _ => x1

/-- THERMAL_STEP_RISE: a clamp reading has remained for 50 more frames. -/
def thermalRise (x : Module) : Module :=
  match x.mgmt.cool.clamp with
  | some (n, m) =>
    if 50 ≤ n ∧ skourUp x then
      setThermal (x.mgmt.cool.thermalStep + 1) (editCool (fun c => { c with clamp := some (n - 50, m) }) x)
    else x
  | none => x

/-- THERMAL_THROTTLE: thermal_step is 12 and a clamp reading has remained for more than 1,000 frames. -/
def thermalThrottle (x : Module) : Module :=
  match x.mgmt.cool.clamp with
  | some (_, m) =>
    if x.mgmt.cool.thermalStep = 12 ∧ 1000 < m ∧ !x.mgmt.power.throttles.clamp ∧ skourUp x then
      raiseEvent 0x51FF02 (natLe 1 1) (setThrottle (fun t => { t with clamp := true }) x)
    else x
  | none => x

/-- THERMAL_STEP_LOWER: every reading has been cool for more than 1,000 frames (R394). -/
def thermalLower (x : Module) : Module :=
  if 0 < x.mgmt.cool.thermalStep ∧ 1000 < x.mgmt.cool.coolFrames ∧ skourUp x then
    setThrottle (fun t => { t with clamp := false })
      (setThermal (x.mgmt.cool.thermalStep - 1) (editCool (fun c => { c with coolFrames := c.coolFrames - 1000 }) x))
  else x

/-- Every used tile reading below T_clamp − 8.0 K and every usable stack reading below T_stack_clamp − 8.0 K. -/
def allCool (x : Module) : Bool :=
  ((poweredTiles x).all fun ix => decide ((usedReading x ix : Rat) < 2 * (tClamp x - 80))) &&
    ((List.range 64).all fun f => match stackReading x.mgmt f with
      | some v => decide ((v : Rat) < tStackClamp x - 80) | none => true)

/-! ### Flow (R389–R391) -/

/-- Open zones with a usable differential pressure sensor. -/
def openZones (x : Module) : List Nat :=
  (List.range 16).filter fun z => zoneOpen x z && !dbit x.mgmt Ent.otherSensorFaults (40 + z)

/-- dp_stop in mbar. -/
def dpStop (x : Module) : Rat := 1000 * getSnap 1000 x Ent.dpStop

/-- The differential-pressure condition of an update: every open zone with a usable sensor below dp_stop; it also holds
with no such zone. -/
def dpBelow (x : Module) : Bool := (openZones x).all fun z => decide (((look 0 x.mgmt.cool.dp z : Nat) : Rat) < dpStop x)

/-- The cross-check of a meter's condition passes (R389). -/
def crossPasses (x : Module) : Bool :=
  !(openZones x).isEmpty && (openZones x).all fun z => decide (dpStop x + 100 ≤ ((look 0 x.mgmt.cool.dp z : Nat) : Rat))

/-- The meter is usable. -/
def meterUsable (x : Module) : Bool := usable x.mgmt .meter
/-- The meter's reading, in L/min, below a level. -/
def meterBelow (x : Module) (level : Rat) : Bool := decide (mkRat x.mgmt.cool.flow 100 < level)

/-- One update of a flow watch (R389, R390). While the meter is not usable, a stop that it declared is judged by the
differential pressures. -/
def watchStep (x : Module) (w : FlowWatch) : FlowWatch :=
  let thr := getSnap 100 x Ent.stopThreshold
  let u := meterUsable x
  let low := u && meterBelow x thr
  let dp := !u && dpBelow x
  let quiet := match w.stop with
    | none => false
    | some (d, _) => (if d = 0 then !low && !dp else !dp) && (!u || !meterBelow x (thr + 4))
  ⟨if low then w.meterLow + 1 else 0, if dp then w.dpLow + 1 else 0, if quiet then w.clear + 1 else 0, w.stop⟩

/-- Sill declares and ends its own stop as its watch finds them (R392). -/
def sillWatch (x : Module) (w0 : FlowWatch) : FlowWatch :=
  let w := watchStep x w0
  match w.stop with
  | none =>
    if 10 < w.meterLow ∧ !crossPasses x then { w with stop := some (0, x.sf), clear := 0 }
    else if 10 < w.dpLow then { w with stop := some (1, x.sf), clear := 0 } else w
  | some _ => if 100 < w.clear then { w with stop := none, clear := 0 } else w

/-- The pump the flow-stop reaction drives: the running one, or the other when it gives no pulses (R391). -/
def emergencyPump (x : Module) : Module :=
  match x.mgmt.act.running with
  | some p =>
    let o := 1 - p
    if (unitOf x p).st = .tachLoss ∧ (unitOf x o).st ≠ .faulted then
      editAct (fun a => { a with running := some o }) (setTarget o 100 (setTarget p 0 x))
    else setPump 100 x
  | none => setPump 100 x

/-- FLOW_STOP (R389, R391): Skour's detector has its condition for more than 10 updates. -/
def flowStop (x : Module) : Module :=
  let w := x.mgmt.cool.watch
  if !skourUp x ∨ w.stop.isSome then x
  else if 10 < w.meterLow ∧ crossPasses x then
    let x1 := onMgmt (fun m => dsetBits Ent.coolantFlags 4 (dsetBits Ent.otherSensorFaults (2 ^ 56) m)) x
    raiseEvent 0x40FF04 [] (editCool (fun c => { c with watch := { c.watch with meterLow := 0 } }) x1)
  else if 10 < w.meterLow ∨ 10 < w.dpLow then
    let det := if 10 < w.meterLow then 0 else 1
    let x1 := editCool (fun c => { c with watch := { c.watch with stop := some (det, x.ts), clear := 0 } }) x
    let x2 := incE Ent.flowStops (onMgmt (dsetBits Ent.coolantFlags 2) x1)
    let x3 := beginAlarm 3 0 (raiseEvent 0x40FF02 (natLe 1 det) x2)
    if !anyTileOn x.data then x3
    else
      let x4 := repeatN (fun z y => forceZone z y) 16 (setThrottle (fun t => { t with flowStop := true }) x3)
      emergencyPump (commandValve 18 (profile1 x && (chanOf x 18).window) (editCool (fun c => { c with bypass := false }) x4))
  else x

/-- FLOW_RESTORED (R390, R391). -/
def flowRestored (x : Module) : Module :=
  let w := x.mgmt.cool.watch
  match w.stop with
  | some (_, t) =>
    if !skourUp x ∨ w.clear ≤ 100 then x
    else
      let x1 := editCool (fun c => { c with watch := { c.watch with stop := none, clear := 0 } }) x
      let x2 := endAlarm 3 (onMgmt (dclearBits Ent.coolantFlags 2) x1)
      raiseEvent 0x40FF03 (natLe 4 (sinceT x t / 1000000)) (setThrottle (fun t => { t with flowStop := false }) x2)
  | none => x

/-! ### One grid instant's conversions -/

/-- The hottest of a zone, in units of 0.05 °C: used tile readings, and stack readings plus 10.0 K. -/
def zoneHot (x : Module) (z : Nat) : Option Int :=
  let ts := ((poweredTiles x).filter fun ix => fieldZone (tileField ix) == z).map (usedReading x)
  let ss := ((List.range 64).filter fun f => fieldZone f == z).filterMap fun f =>
    (stackReading x.mgmt f).map fun v => 2 * v + 200
  match ts ++ ss with | [] => none | v :: r => some (r.foldl max v)

/-- The present readings enter each zone's hottest of the coolant period (R381). -/
def noteHot (x : Module) : Module :=
  let hot := (List.range 16).foldl (fun (m : SMap Int) z => match zoneHot x z with
    | some v => insertKey m z (if m.any (fun p => p.1 == z) then max v (look 0 m z) else v)
    | none => m) x.mgmt.cool.hot
  editCool (fun c => { c with hot := hot }) x

def isTileSensor : SensorId → Bool | .tile _ => true | _ => false
def isStackSensor : SensorId → Bool | .stack _ => true | _ => false
def isFlowSensor : SensorId → Bool | .meter => true | .dp _ => true | _ => false

/-- Sill's raw comparison (R395): a usable sensor of a powered tile at or above 115.0 °C. -/
def tripTile (x : Module) : Bool :=
  (poweredTiles x).any fun ix => (tileReadings x.mgmt ix).any fun v => decide (1150 ≤ v)
/-- A usable stack sensor at or above 105.0 °C. -/
def tripStack (x : Module) : Bool :=
  (List.range 64).any fun f => match stackReading x.mgmt f with | some v => decide (1050 ≤ v) | none => false

/-- SENSOR_CONVERSION (R584): the conversions of one grid instant, and what the network, Skour and Sill derive from them.
The sensor hub's domain must be on (R30). -/
def convert (rs : List (SensorId × Reading)) (x : Module) : Module :=
  if !x.mgmt.service.testBit 3 then x
  else
    let x1 := onMgmt (fun m => rs.foldl (fun m r => storeReading r.1 r.2 m) m) x
    let tile := rs.any fun r => isTileSensor r.1
    let stack := rs.any fun r => isStackSensor r.1
    let flow := rs.any fun r => isFlowSensor r.1
    let meterBad := rs.any fun r => r.1 == .meter && r.2 == .bad
    let x2 := if meterBad ∧ !dbit x.mgmt Ent.coolantFlags 2 then
        raiseEvent 0x40FF04 [] (onMgmt (dsetBits Ent.coolantFlags 4) x1) else x1
    let x3 := onlyIf (tile || stack) noteHot (if tile then noteUnobserved x2 else x2)
    let x4 := if (tile ∨ stack) ∧ skourUp x then checkClamp x3 else x3
    let blind := !meterUsable x4 && (List.range 16).all fun z => dbit x4.mgmt Ent.otherSensorFaults (40 + z)
    let x5 := if flow then editCool (fun c => { c with watch := watchStep x4 c.watch }) x4 else x4
    if !x.sill.on then x5
    else onSill (fun s => { s with
      hotTile := if tile then (if tripTile x4 then s.hotTile + 1 else 0) else s.hotTile
      hotStack := if stack then (if tripStack x4 then s.hotStack + 1 else 0) else s.hotStack
      watch := if flow then sillWatch x4 s.watch else s.watch
      blind := if flow then (if blind then s.blind + 1 else 0) else s.blind
      sensing := if flow then (if blind then 0 else s.sensing + 1) else s.sensing }) x5

/-! ### Pairs (R379, R380) -/

/-- The frame readings of a powered pair, both usable. -/
def pairOf (m : Mgmt) (ix : Nat) : Option (Int × Int) :=
  match tileReadings m ix with | [a, b] => some (a, b) | _ => none

/-- One frame of a pair: apart by more than 5.0 K, or not. -/
def pairFrame (ix : Nat) (m : Mgmt) : Mgmt :=
  match pairOf m ix with
  | none => m
  | some (a, b) =>
    let far := decide (50 < (a - b).natAbs)
    let c := m.cool
    let isIn := c.inDis.any fun p => p.1 == ix
    { m with cool := { c with
      apart := if far then upd 0 c.apart ix (· + 1) else drop c.apart ix
      inDis := if isIn then insertKey c.inDis ix (look 0 c.inDis ix + 1) else c.inDis
      agree := if isIn ∧ !far then upd 0 c.agree ix (· + 1) else drop c.agree ix } }

/-- PAIR_DISAGREE. -/
def pairDisagree (ix : Nat) (x : Module) : Module :=
  if look 0 x.mgmt.cool.apart ix ≤ 10 ∨ inDisagreement x.mgmt ix then x
  else
    let d := fun n => natLe 2 (i16 (look 0 x.mgmt.cool.tileRaw (2 * ix + n)))
    raiseEvent 0x50FF01 (natLe 2 ix ++ d 0 ++ d 1)
      (onMgmt (dsetBits Ent.pairDisagree (2 ^ ix)) (editCool (fun c => { c with inDis := insertKey c.inDis ix 0 }) x))

/-- PAIR_SUSPECT. -/
def pairSuspect (ix : Nat) (x : Module) : Module :=
  if look 0 x.mgmt.cool.inDis ix ≤ 1000 ∨ dbit x.mgmt Ent.pairSuspect ix then x
  else raiseEvent 0x50FF02 (natLe 2 ix) (onMgmt (dsetBits Ent.pairSuspect (2 ^ ix)) x)

/-- PAIR_AGREE. -/
def pairAgree (ix : Nat) (x : Module) : Module :=
  if look 0 x.mgmt.cool.agree ix ≤ 1000 ∨ dbit x.mgmt Ent.pairSuspect ix then x
  else editCool (fun c => { c with inDis := drop c.inDis ix, agree := drop c.agree ix }) x

/-- An accepted write to mask_sensor (R380): masking a suspect pair's sensor ends its disagreement. -/
def maskSensor (v : Nat) (x : Module) : Module :=
  let n := v % 32768
  let ix := n / 2
  if 32768 ≤ v then onMgmt (dclearBits Ent.sensorMasks (2 ^ n)) x
  else
    let x1 := onMgmt (dsetBits Ent.sensorMasks (2 ^ n)) x
    if dbit x.mgmt Ent.pairSuspect ix then
      editCool (fun c => { c with inDis := drop c.inDis ix, agree := drop c.agree ix, apart := drop c.apart ix })
        (onMgmt (fun m => dclearBits Ent.pairSuspect (2 ^ ix) (dclearBits Ent.pairDisagree (2 ^ ix) m)) x1)
    else x1

/-! ### The flow margin (R386–R388, R423) -/

/-- Q_avail of a frame in 10⁻⁶ L/min, to that resolution. -/
def qAvail (x : Module) : Nat :=
  let pf : Int := (x.mgmt.cool.supply : Int) - x.mgmt.cool.ret + (if (runnablePump x).isSome then 800 else 0)
  isqrt (45000000 * 45000000 * pf.toNat / 1200)

/-- Q_60 in L/min from the windows' sums. -/
def qMean (ws : List Nat) : Rat := if ws.isEmpty then 0 else mkRat (((ws.foldl (· + ·) 0 : Nat) : Int)) (1000 * 1000000 * ws.length)

/-- FLOW_MARGIN_EVAL: every 1,000 frames. -/
def flowMarginEval (x : Module) : Module :=
  if !skourUp x ∨ x.mgmt.cool.qCount < 1000 then x
  else
    let ws := (x.mgmt.cool.qSum :: x.mgmt.cool.qWins).take 60
    let q := qMean ws
    let need := coldCap x / mkRat 6967 10
    let m : Rat := if need = 0 then 0 else q / need - 1
    let low := decide (need ≠ 0) && decide (m < mkRat 15 100)
    let term : Rat := if low then mkRat 6967 10 * q / mkRat 115 100 else 30000
    let ok := if mkRat 20 100 ≤ m then x.mgmt.cool.marginOk + 1 else 0
    let x1 := editCool (fun c => { c with qWins := ws, qSum := 0, qCount := 0, flowTerm := term, marginOk := ok }) x
    let x2 := setE Ent.flowMargin (ratF32 m) (setE Ent.qAvail (ratF32 q) x1)
    let was := dbit x.mgmt Ent.coolantFlags 0
    let x3 := if low ∧ !was then
        raiseEvent 0x40FF01 (natLe 4 (ratF32 m) ++ natLe 4 (ratF32 q) ++ natLe 4 (ratF32 term))
          (onMgmt (dsetBits Ent.coolantFlags 1) x2)
      else if was ∧ 60 ≤ ok then onMgmt (dclearBits Ent.coolantFlags 1) x2 else x2
    let x4 := editPower (fun p => { p with forecastDue := true }) x3
    let t := x.mgmt.power.throttles.flowTerm
    if term < 11000 ∧ !t then raiseEvent 0x51FF02 (natLe 1 0) (setThrottle (fun t => { t with flowTerm := true }) x4)
    else if t ∧ 12100 ≤ term then setThrottle (fun t => { t with flowTerm := false }) x4
    else x4

/-! ### Zone demands and targets (R381–R384, R421, R428) -/

/-- Linear interpolation in a table of ascending inputs; the ends extend (R381). -/
def interpolate : List (Rat × Rat) → Rat → Rat
  | [], _ => 0
  | [(_, y)], _ => y
  | (a, y) :: (b, z) :: r, v =>
    if v ≤ a then y else if v ≤ b then (if b = a then z else y + (z - y) * (v - a) / (b - a)) else interpolate ((b, z) :: r) v

/-- temp_table as stored, in °C. -/
def tempTable (x : Module) : List (Rat × Rat) :=
  let t := getE x Ent.tempTable
  (List.range 8).map fun i =>
    (mkRat (BitVec.ofNat 16 (bits (32 * i + 15) (32 * i) t)).toInt 10, (bits (32 * i + 23) (32 * i + 16) t : Rat))

/-- pump_table or fan_table. -/
def pctTable (x : Module) (k : Nat) : List (Rat × Rat) :=
  let t := getE x k
  (List.range 8).map fun i => ((bits (16 * i + 7) (16 * i) t : Rat), (bits (16 * i + 15) (16 * i + 8) t : Rat))

/-- A percentage as the sequencers take it: rounded up. -/
def pctUp (q : Rat) : Nat := min 100 q.ceil.toNat

/-- P_next: the predicted input power over period k + 1. -/
def powerNext (x : Module) : Rat :=
  let s := stepNow x.mgmt
  if x.mgmt.module = .running then
    let n := beatsPerSecond s / 4
    let p := peakOver x.mgmt.power.profile (snapCount x.mgmt + n) n
    predict x s p.1 p.2
  else predict x s 0 0

/-- Zone z's weight (R381). -/
def zoneWeight (x : Module) (z : Nat) : Rat :=
  let col : Nat → Nat := fun k => x.mgmt.cool.activity.foldl (fun (n : Nat) l => n + l.getD k 0) 0
  let tot : Nat := (List.range 16).foldl (fun n k => n + col k) 0
  if tot = 0 then mkRat 1 16 else mkRat (col z) tot

/-- Demand d_z for the period that starts (R381); in SAFE_STOP without the floor (R401). -/
def zoneDemand (x : Module) (z : Nat) : Rat :=
  let c := x.mgmt.cool
  let floor : Rat :=
    if zoneTilesOn x.data z ∧ x.mgmt.module ≠ .safeStop then (getE x Ent.dutyFloor : Rat) else 0
  let temp : Rat := if c.hot.any (fun p => p.1 == z) then interpolate (tempTable x) (mkRat (look 0 c.hot z) 20) else 0
  let both := !dbit x.mgmt Ent.otherSensorFaults (8 + 2 * z) && !dbit x.mgmt Ent.otherSensorFaults (9 + 2 * z)
  let outlet : Rat :=
    if both ∧ 0 < c.frames then look 0 c.demand z * (mkRat (look 0 c.rise z) (10 * c.frames) / getF x Ent.dtTarget) else 0
  let fore : Rat := if getE x Ent.forecastEnable = 1 then 100 * powerNext x * zoneWeight x z / 1875 else 0
  max 0 (min 100 (max (max floor temp) (max outlet fore)))

/-- Zones on each wafer side (R382). -/
def sideZones (n : Nat) : List Nat :=
  match n with | 0 => [0, 1, 2, 3] | 1 => [3, 7, 11, 15] | 2 => [12, 13, 14, 15] | _ => [0, 4, 8, 12]

def maxOf (ds : List Rat) : Rat := ds.foldl max 0

/-- In STANDBY with the bus up and no tile domain on (R384). -/
def bypassCooling (x : Module) : Bool := x.mgmt.module == .standby && actOn x && !anyTileOn x.data

/-- The schedule Skour writes for the period that starts (R381–R384, R391, R421). -/
def periodSchedule (x : Module) (ds : List Rat) : Schedule :=
  let iso := fun c => (chanOf x c).window
  let p1 := profile1 x
  if bypassCooling x then
    let duties := (List.range 16).map fun z => if p1 ∧ (z = 5 ∨ z = 10) then 100 else 0
    let fan := pctUp (interpolate (pctTable x Ent.fanTable) 0)
    ⟨duties, [iso 16, iso 17, if p1 then iso 18 else true, iso 19], 0, (List.range 4).map fun n => heldTarget x (16 + n) fan⟩
  else
    let stopped := x.mgmt.cool.watch.stop.isSome && anyTileOn x.data
    let duties := ds.map fun d => if stopped then 100 else pctUp d
    let pump := if stopped then 100 else pctUp (interpolate (pctTable x Ent.pumpTable) (maxOf ds))
    let run := (x.mgmt.act.running).getD (getE x Ent.leadPump)
    ⟨duties, [iso 16, iso 17, p1 && iso 18, iso 19], heldTarget x run pump,
      (List.range 4).map fun n =>
        heldTarget x (16 + n) (pctUp (interpolate (pctTable x Ent.fanTable) (maxOf ((sideZones n).map fun z => ds.getD z 0))))⟩

/-- From a start's prime on, until tile domains are on, the zones and the pump stand as the prime set them (R447). -/
def primed (x : Module) : Bool :=
  (x.mgmt.module == .coldStart || x.mgmt.module == .warmStart) && !anyTileOn x.data &&
    (match x.mgmt.start with | some j => j.primed | none => false)

/-- COOLANT_PERIOD_START (R381, R430): while Skour is away the sequencers repeat the last schedule with its forces. -/
def periodStart (x : Module) : Module :=
  if !skourUp x then x
  else if primed x then editCool (fun c => { c with hot := [], rise := [], frames := 0 }) x
  else
    let ds := (List.range 16).map (zoneDemand x)
    let s := periodSchedule x ds
    let stopped := x.mgmt.cool.watch.stop.isSome && anyTileOn x.data
    let x1 := editCool (fun c => { c with
      hot := [], rise := [], frames := 0
      demand := (List.range 16).foldl (fun m z => put 0 m z (ds.getD z 0)) []
      duty := (List.range 16).foldl (fun m z => put 0 m z (s.duties.getD z 0)) []
      bypass := bypassCooling x && !profile1 x }) (if stopped then x else endForces x)
    writeSchedule s x1

/-! ### Each frame's part of the policy -/

/-- Mean of the usable zone inlet readings × their number, and the number. -/
def inletSum (m : Mgmt) : Int × Nat :=
  (List.range 16).foldl (fun (a : Int × Nat) z =>
    if dbit m Ent.otherSensorFaults (8 + 2 * z) ∨ !(m.cool.zoneIn.any fun p => p.1 == z) then a
    else (a.1 + look 0 m.cool.zoneIn z, a.2 + 1)) (0, 0)

/-- A converter block has a usable sensor at or above 105.0 °C. -/
def convHotNow (m : Mgmt) (b : Nat) : Bool :=
  (List.range 2).any fun n => !dbit m Ent.otherSensorFaults (2 * b + n) && decide (1050 ≤ look 0 m.cool.conv (2 * b + n))

/-- A tile domain came on during a flow stop: the throttle is written (R391). -/
def syncFlowStop (x : Module) : Module :=
  onlyIf (x.mgmt.cool.watch.stop.isSome && anyTileOn x.data && !x.mgmt.power.throttles.flowStop)
    (setThrottle fun t => { t with flowStop := true }) x

/-- The frame readings enter the policy's accumulators. -/
def coolFrame (x0 : Module) : Module :=
  let x := noteHot (syncFlowStop x0)
  let c := x.mgmt.cool
  let cool := allCool x
  let rise := (List.range 16).foldl (fun (m : SMap Int) z =>
    upd 0 m z (fun t => t + (look 0 c.zoneOut z - look 0 c.zoneIn z))) c.rise
  let (sum, n) := inletSum x.mgmt
  let act := (List.range 16).map fun z => leNat ((x.mgmt.joints.snapshot.drop (32 + z)).take 1)
  let x1 := editCool (fun c => { c with
    flowMean := if c.flowN = 0 then c.flow else mkRat c.flowSum c.flowN, flowSum := 0, flowN := 0
    rise := rise, frames := c.frames + 1, activity := (act :: c.activity).take 16
    qSum := c.qSum + qAvail x, qCount := c.qCount + 1
    clamp := c.clamp.map fun p => (p.1 + 1, if c.thermalStep = 12 then p.2 + 1 else 0)
    coolFrames := if cool then c.coolFrames + 1 else 0
    convHot := (List.range 4).foldl (fun m b => if convHotNow x.mgmt b then upd 0 m b (· + 1) else drop m b) c.convHot
    inletHot := if n ≠ 0 ∧ 400 * (n : Int) < sum then c.inletHot + 1 else 0
    inletCold := if n ≠ 0 ∧ sum < 170 * (n : Int) then c.inletCold + 1 else 0
    hotTold := c.hotTold && decide (n ≠ 0 ∧ 400 * (n : Int) < sum)
    coldTold := c.coldTold && decide (n ≠ 0 ∧ sum < 170 * (n : Int)) }) x
  onMgmt (fun m => (poweredTiles x).foldl (fun m ix => pairFrame ix m) m) x1

/-- CONVERTER_OVERTEMP (R396). -/
def converterOvertemp (b : Nat) (x : Module) : Module :=
  if 10 < look 0 x.mgmt.cool.convHot b then converterFault b x else x

/-- One side of R397: its flag, and its event once for each time that the mean leaves the range. -/
def inletOut (bit : Nat) (told : Bool) (x : Module) : Module :=
  let (sum, n) := inletSum x.mgmt
  let x1 := onMgmt (dsetBits Ent.coolantFlags bit) x
  if told then x1 else raiseEvent 0x40FF05 (natLe 2 (i16 (if n = 0 then 0 else sum / (n : Int)))) x1

/-- INLET_TEMP_OUT_OF_RANGE (R397). -/
def inletTemp (x : Module) : Module :=
  let c := x.mgmt.cool
  let x1 := if 1000 < c.inletHot then editCool (fun c => { c with hotTold := true }) (inletOut 8 c.hotTold x) else x
  if 1000 < c.inletCold then editCool (fun c => { c with coldTold := true }) (inletOut 16 c.coldTold x1) else x1

end Sys2Proof.Machine
end

