-- ==== Sys2Proof/Machine/RackBus.lean ====
section
/-!
DEFINITION. The rack bus (chapter 15) and the time on it: channels and addresses, joining, identifiers, the schedule matrix,
the reference and precision time, queues, alarms, status, error confinement and collisions; and the rack manager's silence
(R461, R462).
-/

namespace Sys2Proof.Machine

/-! ### Silence (R461, R462) -/

/-- autonomous follows rack_alive and host_alive. -/
def syncAutonomy (x : Module) : Module :=
  let v := b2n (decide (getE x Ent.rackAlive = 0) && !x.mgmt.joints.hostAlive)
  if v = getE x Ent.autonomous then x
  else
    let x1 := setE Ent.autonomous v x
    raiseEvent 0x20FF03 (natLe 1 v) (if v = 1 then incE Ent.autonomyEvents x1 else x1)

/-- rack_alive takes a value. -/
def setRackAlive (v : Nat) (x : Module) : Module :=
  if v = getE x Ent.rackAlive then x
  else syncAutonomy (raiseEvent 0x20FF01 (natLe 1 v) (setE Ent.rackAlive v x))

/-- The rack manager has been heard. -/
def rackHeard (x : Module) : Module := setRackAlive 1 (editJoints (fun j => { j with rackLast := some x.ts }) x)

/-- RACK_ALIVE_TIMEOUT: nothing from the rack manager for 5 s. -/
def rackAliveTimeout (x : Module) : Module :=
  match x.mgmt.joints.rackLast with
  | some t => if skourUp x ∧ 5000000000 < sinceT x t then setRackAlive 0 x else x
  | none => if skourUp x then setRackAlive 0 x else x

/-! ### Channels and addresses (R469–R472) -/

def busOf (x : Module) (c : Nat) : BusChan := look BusChan.off x.mgmt.bus.chans c
def editChannel (c : Nat) (f : BusChan → BusChan) (x : Module) : Module :=
  editBus (fun b => { b with chans := insertKey b.chans c (f (look BusChan.off b.chans c)) }) x

/-- The channel sends: error-active or error-passive. -/
def chanUp (x : Module) (c : Nat) : Bool := (busOf x c).st == .active || (busOf x c).st == .passive

/-- The address: node_address, or the straps; 0 when neither is an address (R470). -/
def addressOf (m : Mgmt) : Nat :=
  let n := dget m Ent.nodeAddress
  let s := dget m Ent.strapAddress
  if 2 ≤ n ∧ n ≤ 31 then n else if 2 ≤ s ∧ s ≤ 31 then s else 0

/-- The address in force. -/
def ownAddress (x : Module) : Nat := getE x Ent.addressInUse

/-- nbt at a nominal rate. -/
def nbtOf (rate : Nat) : Nat :=
  0x003E0F0F + 2 ^ 24 * (if rate = 500 then 1 else if rate = 250 then 3 else if rate = 125 then 7 else 0)
/-- dbt at a data rate. -/
def dbtOf (mbit : Nat) : Nat := if mbit = 4 then 0x000D0404 else if mbit = 2 then 0x001C0909 else 0x000A0303
/-- tdc_offset: tseg1 + 1 of the data rate (R472). -/
def tdcOffset (mbit : Nat) : Nat := if mbit = 4 then 15 else if mbit = 2 then 30 else 12

/-- The data-phase registers follow data_rate; the last accepted loop delay stands. -/
def dataRegs (c : Nat) (x : Module) : Module :=
  let r := getE x Ent.dataRate
  setE (Ent.tdc + c) (2 ^ 16 * tdcOffset r + 0x0800 + getE x (Ent.tdc + c) % 256) (setE (Ent.dbt + c) (dbtOf r) x)

/-- A measured loop delay (R472): below tdc_filter it is discarded. -/
def measureLoop (c quanta : Nat) (x : Module) : Module :=
  let v := getE x (Ent.tdc + c)
  if quanta < 8 ∨ 255 < quanta then x else setE (Ent.tdc + c) (v - v % 256 + quanta) x

/-- The channel joins at a rate as an error-active node; without an address it stays listen-only (R470, R473). -/
def joinAt (c rate : Nat) (x : Module) : Module :=
  let x1 := dataRegs c (setE (Ent.nbt + c) (nbtOf rate) x)
  let x2 := setE (Ent.rec + c) 0 (setE (Ent.tec + c) 0 (onMgmt (dclearBits (Ent.chanFlags + c) 0x14) x1))
  editChannel c (fun b => { b with st := if ownAddress x = 0 then .listen else .active, dwell := 0, dwells := 0, edges := false }) x2

/-- An accepted data_rate write: both channels use it, and a mismatch is over (R471, R474). -/
def writeDataRate (x : Module) : Module :=
  repeatN (fun c y => dataRegs c (editChannel c (fun b => { b with muted := false }) y)) 2 x

/-- The rates in the order detection listens at them. -/
def rateAt (dwell : Nat) : Nat := [1000, 500, 250, 125].getD dwell 1000

/-- A channel joins (R473, R475). -/
def joinChan (c : Nat) (x : Module) : Module :=
  let x1 := onMgmt (dclearBits (Ent.chanFlags + c) 0x14) x
  match getE x Ent.rateMode with
  | 0 => editChannel c (fun b => { b with st := .detecting, dwell := 0, dwells := 0, edges := false }) x1
  | n => joinAt c ([125, 250, 500, 1000].getD (n - 1) 1000) x1

/-- The address takes force on both channels (R470, R497). -/
def takeAddress (x : Module) : Module :=
  let a := addressOf x.mgmt
  let x1 := setE Ent.addressInUse a x
  if a = 0 then
    let x2 := repeatN (fun c y => if chanUp y c then editChannel c (fun b => { b with st := .listen }) y else y) 2 x1
    raiseEvent 0x11FF01 (natLe 1 (getE x Ent.strapAddress)) x2
  else
    repeatN (fun c y => if (busOf y c).st = .listen then editChannel c (fun b => { b with st := .active }) y else y) 2 x1

/-! ### Rate detection (R473, R474) -/

/-- RATE_DETECT_DWELL: 150 ms at one rate; `edges` tells whether any edge was seen. -/
def rateDwell (c : Nat) (edges : Bool) (x : Module) : Module :=
  if (busOf x c).st = .detecting then
    editChannel c (fun b => { b with dwell := (b.dwell + 1) % 4, dwells := b.dwells + 1, edges := b.edges || edges }) x
  else x

/-- RATE_FOUND: two good frames in a row; `brsFails` when FD frames with BRS fail their CRC at this rate. -/
def rateFound (c : Nat) (brsFails : Bool) (x : Module) : Module :=
  if (busOf x c).st = .detecting then
    let r := rateAt (busOf x c).dwell
    let x1 := joinAt c r (setE (Ent.nominalRate + c) r x)
    if brsFails then
      raiseEvent 0x11FF03 (natLe 1 c ++ natLe 2 r)
        (editChannel c (fun b => { b with muted := true }) (onMgmt (dsetBits (Ent.chanFlags + c) 0x80) x1))
    else x1
  else x

/-- RATE_DETECT_TIMEOUT: five full cycles without a rate. -/
def rateTimeout (c : Nat) (x : Module) : Module :=
  let b := busOf x c
  if b.st ≠ .detecting ∨ b.dwells < 20 then x
  else if !b.edges then joinAt c (getE x (Ent.nominalRate + c)) x
  else if dbit x.mgmt (Ent.chanFlags + c) 4 then x
  else raiseEvent 0x11FF02 (natLe 1 c) (onMgmt (dsetBits (Ent.chanFlags + c) 0x10) x)

/-! ### Identifiers and classes (R476–R478) -/

/-- The priority class of a message class; none for a reserved class (R477). -/
def priorityOf (cls : Nat) : Option Nat :=
  match cls with
  | 0 => some 0 | 1 => some 1 | 2 => some 2 | 4 => some 5 | 5 => some 6 | 8 => some 4 | 9 => some 3 | 31 => some 7
  | _ => none

/-- An identifier. -/
def identOf (cls source selector : Nat) : BitVec 29 :=
  BitVec.ofNat 29 ((priorityOf cls).getD 7 * 2 ^ 26 + cls * 2 ^ 21 + source * 2 ^ 13 + selector)

/-- A frame that R477 ignores. -/
def ignoredIdent (i : BitVec 29) : Bool :=
  let v := i.toNat
  let src := bits 20 13 v
  decide (priorityOf (bits 25 21 v) ≠ some (bits 28 26 v)) || src == 0 || decide (31 < src)

/-- RACK_BUS_FRAME_IGNORED. -/
def frameIgnored (i : BitVec 29) (x : Module) : Module := if ignoredIdent i then incE Ent.framesIgnored x else x

/-- The data length a DLC can encode that holds `n` bytes (R478). -/
def dlcLen (n : Nat) : Nat :=
  if n ≤ 8 then n else ([12, 16, 20, 24, 32, 48, 64].find? fun k => decide (n ≤ k)).getD 64
/-- Data padded with zeros to it. -/
def dlcPad (bs : List Byte) : List Byte := bs ++ List.replicate (dlcLen bs.length - bs.length) 0

/-! ### Sending (R482, R483, R488, R489, R494, R495) -/

/-- A frame or datagram leaves: the model's output latch keeps the last 64 (log 8). -/
def emit (s : Sent) (x : Module) : Module :=
  editBus (fun b => let l := b.sent ++ [s]; { b with sent := l.drop (l.length - 64) }) x

/-- A channel may carry this class: after a data rate mismatch only class 0 messages leave (R474). -/
def mayCarry (x : Module) (c cls : Nat) : Bool := chanUp x c && (cls == 0 || !(busOf x c).muted)

/-- The queue in identifier order, lowest first, equal ones in order of arrival (R488). -/
def queueIn (m : QMsg) : List QMsg → List QMsg
  | [] => [m]
  | q :: r => if m.ident.toNat < q.ident.toNat then m :: q :: r else q :: queueIn m r

/-- A message is queued on a channel: with 24 waiting an event is dropped (R488). -/
def queueMsg (c : Nat) (m : QMsg) (x : Module) : Module :=
  if m.cls = 5 ∧ 24 ≤ (busOf x c).queue.length then
    onMgmt (dsetBits (Ent.chanFlags + c) 0x40) (incE Ent.eventsDropped x)
  else editChannel c (fun b => { b with queue := queueIn m b.queue }) x

/-- The channel a message for channel `c` goes on: the other while `c` is bus-off or off (R495). -/
def channelFor (x : Module) (c : Nat) : Option Nat :=
  let down := fun n => (busOf x n).st == .recovering || (busOf x n).st == .closed || (busOf x n).st == .off
  if !down c then some c else if !down (1 - c) then some (1 - c) else none

/-- Messages leave a channel, and the rest stays. -/
def sendQueued (c : Nat) (go stay : List QMsg) (x : Module) : Module :=
  go.foldl (fun y m => emit ⟨c, m.ident, m.data⟩ y) (editChannel c (fun b => { b with queue := stay }) x)

/-- The class 0 messages waiting on a channel leave at the bus idle, in a window of any type (R483, R490). -/
def sendUrgent (c : Nat) (x : Module) : Module :=
  let (go, stay) := (busOf x c).queue.partition fun m => m.cls == 0 && chanUp x c
  sendQueued c go stay x

/-- Data-phase bits of a frame of `n` bytes with the largest number of stuff bits (R483; DEDUCED for other lengths than 64, log
90). -/
def dataBits (n : Nat) : Nat :=
  let b := 5 + 8 * n
  b + b / 4 + (if n ≤ 16 then 27 else 32)

/-- A frame's worst length in µs, with its intermission (R483). -/
def worstUs (rate mbit n : Nat) : Nat := ceilDiv (57 * 1000 * mbit + dataBits n * rate) (rate * mbit)

/-- A channel's nominal rate in force, in kbit/s. -/
def rateInForce (x : Module) (c : Nat) : Nat := 1000 / (getE x (Ent.nbt + c) / 2 ^ 24 + 1)

/-- latest_start in µs after the window's start (R482, R483). -/
def latestStart (x : Module) (c : Nat) : Nat :=
  625 - 10 - worstUs (rateInForce x c) (getE x Ent.dataRate) 64

/-- Of the waiting messages, in their order, those whose worst lengths fit one after another into `us` µs: how many. -/
def fitCount (rate mbit : Nat) : Nat → List QMsg → Nat
  | _, [] => 0
  | us, m :: r =>
    let w := worstUs rate mbit (dlcLen m.data.length)
    if w ≤ us then fitCount rate mbit (us - w) r + 1 else 0

/-- A window passes on a channel (R483, R488): in an arbitrating one the messages leave that fit before its end less 10 µs, in
identifier order; after a data rate mismatch, and in any other window, only those of class 0. -/
def drainWindow (c win : Nat) (x0 : Module) : Module :=
  let x := sendUrgent c x0
  let q := (busOf x c).queue
  if win ≠ 2 ∨ !mayCarry x c 1 then x
  else
    let n := fitCount (rateInForce x c) (getE x Ent.dataRate) 615 q
    sendQueued c (q.take n) (q.drop n) x

/-- How a cancel meets the frame (R489): before its start, or after it with the frame's end. -/
inductive CancelMeets where
  | before | completed | lost
deriving DecidableEq, Repr

/-- MESSAGE_CANCEL: message `n` of the queue; the result reads in `cancelled` (true: cancelled; false: too late). -/
def cancelMessage (c n : Nat) (k : CancelMeets) (x : Module) : Module :=
  match (busOf x c).queue[n]? with
  | none => x
  | some m =>
    let x1 := editChannel c (fun b => { b with
      queue := removeAt b.queue n, cancelled := some (decide (k ≠ .completed)) }) x
    if k = .completed then emit ⟨c, m.ident, m.data⟩ x1 else x1

/-! ### The schedule matrix (R479–R481) -/

/-- The basic cycle in progress. -/
def basicCycle (x : Module) : Nat := x.ts.toNat / 10000000

/-- Entry `n` of a matrix. -/
def windowEntry (matrix n : Nat) : Nat := bits (32 * n + 31) (32 * n) matrix
def winType (e : Nat) : Nat := bits 31 30 e
def winOwner (e : Nat) : Nat := bits 29 25 e
def winClass (e : Nat) : Nat := bits 24 20 e
def winSelector (e : Nat) : Nat := bits 19 7 e

/-- A matrix keeps R481. -/
def matrixFits (m : Nat) : Bool :=
  let w0 := (List.range 8).map fun i => windowEntry m (16 * i)
  w0.all (fun e => winType e == 1 && winClass e == 1 && winOwner e == winOwner (windowEntry m 0)) &&
    (List.range 128).all fun n =>
      let e := windowEntry m n
      winType e != 1 || !(winClass e == 0 || winClass e == 8 || winClass e == 9)

/-- The owner of window 0 rewritten in every basic cycle. -/
def withOwner (m owner : Nat) : Nat :=
  (List.range 8).foldl (fun v i =>
    let k := 32 * 16 * i
    v - bits (k + 29) (k + 25) v * 2 ^ (k + 25) + owner * 2 ^ (k + 25)) m

/-- A matrix with its reserved bits zero (R3, R480). -/
def maskMatrix (m : Nat) : Nat := (List.range 128).foldl (fun v n => v + 2 ^ (32 * n) * (windowEntry m n / 128 * 128)) 0

/-- An accepted matrix write (R481): it takes force at the next matrix cycle start. -/
def writeMatrix (m0 : Nat) (x : Module) : Module :=
  let m := maskMatrix m0
  incE Ent.matrixGen (editBus (fun b => { b with matrixDue := some m, gnomonDue := some (winOwner (windowEntry m 0)) }) x)

/-- An accepted gnomon_node write (R481). -/
def writeGnomon (n : Nat) (x : Module) : Module :=
  let m := x.mgmt.bus.matrixDue.getD (getE x Ent.matrix)
  incE Ent.matrixGen (editBus (fun b => { b with matrixDue := some (withOwner m n), gnomonDue := some n }) x)

/-- A channel's collisions are counted anew once its flag is cleared (R496). -/
def forgetCollisions (c : Nat) (x : Module) : Module :=
  setE (Ent.collisions + c) 0 (editChannel c (fun b => { b with collisions := 0 }) x)

/-- An accepted node_address write (R470, R497): collisions clear at once, the address at the next basic cycle start. -/
def clearCollisions (x : Module) : Module :=
  repeatN (fun c y => editChannel c (fun b => { b with
    st := if b.st = .listen ∧ ownAddress y ≠ 0 then .active else b.st })
      (forgetCollisions c (onMgmt (dclearBits (Ent.chanFlags + c) 8) y))) 2 x

/-- Basic cycle start: a new address, the references' ages, and exclusive sending again once time_source has left 2; at a
matrix cycle start the new matrix (R470, R481, R485, R487). -/
def cycleStart (x : Module) : Module :=
  let x1 := if x.mgmt.bus.addressDue then takeAddress (editBus (fun b => { b with addressDue := false }) x) else x
  let x2 := editBus (fun b => { b with
    refUsable := b.refUsable + 1, refAny := b.refAny + 1
    exclusive := b.exclusive || decide (getE x1 Ent.timeSource ≠ 2) }) x1
  if basicCycle x % 8 = 0 then
    let put := fun (k : Nat) (o : Option Nat) (y : Module) => match o with | some v => setE k v y | none => y
    editBus (fun b => { b with matrixDue := none, gnomonDue := none })
      (put Ent.matrix x2.mgmt.bus.matrixDue (put Ent.gnomonNode x2.mgmt.bus.gnomonDue x2))
  else x2

/-- The module sends in exclusive windows: no collision flag stands, and it has not run free too long (R487, R496). -/
def exclusiveOk (x : Module) : Bool :=
  x.mgmt.bus.exclusive && !dbit x.mgmt Ent.chanFlags 3 && !dbit x.mgmt (Ent.chanFlags + 1) 3

/-! ### Time (R484–R487, R524) -/

/-- TSCLK is corrected by `offset` ns: a step above 100 µs, a slew otherwise. -/
def correctTime (offset : Int) (x : Module) : Module :=
  if 100000 < offset.natAbs then editBus (fun b => { b with slew := 0 }) { x with ts := x.ts + BitVec.ofInt 64 offset }
  else editBus (fun b => { b with slew := offset }) x

/-- The part of the slew that one frame of 1 ms takes at 100 ppm. -/
def slewPart (s : Int) : Int := max (-100) (min 100 s)

/-- time_source as R484 keeps it. -/
def sourceNow (x : Module) : Nat :=
  if getE x Ent.ptpState = 3 then 0 else if x.mgmt.bus.refUsable ≤ 2 then 1 else 2

/-- TIME_SOURCE_CHANGE. -/
def timeSourceChange (x : Module) : Module :=
  let old := getE x Ent.timeSource
  let new := sourceNow x
  if old = new ∨ !skourUp x then x
  else
    raiseEvent 0x12FF01 (natLe 1 old ++ natLe 1 new)
      (setE Ent.timeSource new (editBus (fun b => { b with freeSince := if new = 2 then some x.ts else none }) x))

/-- FREE_RUNNING_TIMEOUT. -/
def freeRunningTimeout (x : Module) : Module :=
  match x.mgmt.bus.freeSince with
  | some t =>
    if getE x Ent.timeSource = 2 ∧ 10000000000 ≤ sinceT x t then editBus (fun b => { b with exclusive := false }) x else x
  | none => x

/-- REFERENCE: a reference received on channel `c` without error: the sender's t_s and time_source, TSCLK at its SOF, and
whether the bus was idle for 11 bits before it (R486). -/
def referenceIn (c : Nat) (ts tr : W64) (src : Nat) (idle : Bool) (x : Module) : Module :=
  if !chanUp x c ∧ (busOf x c).st ≠ .listen then x
  else
    let off : Int := (ts - tr).toInt
    let x1 := setE Ent.gnomonOffset (ratF32 (off : Rat)) (editBus (fun b => { b with refAny := 0 }) x)
    if src = 0 ∧ idle then
      let x2 := editBus (fun b => { b with refUsable := 0 }) x1
      if getE x Ent.timeSource = 1 then correctTime off x2 else x2
    else x1

/-- The module sends the reference: as gnomon, or as backup once two basic cycles have passed without one (R485). -/
def sendsReference (x : Module) : Bool :=
  let a := ownAddress x
  a != 0 && ((getE x Ent.gnomonNode == a && getE x Ent.timeSource == 0) ||
    (getE x Ent.gnomonBackup == a && decide (3 ≤ x.mgmt.bus.refAny)))

/-- REFERENCE_SEND on a channel at a basic cycle start; `loop` is the measured loop delay in quanta (R472). While Skour is away
the last data repeats (R454). -/
def referenceSend (c loop : Nat) (x : Module) : Module :=
  if sendsReference x ∧ exclusiveOk x ∧ mayCarry x c 1 then
    let n := basicCycle x
    let d := if skourUp x then
        natLe 8 (n * 10000000) ++ natLe 1 (n % 8) ++ natLe 1 (getE x Ent.timeSource) ++ List.replicate 6 0
      else x.mgmt.bus.lastRef
    if d = [] then x
    else measureLoop c loop (emit ⟨c, identOf 1 (ownAddress x) (n % 8), d⟩ (editBus (fun b => { b with lastRef := d }) x))
  else x

/-- ptp_state leaves locked for uncalibrated. -/
def ptpUncalibrate (x : Module) : Module :=
  let x1 := editBus (fun b => { b with ptpGood := 0 }) x
  if 2 ≤ getE x Ent.ptpState then setE Ent.ptpState 2 x1 else x1

/-- PTP_SYNC: a Sync of a master with its measured offset in ns (R524). -/
def ptpSync (offset : Int) (x : Module) : Module :=
  if getE x Ent.ptpEnable ≠ 1 ∨ getE x Ent.ptpState = 0 then x
  else
    let n := if offset.natAbs ≤ 1000 then x.mgmt.bus.ptpGood + 1 else 0
    let x1 := editBus (fun b => { b with ptpGood := n, ptpLast := x.ts }) (setE Ent.ptpOffset (ratF32 (offset : Rat)) x)
    let st := getE x Ent.ptpState
    let x2 := if st = 1 then setE Ent.ptpState 2 x1 else x1
    let x3 := if 10000 < offset.natAbs then ptpUncalibrate x2
      else if 16 ≤ n then setE Ent.ptpState 3 x2 else x2
    correctTime (-offset) x3

/-- PTP_SYNC_TIMEOUT: no Sync for 3 s. -/
def ptpTimeout (x : Module) : Module :=
  if getE x Ent.ptpState = 3 ∧ 3000000000 ≤ sinceT x x.mgmt.bus.ptpLast then ptpUncalibrate x else x

/-- BEST_MASTER_CHANGE: another clockIdentity is selected. -/
def bestMaster (master : W64) (x : Module) : Module :=
  if getE x Ent.ptpState = 0 ∨ getE x Ent.ptpMaster = master.toNat then x
  else
    let x1 := setE Ent.ptpMaster master.toNat x
    if getE x Ent.ptpState = 1 then setE Ent.ptpState 2 x1 else ptpUncalibrate x1

/-- An accepted ptp_enable write: disabled, or listening with no master. -/
def writePtpEnable (v : Nat) (x : Module) : Module :=
  if v = 0 then setE Ent.ptpState 0 (editBus (fun b => { b with ptpGood := 0 }) x)
  else if getE x Ent.ptpState = 0 then setE Ent.ptpState 1 x else x

/-! ### Alarms (R490, R494) -/

/-- An alarm's 16 bytes. -/
def alarmData (a : Alarm) : List Byte :=
  natLe 2 a.seq ++ natLe 1 a.code ++ natLe 1 a.cause ++ natLe 1 (modCode a.module) ++ natLe 3 0 ++ natLe 8 a.time.toNat

/-- The Ethernet targets: address and port. -/
def targetsOf (x : Module) : List (Nat × Nat) :=
  let t := getE x Ent.eventTargets
  ((List.range 8).map fun i => (bits (144 * i + 127) (144 * i) t, bits (144 * i + 143) (144 * i + 128) t)).filter
    fun p => p.2 ≠ 0

/-- A datagram's 16 B header (R523). -/
def datagramHeader (kind tag : Nat) : List Byte :=
  natLe 2 0x4B44 ++ natLe 1 1 ++ natLe 1 kind ++ natLe 2 tag ++ List.replicate 10 0

/-- An alarm's data as an event over the management Ethernet port, padded to an event record's 48 B (log 90). -/
def etherAlarm (data : List Byte) (x : Module) : Module :=
  (targetsOf x).foldl (fun y _ => emit ⟨2, 0, datagramHeader 3 0 ++ data ++ List.replicate (48 - data.length) 0⟩ y) x

/-- An alarm goes out on both channels at once: at the first bus idle where a channel is up, waiting where it recovers; over
the management Ethernet port, as an event to its targets, when both are bus-off or off (R494). -/
def sendAlarm (a : Alarm) (x : Module) : Module :=
  let m : QMsg := ⟨identOf 0 (ownAddress x) 0, 0, alarmData a⟩
  let x1 := repeatN (fun c y =>
    if mayCarry y c 0 then emit ⟨c, m.ident, m.data⟩ y
    else if (busOf y c).st = .recovering then queueMsg c m y else y) 2 x
  if (channelFor x 0).isNone then etherAlarm m.data x1 else x1

/-- A send counted. -/
def bumpAlarm (seq : Nat) (x : Module) : Module :=
  editBus (fun b => { b with
    alarms := b.alarms.map fun a =>
      if a.seq = seq then { a with repeats := a.repeats + 1, sentAt := x.ts } else a }) x

/-- SAFETY_ALARM of this module: every alarm whose condition has begun and that has not been sent. -/
def alarmsOut (x : Module) : Module :=
  if !skourUp x then x
  else (x.mgmt.bus.alarms.filter fun a => a.repeats == 0).foldl (fun y a => bumpAlarm a.seq (sendAlarm a y)) x

/-- SAFETY_ALARM of another module: one copy is kept per source and alarm_seq. -/
def alarmIn (c : Nat) (i : BitVec 29) (bs : List Byte) (x : Module) : Module :=
  if ignoredIdent i then frameIgnored i x
  else if (!chanUp x c ∧ (busOf x c).st ≠ .listen) ∨ bits 25 21 i.toNat ≠ 0 ∨ bs.length ≠ 16 then x
  else
    let r := natLe 1 (bits 20 13 i.toNat) ++ bs
    if x.mgmt.bus.heard.any fun h => h.take 3 == r.take 3 then x
    else editBus (fun b => { b with heard := (r :: b.heard).take 64 }) x

/-- ALARM_REPEAT: 1 s after the last send while the condition lasts, up to 10 times. -/
def alarmRepeat (seq : Nat) (x : Module) : Module :=
  match x.mgmt.bus.alarms.find? fun a => a.seq == seq with
  | some a =>
    if skourUp x ∧ 1 ≤ a.repeats ∧ a.repeats ≤ 10 ∧ 1000000000 ≤ sinceT x a.sentAt then bumpAlarm seq (sendAlarm a x)
    else x
  | none => x

/-- RACK_HEARTBEAT (R477). -/
def rackHeartbeat (c source : Nat) (x : Module) : Module :=
  if skourUp x ∧ chanUp x c ∧ source = 1 then rackHeard x else x

/-! ### Status (R482, R491) -/

/-- hottest_used as the management plane last derived it, in 0.1 °C. -/
def hottestUsed (x : Module) : Option (Nat × Int) :=
  (poweredTiles x).foldl (fun acc ix =>
    let v := usedReading x ix
    match acc with | some (_, w) => if w < v then some (ix, v) else acc | none => some (ix, v)) none

/-- The first 24 bytes of a status, from the frame boundary before its window. -/
def statusHead (x : Module) : List Byte :=
  let down := fun c => (busOf x c).st == .closed || (busOf x c).st == .off
  let hot : Int := match hottestUsed x with | some (_, v) => v / 2 | none => 0
  natLe 1 (modCode x.mgmt.module) ++
    natLe 1 (getE x Ent.rackAlive + 2 * b2n x.mgmt.joints.hostAlive + 4 * b2n x.mgmt.joints.out.throttle +
      8 * b2n (decide (getE x Ent.timeSource ≠ 0)) + 16 * b2n (down 0) + 32 * b2n (down 1)) ++
    natLe 1 (stepNow x.mgmt) ++ natLe 1 (getE x Ent.capReason) ++ natLe 4 (getE x Ent.power1s) ++
    natLe 4 (ratF32 (effectiveCap x)) ++ natLe 4 (ratF32 (x.mgmt.cool.flowMean / 100)) ++ natLe 2 (i16 hot) ++ natLe 2 0 ++
    natLe 4 x.mgmt.jNext

/-- The entry of window `w` in the present basic cycle. -/
def windowNow (x : Module) (w : Nat) : Nat := windowEntry (getE x Ent.matrix) (16 * (basicCycle x % 8) + w)

/-- The window is the module's for its status. -/
def statusWindow (x : Module) (w : Nat) : Bool :=
  let e := windowNow x w
  winType e == 1 && winOwner e == ownAddress x && winClass e == 4 && ownAddress x != 0

/-- STATUS_SEND on channel `c` in window `w`, at the bus idle `idle` µs into it, not later than latest_start (R482, R491). It
repeats with its last data while Skour is away (R454). -/
def statusSend (c w idle loop : Nat) (x : Module) : Module :=
  if statusWindow x w ∧ exclusiveOk x ∧ mayCarry x c 4 ∧ idle ≤ latestStart x c ∧ x.mgmt.bus.status ≠ [] then
    let t := if skourUp x then basicCycle x * 10000000 + 625000 * w else x.mgmt.bus.statusTime
    measureLoop c loop (emit ⟨c, identOf 4 (ownAddress x) (winSelector (windowNow x w)), x.mgmt.bus.status ++ natLe 8 t⟩
      (editBus (fun b => { b with statusTime := t }) x))
  else x

/-- EXCLUSIVE_WINDOW_MISSED: the bus is first idle `idle` µs into the window, past latest_start (R482). -/
def windowMissed (c w idle : Nat) (x : Module) : Module :=
  if latestStart x c < idle ∧ (statusWindow x w ∨ (w = 0 ∧ sendsReference x)) ∧ exclusiveOk x ∧ chanUp x c then
    onMgmt (dsetBits (Ent.chanFlags + c) 0x20) (incE (Ent.windowMissed + c) x)
  else x

/-! ### Event messages (R488, R495, R526) -/

/-- EVENT_MESSAGE_SEND: the oldest event record not yet sent goes to its destinations. -/
def eventSend (x : Module) : Module :=
  match x.mgmt.bus.events with
  | [] => x
  | r :: rest =>
    if !skourUp x then x
    else
      let x1 := editBus (fun b => { b with events := rest }) x
      let x2 := match channelFor x (getE x Ent.eventChannel) with
        | some c => if ownAddress x = 0 then x1 else queueMsg c ⟨identOf 5 (ownAddress x) 0, 5, dlcPad r⟩ x1
        | none => x1
      (targetsOf x).foldl (fun y _ => emit ⟨2, 0, datagramHeader 3 0 ++ r⟩ y) x2

/-! ### Error confinement (R492–R495) -/

/-- ERROR_PASSIVE: the channel's error counters as they stand; at 128 it is error-passive, below it error-active. -/
def errorPassive (c tec rec_ : Nat) (x : Module) : Module :=
  if !chanUp x c ∨ 255 < tec then x
  else
    let low := decide (max tec rec_ < 128)
    let x1 := setE (Ent.rec + c) (min 255 rec_) (setE (Ent.tec + c) tec
      (editChannel c (fun b => { b with st := if low then .active else .passive }) x))
    if low ∨ (busOf x c).st = .passive then x1
    else raiseEvent 0x11FF04 (natLe 1 c ++ natLe 2 tec ++ natLe 1 (min 255 rec_)) (onMgmt (dsetBits (Ent.chanFlags + c) 1) x1)

/-- The channel is off: it stays so until it is restarted (R493). -/
def closeChannel (c : Nat) (x : Module) : Module :=
  raiseEvent 0x11FF06 (natLe 1 c) (onMgmt (dsetBits (Ent.chanFlags + c) 4) (editChannel c (fun b => { b with st := .closed }) x))

/-- BUS_OFF: the transmit error counter exceeds 255. What the channel would carry goes on the other; a class 0 message stays
and goes to the other's head as well (R494, R495). -/
def busOff (c tec : Nat) (x : Module) : Module :=
  if !chanUp x c ∨ tec ≤ 255 then x
  else
    let q := (busOf x c).queue
    let x1 := incE (Ent.busOffs + c) (onMgmt (dsetBits (Ent.chanFlags + c) 2) (setE (Ent.tec + c) tec x))
    let recent := (busOf x c).recoveries.filter fun t => decide (sinceT x t < 60000000000)
    let x2 := editChannel c (fun b => { b with st := .recovering, queue := q.filter fun m => m.cls == 0 }) x1
    let x3 := if chanUp x (1 - c) then sendUrgent (1 - c) (q.foldl (fun y m => queueMsg (1 - c) m y) x2)
      else if (busOf x (1 - c)).st = .listen then x2
      else (q.filter fun m => m.cls == 0).foldl (fun y m => etherAlarm m.data y) x2
    let x4 := raiseEvent 0x11FF05 (natLe 1 c ++ natLe 4 (getE x1 (Ent.busOffs + c))) x3
    if 3 ≤ recent.length ∨ getE x Ent.autoRecover = 0 then closeChannel c x4 else x4

/-- BUS_OFF_RECOVERY: 128 × 11 recessive bits; what stayed queued is sent. -/
def busRecovered (c : Nat) (x : Module) : Module :=
  if (busOf x c).st ≠ .recovering then x
  else
    let x1 := setE (Ent.rec + c) 0 (setE (Ent.tec + c) 0 (incE (Ent.recoveries + c) x))
    sendUrgent c (editChannel c (fun b => { b with st := .active, recoveries := (x.ts :: b.recoveries).take 3 }) x1)

/-! ### Collisions (R496, R497) -/

/-- What shows a collision: a frame with the module's own source that it did not send; or two attempts in a row of its own
frame, the queue's first, ending in a bit error at one bit position. -/
inductive CollisionBy where
  | foreign (ident : BitVec 29)
  | repeated (pos1 pos2 : Nat)
deriving DecidableEq, Repr

/-- ADDRESS_COLLISION. -/
def addressCollision (c : Nat) (k : CollisionBy) (x : Module) : Module :=
  let own := ownAddress x
  let seen : Option (BitVec 29) := match k with
    | .foreign i => if bits 20 13 i.toNat = own ∧ own ≠ 0 then some i else none
    | .repeated a b => if a = b then some (((busOf x c).queue.head?.map fun m => m.ident).getD (identOf 1 own (basicCycle x % 8))) else none
  match seen with
  | none => x
  | some i =>
    if !chanUp x c then x
    else
      let n := (busOf x c).collisions + 1
      let x1 := onMgmt (dsetBits (Ent.chanFlags + c) 8) (setE (Ent.collisions + c) (min 255 n) x)
      let x2 := editChannel c (fun b => { b with
        collisions := n, queue := match k with | .repeated .. => b.queue.drop 1 | _ => b.queue }) x1
      if n = 3 then raiseEvent 0x11FF07 (natLe 1 c ++ natLe 4 i.toNat) (editChannel c (fun b => { b with st := .listen }) x2)
      else x2

/-- An accepted channel_restart write: the channels of its bits join again (R493). -/
def restartChannels (v : Nat) (x : Module) : Module :=
  repeatN (fun c y => if v.testBit c ∧ (busOf y c).st ≠ .off then joinChan c y else y) 2 x

/-- chan_state's code (R503). -/
def busCode : BusSt → Nat
  | .off => 0 | .detecting => 1 | .active => 2 | .passive => 3 | .recovering => 4 | .closed => 5 | .listen => 6

end Sys2Proof.Machine
end

