-- ==== Sys2Proof/Machine/RunJoint.lean ====
section
/-!
DEFINITION. The joints J2 and J4 as Skour and run control use them: what a run-control command changes beyond the control
plane, order requests and verdicts (R305, R306, R358), the state word and the placement word (R17, R24, R528), the profile,
the stop's completion, snapshots and placement records, loads on both planes (R16, R308).
-/

namespace Sys2Proof.Machine

/-! ### What run control's commands carry to the data plane -/

/-- The data plane adopts a system description (R16, R241): assembly begins anew, and engines on uncabled sides go off. -/
def adoptDesc (e : Env) (s : SysDesc) (d0 : Data) : Data :=
  let marks := d0.beat.marking
  let d := { d0 with desc := some s }
  let d1 := repeatN (fun i y => if uncabled y (engineSide i) then editEngine i (fun _ => Engine.off) y else y) 48 d
  let anyOn := d1.engines.any fun p => p.2.on
  let done := anyOn && allTrained d1
  let d2 := { d1 with
    plumb := { Plumb.reset with trained := done, trainedAt := e.ts, wordDue := done, lastSent := d1.beat.tick } }
  if marks then assembleOne e d2 else d2

/-- The effect of a judged command on the data plane. -/
def applyCarry (r : Ctrl × Carry) (x : Module) : Module :=
  let x1 := { x with ctrl := r.1 }
  match r.2 with
  | .nothing => x1
  | .loadBegun => onData (loadBegin (envOf x)) x1
  | .described s => onData (adoptDesc (envOf x) s) x1
  | .restored => match x1.data.place.image with
    | some i => onData (restoreApply (envOf x) i) x1
    | none => x1

/-- Every header of a restore into the loaded image fits (R290). -/
def restoreFitsNow (d : Data) : Bool := match d.place.image with | some i => restoreFits i d | none => false

/-- A run-control command of a host (R303–R308). That a failover has settled and that a restore fits are read from the data
plane as they stand (log 88). -/
def hostCommand (m : Msg) (cmd : RunCmd) (x : Module) : Module :=
  applyCarry (arrive (cenvOf x) (restoreFitsNow x.data) (settled x.data) (repairOf x.ctrl.repair) m cmd x.ctrl) x

/-- The next waiting command is judged (R303). -/
def judgeWaiting (x : Module) : Module :=
  applyCarry (judgeNext (cenvOf x) (restoreFitsNow x.data) (settled x.data) (repairOf x.ctrl.repair) x.ctrl) x

/-- Waiting commands are judged until one of them awaits its verdict (R303). -/
def judgeQueue (x : Module) : Module := repeatN (fun _ y => judgeWaiting y) 64 x

/-- ORDER_VERDICT_TIMEOUT (R306), and the commands that waited for the verdict (R303). -/
def verdictOverdue (x : Module) : Module := judgeQueue (onCtrl (verdictTimeout (cenvOf x)) x)

/-! ### Order requests (R305, R306, R358) -/

/-- Skour gives its verdict: the J2 verdict and its count. -/
def giveVerdict (code : Nat) (x : Module) : Module :=
  onCtrl (fun c => { c with orderReq := none })
    (editJoints (fun j => { j with verdict := BitVec.ofNat 16 code, verdictCount := j.verdictCount + 1 }) x)

/-- The refusal of a host cap, or the cap it sets (R358). -/
def judgeHostCap (rack : Nat) (v : F32) : Except Nat Rat :=
  match decodeF fp32 v.toNat with
  | .fin neg q =>
    let r : Rat := mkRat q.num q.den
    if r = 0 then .ok 30000 else if neg ∨ r < 11000 then .error 0x0320
    else if (rack : Rat) < r then .error 0x0520 else .ok r
  | .inf neg => if neg then .error 0x0320 else .ok 30000
  | .nan => .error 0x0320

/-- An order accepted by Skour (R32, R305). -/
def actOnRequest (r : OrderReq) (x : Module) : Module :=
  match r.op with
  | 1 => giveVerdict 0 (writeOrder 1 0 (editJoints (fun j => { j with waiting := true }) (toState .running x)))
  | 2 =>
    giveVerdict 0 (writeOrder 2 0 (writeJ1 (editJoints (fun j => { j with hostHold := false, waiting := true })
      (toState .running x))))
  | 3 => giveVerdict 0 (writeOrder 3 0 (editJoints (fun j => { j with stopping := true }) x))
  | 4 => giveVerdict 0 (writeOrder 4 0 x)
  | 5 =>
    let x1 := writeOrder 5 r.turn x
    giveVerdict 0 (editJoints (fun j => { j with turnOrder := some (orderSeq j.order, r.turn) }) x1)
  | 0x10 => giveVerdict 0 (writeJ1 (editJoints (fun j => { j with hostHold := true }) x))
  | 0x11 =>
    match judgeHostCap (rackCap x) x.ctrl.hostCap with
    | .ok v => giveVerdict 0 (editPower (fun p => { p with hostCap := v, forecastDue := true }) x)
    | .error code => giveVerdict code x
  | _ => x

/-- A rack standby or off order has arrived since the state word that the command was judged by (R306). -/
def orderSince (x : Module) : Bool :=
  match x.ctrl.current with
  | some w => w.word.order == 2 && getE x Ent.powerOrder != 2
  | none => false

/-- The module has left READY, RUNNING and HELD since the command arrived (R306); HOST_CAP may have arrived in another state. -/
def leftSince (x : Module) : Bool :=
  !x.mgmt.module.runs && (match x.ctrl.current with | some w => w.word.module.runs | none => true)

/-- ORDER_REQUEST: Skour takes the J2 order request; one more than 20 ms old is discarded. -/
def orderRequest (x : Module) : Module :=
  match x.ctrl.orderReq with
  | none => x
  | some r =>
    if !skourUp x then x
    else if 20000000 < sinceT x r.stamp then onCtrl (fun c => { c with orderReq := none }) x
    else if leftSince x then giveVerdict 0x0410 x
    else if orderSince x then giveVerdict 0x041A x
    else actOnRequest r x

/-! ### The state word and the placement word (R17, R24, R528) -/

/-- The state word as its contents stand, with the run bits of the latest snapshot (log 20). -/
def stateWordOf (x : Module) : J2Word :=
  { module := x.mgmt.module, order := getE x Ent.powerOrder, pending := x.mgmt.orderAt.isSome, step := stepNow x.mgmt
    cap := BitVec.ofNat 32 (ratF32 (effectiveCap x)), capWidths := BitVec.ofNat 32 (getE x Ent.capWidths)
    verdict := x.mgmt.joints.verdict, verdictCount := x.mgmt.joints.verdictCount
    rackAlive := decide (getE x Ent.rackAlive = 1), throttle := throttleOn x.mgmt.power.throttles
    advancing := snapAdvancing x.mgmt, beatFault := snapFault x.mgmt }

/-- The placement word of a placement record. -/
def placementWordOf (p : PlaceRec) : W32 :=
  BitVec.ofNat 32 (p.loadCheck.toNat * 2 ^ 16 + p.turnOk.toNat * 2 ^ 8 + p.code * 2 ^ 5 + p.turnState * 2 ^ 2)

/-- J2_STATE_WORD_UPDATE: Skour updates both words, run control follows them, and the waiting commands are judged. -/
def updateWord (x : Module) : Module :=
  if !skourUp x then x
  else
    let w := stateWordOf x
    let p := placementWordOf x.mgmt.joints.placement
    let x1 := editJoints (fun j => { j with word := w, placeWord := p }) x
    judgeQueue (onCtrl (takeWord (cenvOf x) w p) x1)

/-- J2_PROFILE (R360, R362): the profile and step_expected of a load. -/
def takeProfile (x : Module) : Module :=
  if !skourUp x ∨ !x.ctrl.profileDue then x
  else
    let p := x.ctrl.profile.bind readProfile
    let x1 := editPower (fun w => { w with profile := p, k := 1, ratios := [], forecastDue := true })
      (setE Ent.profileState (if p.isSome then 1 else 2) (onCtrl (fun c => { c with profileDue := false }) x))
    requestStep (setE Ent.turnDue 0 (editJoints (fun j => { j with
      minStep := x.ctrl.stepExpected, turnNow := 0, runFrames := 0, turnOrder := none }) x1))

/-- J2_JOURNAL_RECORD: Skour takes the oldest buffered record into the journal (R23, R307). -/
def takeRecord (x : Module) : Module :=
  match x.ctrl.journal with
  | [] => x
  | r :: rest =>
    if !skourUp x then x
    else
      commitEnt ⟨0, r.time, snapBeat x.mgmt, r.source, r.authority, r.index, r.sub, r.kind, r.value, r.result⟩
        (onCtrl (fun c => { c with journal := rest }) x)

/-! ### A stop's end (R199, R301, R305) -/

/-- No tile is in a stop reset. -/
def stopResetsOver (d : Data) : Bool := d.tiles.all fun p => p.2.resetting ≠ some .stop

/-- STOP_COMPLETE: the data plane is quiescent and every stop reset has ended. -/
def stopComplete (x : Module) : Module :=
  if x.ctrl.rc = .stopping ∧ !x.data.beat.run ∧ quiescent x.data ∧ stopResetsOver x.data then
    let e := cenvOf x
    let x1 := onCtrl (fun c => raiseRun e 0x0203 (natLe 8 x.data.beat.count.toNat)
      (setRc e .noImage 0 { c with image := none, restart := false })) x
    let x2 := editJoints (fun j => { j with
      hostHold := false, stopping := false, turnOrder := none, waiting := false, minStep := 0 }) x1
    let x3 := writeJ1 (editPower (fun p => { p with profile := none, forecastDue := true }) (setE Ent.profileState 0 x2))
    if x.mgmt.module = .running ∨ x.mgmt.module = .held then toState .ready x3 else x3
  else x

/-! ### J4 (R22, R274, R286, R529) -/

/-- What Skour learns from a snapshot: whether beats have advanced under a start or resume it wrote (R32), and a turn order
acted on (R286). -/
def learnSnapshot (j : Joints) : Joints :=
  let acted := BitVec.ofNat 8 (j.snapshot.getD 19 0).toNat
  let moved := (j.snapshot.getD 17 0).getLsbD 0 || decide (0 < leNat ((j.snapshot.drop 512).take 4))
  let j1 := { j with waiting := j.waiting && !(acted == orderSeq j.order && moved) }
  match j.turnOrder with
  | some (q, g) => if q = acted then { j1 with turnNow := compose j.turnNow g, turnOrder := none } else j1
  | none => j1

/-- J4_SNAPSHOT: once in a frame the powered data plane hands Skour a snapshot, and its accumulators start again (R22). -/
def takeSnapshot (droop : Nat → Byte) (x : Module) : Module :=
  if !x.data.on ∨ x.mgmt.joints.snapFrame = some x.mgmt.frame then x
  else
    let bs := snapshotBytes (envOf x) droop x.data
    onData snapshotTaken
      (editJoints (fun j => learnSnapshot { j with snapshot := bs, snapFrame := some x.mgmt.frame }) x)

/-- J4_PLACEMENT_RECORD: a turn that has completed restarts the run time toward the next (R286). -/
def takePlacement (x : Module) : Module :=
  let p := placementRecord x.data
  let x1 := editJoints (fun j => { j with placement := p }) x
  if p.turnState = 3 ∧ x.mgmt.joints.placement.turnState ≠ 3 then
    incE Ent.turnsDone (setE Ent.turnDue 0 (editJoints (fun j => { j with runFrames := 0 }) x1))
  else x1

/-- TURN_DUE (R286): run time has reached turn_interval. -/
def turnDue (x : Module) : Module :=
  let n := getE x Ent.turnInterval
  if skourUp x ∧ n ≠ 0 ∧ getE x Ent.turnDue = 0 ∧ n * 1000 ≤ x.mgmt.joints.runFrames then
    raiseEvent 0x72FF01 (natLe 1 x.mgmt.joints.turnNow ++ natLe 4 (x.mgmt.joints.runFrames / 1000)) (setE Ent.turnDue 1 x)
  else x

/-! ### Loads (R16, R260, R263, R308) -/

/-- The stack capacity of the logical field a section names, under the maps of a load (R200; read from the field, log 88). -/
def fieldCapOf (x : Module) (h : ImgHeader) (lfr lfc : Nat) : Nat :=
  stackCap (fieldOf x.data (placeField h 0 lfr lfc)).mode

/-- Once the last byte has arrived the load is judged (checks 2 to 9): refused, or its image goes to the data plane and its
profile to Skour. -/
def judgeIfFull (x : Module) : Module :=
  match x.ctrl.load with
  | none => x
  | some j =>
    let own := (ownModule x.data).toNat
    if j.judged ∨ !loadFull own j then x
    else
      let e := cenvOf x
      let h := readHeader j.bytes
      match judgeLoad own x.ctrl.word.capWidths.toNat (leastStack x.data) (fieldCapOf x h) x.ctrl j with
      | some r => onData (loadDrop (envOf x)) (onCtrl (endLoad e r) x)
      | none =>
        let x1 := onCtrl (fun c => sendProfile j { c with load := some { j with judged := true } }) x
        onData (fun d =>
          let d1 := loadAccept (envOf x) h (repairOf j.repair) d
          { d1 with place := { d1.place with arrived := true } }) x1

/-- Image bytes arrive: each plane takes its own copy. -/
def takeLoadBytes (off : Nat) (bs : List Byte) (x : Module) : Module :=
  match x.ctrl.load with
  | none => x
  | some j =>
    if j.judged then x
    else
      judgeIfFull (onData (storeIncoming off (bs.take (j.len - off)))
        (onCtrl (fun c => { c with load := some (takeBytes (cenvOf x) off bs j) }) x))

/-- LOAD_DATA: from the control session, while a load is in progress; neither queued nor journaled (R308). -/
def loadData (m : Msg) (off : Nat) (bs : List Byte) (x : Module) : Module :=
  let c := x.ctrl
  if !c.on then x
  else match sessionOf c m.session with
    | none => onCtrl (respondBare m 0x0102) x
    | some s =>
      let x1 := onCtrl (editSession m.session fun s => { s with lastMsg := x.ts }) x
      match answeredAs s m.seq with
      | some r => onCtrl (fun c => { c with reply := some ⟨m.engine, m.session, r, true⟩ }) x1
      | none =>
        if c.control ≠ some m.session then onCtrl (respond m 0x0501 []) x1
        else match c.load with
          | none => onCtrl (respond m 0x0421 []) x1
          | some _ => takeLoadBytes off bs (onCtrl (respond m 0 []) x1)

/-- LOAD_COMPLETE: check 10 is known. -/
def loadDone (x : Module) : Module :=
  let r := loadComplete (cenvOf x) x.ctrl
  let x1 := { x with ctrl := r.2 }
  match r.1 with
  | some rep => if rep.result = 0 then x1 else onData (loadDrop (envOf x)) x1
  | none => x1

/-- LOAD_TIMEOUT: no load data for 10 s. -/
def loadTimeout (x : Module) : Module :=
  if loadTimedOut (cenvOf x) x.ctrl then
    onData (loadDrop (envOf x)) (onCtrl (endLoad (cenvOf x) (LoadReport.plain 0x0111)) x)
  else x

/-- RDMA_WRITE: to the load address while a load is in progress, both planes take the bytes; otherwise a tile store or stack
window. -/
def rdmaWriteAll (engine : Nat) (qpn key : W32) (a : W64) (bs : List Byte) (x : Module) : Module :=
  if isLoadAddr a ∧ x.ctrl.load.isSome ∧ qpAdmits x.data engine qpn key then
    takeLoadBytes (a.extractLsb' 0 44).toNat bs (onData (answer none 0 []) x)
  else onData (rdmaWrite (envOf x) engine qpn key a bs) x

end Sys2Proof.Machine
end

