-- ==== Sys2Proof/Machine/Skour.lean ====
section
/-!
DEFINITION. Skour (chapter 14): its two pairs, the reference oscillators, the retained store, application and loss of power,
cold and warm starts, SERVICE, management-only warm starts, sparing, and the frame boundary.
-/

namespace Sys2Proof.Machine

/-! ### The retained store (R457–R460) -/

/-- The retained entries of one image: the RO ones are records, the writable ones settings. -/
def imageOf (records : Bool) (m : Mgmt) : SMap Nat :=
  m.dict.filter fun p => match entryOf p.1 with
    | some e => e.retained && ((e.acc == .ro) == records)
    | none => false

/-- The valid copy with the higher generation: its place. -/
def newest (cs : List StoreCopy) : Option Nat :=
  match cs with
  | [a, b] => if a.valid then (if b.valid && decide (a.gen < b.gen) then some 1 else some 0) else if b.valid then some 1 else none
  | _ => none

/-- The image is written into the copy that does not hold the newest generation, with the generation plus 1 (R458). -/
def writeCopy (vs : SMap Nat) (cs : List StoreCopy) : List StoreCopy × Nat :=
  let k := (newest cs).getD 1
  let g := match cs[k]? with | some c => if c.valid then c.gen else 0 | none => 0
  (modifyAt (fun _ => ⟨true, (g + 1) % 2 ^ 32, vs⟩) cs (1 - k), (g + 1) % 2 ^ 32)

/-- An image written, with the entry that shows its generation. -/
def writeImage (records : Bool) (x : Module) : Module :=
  if records then
    let r := writeCopy (imageOf true x.mgmt) x.mgmt.records
    setE Ent.recordsGen r.2 (onMgmt (fun m => { m with records := r.1, recordsDirty := false }) x)
  else
    let r := writeCopy (imageOf false x.mgmt) x.mgmt.settings
    setE Ent.settingsGen r.2 (onMgmt (fun m => { m with settings := r.1, settingsDirty := false }) x)

/-- RETAINED_WRITE: the image whose values have changed. -/
def retainedWrite (records : Bool) (x : Module) : Module :=
  if skourUp x ∧ (if records then x.mgmt.recordsDirty else x.mgmt.settingsDirty) = true then writeImage records x else x

/-- ENERGY_WRITE: once a second (R352). -/
def energyWrite (x : Module) : Module := if skourUp x then writeImage true x else x

/-- What a load of the retained store finds bad: copies 0 and 1 of settings and of records, and trim records (R459). -/
structure StoreFound where
  badSettings : List Nat
  badRecords : List Nat
  badStacks : List Nat
  badOptics : List Nat
deriving DecidableEq, Repr

def StoreFound.fine : StoreFound := ⟨[], [], [], []⟩

/-- Copies found bad. -/
def spoil (bad : List Nat) (cs : List StoreCopy) : List StoreCopy :=
  bad.foldl (fun cs n => modifyAt (fun c => { c with valid := false }) cs n) cs

/-- The values the newest valid copy holds; none when both are bad. -/
def loaded (cs : List StoreCopy) : Option StoreCopy := (newest cs).bind fun k => cs[k]?

/-- retained_state's bits for what was found. -/
def storeBits (settings records : List StoreCopy) : Nat :=
  b2n ((settings ++ records).any fun c => !c.valid) ||| (2 * b2n (loaded settings).isNone) ||| (4 * b2n (loaded records).isNone)

/-- A copy's 16 B header: magic, generation, body length, and the CRC-32 over these and the body (R2, R457). How the values lie
in the body the spec leaves open (log 37). -/
def storeHeader (c : StoreCopy) : List Byte :=
  let body := Config.storeBody c.values
  let h := natLe 4 0x4B525331 ++ natLe 4 c.gen ++ natLe 4 body.length
  h ++ natLe 4 (crc32 (h ++ body)).toNat

/-- Each case of R459, a bad trim record too, is journaled and raises the retained state event. -/
def tellStore (f : StoreFound) (bits_ : Nat) (x : Module) : Module :=
  if bits_ = 0 ∧ f.badStacks = [] ∧ f.badOptics = [] then x
  else raiseEvent 0x21FF01 (natLe 1 bits_) (note 0 9 Ent.retainedState bits_ (setE Ent.retainedState bits_ x))

/-- Bad trim records: their stacks and engines train in full at the next start. -/
def dropTrims (f : StoreFound) (m : Mgmt) : Mgmt :=
  { m with
    stackTrims := f.badStacks.foldl drop m.stackTrims, opticalTrims := f.badOptics.foldl drop m.opticalTrims }

/-- Two maps with no common key, as one. -/
def mergeMaps (a b : SMap Nat) : SMap Nat := b.foldl (fun m p => insertKey m p.1 p.2) a

/-- The dictionary after a load (R459): every retained entry as stored, over what `m` keeps of the others. -/
def loadOver (kept : SMap Nat) (f : StoreFound) (x : Module) : Module :=
  let ss := spoil f.badSettings x.mgmt.settings
  let rs := spoil f.badRecords x.mgmt.records
  let sv := (loaded ss).getD StoreCopy.blank
  let rv := (loaded rs).getD StoreCopy.blank
  let x1 := onMgmt (fun m => dropTrims f { m with
    settings := ss, records := rs, dict := mergeMaps (mergeMaps sv.values rv.values) kept
    settingsDirty := false, recordsDirty := false
    coldNext := m.coldNext || (loaded rs).isNone
    power := if (loaded rs).isNone then { m.power with phasesOut := [] } else m.power }) x
  setE Ent.recordsGen rv.gen (setE Ent.settingsGen sv.gen x1)

/-- A load at the application of power: every entry that is not retained stands at its default. -/
def loadStore (f : StoreFound) (x : Module) : Module := loadOver [] f x

/-- A load in a management-only warm start (R455): what was changed is in the store by then (R458), and an entry that is not
retained keeps its value (R507). -/
def reloadStore (f : StoreFound) (x : Module) : Module :=
  let x1 := onlyIf x.mgmt.recordsDirty (writeImage true) (onlyIf x.mgmt.settingsDirty (writeImage false) x)
  loadOver (x1.mgmt.dict.filter fun p => match entryOf p.1 with | some e => !e.retained | none => true) f x1

/-- restore_factory (R460): every setting takes its default, and the next start is cold. -/
def restoreFactory (x : Module) : Module :=
  let x1 := editPower (fun p => { p with forecastDue := true }) <| onMgmt (fun m => { m with
    dict := m.dict.filter fun p => match entryOf p.1 with | some e => !(e.retained && e.acc != .ro) | none => true
    settingsDirty := true, coldNext := true }) x
  let x2 := editBus (fun b => { b with addressDue := true, matrixDue := none, gnomonDue := none }) x1
  writePtpEnable (getE x2 Ent.ptpEnable) (repeatN dataRegs 2 x2)

/-- The pairing switch is set from manifold_profile at a start (R419). -/
def setPairing (x : Module) : Module :=
  editAct (fun a => { a with paired := decide (getE x Ent.manifoldProfile = 1) }) x

/-- Non-retained writable entries take their defaults at every start but a management-only one (R507, R530). -/
def freshWritable (x : Module) : Module :=
  writeJ1 (editBus (fun b => { b with cursors := [] }) (onMgmt (fun m => { m with
    dict := m.dict.filter fun p => match entryOf p.1 with | some e => e.retained || e.acc == .ro | none => true }) x))

/-! ### Pairs (R434–R439) -/

def pairAt (m : Mgmt) (p : Nat) : PairSt := m.pairs.getD p .failed

/-- A pair's state changes, journaled as a pair change. -/
def setPair (p : Nat) (s : PairSt) (x : Module) : Module :=
  if pairAt x.mgmt p = s then x
  else
    let x1 := onMgmt (fun m => { m with pairs := modifyAt (fun _ => s) m.pairs p }) x
    let code : PairSt → Nat := fun s =>
      match s with | .active => 0 | .standby => 1 | .resync => 2 | .selftest => 3 | .failed => 4 | .retired => 5
    note 0 8 Ent.pairState (code (pairAt x1.mgmt 0) + 256 * code (pairAt x1.mgmt 1)) x1

/-- A mismatched pair runs its self-test, or is retired at its third mismatch within 24 hours. -/
def afterMismatch (p : Nat) (x : Module) : Module :=
  let recent := ((x.mgmt.mismatches.getD p []).filter fun t => decide (sinceT x t < 86400000000000)).length
  setPair p (if 3 ≤ recent then .retired else .selftest) x

/-- LOCKSTEP_MISMATCH (R434, R436, R438). -/
def lockstepMismatch (p : Nat) (x : Module) : Module :=
  let o := 1 - p
  let st := pairAt x.mgmt p
  if x.mgmt.run = .down ∨ (st ≠ .active ∧ st ≠ .standby ∧ st ≠ .resync) then x
  else
    let x1 := incE Ent.pairMismatches (onMgmt (fun m => { m with mismatches := modifyAt (fun l => x.ts :: l.take 7) m.mismatches p }) x)
    if st ≠ .active then afterMismatch p x1
    else if pairAt x1.mgmt o = .standby then
      afterMismatch p (setPair o .active (incE Ent.switchovers (onMgmt (fun m => { m with active := o }) x1)))
    else stopSkour false (afterMismatch p x1)

/-- PAIR_SELFTEST_DONE (R437). -/
def pairSelftest (p : Nat) (pass : Bool) (x : Module) : Module :=
  if pairAt x.mgmt p = .selftest ∧ skourUp x then setPair p (if pass then .resync else .retired) x else x

/-- PAIR_RESYNC_DONE (R435). -/
def pairResynced (p : Nat) (x : Module) : Module :=
  if pairAt x.mgmt p = .resync ∧ skourUp x then setPair p .standby x else x

/-- The pairs' digests differ at a frame boundary (R435). -/
def digestsDiffer (x : Module) : Module :=
  let o := 1 - x.mgmt.active
  if pairAt x.mgmt o = .standby then setPair o .resync x else x

/-- pair_restore (R437): retired and failed pairs of its bits return to be resynchronised. -/
def pairRestore (v : Nat) (x : Module) : Module :=
  repeatN (fun p y =>
    if v.testBit p ∧ (pairAt y.mgmt p = .retired ∨ pairAt y.mgmt p = .failed) then
      setPair p .resync (onMgmt (fun m => { m with mismatches := modifyAt (fun _ => []) m.mismatches p }) y)
    else y) 2 x

/-! ### The reference oscillators (R440–R443) -/

/-- Each flag change and each move is journaled and raises the oscillator event. -/
def oscEvent (x : Module) : Module :=
  let a := x.mgmt.clocks.source
  let x1 := note 6 8 Ent.oscActive a x
  raiseEvent 0xB0FF01 (natLe 1 a ++ natLe 1 (getE x Ent.oscFlags)) x1

/-- REF moves to a source: 0 OSC-A, 1 OSC-B, 2 holdover; after the fourth move to OSC-B within an hour revert is disabled. -/
def moveRef (s : Nat) (x : Module) : Module :=
  if x.mgmt.clocks.source = s then x
  else
    let recent := x.ts :: (x.mgmt.clocks.moves.filter fun t => decide (sinceT x t < 3600000000000))
    let x1 := incE Ent.oscSwitches (onMgmt (fun m => { m with clocks := { m.clocks with
      source := s, moves := if s = 1 then recent else m.clocks.moves } }) x)
    if s = 1 ∧ 4 ≤ recent.length then onMgmt (dsetBits Ent.oscFlags 16) x1 else x1

def oscOf (c : Clocks) (b : Bool) : OscCond := if b then c.b else c.a
def setOsc (b : Bool) (s : OscCond) (c : Clocks) : Clocks := if b then { c with b := s } else { c with a := s }

/-- What changed the flags or moved REF, as an event. -/
def oscTell (x y : Module) : Module :=
  if getE x Ent.oscFlags = getE y Ent.oscFlags ∧ x.mgmt.clocks.source = y.mgmt.clocks.source then y else oscEvent y

/-- OSC_FAULT: OSC-A (false) or OSC-B (true) is lost or deviating (R440, R441, R443). -/
def oscFault (b lost : Bool) (x : Module) : Module :=
  let s := if lost then OscCond.lost else .deviating
  if oscOf x.mgmt.clocks b = s then x
  else
    let x1 := onMgmt (fun m => { dsetBits Ent.oscFlags (2 ^ (2 * b2n b + b2n (!lost))) m with clocks := setOsc b s m.clocks }) x
    let other := oscOf x.mgmt.clocks (!b)
    oscTell x (if x.mgmt.clocks.source = b2n b then moveRef (if other = .good then 1 - b2n b else 2) x1 else x1)

/-- OSC_GOOD: from holdover REF returns to whichever oscillator first becomes good (R443). -/
def oscGood (b : Bool) (x : Module) : Module :=
  if oscOf x.mgmt.clocks b = .good then x
  else
    let x1 := onMgmt (fun m => { m with clocks := setOsc b .good m.clocks }) x
    if x.mgmt.clocks.source = 2 then oscEvent (moveRef (b2n b) x1) else x1

/-- OSC_REVERT: OSC-A has been good for 2^20 REF cycles (R442). -/
def oscRevert (cycles : Nat) (x : Module) : Module :=
  let c := x.mgmt.clocks
  if c.source = 1 ∧ c.a = .good ∧ 1048576 ≤ cycles ∧ !dbit x.mgmt Ent.oscFlags 4 then oscEvent (moveRef 0 x) else x

/-- osc_revert_clear, or a cold start: revert is enabled again (R442). -/
def enableRevert (x : Module) : Module :=
  oscTell x (onMgmt (fun m => dclearBits Ent.oscFlags 16 { m with clocks := { m.clocks with moves := [] } }) x)

/-! ### Application of power: steps 1 to 3 (R447, R449, R459) -/

/-- What the application of power finds: the address straps, Sill's self-test part (0 passes), the pairs' self-tests, and
the retained store. -/
structure PowerFound where
  strap : Fin 32
  sillPart : Fin 7
  pairA : Bool
  pairB : Bool
  store : StoreFound
deriving DecidableEq, Repr

/-- The module has neither input (R33): the service domains that the auxiliary input feeds are off. -/
def unpowered (x : Module) : Bool := x.mgmt.service == 0

/-- Sill comes up with its nonvolatile register restored (R536, R540, R541). -/
def sillOn (part : Nat) (sf : W64) (s : Sill) : Sill :=
  let acted := if part = 0 then s.acted.filter fun c => c ≠ 0x38#8 else s.acted
  { Sill.reset with
    on := true, safeStop := s.safeStop, leakCut := s.leakCut, inletLock := s.inletLock, safeCause := s.safeCause
    leakCause := s.leakCause, firstCause := s.firstCause, acted := acted, trayCut := s.trayCut, leakOut := s.leakOut
    fault := decide (part ≠ 0), selftest := part, halt := s.safeStop || decide (part ≠ 0)
    tilePwrEn := !s.safeStop && decide (part = 0), present := s.present, interlock := s.interlock, lastService := sf
    latchAt := if s.safeStop then some sf else none, lastCause := s.lastCause
    latched := if s.safeStop then some ((s.safeCause.toNat % 16), (s.safeCause.toNat / 16)) else none }

/-- A pair after its power-up self-test. -/
def pairPowered (s : PairSt) (pass : Bool) : PairSt := if s = .retired then .retired else if pass then .standby else .failed

/-- The pair that takes control first: the one that is in working order, A before B. -/
def chooseActive (ps : List PairSt) : Option Nat :=
  if ps.getD 0 .failed = .standby then some 0 else if ps.getD 1 .failed = .standby then some 1 else none

/-- Start step entries of steps 1 to 3. -/
def noteSteps (x : Module) : Module :=
  note 0 7 Ent.startStep 3 (note 0 7 Ent.startStep 2 (note 0 7 Ent.startStep 1 x))

/-- POWER_APPLIED: power reaches the Skour and Sill domains, and steps 1 to 3 run. -/
def powerApplied (f : PowerFound) (x : Module) : Module :=
  if !unpowered x then x
  else
    let part := f.sillPart.val
    let ever := x.mgmt.records.any fun c => decide (0 < c.gen)
    let x1 := onSill (sillOn part x.sf) (onMgmt (fun m => { m with service := 0x3F, module := .off }) x)
    let x2 := onData (fun d => { d with tilePwrEn := !x.sill.safeStop && decide (part = 0) }) x1
    let lost := (loaded (spoil f.store.badRecords x.mgmt.records)).isNone
    let was (p : Nat) : PairSt := if lost then .standby else pairAt x.mgmt p
    let ps := [pairPowered (was 0) f.pairA, pairPowered (was 1) f.pairB]
    match chooseActive ps with
    | none => followSill (onMgmt (fun m => { m with pairs := ps, run := .down }) x2)
    | some a =>
      let x3 := loadStore f.store (onMgmt (fun m => { m with
        pairs := modifyAt (fun _ => .active) ps a, active := a, run := .up }) x2)
      let x4 := onMgmt syncCapacity (setE Ent.strapAddress f.strap.val (if ever then incE Ent.energyGaps x3 else x3))
      let bits_ := storeBits x3.mgmt.settings x3.mgmt.records
      let x5 := tellStore f.store bits_ (noteSteps (writePtpEnable (getE x4 Ent.ptpEnable) (setE Ent.sillSelftest part x4)))
      let x6 := repeatN joinChan 2 (takeAddress x5)
      let x7 := followSill x6
      if part ≠ 0 then setE Ent.startFault (1 * 256 + 1) x7 else beginInlet x7

/-- AUX_POWER_LOSS: neither input is present, and only the retained store and Sill's nonvolatile register keep state (R33,
R536, R549). What the next start must be cold for is kept in the retained store too (DESIGN CHOICE, log 80). -/
def auxPowerLoss (x : Module) : Module :=
  let m := x.mgmt
  let s := x.sill
  { x with
    ts := 0
    sf := 0
    data := { Data.reset with
      free := x.data.free
      fields := mapListed Field.off (fun _ f => { Field.off with retrain := f.retrain }) x.data.fields }
    ctrl := { Ctrl.reset with keys := x.ctrl.keys }
    mgmt := { Mgmt.reset with
      pairs := m.pairs.map fun p => if p = .retired then .retired else .standby
      settings := m.settings, records := m.records, stackTrims := m.stackTrims, opticalTrims := m.opticalTrims, stackFailed := m.stackFailed
      coldNext := m.coldNext, journal := m.journal, jNext := m.jNext, jHeld := m.jHeld
      power := { Power.reset with phasesOut := m.power.phasesOut } }
    sill := { Sill.reset with
      safeStop := s.safeStop, leakCut := s.leakCut, inletLock := s.inletLock, safeCause := s.safeCause
      leakCause := s.leakCause, firstCause := s.firstCause, acted := s.acted, trayCut := s.trayCut, leakOut := s.leakOut
      present := s.present, interlock := s.interlock, lastCause := s.lastCause } }

/-! ### Starts (R446–R451) -/

/-- What the prime found (R385): the tray valve under profile 1 stands open; flow at the purge in 0.01 L/min; each zone's
pressure in mbar and flow; flow on pump 1, and on pump 0 after the return to it. -/
structure PrimeFound where
  tray : Bool
  purge : Nat
  zones : List (Nat × Nat)
  pump1 : Nat
  pump0 : Nat
deriving DecidableEq, Repr

/-- What a start step's work found. -/
inductive StepFound where
  /-- step 5: which blocks reached service, and the bus in mV -/
  | blocks (ok : List Bool) (mv : Nat)
  | prime (p : PrimeFound)
  /-- step 7: the phases of each field that failed -/
  | phases (out : List (Nat × List Nat))
  /-- the step's work is done, and its check, if it has one, passes -/
  | done
  /-- step 10 or the quick test: the physical tiles that failed -/
  | tiles (failed : List Nat)
deriving DecidableEq, Repr

/-- The longest time of a step in ns (R447, R451). -/
def stepLimit (cold : Bool) (k : Nat) : Nat :=
  if cold then [1000, 2000, 300, 1500, 1000, 48000, 50, 600, 20, 36000, 200].getD (k - 1) 0 * 1000000
  else [100, 48000, 600, 20, 2000, 200].getD (k - 1) 0 * 1000000

/-- The prime's own step numbers, for its event. -/
def primeFault (step : Nat) (zone : Byte) (x : Module) : Module :=
  raiseEvent 0x40FF06 (natLe 1 step ++ [zone]) (onMgmt (dsetBits Ent.coolantFlags 0x20) x)

/-- A start ends (R449): in OFF for steps 1 to 5, in STANDBY for the others. -/
def failStart (cause : Nat) (x : Module) : Module :=
  match x.mgmt.start with
  | none => x
  | some j =>
    let x1 := setE Ent.startFault (j.step * 256 + cause) (onMgmt (fun m => { m with start := none, startDue := none }) x)
    if x.mgmt.module = .off ∨ x.mgmt.module = .standby then
      let x2 := openInlet x1
      if (forcedState x2).isSome then followSill x2 else toState .off x2
    else toState .standby (editCool (fun c => { c with bypass := !profile1 x }) (dataOff x1))

/-- A failing tile: its bit is set, its domain goes off, and the next good tile of its segment is powered (R448). -/
def spareTile (ix : Nat) (x : Module) : Module :=
  let x1 := tileOff ix (markTile ix true x)
  match shiftTile x1.mgmt (ix / 40) (ix % 40 / 5) 3 with
  | some n => domainOn false n x1
  | none => x1

/-- Every stack has trained or failed, and every engine. -/
def trainingDone (d : Data) : Bool :=
  allTrained d && (List.range 64).all fun f =>
    let g := fieldOf d f
    !g.on || g.train == .ready || g.train == .fail

/-- The prime is in progress. -/
def priming (x : Module) : Bool :=
  match x.mgmt.start with
  | some j => j.primed && (if j.cold then j.step == 6 else j.step == 2)
  | none => false

/-- The prime's first two steps as they fall due (R385, R420, R421): the tray valve under profile 1, the outlet and the inlet
isolation valve 200 ms apart, then the bypass, or zones 5 and 10 in its place, and pump 0 at 30 %. -/
def primeDrive (since : W64) (x : Module) : Module :=
  let t := sinceT x since / 200000000
  let p1 := profile1 x
  let valves := if p1 then [19, 17, 16] else [17, 16]
  let x1 := (valves.take (t + 1)).foldl (fun y c => commandValve c true y) x
  if t < valves.length ∨ x.mgmt.act.running.isSome then x1
  else
    let x2 := if p1 then forceZone 10 (forceZone 5 x1) else commandValve 18 true x1
    editCool (fun c => { c with bypass := !p1 }) (editAct (fun a => { a with running := some 0 }) (setTarget 0 30 x2))

/-- A start's prime goes on at a frame boundary. -/
def primeFrame (x : Module) : Module :=
  match x.mgmt.start with
  | some j => if priming x then primeDrive j.since x else x
  | none => x

/-- The prime begins: from then on the zones are Skour's until tile domains are on (R447). -/
def beginPrime (x : Module) : Module :=
  primeFrame (editAct (fun a => { a with running := none }) (setTarget 1 0 (setTarget 0 0
    (onMgmt (fun m => { m with start := m.start.map fun j => { j with primed := true } }) (clearValveFaults 0xFFFFF x)))))

/-- What a step does when it begins. -/
def enterStep (cold : Bool) (k : Nat) (began : W64) (x0 : Module) : Module :=
  let x := beginStep cold k began x0
  let groups := fun (y : Module) =>
    repeatN (fun i z => domainOn (!cold) (1344 + i) z) 52 (repeatN (fun f z => domainOn (!cold) (1280 + f) z) 64 (dataOn y))
  let tiles := fun (y : Module) => (startTiles y.mgmt).foldl (fun z ix => domainOn false ix z) y
  match cold, k with
  | true, 6 => beginPrime x
  | true, 8 => groups x
  | true, 9 => tiles x
  | false, 2 => if getE x Ent.valvesHeld = 0 then beginPrime x else x
  | false, 3 => groups x
  | false, 4 => tiles x
  | _, _ => x

/-- The isolation valves, and the tray valve under profile 1, stand in hold (R431). -/
def valvesHold (x : Module) : Bool :=
  (chanOf x 16).st == .hold && (chanOf x 17).st == .hold && (!profile1 x || (chanOf x 19).st == .hold)

/-- Steps 1 to 3 of the prime: some step ended the start when this answers none. -/
def primeHeaders (p : PrimeFound) (x : Module) : Option Module :=
  if !usable x.mgmt .supply ∨ !usable x.mgmt .ret then none
  else if p.purge < 300 ∨ (profile1 x ∧ (!p.tray ∨ dbit x.mgmt Ent.valveFaults 19)) then none
  else some ((List.range 16).foldl (fun y z =>
    let r := p.zones.getD z (0, 0)
    if r.1 < 100 ∨ 600 < r.1 ∨ r.2 < 150 then valveFault z 1 (primeFault 3 (BitVec.ofNat 8 z) y) else y) x)

/-- The prime (R385, R420, R422). -/
def primeDone (cold : Bool) (p : PrimeFound) (next : Module → Module) (x : Module) : Module :=
  match primeHeaders p x with
  | none =>
    let s := if !usable x.mgmt .supply ∨ !usable x.mgmt .ret then 1 else 2
    failStart 1 (primeFault s Config.noZone x)
  | some x1 =>
    let bad1 := decide (p.pump1 < 300)
    let bad0 := decide (p.pump0 < 300)
    let x2 := if bad0 ∨ bad1 then primeFault 4 Config.noZone x1 else x1
    if bad0 ∧ bad1 then failStart 1 x2
    else
      let x3 := onlyIf bad1 (unitFault 1) (onlyIf bad0 (unitFault 0) x2)
      let x4 := if cold ∧ !bad0 ∧ !bad1 then setE Ent.leadPump (1 - getE x3 Ent.leadPump) x3 else x3
      let floor := getE x4 Ent.dutyFloor
      let x5 := editCool (fun c => { c with
        bypass := false, duty := (List.range 16).foldl (fun m z => put 0 m z floor) [] }) x4
      let x6 := if profile1 x5 then turnOff false 10 (turnOff false 5 (editChan 10 (fun k => { k with force := false })
        (editChan 5 (fun k => { k with force := false }) x5))) else x5
      let s := x6.mgmt.act.schedule
      let cmds := [(chanOf x5 16).window, (chanOf x5 17).window, profile1 x5 && (chanOf x5 18).window, (chanOf x5 19).window]
      next (setE Ent.valvesHeld (b2n (valvesHold x6))
        (writeSchedule { s with duties := List.replicate 16 floor, commands := cmds, pump := 30 } x6))

/-- The records that a start's last step writes: trims of what trained, and the records image (R451, R457). -/
def writeTrims (x : Module) : Module :=
  let fs := (List.range 64).foldl (fun m f => put false m f ((fieldOf x.data f).train == .ready)) x.mgmt.stackTrims
  let es := (List.range 48).foldl (fun m i => put false m i ((engineOf x.data i).state == .up)) x.mgmt.opticalTrims
  let hs := (List.range 4).foldl (fun m i => put false m (48 + i) (hostOf x.data i).on) es
  let bad := (List.range 64).foldl (fun m f => put false m f ((fieldOf x.data f).train == .fail)) x.mgmt.stackFailed
  writeImage true (onMgmt (fun m => { m with stackTrims := fs, opticalTrims := hs, stackFailed := bad }) x)

/-- The start is over: READY, and the beat generator marks boundaries (R141, R445). -/
def startDone (cold : Bool) (began : W64) (x : Module) : Module :=
  let x1 := onMgmt (fun m => { m with start := none, coldNext := if cold then false else m.coldNext }) x
  let x2 := setE Ent.startMs (sinceT x began / 1000000) (setE Ent.lastStart (if cold then 1 else 2) x1)
  let x3 := if cold then setE Ent.lastCold x.ts.toNat x2 else x2
  onData (beginMarking (envOf x)) (toState .ready (writeTrims (setE Ent.stackUsable (stackUsable x3.data) x3)))

/-- The start goes on to its next step. -/
def nextStep (j : StartJob) (x : Module) : Module := enterStep j.cold (j.step + 1) j.began x

/-- Step 5 (R341–R343, R447): with fewer than two blocks it fails. -/
def blocksDone (ok : List Bool) (mv : Nat) (x : Module) : Module :=
  let x1 := repeatN (fun n y =>
    if getE y (Ent.convState + n) = 3 then y else setE (Ent.convState + n) (b2n (ok.getD n false)) y) 4 x
  if blocksIn x1.mgmt < 2 ∨ mv < 51000 ∨ 57000 < mv then failStart 1 x1
  else
    let x2 := setPairing <| groupOneOn (setE Ent.busVoltage (ratF32 (mkRat mv 1000)) (onMgmt (fun m => { m with start := none }) x1))
    let x3 := blockThrottle (editCool (fun c => { c with bypass := !profile1 x2 }) x2)
    if getE x3 Ent.powerOrder = 2 ∧ x3.mgmt.orderAt.isNone then onMgmt (fun m => { m with startDue := some (nextIsCold x3) }) x3
    else x3

/-- The module stands in the state in which a start runs its step: OFF for step 4 of a cold start, STANDBY for step 5,
COLD_START from step 6 on, WARM_START for a warm start (R445, R447, R451). -/
def startStands (j : StartJob) (m : ModState) : Bool :=
  if j.cold then
    if j.step ≤ 4 then m == .off else if j.step = 5 then m == .standby else m == .coldStart
  else m == .warmStart

/-- START_STEP_DONE: a step of the start in progress completes with what its work found. -/
def stepDone (f : StepFound) (x : Module) : Module :=
  match x.mgmt.start with
  | none => x
  | some j =>
    if !skourUp x ∨ !startStands j x.mgmt.module then x
    else match j.cold, j.step, f with
      | true, 5, .blocks ok mv => blocksDone ok mv x
      | true, 6, .prime p => primeDone true p (nextStep j) x
      | false, 2, .prime p => if getE x Ent.valvesHeld = 0 then primeDone false p (nextStep j) x else x
      | false, 2, .done => if getE x Ent.valvesHeld = 0 then x else nextStep j x
      | true, 7, .phases out =>
        let x1 := editPower (fun w => { w with
          phasesOut := out.foldl (fun m p => put [] m p.1 p.2) [], forecastDue := true }) x
        let x2 := onMgmt syncPhases x1
        nextStep j (repeatN (fun f y => if phasesOf y.mgmt f ≤ 3 then loseField f y else y) 64 x2)
      | true, 10, .tiles bad =>
        if trainingDone x.data then nextStep j (setE Ent.selftestStep (testStep x) (bad.foldl (fun y ix => spareTile ix y) x)) else x
      | false, 5, .tiles bad =>
        if trainingDone x.data then nextStep j (bad.foldl (fun y ix => spareTile ix y) x) else x
      | true, 8, .done => nextStep j x
      | true, 9, .done => nextStep j x
      | true, 11, .done => startDone true j.began x
      | false, 1, .done => nextStep j x
      | false, 3, .done => nextStep j x
      | false, 4, .done => nextStep j x
      | false, 6, .done => startDone false j.began x
      | _, _, _ => x

/-- START_STEP_FAIL: the step's check fails, or its longest time has passed (R449). -/
def stepFail (timeout : Bool) (x : Module) : Module :=
  match x.mgmt.start with
  | some j =>
    if skourUp x ∧ startStands j x.mgmt.module ∧ (!timeout ∨ stepLimit j.cold j.step < sinceT x j.since) then
      failStart (if timeout then 2 else 1) x
    else x
  | none => x

/-- A latched bank stays off until a start (R405). -/
def clearBanks (x : Module) : Module :=
  repeatN (fun b y =>
    if dbit y.mgmt Ent.bankOff b then
      onMgmt (dclearBits Ent.bankOff (2 ^ b)) (editAct (fun a => { a with bankOff := drop a.bankOff b }) y)
    else y) 5 x

/-- COLD_START or WARM_START: the start that a power order began (R450), through the steps whose findings are given. -/
def runStart (cold : Bool) (fs : List StepFound) (x : Module) : Module :=
  if x.mgmt.startDue ≠ some cold ∨ x.mgmt.module ≠ .standby ∨ !skourUp x then x
  else
    let x1 := setPairing (freshWritable (onMgmt (fun m => { m with startDue := none }) x))
    let x2 := clearBanks <| clearUnitFaults 0x3F (toState (if cold then .coldStart else .warmStart) x1)
    let x3 := if cold then enableRevert (if getE x2 Ent.startMode = 1 then setE Ent.startMode 0 x2 else x2) else x2
    fs.foldl (fun y f => stepDone f y) (enterStep cold (if cold then 6 else 1) x.ts x3)

/-! ### SERVICE (R350, R445) -/

/-- What a service domain carries comes up or goes with it (R30, R348, R493): the channels with the management PHYs, the
valves, pumps and fans with actuator drive. -/
def serviceSwitched (d : Nat) (on : Bool) (x : Module) : Module :=
  if d = 1401 then
    if on then repeatN joinChan 2 x
    else repeatN (fun c y => onMgmt (dclearBits (Ent.chanFlags + c) 0x14)
      (editChannel c (fun b => { BusChan.off with muted := b.muted }) y)) 2 x
  else if d = 1402 ∧ !on then
    setE Ent.valvesHeld 0 (editAct (fun a => { Act.reset with paired := a.paired, queue := a.queue, lost := a.lost }) x)
  else x

/-- An accepted domain_force (R350). -/
def domainForce (v : Nat) (x : Module) : Module :=
  let d := bits 10 0 v
  let was : Bool := decide (1396 ≤ d) && x.mgmt.service.testBit (d - 1396)
  if v.testBit 31 then
    let x1 := if d < 1396 then dataOn x else x
    let x2 := editPower (fun p => { p with
      forced := if was then p.forced else d :: p.forced.filter fun n => n ≠ d }) (domainOn false d x1)
    if was then x2 else serviceSwitched d true x2
  else
    let x2 := editPower (fun p => { p with forced := p.forced.filter fun n => n ≠ d }) (domainOff d x)
    if was then serviceSwitched d false x2 else x2

/-- A service domain that domain_force switched on goes off again. -/
def unforce (x : Module) : Module :=
  (x.mgmt.power.forced.filter fun d => decide (1396 ≤ d)).foldl (fun y d =>
    if y.mgmt.service.testBit (d - 1396) then serviceSwitched d false (domainOff d y) else y) x

/-- An accepted service_order (R445). -/
def serviceOrder (v : Nat) (x : Module) : Module :=
  if v = 1 then toState .service (dataOff x)
  else
    let x1 := dataOff (unforce x)
    toState .standby (editCool (fun c => { c with bypass := !profile1 x1 }) x1)

/-! ### Management-only warm starts (R452–R456) -/

/-- What waited in the sequencers' queue is taken: records keep their times, events are recorded, losses leave a gap entry
and their event (R430, R465). -/
def takeQueue (x : Module) : Module :=
  let lost := x.mgmt.act.lost
  let x1 := editAct (fun a => { a with queue := [], lost := 0 }) x
  let x2 := x.mgmt.act.queue.foldl (fun y (q : JEnt × List Byte) =>
    if q.1.kind = 5 then recordEvent (q.1.index * 256 + q.1.sub) q.1.time q.2 y else commitEnt q.1 y) x1
  if lost = 0 then x2
  else
    let n := fun k y => setE k ((getE y k + lost) % 2 ^ 32) y
    recordEvent 0x61FF07 x.ts (natLe 4 lost) (note 0 0xA Ent.journalLost lost (n Ent.seqEventsLost (n Ent.journalLost x2)))

/-- Sill's entries without a sequence enter the journal, and Sill learns their sequences (R466). -/
def assignSill (x : Module) : Module :=
  let r := x.sill.copy.foldl (fun (a : List JEnt × Mgmt) e =>
    if e.sequence = 0 then (a.1 ++ [{ e with sequence := a.2.jNext }], journalPut e a.2) else (a.1 ++ [e], a.2)) ([], x.mgmt)
  { x with mgmt := r.2, sill := { x.sill with copy := r.1 } }

/-- Every buffered J2 record is taken (R455). -/
def takeRecords (x : Module) : Module := repeatN (fun _ y => takeRecord y) x.ctrl.journal.length x

/-- The pairs after a restart: the pair that was active takes control unless it fails; the former standby comes first when
the active one mismatched (R438, R455). -/
def restartPairs (m : Mgmt) (passA passB : Bool) : List PairSt × Option Nat :=
  let ok := fun p => (if p = 0 then passA else passB) && pairAt m p != .retired && pairAt m p != .failed
  let first := if pairAt m m.active = .active then m.active else 1 - m.active
  let c := if ok first then some first else if ok (1 - first) then some (1 - first) else none
  ((List.range 2).map fun p =>
    if c = some p then .active
    else if pairAt m p = .retired then .retired
    else if ok p then .resync else .failed, c)

/-- Skour reads back the J1 latches of the powered data plane (R18, R455). -/
def readBack (x : Module) : Module :=
  if x.data.on then
    let j := x.data.j1
    editJoints (fun y => { y with stepReq := j.stepReq, order := j.order, out := ⟨j.stepReq, j.hold, j.throttle⟩ }) x
  else x

/-- MGMT_WARM_START: the restart ends, with the pairs' short self-tests and what the retained store's load found. -/
def mgmtWarmStart (passA passB : Bool) (f : StoreFound) (x : Module) : Module :=
  match x.mgmt.run with
  | .restart since _ beats =>
    let r := restartPairs x.mgmt passA passB
    match r.2 with
    | none => onMgmt (fun m => { m with pairs := r.1, run := .down }) x
    | some a =>
      let frames := sinceT x since / 1000000
      let x1 := onMgmt syncCapacity (reloadStore f (onMgmt (fun m => { m with pairs := r.1, active := a, run := .up }) x))
      let x3 := tellStore f (storeBits x1.mgmt.settings x1.mgmt.records) (readBack x1)
      let x4 := assignSill (takeQueue (takeRecords x3))
      let old : Bool := match x.ctrl.orderReq with | some q => decide (20000000 < sinceT x q.stamp) | none => false
      let x5 := onlyIf old (onCtrl fun c => { c with orderReq := none }) x4
      let x6 := note 0 0xC Ent.mgmtRestart frames (setE Ent.lastStart 3 (setE Ent.startMs frames (incE Ent.mgmtRestarts x5)))
      let x7 := editJoints (fun j => { j with runFrames := j.runFrames + (if snapCount x.mgmt ≠ beats then frames else 0) }) x6
      let x8 := serviceWatchdog x7
      match x.mgmt.start with
      | some j => if startStands j x.mgmt.module then failStart 3 x8 else followSill x8
      | none => followSill x8
  | _ => x

/-- mgmt_restart may be ordered now (R453). -/
def restartAllowed (x : Module) : Bool :=
  let t := x.mgmt.power.throttles
  x.mgmt.start.isNone && x.mgmt.startDue.isNone && x.mgmt.cool.watch.stop.isNone && x.mgmt.cool.clamp.isNone &&
    !t.flowTerm && !t.clamp && !t.flowStop && t.valves.isEmpty && !loweringWithin 2000000000 x

/-! ### Sparing (R268) -/

/-- restore_tile: the bit is cleared. -/
def restoreTile (ix : Nat) (x : Module) : Module := markTile ix false x

/-! ### Leaving SAFE_STOP and LEAK_CUT (R552–R555) -/

/-- A function that has acted shows that it is clear (R552). -/
def actClear (x : Module) (cause : Byte) : Bool :=
  let s := x.sill
  let quiet := fun (v : Int) => decide (v < 850)
  match cause.toNat % 16 with
  | 2 => s.watch.stop.isNone
  | 3 => (x.mgmt.cool.tileRaw.all fun p => (tileReadings x.mgmt (p.1 / 2)).all quiet) &&
      (List.range 64).all fun f => match stackReading x.mgmt f with | some v => quiet v | none => true
  | 4 => decide (s.busAmps < 200) && decide (s.busMv ≤ 57000)
  | 5 => decide (680 ≤ s.inletV) && decide (s.inletV ≤ 880)
  | 6 => decide (100 ≤ s.services)
  | 8 => if cause.toNat / 16 = 3 then false
    else (!s.leakA.faulted || !s.leakB.faulted) && (s.blind == 0 && decide (10000 ≤ s.sensing))
  | _ => true

/-- A function has acted in this SFCLK cycle (R553). -/
def actsNow (x : Module) : Bool := x.sill.lastAct == some x.sf

/-- Sill agrees to leave SAFE_STOP. -/
def exitAgrees (x : Module) : Bool := x.sill.on && !x.sill.fault && !actsNow x && x.sill.acted.all (actClear x)

/-- A channel has read dry for more than 60,000 samples (R555). -/
def leakDry (c : LeakChan) : Bool := decide (60000 < c.dry)

/-- The safe-stop exit (R554). -/
def safeStopExit (x : Module) : Module :=
  let cold := x.sill.acted.any fun c => c.toNat % 16 == 2 || c.toNat % 16 == 3 || c.toNat % 16 == 4
  let x1 := onSill (fun s => { s with
    safeStop := false, inletLock := false, halt := false, halted := false, tilePwrEn := true, acted := [], safeCause := 0
    firstCause := 0, latchAt := none, latched := none, sf6At := none, hotTile := 0, hotStack := 0
    exited := some (x.sf, latchesOf s) }) x
  let x2 := onCtrl (fun c => { c with haltCause := 0 })
    (onMgmt (fun m => { m with coldNext := m.coldNext || cold }) (endAlarm 2 x1))
  if x.mgmt.module = .safeStop then
    let x3 := toState .standby (editCool (fun c => { c with bypass := !profile1 x2 }) (dataOff x2))
    onData (fun d => { d with tilePwrEn := true }) x3
  else beginInlet (onData (fun d => { d with tilePwrEn := true }) x2)

/-- The leak-cut exit (R555). -/
def leakCutExit (x : Module) : Module :=
  let x1 := onSill (fun s => { s with
    leakCut := false, safeStop := false, trayCut := false, leakOut := false, leakCause := 0, safeCause := 0, firstCause := 0
    acted := [], halt := s.halt && s.inletLock, latchAt := none, latched := none, sf6At := none
    exited := some (x.sf, latchesOf s)
    leakA := { s.leakA with confirmed := false }, leakB := { s.leakB with confirmed := false } }) x
  let x2 := endAlarm 2 (endAlarm 1 (onMgmt (fun m => { m with coldNext := true }) (setE Ent.leakState (leakStateOf x1.sill) x1)))
  let x3 := toState .off (onCtrl (fun c => { c with haltCause := 0 }) x2)
  beginInlet (onData (fun d => { d with tilePwrEn := true }) x3)

/-- TRAY_CLOSED (R548): both loops have been closed for 1 s. -/
def trayClosed (x : Module) : Module :=
  if x.sill.present ∧ x.sill.interlock then x
  else
    let x1 := onSill (fun s => { s with present := true, interlock := true }) x
    if skourUp x then beginInlet x1 else x1

/-! ### The frame boundary (R7, R364) -/

/-- What a frame's meters read: powers in mW, inlet V and A × 10, auxiliary V × 10, bus mV, blocks' outputs in W, and
whether the pairs' digests differ. -/
structure FrameMeas where
  power : Nat
  service : Nat
  inletV : Nat
  inletA : Nat
  auxV : Nat
  auxPower : Nat
  busMv : Nat
  blocks : List Nat
  differ : Bool
  /-- ns that Sill's own clock counted over the frame (R27) -/
  sill : Nat
  /-- each valve channel's mean current over the frame, in mA (R433) -/
  valves : List Nat
  /-- OSC-A less OSC-B, in ppb (R468) -/
  osc : Int
deriving DecidableEq, Repr

/-- The inlet's warning band (R337). -/
def warnBand (v : Nat) : Bool := (decide (880 < v) && decide (v ≤ 920)) || (decide (640 ≤ v) && decide (v < 680))

/-- The meters' entries of a frame. -/
def takeMeters (f : FrameMeas) (x : Module) : Module :=
  let q := fun (n d : Nat) => ratF32 (mkRat n d)
  let on := inletClosed x
  let x1 := setE Ent.auxPower (q f.auxPower 1000) (setE Ent.auxVoltage (q f.auxV 10)
    (setE Ent.inputCurrent (q f.inletA 10) (setE Ent.inputVoltage (q f.inletV 1) x)))
  let x2 := setE Ent.oscOffset (ratF32 (mkRat f.osc 1000)) (setE Ent.busVoltage (q (if on then f.busMv else 0) 1000) x1)
  let x3 := repeatN (fun n y => setE (Ent.convPower + n) (q (f.blocks.getD n 0) 1) y) 4 x2
  let x4 := repeatN (fun n y => editChan n (fun k => { k with current := BitVec.ofNat 32 (q (f.valves.getD n 0) 1000) }) y) 20 x3
  editPower (fun p => { p with
    service := f.service
    warnFrames := if warnBand f.inletV then p.warnFrames + 1 else 0
    busOkFrames := if 51000 ≤ f.busMv ∧ f.busMv ≤ 57000 ∧ on then p.busOkFrames + 1 else 0 })
    (onSill (fun s => { s with inletV := f.inletV }) x4)

/-- host_alive as J2 shows it, with its events (R461, R462, R428). -/
def followHost (x : Module) : Module :=
  let v := x.ctrl.hostAlive
  let x1 := if v = x.mgmt.joints.hostAlive then x
    else raiseEvent 0x20FF02 (natLe 1 (b2n v)) (setE Ent.hostAlive (b2n v) (editJoints (fun j => { j with hostAlive := v }) x))
  let h := b2n (!v)
  let x2 := if getE x1 Ent.actuatorHold = h then x1 else raiseEvent 0x61FF06 (natLe 1 h) (setE Ent.actuatorHold h x1)
  syncAutonomy x2

/-- A snapshot that shows a run's beats stopped takes the module from RUNNING to HELD (R32, R278): stopped by a hold or at a
turn point, not by a beat fault, and not still waiting for the start or resume last written. -/
def followBeats (x : Module) : Module :=
  let m := x.mgmt
  if m.module = .running ∧ m.joints.snapFrame.isSome ∧ snapHeld m ∧ !snapFault m ∧ !m.joints.waiting then toState .held x else x

/-- With no image loaded the profile and min_step are gone (R264, R302). -/
def followImage (x : Module) : Module :=
  if x.mgmt.module.runs ∨ (x.mgmt.power.profile.isNone ∧ x.mgmt.joints.minStep = 0 ∧ getE x Ent.profileState = 0) then x
  else setE Ent.profileState 0 (editJoints (fun j => { j with minStep := 0 }) (editPower (fun p => { p with profile := none }) x))

/-- Skour's work at a frame boundary. -/
def skourFrame (f : FrameMeas) (x : Module) : Module :=
  let x1 := onlyIf f.differ digestsDiffer (takeMeters f (serviceWatchdog x))
  let x2 := syncValveThrottle (followImage (followBeats (followHost (followSill x1))))
  let x3 := editJoints (fun j => { j with runFrames := j.runFrames + b2n (snapAdvancing x2.mgmt) }) x2
  coolFrame (powerFrame f.power (primeFrame x3))

/-- TSCLK moves on by 1 ms and the part of its slew that a frame takes (R7, R486); Sill's own time by what its clock counted
(R27). -/
def advanceClock (sill : Nat) (x : Module) : Module :=
  let part := slewPart x.mgmt.bus.slew
  editBus (fun b => { b with slew := b.slew - part })
    { x with ts := x.ts + BitVec.ofInt 64 (1000000 + part), sf := x.sf + BitVec.ofNat 64 sill }

/-- The frame is counted and metered, and a new minute makes the forecast due (R351, R371). -/
def meterStep (f : FrameMeas) (minute : Bool) (x : Module) : Module :=
  editPower (fun p => { p with forecastDue := p.forecastDue || minute })
    (meterFrame f.power minute (onMgmt (fun m => { m with frame := m.frame + 1 }) x))

/-- The windows that begin in a frame, from TSCLK `t` to `x.ts`: the queues leave as R483 allows in each. -/
def frameWindows (t : W64) (x : Module) : Module :=
  ((List.range 2).map fun i => t.toNat / 625000 + 1 + i).foldl (fun y k =>
    if k * 625000 ≤ x.ts.toNat then
      repeatN (fun c z => drainWindow c (winType (windowEntry (getE z Ent.matrix) (k % 128))) z) 2 y
    else y) x

/-- What a frame boundary does whether or not Skour runs: the clock, the meter, and the rack bus windows. -/
def frameStart (f : FrameMeas) (x : Module) : Module :=
  let x1 := advanceClock f.sill x
  let x2 := frameWindows x.ts (meterStep f (decide (minuteOf x1.ts ≠ minuteOf x.ts)) x1)
  onlyIf (decide (basicCycle x2 ≠ basicCycle x)) cycleStart x2

/-- The status of the windows to come is taken (R491). -/
def takeStatus (x : Module) : Module := editBus (fun b => { b with status := statusHead x }) x

/-- FRAME_BOUNDARY: 1 ms of REF passes. TSCLK advances with its slew; the meter, the rack bus windows and, while it runs,
Skour act. -/
def frameBoundary (f : FrameMeas) (x : Module) : Module :=
  if unpowered x then x
  else
    let y := frameStart f x
    if skourUp y then takeStatus (skourFrame f y) else y

end Sys2Proof.Machine
end

