-- ==== Sys2Proof/Machine/Dictionary.lean ====
section
/-!
DEFINITION. The object dictionary (chapter 16) and the paths to it (R498–R502, R523): requesters and levels, what an entry
reads as, the checks of a request, what an accepted write does, safety-confirmed writes, transfers and replies.
-/

namespace Sys2Proof.Machine

/-! ### Requesters and levels (R510–R513) -/

/-- One requester on the rack bus, whichever channel it uses, or on management Ethernet (R521, R523). -/
def sameWho (a b : Requester) : Bool :=
  (decide (a.chan = 2) == decide (b.chan = 2)) && a.addr == b.addr && a.port == b.port

/-- The 16 entries of an authority table: prefix, its length, the level (R511). -/
def authEntries (t : Nat) : List (Nat × Nat × Nat) :=
  (List.range 16).map fun i =>
    let b := natLe 18 (t / 2 ^ (144 * i))
    (beNat (b.take 16), leNat ((b.drop 16).take 1), leNat (b.drop 17))

/-- An entry's prefix matches an address. -/
def prefixMatches (addr : Nat) (e : Nat × Nat × Nat) : Bool :=
  e.2.2 != 0xFF && decide (addr / 2 ^ (128 - e.2.1) = e.1 / 2 ^ (128 - e.2.1))

/-- The level of an Ethernet address: the longest matching prefix, the lower index between equal ones. -/
def etherLevel (t addr : Nat) : Nat :=
  let best := (authEntries t).foldl (fun (acc : Option (Nat × Nat × Nat)) e =>
    if prefixMatches addr e then
      match acc with
      | some b => if b.2.1 < e.2.1 then some e else some b
      | none => some e
    else acc) none
  match best with | some e => e.2.2 | none => 5

/-- A requester's authority level (R510). -/
def levelOf (x : Module) (w : Requester) : Nat :=
  if w.chan < 2 then (if w.addr = 1 then 2 else 5) else etherLevel (getE x Ent.authorityTable) w.addr

/-- Entries that rack manager and service may write (R512). -/
def rackEntries : List Nat :=
  [Ent.rackHeartbeat, Ent.envelope, Ent.powerOrder, Ent.orderDelay, Ent.rackHold, Ent.authorityTable, Ent.eventTargets,
    Ent.ptpEnable, Ent.ptpDomain, Ent.ptpTransport, Ent.serviceOrder, Ent.restoreFactory, Ent.convRestore, Ent.pairRestore,
    Ent.oscRevertClear, Ent.restoreTile, Ent.manifoldProfile, Ent.pullinTime, Ent.dipMin, Ent.dpOpen, Ent.stopThreshold,
    Ent.dpStop, Ent.leakThreshold, Ent.tClamp, Ent.tStackClamp, Ent.safeStopExit, Ent.leakCutExit]
/-- Entries that host may write too. -/
def hostEntries : List Nat := [Ent.domainForce, Ent.retireTile, Ent.valveFaultClear, Ent.unitFaultClear, Ent.hostPfcPriority]
/-- Entries that fleet may write as well. -/
def fleetEntries : List Nat :=
  [Ent.startMode, Ent.coldInterval, Ent.mgmtRestart, Ent.turnInterval, Ent.tempTable, Ent.dutyFloor, Ent.dtTarget,
    Ent.forecastEnable, Ent.pumpTable, Ent.fanTable, Ent.maskSensor, Ent.flagClear]

/-- A level may write an entry (R512). -/
def mayWrite (level k : Nat) : Bool :=
  if k = Ent.journalCursor then true
  else if k / 65536 = 0xF0 then level == 1
  else if k / 65536 = 0x11 ∨ k ∈ rackEntries then level == 1 || level == 2
  else if k ∈ hostEntries then level == 1 || level == 2 || level == 4
  else if k ∈ fleetEntries then level == 1 || level == 2 || level == 3 || level == 4
  else false

/-- A level may read an entry (R513). -/
def mayRead (level k : Nat) : Bool :=
  if k = Ent.authorityTable then level == 1 || level == 2 else if k / 65536 = 0xF0 then level == 1 else true

/-! ### What an entry reads as -/

/-- Cursors are kept per node or per Ethernet source address (R467). -/
def cursorKey (a b : Requester) : Bool := (decide (a.chan = 2) == decide (b.chan = 2)) && a.addr == b.addr
/-- A requester's journal cursor. -/
def cursorOf (x : Module) (w : Requester) : Nat :=
  match x.mgmt.bus.cursors.find? fun p => cursorKey p.1 w with | some p => p.2 | none => 1
/-- It is written; of more than 32 the one written longest ago goes. -/
def setCursor (w : Requester) (v : Nat) (x : Module) : Module :=
  editBus (fun b => { b with cursors := ((w, v) :: b.cursors.filter fun p => !cursorKey p.1 w).take 32 }) x

/-- The sequence after `q` (R465). -/
def seqAfter (q : Nat) : Nat := if q = 0xFFFFFFFF then 1 else q + 1
/-- The lowest sequence still in the ring. -/
def journalOldest (m : Mgmt) : Nat := (m.jNext - 1 + 0xFFFFFFFF - m.jHeld) % 0xFFFFFFFF + 1
/-- The 32 bytes of an entry, zeros when it is not in the ring. -/
def journalEntry (m : Mgmt) (q : Nat) : List Byte :=
  match m.journal.find? fun p => p.1 == q % 65536 with
  | some p => if p.2.sequence = q then entBytes p.2 else List.replicate 32 0
  | none => List.replicate 32 0
/-- `n` entries from `q` on. -/
def journalFrom (m : Mgmt) : Nat → Nat → List Byte
  | 0, _ => []
  | n + 1, q => journalEntry m q ++ journalFrom m n (seqAfter q)

/-- A list of I16 values. -/
def i16s (ts : List Int) : List Byte := ts.flatMap fun t => natLe 2 (i16 t)
/-- One bit per index of `n`. -/
def bitMap (n : Nat) (p : Nat → Bool) : Nat := (List.range n).foldl (fun v i => if p i then v + 2 ^ i else v) 0

/-- j1_flags as latched on J1 (R532). -/
def j1Flags (x : Module) : Nat :=
  let t := x.mgmt.power.throttles
  b2n x.mgmt.joints.out.hold + 2 * b2n x.mgmt.joints.out.throttle + 4 * b2n x.mgmt.joints.hostHold +
    8 * b2n (decide (getE x Ent.rackHold = 1)) + 16 * b2n (t.flowTerm || t.flowStop || t.clamp)

/-- A snapshot has come since power came. -/
def haveSnapshot (x : Module) : Bool := x.mgmt.joints.snapshot.any fun b => b != 0

/-- Identity and joints entries computed when they are read. -/
def viewJoints (x : Module) (k : Nat) : Option Nat :=
  let s := x.mgmt.joints.snapshot
  if k = Ent.physicalModule then some (match x.data.desc with | some d => d.own.toNat | none => 0xFF)
  else if k = Ent.sysId then some (match x.data.desc with | some d => d.sysId.toNat | none => 0)
  else if k = Ent.sysDigest then some (match x.data.desc with | some d => d.digest.toNat | none => 0)
  else if k = Ent.logicalModule then some (match x.data.desc with | some _ => logicalModule x.data | none => 0xFF)
  else if Ent.keyId ≤ k ∧ k ≤ Ent.keyId + 3 then
    some (match x.ctrl.keys.getD (k - Ent.keyId) none with | some y => y.keyId.toNat | none => dget x.mgmt k)
  else if Ent.keyPublic ≤ k ∧ k ≤ Ent.keyPublic + 3 then
    some (match x.ctrl.keys.getD (k - Ent.keyPublic) none with
      | some y => leNat (4 :: natBe 48 y.x ++ natBe 48 y.y)
      | none => dget x.mgmt k)
  else if k = Ent.tsclkNow then some x.ts.toNat
  else if k = Ent.stateWord then some (if x.mgmt.frame = 0 then 0 else leNat (wordBytes x.mgmt.joints.word))
  else if k = Ent.j4Snapshot then some (leNat s)
  else if k = Ent.j1StepReq then some x.mgmt.joints.out.stepReq
  else if k = Ent.j1Flags then some (j1Flags x)
  else if k = Ent.j1Order then some x.mgmt.joints.order.toNat
  else if k = Ent.governingModule then some (if haveSnapshot x then snapByte x.mgmt 20 else 0xFF)
  else if k = Ent.governingStep then some (snapByte x.mgmt 16)
  else if k = Ent.counterSummary then some (leNat (s.drop 512))
  else if k = Ent.summaryTick then some (leNat ((s.drop 8).take 8))
  else if k = Ent.tileMap then some (leNat (x.mgmt.joints.placement.tileMap.flatMap (natLe 2)))
  else if k = Ent.moduleMap then some (leNat (x.mgmt.joints.placement.moduleMap.flatMap (natLe 1)))
  else if k = Ent.fieldMap then some (leNat (x.mgmt.joints.placement.fieldMap.flatMap (natLe 1)))
  else if k = Ent.turnNow then some x.mgmt.joints.turnNow
  else if k = Ent.turnState then some x.mgmt.joints.placement.turnState
  else if k = Ent.runSinceTurn then some (x.mgmt.joints.runFrames / 1000)
  else none

/-- Skour, Sill and rack bus entries computed when they are read. -/
def viewSkour (x : Module) (w : Requester) (k : Nat) : Option Nat :=
  let m := x.mgmt
  let pair : PairSt → Nat := fun s =>
    match s with | .active => 0 | .standby => 1 | .resync => 2 | .selftest => 3 | .failed => 4 | .retired => 5
  if k = Ent.moduleState then some (modCode m.module)
  else if k = Ent.startStep then some (match m.start with | some j => j.step | none => 0)
  else if k = Ent.stackTrimsValid then some (bitMap 64 (look false m.stackTrims))
  else if k = Ent.opticalTrimsValid then some (bitMap 52 (look false m.opticalTrims))
  else if k = Ent.journalNext then some m.jNext
  else if k = Ent.journalOldest then some (journalOldest m)
  else if k = Ent.journalCursor then some (cursorOf x w)
  else if k = Ent.journalRead then some (leNat (journalFrom m 8 (cursorOf x w)))
  else if k = Ent.eventNext then some m.eventSeq
  else if k = Ent.skourActive then some m.active
  else if k = Ent.pairState then some (pair (pairAt m 0) + 256 * pair (pairAt m 1))
  else if k = Ent.oscActive then some m.clocks.source
  else if k = Ent.sillState then some (sillState x.sill)
  else if k = Ent.traySignals then some (traySignals x.sill)
  else if k = Ent.chanState ∨ k = Ent.chanState + 1 then some (busCode (busOf x (k - Ent.chanState)).st)
  else none

/-- Power entries computed when they are read. -/
def viewPower (x : Module) (k : Nat) : Option Nat :=
  if k = Ent.capRack then some (ratF32 (rackCap x : Rat))
  else if k = Ent.capHost then some (ratF32 x.mgmt.power.hostCap)
  else if k = Ent.capThermal then some (ratF32 x.mgmt.cool.flowTerm)
  else if k = Ent.capSafety then some (ratF32 (safetyCap (blocksIn x.mgmt) : Rat))
  else if k = Ent.capEffective then some (ratF32 (effectiveCap x))
  else if k = Ent.capStep then some x.mgmt.power.capStep
  else if k = Ent.stepReq then some x.mgmt.joints.stepReq
  else if k = Ent.orderPending then some (orderSeconds x)
  else if k = Ent.kCorr then some (ratF32 x.mgmt.power.k)
  else if k = Ent.tileDomainsOn then some (bitMap 1280 (tileOn x.data))
  else if k = Ent.stackDomainsOn then some (bitMap 64 fun f => (fieldOf x.data f).on)
  else if k = Ent.opticalDomainsOn then
    some (bitMap 52 fun i => if i < 48 then (engineOf x.data i).on else (look HostEngine.off x.data.hosts (i - 48)).on)
  else if k = Ent.serviceDomainsOn then some x.mgmt.service
  else none

/-- Coolant and thermal entries computed when they are read. -/
def viewCool (x : Module) (k : Nat) : Option Nat :=
  let c := x.mgmt.cool
  let f (t : Int) (n : Nat) : Nat := ratF32 (mkRat t n)
  if k = Ent.flow then some (ratF32 (c.flowMean / 100))
  else if k = Ent.pSupply then some (f c.supply 1000)
  else if k = Ent.pReturn then some (f c.ret 1000)
  else if Ent.zoneTIn ≤ k ∧ k ≤ Ent.zoneTIn + 15 then some (f (look 0 c.zoneIn (k - Ent.zoneTIn)) 10)
  else if Ent.zoneTOut ≤ k ∧ k ≤ Ent.zoneTOut + 15 then some (f (look 0 c.zoneOut (k - Ent.zoneTOut)) 10)
  else if Ent.zoneDp ≤ k ∧ k ≤ Ent.zoneDp + 15 then some (f (look 0 c.dp (k - Ent.zoneDp) : Nat) 1000)
  else if Ent.zoneDemand ≤ k ∧ k ≤ Ent.zoneDemand + 15 then some (pctUp (look 0 c.demand (k - Ent.zoneDemand)))
  else if Ent.zoneDuty ≤ k ∧ k ≤ Ent.zoneDuty + 15 then some (dutyOf x (k - Ent.zoneDuty))
  else if k = Ent.leakGA then some (f x.sill.leakA.g 10)
  else if k = Ent.leakGB then some (f x.sill.leakB.g 10)
  else if k = Ent.tileUsed then
    some (leNat (i16s ((List.range 1280).map fun ix => if tileOn x.data ix then usedReading x ix / 2 else 0)))
  else if k = Ent.tileRaw then some (leNat (i16s ((List.range 2560).map (look 0 c.tileRaw))))
  else if k = Ent.stackTemps then some (leNat (i16s ((List.range 64).map (look 0 c.stack))))
  else if k = Ent.convTemps then some (leNat (i16s ((List.range 8).map (look 0 c.conv))))
  else if k = Ent.hottestUsed then some (match hottestUsed x with | some p => f p.2 20 | none => 0)
  else if k = Ent.hottestTile then some (match hottestUsed x with | some p => p.1 | none => 0xFFFF)
  else if k = Ent.thermalStep then some c.thermalStep
  else if k = Ent.thermalFlags then
    some (b2n c.clamp.isSome + 2 * b2n x.mgmt.power.throttles.clamp + 4 * b2n x.mgmt.power.throttles.flowTerm)
  else none

/-- Actuator entries computed when they are read. -/
def viewAct (x : Module) (k : Nat) : Option Nat :=
  let unit (a : Nat) (n : Nat) : Option Nat := if a ≤ k ∧ k < a + n then some (k - a) else none
  let volts (u : Nat) : Nat := ratF32 (unitOf x u).volts
  if k = Ent.valveState then some (leNat ((List.range 20).flatMap fun c => natLe 1 (chanCode (chanOf x (chanKey x c)).st)))
  else if k = Ent.valveCurrent then some (leNat ((List.range 20).flatMap fun c => natLe 4 (chanOf x (chanKey x c)).current.toNat))
  else if k = Ent.pumpRunning then some (x.mgmt.act.running.getD 0xFF)
  else match unit Ent.pumpTarget 2, unit Ent.pumpRpm 2, unit Ent.pumpVoltage 2 with
    | some u, _, _ => some (unitOf x u).target
    | _, some u, _ => some (unitOf x u).rpm
    | _, _, some u => some (volts u)
    | _, _, _ =>
      match unit Ent.fanTarget 4, unit Ent.fanRpm 4, unit Ent.fanVoltage 4 with
      | some u, _, _ => some (unitOf x (16 + u)).target
      | _, some u, _ => some (unitOf x (16 + u)).rpm
      | _, _, some u => some (volts (16 + u))
      | _, _, _ => none

/-- What entry `k` reads as to requester `w` (R504). -/
def readEntry (x : Module) (w : Requester) (k : Nat) : Nat :=
  if k % 256 = 0 then highestSub (k / 256)
  else match viewJoints x k with
    | some v => v
    | none => match viewSkour x w k with
      | some v => v
      | none => match viewPower x k with
        | some v => v
        | none => match viewCool x k with
          | some v => v
          | none => match viewAct x k with
            | some v => v
            | none => dget x.mgmt k

/-- The entry a request names; else the refusal (R504, R515). Sub-index 0 is a U8 that is RO. -/
def nameEntry (index sub : Nat) : Except Nat DEntry :=
  if !indexHolds index then .error 0x0201
  else if sub = 0 then .ok ⟨index, 0, 0, 1, false, .ro, highestSub index, false⟩
  else match entryAt index sub with | some e => .ok e | none => .error 0x0202

/-! ### Range checks (check 5) -/

/-- An F32 pattern is a number. -/
def f32Finite (v : Nat) : Bool := bits 30 23 v != 255
/-- A number within limits, each rounded to F32. -/
def f32Within (lo hi : Rat) (v : Nat) : Bool :=
  f32Finite v && decide (f32Rat (ratF32 lo) ≤ f32Rat v) && decide (f32Rat v ≤ f32Rat (ratF32 hi))
/-- `code` unless `ok`. -/
def codeUnless (ok : Bool) (code : Nat) : Nat := if ok then 0 else code

/-- An envelope is refused (R357). -/
def envelopeRefusal (x : Module) (v : Nat) : Nat :=
  if (List.range 60).any fun i => decide (bits (47 + 16 * i) (32 + 16 * i) v < 11000) then 0x0320
  else if minuteOf x.ts + 60 < v % 2 ^ 32 then 0x0321
  else 0

/-- The entry flag_clear names, its group and its mask (R509). -/
def clearTarget (v : Nat) : Nat := bits 15 0 v * 256 + bits 23 16 v
def clearGroup (v : Nat) : Nat := bits 31 24 v
def clearMask (v : Nat) : Nat := bits 95 32 v
/-- The sticky bits a flag_clear value clears. -/
def clearBits (v : Nat) : Nat := (clearMask v * 2 ^ (64 * clearGroup v)) &&& stickyMask (clearTarget v)

/-- The refusal of an authority table (R511). -/
def authorityRefusal (v : Nat) : Nat :=
  codeUnless ((authEntries v).all fun e => e.2.2 == 0xFF || (decide (1 ≤ e.2.2) && decide (e.2.2 ≤ 5) && decide (e.2.1 ≤ 128))) 0x0380

/-- The refusal of an entry that states a range but no code (log 41). -/
def unstated (k : Nat) : Nat := 0x0300 + (Config.rangeCode k).toNat

/-- Range refusals of power, coolant and actuator entries. -/
def rangeDeck (x : Module) (k v : Nat) : Nat :=
  if k = Ent.envelope then envelopeRefusal x v
  else if k = Ent.powerOrder then codeUnless (decide (v ≤ 2)) (unstated k)
  else if k = Ent.orderDelay then codeUnless (decide (v ≤ 600)) (unstated k)
  else if k = Ent.convRestore then codeUnless (decide (v < 4)) (unstated k)
  else if k = Ent.domainForce then
    let d := bits 10 0 v
    codeUnless (!(d == 1396 || d == 1397 || d == 1398 || d == 1400 || decide (1403 < d))) 0x0330
  else if k = Ent.stopThreshold then codeUnless (f32Within 2 10 v) 0x0340
  else if k = Ent.dpStop then codeUnless (f32Within (mkRat 2 100) (mkRat 20 100) v) 0x0340
  else if k = Ent.dutyFloor then codeUnless (decide (20 ≤ v) && decide (v ≤ 100)) 0x0340
  else if k = Ent.dtTarget then codeUnless (f32Within 4 10 v) 0x0340
  else if k = Ent.leakThreshold then codeUnless (f32Within 20 200 v) 0x0340
  else if k = Ent.maskSensor then codeUnless (decide (v % 32768 ≤ 2559)) 0x0340
  else if k = Ent.tClamp then codeUnless (f32Within 80 105 v) 0x0340
  else if k = Ent.tStackClamp then codeUnless (f32Within 75 95 v) 0x0340
  else if k = Ent.pullinTime then codeUnless (decide (2000 ≤ v) && decide (v ≤ 3600)) 0x0350
  else if k = Ent.dipMin then codeUnless (f32Within (mkRat 1 10) 1 v) 0x0350
  else if k = Ent.dpOpen then codeUnless (f32Within (mkRat 1 100) (mkRat 2 10) v) 0x0350
  else if k = Ent.manifoldProfile then codeUnless (decide (v ≤ 1)) 0x0350
  else 0

/-- Range refusals of the other entries. -/
def rangeRest (k v : Nat) : Nat :=
  if k = Ent.startMode then codeUnless (decide (v ≤ 2)) 0x0360
  else if k = Ent.coldInterval then codeUnless (decide (v ≤ 8760)) 0x0360
  else if k = Ent.serviceOrder then codeUnless (decide (v ≤ 1)) 0x0360
  else if k = Ent.restoreFactory then codeUnless (decide (v = 1)) 0x0360
  else if k = Ent.retireTile ∨ k = Ent.restoreTile then codeUnless (decide (v < 1280)) (unstated k)
  else if k = Ent.nodeAddress then codeUnless (decide (v = 0) || (decide (2 ≤ v) && decide (v ≤ 31))) 0x0370
  else if k = Ent.rateMode then codeUnless (decide (v ≤ 4)) 0x0370
  else if k = Ent.dataRate then codeUnless (v == 2 || v == 4 || v == 5) 0x0370
  else if k = Ent.matrix then codeUnless (matrixFits v) 0x0371
  else if k = Ent.gnomonNode then codeUnless (decide (1 ≤ v) && decide (v ≤ 31)) 0x0370
  else if k = Ent.gnomonBackup then codeUnless (decide (v ≤ 31)) 0x0370
  else if k = Ent.eventChannel then codeUnless (decide (v ≤ 1)) 0x0370
  else if k = Ent.authorityTable then authorityRefusal v
  else if k = Ent.hostPfcPriority then codeUnless (decide (v ≤ 7)) 0x0380
  else if k = Ent.ptpEnable ∨ k = Ent.ptpTransport ∨ k = Ent.rackHold then codeUnless (decide (v ≤ 1)) 0x0380
  else if k = Ent.ptpDomain then codeUnless (decide (v ≤ 127)) 0x0380
  else if k = Ent.safeStopExit ∨ k = Ent.leakCutExit then codeUnless (decide (v = 1)) 0x0380
  else if k = Ent.flagClear then
    let len := match entryOf (clearTarget v) with | some e => e.len | none => 0
    codeUnless (decide (8 * clearGroup v < len)) 0x0380
  else 0

/-- Check 5. -/
def rangeRefusal (x : Module) (k v : Nat) : Nat :=
  let c := rangeDeck x k v
  if c = 0 then rangeRest k v else c

/-! ### State checks (check 6) -/

/-- Check 6 (R268, R341, R350, R418, R419, R427, R437, R445, R453, R460, R552, R555). -/
def stateRefusal (x : Module) (k v : Nat) : Nat :=
  let s := x.mgmt.module
  let parked : Bool := s == .standby || s == .service
  let still : Bool := parked || s == .ready
  if k = Ent.retireTile ∨ k = Ent.valveFaultClear then codeUnless still 0x0410
  else if k = Ent.restoreTile ∨ k = Ent.domainForce ∨ k = Ent.convRestore ∨ k = Ent.pairRestore ∨ k = Ent.unitFaultClear then
    codeUnless (s == .service) 0x0410
  else if k = Ent.manifoldProfile ∨ k = Ent.restoreFactory then codeUnless parked 0x0410
  else if k = Ent.serviceOrder then
    codeUnless (if v = 1 then s == .ready || s == .standby else s == .service) 0x0410
  else if k = Ent.mgmtRestart then codeUnless (v != 1 || restartAllowed x) 0x0440
  else if k = Ent.safeStopExit then codeUnless (s == .safeStop || (s == .off && x.sill.inletLock)) 0x0410
  else if k = Ent.leakCutExit then codeUnless (s == .leakCut) 0x0410
  else 0

/-- A mask that would leave a tile carrying a logical tile with no usable sensor (R380). -/
def maskBlinds (x : Module) (v : Nat) : Bool :=
  let n := v % 32768
  decide (v < 32768) && x.mgmt.joints.placement.tileMap.contains (n / 2) &&
    ((tileReadings (dsetBits Ent.sensorMasks (2 ^ n) x.mgmt) (n / 2)).isEmpty)

/-- The 06xx check an entry has beside the two steps (R380). -/
def safetyRefusal (x : Module) (k v : Nat) : Nat := codeUnless (!(k == Ent.maskSensor && maskBlinds x v)) 0x0641

/-! ### What an accepted write does -/

/-- A block returns to service (R341). -/
def restoreBlock (n : Nat) (x : Module) : Module :=
  if getE x (Ent.convState + n) ≠ 3 then x
  else
    let x1 := editPower (fun p => { p with convFaults := drop p.convFaults n, convRestart := drop p.convRestart n }) x
    blocksChanged (note 0 9 (Ent.convState + n) n (setE (Ent.convState + n) (b2n (inletClosed x)) x1))

/-- An accepted flag_clear (R509); with a channel's collision flag its count goes too (R496). -/
def clearFlags (v : Nat) (x : Module) : Module :=
  let k := clearTarget v
  let b := clearBits v
  if k = Ent.sillState then onlyIf (b.testBit 5) (onSill fun s => { s with haltMissing := false }) x
  else
    let x1 := onMgmt (dclearBits k b) x
    if (k = Ent.chanFlags ∨ k = Ent.chanFlags + 1) ∧ b.testBit 3 then forgetCollisions (k - Ent.chanFlags) x1 else x1

/-- Entries whose write orders something and keeps no value (R493, R497, R453). -/
def readsZero (k : Nat) : Bool :=
  k == Ent.channelRestart || k == Ent.collisionClear || k == Ent.mgmtRestart

/-- What an accepted value of entry `k` sets going; the stored value is written already. -/
def writeActs (level k v : Nat) (x : Module) : Module :=
  if k = Ent.rackHeartbeat then onlyIf (decide (level = 2)) rackHeard x
  else if k = Ent.nodeAddress then editBus (fun b => { b with addressDue := true }) (clearCollisions x)
  else if k = Ent.dataRate then writeDataRate x
  else if k = Ent.channelRestart then restartChannels v x
  else if k = Ent.collisionClear then onlyIf (decide (v = 1)) clearCollisions x
  else if k = Ent.ptpEnable then writePtpEnable v x
  else if k = Ent.serviceOrder then serviceOrder v x
  else if k = Ent.mgmtRestart then onlyIf (decide (v = 1)) (stopSkour false) x
  else if k = Ent.flagClear then clearFlags v x
  else if k = Ent.restoreFactory then restoreFactory x
  else if k = Ent.convRestore then restoreBlock v x
  else if k = Ent.envelope then
    rackHeard (editPower (fun p => { p with envelopeAt := x.ts, forecastDue := true }) x)
  else if k = Ent.powerOrder then
    editPower (fun p => { p with forecastDue := true }) (onMgmt (fun m => { m with orderAt := some x.ts }) x)
  else if k = Ent.domainForce then domainForce v x
  else if k = Ent.maskSensor then maskSensor v x
  else if k = Ent.valveFaultClear then clearValveFaults v x
  else if k = Ent.unitFaultClear then clearUnitFaults v x
  else if k = Ent.retireTile then markTile v true x
  else if k = Ent.restoreTile then restoreTile v x
  else if k = Ent.rackHold then writeJ1 x
  else if k = Ent.oscRevertClear then onlyIf (decide (v = 1)) enableRevert x
  else if k = Ent.pairRestore then pairRestore v x
  else if k = Ent.safeStopExit then safeStopExit x
  else if k = Ent.leakCutExit then leakCutExit x
  else x

/-- temp_table with its reserved bytes zero (R3, R381). -/
def maskTable (v : Nat) : Nat := (List.range 8).foldl (fun n i => n + 2 ^ (32 * i) * bits (32 * i + 23) (32 * i) v) 0

/-- An accepted write takes effect. -/
def applyWrite (w : Requester) (level k v : Nat) (x : Module) : Module :=
  if k = Ent.journalCursor then setCursor w v x
  else if k = Ent.dataRate ∧ v = getE x k then x
  else if k = Ent.tempTable then setE k (maskTable v) x
  else if k = Ent.matrix then writeMatrix v x
  else if k = Ent.gnomonNode then writeGnomon v x
  else writeActs level k v (if readsZero k then x else setE k v x)

/-! ### Judging (R514–R517) -/

/-- Entries of at most 8 B that are OCTET values. -/
def shortOctets (k : Nat) : Bool := k == Ent.macAddress || k == Ent.ptpMaster || k == Ent.pairState
/-- The value field of a journal entry for written bytes (R463). -/
def journalValue (k : Nat) (bs : List Byte) : W64 :=
  if bs.length ≤ 8 ∧ !shortOctets k then BitVec.ofNat 64 (leNat bs)
  else BitVec.ofNat 64 ((crc32 bs).toNat + 2 ^ 32 * bs.length)

/-- A judged write or first step enters the journal (R464, R508). -/
def journalRequest (w : Requester) (kind k : Nat) (bs : List Byte) (code : Nat) (x : Module) : Module :=
  commitOrder (w.chan + 1) (levelOf x w) kind k (journalValue k bs) code x

/-- Checks 2 to 4 of a write, a first step or a confirmation (ops 2, 3, 4): the entry, or the refusal. -/
def admission (x : Module) (w : Requester) (op index sub : Nat) (v : Nat) : Except Nat DEntry :=
  match nameEntry index sub with
  | .error c => .error c
  | .ok e =>
    let k := index * 256 + sub
    if op = 2 ∧ e.acc = .ro then .error 0x0203
    else if decide (op = 2) == decide (e.acc = .rws) then .error 0x0204
    else if k = Ent.flagClear ∧ stickyMask (clearTarget v) = 0 then .error 0x0205
    else if !mayWrite (levelOf x w) k then .error 0x0530
    else .ok e

/-- Checks 5 and 6 of a value (R506). -/
def valueRefusal (x : Module) (k v : Nat) : Nat :=
  let c := rangeRefusal x k v
  if c = 0 then stateRefusal x k v else c

/-- A plain write is judged: journaled, then carried out when it is accepted. The result is its code. -/
def judgeWrite (w : Requester) (index sub : Nat) (bs : List Byte) (x : Module) : Nat × Module :=
  let k := index * 256 + sub
  let v := leNat bs
  match admission x w 2 index sub v with
  | .error c => (c, journalRequest w 1 k bs c x)
  | .ok e =>
    let c := valueRefusal x k v
    if c ≠ 0 then (c, journalRequest w 1 k bs c x)
    else
      let x1 := if e.acc = .rw then x else journalRequest w 1 k bs 0 x
      (0, applyWrite w (levelOf x w) k v x1)

/-! ### Safety-confirmed writes (R519–R522) -/

/-- 2,000 ms have not passed since `t`. -/
def inWindow (x : Module) (t : W64) : Bool := decide (sinceT x t ≤ 2000000000)

/-- The pending safety write of an entry. -/
def pendingOf (x : Module) (index sub : Nat) : Option SafetyWrite :=
  x.mgmt.bus.safety.find? fun p => p.index == index && p.sub == sub
def endPending (index sub : Nat) (x : Module) : Module :=
  editBus (fun b => { b with safety := b.safety.filter fun p => !(p.index == index && p.sub == sub) }) x

/-- Sill answers requests: it is powered and has not stopped. -/
def sillAnswers (x : Module) : Bool := x.sill.on && !x.sill.stopped

/-- Sill issues a challenge, a free value (log 7), which replaces one still open for the entry. -/
def issueChallenge (index sub : Nat) (x : Module) : W32 × Module :=
  let c := BitVec.ofNat 32 (Config.freeValue x.data.free).toNat
  let x1 := onData (fun d => { d with free := d.free + 1 }) x
  (c, onSill (fun s => { s with
    challenges := (s.challenges.filter fun q => !(q.index == index && q.sub == sub)) ++ [⟨index, sub, c, x.sf⟩] }) x1)

/-- Sill's own check (R522), with the clear conditions of the exits (R552, R555). -/
def sillAgrees (x : Module) (index sub v : Nat) (challenge : W32) (complement : W64) : Bool :=
  sillAnswers x &&
    (x.sill.challenges.any fun q => q.index == index && q.sub == sub && q.value == challenge && decide (sinceSf x q.at_ ≤ 2000000000)) &&
    complement == ~~~(BitVec.ofNat 64 v) &&
    (if index * 256 + sub = Ent.safeStopExit then exitAgrees x
    else if index * 256 + sub = Ent.leakCutExit then !actsNow x && leakDry x.sill.leakA && leakDry x.sill.leakB
    else true)

/-- A challenge serves one confirmation. -/
def useChallenge (index sub : Nat) (x : Module) : Module :=
  onSill (fun s => { s with challenges := s.challenges.filter fun q => !(q.index == index && q.sub == sub) }) x

/-- A first step is judged: its code, the first-step record, and the module after it (R519, R520). -/
def judgeFirst (w : Requester) (index sub : Nat) (bs : List Byte) (x : Module) : Nat × List Byte × Module :=
  let k := index * 256 + sub
  let v := leNat bs
  let refuse (c : Nat) : Nat × List Byte × Module := (c, [], journalRequest w 2 k bs c x)
  match admission x w 3 index sub v with
  | .error c => refuse c
  | .ok _ =>
    let c := valueRefusal x k v
    if c ≠ 0 then refuse c
    else if (pendingOf x index sub).any fun p => !sameWho p.who w && inWindow x p.at_ then refuse 0x0604
    else if safetyRefusal x k v ≠ 0 then refuse (safetyRefusal x k v)
    else if !sillAnswers x then refuse 0x0603
    else
      let r := issueChallenge index sub (journalRequest w 2 k bs 0 (endPending index sub x))
      (0, natLe 4 r.1.toNat ++ natLe 8 v ++ natLe 4 2000,
        editBus (fun b => { b with safety := b.safety ++ [⟨w, index, sub, v, bs.length, r.1, x.ts⟩] }) r.2)

/-- A confirmation is judged by all checks again, on the value of the first step (R515, R521, R522). -/
def judgeConfirm (w : Requester) (index sub : Nat) (challenge : W32) (complement : W64) (x : Module) : Nat × Module :=
  let k := index * 256 + sub
  match (pendingOf x index sub).filter fun p => sameWho p.who w with
  | none =>
    let c := match admission x w 4 index sub 0 with | .error c => c | .ok _ => 0x0600
    (c, journalRequest w 1 k [] c x)
  | some p =>
    let bs := natLe p.len p.value
    let refuse (c : Nat) (y : Module) : Nat × Module := (c, journalRequest w 1 k bs c y)
    match admission x w 4 index sub p.value with
    | .error c => refuse c x
    | .ok _ =>
      let c := valueRefusal x k p.value
      if c ≠ 0 then refuse c x
      else if !inWindow x p.at_ then refuse 0x0602 (endPending index sub x)
      else if challenge ≠ p.challenge ∨ complement ≠ ~~~(BitVec.ofNat 64 p.value) then refuse 0x0601 (endPending index sub x)
      else if safetyRefusal x k p.value ≠ 0 then refuse (safetyRefusal x k p.value) x
      else
        let ok := sillAgrees x index sub p.value challenge complement
        let x1 := useChallenge index sub (endPending index sub x)
        if !ok then refuse 0x0603 x1
        else (0, applyWrite w (levelOf x w) k p.value (journalRequest w 1 k bs 0 x1))

/-- SAFETY_WINDOW_EXPIRE: a pending write's window has passed (R520). -/
def safetyExpire (index sub : Nat) (x : Module) : Module :=
  if (pendingOf x index sub).any fun p => !inWindow x p.at_ then endPending index sub x else x

/-! ### Replies (R476, R498, R501, R523) -/

/-- A response's 64 B body. -/
def replyBytes (r : DictReply) : List Byte :=
  natLe 1 r.op ++ natLe 1 0 ++ natLe 2 r.index ++ natLe 1 r.sub ++ natLe 1 0 ++ natLe 2 r.result.toNat ++
    natLe 2 r.segment ++ natLe 2 r.total ++ natLe 4 0 ++ (r.value ++ List.replicate 48 0).take 48

/-- A response leaves: on the channel of its request or, while that is off, on the other (R495); or from the Ethernet port. -/
def sendReply (chan : Nat) (r : DictReply) (x : Module) : Module :=
  let x1 := editBus (fun b => { b with reply := some r }) x
  if chan = 2 then emit ⟨2, 0, datagramHeader 2 r.tag ++ replyBytes r⟩ x1
  else match channelFor x1 chan with
    | some c => queueMsg c ⟨identOf 9 (ownAddress x1) (r.who.addr * 256 + r.tag), 9, replyBytes r⟩ x1
    | none => x1

/-- The last response is kept for 2 s for its requester and tag. -/
def keepAnswer (q : DictReq) (r : DictReply) (x : Module) : Module :=
  editBus (fun b => { b with
    answers := (b.answers.filter fun a => !(sameWho a.1.who q.who && a.1.tag == q.tag) && inWindow x a.2.2) ++ [(q, r, x.ts)] }) x

/-- The kept response of a request identical in every byte. -/
def keptAnswer (x : Module) (q : DictReq) : Option DictReply :=
  (x.mgmt.bus.answers.find? fun a =>
    sameWho a.1.who q.who && decide ({ a.1 with who := q.who } = q) && inWindow x a.2.2).map fun a => a.2.1

/-! ### Transfers (R499, R500, R502) -/

/-- The requester's transfer of a tag. -/
def transferOf (x : Module) (q : DictReq) : Option Transfer :=
  x.mgmt.bus.transfers.find? fun t => sameWho t.who q.who && t.tag == q.tag
def endTransfer (q : DictReq) (x : Module) : Module :=
  editBus (fun b => { b with transfers := b.transfers.filter fun t => !(sameWho t.who q.who && t.tag == q.tag) }) x
def addTransfer (t : Transfer) (x : Module) : Module := editBus (fun b => { b with transfers := b.transfers ++ [t] }) x
/-- Four transfers of the requester stand on its channel. -/
def transfersFull (x : Module) (q : DictReq) : Bool :=
  decide (4 ≤ (x.mgmt.bus.transfers.filter fun t => t.who == q.who).length)
/-- No request has come for it for 1 s. -/
def transferIdle (x : Module) (t : Transfer) : Bool := decide (1000000000 ≤ sinceT x t.last)

/-- A reply to request `q`. -/
def replyTo (q : DictReq) (code total : Nat) (value : List Byte) : DictReply :=
  ⟨q.who, q.tag, q.op, q.index, q.sub, BitVec.ofNat 16 code, q.segment, total, value⟩

/-- The first `n` value bytes of a request. -/
def reqBytes (q : DictReq) (n : Nat) : List Byte := (q.value ++ List.replicate 48 0).take (min n 48)

/-- A refused read counts (R508). -/
def refuseRead (q : DictReq) (code : Nat) (x : Module) : DictReply × Module := (replyTo q code 0 [], incE Ent.readsRefused x)
/-- A refusal of check 1 is journaled (R502). -/
def refuseTransfer (q : DictReq) (code : Nat) (x : Module) : DictReply × Module :=
  (replyTo q code 0 [], journalRequest q.who (if q.op = 3 then 2 else 1) (q.index * 256 + q.sub) [] code x)

/-- Op 0x01. The value is taken whole; longer than 48 B, its later segments come from that copy. -/
def serveRead (q : DictReq) (x0 : Module) : DictReply × Module :=
  let x := endTransfer q x0
  if transfersFull x q then refuseRead q 0x0133 x
  else match nameEntry q.index q.sub with
    | .error c => refuseRead q c x
    | .ok e =>
      let k := q.index * 256 + q.sub
      if !mayRead (levelOf x q.who) k then refuseRead q 0x0531 x
      else
        let bs := natLe e.len (readEntry x q.who k)
        let x1 := if e.len ≤ 48 then x else addTransfer ⟨q.who, q.tag, 1, q.index, q.sub, e.len, 1, bs, x.ts⟩ x
        (replyTo q 0 e.len (bs.take 48), x1)

/-- The whole value of a write or first step has arrived. -/
def serveWhole (q : DictReq) (op : Nat) (bs : List Byte) (x : Module) : DictReply × Module :=
  if op = 3 then
    let r := judgeFirst q.who q.index q.sub bs x
    (replyTo q r.1 bs.length r.2.1, r.2.2)
  else
    let r := judgeWrite q.who q.index q.sub bs x
    (replyTo q r.1 bs.length [], r.2)

/-- The total length disagrees with the entry named. -/
def lengthWrong (q : DictReq) : Bool :=
  match nameEntry q.index q.sub with | .ok e => e.len != q.length | .error _ => false

/-- Ops 0x02 and 0x03. -/
def serveBegin (q : DictReq) (x0 : Module) : DictReply × Module :=
  let x := endTransfer q x0
  if transfersFull x q then refuseTransfer q 0x0133 x
  else if lengthWrong q then refuseTransfer q 0x0132 x
  else if q.segment ≠ 0 then refuseTransfer q 0x0131 x
  else if q.length ≤ 48 then serveWhole q q.op (reqBytes q q.length) x
  else
    (replyTo q 0 q.length [],
      addTransfer ⟨q.who, q.tag, q.op, q.index, q.sub, q.length, 1, reqBytes q 48, x.ts⟩ x)

/-- Op 0x04: the challenge in bytes 16–19, the complement in 20–27. -/
def serveConfirm (q : DictReq) (x0 : Module) : DictReply × Module :=
  let x := endTransfer q x0
  if transfersFull x q then refuseTransfer q 0x0133 x
  else if lengthWrong q then refuseTransfer q 0x0132 x
  else
    let bs := reqBytes q 12
    let r := judgeConfirm q.who q.index q.sub (BitVec.ofNat 32 (leNat (bs.take 4))) (BitVec.ofNat 64 (leNat (bs.drop 4))) x
    (replyTo q r.1 q.length [], r.2)

/-- The transfer a segment request continues; else the refusal. -/
def segmentOf (x : Module) (q : DictReq) (ops : List Nat) : Except Nat Transfer :=
  match transferOf x q with
  | none => .error 0x0131
  | some t =>
    if transferIdle x t then .error 0x0134
    else if t.next ≠ q.segment ∨ t.index ≠ q.index ∨ t.sub ≠ q.sub ∨ !(ops.contains t.op) then .error 0x0131
    else .ok t

/-- Op 0x05. -/
def serveReadSegment (q : DictReq) (x : Module) : DictReply × Module :=
  match segmentOf x q [1] with
  | .error c => refuseRead q c (if c = 0x0134 then endTransfer q x else x)
  | .ok t =>
    let x1 := endTransfer q x
    let x2 := if 48 * (q.segment + 1) < t.total then addTransfer { t with next := t.next + 1, last := x.ts } x1 else x1
    (replyTo q 0 t.total ((t.bytes.drop (48 * q.segment)).take 48), x2)

/-- Op 0x06. -/
def serveWriteSegment (q : DictReq) (x : Module) : DictReply × Module :=
  match segmentOf x q [2, 3] with
  | .error c => refuseTransfer q c (if c = 0x0134 then endTransfer q x else x)
  | .ok t =>
    let bs := t.bytes ++ reqBytes q (t.total - t.bytes.length)
    let x1 := endTransfer q x
    if t.total ≤ bs.length then serveWhole q t.op bs x1
    else (replyTo q 0 t.total [], addTransfer { t with next := t.next + 1, bytes := bs, last := x.ts } x1)

/-- Op 0x07. The transfer ends, and its waiting responses are cancelled (R489). -/
def serveAbort (q : DictReq) (x : Module) : DictReply × Module :=
  match transferOf x q with
  | none => refuseTransfer q 0x0131 x
  | some _ =>
    let i := identOf 9 (ownAddress x) (q.who.addr * 256 + q.tag)
    (replyTo q 0 0 [], repeatN (fun c y => editChannel c (fun b => { b with
      queue := b.queue.filter fun m => m.ident ≠ i }) y) 2 (endTransfer q x))

/-- A request by its op (R498); an unknown op is refused. -/
def serveOp (q : DictReq) (x : Module) : DictReply × Module :=
  match q.op with
  | 1 => serveRead q x
  | 2 => serveBegin q x
  | 3 => serveBegin q x
  | 4 => serveConfirm q x
  | 5 => serveReadSegment q x
  | 6 => serveWriteSegment q x
  | 7 => serveAbort q x
  | _ => refuseTransfer q 0x0130 x

/-- A request reaches Skour: it runs, and the request came to the module's address on a live channel or on Ethernet with its
PHY's domain on. -/
def requestHeard (target : Nat) (w : Requester) (x : Module) : Bool :=
  skourUp x && (if w.chan < 2 then chanUp x w.chan && target == ownAddress x && target != 0 else x.mgmt.service.testBit 5)

/-- A dictionary request: answered from the store of last responses, or judged, answered and kept (R501, R514, R517). -/
def request (target : Nat) (q : DictReq) (x : Module) : Module :=
  if !requestHeard target q.who x then x
  else match keptAnswer x q with
    | some r => sendReply q.who.chan r x
    | none =>
      let r := serveOp q x
      sendReply q.who.chan r.1 (keepAnswer q r.1 r.2)

/-- TRANSFER_IDLE_TIMEOUT (R500): a write abandoned is journaled with its refusal. -/
def transferTimeout (w : Requester) (tag : Nat) (x : Module) : Module :=
  let q : DictReq := ⟨w, tag, 7, 0, 0, 0, 0, []⟩
  match transferOf x q with
  | some t =>
    if skourUp x ∧ transferIdle x t then
      let x1 := endTransfer q x
      if t.op = 1 then x1
      else journalRequest t.who (if t.op = 3 then 2 else 1) (t.index * 256 + t.sub) [] 0x0134 x1
    else x
  | none => x

/-- The request a 64 B body carries. -/
def bodyRequest (w : Requester) (tag : Nat) (b : List Byte) : DictReq :=
  let f (i n : Nat) : Nat := leNat ((b.drop i).take n)
  ⟨w, tag, f 0 1, f 2 2, f 4 1, f 6 2, f 8 2, (b.drop 16).take 48⟩

/-- MGMT_DATAGRAM (R523): a request is judged; a malformed datagram is discarded and counted. A response or an event sent to
the module, well formed, asks nothing of it. -/
def mgmtDatagram (addr port : Nat) (bs : List Byte) (x : Module) : Module :=
  if !(skourUp x && x.mgmt.service.testBit 5) then x
  else
    let f (i n : Nat) : Nat := leNat ((bs.drop i).take n)
    let kind := f 3 1
    let len := if kind = 3 then 64 else 80
    if bs.length ≠ len ∨ f 0 2 ≠ 0x4B44 ∨ f 2 1 ≠ 1 ∨ kind < 1 ∨ 3 < kind then incE Ent.readsRefused x
    else if kind = 1 then
      let w : Requester := ⟨2, addr, port⟩
      request 0 (bodyRequest w (f 4 2) (bs.drop 16)) x
    else x

/-! ### Requests the table names by their entry -/

/-- A complete write of one entry: the segments of one transfer, judged at the last (R499). -/
def wholeWrite (target : Nat) (w : Requester) (tag k : Nat) (bs : List Byte) (x : Module) : Module :=
  let q : DictReq := ⟨w, tag, if bs.length ≤ 48 then 2 else 6, k / 256, k % 256, bs.length, (bs.length - 1) / 48,
    bs.drop (48 * ((bs.length - 1) / 48))⟩
  if !requestHeard target w x then x
  else match keptAnswer x q with
    | some r => sendReply w.chan r x
    | none =>
      let x0 := endTransfer q x
      let r := if transfersFull x0 q then refuseTransfer q 0x0133 x0
        else if lengthWrong q then refuseTransfer q 0x0132 x0
        else serveWhole q 2 bs x0
      sendReply w.chan r.1 (keepAnswer q r.1 r.2)

/-- The confirmation of a pending write of one entry. -/
def confirmWrite (target : Nat) (w : Requester) (tag k : Nat) (challenge : W32) (complement : W64) (x : Module) : Module :=
  let len := match entryOf k with | some e => e.len | none => 0
  request target ⟨w, tag, 4, k / 256, k % 256, len, 0, natLe 4 challenge.toNat ++ natLe 8 complement.toNat⟩ x

end Sys2Proof.Machine
end

