-- ==== Sys2Proof/Machine/Ops.lean ====
section
/-!
DEFINITION. What the commands do to the module: the operations named by the command table, over the planes' own operations,
and the operand types that only commands have.
-/

namespace Sys2Proof.Machine

/-! ### Operand types -/

/-- Where a CSR stands (R64, R65). -/
inductive CsrAt where
  | tile (ix : TileIx)
  | field (f : FieldIx)
deriving DecidableEq, Repr

/-- An entry of the tile map (32·row + column, and a physical tile or none) or of the module map (R180, R181). -/
inductive MapEntry where
  | tile (n : Fin 1024) (phys : Option TileIx)
  | module (n phys : Fin 256)
deriving DecidableEq, Repr

/-- Who asks a field's arbiter (R207, R208): a tile's transfer, or another requester of the field. -/
inductive ArbAsk where
  | tile (ix : TileIx) (id : Fin 16)
  | other (field : FieldIx) (req : StackReq)
deriving DecidableEq, Repr

/-- The plane an event ring belongs to (R313). -/
inductive Plane where
  | data | control
deriving DecidableEq, Repr

/-- A pump or a fan. -/
inductive DriveNo where
  | pump (n : Fin 2)
  | fan (n : Fin 4)
deriving DecidableEq, Repr

/-- A unit's code in events (R527). -/
def DriveNo.code : DriveNo → Nat
  | .pump n => n.val | .fan n => 16 + n.val

/-- A safety alarm: the module's own, or a frame of another module on a channel (R490). -/
inductive AlarmFrame where
  | own
  | heard (c : Fin 2) (ident : BitVec 29) (data : List Byte)
deriving DecidableEq, Repr

/-- A dictionary request (R498): the node addressed, the requester and tag, the entry, the value's total length, the segment
and its value bytes. -/
structure DictCall where
  target : Fin 32
  who : Requester
  tag : BitVec 16
  index : BitVec 16
  sub : Byte
  total : BitVec 16
  segment : BitVec 16
  value : List Byte
deriving DecidableEq, Repr

/-! ### Tiles and fields -/

/-- A powered tile takes a step of its own. -/
def tileStep (ix : TileIx) (f : Ctx → Tile → Tile × Eff) (x : Module) : Module :=
  if tileOn x.data ix then onData (onTile (envOf x) ix f) x else x

/-- A powered tile changed. -/
def tileEdit (ix : TileIx) (f : Ctx → Tile → Tile) (x : Module) : Module :=
  if tileOn x.data ix then onData (editTile (envOf x) ix f) x else x

/-- A powered field changed. -/
def fieldEdit (f : FieldIx) (g : Field → Field) (x : Module) : Module :=
  if (fieldOf x.data f).on then onData (editField (envOf x) f g) x else x

/-- The tile issues the bundle at its next address when the bundle is one that `p` names (R94, R98); a slot operation issues
with its whole bundle. -/
def issueWhen (i : Issue) (p : Bun → Bool) (x : Module) : Module :=
  match fetched (tileOf x.data i.tile) with
  | some w => if p (decodeBundle w) then tileStep i.tile (fun cx t => issueBundle cx i.tile i t) x else x
  | none => x

def issueC (i : Issue) (p : Pred) (o : COp) (x : Module) : Module := issueWhen i (fun b => b.c == ⟨p, .op o⟩) x
def issueM (i : Issue) (p : Pred) (o : MOp) (x : Module) : Module := issueWhen i (fun b => b.m == ⟨p, .op o⟩) x
def issueT (i : Issue) (p : Pred) (o : TOp) (x : Module) : Module := issueWhen i (fun b => b.t == ⟨p, .op o⟩) x
def issueV (i : Issue) (p : Pred) (o : VOp) (x : Module) : Module := issueWhen i (fun b => b.v == ⟨p, .op o⟩) x

/-- A slot holds no operation that any other command names: opcode 0x00, or a word that makes its bundle illegal (R95, R96). -/
def emptySlot (s : SlotId) (b : Bun) : Bool :=
  match s with
  | .c => match b.c.dec with | .op o => o == .nop | _ => true
  | .m => match b.m.dec with | .op o => o == .nop | _ => true
  | .t => match b.t.dec with | .op o => o == .nop | _ => true
  | .v => match b.v.dec with | .op o => o == .nop | _ => true

/-- NOP: the bundle whose slot holds it issues. Past bundle 16,383 the sequencer issues nothing and faults (R40). -/
def issueNop (i : Issue) (s : SlotId) (x : Module) : Module :=
  match fetched (tileOf x.data i.tile) with
  | some _ => issueWhen i (emptySlot s) x
  | none => tileStep i.tile (fun cx t => issueBundle cx i.tile i t) x

/-- A reset of a tile ends (R58, R585); its arbiter requester's PRESENT rises with it (R212). -/
def finishReset (ix : TileIx) (x : Module) : Module :=
  if tileOn x.data ix then
    onData (followPresent (envOf x) (tileField ix)) (tileEdit ix (fun _ u => endReset u) x)
  else x

/-- BEAT retires; its wait counts among the stalls of cause 12 (R55, R320). -/
def retireBeat (ix : TileIx) (cycle : Nat) (x : Module) : Module :=
  tileStep ix (fun _ t =>
    let r := beatRetire cycle t
    (r.1, if r.2 = 0 then Eff.none else { Eff.none with stalls := [(beatCause t, r.2)] })) x

/-- A truss row completes. -/
def completeRow (ix : TileIx) (one : Bool) (cycle : Nat) (x : Module) : Module :=
  tileStep ix (fun cx t =>
    let r := rowComplete cx cycle one t
    (r.1, { Eff.none with nanRise := r.2 })) x

/-- An occurrence takes counter `n` past 2^48 − 1 (R322); one that does not is no wrap. -/
def wrapEvcnt (n k : Nat) (t : Tile) : Tile :=
  if (look 0 t.inst.evsel n).getLsbD 15 ∧ 2 ^ 48 ≤ (look 0 t.inst.evcnt n).toNat + k then bumpOne t n k else t

/-- A write to a powered tile's instruction memory (R38); one that is blocked completes with an error status, for which the
spec gives no code (DESIGN CHOICE, log 84: 0x0001). -/
def imemStore (ix : TileIx) (at_ : Nat) (w : Bundle) (x : Module) : Module :=
  let y := tileEdit ix (fun _ u => imemWrite at_ w u) x
  if tileOn x.data ix ∧ !imemOpen (tileOf x.data ix) then onData (answer none 1 []) y else y

/-- A write of a tile or field CSR under its access code (R9, R65, R67); at an offset that is not a multiple of 8 it is
discarded with error status 0x0001 (R65). -/
def plainCsrWrite (a : CsrAt) (off : Nat) (v : W64) (x : Module) : Module :=
  if off % 8 ≠ 0 then (if x.data.on then onData (answer none 1 []) x else x)
  else match a with
  | .tile ix => tileEdit ix (fun cx t => csrWrite cx t off v) x
  | .field f => fieldEdit f (fun g => fieldCsrWrite (x.mgmt.module == .running) g off v) x

/-- A write of a map entry (R181). -/
def writeMap (w : MapEntry) (x : Module) : Module :=
  if !x.data.on then x
  else match w with
    | .tile n t => onData (writeTileMap (envOf x) n (t.map Fin.val)) x
    | .module n m => onData (writeModuleMap (envOf x) n m) x

/-- An unscheduled stack request reaches the arbiter (R208); a requester whose PRESENT is low is masked (R212). -/
def askStack (a : ArbAsk) (x : Module) : Module :=
  match a with
  | .tile ix id => if tileOn x.data ix then onData (tileRequest (envOf x) ix id) x else x
  | .other f r =>
    if (fieldOf x.data f).on ∧ isPresent (fieldOf x.data f).arb r.q then onData (otherRequest (envOf x) f r) x else x

/-- The refresh window of the tick opens (R203). -/
def refreshWindow (f : Field) : Field := { f with arb := { f.arb with refresh := true } }

/-! ### The data plane and the hosts -/

/-- The data plane powers up in a start (R19, R31). In SERVICE only an accepted domain_force powers it (R445). -/
def powerUpData (x : Module) : Module := if x.mgmt.module.dataOn then dataOn x else x

/-- Skour writes an order word on J1 (R19); while it restarts its outputs stand still (R455). -/
def writeOrderWord (w : BitVec 16) (x : Module) : Module := if skourUp x then presentOrder w x else x

/-- Skour writes the levels of J1 (R18): step_req is 0 to 12 and never below the loaded image's min_step (R17, R264). -/
def writeLevels (step : Nat) (hold throttle : Bool) (x : Module) : Module :=
  presentLevels ⟨min 12 (max step x.mgmt.joints.minStep), hold, throttle⟩ x

/-- Something of the powered data plane. -/
def whenData (f : Data → Data) (x : Module) : Module := if x.data.on then onData f x else x

/-- Unacknowledged records of a ring go to a subscriber again. -/
def resendEvents (p : Plane) (addr : Nat) (x : Module) : Module :=
  match p with
  | .data => onData (fun d => { d with ring := ringResend addr d.ring }) x
  | .control => onCtrl (fun c => { c with ring := ringResend addr c.ring }) x

/-- A silent subscriber of a ring lapses. -/
def lapseSubscriber (p : Plane) (addr : Nat) (x : Module) : Module :=
  match p with
  | .data => onData (fun d => { d with ring := ringLapse x.ts addr d.ring }) x
  | .control => onCtrl (fun c => { c with ring := ringLapse x.ts addr c.ring }) x

/-! ### The rack bus and the dictionary -/

/-- A safety alarm leaves or arrives. -/
def safetyAlarm (a : AlarmFrame) (x : Module) : Module :=
  match a with
  | .own => alarmsOut x
  | .heard c i bs => alarmIn c i bs x

/-- A dictionary request by op. -/
def dictionary (op : Nat) (q : DictCall) (x : Module) : Module :=
  request q.target
    ⟨q.who, q.tag.toNat, op, q.index.toNat, q.sub.toNat, q.total.toNat, q.segment.toNat, q.value⟩ x

end Sys2Proof.Machine
end

