-- ==== Sys2Proof/Syntax.lean ====
section
/-!
DEFINITION. The commands of the block: one constructor per row of the command table, with the operands a command
carries: first the rows with operands, in the table's order, then those without.
Measured values, soft errors, self-test outcomes and what other modules and hosts send are operands.
-/

namespace Sys2Proof

open Sys2Proof.Machine

/-- A command. A slot operation carries its issue and predicate beside the row's fields. -/
inductive Instr where
  /-- `NOP` (R95): the slot that holds opcode 0x00. -/
  | nop (i : Issue) (slot : SlotId)
  /-- `ALU` (R106). -/
  | alu (i : Issue) (p : Pred) (sd sa sb : BitVec 5) (f : AluFn)
  /-- `ADDI` (R106). -/
  | addi (i : Issue) (p : Pred) (sd sa : BitVec 5) (imm : BitVec 12)
  /-- `ANDI` (R106). -/
  | andi (i : Issue) (p : Pred) (sd sa : BitVec 5) (imm : BitVec 12)
  /-- `ORI` (R106). -/
  | ori (i : Issue) (p : Pred) (sd sa : BitVec 5) (imm : BitVec 12)
  /-- `XORI` (R106). -/
  | xori (i : Issue) (p : Pred) (sd sa : BitVec 5) (imm : BitVec 12)
  /-- `SHLI` (R106). -/
  | shli (i : Issue) (p : Pred) (sd sa : BitVec 5) (imm : BitVec 5)
  /-- `SHRI` (R106). -/
  | shri (i : Issue) (p : Pred) (sd sa : BitVec 5) (imm : BitVec 5)
  /-- `SRAI` (R106). -/
  | srai (i : Issue) (p : Pred) (sd sa : BitVec 5) (imm : BitVec 5)
  /-- `MULI` (R106). -/
  | muli (i : Issue) (p : Pred) (sd sa : BitVec 5) (imm : BitVec 12)
  /-- `MOVL` (R106). -/
  | movl (i : Issue) (p : Pred) (sd : BitVec 5) (imm : BitVec 16)
  /-- `MOVH` (R106). -/
  | movh (i : Issue) (p : Pred) (sd : BitVec 5) (imm : BitVec 16)
  /-- `CMP` (R106). -/
  | cmp (i : Issue) (p : Pred) (pd : BitVec 3) (sa sb : BitVec 5) (c : Cond)
  /-- `CMPI` (R106). -/
  | cmpi (i : Issue) (p : Pred) (pd : BitVec 3) (sa : BitVec 5) (c : Cond) (imm : BitVec 11)
  /-- `PLOG` (R106). -/
  | plog (i : Issue) (p : Pred) (pd pa pb : BitVec 3) (f : PFn)
  /-- `BR` (R107). -/
  | br (i : Issue) (p : Pred) (target : BitVec 14)
  /-- `JAL` (R107). -/
  | jal (i : Issue) (p : Pred) (sd : BitVec 5) (target : BitVec 14)
  /-- `JR` (R107). -/
  | jr (i : Issue) (p : Pred) (sa : BitVec 5)
  /-- `LOOP` (R108). -/
  | loop (i : Issue) (p : Pred) (sc : BitVec 5) (stop : BitVec 14)
  /-- `LOOPI` (R108). -/
  | loopi (i : Issue) (p : Pred) (count : BitVec 8) (stop : BitVec 14)
  /-- `LPOP` (R110). -/
  | lpop (i : Issue) (p : Pred)
  /-- `CSRR` (R111). -/
  | csrr (i : Issue) (p : Pred) (pair : BitVec 4) (idx : BitVec 13)
  /-- `CSRW` (R111). -/
  | csrw (i : Issue) (p : Pred) (pair : BitVec 4) (idx : BitVec 13)
  /-- `SIG` (R112). -/
  | sig (i : Issue) (p : Pred)
  /-- `BEAT` (R55). -/
  | beat (i : Issue) (p : Pred)
  /-- `BEAT_RETIRE` (R55): the cycle of the beat in which it retires. -/
  | beatRetire (tile : TileIx) (cycle : Nat)
  /-- `LDS` (R116). -/
  | lds (i : Issue) (p : Pred) (sd : BitVec 5) (aB : BitVec 4) (imm : BitVec 13)
  /-- `STS` (R116). -/
  | sts (i : Issue) (p : Pred) (ss : BitVec 5) (aB : BitVec 4) (imm : BitVec 13)
  /-- `LDV` (R118). -/
  | ldv (i : Issue) (p : Pred) (vd : BitVec 6) (aB : BitVec 4) (sz : Sz) (imm : BitVec 9)
  /-- `STV` (R118). -/
  | stv (i : Issue) (p : Pred) (vs : BitVec 6) (aB : BitVec 4) (sz : Sz) (imm : BitVec 9)
  /-- `AADDI` (R116). -/
  | aaddi (i : Issue) (p : Pred) (ad aS : BitVec 4) (imm : BitVec 14)
  /-- `AADD` (R116). -/
  | aadd (i : Issue) (p : Pred) (ad aS : BitVec 4) (ss : BitVec 5) (sh : BitVec 3)
  /-- `AMOV` (R116). -/
  | amov (i : Issue) (p : Pred) (ad : BitVec 4) (sl sh : BitVec 5)
  /-- `AGET` (R116). -/
  | aget (i : Issue) (p : Pred) (sd : BitVec 5) (aS : BitVec 4) (hi : Bool)
  /-- `WFILL` (R132). -/
  | wfill (i : Issue) (p : Pred) (t : Bool) (kind : FillKind) (aS : BitVec 4) (sU : BitVec 5)
  /-- `WFILL_DONE` (R45): the truss whose fill ends. -/
  | wfillDone (tile : TileIx) (t : Bool)
  /-- `SARM` (R119). -/
  | sarm (i : Issue) (p : Pred) (aL : BitVec 4) (tag : BitVec 12) (ur : Bool) (aR : BitVec 4)
  /-- `UREQ` (R122). -/
  | ureq (i : Issue) (p : Pred) (aD : BitVec 4)
  /-- `UREQ_COMPLETION` (R123): the transfer that is done. -/
  | ureqCompletion (tile : TileIx) (id : Fin 16)
  /-- `XSND` (R215). -/
  | xsnd (i : Issue) (p : Pred) (aS : BitVec 4) (sD : BitVec 5) (cls : BitVec 4) (len : BitVec 2)
  /-- `VEXT` (R116). -/
  | vext (i : Issue) (p : Pred) (sd : BitVec 5) (vs : BitVec 6) (lane : BitVec 9)
  /-- `TCFG` (R127). -/
  | tcfg (i : Issue) (p : Pred) (t : Bool) (sa sb : BitVec 5)
  /-- `TROW` (R128). -/
  | trow (i : Issue) (p : Pred) (t : Bool) (aA aS : BitVec 4) (sS : BitVec 5) (cnt : BitVec 8)
  /-- `TRUSS_ROW_COMPLETE` (R47): the truss, and the cycle of the beat. -/
  | trussRowComplete (tile : TileIx) (t : Bool) (cycle : Nat)
  /-- `TSWP` (R45). -/
  | tswp (i : Issue) (p : Pred) (t : Bool)
  /-- `TDRN` (R133). -/
  | tdrn (i : Issue) (p : Pred) (t : Bool) (vd : BitVec 6) (q : BitVec 2) (cnt : BitVec 5)
  /-- `TRUSS_DRAIN` (R133). -/
  | trussDrain (tile : TileIx) (t : Bool) (cycle : Nat)
  /-- `VFP` (R134). -/
  | vfp (i : Issue) (p : Pred) (vd va vb : BitVec 6) (f : VfpFn)
  /-- `VFN` (R134). -/
  | vfn (i : Issue) (p : Pred) (vd va : BitVec 6) (f : VfnFn)
  /-- `VCMP` (R135). -/
  | vcmp (i : Issue) (p : Pred) (vd va vb : BitVec 6) (c : VCond)
  /-- `VCMPP` (R135). -/
  | vcmpp (i : Issue) (p : Pred) (pd : BitVec 3) (va vb : BitVec 6) (c : VCond) (all : Bool)
  /-- `VSEL` (R134). -/
  | vsel (i : Issue) (p : Pred) (vd va vb : BitVec 6)
  /-- `VSPLAT` (R134). -/
  | vsplat (i : Issue) (p : Pred) (vd : BitVec 6) (sa : BitVec 5)
  /-- `VIOTA` (R134). -/
  | viota (i : Issue) (p : Pred) (vd : BitVec 6)
  /-- `VPERM` (R134). -/
  | vperm (i : Issue) (p : Pred) (vd va vb : BitVec 6)
  /-- `VROT` (R134). -/
  | vrot (i : Issue) (p : Pred) (vd va : BitVec 6) (k : BitVec 9)
  /-- `VCVT` (R137). -/
  | vcvt (i : Issue) (p : Pred) (vd va : BitVec 6) (fmt : CvtFmt)
  /-- `VSR` (R138). -/
  | vsr (i : Issue) (p : Pred) (vd va : BitVec 6) (fmt : Narrow) (grp : BitVec 3)
  /-- `VPACK` (R136). -/
  | vpack (i : Issue) (p : Pred) (vd va : BitVec 6) (fmt : PackFmt)
  /-- `VUNPK` (R136). -/
  | vunpk (i : Issue) (p : Pred) (vd va : BitVec 6) (fmt : PackFmt)
  /-- `VRED` (R140). -/
  | vred (i : Issue) (p : Pred) (vd va : BitVec 6) (max : Bool)
  /-- `VQMX` (R139). -/
  | vqmx (i : Issue) (p : Pred) (vd va : BitVec 6) (fmt : Narrow) (sr : Bool) (grp : BitVec 3)
  /-- `VQK4` (R88). -/
  | vqk4 (i : Issue) (p : Pred) (vd va : BitVec 6) (sT : BitVec 5) (sr : Bool) (grp : BitVec 3)
  /-- `SCRUB_READ` (R44): the 64 B line read, and what it finds. -/
  | scrubRead (tile : TileIx) (line : BitVec 18) (found : ScrubFound)
  /-- `INSTRUCTION_MEMORY_WRITE` (R38). -/
  | instructionMemoryWrite (tile : TileIx) (at_ : BitVec 14) (w : Bundle)
  /-- `TILE_RESET_END` (R585). -/
  | tileResetEnd (tile : TileIx)
  /-- `INT_STATUS_CLEAR` (R62): `hw`: bits the hardware sets in the same cycle. -/
  | intStatusClear (tile : TileIx) (mask hw : W64)
  /-- `INT_FORCE_SET` (R63). -/
  | intForceSet (tile : TileIx) (mask : W64)
  /-- `FIELD_INT_STATUS_CLEAR` (R62): `hw`: bits the hardware sets in the same cycle. -/
  | fieldIntStatusClear (field : FieldIx) (mask hw : W64)
  /-- `FIELD_INT_FORCE_SET` (R63). -/
  | fieldIntForceSet (field : FieldIx) (mask : W64)
  /-- `ARB_STARVE_CLEAR` (R213). -/
  | arbStarveClear (field : FieldIx) (mask : W64)
  /-- `EVCNT_WRITE` (R323). -/
  | evcntWrite (tile : TileIx) (n : Fin 8) (v : W64)
  /-- `SAMP_RELEASE` (R328). -/
  | sampRelease (tile : TileIx) (n : Fin 128)
  /-- `SAMP_CTRL_WRITE` (R325). -/
  | sampCtrlWrite (tile : TileIx) (v : W64)
  /-- `BW_CTRL_WRITE` (R331). -/
  | bwCtrlWrite (tile : TileIx) (v : W64)
  /-- `CSR_WRITE` (R67): a tile or field CSR, its byte offset and the value. -/
  | csrWrite (place : CsrAt) (off : BitVec 16) (v : W64)
  /-- `MAP_WRITE` (R181): the entry written. -/
  | mapWrite (w : MapEntry)
  /-- `SAMPLE_RECORD_WRITE` (R327): the measured latency in cycles. -/
  | sampleRecordWrite (tile : TileIx) (measured : Nat)
  /-- `BW_WINDOW_CLOSE` (R331). -/
  | bwWindowClose (tile : TileIx)
  /-- `SCHEDULED_SLOT` (R188): the cycle of the beat. -/
  | scheduledSlot (tile : TileIx) (tag : BitVec 12) (cycle : Nat)
  /-- `SCHEDULED_FLIT_LAND` (R188): the n-th flit in flight, the cycle, and what else its local eject has ready. -/
  | scheduledFlitLand (n cycle : Nat) (others : List Contender)
  /-- `LATE_FLIT_ARRIVAL` (R190): the n-th flit in flight, the cycle, and what else its local eject has ready. -/
  | lateFlitArrival (n cycle : Nat) (others : List Contender)
  /-- `STACK_READ_RETURN` (R192): the n-th returning read, the cycle, and what the check bits of the unit find. -/
  | stackReadReturn (n cycle : Nat) (found : StackFound)
  /-- `UNSCHEDULED_PACKET_ARRIVE` (R194): the n-th packet, the hops of its head, what else its last output has ready, and
  the answer of another module. -/
  | unscheduledPacketArrive (n : Nat) (hops : List Hop) (others : List Contender) (far : FarAnswer)
  /-- `ESCAPE_MOVE` (R196): the n-th packet, the router its head waits at, and how many cycles it has waited. -/
  | escapeMove (n : Nat) (router : TileIx) (waited : Nat)
  /-- `EXCHANGE_RECORD_LAND` (R217): the n-th record in flight, the cycle, and what else its last output has ready. -/
  | exchangeRecordLand (n cycle : Nat) (others : List Contender)
  /-- `STACK_REQUEST` (R208): a tile's transfer, or another requester's request. -/
  | stackRequest (a : ArbAsk)
  /-- `STACK_BURST_GRANT` (R208): the cycle of the tick, and what the check bits of a read find. -/
  | stackBurstGrant (field : FieldIx) (cycle : Nat) (found : StackFound)
  /-- `ARB_STARVE` (R210). -/
  | arbStarve (field : FieldIx) (q : Fin 24)
  /-- `ARB_REQUESTER_MASK` (R212). -/
  | arbRequesterMask (field : FieldIx) (q : Fin 24)
  /-- `ARB_REQUESTER_UNMASK` (R212). -/
  | arbRequesterUnmask (field : FieldIx) (q : Fin 24)
  /-- `STACK_TRAIN_STATE_DONE` (R202): the physical channels that fail the test. -/
  | stackTrainStateDone (field : FieldIx) (failed : List Nat)
  /-- `STACK_REFRESH_WINDOW` (R203). -/
  | stackRefreshWindow (field : FieldIx)
  /-- `J4_SNAPSHOT` (R22): the 64 fields' lowest rails as the snapshot carries them. -/
  | j4Snapshot (droop : List Byte)
  /-- `J1_ORDER_WRITE` (R19). -/
  | j1OrderWrite (w : BitVec 16)
  /-- `J1_LEVEL_WRITE` (R18). -/
  | j1LevelWrite (step : Fin 16) (hold throttle : Bool)
  /-- `TILE_RAIL_CHECK` (R543): the highest tile rail in mV. -/
  | tileRailCheck (mv : Nat)
  /-- `MARKER_RECEIVE` (R161). -/
  | markerReceive (engine : EngineIx)
  /-- `STATE_WORD_RECEIVE` (R159). -/
  | stateWordReceive (engine : EngineIx)
  /-- `PLUMB_LOCK` (R156): whether lock is reached. -/
  | plumbLock (ok : Bool)
  /-- `MEMBER_LOST` (R175). -/
  | memberLost (module : Fin 256)
  /-- `SCARF_CELL_RECEIVE` (R230): the cell as its sender sent it, its arrival in 1/16 LCLK cycles from the module’s own
  boundary, and the errors of the line. -/
  | scarfCellReceive (engine : EngineIx) (cell : Cell) (arrival : Int) (errs : List LineError)
  /-- `SCARF_CELL_SEND` (R228): the phase the cell reports. -/
  | scarfCellSend (engine : EngineIx) (phase : W32)
  /-- `ENGINE_DOWN` (R232): whether it is an entry of scheduled flits. -/
  | engineDown (engine : EngineIx) (entry : Bool)
  /-- `LANE_SWAP_REQUEST` (R237). -/
  | laneSwapRequest (engine : EngineIx) (lane : Fin 9)
  /-- `LANE_SWAP_COMPLETE` (R237). -/
  | laneSwapComplete (engine : EngineIx)
  /-- `SCARF_TRAIN_STATE_DONE` (R233). -/
  | scarfTrainStateDone (engine : EngineIx) (found : TrainFound)
  /-- `SCARF_FLIT_RELEASE` (R245): the n-th held flit, and the cycle counted from the start of its arrival beat. -/
  | scarfFlitRelease (engine : EngineIx) (n cycle : Nat)
  /-- `OPEN` (R300). -/
  | hostOpen (m : Msg) (control force : Bool)
  /-- `CLOSE` (R299). -/
  | hostClose (m : Msg)
  /-- `HEARTBEAT` (R316). -/
  | hostHeartbeat (m : Msg)
  /-- `LOAD_BEGIN` (R260): the image's length and the 160 B repair map. -/
  | loadBegin (m : Msg) (len : Nat) (repair : List Byte)
  /-- `LOAD_DATA` (R308). -/
  | loadData (m : Msg) (off : Nat) (bs : List Byte)
  /-- `RESTORE` (R290). -/
  | hostRestore (m : Msg)
  /-- `SYS_DESC` (R241): the message's payload. -/
  | sysDesc (m : Msg) (payload : List Byte)
  /-- `START` (R304). -/
  | hostStart (m : Msg)
  /-- `HOLD` (R304). -/
  | hostHold (m : Msg)
  /-- `RESUME` (R304). -/
  | hostResume (m : Msg)
  /-- `CHECKPOINT` (R304). -/
  | hostCheckpoint (m : Msg)
  /-- `TURN` (R273). -/
  | hostTurn (m : Msg) (g : Fin 256)
  /-- `STOP` (R304). -/
  | hostStop (m : Msg)
  /-- `HOST_CAP` (R358). -/
  | hostCap (m : Msg) (cap : F32)
  /-- `TCSR_READ` (R312): the global address, and a physical tile or 0xFFFF. -/
  | tcsrRead (m : Msg) (a : W64) (phys : BitVec 16)
  /-- `TCSR_WRITE` (R312): the global address, a physical tile or 0xFFFF, and the value. -/
  | tcsrWrite (m : Msg) (a : W64) (phys : BitVec 16) (v : W64)
  /-- `TSTREAM_PUT` (R311). -/
  | tstreamPut (m : Msg) (a : W64) (bs : List Byte)
  /-- `TSTREAM_GET` (R311): what the check bits of a stack read find. -/
  | tstreamGet (m : Msg) (a : W64) (n : Nat) (found : StackFound)
  /-- `QP_OPEN` (R309): the host's QPN and PSN, and the traffic class. -/
  | qpOpen (m : Msg) (qpn psn : W32) (cls : Nat)
  /-- `QP_CLOSE` (R309). -/
  | qpClose (m : Msg) (qpn : W32)
  /-- `SCARF_RETRAIN` (R239): a side, and an engine of it or 0xFF for all. -/
  | scarfRetrain (m : Msg) (side : Fin 4) (index : BitVec 8)
  /-- `DATA_EVENT_ACK` (R315). -/
  | dataEventAck (m : Msg) (next : W64) (subscribe : Bool)
  /-- `RUN_EVENT_ACK` (R315). -/
  | runEventAck (m : Msg) (next : W64) (subscribe : Bool)
  /-- `BAD_MESSAGE` (R297): the host engine, the source address, and the datagram. -/
  | badMessage (engine : Fin 4) (addr : Nat) (datagram : List Byte)
  /-- `EVENT_RESEND` (R315): the ring, and the subscriber. -/
  | eventResend (plane : Plane) (addr : Nat)
  /-- `SUBSCRIBER_LAPSE` (R315): the ring, and the subscriber. -/
  | subscriberLapse (plane : Plane) (addr : Nat)
  /-- `SESSION_TIMEOUT` (R299). -/
  | sessionTimeout (session : W32)
  /-- `RDMA_WRITE` (R309). -/
  | rdmaWrite (engine : Fin 4) (qpn key : W32) (a : W64) (bs : List Byte)
  /-- `RDMA_READ` (R309): what the check bits of a stack read find. -/
  | rdmaRead (engine : Fin 4) (qpn key : W32) (a : W64) (n : Nat) (found : StackFound)
  /-- `TURN_PHASE_DONE` (R279): what the sending modules hand over, per field. -/
  | turnPhaseDone (arrived : List Arrived)
  /-- `TURN_FAILED` (R281). -/
  | turnFailed (cause : TurnFault)
  /-- `FRAME_BOUNDARY` (R364): what the frame's meters read. -/
  | frameBoundary (f : FrameMeas)
  /-- `INLET_CLOSE` (R335): volts behind the contactor, at the inlet, and reached by precharge. -/
  | inletClose (behind inlet reached : Nat)
  /-- `INPUT_LOSS` (R338). -/
  | inputLoss (meas : InletMeas)
  /-- `CONVERTER_FAULT` (R341). -/
  | converterFault (block : Fin 4)
  /-- `CONVERTER_RESTART` (R341). -/
  | converterRestart (block : Fin 4)
  /-- `BUS_UNDERVOLTAGE` (R342): the bus in mV, and for how long in µs. -/
  | busUndervoltage (mv us : Nat)
  /-- `PHASE_DISABLE` (R344). -/
  | phaseDisable (field : FieldIx) (phase : Fin 18)
  /-- `DOMAIN_ENABLE` (R347). -/
  | domainEnable (d : Fin 1404)
  /-- `DOMAIN_FAULT` (R349). -/
  | domainFault (d : Fin 1404)
  /-- `DOMAIN_FORCE` (R350): the node addressed, the requester, its tag, and the value. -/
  | domainForce (target : Fin 32) (who : Requester) (tag : BitVec 16) (v : W32)
  /-- `POWER_ORDER_WRITE` (R353): the node addressed, the requester, its tag, and the value. -/
  | powerOrderWrite (target : Fin 32) (who : Requester) (tag : BitVec 16) (v : Byte)
  /-- `ENVELOPE_WRITE` (R357): the node addressed, the requester, its tag, and the value. -/
  | envelopeWrite (target : Fin 32) (who : Requester) (tag : BitVec 16) (v : List Byte)
  /-- `SENSOR_CONVERSION` (R584): the conversions of one grid instant. -/
  | sensorConversion (rs : List (SensorId × Reading))
  /-- `PAIR_DISAGREE` (R379). -/
  | pairDisagree (tile : TileIx)
  /-- `PAIR_SUSPECT` (R379). -/
  | pairSuspect (tile : TileIx)
  /-- `PAIR_AGREE` (R379). -/
  | pairAgree (tile : TileIx)
  /-- `MASK_SENSOR` (R380): the node addressed, the requester, its tag, the challenge and the complement. -/
  | maskSensor (target : Fin 32) (who : Requester) (tag : BitVec 16) (challenge : W32) (complement : W64)
  /-- `CONVERTER_OVERTEMP` (R396). -/
  | converterOvertemp (block : Fin 4)
  /-- `LEAK_SAMPLE` (R398): channel B or A, and its conductance in 0.1 µS. -/
  | leakSample (b : Bool) (g : Nat)
  /-- `LEAK_CHANNEL_FAULT` (R398): channel B or A. -/
  | leakChannelFault (b : Bool)
  /-- `BANK_TRIP` (R405): µs in limit, and whether a pull-in of the bank is in progress. -/
  | bankTrip (bank : Fin 5) (us : Nat) (own : Bool)
  /-- `BANK_RETRY` (R405). -/
  | bankRetry (bank : Fin 5)
  /-- `PULLIN_START` (R409). -/
  | pullinStart (c : Fin 20)
  /-- `PULLIN_REGULATION_END` (R406). -/
  | pullinRegulationEnd (c : Fin 20)
  /-- `FAST_DECAY_END` (R406): the current samples of the pull-in that ends, in mA, one each µs from its start. -/
  | fastDecayEnd (c : Fin 20) (samples : List Nat)
  /-- `OPEN_COIL_CHECK` (R408): the current in mA. -/
  | openCoilCheck (c : Fin 20) (ma : Nat)
  /-- `COIL_SHORT` (R408): the current in mA. -/
  | coilShort (c : Fin 20) (ma : Nat)
  /-- `MOVEMENT_RETRY` (R411). -/
  | movementRetry (c : Fin 20)
  /-- `ZONE_WINDOW_START` (R413). -/
  | zoneWindowStart (z : ZoneIx)
  /-- `ZONE_WINDOW_END` (R413). -/
  | zoneWindowEnd (z : ZoneIx)
  /-- `STUCK_OPEN_CHECK` (R412). -/
  | stuckOpenCheck (z : ZoneIx)
  /-- `ZONE_FORCE` (R415). -/
  | zoneForce (z : ZoneIx)
  /-- `VALVE_RETEST` (R417). -/
  | valveRetest (z : ZoneIx)
  /-- `VALVE_FAULT_CLEAR` (R418): the node addressed, the requester, its tag, the challenge and the complement. -/
  | valveFaultClear (target : Fin 32) (who : Requester) (tag : BitVec 16) (challenge : W32) (complement : W64)
  /-- `MANIFOLD_PROFILE` (R419): the node addressed, the requester, its tag, the challenge and the complement. -/
  | manifoldProfile (target : Fin 32) (who : Requester) (tag : BitVec 16) (challenge : W32) (complement : W64)
  /-- `DRIVE_LOOP` (R424): measured speeds of pumps 0 and 1 and fans 0 to 3. -/
  | driveLoop (rpm : List Nat)
  /-- `TARGET_STEP` (R424). -/
  | targetStep (unit : DriveNo) (pct : Fin 101)
  /-- `UNIT_START_CHECK` (R425). -/
  | unitStartCheck (unit : DriveNo) (pulses : Bool)
  /-- `TACH_LOSS` (R426): ms without a pulse. -/
  | tachLoss (unit : DriveNo) (ms : Nat)
  /-- `TACH_RECOVER` (R426). -/
  | tachRecover (unit : DriveNo)
  /-- `UNIT_FAULT_CLEAR` (R427): the node addressed, the requester, its tag, the challenge and the complement. -/
  | unitFaultClear (target : Fin 32) (who : Requester) (tag : BitVec 16) (challenge : W32) (complement : W64)
  /-- `SEQUENCER_SCHEDULE_WRITE` (R429). -/
  | sequencerScheduleWrite (sch : Schedule)
  /-- `LOCKSTEP_MISMATCH` (R436). -/
  | lockstepMismatch (pair : Fin 2)
  /-- `PAIR_SELFTEST_DONE` (R437). -/
  | pairSelftestDone (pair : Fin 2) (pass : Bool)
  /-- `PAIR_RESTORE` (R437): the node addressed, the requester, its tag, the challenge and the complement. -/
  | pairRestore (target : Fin 32) (who : Requester) (tag : BitVec 16) (challenge : W32) (complement : W64)
  /-- `OSC_FAULT` (R441): OSC-B or OSC-A; lost or deviating. -/
  | oscFault (b lost : Bool)
  /-- `OSC_REVERT` (R442): REF cycles for which OSC-A has been good. -/
  | oscRevert (cycles : Nat)
  /-- `OSC_REVERT_CLEAR` (R442): the node addressed, the requester, its tag, the challenge and the complement. -/
  | oscRevertClear (target : Fin 32) (who : Requester) (tag : BitVec 16) (challenge : W32) (complement : W64)
  /-- `POWER_APPLIED` (R447). -/
  | powerApplied (found : PowerFound)
  /-- `COLD_START` (R447): what the steps so far found. -/
  | coldStart (found : List StepFound)
  /-- `WARM_START` (R451): what the steps so far found. -/
  | warmStart (found : List StepFound)
  /-- `START_STEP_DONE` (R447). -/
  | startStepDone (found : StepFound)
  /-- `START_STEP_FAIL` (R449): its time ran out, or its check failed. -/
  | startStepFail (timeout : Bool)
  /-- `SERVICE_ORDER` (R445): the node addressed, the requester, its tag, the challenge and the complement. -/
  | serviceOrder (target : Fin 32) (who : Requester) (tag : BitVec 16) (challenge : W32) (complement : W64)
  /-- `MGMT_RESTART` (R453): the node addressed, the requester, its tag, and the value. -/
  | mgmtRestart (target : Fin 32) (who : Requester) (tag : BitVec 16) (v : Byte)
  /-- `MGMT_WARM_START` (R455): the pairs' self-tests, and what the store's load found. -/
  | mgmtWarmStart (passA passB : Bool) (store : StoreFound)
  /-- `RETAINED_WRITE` (R458): the records or the settings image. -/
  | retainedWrite (records : Bool)
  /-- `RESTORE_FACTORY` (R460): the node addressed, the requester, its tag, the challenge and the complement. -/
  | restoreFactory (target : Fin 32) (who : Requester) (tag : BitVec 16) (challenge : W32) (complement : W64)
  /-- `RETIRE_TILE` (R268): the node addressed, the requester, its tag, and the value. -/
  | retireTile (target : Fin 32) (who : Requester) (tag : BitVec 16) (v : BitVec 16)
  /-- `RESTORE_TILE` (R268): the node addressed, the requester, its tag, the challenge and the complement. -/
  | restoreTile (target : Fin 32) (who : Requester) (tag : BitVec 16) (challenge : W32) (complement : W64)
  /-- `RACK_HOLD` (R530): the node addressed, the requester, its tag, and the value. -/
  | rackHold (target : Fin 32) (who : Requester) (tag : BitVec 16) (v : Byte)
  /-- `SAFETY_ALARM` (R490): the module's own waiting alarms, or a frame received. -/
  | safetyAlarm (a : AlarmFrame)
  /-- `ALARM_REPEAT` (R490). -/
  | alarmRepeat (seq : BitVec 16)
  /-- `REFERENCE` (R486): the channel, t_s, t_r, the sender's time_source, and 11 idle bits before. -/
  | reference (c : Fin 2) (ts tr : W64) (src : Fin 3) (idle : Bool)
  /-- `REFERENCE_SEND` (R485): the loop delay measured in the frame. -/
  | referenceSend (c : Fin 2) (loop : Nat)
  /-- `RACK_HEARTBEAT` (R477). -/
  | rackHeartbeat (c : Fin 2) (source : Fin 32)
  /-- `STATUS_SEND` (R491): the channel, the window, the bus idle at which it starts in µs, and the loop delay measured. -/
  | statusSend (c : Fin 2) (w : Fin 16) (idle loop : Nat)
  /-- `EXCLUSIVE_WINDOW_MISSED` (R482): the channel, the window, and its first bus idle in µs. -/
  | exclusiveWindowMissed (c : Fin 2) (w : Fin 16) (idle : Nat)
  /-- `READ` (R499). -/
  | dictRead (q : DictCall)
  /-- `WRITE` (R499). -/
  | dictWrite (q : DictCall)
  /-- `SAFETY_FIRST_STEP` (R519). -/
  | safetyFirstStep (q : DictCall)
  /-- `SAFETY_CONFIRM` (R522). -/
  | safetyConfirm (q : DictCall)
  /-- `READ_SEGMENT` (R499). -/
  | readSegment (q : DictCall)
  /-- `WRITE_SEGMENT` (R499). -/
  | writeSegment (q : DictCall)
  /-- `ABORT` (R500). -/
  | dictAbort (q : DictCall)
  /-- `TRANSFER_IDLE_TIMEOUT` (R500). -/
  | transferIdleTimeout (who : Requester) (tag : BitVec 16)
  /-- `SAFETY_WINDOW_EXPIRE` (R520). -/
  | safetyWindowExpire (index : BitVec 16) (sub : Byte)
  /-- `FLAG_CLEAR` (R509): the node addressed, the requester, its tag, and flag_clear's fields. -/
  | flagClear (target : Fin 32) (who : Requester) (tag : BitVec 16) (index : BitVec 16) (sub group : Byte) (mask : W64)
  /-- `AUTHORITY_TABLE` (R511): the node addressed, the requester, its tag, and the value. -/
  | authorityTable (target : Fin 32) (who : Requester) (tag : BitVec 16) (v : List Byte)
  /-- `MGMT_DATAGRAM` (R523): the source address and port, and the datagram. -/
  | mgmtDatagram (addr : BitVec 128) (port : BitVec 16) (bs : List Byte)
  /-- `RATE_DETECT_DWELL` (R473): whether edges were seen. -/
  | rateDetectDwell (c : Fin 2) (edges : Bool)
  /-- `RATE_FOUND` (R473): whether the data phase fails. -/
  | rateFound (c : Fin 2) (brsFails : Bool)
  /-- `RATE_DETECT_TIMEOUT` (R474). -/
  | rateDetectTimeout (c : Fin 2)
  /-- `BUS_OFF` (R493): the transmit error count. -/
  | busOff (c : Fin 2) (tec : Nat)
  /-- `BUS_OFF_RECOVERY` (R493). -/
  | busOffRecovery (c : Fin 2)
  /-- `ERROR_PASSIVE` (R492): the error counts. -/
  | errorPassive (c : Fin 2) (tec rec_ : Nat)
  /-- `ADDRESS_COLLISION` (R496). -/
  | addressCollision (c : Fin 2) (by_ : CollisionBy)
  /-- `MESSAGE_CANCEL` (R489): the n-th message of the channel's queue. -/
  | messageCancel (c : Fin 2) (n : Nat) (meets : CancelMeets)
  /-- `CHANNEL_RESTART` (R493): the node addressed, the requester, its tag, and the value. -/
  | channelRestart (target : Fin 32) (who : Requester) (tag : BitVec 16) (v : Byte)
  /-- `COLLISION_CLEAR` (R497): the node addressed, the requester, its tag, and the value. -/
  | collisionClear (target : Fin 32) (who : Requester) (tag : BitVec 16) (v : Byte)
  /-- `NODE_ADDRESS` (R470): the node addressed, the requester, its tag, and the value. -/
  | nodeAddress (target : Fin 32) (who : Requester) (tag : BitVec 16) (v : Byte)
  /-- `MATRIX` (R481): the node addressed, the requester, its tag, and the value. -/
  | matrix (target : Fin 32) (who : Requester) (tag : BitVec 16) (v : List Byte)
  /-- `GNOMON_NODE` (R481): the node addressed, the requester, its tag, and the value. -/
  | gnomonNode (target : Fin 32) (who : Requester) (tag : BitVec 16) (v : Byte)
  /-- `PTP_SYNC` (R524): the measured offset in ns. -/
  | ptpSync (offset : Int)
  /-- `SF_1_LEAK_CUT` (R399): channel B or A. -/
  | sf1LeakCut (b : Bool)
  /-- `SF_3_OVER_TEMPERATURE` (R395): a stack sensor or a tile sensor. -/
  | sf3OverTemperature (stack : Bool)
  /-- `SF_4_BUS_PROTECTION` (R537): mV or A, and for how long in µs. -/
  | sf4BusProtection (voltage : Bool) (measured us : Nat)
  /-- `BUS_CURRENT_RECHECK` (R538). -/
  | busCurrentRecheck (amps : Nat)
  /-- `SF_5_INLET_PROTECTION` (R537): A or V, and for how long in µs. -/
  | sf5InletProtection (current : Bool) (measured us : Nat)
  /-- `SF_7_TRAY_POWER_OFF` (R548): PRESENT or INTERLOCK, and for how long it is open in µs. -/
  | sf7TrayPowerOff (present : Bool) (us : Nat)
  /-- `SF_8_SAFETY_SENSING_LOST` (R537). -/
  | sf8SafetySensingLost (lost : SensingLost)
  /-- `SAFE_STOP_EXIT` (R552): the node addressed, the requester, its tag, the challenge and the complement. -/
  | safeStopExit (target : Fin 32) (who : Requester) (tag : BitVec 16) (challenge : W32) (complement : W64)
  /-- `LEAK_CUT_EXIT` (R555): the node addressed, the requester, its tag, the challenge and the complement. -/
  | leakCutExit (target : Fin 32) (who : Requester) (tag : BitVec 16) (challenge : W32) (complement : W64)
  /-- `EVCNT_WRAP` (R322): the counter, and its increment. -/
  | evcntWrap (tile : TileIx) (n : Fin 8) (k : Nat)
  /-- `MOVEMENT_CROSS_CHECK` (R411). -/
  | movementCrossCheck (c : Fin 20)
  /-- `BEAT_BOUNDARY` (R141). -/
  | beatBoundary
  /-- `BEAT_OVERRUN` (R149). -/
  | beatOverrun
  /-- `STEP_SWITCH` (R168). -/
  | stepSwitch
  /-- `J4_PLACEMENT_RECORD` (R274). -/
  | j4PlacementRecord
  /-- `HALTED_RISE` (R542). -/
  | haltedRise
  /-- `HALTED_TIMEOUT` (R542). -/
  | haltedTimeout
  /-- `HALTED_MISSING` (R543). -/
  | haltedMissing
  /-- `DATA_PLANE_POWER_UP` (R19). -/
  | dataPlanePowerUp
  /-- `STATE_WORD_SEND` (R158). -/
  | stateWordSend
  /-- `ROOT_LOST` (R170). -/
  | rootLost
  /-- `ROOT_TAKEOVER` (R171). -/
  | rootTakeover
  /-- `BACKUP_REDESIGNATE` (R172). -/
  | backupRedesignate
  /-- `ASSEMBLY_INCOMPLETE` (R242). -/
  | assemblyIncomplete
  /-- `LOAD_COMPLETE` (R308). -/
  | loadComplete
  /-- `LOAD_TIMEOUT` (R308). -/
  | loadTimeout
  /-- `PLACEMENT_CHECK` (R274). -/
  | placementCheck
  /-- `STOP_COMPLETE` (R199). -/
  | stopComplete
  /-- `CONTROL_ROLE_LOST` (R300). -/
  | controlRoleLost
  /-- `ORDER_REQUEST` (R306). -/
  | orderRequest
  /-- `ORDER_VERDICT_TIMEOUT` (R306). -/
  | orderVerdictTimeout
  /-- `J2_JOURNAL_RECORD` (R23). -/
  | j2JournalRecord
  /-- `J2_STATE_WORD_UPDATE` (R24). -/
  | j2StateWordUpdate
  /-- `J2_PROFILE` (R360). -/
  | j2Profile
  /-- `TURN_COMPLETE` (R279). -/
  | turnComplete
  /-- `CHECKPOINT_CAPTURED` (R288). -/
  | checkpointCaptured
  /-- `TURN_DUE` (R286). -/
  | turnDue
  /-- `FORECAST_RECOMPUTE` (R371). -/
  | forecastRecompute
  /-- `ENERGY_WRITE` (R352). -/
  | energyWrite
  /-- `PRECHARGE_TIMEOUT` (R335). -/
  | prechargeTimeout
  /-- `INLET_OPEN` (R336). -/
  | inletOpen
  /-- `INPUT_OUT_OF_RANGE` (R337). -/
  | inputOutOfRange
  /-- `INLET_RECOVERED` (R338). -/
  | inletRecovered
  /-- `BUS_UNDERVOLTAGE_CLEAR` (R342). -/
  | busUndervoltageClear
  /-- `POWER_ORDER_ACT` (R354). -/
  | powerOrderAct
  /-- `COOLANT_PERIOD_START` (R381). -/
  | coolantPeriodStart
  /-- `FLOW_MARGIN_EVAL` (R387). -/
  | flowMarginEval
  /-- `FLOW_STOP` (R391). -/
  | flowStop
  /-- `FLOW_RESTORED` (R390). -/
  | flowRestored
  /-- `THERMAL_STEP_RISE` (R393). -/
  | thermalStepRise
  /-- `THERMAL_THROTTLE` (R393). -/
  | thermalThrottle
  /-- `THERMAL_STEP_LOWER` (R394). -/
  | thermalStepLower
  /-- `INLET_TEMP_OUT_OF_RANGE` (R397). -/
  | inletTempOutOfRange
  /-- `RACK_ALIVE_TIMEOUT` (R461). -/
  | rackAliveTimeout
  /-- `EVENT_MESSAGE_SEND` (R526). -/
  | eventMessageSend
  /-- `FREE_RUNNING_TIMEOUT` (R487). -/
  | freeRunningTimeout
  /-- `TIME_SOURCE_CHANGE` (R484). -/
  | timeSourceChange
  /-- `PTP_SYNC_TIMEOUT` (R524). -/
  | ptpSyncTimeout
  /-- `SF_2_FLOW_NOT_RESTORED` (R392). -/
  | sf2FlowNotRestored
  /-- `SF_6_SKOUR_SUPERVISION` (R546). -/
  | sf6SkourSupervision
  /-- `SKOUR_SILENT_INLET_OPEN` (R546). -/
  | skourSilentInletOpen
  /-- `TRAY_CLOSED` (R548). -/
  | trayClosed
  /-- `SAFE_STOP_INLET_OPEN` (R541). -/
  | safeStopInletOpen
  /-- `WATCHDOG_EXPIRY` (R545). -/
  | watchdogExpiry
  /-- `SUPERVISOR_TIMEOUT` (R535). -/
  | supervisorTimeout
  /-- `UART_S` (R559). -/
  | uartS
  /-- `UART_J` (R559). -/
  | uartJ
  /-- `UART_V` (R559). -/
  | uartV
  /-- `AUX_POWER_LOSS` (R33). -/
  | auxPowerLoss
  /-- `HOST_PORT_RETRAIN` (R293): a lane that fails its self-check. -/
  | hostPortRetrain (engine : Fin 4) (failed : Option (Fin 8))
  /-- `HOST_PORT_OTHER_FRAME` (R292). -/
  | hostPortOtherFrame (engine : Fin 4) (frame : OtherFrame)
  /-- `PAIR_RESYNC_DONE` (R435). -/
  | pairResyncDone (pair : Fin 2)
  /-- `OSC_GOOD` (R443): OSC-B or OSC-A. -/
  | oscGood (b : Bool)
  /-- `BEST_MASTER_CHANGE` (R524): its clockIdentity. -/
  | bestMasterChange (master : W64)
  /-- `RACK_BUS_FRAME_IGNORED` (R477). -/
  | rackBusFrameIgnored (ident : BitVec 29)
deriving DecidableEq, Repr

end Sys2Proof
end

