-- ==== Sys2Proof/Decode.lean ====
section
/-!
DEFINITION. The command a word of the command table's bits spells. No row of the table gives bits: commands come as events,
messages and register writes, and the bundles that tiles fetch are data of the tiles (Machine/Bundle.lean decodes them).
-/

namespace Sys2Proof

/-- No word spells a command. -/
def decodeTableWord (_nbits _w : Nat) : Option Instr := none

end Sys2Proof
end

