-- ==== Sys2Proof/Machine/State.lean ====
section
/-!
DEFINITION. The state of the block: the module and the queue of commands that wait for it.
-/

namespace Sys2Proof.Machine

/-- The block: the commands that wait, first in first out, and the whole module. -/
structure State where
  pending : List Instr
  sys : Module
deriving DecidableEq, Repr

/-- Why a step stops with a fault. Nothing raises one: every command has an effect by the spec, if only to be ignored. -/
inductive Fault where
deriving DecidableEq, Repr

/-- Why a command is refused. -/
inductive Refusal where
  /-- The command has no meaning yet. Raised by an arm of `exec` alone; safe. No arm raises it. -/
  | notModelled (mnemonic : String)
deriving DecidableEq, Repr

/-- Right after reset: no command waits, and the module has never had power (R33, R536). -/
def State.reset : State := ⟨[], Module.reset⟩

end Sys2Proof.Machine
end

