-- ==== Sys2Proof/Machine/Exec.lean ====
section
/-!
DEFINITION. How a command's effect on the module becomes its effect on the state.
-/

namespace Sys2Proof.Machine

/-- The command does `f` to the module; the queue is as it was. -/
def onSys (f : Module → Module) (s : State) : Host.Outcome State Fault Refusal := .next { s with sys := f s.sys }

end Sys2Proof.Machine
end

