-- ==== Sys2Proof/Machine/ActuatorCommands.lean ====
section
/-!
DEFINITION. Valves, pumps and fans: the commands' meanings, each over the operation its rule names.
-/

namespace Sys2Proof.Machine

/-- `BANK_TRIP` (R405): µs in limit, and whether a pull-in of the bank is in progress. -/
def execBankTrip (bank : Fin 5) (us : Nat) (own : Bool) (s : State) : Host.Outcome State Fault Refusal :=
  onSys (bankTrip bank us own) s

/-- `BANK_RETRY` (R405). -/
def execBankRetry (bank : Fin 5) (s : State) : Host.Outcome State Fault Refusal :=
  onSys (bankRetry bank) s

/-- `PULLIN_START` (R409). -/
def execPullinStart (c : Fin 20) (s : State) : Host.Outcome State Fault Refusal :=
  onSys (fun x => pullinStart (chanKey x c) x) s

/-- `PULLIN_REGULATION_END` (R406). -/
def execPullinRegulationEnd (c : Fin 20) (s : State) : Host.Outcome State Fault Refusal :=
  onSys (fun x => regulationEnd (chanKey x c) x) s

/-- `FAST_DECAY_END` (R406): the current samples of the pull-in that ends, in mA, one each µs from its start. -/
def execFastDecayEnd (c : Fin 20) (samples : List Nat) (s : State) : Host.Outcome State Fault Refusal :=
  onSys (fun x => decayEnd (chanKey x c) samples x) s

/-- `OPEN_COIL_CHECK` (R408): the current in mA. -/
def execOpenCoilCheck (c : Fin 20) (ma : Nat) (s : State) : Host.Outcome State Fault Refusal :=
  onSys (fun x => openCoil (chanKey x c) ma x) s

/-- `COIL_SHORT` (R408): the current in mA. -/
def execCoilShort (c : Fin 20) (ma : Nat) (s : State) : Host.Outcome State Fault Refusal :=
  onSys (fun x => coilShort (chanKey x c) ma x) s

/-- `MOVEMENT_RETRY` (R411). -/
def execMovementRetry (c : Fin 20) (s : State) : Host.Outcome State Fault Refusal :=
  onSys (fun x => movementRetry (chanKey x c) x) s

/-- `ZONE_WINDOW_START` (R413). -/
def execZoneWindowStart (z : ZoneIx) (s : State) : Host.Outcome State Fault Refusal :=
  onSys (windowStart z) s

/-- `ZONE_WINDOW_END` (R413). -/
def execZoneWindowEnd (z : ZoneIx) (s : State) : Host.Outcome State Fault Refusal :=
  onSys (windowEnd z) s

/-- `STUCK_OPEN_CHECK` (R412). -/
def execStuckOpenCheck (z : ZoneIx) (s : State) : Host.Outcome State Fault Refusal :=
  onSys (stuckOpen z) s

/-- `ZONE_FORCE` (R415). -/
def execZoneForce (z : ZoneIx) (s : State) : Host.Outcome State Fault Refusal :=
  onSys (forceZone z) s

/-- `VALVE_RETEST` (R417). -/
def execValveRetest (z : ZoneIx) (s : State) : Host.Outcome State Fault Refusal :=
  onSys (valveRetest z) s

/-- `VALVE_FAULT_CLEAR` (R418): the node addressed, the requester, its tag, the challenge and the complement. -/
def execValveFaultClear (target : Fin 32) (who : Requester) (tag : BitVec 16) (challenge : W32) (complement : W64) (s : State) :
    Host.Outcome State Fault Refusal :=
  onSys (confirmWrite target who tag.toNat Ent.valveFaultClear challenge complement) s

/-- `MANIFOLD_PROFILE` (R419): the node addressed, the requester, its tag, the challenge and the complement. -/
def execManifoldProfile (target : Fin 32) (who : Requester) (tag : BitVec 16) (challenge : W32) (complement : W64) (s : State) :
    Host.Outcome State Fault Refusal :=
  onSys (confirmWrite target who tag.toNat Ent.manifoldProfile challenge complement) s

/-- `DRIVE_LOOP` (R424): measured speeds of pumps 0 and 1 and fans 0 to 3. -/
def execDriveLoop (rpm : List Nat) (s : State) : Host.Outcome State Fault Refusal :=
  onSys (driveLoop rpm) s

/-- `TARGET_STEP` (R424). -/
def execTargetStep (unit : DriveNo) (pct : Fin 101) (s : State) : Host.Outcome State Fault Refusal :=
  onSys (targetStep unit.code pct) s

/-- `UNIT_START_CHECK` (R425). -/
def execUnitStartCheck (unit : DriveNo) (pulses : Bool) (s : State) : Host.Outcome State Fault Refusal :=
  onSys (unitStartCheck unit.code pulses) s

/-- `TACH_LOSS` (R426): ms without a pulse. -/
def execTachLoss (unit : DriveNo) (ms : Nat) (s : State) : Host.Outcome State Fault Refusal :=
  onSys (tachLoss unit.code ms) s

/-- `TACH_RECOVER` (R426). -/
def execTachRecover (unit : DriveNo) (s : State) : Host.Outcome State Fault Refusal :=
  onSys (tachRecover unit.code) s

/-- `UNIT_FAULT_CLEAR` (R427): the node addressed, the requester, its tag, the challenge and the complement. -/
def execUnitFaultClear (target : Fin 32) (who : Requester) (tag : BitVec 16) (challenge : W32) (complement : W64) (s : State) :
    Host.Outcome State Fault Refusal :=
  onSys (confirmWrite target who tag.toNat Ent.unitFaultClear challenge complement) s

/-- `SEQUENCER_SCHEDULE_WRITE` (R429). -/
def execSequencerScheduleWrite (sch : Schedule) (s : State) : Host.Outcome State Fault Refusal :=
  onSys (fun x => if skourUp x then writeSchedule sch x else x) s

/-- `MOVEMENT_CROSS_CHECK` (R411). -/
def execMovementCrossCheck (c : Fin 20) (s : State) : Host.Outcome State Fault Refusal :=
  onSys (fun x => crossCheck (chanKey x c) x) s

end Sys2Proof.Machine
end

