-- ==== Sys2Proof/Machine/BeatCommands.lean ====
section
/-!
DEFINITION. The beat generator, plumb, and the joints of the data plane: the commands' meanings, each over the operation its
rule names.
-/

namespace Sys2Proof.Machine

/-- `BEAT_BOUNDARY` (R141). -/
def execBeatBoundary (s : State) : Host.Outcome State Fault Refusal :=
  onSys (fun x => onData (beatBoundary (envOf x)) x) s

/-- `BEAT_OVERRUN` (R149). -/
def execBeatOverrun (s : State) : Host.Outcome State Fault Refusal :=
  onSys (fun x => onData (beatOverrun (envOf x)) x) s

/-- `STEP_SWITCH` (R168). -/
def execStepSwitch (s : State) : Host.Outcome State Fault Refusal :=
  onSys (fun x => onData (stepSwitch (envOf x)) x) s

/-- `J4_SNAPSHOT` (R22): the 64 fields' lowest rails as the snapshot carries them. -/
def execJ4Snapshot (droop : List Byte) (s : State) : Host.Outcome State Fault Refusal :=
  onSys (takeSnapshot (fun f => droop.getD f 0)) s

/-- `J4_PLACEMENT_RECORD` (R274). -/
def execJ4PlacementRecord (s : State) : Host.Outcome State Fault Refusal :=
  onSys takePlacement s

/-- `J1_ORDER_WRITE` (R19). -/
def execJ1OrderWrite (w : BitVec 16) (s : State) : Host.Outcome State Fault Refusal :=
  onSys (writeOrderWord w) s

/-- `J1_LEVEL_WRITE` (R18). -/
def execJ1LevelWrite (step : Fin 16) (hold throttle : Bool) (s : State) : Host.Outcome State Fault Refusal :=
  onSys (writeLevels step hold throttle) s

/-- `HALTED_RISE` (R542). -/
def execHaltedRise (s : State) : Host.Outcome State Fault Refusal :=
  onSys haltedRises s

/-- `HALTED_TIMEOUT` (R542). -/
def execHaltedTimeout (s : State) : Host.Outcome State Fault Refusal :=
  onSys haltedTimeout s

/-- `HALTED_MISSING` (R543). -/
def execHaltedMissing (s : State) : Host.Outcome State Fault Refusal :=
  onSys haltedMissing s

/-- `TILE_RAIL_CHECK` (R543): the highest tile rail in mV. -/
def execTileRailCheck (mv : Nat) (s : State) : Host.Outcome State Fault Refusal :=
  onSys (tileRailCheck mv) s

/-- `DATA_PLANE_POWER_UP` (R19). -/
def execDataPlanePowerUp (s : State) : Host.Outcome State Fault Refusal :=
  onSys powerUpData s

/-- `MARKER_RECEIVE` (R161). -/
def execMarkerReceive (engine : EngineIx) (s : State) : Host.Outcome State Fault Refusal :=
  onSys (onData (markerReceive engine)) s

/-- `STATE_WORD_RECEIVE` (R159). -/
def execStateWordReceive (engine : EngineIx) (s : State) : Host.Outcome State Fault Refusal :=
  onSys (onData (wordReceive engine)) s

/-- `STATE_WORD_SEND` (R158). -/
def execStateWordSend (s : State) : Host.Outcome State Fault Refusal :=
  onSys (onData wordSend) s

/-- `PLUMB_LOCK` (R156): whether lock is reached. -/
def execPlumbLock (ok : Bool) (s : State) : Host.Outcome State Fault Refusal :=
  onSys (fun x => onData (plumbLock (envOf x) ok) x) s

/-- `ROOT_LOST` (R170). -/
def execRootLost (s : State) : Host.Outcome State Fault Refusal :=
  onSys (onData rootLost) s

/-- `ROOT_TAKEOVER` (R171). -/
def execRootTakeover (s : State) : Host.Outcome State Fault Refusal :=
  onSys (fun x => onData (rootTakeover (envOf x)) x) s

/-- `BACKUP_REDESIGNATE` (R172). -/
def execBackupRedesignate (s : State) : Host.Outcome State Fault Refusal :=
  onSys (onData backupRedesignate) s

/-- `MEMBER_LOST` (R175). -/
def execMemberLost (module : Fin 256) (s : State) : Host.Outcome State Fault Refusal :=
  onSys (fun x => onData (memberLost (envOf x) module) x) s

/-- `ASSEMBLY_INCOMPLETE` (R242). -/
def execAssemblyIncomplete (s : State) : Host.Outcome State Fault Refusal :=
  onSys (fun x => onData (assemblyIncomplete (envOf x)) x) s

end Sys2Proof.Machine
end

