-- ==== Sys2Proof/Machine/BusCommands.lean ====
section
/-!
DEFINITION. The rack bus and time: the commands' meanings, each over the operation its rule names.
-/

namespace Sys2Proof.Machine

/-- `SAFETY_ALARM` (R490): the module's own waiting alarms, or a frame received. -/
def execSafetyAlarm (a : AlarmFrame) (s : State) : Host.Outcome State Fault Refusal :=
  onSys (safetyAlarm a) s

/-- `ALARM_REPEAT` (R490). -/
def execAlarmRepeat (seq : BitVec 16) (s : State) : Host.Outcome State Fault Refusal :=
  onSys (alarmRepeat seq.toNat) s

/-- `REFERENCE` (R486): the channel, t_s, t_r, the sender's time_source, and 11 idle bits before. -/
def execReference (c : Fin 2) (ts tr : W64) (src : Fin 3) (idle : Bool) (s : State) : Host.Outcome State Fault Refusal :=
  onSys (referenceIn c ts tr src idle) s

/-- `REFERENCE_SEND` (R485): the loop delay measured in the frame. -/
def execReferenceSend (c : Fin 2) (loop : Nat) (s : State) : Host.Outcome State Fault Refusal :=
  onSys (referenceSend c loop) s

/-- `RACK_HEARTBEAT` (R477). -/
def execRackHeartbeat (c : Fin 2) (source : Fin 32) (s : State) : Host.Outcome State Fault Refusal :=
  onSys (rackHeartbeat c source) s

/-- `STATUS_SEND` (R491): the channel, the window, the bus idle at which it starts in µs, and the loop delay measured. -/
def execStatusSend (c : Fin 2) (w : Fin 16) (idle loop : Nat) (s : State) : Host.Outcome State Fault Refusal :=
  onSys (statusSend c w idle loop) s

/-- `EXCLUSIVE_WINDOW_MISSED` (R482): the channel, the window, and its first bus idle in µs. -/
def execExclusiveWindowMissed (c : Fin 2) (w : Fin 16) (idle : Nat) (s : State) : Host.Outcome State Fault Refusal :=
  onSys (windowMissed c w idle) s

/-- `EVENT_MESSAGE_SEND` (R526). -/
def execEventMessageSend (s : State) : Host.Outcome State Fault Refusal :=
  onSys eventSend s

/-- `FREE_RUNNING_TIMEOUT` (R487). -/
def execFreeRunningTimeout (s : State) : Host.Outcome State Fault Refusal :=
  onSys freeRunningTimeout s

/-- `TIME_SOURCE_CHANGE` (R484). -/
def execTimeSourceChange (s : State) : Host.Outcome State Fault Refusal :=
  onSys timeSourceChange s

/-- `RATE_DETECT_DWELL` (R473): whether edges were seen. -/
def execRateDetectDwell (c : Fin 2) (edges : Bool) (s : State) : Host.Outcome State Fault Refusal :=
  onSys (rateDwell c edges) s

/-- `RATE_FOUND` (R473): whether the data phase fails. -/
def execRateFound (c : Fin 2) (brsFails : Bool) (s : State) : Host.Outcome State Fault Refusal :=
  onSys (rateFound c brsFails) s

/-- `RATE_DETECT_TIMEOUT` (R474). -/
def execRateDetectTimeout (c : Fin 2) (s : State) : Host.Outcome State Fault Refusal :=
  onSys (rateTimeout c) s

/-- `BUS_OFF` (R493): the transmit error count. -/
def execBusOff (c : Fin 2) (tec : Nat) (s : State) : Host.Outcome State Fault Refusal :=
  onSys (busOff c tec) s

/-- `BUS_OFF_RECOVERY` (R493). -/
def execBusOffRecovery (c : Fin 2) (s : State) : Host.Outcome State Fault Refusal :=
  onSys (busRecovered c) s

/-- `ERROR_PASSIVE` (R492): the error counts. -/
def execErrorPassive (c : Fin 2) (tec rec_ : Nat) (s : State) : Host.Outcome State Fault Refusal :=
  onSys (errorPassive c tec rec_) s

/-- `ADDRESS_COLLISION` (R496). -/
def execAddressCollision (c : Fin 2) (by_ : CollisionBy) (s : State) : Host.Outcome State Fault Refusal :=
  onSys (addressCollision c by_) s

/-- `MESSAGE_CANCEL` (R489): the n-th message of the channel's queue. -/
def execMessageCancel (c : Fin 2) (n : Nat) (meets : CancelMeets) (s : State) : Host.Outcome State Fault Refusal :=
  onSys (cancelMessage c n meets) s

/-- `CHANNEL_RESTART` (R493): the node addressed, the requester, its tag, and the value. -/
def execChannelRestart (target : Fin 32) (who : Requester) (tag : BitVec 16) (v : Byte) (s : State) :
    Host.Outcome State Fault Refusal :=
  onSys (wholeWrite target who tag.toNat Ent.channelRestart (natLe 1 v.toNat)) s

/-- `COLLISION_CLEAR` (R497): the node addressed, the requester, its tag, and the value. -/
def execCollisionClear (target : Fin 32) (who : Requester) (tag : BitVec 16) (v : Byte) (s : State) :
    Host.Outcome State Fault Refusal :=
  onSys (wholeWrite target who tag.toNat Ent.collisionClear (natLe 1 v.toNat)) s

/-- `NODE_ADDRESS` (R470): the node addressed, the requester, its tag, and the value. -/
def execNodeAddress (target : Fin 32) (who : Requester) (tag : BitVec 16) (v : Byte) (s : State) :
    Host.Outcome State Fault Refusal :=
  onSys (wholeWrite target who tag.toNat Ent.nodeAddress (natLe 1 v.toNat)) s

/-- `MATRIX` (R481): the node addressed, the requester, its tag, and the value. -/
def execMatrix (target : Fin 32) (who : Requester) (tag : BitVec 16) (v : List Byte) (s : State) :
    Host.Outcome State Fault Refusal :=
  onSys (wholeWrite target who tag.toNat Ent.matrix (v)) s

/-- `GNOMON_NODE` (R481): the node addressed, the requester, its tag, and the value. -/
def execGnomonNode (target : Fin 32) (who : Requester) (tag : BitVec 16) (v : Byte) (s : State) :
    Host.Outcome State Fault Refusal :=
  onSys (wholeWrite target who tag.toNat Ent.gnomonNode (natLe 1 v.toNat)) s

/-- `PTP_SYNC` (R524): the measured offset in ns. -/
def execPtpSync (offset : Int) (s : State) : Host.Outcome State Fault Refusal :=
  onSys (ptpSync offset) s

/-- `PTP_SYNC_TIMEOUT` (R524). -/
def execPtpSyncTimeout (s : State) : Host.Outcome State Fault Refusal :=
  onSys ptpTimeout s

/-- `BEST_MASTER_CHANGE` (R524): its clockIdentity. -/
def execBestMasterChange (master : W64) (s : State) : Host.Outcome State Fault Refusal :=
  onSys (bestMaster master) s

/-- `RACK_BUS_FRAME_IGNORED` (R477). -/
def execRackBusFrameIgnored (ident : BitVec 29) (s : State) : Host.Outcome State Fault Refusal :=
  onSys (frameIgnored ident) s

end Sys2Proof.Machine
end

