-- ==== Sys2Proof/Machine/CoolantCommands.lean ====
section
/-!
DEFINITION. Sensors, coolant and thermal policy, leak channels: the commands' meanings, each over the operation its rule names.
-/

namespace Sys2Proof.Machine

/-- `SENSOR_CONVERSION` (R584): the conversions of one grid instant. -/
def execSensorConversion (rs : List (SensorId × Reading)) (s : State) : Host.Outcome State Fault Refusal :=
  onSys (convert rs) s

/-- `PAIR_DISAGREE` (R379). -/
def execPairDisagree (tile : TileIx) (s : State) : Host.Outcome State Fault Refusal :=
  onSys (pairDisagree tile) s

/-- `PAIR_SUSPECT` (R379). -/
def execPairSuspect (tile : TileIx) (s : State) : Host.Outcome State Fault Refusal :=
  onSys (pairSuspect tile) s

/-- `PAIR_AGREE` (R379). -/
def execPairAgree (tile : TileIx) (s : State) : Host.Outcome State Fault Refusal :=
  onSys (pairAgree tile) s

/-- `MASK_SENSOR` (R380): the node addressed, the requester, its tag, the challenge and the complement. -/
def execMaskSensor (target : Fin 32) (who : Requester) (tag : BitVec 16) (challenge : W32) (complement : W64) (s : State) :
    Host.Outcome State Fault Refusal :=
  onSys (confirmWrite target who tag.toNat Ent.maskSensor challenge complement) s

/-- `COOLANT_PERIOD_START` (R381). -/
def execCoolantPeriodStart (s : State) : Host.Outcome State Fault Refusal :=
  onSys periodStart s

/-- `FLOW_MARGIN_EVAL` (R387). -/
def execFlowMarginEval (s : State) : Host.Outcome State Fault Refusal :=
  onSys flowMarginEval s

/-- `FLOW_STOP` (R391). -/
def execFlowStop (s : State) : Host.Outcome State Fault Refusal :=
  onSys flowStop s

/-- `FLOW_RESTORED` (R390). -/
def execFlowRestored (s : State) : Host.Outcome State Fault Refusal :=
  onSys flowRestored s

/-- `THERMAL_STEP_RISE` (R393). -/
def execThermalStepRise (s : State) : Host.Outcome State Fault Refusal :=
  onSys thermalRise s

/-- `THERMAL_THROTTLE` (R393). -/
def execThermalThrottle (s : State) : Host.Outcome State Fault Refusal :=
  onSys thermalThrottle s

/-- `THERMAL_STEP_LOWER` (R394). -/
def execThermalStepLower (s : State) : Host.Outcome State Fault Refusal :=
  onSys thermalLower s

/-- `CONVERTER_OVERTEMP` (R396). -/
def execConverterOvertemp (block : Fin 4) (s : State) : Host.Outcome State Fault Refusal :=
  onSys (converterOvertemp block) s

/-- `INLET_TEMP_OUT_OF_RANGE` (R397). -/
def execInletTempOutOfRange (s : State) : Host.Outcome State Fault Refusal :=
  onSys inletTemp s

/-- `LEAK_SAMPLE` (R398): channel B or A, and its conductance in 0.1 µS. -/
def execLeakSample (b : Bool) (g : Nat) (s : State) : Host.Outcome State Fault Refusal :=
  onSys (leakSample b g) s

/-- `LEAK_CHANNEL_FAULT` (R398): channel B or A. -/
def execLeakChannelFault (b : Bool) (s : State) : Host.Outcome State Fault Refusal :=
  onSys (leakFault b) s

end Sys2Proof.Machine
end

