-- ==== Sys2Proof/Machine/DictionaryCommands.lean ====
section
/-!
DEFINITION. Dictionary requests: the commands' meanings, each over the operation its rule names.
-/

namespace Sys2Proof.Machine

/-- `READ` (R499). -/
def execDictRead (q : DictCall) (s : State) : Host.Outcome State Fault Refusal :=
  onSys (dictionary 1 q) s

/-- `WRITE` (R499). -/
def execDictWrite (q : DictCall) (s : State) : Host.Outcome State Fault Refusal :=
  onSys (dictionary 2 q) s

/-- `SAFETY_FIRST_STEP` (R519). -/
def execSafetyFirstStep (q : DictCall) (s : State) : Host.Outcome State Fault Refusal :=
  onSys (dictionary 3 q) s

/-- `SAFETY_CONFIRM` (R522). -/
def execSafetyConfirm (q : DictCall) (s : State) : Host.Outcome State Fault Refusal :=
  onSys (dictionary 4 q) s

/-- `READ_SEGMENT` (R499). -/
def execReadSegment (q : DictCall) (s : State) : Host.Outcome State Fault Refusal :=
  onSys (dictionary 5 q) s

/-- `WRITE_SEGMENT` (R499). -/
def execWriteSegment (q : DictCall) (s : State) : Host.Outcome State Fault Refusal :=
  onSys (dictionary 6 q) s

/-- `ABORT` (R500). -/
def execDictAbort (q : DictCall) (s : State) : Host.Outcome State Fault Refusal :=
  onSys (dictionary 7 q) s

/-- `TRANSFER_IDLE_TIMEOUT` (R500). -/
def execTransferIdleTimeout (who : Requester) (tag : BitVec 16) (s : State) : Host.Outcome State Fault Refusal :=
  onSys (transferTimeout who tag.toNat) s

/-- `SAFETY_WINDOW_EXPIRE` (R520). -/
def execSafetyWindowExpire (index : BitVec 16) (sub : Byte) (s : State) : Host.Outcome State Fault Refusal :=
  onSys (safetyExpire index.toNat sub.toNat) s

/-- `FLAG_CLEAR` (R509): the node addressed, the requester, its tag, and flag_clear's fields. -/
def execFlagClear (target : Fin 32) (who : Requester) (tag : BitVec 16) (index : BitVec 16) (sub group : Byte) (mask : W64) (s : State) :
    Host.Outcome State Fault Refusal :=
  onSys (wholeWrite target who tag.toNat Ent.flagClear (natLe 2 index.toNat ++ natLe 1 sub.toNat ++ natLe 1 group.toNat
    ++ natLe 8 mask.toNat)) s

/-- `AUTHORITY_TABLE` (R511): the node addressed, the requester, its tag, and the value. -/
def execAuthorityTable (target : Fin 32) (who : Requester) (tag : BitVec 16) (v : List Byte) (s : State) :
    Host.Outcome State Fault Refusal :=
  onSys (wholeWrite target who tag.toNat Ent.authorityTable (v)) s

/-- `MGMT_DATAGRAM` (R523): the source address and port, and the datagram. -/
def execMgmtDatagram (addr : BitVec 128) (port : BitVec 16) (bs : List Byte) (s : State) :
    Host.Outcome State Fault Refusal :=
  onSys (mgmtDatagram addr.toNat port.toNat bs) s

end Sys2Proof.Machine
end

