-- ==== Sys2Proof/Machine/FieldCommands.lean ====
section
/-!
DEFINITION. Fields: CSRs, maps, transfers, the arbiter and stacks: the commands' meanings, each over the operation its rule
names.
-/

namespace Sys2Proof.Machine

/-- `FIELD_INT_STATUS_CLEAR` (R62): `hw`: bits the hardware sets in the same cycle. -/
def execFieldIntStatusClear (field : FieldIx) (mask hw : W64) (s : State) : Host.Outcome State Fault Refusal :=
  onSys (fieldEdit field (fun f => { f with intStatus := w1c f.intStatus mask (hw &&& fieldIntMask) })) s

/-- `FIELD_INT_FORCE_SET` (R63). -/
def execFieldIntForceSet (field : FieldIx) (mask : W64) (s : State) : Host.Outcome State Fault Refusal :=
  onSys (fieldEdit field (fun f => fieldCsrWrite false f 0x0020 mask)) s

/-- `ARB_STARVE_CLEAR` (R213). -/
def execArbStarveClear (field : FieldIx) (mask : W64) (s : State) : Host.Outcome State Fault Refusal :=
  onSys (fieldEdit field (fun f => fieldCsrWrite false f 0x0700 mask)) s

/-- `MAP_WRITE` (R181): the entry written. -/
def execMapWrite (w : MapEntry) (s : State) : Host.Outcome State Fault Refusal :=
  onSys (writeMap w) s

/-- `SCHEDULED_SLOT` (R188): the cycle of the beat. -/
def execScheduledSlot (tile : TileIx) (tag : BitVec 12) (cycle : Nat) (s : State) : Host.Outcome State Fault Refusal :=
  onSys (fun x => onData (scheduledSlot (envOf x) tile tag.toNat cycle) x) s

/-- `SCHEDULED_FLIT_LAND` (R188): the n-th flit in flight, the cycle, and what else its local eject has ready. -/
def execScheduledFlitLand (n cycle : Nat) (others : List Contender) (s : State) : Host.Outcome State Fault Refusal :=
  onSys (fun x => onData (flitLand (envOf x) n cycle others) x) s

/-- `LATE_FLIT_ARRIVAL` (R190): the n-th flit in flight, the cycle, and what else its local eject has ready. -/
def execLateFlitArrival (n cycle : Nat) (others : List Contender) (s : State) : Host.Outcome State Fault Refusal :=
  onSys (fun x => onData (flitLate (envOf x) n cycle others) x) s

/-- `STACK_READ_RETURN` (R192): the n-th returning read, the cycle, and what the check bits of the unit find. -/
def execStackReadReturn (n cycle : Nat) (found : StackFound) (s : State) : Host.Outcome State Fault Refusal :=
  onSys (fun x => onData (stackReturn (envOf x) n cycle found) x) s

/-- `UNSCHEDULED_PACKET_ARRIVE` (R194): the n-th packet, the hops of its head, what else its last output has ready, and the
answer of another module. -/
def execUnscheduledPacketArrive (n : Nat) (hops : List Hop) (others : List Contender) (far : FarAnswer) (s : State) :
    Host.Outcome State Fault Refusal :=
  onSys (fun x => onData (packetArrive (envOf x) n hops others far) x) s

/-- `ESCAPE_MOVE` (R196): the n-th packet, the router its head waits at, and how many cycles it has waited. -/
def execEscapeMove (n : Nat) (router : TileIx) (waited : Nat) (s : State) : Host.Outcome State Fault Refusal :=
  onSys (fun x => onData (escapeMove (envOf x) n router waited) x) s

/-- `EXCHANGE_RECORD_LAND` (R217): the n-th record in flight, the cycle, and what else its last output has ready. -/
def execExchangeRecordLand (n cycle : Nat) (others : List Contender) (s : State) : Host.Outcome State Fault Refusal :=
  onSys (fun x => onData (recordLand (envOf x) n cycle others) x) s

/-- `STACK_REQUEST` (R208): a tile's transfer, or another requester's request. -/
def execStackRequest (a : ArbAsk) (s : State) : Host.Outcome State Fault Refusal :=
  onSys (askStack a) s

/-- `STACK_BURST_GRANT` (R208): the cycle of the tick, and what the check bits of a read find. -/
def execStackBurstGrant (field : FieldIx) (cycle : Nat) (found : StackFound) (s : State) : Host.Outcome State Fault
    Refusal :=
  onSys (fun x => onData (stackGrant (envOf x) field cycle found) x) s

/-- `ARB_STARVE` (R210). -/
def execArbStarve (field : FieldIx) (q : Fin 24) (s : State) : Host.Outcome State Fault Refusal :=
  onSys (fieldEdit field (arbStarve q)) s

/-- `ARB_REQUESTER_MASK` (R212). -/
def execArbRequesterMask (field : FieldIx) (q : Fin 24) (s : State) : Host.Outcome State Fault Refusal :=
  onSys (fieldEdit field (arbMask q)) s

/-- `ARB_REQUESTER_UNMASK` (R212). -/
def execArbRequesterUnmask (field : FieldIx) (q : Fin 24) (s : State) : Host.Outcome State Fault Refusal :=
  onSys (fieldEdit field (arbUnmask field q)) s

/-- `STACK_TRAIN_STATE_DONE` (R202): the physical channels that fail the test. -/
def execStackTrainStateDone (field : FieldIx) (failed : List Nat) (s : State) : Host.Outcome State Fault Refusal :=
  onSys (fieldEdit field (stackTrainDone failed)) s

/-- `STACK_REFRESH_WINDOW` (R203). -/
def execStackRefreshWindow (field : FieldIx) (s : State) : Host.Outcome State Fault Refusal :=
  onSys (fieldEdit field refreshWindow) s

end Sys2Proof.Machine
end

