-- ==== Sys2Proof/Machine/HostCommands.lean ====
section
/-!
DEFINITION. Sessions, run control, loads, host data, events and turns: the commands' meanings, each over the operation its
rule names.
-/

namespace Sys2Proof.Machine

/-- `OPEN` (R300). -/
def execHostOpen (m : Msg) (control force : Bool) (s : State) : Host.Outcome State Fault Refusal :=
  onSys (fun x => onCtrl (openSession (cenvOf x) m control force) x) s

/-- `CLOSE` (R299). -/
def execHostClose (m : Msg) (s : State) : Host.Outcome State Fault Refusal :=
  onSys (fun x => onCtrl (closeSession (cenvOf x) m) x) s

/-- `HEARTBEAT` (R316). -/
def execHostHeartbeat (m : Msg) (s : State) : Host.Outcome State Fault Refusal :=
  onSys (fun x => onCtrl (heartbeat (cenvOf x) m) x) s

/-- `LOAD_BEGIN` (R260): the image's length and the 160 B repair map. -/
def execLoadBegin (m : Msg) (len : Nat) (repair : List Byte) (s : State) : Host.Outcome State Fault Refusal :=
  onSys (hostCommand m (.loadBegin len repair)) s

/-- `LOAD_DATA` (R308). -/
def execLoadData (m : Msg) (off : Nat) (bs : List Byte) (s : State) : Host.Outcome State Fault Refusal :=
  onSys (loadData m off bs) s

/-- `LOAD_COMPLETE` (R308). -/
def execLoadComplete (s : State) : Host.Outcome State Fault Refusal :=
  onSys loadDone s

/-- `LOAD_TIMEOUT` (R308). -/
def execLoadTimeout (s : State) : Host.Outcome State Fault Refusal :=
  onSys loadTimeout s

/-- `PLACEMENT_CHECK` (R274). -/
def execPlacementCheck (s : State) : Host.Outcome State Fault Refusal :=
  onSys (fun x => onData (placementCheck (envOf x)) x) s

/-- `RESTORE` (R290). -/
def execHostRestore (m : Msg) (s : State) : Host.Outcome State Fault Refusal :=
  onSys (hostCommand m .restore) s

/-- `SYS_DESC` (R241): the message's payload. -/
def execSysDesc (m : Msg) (payload : List Byte) (s : State) : Host.Outcome State Fault Refusal :=
  onSys (hostCommand m (.sysDesc payload)) s

/-- `START` (R304). -/
def execHostStart (m : Msg) (s : State) : Host.Outcome State Fault Refusal :=
  onSys (hostCommand m .start) s

/-- `HOLD` (R304). -/
def execHostHold (m : Msg) (s : State) : Host.Outcome State Fault Refusal :=
  onSys (hostCommand m .hold) s

/-- `RESUME` (R304). -/
def execHostResume (m : Msg) (s : State) : Host.Outcome State Fault Refusal :=
  onSys (hostCommand m .resume) s

/-- `CHECKPOINT` (R304). -/
def execHostCheckpoint (m : Msg) (s : State) : Host.Outcome State Fault Refusal :=
  onSys (hostCommand m .checkpoint) s

/-- `TURN` (R273). -/
def execHostTurn (m : Msg) (g : Fin 256) (s : State) : Host.Outcome State Fault Refusal :=
  onSys (hostCommand m (.turn g)) s

/-- `STOP` (R304). -/
def execHostStop (m : Msg) (s : State) : Host.Outcome State Fault Refusal :=
  onSys (hostCommand m .stop) s

/-- `STOP_COMPLETE` (R199). -/
def execStopComplete (s : State) : Host.Outcome State Fault Refusal :=
  onSys stopComplete s

/-- `HOST_CAP` (R358). -/
def execHostCap (m : Msg) (cap : F32) (s : State) : Host.Outcome State Fault Refusal :=
  onSys (hostCommand m (.hostCap cap)) s

/-- `TCSR_READ` (R312): the global address, and a physical tile or 0xFFFF. -/
def execTcsrRead (m : Msg) (a : W64) (phys : BitVec 16) (s : State) : Host.Outcome State Fault Refusal :=
  onSys (fun x => whenData (tcsrRead (envOf x) m a phys.toNat) x) s

/-- `TCSR_WRITE` (R312): the global address, a physical tile or 0xFFFF, and the value. -/
def execTcsrWrite (m : Msg) (a : W64) (phys : BitVec 16) (v : W64) (s : State) : Host.Outcome State Fault Refusal :=
  onSys (fun x => whenData (tcsrWrite (envOf x) m a phys.toNat v) x) s

/-- `TSTREAM_PUT` (R311). -/
def execTstreamPut (m : Msg) (a : W64) (bs : List Byte) (s : State) : Host.Outcome State Fault Refusal :=
  onSys (fun x => whenData (tstreamPut (envOf x) m a bs) x) s

/-- `TSTREAM_GET` (R311): what the check bits of a stack read find. -/
def execTstreamGet (m : Msg) (a : W64) (n : Nat) (found : StackFound) (s : State) : Host.Outcome State Fault Refusal :=
  onSys (fun x => whenData (tstreamGet (envOf x) m a n found) x) s

/-- `QP_OPEN` (R309): the host's QPN and PSN, and the traffic class. -/
def execQpOpen (m : Msg) (qpn psn : W32) (cls : Nat) (s : State) : Host.Outcome State Fault Refusal :=
  onSys (whenData (qpOpen m qpn psn cls)) s

/-- `QP_CLOSE` (R309). -/
def execQpClose (m : Msg) (qpn : W32) (s : State) : Host.Outcome State Fault Refusal :=
  onSys (whenData (qpClose m qpn)) s

/-- `SCARF_RETRAIN` (R239): a side, and an engine of it or 0xFF for all. -/
def execScarfRetrain (m : Msg) (side : Fin 4) (index : BitVec 8) (s : State) : Host.Outcome State Fault Refusal :=
  onSys (fun x => whenData (scarfRetrain (x.mgmt.module == .running) m side index.toNat) x) s

/-- `DATA_EVENT_ACK` (R315). -/
def execDataEventAck (m : Msg) (next : W64) (subscribe : Bool) (s : State) : Host.Outcome State Fault Refusal :=
  onSys (fun x => whenData (dataEventAck (envOf x) m next subscribe) x) s

/-- `RUN_EVENT_ACK` (R315). -/
def execRunEventAck (m : Msg) (next : W64) (subscribe : Bool) (s : State) : Host.Outcome State Fault Refusal :=
  onSys (fun x => onCtrl (runEventAck (cenvOf x) m next subscribe) x) s

/-- `BAD_MESSAGE` (R297): the host engine, the source address, and the datagram. -/
def execBadMessage (engine : Fin 4) (addr : Nat) (datagram : List Byte) (s : State) : Host.Outcome State Fault Refusal
    :=
  onSys (onCtrl (badMessage engine addr datagram)) s

/-- `EVENT_RESEND` (R315): the ring, and the subscriber. -/
def execEventResend (plane : Plane) (addr : Nat) (s : State) : Host.Outcome State Fault Refusal :=
  onSys (resendEvents plane addr) s

/-- `SUBSCRIBER_LAPSE` (R315): the ring, and the subscriber. -/
def execSubscriberLapse (plane : Plane) (addr : Nat) (s : State) : Host.Outcome State Fault Refusal :=
  onSys (lapseSubscriber plane addr) s

/-- `SESSION_TIMEOUT` (R299). -/
def execSessionTimeout (session : W32) (s : State) : Host.Outcome State Fault Refusal :=
  onSys (fun x => onCtrl (sessionTimeout (cenvOf x) session) x) s

/-- `CONTROL_ROLE_LOST` (R300). -/
def execControlRoleLost (s : State) : Host.Outcome State Fault Refusal :=
  onSys (fun x => onCtrl (roleLost (cenvOf x)) x) s

/-- `RDMA_WRITE` (R309). -/
def execRdmaWrite (engine : Fin 4) (qpn key : W32) (a : W64) (bs : List Byte) (s : State) :
    Host.Outcome State Fault Refusal :=
  onSys (fun x => if x.data.on then rdmaWriteAll engine qpn key a bs x else x) s

/-- `RDMA_READ` (R309): what the check bits of a stack read find. -/
def execRdmaRead (engine : Fin 4) (qpn key : W32) (a : W64) (n : Nat) (found : StackFound) (s : State) : Host.Outcome
    State Fault Refusal :=
  onSys (fun x => whenData (rdmaRead (envOf x) engine qpn key a n found) x) s

/-- `ORDER_REQUEST` (R306). -/
def execOrderRequest (s : State) : Host.Outcome State Fault Refusal :=
  onSys orderRequest s

/-- `ORDER_VERDICT_TIMEOUT` (R306). -/
def execOrderVerdictTimeout (s : State) : Host.Outcome State Fault Refusal :=
  onSys verdictOverdue s

/-- `J2_JOURNAL_RECORD` (R23). -/
def execJ2JournalRecord (s : State) : Host.Outcome State Fault Refusal :=
  onSys takeRecord s

/-- `J2_STATE_WORD_UPDATE` (R24). -/
def execJ2StateWordUpdate (s : State) : Host.Outcome State Fault Refusal :=
  onSys updateWord s

/-- `J2_PROFILE` (R360). -/
def execJ2Profile (s : State) : Host.Outcome State Fault Refusal :=
  onSys takeProfile s

/-- `TURN_PHASE_DONE` (R279): what the sending modules hand over, per field. -/
def execTurnPhaseDone (arrived : List Arrived) (s : State) : Host.Outcome State Fault Refusal :=
  onSys (fun x => onData (turnPhaseDone (envOf x) arrived) x) s

/-- `TURN_COMPLETE` (R279). -/
def execTurnComplete (s : State) : Host.Outcome State Fault Refusal :=
  onSys (fun x => onData (turnComplete (envOf x)) x) s

/-- `TURN_FAILED` (R281). -/
def execTurnFailed (cause : TurnFault) (s : State) : Host.Outcome State Fault Refusal :=
  onSys (fun x => onData (turnFailed (envOf x) cause) x) s

/-- `CHECKPOINT_CAPTURED` (R288). -/
def execCheckpointCaptured (s : State) : Host.Outcome State Fault Refusal :=
  onSys (fun x => onData (checkpointCaptured (envOf x)) x) s

/-- `TURN_DUE` (R286). -/
def execTurnDue (s : State) : Host.Outcome State Fault Refusal :=
  onSys turnDue s

/-- `HOST_PORT_RETRAIN` (R293): a lane that fails its self-check. -/
def execHostPortRetrain (engine : Fin 4) (failed : Option (Fin 8)) (s : State) : Host.Outcome State Fault Refusal :=
  onSys (fun x => if (hostOf x.data engine).on then onData (portRetrain engine (failed.map Fin.val) (getE x
    Ent.hostPfcPriority)) x else x) s

/-- `HOST_PORT_OTHER_FRAME` (R292). -/
def execHostPortOtherFrame (engine : Fin 4) (frame : OtherFrame) (s : State) : Host.Outcome State Fault Refusal :=
  onSys (fun x => if (hostOf x.data engine).on then onData (otherFrame engine frame) x else x) s

end Sys2Proof.Machine
end

