-- ==== Sys2Proof/Machine/PowerCommands.lean ====
section
/-!
DEFINITION. Frames, the power path and power policy: the commands' meanings, each over the operation its rule names.
-/

namespace Sys2Proof.Machine

/-- `FRAME_BOUNDARY` (R364): what the frame's meters read. -/
def execFrameBoundary (f : FrameMeas) (s : State) : Host.Outcome State Fault Refusal :=
  onSys (frameBoundary f) s

/-- `FORECAST_RECOMPUTE` (R371). -/
def execForecastRecompute (s : State) : Host.Outcome State Fault Refusal :=
  onSys recomputeForecast s

/-- `ENERGY_WRITE` (R352). -/
def execEnergyWrite (s : State) : Host.Outcome State Fault Refusal :=
  onSys energyWrite s

/-- `INLET_CLOSE` (R335): volts behind the contactor, at the inlet, and reached by precharge. -/
def execInletClose (behind inlet reached : Nat) (s : State) : Host.Outcome State Fault Refusal :=
  onSys (inletClose behind inlet reached) s

/-- `PRECHARGE_TIMEOUT` (R335). -/
def execPrechargeTimeout (s : State) : Host.Outcome State Fault Refusal :=
  onSys prechargeTimeout s

/-- `INLET_OPEN` (R336). -/
def execInletOpen (s : State) : Host.Outcome State Fault Refusal :=
  onSys inletOpen s

/-- `INPUT_OUT_OF_RANGE` (R337). -/
def execInputOutOfRange (s : State) : Host.Outcome State Fault Refusal :=
  onSys inputOutOfRange s

/-- `INPUT_LOSS` (R338). -/
def execInputLoss (meas : InletMeas) (s : State) : Host.Outcome State Fault Refusal :=
  onSys (inputLoss meas) s

/-- `INLET_RECOVERED` (R338). -/
def execInletRecovered (s : State) : Host.Outcome State Fault Refusal :=
  onSys inletRecovered s

/-- `CONVERTER_FAULT` (R341). -/
def execConverterFault (block : Fin 4) (s : State) : Host.Outcome State Fault Refusal :=
  onSys (converterFault block) s

/-- `CONVERTER_RESTART` (R341). -/
def execConverterRestart (block : Fin 4) (s : State) : Host.Outcome State Fault Refusal :=
  onSys (converterRestart block) s

/-- `BUS_UNDERVOLTAGE` (R342): the bus in mV, and for how long in µs. -/
def execBusUndervoltage (mv us : Nat) (s : State) : Host.Outcome State Fault Refusal :=
  onSys (busUndervoltage mv us) s

/-- `BUS_UNDERVOLTAGE_CLEAR` (R342). -/
def execBusUndervoltageClear (s : State) : Host.Outcome State Fault Refusal :=
  onSys busUndervoltageClear s

/-- `PHASE_DISABLE` (R344). -/
def execPhaseDisable (field : FieldIx) (phase : Fin 18) (s : State) : Host.Outcome State Fault Refusal :=
  onSys (phaseDisable field phase) s

/-- `DOMAIN_ENABLE` (R347). -/
def execDomainEnable (d : Fin 1404) (s : State) : Host.Outcome State Fault Refusal :=
  onSys (domainEnable d) s

/-- `DOMAIN_FAULT` (R349). -/
def execDomainFault (d : Fin 1404) (s : State) : Host.Outcome State Fault Refusal :=
  onSys (domainFault d) s

/-- `DOMAIN_FORCE` (R350): the node addressed, the requester, its tag, and the value. -/
def execDomainForce (target : Fin 32) (who : Requester) (tag : BitVec 16) (v : W32) (s : State) :
    Host.Outcome State Fault Refusal :=
  onSys (wholeWrite target who tag.toNat Ent.domainForce (natLe 4 v.toNat)) s

/-- `POWER_ORDER_WRITE` (R353): the node addressed, the requester, its tag, and the value. -/
def execPowerOrderWrite (target : Fin 32) (who : Requester) (tag : BitVec 16) (v : Byte) (s : State) :
    Host.Outcome State Fault Refusal :=
  onSys (wholeWrite target who tag.toNat Ent.powerOrder (natLe 1 v.toNat)) s

/-- `POWER_ORDER_ACT` (R354). -/
def execPowerOrderAct (s : State) : Host.Outcome State Fault Refusal :=
  onSys powerOrderAct s

/-- `ENVELOPE_WRITE` (R357): the node addressed, the requester, its tag, and the value. -/
def execEnvelopeWrite (target : Fin 32) (who : Requester) (tag : BitVec 16) (v : List Byte) (s : State) :
    Host.Outcome State Fault Refusal :=
  onSys (wholeWrite target who tag.toNat Ent.envelope (v)) s

end Sys2Proof.Machine
end

