-- ==== Sys2Proof/Machine/SafetyCommands.lean ====
section
/-!
DEFINITION. Sill’s functions, exits and service UART, and the loss of both inputs: the commands' meanings, each over the
operation its rule names.
-/

namespace Sys2Proof.Machine

/-- `SF_1_LEAK_CUT` (R399): channel B or A. -/
def execSf1LeakCut (b : Bool) (s : State) : Host.Outcome State Fault Refusal :=
  onSys (sf1 b) s

/-- `SF_2_FLOW_NOT_RESTORED` (R392). -/
def execSf2FlowNotRestored (s : State) : Host.Outcome State Fault Refusal :=
  onSys sf2 s

/-- `SF_3_OVER_TEMPERATURE` (R395): a stack sensor or a tile sensor. -/
def execSf3OverTemperature (stack : Bool) (s : State) : Host.Outcome State Fault Refusal :=
  onSys (sf3 stack) s

/-- `SF_4_BUS_PROTECTION` (R537): mV or A, and for how long in µs. -/
def execSf4BusProtection (voltage : Bool) (measured us : Nat) (s : State) : Host.Outcome State Fault Refusal :=
  onSys (sf4 voltage measured us) s

/-- `BUS_CURRENT_RECHECK` (R538). -/
def execBusCurrentRecheck (amps : Nat) (s : State) : Host.Outcome State Fault Refusal :=
  onSys (busRecheck amps) s

/-- `SF_5_INLET_PROTECTION` (R537): A or V, and for how long in µs. -/
def execSf5InletProtection (current : Bool) (measured us : Nat) (s : State) : Host.Outcome State Fault Refusal :=
  onSys (sf5 current measured us) s

/-- `SF_6_SKOUR_SUPERVISION` (R546). -/
def execSf6SkourSupervision (s : State) : Host.Outcome State Fault Refusal :=
  onSys sf6 s

/-- `SKOUR_SILENT_INLET_OPEN` (R546). -/
def execSkourSilentInletOpen (s : State) : Host.Outcome State Fault Refusal :=
  onSys skourSilent s

/-- `SF_7_TRAY_POWER_OFF` (R548): PRESENT or INTERLOCK, and for how long it is open in µs. -/
def execSf7TrayPowerOff (present : Bool) (us : Nat) (s : State) : Host.Outcome State Fault Refusal :=
  onSys (sf7 present us) s

/-- `TRAY_CLOSED` (R548). -/
def execTrayClosed (s : State) : Host.Outcome State Fault Refusal :=
  onSys trayClosed s

/-- `SF_8_SAFETY_SENSING_LOST` (R537). -/
def execSf8SafetySensingLost (lost : SensingLost) (s : State) : Host.Outcome State Fault Refusal :=
  onSys (sf8 lost) s

/-- `SAFE_STOP_INLET_OPEN` (R541). -/
def execSafeStopInletOpen (s : State) : Host.Outcome State Fault Refusal :=
  onSys safeStopInlet s

/-- `WATCHDOG_EXPIRY` (R545). -/
def execWatchdogExpiry (s : State) : Host.Outcome State Fault Refusal :=
  onSys watchdogExpiry s

/-- `SUPERVISOR_TIMEOUT` (R535). -/
def execSupervisorTimeout (s : State) : Host.Outcome State Fault Refusal :=
  onSys supervisor s

/-- `SAFE_STOP_EXIT` (R552): the node addressed, the requester, its tag, the challenge and the complement. -/
def execSafeStopExit (target : Fin 32) (who : Requester) (tag : BitVec 16) (challenge : W32) (complement : W64) (s : State) :
    Host.Outcome State Fault Refusal :=
  onSys (confirmWrite target who tag.toNat Ent.safeStopExit challenge complement) s

/-- `LEAK_CUT_EXIT` (R555): the node addressed, the requester, its tag, the challenge and the complement. -/
def execLeakCutExit (target : Fin 32) (who : Requester) (tag : BitVec 16) (challenge : W32) (complement : W64) (s : State) :
    Host.Outcome State Fault Refusal :=
  onSys (confirmWrite target who tag.toNat Ent.leakCutExit challenge complement) s

/-- `UART_S` (R559). -/
def execUartS (s : State) : Host.Outcome State Fault Refusal :=
  onSys (answerUart uartS) s

/-- `UART_J` (R559). -/
def execUartJ (s : State) : Host.Outcome State Fault Refusal :=
  onSys (answerUart (fun y => uartJ y.sill)) s

/-- `UART_V` (R559). -/
def execUartV (s : State) : Host.Outcome State Fault Refusal :=
  onSys (answerUart uartV) s

/-- `AUX_POWER_LOSS` (R33). -/
def execAuxPowerLoss (s : State) : Host.Outcome State Fault Refusal :=
  onSys auxPowerLoss s

end Sys2Proof.Machine
end

