-- ==== Sys2Proof/Machine/ScalarCommands.lean ====
section
/-!
DEFINITION. The C slot (R106–R115) and BEAT’s retirement: the commands' meanings, each over the operation its rule names.
-/

namespace Sys2Proof.Machine

/-- `NOP` (R95): the slot that holds opcode 0x00. -/
def execNop (i : Issue) (slot : SlotId) (s : State) : Host.Outcome State Fault Refusal :=
  onSys (issueNop i slot) s

/-- `ALU` (R106). -/
def execAlu (i : Issue) (p : Pred) (sd sa sb : BitVec 5) (f : AluFn) (s : State) : Host.Outcome State Fault Refusal :=
  onSys (issueC i p (.alu sd sa sb f)) s

/-- `ADDI` (R106). -/
def execAddi (i : Issue) (p : Pred) (sd sa : BitVec 5) (imm : BitVec 12) (s : State) : Host.Outcome State Fault Refusal :=
  onSys (issueC i p (.addi sd sa imm)) s

/-- `ANDI` (R106). -/
def execAndi (i : Issue) (p : Pred) (sd sa : BitVec 5) (imm : BitVec 12) (s : State) : Host.Outcome State Fault Refusal :=
  onSys (issueC i p (.andi sd sa imm)) s

/-- `ORI` (R106). -/
def execOri (i : Issue) (p : Pred) (sd sa : BitVec 5) (imm : BitVec 12) (s : State) : Host.Outcome State Fault Refusal :=
  onSys (issueC i p (.ori sd sa imm)) s

/-- `XORI` (R106). -/
def execXori (i : Issue) (p : Pred) (sd sa : BitVec 5) (imm : BitVec 12) (s : State) : Host.Outcome State Fault Refusal :=
  onSys (issueC i p (.xori sd sa imm)) s

/-- `SHLI` (R106). -/
def execShli (i : Issue) (p : Pred) (sd sa : BitVec 5) (imm : BitVec 5) (s : State) : Host.Outcome State Fault Refusal :=
  onSys (issueC i p (.shli sd sa imm)) s

/-- `SHRI` (R106). -/
def execShri (i : Issue) (p : Pred) (sd sa : BitVec 5) (imm : BitVec 5) (s : State) : Host.Outcome State Fault Refusal :=
  onSys (issueC i p (.shri sd sa imm)) s

/-- `SRAI` (R106). -/
def execSrai (i : Issue) (p : Pred) (sd sa : BitVec 5) (imm : BitVec 5) (s : State) : Host.Outcome State Fault Refusal :=
  onSys (issueC i p (.srai sd sa imm)) s

/-- `MULI` (R106). -/
def execMuli (i : Issue) (p : Pred) (sd sa : BitVec 5) (imm : BitVec 12) (s : State) : Host.Outcome State Fault Refusal :=
  onSys (issueC i p (.muli sd sa imm)) s

/-- `MOVL` (R106). -/
def execMovl (i : Issue) (p : Pred) (sd : BitVec 5) (imm : BitVec 16) (s : State) : Host.Outcome State Fault Refusal :=
  onSys (issueC i p (.movl sd imm)) s

/-- `MOVH` (R106). -/
def execMovh (i : Issue) (p : Pred) (sd : BitVec 5) (imm : BitVec 16) (s : State) : Host.Outcome State Fault Refusal :=
  onSys (issueC i p (.movh sd imm)) s

/-- `CMP` (R106). -/
def execCmp (i : Issue) (p : Pred) (pd : BitVec 3) (sa sb : BitVec 5) (c : Cond) (s : State) :
    Host.Outcome State Fault Refusal :=
  onSys (issueC i p (.cmp pd sa sb c)) s

/-- `CMPI` (R106). -/
def execCmpi (i : Issue) (p : Pred) (pd : BitVec 3) (sa : BitVec 5) (c : Cond) (imm : BitVec 11) (s : State) :
    Host.Outcome State Fault Refusal :=
  onSys (issueC i p (.cmpi pd sa c imm)) s

/-- `PLOG` (R106). -/
def execPlog (i : Issue) (p : Pred) (pd pa pb : BitVec 3) (f : PFn) (s : State) : Host.Outcome State Fault Refusal :=
  onSys (issueC i p (.plog pd pa pb f)) s

/-- `BR` (R107). -/
def execBr (i : Issue) (p : Pred) (target : BitVec 14) (s : State) : Host.Outcome State Fault Refusal :=
  onSys (issueC i p (.br target)) s

/-- `JAL` (R107). -/
def execJal (i : Issue) (p : Pred) (sd : BitVec 5) (target : BitVec 14) (s : State) : Host.Outcome State Fault Refusal :=
  onSys (issueC i p (.jal sd target)) s

/-- `JR` (R107). -/
def execJr (i : Issue) (p : Pred) (sa : BitVec 5) (s : State) : Host.Outcome State Fault Refusal :=
  onSys (issueC i p (.jr sa)) s

/-- `LOOP` (R108). -/
def execLoop (i : Issue) (p : Pred) (sc : BitVec 5) (stop : BitVec 14) (s : State) : Host.Outcome State Fault Refusal :=
  onSys (issueC i p (.loop sc stop)) s

/-- `LOOPI` (R108). -/
def execLoopi (i : Issue) (p : Pred) (count : BitVec 8) (stop : BitVec 14) (s : State) : Host.Outcome State Fault Refusal :=
  onSys (issueC i p (.loopi count stop)) s

/-- `LPOP` (R110). -/
def execLpop (i : Issue) (p : Pred) (s : State) : Host.Outcome State Fault Refusal :=
  onSys (issueC i p (.lpop)) s

/-- `CSRR` (R111). -/
def execCsrr (i : Issue) (p : Pred) (pair : BitVec 4) (idx : BitVec 13) (s : State) : Host.Outcome State Fault Refusal :=
  onSys (issueC i p (.csrr pair idx)) s

/-- `CSRW` (R111). -/
def execCsrw (i : Issue) (p : Pred) (pair : BitVec 4) (idx : BitVec 13) (s : State) : Host.Outcome State Fault Refusal :=
  onSys (issueC i p (.csrw pair idx)) s

/-- `SIG` (R112). -/
def execSig (i : Issue) (p : Pred) (s : State) : Host.Outcome State Fault Refusal :=
  onSys (issueC i p (.sig)) s

/-- `BEAT` (R55). -/
def execBeat (i : Issue) (p : Pred) (s : State) : Host.Outcome State Fault Refusal :=
  onSys (issueC i p (.beat)) s

/-- `BEAT_RETIRE` (R55): the cycle of the beat in which it retires. -/
def execBeatRetire (tile : TileIx) (cycle : Nat) (s : State) : Host.Outcome State Fault Refusal :=
  onSys (retireBeat tile cycle) s

end Sys2Proof.Machine
end

