-- ==== Sys2Proof/Machine/ScarfCommands.lean ====
section
/-!
DEFINITION. The scarf engines: the commands' meanings, each over the operation its rule names.
-/

namespace Sys2Proof.Machine

/-- `SCARF_CELL_RECEIVE` (R230): the cell as its sender sent it, its arrival in 1/16 LCLK cycles from the module’s own
boundary, and the errors of the line. -/
def execScarfCellReceive (engine : EngineIx) (cell : Cell) (arrival : Int) (errs : List LineError) (s : State) :
    Host.Outcome State Fault Refusal :=
  onSys (fun x => onData (cellReceive (envOf x) engine cell arrival errs) x) s

/-- `SCARF_CELL_SEND` (R228): the phase the cell reports. -/
def execScarfCellSend (engine : EngineIx) (phase : W32) (s : State) : Host.Outcome State Fault Refusal :=
  onSys (fun x => onData (cellSend (envOf x) engine phase) x) s

/-- `ENGINE_DOWN` (R232): whether it is an entry of scheduled flits. -/
def execEngineDown (engine : EngineIx) (entry : Bool) (s : State) : Host.Outcome State Fault Refusal :=
  onSys (fun x => onData (engineDown (envOf x) engine entry) x) s

/-- `LANE_SWAP_REQUEST` (R237). -/
def execLaneSwapRequest (engine : EngineIx) (lane : Fin 9) (s : State) : Host.Outcome State Fault Refusal :=
  onSys (onData (swapRequest engine lane)) s

/-- `LANE_SWAP_COMPLETE` (R237). -/
def execLaneSwapComplete (engine : EngineIx) (s : State) : Host.Outcome State Fault Refusal :=
  onSys (fun x => onData (swapComplete (envOf x) engine) x) s

/-- `SCARF_TRAIN_STATE_DONE` (R233). -/
def execScarfTrainStateDone (engine : EngineIx) (found : TrainFound) (s : State) : Host.Outcome State Fault Refusal :=
  onSys (fun x => onData (scarfTrainDone (envOf x) engine found) x) s

/-- `SCARF_FLIT_RELEASE` (R245): the n-th held flit, and the cycle counted from the start of its arrival beat. -/
def execScarfFlitRelease (engine : EngineIx) (n cycle : Nat) (s : State) : Host.Outcome State Fault Refusal :=
  onSys (fun x => onData (flitRelease (envOf x) engine n cycle) x) s

end Sys2Proof.Machine
end

