-- ==== Sys2Proof/Machine/SkourCommands.lean ====
section
/-!
DEFINITION. Pairs, oscillators, starts, restarts and the retained store: the commands' meanings, each over the operation its
rule names.
-/

namespace Sys2Proof.Machine

/-- `LOCKSTEP_MISMATCH` (R436). -/
def execLockstepMismatch (pair : Fin 2) (s : State) : Host.Outcome State Fault Refusal :=
  onSys (lockstepMismatch pair) s

/-- `PAIR_SELFTEST_DONE` (R437). -/
def execPairSelftestDone (pair : Fin 2) (pass : Bool) (s : State) : Host.Outcome State Fault Refusal :=
  onSys (pairSelftest pair pass) s

/-- `PAIR_RESTORE` (R437): the node addressed, the requester, its tag, the challenge and the complement. -/
def execPairRestore (target : Fin 32) (who : Requester) (tag : BitVec 16) (challenge : W32) (complement : W64) (s : State) :
    Host.Outcome State Fault Refusal :=
  onSys (confirmWrite target who tag.toNat Ent.pairRestore challenge complement) s

/-- `OSC_FAULT` (R441): OSC-B or OSC-A; lost or deviating. -/
def execOscFault (b lost : Bool) (s : State) : Host.Outcome State Fault Refusal :=
  onSys (oscFault b lost) s

/-- `OSC_REVERT` (R442): REF cycles for which OSC-A has been good. -/
def execOscRevert (cycles : Nat) (s : State) : Host.Outcome State Fault Refusal :=
  onSys (oscRevert cycles) s

/-- `OSC_REVERT_CLEAR` (R442): the node addressed, the requester, its tag, the challenge and the complement. -/
def execOscRevertClear (target : Fin 32) (who : Requester) (tag : BitVec 16) (challenge : W32) (complement : W64) (s : State) :
    Host.Outcome State Fault Refusal :=
  onSys (confirmWrite target who tag.toNat Ent.oscRevertClear challenge complement) s

/-- `POWER_APPLIED` (R447). -/
def execPowerApplied (found : PowerFound) (s : State) : Host.Outcome State Fault Refusal :=
  onSys (powerApplied found) s

/-- `COLD_START` (R447): what the steps so far found. -/
def execColdStart (found : List StepFound) (s : State) : Host.Outcome State Fault Refusal :=
  onSys (runStart true found) s

/-- `WARM_START` (R451): what the steps so far found. -/
def execWarmStart (found : List StepFound) (s : State) : Host.Outcome State Fault Refusal :=
  onSys (runStart false found) s

/-- `START_STEP_DONE` (R447). -/
def execStartStepDone (found : StepFound) (s : State) : Host.Outcome State Fault Refusal :=
  onSys (stepDone found) s

/-- `START_STEP_FAIL` (R449): its time ran out, or its check failed. -/
def execStartStepFail (timeout : Bool) (s : State) : Host.Outcome State Fault Refusal :=
  onSys (stepFail timeout) s

/-- `SERVICE_ORDER` (R445): the node addressed, the requester, its tag, the challenge and the complement. -/
def execServiceOrder (target : Fin 32) (who : Requester) (tag : BitVec 16) (challenge : W32) (complement : W64) (s : State) :
    Host.Outcome State Fault Refusal :=
  onSys (confirmWrite target who tag.toNat Ent.serviceOrder challenge complement) s

/-- `MGMT_RESTART` (R453): the node addressed, the requester, its tag, and the value. -/
def execMgmtRestart (target : Fin 32) (who : Requester) (tag : BitVec 16) (v : Byte) (s : State) :
    Host.Outcome State Fault Refusal :=
  onSys (wholeWrite target who tag.toNat Ent.mgmtRestart (natLe 1 v.toNat)) s

/-- `MGMT_WARM_START` (R455): the pairs' self-tests, and what the store's load found. -/
def execMgmtWarmStart (passA passB : Bool) (store : StoreFound) (s : State) : Host.Outcome State Fault Refusal :=
  onSys (mgmtWarmStart passA passB store) s

/-- `RETAINED_WRITE` (R458): the records or the settings image. -/
def execRetainedWrite (records : Bool) (s : State) : Host.Outcome State Fault Refusal :=
  onSys (retainedWrite records) s

/-- `RESTORE_FACTORY` (R460): the node addressed, the requester, its tag, the challenge and the complement. -/
def execRestoreFactory (target : Fin 32) (who : Requester) (tag : BitVec 16) (challenge : W32) (complement : W64) (s : State) :
    Host.Outcome State Fault Refusal :=
  onSys (confirmWrite target who tag.toNat Ent.restoreFactory challenge complement) s

/-- `RETIRE_TILE` (R268): the node addressed, the requester, its tag, and the value. -/
def execRetireTile (target : Fin 32) (who : Requester) (tag : BitVec 16) (v : BitVec 16) (s : State) :
    Host.Outcome State Fault Refusal :=
  onSys (wholeWrite target who tag.toNat Ent.retireTile (natLe 2 v.toNat)) s

/-- `RESTORE_TILE` (R268): the node addressed, the requester, its tag, the challenge and the complement. -/
def execRestoreTile (target : Fin 32) (who : Requester) (tag : BitVec 16) (challenge : W32) (complement : W64) (s : State) :
    Host.Outcome State Fault Refusal :=
  onSys (confirmWrite target who tag.toNat Ent.restoreTile challenge complement) s

/-- `RACK_ALIVE_TIMEOUT` (R461). -/
def execRackAliveTimeout (s : State) : Host.Outcome State Fault Refusal :=
  onSys rackAliveTimeout s

/-- `RACK_HOLD` (R530): the node addressed, the requester, its tag, and the value. -/
def execRackHold (target : Fin 32) (who : Requester) (tag : BitVec 16) (v : Byte) (s : State) :
    Host.Outcome State Fault Refusal :=
  onSys (wholeWrite target who tag.toNat Ent.rackHold (natLe 1 v.toNat)) s

/-- `PAIR_RESYNC_DONE` (R435). -/
def execPairResyncDone (pair : Fin 2) (s : State) : Host.Outcome State Fault Refusal :=
  onSys (pairResynced pair) s

/-- `OSC_GOOD` (R443): OSC-B or OSC-A. -/
def execOscGood (b : Bool) (s : State) : Host.Outcome State Fault Refusal :=
  onSys (oscGood b) s

end Sys2Proof.Machine
end

