-- ==== Sys2Proof/Machine/StoreCommands.lean ====
section
/-!
DEFINITION. The M slot and its completions (R116–R124): the commands' meanings, each over the operation its rule names.
-/

namespace Sys2Proof.Machine

/-- `LDS` (R116). -/
def execLds (i : Issue) (p : Pred) (sd : BitVec 5) (aB : BitVec 4) (imm : BitVec 13) (s : State) :
    Host.Outcome State Fault Refusal :=
  onSys (issueM i p (.lds sd aB imm)) s

/-- `STS` (R116). -/
def execSts (i : Issue) (p : Pred) (ss : BitVec 5) (aB : BitVec 4) (imm : BitVec 13) (s : State) :
    Host.Outcome State Fault Refusal :=
  onSys (issueM i p (.sts ss aB imm)) s

/-- `LDV` (R118). -/
def execLdv (i : Issue) (p : Pred) (vd : BitVec 6) (aB : BitVec 4) (sz : Sz) (imm : BitVec 9) (s : State) :
    Host.Outcome State Fault Refusal :=
  onSys (issueM i p (.ldv vd aB sz imm)) s

/-- `STV` (R118). -/
def execStv (i : Issue) (p : Pred) (vs : BitVec 6) (aB : BitVec 4) (sz : Sz) (imm : BitVec 9) (s : State) :
    Host.Outcome State Fault Refusal :=
  onSys (issueM i p (.stv vs aB sz imm)) s

/-- `AADDI` (R116). -/
def execAaddi (i : Issue) (p : Pred) (ad aS : BitVec 4) (imm : BitVec 14) (s : State) : Host.Outcome State Fault Refusal :=
  onSys (issueM i p (.aaddi ad aS imm)) s

/-- `AADD` (R116). -/
def execAadd (i : Issue) (p : Pred) (ad aS : BitVec 4) (ss : BitVec 5) (sh : BitVec 3) (s : State) :
    Host.Outcome State Fault Refusal :=
  onSys (issueM i p (.aadd ad aS ss sh)) s

/-- `AMOV` (R116). -/
def execAmov (i : Issue) (p : Pred) (ad : BitVec 4) (sl sh : BitVec 5) (s : State) : Host.Outcome State Fault Refusal :=
  onSys (issueM i p (.amov ad sl sh)) s

/-- `AGET` (R116). -/
def execAget (i : Issue) (p : Pred) (sd : BitVec 5) (aS : BitVec 4) (hi : Bool) (s : State) :
    Host.Outcome State Fault Refusal :=
  onSys (issueM i p (.aget sd aS hi)) s

/-- `WFILL` (R132). -/
def execWfill (i : Issue) (p : Pred) (t : Bool) (kind : FillKind) (aS : BitVec 4) (sU : BitVec 5) (s : State) :
    Host.Outcome State Fault Refusal :=
  onSys (issueM i p (.wfill t kind aS sU)) s

/-- `WFILL_DONE` (R45): the truss whose fill ends. -/
def execWfillDone (tile : TileIx) (t : Bool) (s : State) : Host.Outcome State Fault Refusal :=
  onSys (tileStep tile (fun _ u => (fillDone t u, Eff.none))) s

/-- `SARM` (R119). -/
def execSarm (i : Issue) (p : Pred) (aL : BitVec 4) (tag : BitVec 12) (ur : Bool) (aR : BitVec 4) (s : State) :
    Host.Outcome State Fault Refusal :=
  onSys (issueM i p (.sarm aL tag ur aR)) s

/-- `UREQ` (R122). -/
def execUreq (i : Issue) (p : Pred) (aD : BitVec 4) (s : State) : Host.Outcome State Fault Refusal :=
  onSys (issueM i p (.ureq aD)) s

/-- `UREQ_COMPLETION` (R123): the transfer that is done. -/
def execUreqCompletion (tile : TileIx) (id : Fin 16) (s : State) : Host.Outcome State Fault Refusal :=
  onSys (fun x => onData (ureqComplete (envOf x) tile id) x) s

/-- `XSND` (R215). -/
def execXsnd (i : Issue) (p : Pred) (aS : BitVec 4) (sD : BitVec 5) (cls : BitVec 4) (len : BitVec 2) (s : State) :
    Host.Outcome State Fault Refusal :=
  onSys (issueM i p (.xsnd aS sD cls len)) s

/-- `VEXT` (R116). -/
def execVext (i : Issue) (p : Pred) (sd : BitVec 5) (vs : BitVec 6) (lane : BitVec 9) (s : State) :
    Host.Outcome State Fault Refusal :=
  onSys (issueM i p (.vext sd vs lane)) s

end Sys2Proof.Machine
end

