-- ==== Sys2Proof/Machine/TileCommands.lean ====
section
/-!
DEFINITION. A tile’s stores, resets, CSRs and instruments: the commands' meanings, each over the operation its rule names.
-/

namespace Sys2Proof.Machine

/-- `SCRUB_READ` (R44): the 64 B line read, and what it finds. -/
def execScrubRead (tile : TileIx) (line : BitVec 18) (found : ScrubFound) (s : State) : Host.Outcome State Fault Refusal :=
  onSys (tileStep tile (scrubRead line.toNat found)) s

/-- `INSTRUCTION_MEMORY_WRITE` (R38). -/
def execInstructionMemoryWrite (tile : TileIx) (at_ : BitVec 14) (w : Bundle) (s : State) :
    Host.Outcome State Fault Refusal :=
  onSys (imemStore tile at_.toNat w) s

/-- `TILE_RESET_END` (R585). -/
def execTileResetEnd (tile : TileIx) (s : State) : Host.Outcome State Fault Refusal :=
  onSys (finishReset tile) s

/-- `INT_STATUS_CLEAR` (R62): `hw`: bits the hardware sets in the same cycle. -/
def execIntStatusClear (tile : TileIx) (mask hw : W64) (s : State) : Host.Outcome State Fault Refusal :=
  onSys (tileEdit tile (fun _ u => clearInt u mask hw)) s

/-- `INT_FORCE_SET` (R63). -/
def execIntForceSet (tile : TileIx) (mask : W64) (s : State) : Host.Outcome State Fault Refusal :=
  onSys (tileEdit tile (fun _ u => forceInt u mask)) s

/-- `EVCNT_WRITE` (R323). -/
def execEvcntWrite (tile : TileIx) (n : Fin 8) (v : W64) (s : State) : Host.Outcome State Fault Refusal :=
  onSys (tileEdit tile (fun _ u => writeEvcnt u n v)) s

/-- `SAMP_RELEASE` (R328). -/
def execSampRelease (tile : TileIx) (n : Fin 128) (s : State) : Host.Outcome State Fault Refusal :=
  onSys (tileEdit tile (fun _ u => releaseSamples u n)) s

/-- `SAMP_CTRL_WRITE` (R325). -/
def execSampCtrlWrite (tile : TileIx) (v : W64) (s : State) : Host.Outcome State Fault Refusal :=
  onSys (tileEdit tile (fun _ u => writeSampCtrl u v)) s

/-- `BW_CTRL_WRITE` (R331). -/
def execBwCtrlWrite (tile : TileIx) (v : W64) (s : State) : Host.Outcome State Fault Refusal :=
  onSys (tileEdit tile (fun _ u => writeBwCtrl u v)) s

/-- `CSR_WRITE` (R67): a tile or field CSR, its byte offset and the value. -/
def execCsrWrite (place : CsrAt) (off : BitVec 16) (v : W64) (s : State) : Host.Outcome State Fault Refusal :=
  onSys (plainCsrWrite place off.toNat v) s

/-- `SAMPLE_RECORD_WRITE` (R327): the measured latency in cycles. -/
def execSampleRecordWrite (tile : TileIx) (measured : Nat) (s : State) : Host.Outcome State Fault Refusal :=
  onSys (tileEdit tile (fun _ u => sampleWrite measured u)) s

/-- `BW_WINDOW_CLOSE` (R331). -/
def execBwWindowClose (tile : TileIx) (s : State) : Host.Outcome State Fault Refusal :=
  onSys (tileEdit tile (fun _ u => bwClose u)) s

/-- `EVCNT_WRAP` (R322): the counter, and its increment. -/
def execEvcntWrap (tile : TileIx) (n : Fin 8) (k : Nat) (s : State) : Host.Outcome State Fault Refusal :=
  onSys (tileEdit tile (fun _ u => wrapEvcnt n k u)) s

end Sys2Proof.Machine
end

