-- ==== Sys2Proof/Machine/TrussCommands.lean ====
section
/-!
DEFINITION. The T slot, row completions and drains (R126–R133): the commands' meanings, each over the operation its rule names.
-/

namespace Sys2Proof.Machine

/-- `TCFG` (R127). -/
def execTcfg (i : Issue) (p : Pred) (t : Bool) (sa sb : BitVec 5) (s : State) : Host.Outcome State Fault Refusal :=
  onSys (issueT i p (.tcfg t sa sb)) s

/-- `TROW` (R128). -/
def execTrow (i : Issue) (p : Pred) (t : Bool) (aA aS : BitVec 4) (sS : BitVec 5) (cnt : BitVec 8) (s : State) :
    Host.Outcome State Fault Refusal :=
  onSys (issueT i p (.trow t aA aS sS cnt)) s

/-- `TRUSS_ROW_COMPLETE` (R47): the truss, and the cycle of the beat. -/
def execTrussRowComplete (tile : TileIx) (t : Bool) (cycle : Nat) (s : State) : Host.Outcome State Fault Refusal :=
  onSys (completeRow tile t cycle) s

/-- `TSWP` (R45). -/
def execTswp (i : Issue) (p : Pred) (t : Bool) (s : State) : Host.Outcome State Fault Refusal :=
  onSys (issueT i p (.tswp t)) s

/-- `TDRN` (R133). -/
def execTdrn (i : Issue) (p : Pred) (t : Bool) (vd : BitVec 6) (q : BitVec 2) (cnt : BitVec 5) (s : State) :
    Host.Outcome State Fault Refusal :=
  onSys (issueT i p (.tdrn t vd q cnt)) s

/-- `TRUSS_DRAIN` (R133). -/
def execTrussDrain (tile : TileIx) (t : Bool) (cycle : Nat) (s : State) : Host.Outcome State Fault Refusal :=
  onSys (tileStep tile (fun cx u => (drainOne cx cycle t u, Eff.none))) s

end Sys2Proof.Machine
end

