-- ==== Sys2Proof/Machine/VectorCommands.lean ====
section
/-!
DEFINITION. The V slot (R134–R140): the commands' meanings, each over the operation its rule names.
-/

namespace Sys2Proof.Machine

/-- `VFP` (R134). -/
def execVfp (i : Issue) (p : Pred) (vd va vb : BitVec 6) (f : VfpFn) (s : State) : Host.Outcome State Fault Refusal :=
  onSys (issueV i p (.vfp vd va vb f)) s

/-- `VFN` (R134). -/
def execVfn (i : Issue) (p : Pred) (vd va : BitVec 6) (f : VfnFn) (s : State) : Host.Outcome State Fault Refusal :=
  onSys (issueV i p (.vfn vd va f)) s

/-- `VCMP` (R135). -/
def execVcmp (i : Issue) (p : Pred) (vd va vb : BitVec 6) (c : VCond) (s : State) : Host.Outcome State Fault Refusal :=
  onSys (issueV i p (.vcmp vd va vb c)) s

/-- `VCMPP` (R135). -/
def execVcmpp (i : Issue) (p : Pred) (pd : BitVec 3) (va vb : BitVec 6) (c : VCond) (all : Bool) (s : State) :
    Host.Outcome State Fault Refusal :=
  onSys (issueV i p (.vcmpp pd va vb c all)) s

/-- `VSEL` (R134). -/
def execVsel (i : Issue) (p : Pred) (vd va vb : BitVec 6) (s : State) : Host.Outcome State Fault Refusal :=
  onSys (issueV i p (.vsel vd va vb)) s

/-- `VSPLAT` (R134). -/
def execVsplat (i : Issue) (p : Pred) (vd : BitVec 6) (sa : BitVec 5) (s : State) : Host.Outcome State Fault Refusal :=
  onSys (issueV i p (.vsplat vd sa)) s

/-- `VIOTA` (R134). -/
def execViota (i : Issue) (p : Pred) (vd : BitVec 6) (s : State) : Host.Outcome State Fault Refusal :=
  onSys (issueV i p (.viota vd)) s

/-- `VPERM` (R134). -/
def execVperm (i : Issue) (p : Pred) (vd va vb : BitVec 6) (s : State) : Host.Outcome State Fault Refusal :=
  onSys (issueV i p (.vperm vd va vb)) s

/-- `VROT` (R134). -/
def execVrot (i : Issue) (p : Pred) (vd va : BitVec 6) (k : BitVec 9) (s : State) : Host.Outcome State Fault Refusal :=
  onSys (issueV i p (.vrot vd va k)) s

/-- `VCVT` (R137). -/
def execVcvt (i : Issue) (p : Pred) (vd va : BitVec 6) (fmt : CvtFmt) (s : State) : Host.Outcome State Fault Refusal :=
  onSys (issueV i p (.vcvt vd va fmt)) s

/-- `VSR` (R138). -/
def execVsr (i : Issue) (p : Pred) (vd va : BitVec 6) (fmt : Narrow) (grp : BitVec 3) (s : State) :
    Host.Outcome State Fault Refusal :=
  onSys (issueV i p (.vsr vd va fmt grp)) s

/-- `VPACK` (R136). -/
def execVpack (i : Issue) (p : Pred) (vd va : BitVec 6) (fmt : PackFmt) (s : State) : Host.Outcome State Fault Refusal :=
  onSys (issueV i p (.vpack vd va fmt)) s

/-- `VUNPK` (R136). -/
def execVunpk (i : Issue) (p : Pred) (vd va : BitVec 6) (fmt : PackFmt) (s : State) : Host.Outcome State Fault Refusal :=
  onSys (issueV i p (.vunpk vd va fmt)) s

/-- `VRED` (R140). -/
def execVred (i : Issue) (p : Pred) (vd va : BitVec 6) (max : Bool) (s : State) : Host.Outcome State Fault Refusal :=
  onSys (issueV i p (.vred vd va max)) s

/-- `VQMX` (R139). -/
def execVqmx (i : Issue) (p : Pred) (vd va : BitVec 6) (fmt : Narrow) (sr : Bool) (grp : BitVec 3) (s : State) :
    Host.Outcome State Fault Refusal :=
  onSys (issueV i p (.vqmx vd va fmt sr grp)) s

/-- `VQK4` (R88). -/
def execVqk4 (i : Issue) (p : Pred) (vd va : BitVec 6) (sT : BitVec 5) (sr : Bool) (grp : BitVec 3) (s : State) :
    Host.Outcome State Fault Refusal :=
  onSys (issueV i p (.vqk4 vd va sT sr grp)) s

end Sys2Proof.Machine
end

