-- ==== Sys2Proof/Machine/Dispatch.lean ====
section
/-!
DEFINITION. The dispatch: every command has one arm, a direct call of its meaning.
-/

namespace Sys2Proof.Machine

/-- What a command does to everything but the queue. -/
def exec (i : Instr) (s : State) : Host.Outcome State Fault Refusal :=
  match i with
  | .nop iss slot => Sys2Proof.Machine.execNop iss slot s
  | .alu iss p sd sa sb f => Sys2Proof.Machine.execAlu iss p sd sa sb f s
  | .addi iss p sd sa imm => Sys2Proof.Machine.execAddi iss p sd sa imm s
  | .andi iss p sd sa imm => Sys2Proof.Machine.execAndi iss p sd sa imm s
  | .ori iss p sd sa imm => Sys2Proof.Machine.execOri iss p sd sa imm s
  | .xori iss p sd sa imm => Sys2Proof.Machine.execXori iss p sd sa imm s
  | .shli iss p sd sa imm => Sys2Proof.Machine.execShli iss p sd sa imm s
  | .shri iss p sd sa imm => Sys2Proof.Machine.execShri iss p sd sa imm s
  | .srai iss p sd sa imm => Sys2Proof.Machine.execSrai iss p sd sa imm s
  | .muli iss p sd sa imm => Sys2Proof.Machine.execMuli iss p sd sa imm s
  | .movl iss p sd imm => Sys2Proof.Machine.execMovl iss p sd imm s
  | .movh iss p sd imm => Sys2Proof.Machine.execMovh iss p sd imm s
  | .cmp iss p pd sa sb c => Sys2Proof.Machine.execCmp iss p pd sa sb c s
  | .cmpi iss p pd sa c imm => Sys2Proof.Machine.execCmpi iss p pd sa c imm s
  | .plog iss p pd pa pb f => Sys2Proof.Machine.execPlog iss p pd pa pb f s
  | .br iss p target => Sys2Proof.Machine.execBr iss p target s
  | .jal iss p sd target => Sys2Proof.Machine.execJal iss p sd target s
  | .jr iss p sa => Sys2Proof.Machine.execJr iss p sa s
  | .loop iss p sc stop => Sys2Proof.Machine.execLoop iss p sc stop s
  | .loopi iss p count stop => Sys2Proof.Machine.execLoopi iss p count stop s
  | .lpop iss p => Sys2Proof.Machine.execLpop iss p s
  | .csrr iss p pair idx => Sys2Proof.Machine.execCsrr iss p pair idx s
  | .csrw iss p pair idx => Sys2Proof.Machine.execCsrw iss p pair idx s
  | .sig iss p => Sys2Proof.Machine.execSig iss p s
  | .beat iss p => Sys2Proof.Machine.execBeat iss p s
  | .beatRetire tile cycle => Sys2Proof.Machine.execBeatRetire tile cycle s
  | .lds iss p sd aB imm => Sys2Proof.Machine.execLds iss p sd aB imm s
  | .sts iss p ss aB imm => Sys2Proof.Machine.execSts iss p ss aB imm s
  | .ldv iss p vd aB sz imm => Sys2Proof.Machine.execLdv iss p vd aB sz imm s
  | .stv iss p vs aB sz imm => Sys2Proof.Machine.execStv iss p vs aB sz imm s
  | .aaddi iss p ad aS imm => Sys2Proof.Machine.execAaddi iss p ad aS imm s
  | .aadd iss p ad aS ss sh => Sys2Proof.Machine.execAadd iss p ad aS ss sh s
  | .amov iss p ad sl sh => Sys2Proof.Machine.execAmov iss p ad sl sh s
  | .aget iss p sd aS hi => Sys2Proof.Machine.execAget iss p sd aS hi s
  | .wfill iss p t kind aS sU => Sys2Proof.Machine.execWfill iss p t kind aS sU s
  | .wfillDone tile t => Sys2Proof.Machine.execWfillDone tile t s
  | .sarm iss p aL tag ur aR => Sys2Proof.Machine.execSarm iss p aL tag ur aR s
  | .ureq iss p aD => Sys2Proof.Machine.execUreq iss p aD s
  | .ureqCompletion tile id => Sys2Proof.Machine.execUreqCompletion tile id s
  | .xsnd iss p aS sD cls len => Sys2Proof.Machine.execXsnd iss p aS sD cls len s
  | .vext iss p sd vs lane => Sys2Proof.Machine.execVext iss p sd vs lane s
  | .tcfg iss p t sa sb => Sys2Proof.Machine.execTcfg iss p t sa sb s
  | .trow iss p t aA aS sS cnt => Sys2Proof.Machine.execTrow iss p t aA aS sS cnt s
  | .trussRowComplete tile t cycle => Sys2Proof.Machine.execTrussRowComplete tile t cycle s
  | .tswp iss p t => Sys2Proof.Machine.execTswp iss p t s
  | .tdrn iss p t vd q cnt => Sys2Proof.Machine.execTdrn iss p t vd q cnt s
  | .trussDrain tile t cycle => Sys2Proof.Machine.execTrussDrain tile t cycle s
  | .vfp iss p vd va vb f => Sys2Proof.Machine.execVfp iss p vd va vb f s
  | .vfn iss p vd va f => Sys2Proof.Machine.execVfn iss p vd va f s
  | .vcmp iss p vd va vb c => Sys2Proof.Machine.execVcmp iss p vd va vb c s
  | .vcmpp iss p pd va vb c all => Sys2Proof.Machine.execVcmpp iss p pd va vb c all s
  | .vsel iss p vd va vb => Sys2Proof.Machine.execVsel iss p vd va vb s
  | .vsplat iss p vd sa => Sys2Proof.Machine.execVsplat iss p vd sa s
  | .viota iss p vd => Sys2Proof.Machine.execViota iss p vd s
  | .vperm iss p vd va vb => Sys2Proof.Machine.execVperm iss p vd va vb s
  | .vrot iss p vd va k => Sys2Proof.Machine.execVrot iss p vd va k s
  | .vcvt iss p vd va fmt => Sys2Proof.Machine.execVcvt iss p vd va fmt s
  | .vsr iss p vd va fmt grp => Sys2Proof.Machine.execVsr iss p vd va fmt grp s
  | .vpack iss p vd va fmt => Sys2Proof.Machine.execVpack iss p vd va fmt s
  | .vunpk iss p vd va fmt => Sys2Proof.Machine.execVunpk iss p vd va fmt s
  | .vred iss p vd va max => Sys2Proof.Machine.execVred iss p vd va max s
  | .vqmx iss p vd va fmt sr grp => Sys2Proof.Machine.execVqmx iss p vd va fmt sr grp s
  | .vqk4 iss p vd va sT sr grp => Sys2Proof.Machine.execVqk4 iss p vd va sT sr grp s
  | .scrubRead tile line found => Sys2Proof.Machine.execScrubRead tile line found s
  | .instructionMemoryWrite tile at_ w => Sys2Proof.Machine.execInstructionMemoryWrite tile at_ w s
  | .tileResetEnd tile => Sys2Proof.Machine.execTileResetEnd tile s
  | .intStatusClear tile mask hw => Sys2Proof.Machine.execIntStatusClear tile mask hw s
  | .intForceSet tile mask => Sys2Proof.Machine.execIntForceSet tile mask s
  | .fieldIntStatusClear field mask hw => Sys2Proof.Machine.execFieldIntStatusClear field mask hw s
  | .fieldIntForceSet field mask => Sys2Proof.Machine.execFieldIntForceSet field mask s
  | .arbStarveClear field mask => Sys2Proof.Machine.execArbStarveClear field mask s
  | .evcntWrite tile n v => Sys2Proof.Machine.execEvcntWrite tile n v s
  | .sampRelease tile n => Sys2Proof.Machine.execSampRelease tile n s
  | .sampCtrlWrite tile v => Sys2Proof.Machine.execSampCtrlWrite tile v s
  | .bwCtrlWrite tile v => Sys2Proof.Machine.execBwCtrlWrite tile v s
  | .csrWrite place off v => Sys2Proof.Machine.execCsrWrite place off v s
  | .mapWrite w => Sys2Proof.Machine.execMapWrite w s
  | .sampleRecordWrite tile measured => Sys2Proof.Machine.execSampleRecordWrite tile measured s
  | .bwWindowClose tile => Sys2Proof.Machine.execBwWindowClose tile s
  | .scheduledSlot tile tag cycle => Sys2Proof.Machine.execScheduledSlot tile tag cycle s
  | .scheduledFlitLand n cycle others => Sys2Proof.Machine.execScheduledFlitLand n cycle others s
  | .lateFlitArrival n cycle others => Sys2Proof.Machine.execLateFlitArrival n cycle others s
  | .stackReadReturn n cycle found => Sys2Proof.Machine.execStackReadReturn n cycle found s
  | .unscheduledPacketArrive n hops others far => Sys2Proof.Machine.execUnscheduledPacketArrive n hops others far s
  | .escapeMove n router waited => Sys2Proof.Machine.execEscapeMove n router waited s
  | .exchangeRecordLand n cycle others => Sys2Proof.Machine.execExchangeRecordLand n cycle others s
  | .stackRequest a => Sys2Proof.Machine.execStackRequest a s
  | .stackBurstGrant field cycle found => Sys2Proof.Machine.execStackBurstGrant field cycle found s
  | .arbStarve field q => Sys2Proof.Machine.execArbStarve field q s
  | .arbRequesterMask field q => Sys2Proof.Machine.execArbRequesterMask field q s
  | .arbRequesterUnmask field q => Sys2Proof.Machine.execArbRequesterUnmask field q s
  | .stackTrainStateDone field failed => Sys2Proof.Machine.execStackTrainStateDone field failed s
  | .stackRefreshWindow field => Sys2Proof.Machine.execStackRefreshWindow field s
  | .beatBoundary => Sys2Proof.Machine.execBeatBoundary s
  | .beatOverrun => Sys2Proof.Machine.execBeatOverrun s
  | .stepSwitch => Sys2Proof.Machine.execStepSwitch s
  | .j4Snapshot droop => Sys2Proof.Machine.execJ4Snapshot droop s
  | .j4PlacementRecord => Sys2Proof.Machine.execJ4PlacementRecord s
  | .j1OrderWrite w => Sys2Proof.Machine.execJ1OrderWrite w s
  | .j1LevelWrite step hold throttle => Sys2Proof.Machine.execJ1LevelWrite step hold throttle s
  | .haltedRise => Sys2Proof.Machine.execHaltedRise s
  | .haltedTimeout => Sys2Proof.Machine.execHaltedTimeout s
  | .haltedMissing => Sys2Proof.Machine.execHaltedMissing s
  | .tileRailCheck mv => Sys2Proof.Machine.execTileRailCheck mv s
  | .dataPlanePowerUp => Sys2Proof.Machine.execDataPlanePowerUp s
  | .markerReceive engine => Sys2Proof.Machine.execMarkerReceive engine s
  | .stateWordReceive engine => Sys2Proof.Machine.execStateWordReceive engine s
  | .stateWordSend => Sys2Proof.Machine.execStateWordSend s
  | .plumbLock ok => Sys2Proof.Machine.execPlumbLock ok s
  | .rootLost => Sys2Proof.Machine.execRootLost s
  | .rootTakeover => Sys2Proof.Machine.execRootTakeover s
  | .backupRedesignate => Sys2Proof.Machine.execBackupRedesignate s
  | .memberLost module => Sys2Proof.Machine.execMemberLost module s
  | .assemblyIncomplete => Sys2Proof.Machine.execAssemblyIncomplete s
  | .scarfCellReceive engine cell arrival errs => Sys2Proof.Machine.execScarfCellReceive engine cell arrival errs s
  | .scarfCellSend engine phase => Sys2Proof.Machine.execScarfCellSend engine phase s
  | .engineDown engine entry => Sys2Proof.Machine.execEngineDown engine entry s
  | .laneSwapRequest engine lane => Sys2Proof.Machine.execLaneSwapRequest engine lane s
  | .laneSwapComplete engine => Sys2Proof.Machine.execLaneSwapComplete engine s
  | .scarfTrainStateDone engine found => Sys2Proof.Machine.execScarfTrainStateDone engine found s
  | .scarfFlitRelease engine n cycle => Sys2Proof.Machine.execScarfFlitRelease engine n cycle s
  | .hostOpen m control force => Sys2Proof.Machine.execHostOpen m control force s
  | .hostClose m => Sys2Proof.Machine.execHostClose m s
  | .hostHeartbeat m => Sys2Proof.Machine.execHostHeartbeat m s
  | .loadBegin m len repair => Sys2Proof.Machine.execLoadBegin m len repair s
  | .loadData m off bs => Sys2Proof.Machine.execLoadData m off bs s
  | .loadComplete => Sys2Proof.Machine.execLoadComplete s
  | .loadTimeout => Sys2Proof.Machine.execLoadTimeout s
  | .placementCheck => Sys2Proof.Machine.execPlacementCheck s
  | .hostRestore m => Sys2Proof.Machine.execHostRestore m s
  | .sysDesc m payload => Sys2Proof.Machine.execSysDesc m payload s
  | .hostStart m => Sys2Proof.Machine.execHostStart m s
  | .hostHold m => Sys2Proof.Machine.execHostHold m s
  | .hostResume m => Sys2Proof.Machine.execHostResume m s
  | .hostCheckpoint m => Sys2Proof.Machine.execHostCheckpoint m s
  | .hostTurn m g => Sys2Proof.Machine.execHostTurn m g s
  | .hostStop m => Sys2Proof.Machine.execHostStop m s
  | .stopComplete => Sys2Proof.Machine.execStopComplete s
  | .hostCap m cap => Sys2Proof.Machine.execHostCap m cap s
  | .tcsrRead m a phys => Sys2Proof.Machine.execTcsrRead m a phys s
  | .tcsrWrite m a phys v => Sys2Proof.Machine.execTcsrWrite m a phys v s
  | .tstreamPut m a bs => Sys2Proof.Machine.execTstreamPut m a bs s
  | .tstreamGet m a n found => Sys2Proof.Machine.execTstreamGet m a n found s
  | .qpOpen m qpn psn cls => Sys2Proof.Machine.execQpOpen m qpn psn cls s
  | .qpClose m qpn => Sys2Proof.Machine.execQpClose m qpn s
  | .scarfRetrain m side index => Sys2Proof.Machine.execScarfRetrain m side index s
  | .dataEventAck m next subscribe => Sys2Proof.Machine.execDataEventAck m next subscribe s
  | .runEventAck m next subscribe => Sys2Proof.Machine.execRunEventAck m next subscribe s
  | .badMessage engine addr datagram => Sys2Proof.Machine.execBadMessage engine addr datagram s
  | .eventResend plane addr => Sys2Proof.Machine.execEventResend plane addr s
  | .subscriberLapse plane addr => Sys2Proof.Machine.execSubscriberLapse plane addr s
  | .sessionTimeout session => Sys2Proof.Machine.execSessionTimeout session s
  | .controlRoleLost => Sys2Proof.Machine.execControlRoleLost s
  | .rdmaWrite engine qpn key a bs => Sys2Proof.Machine.execRdmaWrite engine qpn key a bs s
  | .rdmaRead engine qpn key a n found => Sys2Proof.Machine.execRdmaRead engine qpn key a n found s
  | .orderRequest => Sys2Proof.Machine.execOrderRequest s
  | .orderVerdictTimeout => Sys2Proof.Machine.execOrderVerdictTimeout s
  | .j2JournalRecord => Sys2Proof.Machine.execJ2JournalRecord s
  | .j2StateWordUpdate => Sys2Proof.Machine.execJ2StateWordUpdate s
  | .j2Profile => Sys2Proof.Machine.execJ2Profile s
  | .turnPhaseDone arrived => Sys2Proof.Machine.execTurnPhaseDone arrived s
  | .turnComplete => Sys2Proof.Machine.execTurnComplete s
  | .turnFailed cause => Sys2Proof.Machine.execTurnFailed cause s
  | .checkpointCaptured => Sys2Proof.Machine.execCheckpointCaptured s
  | .turnDue => Sys2Proof.Machine.execTurnDue s
  | .frameBoundary f => Sys2Proof.Machine.execFrameBoundary f s
  | .forecastRecompute => Sys2Proof.Machine.execForecastRecompute s
  | .energyWrite => Sys2Proof.Machine.execEnergyWrite s
  | .inletClose behind inlet reached => Sys2Proof.Machine.execInletClose behind inlet reached s
  | .prechargeTimeout => Sys2Proof.Machine.execPrechargeTimeout s
  | .inletOpen => Sys2Proof.Machine.execInletOpen s
  | .inputOutOfRange => Sys2Proof.Machine.execInputOutOfRange s
  | .inputLoss meas => Sys2Proof.Machine.execInputLoss meas s
  | .inletRecovered => Sys2Proof.Machine.execInletRecovered s
  | .converterFault block => Sys2Proof.Machine.execConverterFault block s
  | .converterRestart block => Sys2Proof.Machine.execConverterRestart block s
  | .busUndervoltage mv us => Sys2Proof.Machine.execBusUndervoltage mv us s
  | .busUndervoltageClear => Sys2Proof.Machine.execBusUndervoltageClear s
  | .phaseDisable field phase => Sys2Proof.Machine.execPhaseDisable field phase s
  | .domainEnable d => Sys2Proof.Machine.execDomainEnable d s
  | .domainFault d => Sys2Proof.Machine.execDomainFault d s
  | .domainForce target who tag v => Sys2Proof.Machine.execDomainForce target who tag v s
  | .powerOrderWrite target who tag v => Sys2Proof.Machine.execPowerOrderWrite target who tag v s
  | .powerOrderAct => Sys2Proof.Machine.execPowerOrderAct s
  | .envelopeWrite target who tag v => Sys2Proof.Machine.execEnvelopeWrite target who tag v s
  | .sensorConversion rs => Sys2Proof.Machine.execSensorConversion rs s
  | .pairDisagree tile => Sys2Proof.Machine.execPairDisagree tile s
  | .pairSuspect tile => Sys2Proof.Machine.execPairSuspect tile s
  | .pairAgree tile => Sys2Proof.Machine.execPairAgree tile s
  | .maskSensor target who tag challenge complement => Sys2Proof.Machine.execMaskSensor target who tag challenge complement s
  | .coolantPeriodStart => Sys2Proof.Machine.execCoolantPeriodStart s
  | .flowMarginEval => Sys2Proof.Machine.execFlowMarginEval s
  | .flowStop => Sys2Proof.Machine.execFlowStop s
  | .flowRestored => Sys2Proof.Machine.execFlowRestored s
  | .thermalStepRise => Sys2Proof.Machine.execThermalStepRise s
  | .thermalThrottle => Sys2Proof.Machine.execThermalThrottle s
  | .thermalStepLower => Sys2Proof.Machine.execThermalStepLower s
  | .converterOvertemp block => Sys2Proof.Machine.execConverterOvertemp block s
  | .inletTempOutOfRange => Sys2Proof.Machine.execInletTempOutOfRange s
  | .leakSample b g => Sys2Proof.Machine.execLeakSample b g s
  | .leakChannelFault b => Sys2Proof.Machine.execLeakChannelFault b s
  | .bankTrip bank us own => Sys2Proof.Machine.execBankTrip bank us own s
  | .bankRetry bank => Sys2Proof.Machine.execBankRetry bank s
  | .pullinStart c => Sys2Proof.Machine.execPullinStart c s
  | .pullinRegulationEnd c => Sys2Proof.Machine.execPullinRegulationEnd c s
  | .fastDecayEnd c samples => Sys2Proof.Machine.execFastDecayEnd c samples s
  | .openCoilCheck c ma => Sys2Proof.Machine.execOpenCoilCheck c ma s
  | .coilShort c ma => Sys2Proof.Machine.execCoilShort c ma s
  | .movementRetry c => Sys2Proof.Machine.execMovementRetry c s
  | .zoneWindowStart z => Sys2Proof.Machine.execZoneWindowStart z s
  | .zoneWindowEnd z => Sys2Proof.Machine.execZoneWindowEnd z s
  | .stuckOpenCheck z => Sys2Proof.Machine.execStuckOpenCheck z s
  | .zoneForce z => Sys2Proof.Machine.execZoneForce z s
  | .valveRetest z => Sys2Proof.Machine.execValveRetest z s
  | .valveFaultClear target who tag challenge complement => Sys2Proof.Machine.execValveFaultClear target who tag challenge complement s
  | .manifoldProfile target who tag challenge complement => Sys2Proof.Machine.execManifoldProfile target who tag challenge complement s
  | .driveLoop rpm => Sys2Proof.Machine.execDriveLoop rpm s
  | .targetStep unit pct => Sys2Proof.Machine.execTargetStep unit pct s
  | .unitStartCheck unit pulses => Sys2Proof.Machine.execUnitStartCheck unit pulses s
  | .tachLoss unit ms => Sys2Proof.Machine.execTachLoss unit ms s
  | .tachRecover unit => Sys2Proof.Machine.execTachRecover unit s
  | .unitFaultClear target who tag challenge complement => Sys2Proof.Machine.execUnitFaultClear target who tag challenge complement s
  | .sequencerScheduleWrite sch => Sys2Proof.Machine.execSequencerScheduleWrite sch s
  | .lockstepMismatch pair => Sys2Proof.Machine.execLockstepMismatch pair s
  | .pairSelftestDone pair pass => Sys2Proof.Machine.execPairSelftestDone pair pass s
  | .pairRestore target who tag challenge complement => Sys2Proof.Machine.execPairRestore target who tag challenge complement s
  | .oscFault b lost => Sys2Proof.Machine.execOscFault b lost s
  | .oscRevert cycles => Sys2Proof.Machine.execOscRevert cycles s
  | .oscRevertClear target who tag challenge complement => Sys2Proof.Machine.execOscRevertClear target who tag challenge complement s
  | .powerApplied found => Sys2Proof.Machine.execPowerApplied found s
  | .coldStart found => Sys2Proof.Machine.execColdStart found s
  | .warmStart found => Sys2Proof.Machine.execWarmStart found s
  | .startStepDone found => Sys2Proof.Machine.execStartStepDone found s
  | .startStepFail timeout => Sys2Proof.Machine.execStartStepFail timeout s
  | .serviceOrder target who tag challenge complement => Sys2Proof.Machine.execServiceOrder target who tag challenge complement s
  | .mgmtRestart target who tag v => Sys2Proof.Machine.execMgmtRestart target who tag v s
  | .mgmtWarmStart passA passB store => Sys2Proof.Machine.execMgmtWarmStart passA passB store s
  | .retainedWrite records => Sys2Proof.Machine.execRetainedWrite records s
  | .restoreFactory target who tag challenge complement => Sys2Proof.Machine.execRestoreFactory target who tag challenge complement s
  | .retireTile target who tag v => Sys2Proof.Machine.execRetireTile target who tag v s
  | .restoreTile target who tag challenge complement => Sys2Proof.Machine.execRestoreTile target who tag challenge complement s
  | .rackAliveTimeout => Sys2Proof.Machine.execRackAliveTimeout s
  | .rackHold target who tag v => Sys2Proof.Machine.execRackHold target who tag v s
  | .safetyAlarm a => Sys2Proof.Machine.execSafetyAlarm a s
  | .alarmRepeat seq => Sys2Proof.Machine.execAlarmRepeat seq s
  | .reference c ts tr src idle => Sys2Proof.Machine.execReference c ts tr src idle s
  | .referenceSend c loop => Sys2Proof.Machine.execReferenceSend c loop s
  | .rackHeartbeat c source => Sys2Proof.Machine.execRackHeartbeat c source s
  | .statusSend c w idle loop => Sys2Proof.Machine.execStatusSend c w idle loop s
  | .exclusiveWindowMissed c w idle => Sys2Proof.Machine.execExclusiveWindowMissed c w idle s
  | .eventMessageSend => Sys2Proof.Machine.execEventMessageSend s
  | .freeRunningTimeout => Sys2Proof.Machine.execFreeRunningTimeout s
  | .timeSourceChange => Sys2Proof.Machine.execTimeSourceChange s
  | .dictRead q => Sys2Proof.Machine.execDictRead q s
  | .dictWrite q => Sys2Proof.Machine.execDictWrite q s
  | .safetyFirstStep q => Sys2Proof.Machine.execSafetyFirstStep q s
  | .safetyConfirm q => Sys2Proof.Machine.execSafetyConfirm q s
  | .readSegment q => Sys2Proof.Machine.execReadSegment q s
  | .writeSegment q => Sys2Proof.Machine.execWriteSegment q s
  | .dictAbort q => Sys2Proof.Machine.execDictAbort q s
  | .transferIdleTimeout who tag => Sys2Proof.Machine.execTransferIdleTimeout who tag s
  | .safetyWindowExpire index sub => Sys2Proof.Machine.execSafetyWindowExpire index sub s
  | .flagClear target who tag index sub group mask => Sys2Proof.Machine.execFlagClear target who tag index sub group mask s
  | .authorityTable target who tag v => Sys2Proof.Machine.execAuthorityTable target who tag v s
  | .mgmtDatagram addr port bs => Sys2Proof.Machine.execMgmtDatagram addr port bs s
  | .rateDetectDwell c edges => Sys2Proof.Machine.execRateDetectDwell c edges s
  | .rateFound c brsFails => Sys2Proof.Machine.execRateFound c brsFails s
  | .rateDetectTimeout c => Sys2Proof.Machine.execRateDetectTimeout c s
  | .busOff c tec => Sys2Proof.Machine.execBusOff c tec s
  | .busOffRecovery c => Sys2Proof.Machine.execBusOffRecovery c s
  | .errorPassive c tec rec_ => Sys2Proof.Machine.execErrorPassive c tec rec_ s
  | .addressCollision c by_ => Sys2Proof.Machine.execAddressCollision c by_ s
  | .messageCancel c n meets => Sys2Proof.Machine.execMessageCancel c n meets s
  | .channelRestart target who tag v => Sys2Proof.Machine.execChannelRestart target who tag v s
  | .collisionClear target who tag v => Sys2Proof.Machine.execCollisionClear target who tag v s
  | .nodeAddress target who tag v => Sys2Proof.Machine.execNodeAddress target who tag v s
  | .matrix target who tag v => Sys2Proof.Machine.execMatrix target who tag v s
  | .gnomonNode target who tag v => Sys2Proof.Machine.execGnomonNode target who tag v s
  | .ptpSync offset => Sys2Proof.Machine.execPtpSync offset s
  | .ptpSyncTimeout => Sys2Proof.Machine.execPtpSyncTimeout s
  | .sf1LeakCut b => Sys2Proof.Machine.execSf1LeakCut b s
  | .sf2FlowNotRestored => Sys2Proof.Machine.execSf2FlowNotRestored s
  | .sf3OverTemperature stack => Sys2Proof.Machine.execSf3OverTemperature stack s
  | .sf4BusProtection voltage measured us => Sys2Proof.Machine.execSf4BusProtection voltage measured us s
  | .busCurrentRecheck amps => Sys2Proof.Machine.execBusCurrentRecheck amps s
  | .sf5InletProtection current measured us => Sys2Proof.Machine.execSf5InletProtection current measured us s
  | .sf6SkourSupervision => Sys2Proof.Machine.execSf6SkourSupervision s
  | .skourSilentInletOpen => Sys2Proof.Machine.execSkourSilentInletOpen s
  | .sf7TrayPowerOff present us => Sys2Proof.Machine.execSf7TrayPowerOff present us s
  | .trayClosed => Sys2Proof.Machine.execTrayClosed s
  | .sf8SafetySensingLost lost => Sys2Proof.Machine.execSf8SafetySensingLost lost s
  | .safeStopInletOpen => Sys2Proof.Machine.execSafeStopInletOpen s
  | .watchdogExpiry => Sys2Proof.Machine.execWatchdogExpiry s
  | .supervisorTimeout => Sys2Proof.Machine.execSupervisorTimeout s
  | .safeStopExit target who tag challenge complement => Sys2Proof.Machine.execSafeStopExit target who tag challenge complement s
  | .leakCutExit target who tag challenge complement => Sys2Proof.Machine.execLeakCutExit target who tag challenge complement s
  | .uartS => Sys2Proof.Machine.execUartS s
  | .uartJ => Sys2Proof.Machine.execUartJ s
  | .uartV => Sys2Proof.Machine.execUartV s
  | .auxPowerLoss => Sys2Proof.Machine.execAuxPowerLoss s
  | .hostPortRetrain engine failed => Sys2Proof.Machine.execHostPortRetrain engine failed s
  | .hostPortOtherFrame engine frame => Sys2Proof.Machine.execHostPortOtherFrame engine frame s
  | .evcntWrap tile n k => Sys2Proof.Machine.execEvcntWrap tile n k s
  | .movementCrossCheck c => Sys2Proof.Machine.execMovementCrossCheck c s
  | .pairResyncDone pair => Sys2Proof.Machine.execPairResyncDone pair s
  | .oscGood b => Sys2Proof.Machine.execOscGood b s
  | .bestMasterChange master => Sys2Proof.Machine.execBestMasterChange master s
  | .rackBusFrameIgnored ident => Sys2Proof.Machine.execRackBusFrameIgnored ident s

end Sys2Proof.Machine
end

