-- ==== Sys2Proof/Safety.lean ====
section
/-!
DEFINITION. What a safe run is: no step of it faults or is refused; and the conditions under which claims speak of a tile's
bundle and of the control plane.
-/

namespace Sys2Proof.Machine

/-- The step from `s` answers a next state. -/
def StepsOn (s : State) : Prop := ∃ t, step s = .next t

/-- The tile as its sequencer finds it: the chunks that its trusses read before this cycle are read (R47). -/
def tileReady (s : State) (i : Issue) : Tile :=
  chunksRead (ctxOf (envOf s.sys) s.sys.data i.tile) i (tileOf s.sys.data i.tile)

/-- The tile on which the bundle acts: the chunks that its trusses read in the cycle of `i` are read as well. -/
def tileActed (s : State) (i : Issue) : Tile :=
  chunksNow (ctxOf (envOf s.sys) s.sys.data i.tile) i (countImem i (tileReady s i).seq.pc (tileReady s i))

/-- No chunk that a truss reads in the cycle of `i` meets a poisoned word (R41). -/
def ChunksRead (s : State) (i : Issue) : Prop := (tileActed s i).tstate ≠ .fault

/-- The tile of `i` is on, its sequencer may issue, the bundle at its next address decodes to `b`, and `b` is not illegal
(R96), waits for no operand and no unit in the cycle of `i` (R35, R102) and takes no fault at issue (R61). -/
def Issues (s : State) (i : Issue) (b : Bun) : Prop :=
  tileOn s.sys.data i.tile = true ∧ mayIssue (tileReady s i) = true ∧ i.err.imemUncorr = false ∧
    (fetched (tileReady s i)).map decodeBundle = some b ∧
    bundleIllegal (ctxOf (envOf s.sys) s.sys.data i.tile) (tileReady s i) (tileReady s i).seq.pc b = false ∧
    bundleHold (tileReady s i) i.cycle b = none ∧
    issueFault (ctxOf (envOf s.sys) s.sys.data i.tile) i (tileReady s i) b = none ∧ ChunksRead s i

/-- A drain's value lands in quarter `q` of vector register `r` in the same cycle as a write of the bundle that takes `lat`
cycles: that write is discarded (R52). -/
def MeetsDrain (s : State) (i : Issue) (lat r q : Nat) : Bool :=
  (tileReady s i).seq.board.any fun x => x.drain && x.reg = .q r q && x.due = i.cycle + lat

/-- A register that a slot operation may write. -/
inductive RegName where
  | s (n : Nat)
  | p (n : Nat)
  | a (n : Nat)
  | v (n : Nat)
deriving DecidableEq, Repr

/-- The registers a C-slot operation writes (R106, R111). -/
def destsC : COp → List RegName
  | .alu sd _ _ _ => [.s sd.toNat] | .addi sd _ _ => [.s sd.toNat] | .andi sd _ _ => [.s sd.toNat]
  | .ori sd _ _ => [.s sd.toNat] | .xori sd _ _ => [.s sd.toNat] | .shli sd _ _ => [.s sd.toNat]
  | .shri sd _ _ => [.s sd.toNat] | .srai sd _ _ => [.s sd.toNat] | .muli sd _ _ => [.s sd.toNat]
  | .movl sd _ => [.s sd.toNat] | .movh sd _ => [.s sd.toNat] | .jal sd _ => [.s sd.toNat]
  | .cmp pd _ _ _ => [.p pd.toNat] | .cmpi pd _ _ _ => [.p pd.toNat] | .plog pd _ _ _ => [.p pd.toNat]
  | .csrr pair _ => [.s (2 * pair.toNat), .s (2 * pair.toNat + 1)]
  | .nop => [] | .br _ => [] | .jr _ => [] | .loop _ _ => [] | .loopi _ _ => [] | .lpop => [] | .csrw _ _ => []
  | .sig => [] | .beat => []

/-- The registers an M-slot operation writes (R116). -/
def destsM : MOp → List RegName
  | .lds sd _ _ => [.s sd.toNat] | .aget sd _ _ => [.s sd.toNat] | .vext sd _ _ => [.s sd.toNat]
  | .ldv vd _ _ _ => [.v vd.toNat]
  | .aaddi ad _ _ => [.a ad.toNat] | .aadd ad _ _ _ => [.a ad.toNat] | .amov ad _ _ => [.a ad.toNat]
  | .nop => [] | .sts _ _ _ => [] | .stv _ _ _ _ => [] | .wfill _ _ _ _ => [] | .sarm _ _ _ _ => [] | .ureq _ => []
  | .xsnd _ _ _ _ => []

/-- The registers a V-slot operation writes (R134, R135). -/
def destsV : VOp → List RegName
  | .vcmpp pd _ _ _ _ => [.p pd.toNat]
  | .vfp vd _ _ _ => [.v vd.toNat] | .vfn vd _ _ => [.v vd.toNat] | .vcmp vd _ _ _ => [.v vd.toNat]
  | .vsel vd _ _ => [.v vd.toNat] | .vsplat vd _ => [.v vd.toNat] | .viota vd => [.v vd.toNat]
  | .vperm vd _ _ => [.v vd.toNat] | .vrot vd _ _ => [.v vd.toNat] | .vcvt vd _ _ => [.v vd.toNat]
  | .vsr vd _ _ _ => [.v vd.toNat] | .vpack vd _ _ => [.v vd.toNat] | .vunpk vd _ _ => [.v vd.toNat]
  | .vred vd _ _ => [.v vd.toNat] | .vqmx vd _ _ _ _ => [.v vd.toNat] | .vqk4 vd _ _ _ _ => [.v vd.toNat]
  | .nop => []

/-- The bounds of the control plane: at most 8 sessions (R299), 256 stored responses each (R298), 64 waiting commands (R303)
and 4,096 journal records (R23), and the control role belongs to a session that is open (R300). -/
def Ctrl.Bounded (c : Ctrl) : Prop :=
  c.sessions.length ≤ 8 ∧ (∀ s ∈ c.sessions, s.answered.length ≤ 256) ∧ c.queue.length ≤ 64 ∧ c.journal.length ≤ 4096 ∧
    ∀ n, c.control = some n → ∃ s ∈ c.sessions, s.num = n

end Sys2Proof.Machine
end

