-- ==== Sys2Proof/WellFormed.lean ====
section
/-!
DEFINITION. When a command is well-formed: the lengths and ranges that the layouts of the spec give its operands and the
operand types do not. What a module judges and refuses by a status (an offset, a session, a number) is not a matter of
form.
-/

namespace Sys2Proof

open Sys2Proof.Machine

/-- VQMX's targets (R139). -/
def mxTarget (t : Narrow) : Bool := t != .bf16 && t != .int8

/-- A message comes by one of four host engines from an IPv6 address (R292, R294). -/
def msgOk (m : Msg) : Bool := decide (m.engine < 4) && decide (m.addr < 2 ^ 128)

/-- An IPv6 address. -/
def addrOk (a : Nat) : Bool := decide (a < 2 ^ 128)

/-- A requester of channel A or B is a node of five address bits without a port; of management Ethernet, an IPv6 address
and a UDP port (R470, R498, R523). -/
def whoOk (w : Requester) : Bool :=
  (decide (w.chan < 2) && decide (w.addr < 32) && w.port == 0) ||
    (w.chan == 2 && decide (w.addr < 2 ^ 128) && decide (w.port < 2 ^ 16))

/-- A request body carries at most 48 value bytes (R498). -/
def callOk (q : DictCall) : Bool := whoOk q.who && decide (q.value.length ≤ 48)

/-- A requester of a field's arbiter is one of 24, and its class one of three (R207, R208). -/
def askOk : ArbAsk → Bool
  | .tile _ _ => true
  | .other _ r => decide (r.q < 24) && decide (r.cls < 3)

/-- A control unit names a lane from 0 to 8 and carries 16 credit counts, at most 8 state words and at most 19 flit headers,
each with a unit of at most 512 bytes (R226, R227). -/
def cellOk (c : Cell) : Bool :=
  decide (c.swapLane ≤ 8) && c.credits.length == 16 && decide (c.words.length ≤ 8) && decide (c.units.length ≤ 19) &&
    (c.units.all fun u => decide (u.data.length ≤ 512)) && c.credits.all fun n => decide (n < 2 ^ 16)

/-- Bit errors of nine lanes in either direction (R234); a peer reports one of four sides and one of twelve engines (R235). -/
def trainOk : TrainFound → Bool
  | .lanes rx tx => rx.length == 9 && tx.length == 9
  | .peer p => decide (p.side < 4) && decide (p.index < 12)
  | _ => true

/-- The two directions of a hop have at most the credits of a channel's buffer (R184). -/
def hopOk (h : Hop) : Bool := decide (h.next < 1280) && decide (h.rowFree ≤ channelDepth) && decide (h.colFree ≤ channelDepth)

/-- 16 duties of at most 100 %, commands for channels 16 to 19, and targets of at most 100 % (R429). -/
def scheduleOk (s : Schedule) : Bool :=
  s.duties.length == 16 && s.commands.length == 4 && s.fans.length == 4 && decide (s.pump ≤ 100) &&
    s.fans.all fun f => decide (f ≤ 100)

/-- A conversion lies in its sensor's range (R377). -/
def readingOk (r : SensorId × Reading) : Bool :=
  match r.2 with
  | .bad => true
  | .ok v =>
    match r.1 with
    | .dp _ => decide (0 ≤ v) && decide (v ≤ 2500)
    | .meter => decide (0 ≤ v) && decide (v ≤ 8000)
    | .supply => decide (0 ≤ v) && decide (v ≤ 10000)
    | .ret => decide (0 ≤ v) && decide (v ≤ 10000)
    | _ => decide (-400 ≤ v) && decide (v ≤ 1500)

/-- The retained store holds two copies of each image (R457). -/
def storeOk (s : StoreFound) : Bool := s.badSettings.all (· < 2) && s.badRecords.all (· < 2)

/-- Four blocks, 16 zones, 64 fields of 18 phases, and tiles of the wafer (R447). -/
def stepOk : StepFound → Bool
  | .blocks ok _ => ok.length == 4
  | .prime p => p.zones.length == 16
  | .phases out => out.all fun f => decide (f.1 < 64) && f.2.all (· < 18)
  | .done => true
  | .tiles failed => failed.all (· < 1280)

/-- A rack bus frame holds at most 64 bytes (R471). -/
def alarmOk : AlarmFrame → Bool
  | .own => true
  | .heard _ _ bs => decide (bs.length ≤ 64)

/-- A pause frame names one of eight priorities (R292). -/
def frameOk : OtherFrame → Bool
  | .pause p => decide (p < 8)
  | _ => true

/-- The command's operands are of the lengths and ranges its layout gives. -/
def Instr.wellFormed : Instr → Bool
  | .vqmx _ _ _ _ fmt _ _ => mxTarget fmt
  | .unscheduledPacketArrive _ hops _ _ => hops.all hopOk
  | .stackRequest a => askOk a
  | .stackTrainStateDone _ failed => failed.all fun c => decide (c < 66)
  | .j4Snapshot droop => droop.length == 64
  | .scarfCellReceive _ cell _ _ => cellOk cell
  | .scarfTrainStateDone _ found => trainOk found
  | .hostOpen m _ _ => msgOk m
  | .hostClose m => msgOk m
  | .hostHeartbeat m => msgOk m
  | .loadBegin m _ repair => msgOk m && repair.length == 160
  | .loadData m _ _ => msgOk m
  | .hostRestore m => msgOk m
  | .sysDesc m payload => msgOk m && payload.length == 45
  | .hostStart m => msgOk m
  | .hostHold m => msgOk m
  | .hostResume m => msgOk m
  | .hostCheckpoint m => msgOk m
  | .hostTurn m g => msgOk m && decide (g.val < 8)
  | .hostStop m => msgOk m
  | .hostCap m _ => msgOk m
  | .qpOpen m _ _ cls => msgOk m && decide (cls < 3)
  | .dataEventAck m _ _ => msgOk m
  | .tcsrRead m _ _ => msgOk m
  | .tcsrWrite m _ _ _ => msgOk m
  | .tstreamPut m _ _ => msgOk m
  | .tstreamGet m _ _ _ => msgOk m
  | .qpClose m _ => msgOk m
  | .scarfRetrain m _ _ => msgOk m
  | .runEventAck m _ _ => msgOk m
  | .badMessage _ addr _ => addrOk addr
  | .eventResend _ addr => addrOk addr
  | .subscriberLapse _ addr => addrOk addr
  | .turnPhaseDone arrived => arrived.all fun a => decide (a.field < 64) && Memory.wf a.mem
  | .fastDecayEnd _ samples => decide (samples.length ≤ 4001)
  | .frameBoundary f => f.blocks.length == 4 && f.valves.length == 20
  | .domainForce _ who _ _ => whoOk who
  | .powerOrderWrite _ who _ _ => whoOk who
  | .envelopeWrite _ who _ v => whoOk who && v.length == 124
  | .sensorConversion rs => decide (rs.map Prod.fst).Nodup && rs.all readingOk
  | .maskSensor _ who _ _ _ => whoOk who
  | .valveFaultClear _ who _ _ _ => whoOk who
  | .manifoldProfile _ who _ _ _ => whoOk who
  | .driveLoop rpm => rpm.length == 6
  | .unitFaultClear _ who _ _ _ => whoOk who
  | .sequencerScheduleWrite sch => scheduleOk sch
  | .pairRestore _ who _ _ _ => whoOk who
  | .oscRevertClear _ who _ _ _ => whoOk who
  | .powerApplied found => storeOk found.store
  | .coldStart found => found.all stepOk
  | .warmStart found => found.all stepOk
  | .startStepDone found => stepOk found
  | .serviceOrder _ who _ _ _ => whoOk who
  | .mgmtRestart _ who _ _ => whoOk who
  | .mgmtWarmStart _ _ store => storeOk store
  | .restoreFactory _ who _ _ _ => whoOk who
  | .retireTile _ who _ _ => whoOk who
  | .restoreTile _ who _ _ _ => whoOk who
  | .rackHold _ who _ _ => whoOk who
  | .safetyAlarm a => alarmOk a
  | .dictRead q => callOk q
  | .dictWrite q => callOk q
  | .safetyFirstStep q => callOk q
  | .safetyConfirm q => callOk q
  | .readSegment q => callOk q
  | .writeSegment q => callOk q
  | .dictAbort q => callOk q
  | .transferIdleTimeout who _ => whoOk who
  | .flagClear _ who _ _ _ _ _ => whoOk who
  | .authorityTable _ who _ v => whoOk who && v.length == 288
  | .channelRestart _ who _ _ => whoOk who
  | .collisionClear _ who _ _ => whoOk who
  | .nodeAddress _ who _ _ => whoOk who
  | .matrix _ who _ v => whoOk who && v.length == 512
  | .gnomonNode _ who _ _ => whoOk who
  | .safeStopExit _ who _ _ _ => whoOk who
  | .leakCutExit _ who _ _ _ => whoOk who
  | .hostPortOtherFrame _ frame => frameOk frame
  | .nop .. | .alu .. | .addi .. | .andi .. | .ori .. | .xori .. | .shli .. | .shri .. | .srai .. | .muli ..
  | .movl .. | .movh .. | .cmp .. | .cmpi .. | .plog .. | .br .. | .jal .. | .jr .. | .loop .. | .loopi .. | .lpop ..
  | .csrr .. | .csrw .. | .sig .. | .beat .. | .beatRetire .. | .lds .. | .sts .. | .ldv .. | .stv .. | .aaddi ..
  | .aadd .. | .amov .. | .aget .. | .wfill .. | .wfillDone .. | .sarm .. | .ureq .. | .ureqCompletion .. | .xsnd ..
  | .vext .. | .tcfg .. | .trow .. | .trussRowComplete .. | .tswp .. | .tdrn .. | .trussDrain .. | .vfp .. | .vfn ..
  | .vcmp .. | .vcmpp .. | .vsel .. | .vsplat .. | .viota .. | .vperm .. | .vrot .. | .vcvt .. | .vsr .. | .vpack ..
  | .vunpk .. | .vred .. | .vqk4 .. | .scrubRead .. | .instructionMemoryWrite .. | .tileResetEnd ..
  | .intStatusClear .. | .intForceSet .. | .fieldIntStatusClear .. | .fieldIntForceSet .. | .arbStarveClear ..
  | .evcntWrite .. | .sampRelease .. | .sampCtrlWrite .. | .bwCtrlWrite .. | .csrWrite .. | .mapWrite ..
  | .sampleRecordWrite .. | .bwWindowClose .. | .scheduledSlot .. | .scheduledFlitLand .. | .lateFlitArrival ..
  | .stackReadReturn .. | .escapeMove .. | .exchangeRecordLand .. | .stackBurstGrant .. | .arbStarve ..
  | .arbRequesterMask .. | .arbRequesterUnmask .. | .stackRefreshWindow .. | .j1OrderWrite .. | .j1LevelWrite ..
  | .tileRailCheck .. | .markerReceive .. | .stateWordReceive .. | .plumbLock .. | .memberLost .. | .scarfCellSend ..
  | .engineDown .. | .laneSwapRequest .. | .laneSwapComplete .. | .scarfFlitRelease ..
  | .sessionTimeout .. | .rdmaWrite ..
  | .rdmaRead .. | .turnFailed .. | .inletClose .. | .inputLoss .. | .converterFault .. | .converterRestart ..
  | .busUndervoltage .. | .phaseDisable .. | .domainEnable .. | .domainFault .. | .pairDisagree .. | .pairSuspect ..
  | .pairAgree .. | .converterOvertemp .. | .leakSample .. | .leakChannelFault .. | .bankTrip .. | .bankRetry ..
  | .pullinStart .. | .pullinRegulationEnd .. | .openCoilCheck .. | .coilShort ..
  | .movementRetry .. | .zoneWindowStart .. | .zoneWindowEnd .. | .stuckOpenCheck .. | .zoneForce ..
  | .valveRetest .. | .targetStep .. | .unitStartCheck .. | .tachLoss .. | .tachRecover .. | .lockstepMismatch ..
  | .pairSelftestDone .. | .oscFault .. | .oscRevert .. | .startStepFail .. | .retainedWrite .. | .alarmRepeat ..
  | .reference .. | .referenceSend .. | .rackHeartbeat .. | .statusSend .. | .exclusiveWindowMissed ..
  | .safetyWindowExpire .. | .mgmtDatagram .. | .rateDetectDwell .. | .rateFound .. | .rateDetectTimeout ..
  | .busOff .. | .busOffRecovery .. | .errorPassive .. | .addressCollision .. | .messageCancel .. | .ptpSync ..
  | .sf1LeakCut .. | .sf3OverTemperature .. | .sf4BusProtection .. | .busCurrentRecheck .. | .sf5InletProtection ..
  | .sf7TrayPowerOff .. | .sf8SafetySensingLost .. | .evcntWrap .. | .movementCrossCheck .. | .beatBoundary ..
  | .beatOverrun .. | .stepSwitch .. | .j4PlacementRecord .. | .haltedRise .. | .haltedTimeout .. | .haltedMissing ..
  | .dataPlanePowerUp .. | .stateWordSend .. | .rootLost .. | .rootTakeover .. | .backupRedesignate ..
  | .assemblyIncomplete .. | .loadComplete .. | .loadTimeout .. | .placementCheck .. | .stopComplete ..
  | .controlRoleLost .. | .orderRequest .. | .orderVerdictTimeout .. | .j2JournalRecord .. | .j2StateWordUpdate ..
  | .j2Profile .. | .turnComplete .. | .checkpointCaptured .. | .turnDue .. | .forecastRecompute .. | .energyWrite ..
  | .prechargeTimeout .. | .inletOpen .. | .inputOutOfRange .. | .inletRecovered .. | .busUndervoltageClear ..
  | .powerOrderAct .. | .coolantPeriodStart .. | .flowMarginEval .. | .flowStop .. | .flowRestored ..
  | .thermalStepRise .. | .thermalThrottle .. | .thermalStepLower .. | .inletTempOutOfRange .. | .rackAliveTimeout ..
  | .eventMessageSend .. | .freeRunningTimeout .. | .timeSourceChange .. | .ptpSyncTimeout ..
  | .sf2FlowNotRestored .. | .sf6SkourSupervision .. | .skourSilentInletOpen .. | .trayClosed ..
  | .safeStopInletOpen .. | .watchdogExpiry .. | .supervisorTimeout .. | .uartS .. | .uartJ .. | .uartV ..
  | .auxPowerLoss .. | .hostPortRetrain .. | .pairResyncDone .. | .oscGood .. | .bestMasterChange ..
  | .rackBusFrameIgnored .. => true

end Sys2Proof
end

