-- ==== Sys2Proof/Certificates/Slice0/Obligations.lean ====
section
/-!
DEFINITION. The statements for the provers, family by family of the command table, and the few definitions they share.
A completion statement has the form `∃ t, exec c s = .next t ∧ …`: the command answers a next state, and it holds what
the rule says.
-/

namespace Sys2Proof.Machine

/-! ### What the statements share -/

/-- The tile of `s` at `ix`. -/
def tileIn (s : State) (ix : Nat) : Tile := tileOf s.sys.data ix

/-- The operations that execute in the slots of `b` (R99). -/
def runC (s : State) (i : Issue) (b : Bun) : COp := opOr .nop (tileIn s i.tile).regs b.c
def runM (s : State) (i : Issue) (b : Bun) : MOp := opOr .nop (tileIn s i.tile).regs b.m
def runT (s : State) (i : Issue) (b : Bun) : TOp := opOr .nop (tileIn s i.tile).regs b.t
def runV (s : State) (i : Issue) (b : Bun) : VOp := opOr .nop (tileIn s i.tile).regs b.v

/-- Bundle `b` issues with `o` executing in its C slot under predicate `p`. -/
def IssuesC (s : State) (i : Issue) (b : Bun) (p : Pred) (o : COp) : Prop :=
  Issues s i b ∧ b.c = ⟨p, .op o⟩ ∧ executes (tileIn s i.tile).regs p = true
def IssuesM (s : State) (i : Issue) (b : Bun) (p : Pred) (o : MOp) : Prop :=
  Issues s i b ∧ b.m = ⟨p, .op o⟩ ∧ executes (tileIn s i.tile).regs p = true
def IssuesT (s : State) (i : Issue) (b : Bun) (p : Pred) (o : TOp) : Prop :=
  Issues s i b ∧ b.t = ⟨p, .op o⟩ ∧ executes (tileIn s i.tile).regs p = true
def IssuesV (s : State) (i : Issue) (b : Bun) (p : Pred) (o : VOp) : Prop :=
  Issues s i b ∧ b.v = ⟨p, .op o⟩ ∧ executes (tileIn s i.tile).regs p = true

/-- C-slot command `c` writes scalar register `sd` with `v` of the tile as it stood; a write to s0 is discarded (R97). No
other slot of the bundle writes `sd` (R104). -/
def WritesScalarC (c : Instr) (i : Issue) (p : Pred) (o : COp) (sd : BitVec 5) (v : Tile → W32) : Prop :=
  ∀ s b, IssuesC s i b p o → RegName.s sd.toNat ∉ destsM (runM s i b) →
    ∃ t, exec c s = .next t ∧ readS (tileIn t i.tile).regs sd.toNat = if sd = 0 then 0 else v (tileIn s i.tile)

/-- C-slot command `c` writes predicate register `pd`; a write to p0 is discarded (R97). -/
def WritesPredC (c : Instr) (i : Issue) (p : Pred) (o : COp) (pd : BitVec 3) (v : Tile → Bool) : Prop :=
  ∀ s b, IssuesC s i b p o → RegName.p pd.toNat ∉ destsV (runV s i b) →
    ∃ t, exec c s = .next t ∧ readP (tileIn t i.tile).regs pd.toNat = if pd = 0 then true else v (tileIn s i.tile)

/-- Command `c` issues bundle `b` of its tile: its effect is the issue of the bundle at the tile's next address when that
bundle is `b` (R94, R98). -/
def Drives (c : Instr) (i : Issue) (b : Bun) : Prop :=
  ∃ f : Bun → Bool, f b = true ∧ ∀ s, exec c s = .next { s with sys := issueWhen i f s.sys }

/-! ### The C slot -/

/-- The integer result of an ALU function: exact, then wrapped modulo 2^32 (R106). -/
def aluValue (f : AluFn) (a b : W32) : W32 :=
  match f with
  | .add => BitVec.ofNat 32 (a.toNat + b.toNat)
  | .sub => BitVec.ofInt 32 (a.toInt - b.toInt)
  | .and => a &&& b
  | .or => a ||| b
  | .xor => a ^^^ b
  | .shl => BitVec.ofNat 32 (a.toNat * 2 ^ (b.toNat % 32))
  | .shr => BitVec.ofNat 32 (a.toNat / 2 ^ (b.toNat % 32))
  | .sra => BitVec.ofInt 32 (a.toInt / 2 ^ (b.toNat % 32))
  | .mul => BitVec.ofNat 32 (a.toNat * b.toNat)
  | .min => if a.toInt < b.toInt then a else b
  | .max => if a.toInt < b.toInt then b else a
  | .minu => if a.toNat < b.toNat then a else b
  | .maxu => if a.toNat < b.toNat then b else a

/-- A scalar condition over exact integers: LT and GE signed, LTU and GEU unsigned (R106). -/
def condValue (c : Cond) (a b : W32) : Bool :=
  match c with
  | .eq => decide (a = b)
  | .ne => decide (a ≠ b)
  | .lt => decide (a.toInt < b.toInt)
  | .ge => decide (b.toInt ≤ a.toInt)
  | .ltu => decide (a.toNat < b.toNat)
  | .geu => decide (b.toNat ≤ a.toNat)

/-- The command goes to address `pc` and leaves the loop stack `ls` (innermost first). -/
def GoesTo (c : Instr) (s : State) (ix : TileIx) (pc : Nat) (ls : List LoopEntry) : Prop :=
  ∃ t, exec c s = .next t ∧ (tileIn t ix).seq.pc = pc ∧ (tileIn t ix).regs.loops = ls

/-- No loop of `ls` ends at the bundle at `pc`. -/
def NoLoopEnd (pc : Nat) (ls : List LoopEntry) : Prop := ∀ e ∈ ls, e.stop.toNat ≠ pc

/-- An operation of the C slot that neither branches nor moves the loop stack. -/
def goesOn : COp → Bool
  | .br _ => false | .jal _ _ => false | .jr _ => false | .loop _ _ => false | .loopi _ _ => false | .lpop => false
  | _ => true

/-! ### Bundles -/

/-- The command of an operation of the C slot. -/
def commandC (i : Issue) (p : Pred) : COp → Instr
  | .nop => .nop i .c
  | .alu sd sa sb f => .alu i p sd sa sb f
  | .addi sd sa imm => .addi i p sd sa imm
  | .andi sd sa imm => .andi i p sd sa imm
  | .ori sd sa imm => .ori i p sd sa imm
  | .xori sd sa imm => .xori i p sd sa imm
  | .shli sd sa imm => .shli i p sd sa imm
  | .shri sd sa imm => .shri i p sd sa imm
  | .srai sd sa imm => .srai i p sd sa imm
  | .muli sd sa imm => .muli i p sd sa imm
  | .movl sd imm => .movl i p sd imm
  | .movh sd imm => .movh i p sd imm
  | .cmp pd sa sb c => .cmp i p pd sa sb c
  | .cmpi pd sa c imm => .cmpi i p pd sa c imm
  | .plog pd pa pb f => .plog i p pd pa pb f
  | .br target => .br i p target
  | .jal sd target => .jal i p sd target
  | .jr sa => .jr i p sa
  | .loop sc stop => .loop i p sc stop
  | .loopi count stop => .loopi i p count stop
  | .lpop => .lpop i p
  | .csrr pair idx => .csrr i p pair idx
  | .csrw pair idx => .csrw i p pair idx
  | .sig => .sig i p
  | .beat => .beat i p

/-- The command of an operation of the M slot. -/
def commandM (i : Issue) (p : Pred) : MOp → Instr
  | .nop => .nop i .m
  | .lds sd aB imm => .lds i p sd aB imm
  | .sts ss aB imm => .sts i p ss aB imm
  | .ldv vd aB sz imm => .ldv i p vd aB sz imm
  | .stv vs aB sz imm => .stv i p vs aB sz imm
  | .aaddi ad as_ imm => .aaddi i p ad as_ imm
  | .aadd ad as_ ss sh => .aadd i p ad as_ ss sh
  | .amov ad sl sh => .amov i p ad sl sh
  | .aget sd as_ hi => .aget i p sd as_ hi
  | .wfill t kind aS sU => .wfill i p t kind aS sU
  | .sarm aL tag ur aR => .sarm i p aL tag ur aR
  | .ureq aD => .ureq i p aD
  | .xsnd aS sD cls len => .xsnd i p aS sD cls len
  | .vext sd vs lane => .vext i p sd vs lane

/-- The command of an operation of the T slot. -/
def commandT (i : Issue) (p : Pred) : TOp → Instr
  | .nop => .nop i .t
  | .tcfg t sa sb => .tcfg i p t sa sb
  | .trow t aA aS sS cnt => .trow i p t aA aS sS cnt
  | .tswp t => .tswp i p t
  | .tdrn t vd q cnt => .tdrn i p t vd q cnt

/-- The command of an operation of the V slot. -/
def commandV (i : Issue) (p : Pred) : VOp → Instr
  | .nop => .nop i .v
  | .vfp vd va vb f => .vfp i p vd va vb f
  | .vfn vd va f => .vfn i p vd va f
  | .vcmp vd va vb c => .vcmp i p vd va vb c
  | .vcmpp pd va vb c all => .vcmpp i p pd va vb c all
  | .vsel vd va vb => .vsel i p vd va vb
  | .vsplat vd sa => .vsplat i p vd sa
  | .viota vd => .viota i p vd
  | .vperm vd va vb => .vperm i p vd va vb
  | .vrot vd va k => .vrot i p vd va k
  | .vcvt vd va fmt => .vcvt i p vd va fmt
  | .vsr vd va fmt grp => .vsr i p vd va fmt grp
  | .vpack vd va fmt => .vpack i p vd va fmt
  | .vunpk vd va fmt => .vunpk i p vd va fmt
  | .vred vd va max => .vred i p vd va max
  | .vqmx vd va fmt sr grp => .vqmx i p vd va fmt sr grp
  | .vqk4 vd va sT sr grp => .vqk4 i p vd va sT sr grp

/-- The bundle runs nothing: every slot holds NOP or is suppressed. -/
def RunsNothing (s : State) (i : Issue) (b : Bun) : Prop :=
  runC s i b = .nop ∧ runM s i b = .nop ∧ runT s i b = .nop ∧ runV s i b = .nop

/-- What makes a bundle illegal of itself in slot word terms: a reserved opcode, executed or not, or a reserved field value
in a slot that executes. -/
def ReservedSlot {α : Type} (r : Regs) (x : Slot α) : Prop :=
  x.dec = .reserved ∨ (x.dec = .badField ∧ executes r x.pred = true)

/-- The registers that the executing slots of `b` name as destinations. -/
def destsOf (s : State) (i : Issue) (b : Bun) : List RegName :=
  destsC (runC s i b) ++ destsM (runM s i b) ++ destsV (runV s i b)

/-- Whether an executing M-slot operation stores to the tile store. -/
def storesM : MOp → Bool
  | .sts _ _ _ => true | .stv _ _ _ _ => true
  | _ => false

/-! ### The M slot -/

/-- M-slot command `c` writes scalar register `sd` with `v` of the tile as it stood; a write to s0 is discarded (R97). -/
def WritesScalarM (c : Instr) (i : Issue) (p : Pred) (o : MOp) (sd : BitVec 5) (v : Tile → W32) : Prop :=
  ∀ s b, IssuesM s i b p o → RegName.s sd.toNat ∉ destsC (runC s i b) →
    ∃ t, exec c s = .next t ∧ readS (tileIn t i.tile).regs sd.toNat = if sd = 0 then 0 else v (tileIn s i.tile)

/-- M-slot command `c` writes address register `ad` with `v` of the registers as they stood, modulo 2^48. -/
def WritesAddrM (c : Instr) (i : Issue) (p : Pred) (o : MOp) (ad : BitVec 4) (v : Regs → Int) : Prop :=
  ∀ s b, IssuesM s i b p o →
    ∃ t, exec c s = .next t ∧ readA (tileIn t i.tile).regs ad.toNat = BitVec.ofInt 48 (v (tileIn s i.tile).regs)

/-- The address `aB + k·imm` modulo 2^48 with its low `n` bits ignored (R116). -/
def alignedAt (r : Regs) (aB : BitVec 4) (off : Int) (n : Nat) : Nat :=
  let e := (((readA r aB.toNat).toNat + off) % 2 ^ 48).toNat
  e / 2 ^ n * 2 ^ n

/-- The little-endian 32-bit word of a store at an address (R2). -/
def wordAt (m : Memory) (a : Nat) : Nat :=
  (readByte m a).toNat + 2 ^ 8 * (readByte m (a + 1)).toNat + 2 ^ 16 * (readByte m (a + 2)).toNat +
    2 ^ 24 * (readByte m (a + 3)).toNat

/-- The part of a weight buffer that a fill's kind names (R132). -/
def fillTarget (k : FillKind) (w : WBuf) : Memory :=
  match k with
  | .weights => w.elems
  | .scales => w.scales
  | .columns => w.cols

/-- The buffer of `u` that was inactive while `old` was in force (R45). -/
def idleBuf (old u : Truss) : WBuf := if old.activeB then u.bufA else u.bufB

/-! ### The V slot and the arithmetic -/

/-- V-slot command `c` writes lane `l` of `vd` with `f` of the tile as it stood; a quarter whose write meets a drain's value
keeps what it held (R52). No other slot of the bundle writes `vd` (R104). -/
def WritesLanes (c : Instr) (i : Issue) (p : Pred) (o : VOp) (vd : BitVec 6) (f : Tile → Nat → W32) : Prop :=
  ∀ s b, IssuesV s i b p o → RegName.v vd.toNat ∉ destsM (runM s i b) →
    ∃ t, exec c s = .next t ∧ ∀ l < 512, lane (readV (tileIn t i.tile).regs vd.toNat) l =
      if MeetsDrain s i (latV o) vd.toNat (l / 128) then lane (readV (tileIn s i.tile).regs vd.toNat) l
      else f (tileIn s i.tile) l

/-- Lane `l` of register `r` of a tile. -/
def laneOf (t : Tile) (r : BitVec 6) (l : Nat) : W32 := lane (readV t.regs r.toNat) l

/-- One lane of VFP: `d` is the old destination (R134, R135). -/
def vfpLane (m : RMode) (f : VfpFn) (a b d : W32) : W32 :=
  match f with
  | .add => addF m a b
  | .sub => subF m a b
  | .mul => mulF m a b
  | .fma => fmaF m a b d
  | .fms => fmsF m a b d
  | .fnma => fnmaF m a b d
  | .max => maxF a b
  | .min => minF a b
  | .and => a &&& b
  | .or => a ||| b
  | .xor => a ^^^ b
  | .iadd => BitVec.ofNat 32 (a.toNat + b.toNat)
  | .isub => BitVec.ofInt 32 (a.toInt - b.toInt)
  | .shl => BitVec.ofNat 32 (a.toNat * 2 ^ (b.toNat % 32))
  | .shr => BitVec.ofNat 32 (a.toNat / 2 ^ (b.toNat % 32))

/-- A vector compare of two lanes: F32 conditions are false on a NaN, but for NE, which is true; −0 equals +0 (R135). -/
def vCondValue (c : VCond) (a b : W32) : Bool :=
  match c with
  | .eq => !isNaN32 a && !isNaN32 b && decide (valueKey a = valueKey b)
  | .ne => isNaN32 a || isNaN32 b || decide (valueKey a ≠ valueKey b)
  | .lt => !isNaN32 a && !isNaN32 b && decide (valueKey a < valueKey b)
  | .le => !isNaN32 a && !isNaN32 b && decide (valueKey a ≤ valueKey b)
  | .ilt => decide (a.toInt < b.toInt)
  | .ieq => decide (a = b)

/-- The width of a packed element (R136). -/
def elemWidth : PackFmt → Nat
  | .b4 => 4 | .b6 => 6 | .b8 => 8 | .b16 => 16 | .mxScales => 8 | .k4Scales => 8

/-- Bit `n` of a vector register as one little-endian string. -/
def regBit (t : Tile) (r : BitVec 6) (n : Nat) : Bool := (laneOf t r (n / 32)).getLsbD (n % 32)

/-- Every bit of `vd` after command `c`: bit `j` of lane `l` is `f` of the tile as it stood; a quarter whose write meets a
drain's value keeps what it held (R52). -/
def WritesBits (c : Instr) (i : Issue) (p : Pred) (o : VOp) (vd : BitVec 6) (f : Tile → Nat → Nat → Bool) : Prop :=
  ∀ s b, IssuesV s i b p o → RegName.v vd.toNat ∉ destsM (runM s i b) →
    ∃ t, exec c s = .next t ∧ ∀ l < 512, ∀ j < 32, (laneOf (tileIn t i.tile) vd l).getLsbD j =
      if MeetsDrain s i (latV o) vd.toNat (l / 128) then (laneOf (tileIn s i.tile) vd l).getLsbD j
      else f (tileIn s i.tile) l j

/-- The rounding of a quantiser's lane: stochastic with the random bits of the lane's coordinates, or under rmode (R138). -/
def quantRound (t : Tile) (fmt : Narrow) (sr : Bool) (grp : BitVec 3) (l : Nat) (v : FVal) : Nat × Bool :=
  if sr then
    srNarrow fmt (srBits t.csr.srKey (readS t.regs (4 * grp.toNat)) (readS t.regs (4 * grp.toNat + 1))
      (readS t.regs (4 * grp.toNat + 2) + BitVec.ofNat 32 l * readS t.regs (4 * grp.toNat + 3))) v
  else convNarrow fmt (tileRmode t) v

/-! ### The mesh, the field stacks and the arbiter -/

/-- The field of `s` at `f`. -/
def fieldIn (s : State) (f : Nat) : Field := fieldOf s.sys.data f

/-- An output with contenders `others` serves traffic of channel `ch` that came from router `a` along `path` to router `b`
(R185). -/
def OutputServes (s : State) (a : Nat) (path : List Nat) (b : Nat) (ch : Channel) (response : Bool)
    (others : List Contender) : Prop :=
  winsOver (look 0 s.sys.data.mesh.served b) ⟨inPort a path, ch, response⟩ others = true

/-! ### Beats, J1, J3 and plumb -/

/-- The module alone: its system is 1 × 1 (R167). -/
def Alone (s : State) : Prop := inSystem s.sys.data = false

/-! ### Scarf engines -/

/-- Engine `e` of `s`. -/
def engineIn (s : State) (e : Nat) : Engine := engineOf s.sys.data e

/-- Training's result in engine `e`: the state reached. -/
def TrainsTo (s : State) (e : EngineIx) (x : TrainFound) (st : ScfState) : Prop :=
  ∃ t, exec (.scarfTrainStateDone e x) s = .next t ∧ (engineIn t e).state = st

/-- Training fails in engine `e` with a cause. -/
def TrainFails (s : State) (e : EngineIx) (x : TrainFound) (cause : BitVec 4) : Prop :=
  ∃ t, exec (.scarfTrainStateDone e x) s = .next t ∧ (engineIn t e).state = .fail ∧ (engineIn t e).failCause = cause

/-- Cycles from engine `e`'s router to tile `ix` (R186). -/
def entryCycles (e ix : Nat) : Nat := pathCycles (attachTile e) (dimPath (attachTile e) ix)

/-! ### Hosts: sessions, run control, loads, transfers, events -/

/-- The message names a session the control block keeps and its sequence has not been answered (R297, R298). -/
def NewMessage (s : State) (m : Msg) : Prop :=
  s.sys.ctrl.on = true ∧ ∃ x, sessionOf s.sys.ctrl m.session = some x ∧ answeredAs x m.seq = none

/-- The response a host just got has this status. -/
def Answered (t : State) (m : Msg) (status : BitVec 16) : Prop :=
  ∃ r, t.sys.ctrl.reply = some r ∧ r.session = m.session ∧ r.resp.seq = m.seq ∧ r.resp.cmdId = m.cmdId ∧
    r.resp.status = status

/-- The ring of a plane. -/
def ringIn (s : State) (p : Plane) : EvRing := match p with | .data => s.sys.data.ring | .control => s.sys.ctrl.ring

/-- R315: an acknowledgement of a plane's events records the wanted sequence and the time of a subscriber, takes a new one
while fewer than 8 are kept, and sends up to 64 records from the wanted sequence on. -/
def AckTaken (ts : W64) (engine addr : Nat) (next : W64) (subscribe : Bool) (r u : EvRing) : Prop :=
  u.recs = r.recs ∧ u.next = r.next ∧
    ((∃ x ∈ r.subs, x.addr = addr) ∨ (subscribe = true ∧ r.subs.length < 8) →
      (⟨addr, engine, next, ts⟩ : Subscriber) ∈ u.subs ∧ u.sent.length ≤ 64 ∧
        u.sent = ((r.recs.filter fun y => decide (next.toNat ≤ y.seq.toNat)).take 64).map eventBytes) ∧
    ((∀ x ∈ r.subs, x.addr ≠ addr) → subscribe = false ∨ 8 ≤ r.subs.length → u = r)

/-- The control session sends a command that is judged at once: its message is new and no verdict is awaited. -/
def FromControl (s : State) (m : Msg) : Prop :=
  NewMessage s m ∧ s.sys.ctrl.control = some m.session ∧ s.sys.ctrl.current = none ∧ s.sys.ctrl.queue = [] ∧
    s.sys.ctrl.journal.length < 4096

/-- The J2 state word shows READY, RUNNING or HELD. -/
def WordRuns (s : State) : Prop :=
  s.sys.ctrl.word.module = .ready ∨ s.sys.ctrl.word.module = .running ∨ s.sys.ctrl.word.module = .held

/-- A run exists to act on. -/
def RunExists (s : State) : Prop :=
  s.sys.ctrl.rc = .armed ∨ s.sys.ctrl.rc = .running ∨ s.sys.ctrl.rc = .held

/-- The command went to Skour as an order request with its op code (R305, R358). -/
def Requests (c : Instr) (s : State) (m : Msg) (op turn : Nat) : Prop :=
  ∃ t x, exec c s = .next t ∧ t.sys.ctrl.orderReq = some ⟨m.cmdId, s.sys.ts, turn, op⟩ ∧ t.sys.ctrl.current = some x ∧
    x.msg = m ∧ x.word = s.sys.ctrl.word

/-- The command was refused with a status and journaled (R304, R307). -/
def RefusedWith (c : Instr) (s : State) (m : Msg) (typ : Nat) (status : BitVec 16) : Prop :=
  ∃ t r, exec c s = .next t ∧ Answered t m status ∧ t.sys.ctrl.orderReq = s.sys.ctrl.orderReq ∧
    t.sys.ctrl.rc = s.sys.ctrl.rc ∧ t.sys.ctrl.journal = s.sys.ctrl.journal ++ [r] ∧ r.sub = typ ∧
    r.value = m.cmdId ∧ r.result = status

/-! ### Power -/

/-- An alarm with a code stands (R490). -/
def AlarmOn (s : State) (code : Nat) : Prop := ∃ a ∈ s.sys.mgmt.bus.alarms, a.code = code

/-- One image was written whole into the copy that did not hold the newest generation (R458). -/
def ImageWritten (before after : List StoreCopy) (values : SMap Nat) (gen : Nat) : Prop :=
  (∃ c ∈ after, c.valid = true ∧ c.values = values ∧ c.gen = gen) ∧
    ∀ k, newest before = some k → after[k]? = before[k]?

/-! ### Valves, pumps and fans -/

/-- Channel `c` of `s`. -/
def chanIn (s : State) (c : Nat) : Chan := chanOf s.sys c

/-! ### The rack bus -/

/-- Channel `c` of the rack bus in `s`. -/
def busIn (s : State) (c : Nat) : BusChan := busOf s.sys c

/-- A frame or datagram left last. -/
def SentLast (t : State) (x : Sent) : Prop := t.sys.mgmt.bus.sent.getLast? = some x

/-! ### The object dictionary -/

/-- The request a dictionary command carries. -/
def reqOf (op : Nat) (q : DictCall) : DictReq :=
  ⟨q.who, q.tag.toNat, op, q.index.toNat, q.sub.toNat, q.total.toNat, q.segment.toNat, q.value⟩

/-- The request reaches Skour, is no repeat, and finds a free transfer (R500, R501). -/
def Reaches (s : State) (target : Nat) (r : DictReq) : Prop :=
  requestHeard target r.who s.sys = true ∧ keptAnswer s.sys r = none ∧ transfersFull (endTransfer r s.sys) r = false

/-- The response that left last answers request `r` with a result code. -/
def Replies (t : State) (r : DictReq) (code : Nat) : Prop :=
  ∃ y, t.sys.mgmt.bus.reply = some y ∧ y.who = r.who ∧ y.tag = r.tag ∧ y.index = r.index ∧ y.sub = r.sub ∧
    y.result = BitVec.ofNat 16 code

/-- A whole write as the request of its last segment. -/
def wholeReq (who : Requester) (tag : BitVec 16) (k : Nat) (bs : List Byte) : DictReq :=
  ⟨who, tag.toNat, if bs.length ≤ 48 then 2 else 6, k / 256, k % 256, bs.length, (bs.length - 1) / 48,
    bs.drop (48 * ((bs.length - 1) / 48))⟩

/-- A whole write passes every check of R514: it reaches Skour, has the entry's length, and its requester may write what it
writes. -/
def WriteAccepted (s : State) (target : Fin 32) (who : Requester) (tag : BitVec 16) (k : Nat) (bs : List Byte) : Prop :=
  Reaches s target (wholeReq who tag k bs) ∧ (∃ e, entryOf k = some e ∧ e.len = bs.length) ∧
    mayWrite (levelOf s.sys who) k = true ∧ valueRefusal s.sys k (leNat bs) = 0

/-- The confirmation of a pending write passes every check: its requester's pending write of entry `k` stands in its window
with this challenge, and Sill agrees. -/
def ConfirmAccepted (s : State) (target : Fin 32) (who : Requester) (tag : BitVec 16) (challenge : W32)
    (complement : W64) (k v : Nat) : Prop :=
  ∃ p e, pendingOf s.sys (k / 256) (k % 256) = some p ∧ sameWho p.who who = true ∧ p.value = v ∧ entryOf k = some e ∧
    Reaches s target ⟨who, tag.toNat, 4, k / 256, k % 256, e.len, 0, natLe 4 challenge.toNat ++ natLe 8 complement.toNat⟩ ∧
    mayWrite (levelOf s.sys who) k = true ∧ valueRefusal s.sys k v = 0 ∧ inWindow s.sys p.at_ = true ∧
    challenge = p.challenge ∧ complement = ~~~(BitVec.ofNat 64 v) ∧ safetyRefusal s.sys k v = 0 ∧
    sillAgrees s.sys (k / 256) (k % 256) v challenge complement = true

/-! ### Sill -/

/-- A function of Sill has acted: its count rises and HALT stands on J3 (R537, R551). -/
def Acted (s t : State) (fn : Nat) : Prop :=
  look 0 t.sys.sill.acts fn = look 0 s.sys.sill.acts fn + 1 ∧ t.sys.sill.halt = true

/-- No agreement of Sill was given in the present SFCLK cycle, so a trigger withholds none (R553). -/
def NoneWithheld (s : State) : Prop := ∀ p, s.sys.sill.exited = some p → p.1 ≠ s.sys.sf

/-- The module is in the state the safe-stop latch forces. -/
def SafeStopped (s t : State) : Prop :=
  t.sys.sill.safeStop = true ∧ (forcedState s.sys = none → NoneWithheld s →
    t.sys.mgmt.module = if inletClosed s.sys then .safeStop else .off)

/-- The inlet is open and Sill refuses to close it. -/
def InletLocked (t : State) : Prop := t.sys.sill.inletLock = true ∧ t.sys.sill.ssd = .opened

/-- A trigger of SF-2 or SF-3 stands. -/
def TriggerStands (s : State) : Prop :=
  (∃ det at_, s.sys.sill.watch.stop = some (det, at_) ∧ 2000000000 ≤ sinceSf s.sys at_) ∨
    2 ≤ s.sys.sill.hotTile ∨ 2 ≤ s.sys.sill.hotStack

end Sys2Proof.Machine

section

open Sys2Proof Sys2Proof.Machine

/-! ### The C slot -/

/-- The C slot's arithmetic and compares write their destination, and only what R97 lets them write. R106: what each scalar
operation of the C slot writes. R106, R97: CMP, CMPI and PLOG write their predicate, and p0 stays 1. -/
def Obligations.ScalarOpsAndComparesWriteTheirResult : Prop :=
  (∀ (i : Issue) (p : Pred) (sd sa sb : BitVec 5),
    (∀ f, WritesScalarC (.alu i p sd sa sb f) i p (.alu sd sa sb f) sd
      fun t => aluValue f (readS t.regs sa.toNat) (readS t.regs sb.toNat)) ∧
    (∀ imm : BitVec 12,
      (WritesScalarC (.addi i p sd sa imm) i p (.addi sd sa imm) sd
        fun t => BitVec.ofInt 32 ((readS t.regs sa.toNat).toInt + imm.toInt)) ∧
      (WritesScalarC (.andi i p sd sa imm) i p (.andi sd sa imm) sd
        fun t => readS t.regs sa.toNat &&& BitVec.ofNat 32 imm.toNat) ∧
      (WritesScalarC (.ori i p sd sa imm) i p (.ori sd sa imm) sd
        fun t => readS t.regs sa.toNat ||| BitVec.ofNat 32 imm.toNat) ∧
      (WritesScalarC (.xori i p sd sa imm) i p (.xori sd sa imm) sd
        fun t => readS t.regs sa.toNat ^^^ BitVec.ofNat 32 imm.toNat) ∧
      (WritesScalarC (.muli i p sd sa imm) i p (.muli sd sa imm) sd
        fun t => BitVec.ofInt 32 ((readS t.regs sa.toNat).toInt * imm.toInt))) ∧
    (∀ k : BitVec 5,
      (WritesScalarC (.shli i p sd sa k) i p (.shli sd sa k) sd
        fun t => BitVec.ofNat 32 ((readS t.regs sa.toNat).toNat * 2 ^ k.toNat)) ∧
      (WritesScalarC (.shri i p sd sa k) i p (.shri sd sa k) sd
        fun t => BitVec.ofNat 32 ((readS t.regs sa.toNat).toNat / 2 ^ k.toNat)) ∧
      (WritesScalarC (.srai i p sd sa k) i p (.srai sd sa k) sd
        fun t => BitVec.ofInt 32 ((readS t.regs sa.toNat).toInt / 2 ^ k.toNat))) ∧
    (∀ imm : BitVec 16,
      (WritesScalarC (.movl i p sd imm) i p (.movl sd imm) sd fun _ => BitVec.ofNat 32 imm.toNat) ∧
      (WritesScalarC (.movh i p sd imm) i p (.movh sd imm) sd
        fun t => BitVec.ofNat 32 (imm.toNat * 2 ^ 16 + (readS t.regs sd.toNat).toNat % 2 ^ 16)))) ∧
  (∀ (i : Issue) (p : Pred) (pd pa pb : BitVec 3) (sa sb : BitVec 5) (imm : BitVec 11),
    (∀ c, WritesPredC (.cmp i p pd sa sb c) i p (.cmp pd sa sb c) pd
      fun t => condValue c (readS t.regs sa.toNat) (readS t.regs sb.toNat)) ∧
    (∀ c, WritesPredC (.cmpi i p pd sa c imm) i p (.cmpi pd sa c imm) pd
      fun t => condValue c (readS t.regs sa.toNat) (BitVec.ofInt 32 imm.toInt)) ∧
    (WritesPredC (.plog i p pd pa pb .and) i p (.plog pd pa pb .and) pd fun t => readP t.regs pa.toNat && readP t.regs pb.toNat) ∧
    (WritesPredC (.plog i p pd pa pb .or) i p (.plog pd pa pb .or) pd fun t => readP t.regs pa.toNat || readP t.regs pb.toNat) ∧
    (WritesPredC (.plog i p pd pa pb .xor) i p (.plog pd pa pb .xor) pd
      fun t => decide (readP t.regs pa.toNat ≠ readP t.regs pb.toNat)) ∧
    (WritesPredC (.plog i p pd pa pb .andn) i p (.plog pd pa pb .andn) pd
      fun t => readP t.regs pa.toNat && !readP t.regs pb.toNat))

/-- Branches and loop commands go where R107, R108 and R110 say; every other bundle follows the loop stack (R109). R107,
R108, R110: branches, JAL's link, loops and LPOP. R109: after a bundle without a taken branch, a loop that ends at it
returns to its start while it has passes left, and is removed when it has none; with no loop that ends there the next
address is one more. -/
def Obligations.BranchesLoopsAndTheNextAddress : Prop :=
  ((∀ (i : Issue) (p : Pred) (sd : BitVec 5) (target : BitVec 14), WritesScalarC (.jal i p sd target) i p (.jal sd target) sd
    fun t => BitVec.ofNat 32 (t.seq.pc + 1)) ∧
  ∀ (s : State) (i : Issue) (b : Bun) (p : Pred),
    (∀ target : BitVec 14, IssuesC s i b p (.br target) →
      GoesTo (.br i p target) s i.tile target.toNat (tileIn s i.tile).regs.loops) ∧
    (∀ (sd : BitVec 5) (target : BitVec 14), IssuesC s i b p (.jal sd target) →
      GoesTo (.jal i p sd target) s i.tile target.toNat (tileIn s i.tile).regs.loops) ∧
    (∀ sa : BitVec 5, IssuesC s i b p (.jr sa) →
      GoesTo (.jr i p sa) s i.tile ((readS (tileIn s i.tile).regs sa.toNat).toNat % 2 ^ 14) (tileIn s i.tile).regs.loops) ∧
    (∀ (sc : BitVec 5) (stop : BitVec 14), IssuesC s i b p (.loop sc stop) →
      GoesTo (.loop i p sc stop) s i.tile
        (if readS (tileIn s i.tile).regs sc.toNat = 0 then stop.toNat + 1 else (tileIn s i.tile).seq.pc + 1)
        (if readS (tileIn s i.tile).regs sc.toNat = 0 then (tileIn s i.tile).regs.loops else
          ⟨BitVec.ofNat 14 ((tileIn s i.tile).seq.pc + 1), stop, (readS (tileIn s i.tile).regs sc.toNat).toNat⟩ ::
            (tileIn s i.tile).regs.loops)) ∧
    (∀ (count : BitVec 8) (stop : BitVec 14), IssuesC s i b p (.loopi count stop) →
      GoesTo (.loopi i p count stop) s i.tile
        (if count = 0 then stop.toNat + 1 else (tileIn s i.tile).seq.pc + 1)
        (if count = 0 then (tileIn s i.tile).regs.loops else
          ⟨BitVec.ofNat 14 ((tileIn s i.tile).seq.pc + 1), stop, count.toNat⟩ :: (tileIn s i.tile).regs.loops)) ∧
    (IssuesC s i b p .lpop → NoLoopEnd (tileIn s i.tile).seq.pc (tileIn s i.tile).regs.loops.tail →
      GoesTo (.lpop i p) s i.tile ((tileIn s i.tile).seq.pc + 1) (tileIn s i.tile).regs.loops.tail)) ∧
  (∀ (c : Instr) (s : State) (i : Issue) (b : Bun), Drives c i b → Issues s i b → goesOn (runC s i b) = true →
    let pc := (tileIn s i.tile).seq.pc
    let ls := (tileIn s i.tile).regs.loops
    (NoLoopEnd pc ls.head?.toList → GoesTo c s i.tile (pc + 1) ls) ∧
    (∀ done e rest, ls = done ++ e :: rest → (∀ d ∈ done, d.stop.toNat = pc ∧ d.left ≤ 1) → e.stop.toNat = pc → 1 < e.left →
      GoesTo c s i.tile e.start.toNat ({ e with left := e.left - 1 } :: rest)) ∧
    (∀ done rest, ls = done ++ rest → (∀ d ∈ done, d.stop.toNat = pc ∧ d.left ≤ 1) → NoLoopEnd pc rest.head?.toList →
      GoesTo c s i.tile (pc + 1) rest))

/-- R111, R112, R113, R55: CSR access through a register pair, SIG, and BEAT, which waits to retire. -/
def Obligations.CsrAccessSignalAndBeat : Prop :=
  ∀ (s : State) (i : Issue) (b : Bun) (p : Pred),
    (∀ (pair : BitVec 4) (idx : BitVec 13), IssuesC s i b p (.csrr pair idx) →
      RegName.s (2 * pair.toNat) ∉ destsM (runM s i b) → RegName.s (2 * pair.toNat + 1) ∉ destsM (runM s i b) →
      let v := csrRead (ctxOf (envOf s.sys) s.sys.data i.tile) i.tile (tileReady s i) (8 * idx.toNat)
      ∃ t, exec (.csrr i p pair idx) s = .next t ∧
        (readS (tileIn t i.tile).regs (2 * pair.toNat)).toNat = (if pair = 0 then 0 else v.toNat % 2 ^ 32) ∧
        (readS (tileIn t i.tile).regs (2 * pair.toNat + 1)).toNat = v.toNat / 2 ^ 32) ∧
    (∀ (pair : BitVec 4) (n : Fin 8), IssuesC s i b p (.csrw pair (BitVec.ofNat 13 (0x20 + n.val))) →
      ∃ t, exec (.csrw i p pair (BitVec.ofNat 13 (0x20 + n.val))) s = .next t ∧
        (look 0 (tileIn t i.tile).csr.mailbox n).toNat =
          (readS (tileIn s i.tile).regs (2 * pair.toNat + 1)).toNat * 2 ^ 32 +
            (readS (tileIn s i.tile).regs (2 * pair.toNat)).toNat) ∧
    (IssuesC s i b p .sig → ∃ t, exec (.sig i p) s = .next t ∧ (tileIn t i.tile).csr.intStatus.getLsbD 13 = true) ∧
    (IssuesC s i b p .beat → ∃ t, exec (.beat i p) s = .next t ∧ (tileIn t i.tile).seq.beatAt = some (i.cycle + 1) ∧
      (tileIn t i.tile).tstate = .issue) ∧
    (∀ (ix : TileIx) (cycle first : Nat), (tileIn s ix).tstate = .issue → (tileIn s ix).seq.beatAt = some first →
      workDone cycle (tileIn s ix) = true → first ≤ cycle →
      ∃ t, exec (.beatRetire ix cycle) s = .next t ∧ (tileIn t ix).tstate = .wait ∧ (tileIn t ix).seq.beatAt = none ∧
        (tileIn t ix).seq.lastDone = cycle)

/-! ### Bundles -/

/-- R94: every slot command but NOP issues the bundle that holds its operation, under its predicate, in its slot. -/
def Obligations.SlotCommandsIssueTheirBundle : Prop :=
  ∀ (i : Issue) (p : Pred) (b : Bun),
    (∀ o, o ≠ .nop → b.c = ⟨p, .op o⟩ → Drives (commandC i p o) i b) ∧
    (∀ o, o ≠ .nop → b.m = ⟨p, .op o⟩ → Drives (commandM i p o) i b) ∧
    (∀ o, o ≠ .nop → b.t = ⟨p, .op o⟩ → Drives (commandT i p o) i b) ∧
    (∀ o, o ≠ .nop → b.v = ⟨p, .op o⟩ → Drives (commandV i p o) i b)

/-- R95, R100: a bundle whose slots hold NOP or are suppressed goes on to the next address and writes no register, no store
byte and no truss; the NOP command issues such a bundle like any slot command. -/
def Obligations.NopAndSuppressedSlotsWriteNothing : Prop :=
  (∀ (s : State) (i : Issue) (b : Bun) (c : Instr), Drives c i b → Issues s i b → RunsNothing s i b →
    NoLoopEnd (tileIn s i.tile).seq.pc (tileIn s i.tile).regs.loops.head?.toList →
    ∃ t, exec c s = .next t ∧ (tileIn t i.tile).seq.pc = (tileIn s i.tile).seq.pc + 1 ∧
      (tileIn t i.tile).regs = (tileIn s i.tile).regs ∧ (tileIn t i.tile).store = (tileIn s i.tile).store ∧
      (tileIn t i.tile).truss0 = (tileActed s i).truss0 ∧ (tileIn t i.tile).truss1 = (tileActed s i).truss1) ∧
  ∀ (s : State) (i : Issue) (b : Bun) (slot : SlotId), Issues s i b → emptySlot slot b = true → RunsNothing s i b →
    NoLoopEnd (tileIn s i.tile).seq.pc (tileIn s i.tile).regs.loops.head?.toList →
    ∃ t, exec (.nop i slot) s = .next t ∧ (tileIn t i.tile).seq.pc = (tileIn s i.tile).seq.pc + 1 ∧
      (tileIn t i.tile).regs = (tileIn s i.tile).regs

/-- R96, R100, R60: a tile that may issue, at a bundle with a reserved opcode or an executing reserved field value, takes
fault cause 0x03 and stops: FAULT, its cause and address captured, its int_status bit 18 set, registers and store kept. -/
def Obligations.ReservedEncodingsFault : Prop :=
  ∀ (s : State) (i : Issue) (b : Bun) (c : Instr), Drives c i b → tileOn s.sys.data i.tile = true →
    mayIssue (tileReady s i) = true → i.err.imemUncorr = false → (fetched (tileReady s i)).map decodeBundle = some b →
    ChunksRead s i →
    (ReservedSlot (tileIn s i.tile).regs b.c ∨ ReservedSlot (tileIn s i.tile).regs b.m ∨
      ReservedSlot (tileIn s i.tile).regs b.t ∨ ReservedSlot (tileIn s i.tile).regs b.v) →
    ∃ t, exec c s = .next t ∧ (tileIn t i.tile).tstate = .fault ∧ (tileIn t i.tile).csr.faultCause = 3 ∧
      (tileIn t i.tile).csr.faultPc.toNat = (tileIn s i.tile).seq.pc % 2 ^ 14 ∧
      (tileIn t i.tile).csr.intStatus.getLsbD 18 = true ∧
      (tileIn t i.tile).regs = (tileIn s i.tile).regs ∧ (tileIn t i.tile).store = (tileIn s i.tile).store

/-- The frame of the slot commands, in registers and in the store. The frame of every slot command: a register that no
executing slot of the bundle names as its destination is unchanged; every other tile, the queue, the control plane, the
management plane and Sill are unchanged. The store is unchanged by a bundle whose M slot does not store; with STS or STV
every byte outside the word or the 512 B per quarter that it names is unchanged. -/
def Obligations.SlotCommandsChangeOnlyTheirTargets : Prop :=
  (∀ (s t : State) (i : Issue) (b : Bun) (c : Instr), Drives c i b → Issues s i b → exec c s = .next t →
    (∀ n, RegName.s n ∉ destsOf s i b → readS (tileIn t i.tile).regs n = readS (tileIn s i.tile).regs n) ∧
    (∀ n, RegName.p n ∉ destsOf s i b → readP (tileIn t i.tile).regs n = readP (tileIn s i.tile).regs n) ∧
    (∀ n, RegName.a n ∉ destsOf s i b → readA (tileIn t i.tile).regs n = readA (tileIn s i.tile).regs n) ∧
    (∀ n, RegName.v n ∉ destsOf s i b → readV (tileIn t i.tile).regs n = readV (tileIn s i.tile).regs n) ∧
    (∀ n, n ≠ i.tile.val → tileIn t n = tileIn s n) ∧
    t.pending = s.pending ∧ t.sys.ts = s.sys.ts ∧ t.sys.sf = s.sys.sf ∧ t.sys.ctrl = s.sys.ctrl ∧ t.sys.mgmt = s.sys.mgmt ∧
    t.sys.sill = s.sys.sill) ∧
  (∀ (s t : State) (i : Issue) (b : Bun) (c : Instr), Drives c i b → Issues s i b → exec c s = .next t →
    (storesM (runM s i b) = false → (tileIn t i.tile).store = (tileIn s i.tile).store) ∧
    (∀ ss aB imm, runM s i b = .sts ss aB imm → ∀ a,
      (a < wordAddr (tileIn s i.tile) aB imm ∨ wordAddr (tileIn s i.tile) aB imm + 4 ≤ a) →
      readByte (tileIn t i.tile).store a = readByte (tileIn s i.tile).store a) ∧
    (∀ vs aB sz imm, runM s i b = .stv vs aB sz imm → ∀ a,
      (∀ q ∈ szQuarters sz, a < vecAddr (tileIn s i.tile) aB imm q.2 ∨ vecAddr (tileIn s i.tile) aB imm q.2 + 512 ≤ a) →
      readByte (tileIn t i.tile).store a = readByte (tileIn s i.tile).store a))

/-! ### The M slot -/

/-- The M slot's loads, stores and address operations. R116: LDS, AGET and VEXT into scalar registers; AADDI, AADD and AMOV
into address registers. R116, R118: LDV loads a quarter, or the whole register, lane by lane from the 64 B-aligned address;
STV stores it; STS stores a word. -/
def Obligations.LoadsStoresAndAddressOps : Prop :=
  (∀ (i : Issue) (p : Pred),
    (∀ sd aB (imm : BitVec 13), WritesScalarM (.lds i p sd aB imm) i p (.lds sd aB imm) sd
      fun t => BitVec.ofNat 32 (wordAt t.store (alignedAt t.regs aB (4 * imm.toInt) 2))) ∧
    (∀ sd aS hi, WritesScalarM (.aget i p sd aS hi) i p (.aget sd aS hi) sd
      fun t => BitVec.ofNat 32 (if hi then (readA t.regs aS.toNat).toNat / 2 ^ 32 else (readA t.regs aS.toNat).toNat)) ∧
    (∀ sd vs (l : BitVec 9), WritesScalarM (.vext i p sd vs l) i p (.vext sd vs l) sd
      fun t => lane (readV t.regs vs.toNat) l.toNat) ∧
    (∀ ad aS (imm : BitVec 14), WritesAddrM (.aaddi i p ad aS imm) i p (.aaddi ad aS imm) ad
      fun r => (readA r aS.toNat).toNat + imm.toInt) ∧
    (∀ ad aS ss sh, WritesAddrM (.aadd i p ad aS ss sh) i p (.aadd ad aS ss sh) ad
      fun r => (readA r aS.toNat).toNat + (readS r ss.toNat).toInt * 2 ^ sh.toNat) ∧
    (∀ ad sl sh, WritesAddrM (.amov i p ad sl sh) i p (.amov ad sl sh) ad
      fun r => ((readS r sh.toNat).toNat % 2 ^ 16 * 2 ^ 32 + (readS r sl.toNat).toNat : Nat))) ∧
  (∀ (s : State) (i : Issue) (b : Bun) (p : Pred),
    (∀ vd aB (imm : BitVec 9) (q : BitVec 2), IssuesM s i b p (.ldv vd aB (.quarter q) imm) →
      RegName.v vd.toNat ∉ destsV (runV s i b) →
      ∃ t, exec (.ldv i p vd aB (.quarter q) imm) s = .next t ∧ ∀ l < 512,
        lane (readV (tileIn t i.tile).regs vd.toNat) l =
          if l / 128 = q.toNat ∧ MeetsDrain s i 5 vd.toNat q.toNat = false then BitVec.ofNat 32 (wordAt (tileIn s i.tile).store
            (alignedAt (tileIn s i.tile).regs aB (512 * imm.toInt) 6 + 4 * (l % 128)))
          else lane (readV (tileIn s i.tile).regs vd.toNat) l) ∧
    (∀ vd aB (imm : BitVec 9), IssuesM s i b p (.ldv vd aB .full imm) → RegName.v vd.toNat ∉ destsV (runV s i b) →
      ∃ t, exec (.ldv i p vd aB .full imm) s = .next t ∧ ∀ l < 512,
        lane (readV (tileIn t i.tile).regs vd.toNat) l =
          if MeetsDrain s i 8 vd.toNat (l / 128) = false then BitVec.ofNat 32 (wordAt (tileIn s i.tile).store
            (alignedAt (tileIn s i.tile).regs aB (512 * imm.toInt) 6 + 4 * l))
          else lane (readV (tileIn s i.tile).regs vd.toNat) l) ∧
    (∀ vs aB (imm : BitVec 9) (q : BitVec 2), IssuesM s i b p (.stv vs aB (.quarter q) imm) →
      ∃ t, exec (.stv i p vs aB (.quarter q) imm) s = .next t ∧ ∀ l < 128,
        wordAt (tileIn t i.tile).store (alignedAt (tileIn s i.tile).regs aB (512 * imm.toInt) 6 + 4 * l) =
          (lane (readV (tileIn s i.tile).regs vs.toNat) (128 * q.toNat + l)).toNat) ∧
    (∀ vs aB (imm : BitVec 9), IssuesM s i b p (.stv vs aB .full imm) →
      ∃ t, exec (.stv i p vs aB .full imm) s = .next t ∧ ∀ l < 512,
        wordAt (tileIn t i.tile).store (alignedAt (tileIn s i.tile).regs aB (512 * imm.toInt) 6 + 4 * l) =
          (lane (readV (tileIn s i.tile).regs vs.toNat) l).toNat) ∧
    (∀ ss aB (imm : BitVec 13), IssuesM s i b p (.sts ss aB imm) →
      ∃ t, exec (.sts i p ss aB imm) s = .next t ∧
        wordAt (tileIn t i.tile).store (alignedAt (tileIn s i.tile).regs aB (4 * imm.toInt) 2) =
          (readS (tileIn s i.tile).regs ss.toNat).toNat))

/-- R132, R45: WFILL copies `sn` units of 512 B from the store into the inactive buffer of its truss from unit `so` and
holds the M port until its last unit; WFILL_DONE ends that. -/
def Obligations.FillsWriteTheInactiveBuffer : Prop :=
  ∀ (s : State) (i : Issue) (b : Bun) (p : Pred) (one : Bool),
    (∀ (k : FillKind) (aS : BitVec 4) (sU : BitVec 5), IssuesM s i b p (.wfill one k aS sU) →
      let so := (readS (tileIn s i.tile).regs sU.toNat).toNat % 2 ^ 9
      let sn := (readS (tileIn s i.tile).regs sU.toNat).toNat / 2 ^ 16 % 2 ^ 10
      let old := trussOf (tileActed s i) one
      ∃ t, exec (.wfill i p one k aS sU) s = .next t ∧
        (sn = 0 → (trussOf (tileIn t i.tile) one).filling = old.filling ∧
          (trussOf (tileIn t i.tile) one).bufA = old.bufA ∧ (trussOf (tileIn t i.tile) one).bufB = old.bufB) ∧
        (sn ≠ 0 → (trussOf (tileIn t i.tile) one).filling = true ∧
          ∀ n < 512 * sn, readByte (fillTarget k (idleBuf old (trussOf (tileIn t i.tile) one))) (512 * so + n) =
            readByte (tileIn s i.tile).store (alignedAt (tileIn s i.tile).regs aS 0 6 + n))) ∧
    (∀ ix : TileIx, tileOn s.sys.data ix = true → ∃ t, exec (.wfillDone ix one) s = .next t ∧
      trussOf (tileIn t ix) one = { trussOf (tileIn s ix) one with filling := false })

/-- SARM and UREQ, and the completion of a transfer. R119, R120: SARM arms its tag with the store address and, with ur, the
stack offset; a SARM whose slot cycle has come is late: it arms nothing and sets late_arm in its field. R122, R123: UREQ
takes the smallest free transfer number and reads its 32 B descriptor at aD; a transfer that is done writes its completion
word and ends. -/
def Obligations.TransfersAreArmedTakenAndCompleted : Prop :=
  (∀ (s : State) (i : Issue) (b : Bun) (p : Pred) (aL : BitVec 4) (tag : BitVec 12) (ur : Bool) (aR : BitVec 4),
    IssuesM s i b p (.sarm aL tag ur aR) →
    ∃ t, exec (.sarm i p aL tag ur aR) s = .next t ∧
      (i.cycle + 1 < schedSlot (look 0 (tileReady s i).xfer.sched tag.toNat) →
        look none (tileIn t i.tile).xfer.armed tag.toNat =
          some ⟨readA (tileIn s i.tile).regs aL.toNat,
            if ur then some (alignedAt (tileIn s i.tile).regs aR 0 6 - 0x1000000000) else none, 0⟩) ∧
      (schedSlot (look 0 (tileReady s i).xfer.sched tag.toNat) ≤ i.cycle + 1 →
        (tileIn t i.tile).xfer.armed = (tileReady s i).xfer.armed ∧
        (fieldOf t.sys.data (tileField i.tile)).intStatus.getLsbD 2 = true)) ∧
  ((∀ (s : State) (i : Issue) (b : Bun) (p : Pred) (aD : BitVec 4), IssuesM s i b p (.ureq aD) →
    ∃ t u, exec (.ureq i p aD) s = .next t ∧ (tileIn t i.tile).xfer.ureqs = (tileReady s i).xfer.ureqs ++ [u] ∧
      (∀ v ∈ (tileReady s i).xfer.ureqs, v.id ≠ u.id) ∧
      (∀ n < u.id, ∃ v ∈ (tileReady s i).xfer.ureqs, v.id = n) ∧
      u.moved = 0 ∧
      let a := alignedAt (tileIn s i.tile).regs aD 0 5
      let m := (tileIn s i.tile).store
      u.remote.toNat = wordAt m a + 2 ^ 32 * wordAt m (a + 4) ∧
      u.kind = readByte m (a + 15) ∧
      u.len = 64 * ((readByte m (a + 12)).toNat + 2 ^ 8 * (readByte m (a + 13)).toNat + 1) ∧
      u.cvalue = BitVec.ofNat 32 (wordAt m (a + 28))) ∧
  ∀ (s : State) (ix : TileIx) (id : Fin 16) (u : Ureq),
    (tileIn s ix).xfer.ureqs.find? (fun v => v.id = id.val) = some u → (u.len ≤ u.moved ∨ u.status = 1) →
    (∀ q ∈ s.sys.data.mesh.packets, q.data = none → q.tile = ix.val → q.id ≠ id.val) →
    ∃ t, exec (.ureqCompletion ix id) s = .next t ∧
      wordAt (tileIn t ix).store u.coff.toNat = u.status.toNat ∧
      wordAt (tileIn t ix).store (u.coff.toNat + 4) = u.cvalue.toNat ∧
      (∀ v ∈ (tileIn t ix).xfer.ureqs, v.id ≠ id.val) ∧
      ∀ a, (a < u.coff.toNat ∨ u.coff.toNat + 8 ≤ a) →
        readByte (tileIn t ix).store a = readByte (tileIn s ix).store a)

/-- R215, R216: an XSND below its class's capacity is carried with its sender's rank and its index; above it the record is
deferred where its class defers and the 64 places are not full, and is dropped otherwise; xchg_limit is set. -/
def Obligations.ExchangeSendsAreBoundedByCapacity : Prop :=
  ∀ (s : State) (i : Issue) (b : Bun) (p : Pred) (aS : BitVec 4) (sD : BitVec 5) (cls : BitVec 4) (len : BitVec 2),
    IssuesM s i b p (.xsnd aS sD cls len) →
    let x := xclassOf (tileReady s i) cls.toNat
    let n := look 0 (tileReady s i).xfer.issuedX cls.toNat
    ∃ t r, exec (.xsnd i p aS sD cls len) s = .next t ∧ look 0 (tileIn t i.tile).xfer.issuedX cls.toNat = n + 1 ∧
      r.cls = cls ∧ r.data = readBytes (tileIn s i.tile).store (alignedAt (tileIn s i.tile).regs aS 0 6)
        (64 * 2 ^ len.toNat) ∧
      (n < x.cap → (tileIn t i.tile).xfer.deferred = (tileReady s i).xfer.deferred ∧
        ∃ f, t.sys.data.mesh.xrecs = s.sys.data.mesh.xrecs ++ [f] ∧ f.record = r ∧ f.rank = x.rank ∧ f.index = n) ∧
      (x.cap ≤ n → t.sys.data.mesh.xrecs = s.sys.data.mesh.xrecs ∧ (tileIn t i.tile).csr.intStatus.getLsbD 7 = true ∧
        (tileIn t i.tile).xfer.deferred =
          if x.defer ∧ (tileReady s i).xfer.deferred.length < 64 then (tileReady s i).xfer.deferred ++ [r]
          else (tileReady s i).xfer.deferred)

/-! ### The T slot -/

/-- R127, R128, R129, R45, R133: TCFG sets its truss's configuration; TROW latches its batch, of which an idle truss reads
the first chunk at once, and which on a busy one waits as the pending batch until the active batch has read its last chunk;
TSWP exchanges the buffers; TDRN orders its drains quarter by quarter, one a cycle. -/
def Obligations.TrussCommands : Prop :=
  ∀ (s : State) (i : Issue) (b : Bun) (p : Pred) (one : Bool),
    (∀ sa sb, IssuesT s i b p (.tcfg one sa sb) → ∃ t, exec (.tcfg i p one sa sb) s = .next t ∧
      (trussOf (tileIn t i.tile) one).cfg.toNat =
        (readS (tileIn s i.tile).regs sb.toNat).toNat * 2 ^ 32 + (readS (tileIn s i.tile).regs sa.toNat).toNat) ∧
    (∀ aA aS sS (cnt : BitVec 8), IssuesT s i b p (.trow one aA aS sS cnt) →
      let u := trussOf (tileReady s i) one
      let rows := if cnt = 0 then 256 else cnt.toNat
      let batch : Batch := ⟨u.cfg, readA (tileIn s i.tile).regs aA.toNat, readA (tileIn s i.tile).regs aS.toNat,
        readS (tileIn s i.tile).regs sS.toNat, rows, 0⟩
      let read := (rowNow u).chunks.length + 1
      ∃ t, exec (.trow i p one aA aS sS cnt) s = .next t ∧
        (u.active = none → classOf u.cfg ≠ none →
          (read < rowChunks u.cfg → (trussOf (tileIn t i.tile) one).active = some batch ∧
            ∃ r, (trussOf (tileIn t i.tile) one).row = some r ∧ r.chunks.length = read) ∧
          (rowChunks u.cfg ≤ read → (trussOf (tileIn t i.tile) one).inflight.length = u.inflight.length + 1 ∧
            (1 < rows → (trussOf (tileIn t i.tile) one).active = some { batch with started := 1 }))) ∧
        (u.active ≠ none →
          let now := (trussOf (tileActed s i) one).active
          (now = none → (trussOf (tileIn t i.tile) one).active = some batch) ∧
          (now ≠ none → (trussOf (tileIn t i.tile) one).pending = some batch ∧
            (trussOf (tileIn t i.tile) one).active = now))) ∧
    (IssuesT s i b p (.tswp one) → ∃ t, exec (.tswp i p one) s = .next t ∧
      (trussOf (tileIn t i.tile) one).activeB = !(trussOf (tileIn s i.tile) one).activeB) ∧
    (∀ vd q cnt, IssuesT s i b p (.tdrn one vd q cnt) → ∃ t, exec (.tdrn i p one vd q cnt) s = .next t ∧
      (trussOf (tileIn t i.tile) one).drains.length = cnt.toNat + 1 ∧
      ∀ k ≤ cnt.toNat, (trussOf (tileIn t i.tile) one).drains[k]? =
        some ⟨(vd.toNat + (q.toNat + k) / 4) % 64, (q.toNat + k) % 4, i.cycle + k⟩)

/-- R47, R49, R48, R50: a row that completes enters the output queue while it holds fewer than eight rows, and stops the
truss when it is full; a drain whose time has come moves the oldest queued row into its quarter, unless a slot's write that
completes later stands there (R103), and one that completes in the same cycle is discarded with vreg_clash (R52); a drain
with no row queued or in flight is fatal fault 0x05. -/
def Obligations.RowsAndDrains : Prop :=
  ∀ (s : State) (ix : TileIx) (one : Bool) (cycle : Nat), tileOn s.sys.data ix = true →
    let u := trussOf (tileIn s ix) one
    (∀ row rest, u.inflight = row :: rest → ∃ t, exec (.trussRowComplete ix one cycle) s = .next t ∧
      (u.queue.length < 8 → (trussOf (tileIn t ix) one).queue = u.queue ++ [row] ∧
        (trussOf (tileIn t ix) one).inflight = rest) ∧
      (8 ≤ u.queue.length → (trussOf (tileIn t ix) one).blocked = true ∧
        (trussOf (tileIn t ix) one).queue = u.queue)) ∧
    (∀ d ds row rest, u.drains = d :: ds → u.queue = row :: rest → d.quarter < 4 → d.start ≤ cycle →
      let stands := slotPends (tileIn s ix) (.q d.reg d.quarter) (cycle + 2 < ·)
      ∃ t, exec (.trussDrain ix one cycle) s = .next t ∧
        (trussOf (tileIn t ix) one).queue = rest ∧ (trussOf (tileIn t ix) one).drains.length = ds.length ∧
        (∀ l < 512, lane (readV (tileIn t ix).regs d.reg) l =
          if l / 128 = d.quarter ∧ stands = false then lane row (l % 128) else lane (readV (tileIn s ix).regs d.reg) l) ∧
        (∀ n, n ≠ d.reg → readV (tileIn t ix).regs n = readV (tileIn s ix).regs n) ∧
        (slotPends (tileIn s ix) (.q d.reg d.quarter) (· = cycle + 2) = true →
          (tileIn t ix).csr.intStatus.getLsbD 2 = true)) ∧
    (∀ d ds, u.drains = d :: ds → cycle < d.start → ∃ t, exec (.trussDrain ix one cycle) s = .next t ∧
      tileIn t ix = tileIn s ix) ∧
    (∀ d ds, u.drains = d :: ds → d.start ≤ cycle → u.queue = [] → rowsInFlight u = false → (tileIn s ix).tstate ≠ .fault →
      ∃ t, exec (.trussDrain ix one cycle) s = .next t ∧ (tileIn t ix).tstate = .fault ∧
        (tileIn t ix).csr.faultCause = 5)

/-! ### The V slot and the arithmetic -/

/-- The V slot's arithmetic, selects, compares, packs and unpacks. R134: VFP, VFN, VSEL, VSPLAT, VIOTA, VPERM and VROT, lane
by lane. R135, R134: VCMP writes all ones or zero in each lane; VCMPP writes the OR, or with `all` the AND, of the lanes.
R136: VPACK lays the low bits of the lanes, or the scale bytes of the blocks, from byte 0 and zeros the rest; VUNPK takes
them out again, zero-extended. -/
def Obligations.VectorOpsComparesAndPacksWriteTheirLanes : Prop :=
  (∀ (i : Issue) (p : Pred) (vd va vb : BitVec 6),
    (∀ f, WritesLanes (.vfp i p vd va vb f) i p (.vfp vd va vb f) vd
      fun t l => vfpLane (tileRmode t) f (laneOf t va l) (laneOf t vb l) (laneOf t vd l)) ∧
    (WritesLanes (.vfn i p vd va .exp2) i p (.vfn vd va .exp2) vd fun t l => exp2F (laneOf t va l)) ∧
    (WritesLanes (.vfn i p vd va .rcp) i p (.vfn vd va .rcp) vd fun t l => rcpF (tileRmode t) (laneOf t va l)) ∧
    (WritesLanes (.vfn i p vd va .rsq) i p (.vfn vd va .rsq) vd fun t l => rsqF (laneOf t va l)) ∧
    (WritesLanes (.vfn i p vd va .abs) i p (.vfn vd va .abs) vd
      fun t l => BitVec.ofNat 32 ((laneOf t va l).toNat % 2 ^ 31)) ∧
    (WritesLanes (.vfn i p vd va .neg) i p (.vfn vd va .neg) vd
      fun t l => BitVec.ofNat 32 ((laneOf t va l).toNat + 2 ^ 31)) ∧
    (WritesLanes (.vsel i p vd va vb) i p (.vsel vd va vb) vd
      fun t l => if laneOf t vd l = 0 then laneOf t vb l else laneOf t va l) ∧
    (∀ sa, WritesLanes (.vsplat i p vd sa) i p (.vsplat vd sa) vd fun t _ => readS t.regs sa.toNat) ∧
    (WritesLanes (.viota i p vd) i p (.viota vd) vd fun _ l => BitVec.ofNat 32 l) ∧
    (WritesLanes (.vperm i p vd va vb) i p (.vperm vd va vb) vd fun t l => laneOf t va ((laneOf t vb l).toNat % 512)) ∧
    (∀ k : BitVec 9, WritesLanes (.vrot i p vd va k) i p (.vrot vd va k) vd fun t l => laneOf t va ((l + k.toNat) % 512))) ∧
  (∀ (i : Issue) (p : Pred) (vd va vb : BitVec 6) (pd : BitVec 3) (c : VCond),
    (WritesLanes (.vcmp i p vd va vb c) i p (.vcmp vd va vb c) vd
      fun t l => if vCondValue c (laneOf t va l) (laneOf t vb l) then 0xFFFFFFFF else 0) ∧
    ∀ (s : State) (b : Bun) (all : Bool), IssuesV s i b p (.vcmpp pd va vb c all) → pd ≠ 0 →
      RegName.p pd.toNat ∉ destsC (runC s i b) →
      ∃ t, exec (.vcmpp i p pd va vb c all) s = .next t ∧
        (readP (tileIn t i.tile).regs pd.toNat = true ↔
          if all then ∀ l < 512, vCondValue c (laneOf (tileIn s i.tile) va l) (laneOf (tileIn s i.tile) vb l) = true
          else ∃ l < 512, vCondValue c (laneOf (tileIn s i.tile) va l) (laneOf (tileIn s i.tile) vb l) = true)) ∧
  (∀ (i : Issue) (p : Pred) (vd va : BitVec 6) (fmt : PackFmt),
    (fmt ≠ .mxScales → fmt ≠ .k4Scales →
      (WritesBits (.vpack i p vd va fmt) i p (.vpack vd va fmt) vd fun t l j =>
        decide ((32 * l + j) / elemWidth fmt < 512) &&
          (laneOf t va ((32 * l + j) / elemWidth fmt)).getLsbD ((32 * l + j) % elemWidth fmt)) ∧
      (WritesBits (.vunpk i p vd va fmt) i p (.vunpk vd va fmt) vd fun t l j =>
        decide (j < elemWidth fmt) && regBit t va (elemWidth fmt * l + j))) ∧
    (∀ n, (fmt = .mxScales ∧ n = 32) ∨ (fmt = .k4Scales ∧ n = 16) →
      (WritesBits (.vpack i p vd va fmt) i p (.vpack vd va fmt) vd fun t l j =>
        decide ((32 * l + j) / 8 < 512 / n) && (laneOf t va (n * ((32 * l + j) / 8))).getLsbD (8 + (32 * l + j) % 8)) ∧
      (WritesBits (.vunpk i p vd va fmt) i p (.vunpk vd va fmt) vd fun t l j =>
        decide (l % n = 0 ∧ 8 ≤ j ∧ j < 16) && regBit t va (8 * (l / n) + (j - 8)))))

/-- R137, R138, R139, R140, R86: conversions, stochastic rounds, the fixed-order reduce and the two quantisers. -/
def Obligations.ConversionsReducesAndQuantisers : Prop :=
  ∀ (i : Issue) (p : Pred) (vd va : BitVec 6) (n : Narrow) (grp : BitVec 3) (sr : Bool) (sT : BitVec 5),
    (WritesLanes (.vcvt i p vd va (.into n)) i p (.vcvt vd va (.into n)) vd
      fun t l => BitVec.ofNat 32 (convNarrow n (tileRmode t) (val32 (laneOf t va l))).1) ∧
    (WritesLanes (.vcvt i p vd va (.outOf n)) i p (.vcvt vd va (.outOf n)) vd
      fun t l => (widen n (laneOf t va l).toNat).1) ∧
    (WritesLanes (.vsr i p vd va n grp) i p (.vsr vd va n grp) vd
      fun t l => BitVec.ofNat 32 (quantRound t n true grp l (val32 (laneOf t va l))).1) ∧
    (WritesLanes (.vred i p vd va false) i p (.vred vd va false) vd
      fun t l => if l = 0 then ctree ((List.range 512).map (laneOf t va)) else 0) ∧
    (WritesLanes (.vred i p vd va true) i p (.vred vd va true) vd
      fun t l => if l = 0 then (List.range 512).foldl (fun x k => maxF x (laneOf t va k)) (maxF (laneOf t va 0) (laneOf t va 0))
        else 0) ∧
    (WritesLanes (.vqmx i p vd va n sr grp) i p (.vqmx vd va n sr grp) vd fun t l =>
      let r := mxBlock n (fun k v => quantRound t n sr grp (l / 32 * 32 + k) v)
        ((List.range 32).map fun k => val32 (laneOf t va (l / 32 * 32 + k)))
      BitVec.ofNat 32 (256 * r.1 + r.2.1.getD (l % 32) 0 % 256)) ∧
    (WritesLanes (.vqk4 i p vd va sT sr grp) i p (.vqk4 vd va sT sr grp) vd fun t l =>
      let r := k4Block (val32 (readS t.regs sT.toNat)) (fun k v => quantRound t .e2m1 sr grp (l / 16 * 16 + k) v)
        ((List.range 16).map fun k => val32 (laneOf t va (l / 16 * 16 + k)))
      BitVec.ofNat 32 (256 * r.1 + r.2.1.getD (l % 16) 0 % 256))

/-- What is representable passes through the arithmetic unchanged, in FP32 and in every narrow format. FP32 results round
once: an operand that is not a NaN passes unchanged through its value and back under every rounding mode, so that adding
nothing, negating twice and converting lose no bit. R86, R137: every encoding of a narrow format but a NaN, widened to FP32,
converts back into itself under every rounding mode, with nan_seen not set. -/
def Obligations.RoundingKeepsRepresentableValuesInEveryFormat : Prop :=
  ((∀ (m : RMode) (x : F32), isNaN32 x = false → toF32 m (val32 x) = x) ∧
  (∀ (m : RMode) (x : F32), isNaN32 x = true → toF32 m (val32 x) = 0x7FC00000) ∧
  (∀ (m : RMode) (x y : F32), isNaN32 x = true ∨ isNaN32 y = true →
    addF m x y = 0x7FC00000 ∧ subF m x y = 0x7FC00000 ∧ mulF m x y = 0x7FC00000 ∧ maxF x y = 0x7FC00000 ∧
      minF x y = 0x7FC00000)) ∧
  (∀ (m : RMode) (n : Narrow) (x : Nat), n ≠ .bf16 →
    x < (match n with | .e2m1 => 16 | .e2m3 => 64 | .e3m2 => 64 | _ => 256) → (widen n x).2 = false →
    convNarrow n m (val32 (widen n x).1) = (x, false))

/-! ### The machine -/

/-- A step takes the command at the front of the queue and runs it with the queue's rest. -/
def Obligations.StepRunsTheFrontCommand : Prop :=
  ∀ (s : State) (c : Instr) (rest : List Instr), step { s with pending := c :: rest } = exec c { s with pending := rest }

/-- The model's choice (log 2): on an empty queue the block idles. -/
def Obligations.AnEmptyQueueIdles : Prop :=
  ∀ s : State, s.pending = [] → step s = .next s

/-- Every command answers a next state: none faults, none is refused, and none touches the queue. -/
def Obligations.EveryCommandAnswers : Prop :=
  ∀ (c : Instr) (s : State), ∃ t, exec c s = .next t ∧ t.pending = s.pending

/-- After reset the queue is empty, nothing is powered, the module is OFF with an off order in the retained store as
manufactured, Sill is without power, no run and no session exists, and no journal entry is held. -/
def Obligations.ResetIsUnpowered : Prop :=
  State.reset.pending = [] ∧ State.reset.sys.mgmt.module = .off ∧ State.reset.sys.data.on = false ∧
    State.reset.sys.ctrl.on = false ∧ State.reset.sys.sill.on = false ∧ State.reset.sys.mgmt.run = .down ∧
    State.reset.sys.ctrl.rc = .noImage ∧ State.reset.sys.ctrl.sessions = [] ∧ State.reset.sys.mgmt.jHeld = 0 ∧
    (∀ n, tileOn State.reset.sys.data n = false) ∧ ∀ f, (fieldOf State.reset.sys.data f).on = false

/-- R23, R298, R299, R300, R303: every step keeps the control plane's bounds: 8 sessions, 256 stored responses in each, 64
waiting commands, 4,096 journal records, and a control role that only a session holds. -/
def Obligations.EveryStepKeepsTheControlPlaneBounded : Prop :=
  ∀ s t : State, s.sys.ctrl.Bounded → step s = .next t → t.sys.ctrl.Bounded

/-- The bounds of the control plane hold at reset. -/
def Obligations.ResetIsBounded : Prop :=
  State.reset.sys.ctrl.Bounded

/-! ### Tile commands -/

/-- R62, R63: a clear of int_status leaves set what the hardware sets in the same cycle; int_force sets the bits it names
but the reserved ones. The same holds of a field's register. -/
def Obligations.StickyFlagsSetWins : Prop :=
  ∀ (s : State) (mask hw : W64),
    (∀ ix : TileIx, tileOn s.sys.data ix = true →
      (∃ t, exec (.intStatusClear ix mask hw) s = .next t ∧ ∀ n < 64, (tileIn t ix).csr.intStatus.getLsbD n =
        (((tileIn s ix).csr.intStatus.getLsbD n && !mask.getLsbD n) || (hw.getLsbD n && decide (n < 22 ∧ n ≠ 15)))) ∧
      ∃ t, exec (.intForceSet ix mask) s = .next t ∧ ∀ n < 64, (tileIn t ix).csr.intStatus.getLsbD n =
        ((tileIn s ix).csr.intStatus.getLsbD n || (mask.getLsbD n && decide (n < 22 ∧ n ≠ 15)))) ∧
    (∀ f : FieldIx, (fieldOf s.sys.data f).on = true →
      (∃ t, exec (.fieldIntStatusClear f mask hw) s = .next t ∧ ∀ n < 64,
        (fieldOf t.sys.data f).intStatus.getLsbD n =
          (((fieldOf s.sys.data f).intStatus.getLsbD n && !mask.getLsbD n) || (hw.getLsbD n && decide (n < 9)))) ∧
      (∃ t, exec (.fieldIntForceSet f mask) s = .next t ∧ ∀ n < 64, (fieldOf t.sys.data f).intStatus.getLsbD n =
        ((fieldOf s.sys.data f).intStatus.getLsbD n || (mask.getLsbD n && decide (n < 9)))) ∧
      ∃ t, exec (.arbStarveClear f mask) s = .next t ∧ ∀ n < 64, (fieldOf t.sys.data f).arb.starve.getLsbD n =
        ((fieldOf s.sys.data f).arb.starve.getLsbD n && !mask.getLsbD n))

/-- The event counters, the latency sampler and the bandwidth windows of a tile. R321, R322, R323, R328, R325, R331: a
counter takes the value written to it and wraps at 2^48 with its overflow flags; samp_release frees records; a change of
mode or k restarts the selection count; a rise of bw_ctrl.enable opens a window. R327, R328, R329, R331: a sample record is
written at the buffer's pointer with its sequence number and latency, or is missed when the full buffer stops sampling; a
window that has run its length puts its counts into the bank of its turn. -/
def Obligations.CountersSamplesAndWindows : Prop :=
  (∀ (s : State) (ix : TileIx), tileOn s.sys.data ix = true →
    (∀ (n : Fin 8) (v : W64), ∃ t, exec (.evcntWrite ix n v) s = .next t ∧
      (look 0 (tileIn t ix).inst.evcnt n).toNat = v.toNat % 2 ^ 48 ∧
      ∀ m, m ≠ n.val → look 0 (tileIn t ix).inst.evcnt m = look 0 (tileIn s ix).inst.evcnt m) ∧
    (∀ (n : Fin 8) (k : Nat), (look 0 (tileIn s ix).inst.evsel n).getLsbD 15 = true →
      2 ^ 48 ≤ (look 0 (tileIn s ix).inst.evcnt n).toNat + k →
      ∃ t, exec (.evcntWrap ix n k) s = .next t ∧
        (look 0 (tileIn t ix).inst.evcnt n).toNat = ((look 0 (tileIn s ix).inst.evcnt n).toNat + k) % 2 ^ 48 ∧
        (look 0 (tileIn t ix).inst.evsel n).getLsbD 63 = true ∧ (tileIn t ix).csr.intStatus.getLsbD 9 = true) ∧
    (∀ n : Fin 128, ∃ t, exec (.sampRelease ix n) s = .next t ∧
      (tileIn t ix).inst.sampValid = (tileIn s ix).inst.sampValid - n.val) ∧
    (∀ v : W64, ∃ t, exec (.sampCtrlWrite ix v) s = .next t ∧
      (tileIn t ix).inst.sampCtrl.getLsbD 2 = v.getLsbD 2 ∧ sampMode (tileIn t ix) = v.toNat % 4 ∧
      (sampMode (tileIn s ix) ≠ v.toNat % 4 → (tileIn t ix).inst.selCount = 0)) ∧
    (∀ v : W64, ∃ t, exec (.bwCtrlWrite ix v) s = .next t ∧ (tileIn t ix).inst.bwCtrl.getLsbD 31 = v.getLsbD 31 ∧
      ((tileIn s ix).inst.bwCtrl.getLsbD 31 = false → v.getLsbD 31 = true → (tileIn t ix).inst.openNext = true) ∧
      ((tileIn s ix).inst.bwCtrl.getLsbD 31 = true → v.getLsbD 31 = false →
        (tileIn t ix).inst.window = none ∧ (tileIn t ix).inst.openNext = false))) ∧
  (∀ (s : State) (ix : TileIx), tileOn s.sys.data ix = true →
    (∀ r, (tileIn s ix).inst.inProgress = some r → r.fixedLatency < 2 ^ 16 → r.stallCycles < 2 ^ 16 →
      r.issueCycle < 2 ^ 16 → ∀ measured : Nat, measured < 2 ^ 16 →
      ∃ t, exec (.sampleRecordWrite ix measured) s = .next t ∧ (tileIn t ix).inst.inProgress = none ∧
        (((tileIn s ix).inst.sampCtrl.getLsbD 2 = false ∨ (tileIn s ix).inst.sampValid ≠ 64) →
          (tileIn t ix).inst.sampSeq = (tileIn s ix).inst.sampSeq + 1 ∧
          (tileIn t ix).inst.sampPtr = ((tileIn s ix).inst.sampPtr + 1) % 64 ∧
          (look 0 (tileIn t ix).inst.buffer (tileIn s ix).inst.sampPtr).toNat / 2 ^ 96 % 2 ^ 16 =
            (if r.timed then max r.fixedLatency measured else r.fixedLatency) ∧
          (look 0 (tileIn t ix).inst.buffer (tileIn s ix).inst.sampPtr).toNat / 2 ^ 192 % 2 ^ 32 =
            (tileIn s ix).inst.sampSeq.toNat) ∧
        ((tileIn s ix).inst.sampCtrl.getLsbD 2 = true → (tileIn s ix).inst.sampValid = 64 →
          (tileIn t ix).inst.buffer = (tileIn s ix).inst.buffer ∧
          (tileIn t ix).inst.sampMissed.toNat = min ((tileIn s ix).inst.sampMissed.toNat + 1) 0xFFFF)) ∧
    (∀ counts tick, (tileIn s ix).inst.closing = some (counts, tick) →
      ∃ t, exec (.bwWindowClose ix) s = .next t ∧ (tileIn t ix).inst.snapSeq = (tileIn s ix).inst.snapSeq + 1 ∧
        (tileIn t ix).inst.snapTick = tick ∧ (tileIn t ix).inst.closing = none ∧
        (tileIn t ix).csr.intStatus.getLsbD 11 = true ∧
        ∀ port < 12, look 0 (tileIn t ix).inst.banks (12 * ((tileIn s ix).inst.snapSeq.toNat % 2) + port) =
          look 0 counts port))

/-- Writes of a tile's registers and instruction memory, its scrubber, and the end of its reset. R64, R65, R67, R9: a write
that is not aligned is discarded; a CSR write stores into a mailbox; a read-only register ignores it; a register locked
while RUNNING keeps its value then and takes the new one otherwise. R38, R44, R41, R57: instruction memory takes a write in
RESET or IDLE and blocks it otherwise; the scrubber counts a corrected word and faults on an uncorrectable one; a reset that
ends leaves the tile IDLE. -/
def Obligations.CsrAndInstructionMemoryWritesFollowTheirAccess : Prop :=
  (∀ (s : State) (ix : TileIx) (v : W64), tileOn s.sys.data ix = true →
    (∀ n : Fin 8, ∃ t, exec (.csrWrite (.tile ix) (BitVec.ofNat 16 (0x100 + 8 * n.val)) v) s = .next t ∧
      look 0 (tileIn t ix).csr.mailbox n = v ∧
      ∀ m, m ≠ n.val → look 0 (tileIn t ix).csr.mailbox m = look 0 (tileIn s ix).csr.mailbox m) ∧
    (∀ off ∈ [0x0000#16, 0x0008#16, 0x0018#16, 0x0020#16, 0x0028#16, 0x0030#16, 0x0038#16, 0x0058#16, 0x0060#16, 0x0068#16,
        0x0400#16, 0x0608#16],
      ∃ t, exec (.csrWrite (.tile ix) off v) s = .next t ∧ tileIn t ix = tileIn s ix) ∧
    (∃ t, exec (.csrWrite (.tile ix) 0x0070#16 v) s = .next t ∧
      (tileIn t ix).csr.srKey = if s.sys.mgmt.module = .running then (tileIn s ix).csr.srKey else v) ∧
    (∃ t, exec (.csrWrite (.tile ix) 0x0078#16 v) s = .next t ∧
      (s.sys.mgmt.module = .running → (tileIn t ix).csr.vfpCtrl = (tileIn s ix).csr.vfpCtrl) ∧
      (s.sys.mgmt.module ≠ .running → (tileIn t ix).csr.vfpCtrl.toNat = v.toNat % 4)) ∧
    (∀ off : BitVec 16, off.toNat % 8 ≠ 0 → ∃ t, exec (.csrWrite (.tile ix) off v) s = .next t ∧ tileIn t ix = tileIn s ix) ∧
    (∃ t, exec (.csrWrite (.tile ix) 0x0048#16 v) s = .next t ∧ ∀ n < 64, (tileIn t ix).csr.intEnable.getLsbD n =
      (v.getLsbD n && decide (n < 22 ∧ n ≠ 15)))) ∧
  (∀ (s : State) (ix : TileIx), tileOn s.sys.data ix = true →
    (∀ (n : BitVec 14) (w : Bundle), ∃ t, exec (.instructionMemoryWrite ix n w) s = .next t ∧
      ((tileIn s ix).tstate = .reset ∨ (tileIn s ix).tstate = .idle → look 0 (tileIn t ix).imem n.toNat = w ∧
        ∀ m, m ≠ n.toNat → look 0 (tileIn t ix).imem m = look 0 (tileIn s ix).imem m) ∧
      ((tileIn s ix).tstate ≠ .reset → (tileIn s ix).tstate ≠ .idle → (tileIn t ix).imem = (tileIn s ix).imem ∧
        (tileIn t ix).csr.intStatus.getLsbD 14 = true)) ∧
    (∀ (line : BitVec 18) (o : BitVec 24), (tileIn s ix).csr.ctrl.getLsbD 7 = true → (tileIn s ix).poison = [] →
      (∃ t, exec (.scrubRead ix line (.corrected o)) s = .next t ∧
        (tileIn t ix).csr.storeCorrected.toNat = min ((tileIn s ix).csr.storeCorrected.toNat + 1) (2 ^ 32 - 1) ∧
        (tileIn t ix).csr.storeLast = o ∧ (tileIn t ix).csr.intStatus.getLsbD 1 = true ∧
        (tileIn t ix).store = (tileIn s ix).store) ∧
      ((tileIn s ix).tstate ≠ .fault → ∃ t, exec (.scrubRead ix line .uncorrectable) s = .next t ∧
        (tileIn t ix).tstate = .fault ∧ (tileIn t ix).csr.faultCause = 2)) ∧
    ((tileIn s ix).tstate = .reset → ∃ t, exec (.tileResetEnd ix) s = .next t ∧ (tileIn t ix).tstate = .idle ∧
      (tileIn t ix).regs = (tileIn s ix).regs))

/-- What a tile command other than a slot operation leaves: every other tile, every field, the queue and the other planes.
-/
def Obligations.TileCommandFrame : Prop :=
  ∀ (s t : State) (ix : TileIx) (c : Instr),
    ((∃ a, c = .intForceSet ix a) ∨ (∃ a b, c = .intStatusClear ix a b) ∨ (∃ a b, c = .evcntWrite ix a b) ∨
      (∃ a b, c = .evcntWrap ix a b) ∨ (∃ a, c = .sampRelease ix a) ∨ (∃ a, c = .sampCtrlWrite ix a) ∨
      (∃ a, c = .bwCtrlWrite ix a) ∨ (∃ a b, c = .csrWrite (.tile ix) a b) ∨ (∃ a, c = .sampleRecordWrite ix a) ∨
      c = .bwWindowClose ix ∨ c = .tileResetEnd ix ∨ (∃ a b, c = .instructionMemoryWrite ix a b)) →
    exec c s = .next t →
      (∀ n, n ≠ ix.val → tileIn t n = tileIn s n) ∧ t.sys.data.fields = s.sys.data.fields ∧
      t.sys.data.mesh = s.sys.data.mesh ∧ t.sys.data.beat = s.sys.data.beat ∧ t.pending = s.pending ∧
      t.sys.ctrl = s.sys.ctrl ∧ t.sys.mgmt = s.sys.mgmt ∧ t.sys.sill = s.sys.sill ∧
      (tileIn t ix).regs = (tileIn s ix).regs ∧ (tileIn t ix).store = (tileIn s ix).store

/-! ### The mesh, the field stacks and the arbiter -/

/-- The maps, and the scheduled transfers of the mesh. R180, R181: a map entry is written while beats are stopped and
nothing unscheduled is in flight; at any other time the write changes neither map and every powered field shows
map_write_blocked. R119, R120, R188, R192: the slot of a tag that is not armed moves nothing, nor does a cycle that is not
its slot's; the slot of an armed stack read holds its data for the return; a mesh send's flit sets out for its tile; a flit
that lands in its cycle writes its data, and one that comes later is counted and sets late_land; a returning read writes 128
B a cycle. -/
def Obligations.MapsAndScheduledTransfers : Prop :=
  (∀ s : State, s.sys.data.on = true →
    (s.sys.data.beat.advancing = false → quiescent s.sys.data = true →
      (∀ (n : Fin 1024) (p : Option TileIx), ∃ t, exec (.mapWrite (.tile n p)) s = .next t ∧
        physTile t.sys.data (n.val / 32) (n.val % 32) = p.map Fin.val) ∧
      (∀ n m : Fin 256, ∃ t, exec (.mapWrite (.module n m)) s = .next t ∧ physModule t.sys.data n = m.val ∧
        ∀ k, k ≠ n.val → physModule t.sys.data k = physModule s.sys.data k)) ∧
    ((s.sys.data.beat.advancing = true ∨ quiescent s.sys.data = false) → ∀ w : MapEntry,
      ∃ t, exec (.mapWrite w) s = .next t ∧ t.sys.data.mesh = s.sys.data.mesh ∧
        ∀ f, (∃ g, (f, g) ∈ s.sys.data.fields ∧ g.on = true) → (fieldIn t f).intStatus.getLsbD 1 = true)) ∧
  ((∀ (s : State) (ix : TileIx) (tag : BitVec 12) (cycle : Nat),
    look none (tileIn s ix).xfer.armed tag.toNat = none → exec (.scheduledSlot ix tag cycle) s = .next s) ∧
  (∀ (s : State) (ix : TileIx) (tag : BitVec 12) (cycle : Nat) (a : Arm),
    look none (tileIn s ix).xfer.armed tag.toNat = some a →
    let ent := look 0 (tileIn s ix).xfer.sched tag.toNat
    (cycle ≠ schedSlot ent + a.moved → exec (.scheduledSlot ix tag cycle) s = .next s) ∧
    (cycle = schedSlot ent + a.moved → schedKind ent = 3 → refreshing cycle = false →
      (fieldIn s (tileField ix)).recent = [] →
      ∃ t r, exec (.scheduledSlot ix tag cycle) s = .next t ∧ look none (tileIn t ix).xfer.armed tag.toNat = none ∧
        t.sys.data.mesh.returns = s.sys.data.mesh.returns ++ [r] ∧ r.tile = ix.val ∧ r.done = 0 ∧
        r.land = schedLand ent ∧ r.store = a.store.toNat / 64 * 64 ∧ r.data.length = 64 * schedUnits ent) ∧
    (∀ dst, cycle = schedSlot ent + a.moved → schedKind ent = 1 → (tileIn s ix).poison = [] →
      physModule s.sys.data (ent.toNat / 2 ^ 84 % 2 ^ 8) = (ownModule s.sys.data).toNat →
      physTile s.sys.data (ent.toNat / 2 ^ 79 % 2 ^ 5) (ent.toNat / 2 ^ 74 % 2 ^ 5) = some dst →
      ∃ t f, exec (.scheduledSlot ix tag cycle) s = .next t ∧ t.sys.data.mesh.flits = s.sys.data.mesh.flits ++ [f] ∧
        f.beat = s.sys.data.beat.count ∧ f.land = schedLand ent ∧ f.k = a.moved ∧ f.source = ix.val ∧ f.tile = dst ∧
        f.offset = 64 * (ent.toNat / 2 ^ 56 % 2 ^ 18) + 512 * a.moved ∧
        f.data = readBytes (tileIn s ix).store ((a.store.toNat / 64 * 64 + 512 * a.moved) % 2 ^ 24)
          (min 512 (64 * schedUnits ent - 512 * a.moved)))) ∧
  (∀ (s : State) (n cycle : Nat) (f : Flit) (others : List Contender), s.sys.data.mesh.flits[n]? = some f →
    tileOn s.sys.data f.tile = true → OutputServes s f.source (dimPath f.source f.tile) f.tile .scheduled false others →
    (cycle = f.land + f.k → f.beat = s.sys.data.beat.count →
      ∃ t, exec (.scheduledFlitLand n cycle others) s = .next t ∧
        t.sys.data.mesh.flits.length + 1 = s.sys.data.mesh.flits.length ∧
        ∀ k < f.data.length, (readByte (tileIn t f.tile).store (f.offset % 2 ^ 24 + k)) = f.data.getD k 0) ∧
    (f.land + f.k ≤ cycle ∨ f.beat ≠ s.sys.data.beat.count →
      ∃ t, exec (.lateFlitArrival n cycle others) s = .next t ∧
        (∀ k < f.data.length, (readByte (tileIn t f.tile).store (f.offset % 2 ^ 24 + k)) = f.data.getD k 0) ∧
        (fieldIn t (tileField f.tile)).intStatus.getLsbD 3 = true ∧
        t.sys.data.sum.lateLands = s.sys.data.sum.lateLands + 1)) ∧
  (∀ (s : State) (n : Nat) (r : StackReturn), s.sys.data.mesh.returns[n]? = some r → tileOn s.sys.data r.tile = true →
    ∃ t, exec (.stackReadReturn n (r.land + r.done) ⟨0, 0⟩) s = .next t ∧
      ∀ k < min 128 (r.data.length - 128 * r.done),
        readByte (tileIn t r.tile).store ((r.store + 128 * r.done) % 2 ^ 24 + k) = r.data.getD (128 * r.done + k) 0))

/-- Unscheduled packets and exchange records arrive. R182, R194, R195, R196, R198: a put's packet that takes a route of its
channel to a running tile of the module writes its bytes there and is acknowledged; one for a tile that is off or in reset
is answered 0x0003, one for an unmapped tile 0x0002 with dest_unmapped set; the acknowledgement counts its bytes to its
transfer with the first status that is not 0; a packet that has waited past the threshold moves to the escape channel, stays
there and is counted once. R217, R218: a carried record lands in the slot of its rank and index in its tile's receive
buffer; one that lands past cycle 1,999 sets xchg_late as well. -/
def Obligations.PacketsAndExchangeRecordsLand : Prop :=
  (∀ (s : State) (n : Nat) (p : Packet) (u : Ureq) (hops : List Hop) (others : List Contender) (far : FarAnswer),
    s.sys.data.mesh.packets[n]? = some p →
    (tileIn s p.tile).xfer.ureqs.find? (fun v => v.id = p.id) = some u →
    let ch : Channel := if p.escaped.isSome then .escape else .adaptive
    (p.away = false → p.ack = none → p.data = none → u.status = 0 → (tileIn s p.tile).poison = [] →
      physModule s.sys.data p.module.toNat = (ownModule s.sys.data).toNat →
      (∀ (ix : Nat) (path : List Nat), physTile s.sys.data p.row p.col = some ix →
        packetPath p.start ix p.escaped hops = some path → OutputServes s p.start path ix ch false others →
        ∃ t a, exec (.unscheduledPacketArrive n hops others far) s = .next t ∧
          t.sys.data.mesh.packets = removeAt s.sys.data.mesh.packets n ++ [a] ∧
          a.tile = p.tile ∧ a.id = p.id ∧ a.len = p.len ∧ a.start = ix ∧
          ((tileIn s ix).tstate = .off ∨ (tileIn s ix).tstate = .reset →
            a.ack = some 3 ∧ (tileIn t ix).store = (tileIn s ix).store) ∧
          ((tileIn s ix).tstate ≠ .off → (tileIn s ix).tstate ≠ .reset → a.ack = some 0 ∧
            ∀ k < p.len, readByte (tileIn t ix).store (p.offset % 2 ^ 24 + k) =
              readByte (tileIn s p.tile).store (p.source % 2 ^ 24 + k))) ∧
      (physTile s.sys.data p.row p.col = none →
        ∃ t a, exec (.unscheduledPacketArrive n hops others far) s = .next t ∧
          (fieldIn t (tileField p.start)).intStatus.getLsbD 0 = true ∧
          t.sys.data.mesh.packets = removeAt s.sys.data.mesh.packets n ++ [a] ∧ a.tile = p.tile ∧ a.id = p.id ∧
          a.ack = some 2)) ∧
    (∀ (st : BitVec 16) (path : List Nat), p.away = false → p.ack = some st →
      packetPath p.start p.tile p.escaped hops = some path → OutputServes s p.start path p.tile ch true others →
      ∃ t v, exec (.unscheduledPacketArrive n hops others far) s = .next t ∧
        t.sys.data.mesh.packets = removeAt s.sys.data.mesh.packets n ∧
        (tileIn t p.tile).xfer.ureqs.find? (fun v => v.id = p.id) = some v ∧ v.moved = u.moved + p.len ∧
        v.status = if u.status = 0 then st else u.status) ∧
    (p.away = true → ∃ t v, exec (.unscheduledPacketArrive n hops others far) s = .next t ∧
      (tileIn t p.tile).xfer.ureqs.find? (fun v => v.id = p.id) = some v ∧ v.moved = u.moved + p.len ∧
      v.status = if u.status = 0 then far.status else u.status) ∧
    (∀ (router : TileIx) (waited : Nat), p.escaped = none → p.away = false →
      let past := max 256 ((fieldIn s (tileField router)).routerCfg.toNat / 2 ^ 16 % 2 ^ 16)
      (past < waited → ∃ t, exec (.escapeMove n router waited) s = .next t ∧
        t.sys.data.mesh.packets[n]? = some { p with escaped := some router.val } ∧
        t.sys.data.sum.escapes = s.sys.data.sum.escapes + 1 ∧ exec (.escapeMove n router waited) t = .next t) ∧
      (waited ≤ past → exec (.escapeMove n router waited) s = .next s))) ∧
  (∀ (s : State) (n : Nat) (x : XFlight) (cycle ix : Nat) (others : List Contender),
    s.sys.data.mesh.xrecs[n]? = some x →
    x.beat = s.sys.data.beat.count → physModule s.sys.data x.record.module.toNat = (ownModule s.sys.data).toNat →
    physTile s.sys.data x.record.row.toNat x.record.col.toNat = some ix → tileOn s.sys.data ix = true →
    OutputServes s x.router (dimPath x.router ix) ix .record false others →
    let c := xclassOf (tileIn s ix) x.record.cls.toNat
    let par := x.beat.toNat % 2
    let at_ := (c.base + par * c.senders * c.cap * c.slot + (x.rank * c.cap + x.index) * c.slot) % 2 ^ 24
    let map := (c.map + par * (ceilDiv (c.senders * c.cap) 512 * 64) + (x.rank * c.cap + x.index) / 8) % 2 ^ 24
    let cnt := (c.map - 8 + 4 * par) % 2 ^ 24
    map < at_ → (cnt + 4 ≤ map) →
    ∃ t, exec (.exchangeRecordLand n cycle others) s = .next t ∧
      t.sys.data.mesh.xrecs = removeAt s.sys.data.mesh.xrecs n ∧
      (∀ k < x.record.data.length, readByte (tileIn t ix).store (at_ + k) = x.record.data.getD k 0) ∧
      (readByte (tileIn t ix).store map).getLsbD ((x.rank * c.cap + x.index) % 8) = true ∧
      wordAt (tileIn t ix).store cnt = (wordAt (tileIn s ix).store cnt + 1) % 2 ^ 32 ∧
      (1999 < cycle → (fieldIn t (tileField ix)).intStatus.getLsbD 4 = true))

/-- A field's arbiter: requests, masks, starvation and grants. R207, R208, R210, R212, R213: a request of a burst in one 2
KiB block waits at its field's arbiter, a tile's transfer for its next burst as any other requester's; a masked requester
loses what it has pending and has none counted as starving; a requester that waited its threshold is marked. R203, R208: in
an offered cycle the lowest class with an eligible request is served: with one pending request whose requester has credit
left in its round, that request is granted, its requester pays one credit and its burst moves; in cycles 1,920 to 1,999, in
the refresh window, or before training ends, nothing is granted. -/
def Obligations.ArbiterServesItsRequests : Prop :=
  ((∀ (s : State) (ix : TileIx) (id : Fin 16) (u : Ureq), tileOn s.sys.data ix = true →
    (tileIn s ix).xfer.ureqs.find? (fun v => v.id = id.val) = some u → (u.kind = 1 ∨ u.kind = 2) → u.status ≠ 1 →
    u.asked < u.len → isPresent (fieldIn s (tileField ix)).arb (tileLocal ix) = true →
    ∃ t r, exec (.stackRequest (.tile ix id)) s = .next t ∧
      (fieldIn t (tileField ix)).arb.pending = (fieldIn s (tileField ix)).arb.pending ++ [r] ∧ r.q = tileLocal ix ∧
      r.cls = u.cls.toNat ∧ (r.write = true ↔ u.kind = 2) ∧ 0 < r.len ∧ r.len ≤ u.len - u.asked ∧
      r.addr % 2048 + r.len ≤ 2048 ∧
      ∃ v, (tileIn t ix).xfer.ureqs.find? (fun v => v.id = id.val) = some v ∧ v.asked = u.asked + r.len) ∧
  ∀ (s : State) (f : FieldIx), (fieldIn s f).on = true →
    (∀ r : StackReq, isPresent (fieldIn s f).arb r.q = true → burstOk (fieldIn s f) r = true →
      ∃ t, exec (.stackRequest (.other f r)) s = .next t ∧
        (fieldIn t f).arb.pending = (fieldIn s f).arb.pending ++ [r]) ∧
    (∀ q : Fin 24, isPresent (fieldIn s f).arb q = true →
      (∃ t, exec (.arbRequesterMask f q) s = .next t ∧ isPresent (fieldIn t f).arb q = false ∧
        (∀ r ∈ (fieldIn t f).arb.pending, r.q ≠ q.val) ∧ (fieldIn t f).intStatus.getLsbD 5 = true ∧
        look 0 (fieldIn t f).arb.wait q = 0 ∧
        ∃ u, exec (.arbStarve f q) t = .next u ∧ fieldIn u f = fieldIn t f) ∧
      (0 < (arbReq (fieldIn s f).arb q).toNat / 2 ^ 32 →
        (arbReq (fieldIn s f).arb q).toNat / 2 ^ 32 ≤ (look 0 (fieldIn s f).arb.wait q).toNat →
        ∃ t, exec (.arbStarve f q) s = .next t ∧ (fieldIn t f).arb.starve.getLsbD q = true ∧
          (fieldIn t f).intStatus.getLsbD 6 = true)) ∧
    (∀ q : Fin 24, isPresent (fieldIn s f).arb q = false → (q.val ≠ 23 ∨ isEdgeField f = true) →
      ∃ t, exec (.arbRequesterUnmask f q) s = .next t ∧ isPresent (fieldIn t f).arb q = true)) ∧
  (∀ (s : State) (f : FieldIx) (cycle : Nat) (found : StackFound),
    (∀ r, (fieldIn s f).arb.pending = [r] → r.q < 24 → isPresent (fieldIn s f).arb r.q = true →
      (cycle < 1920 ∨ 2000 ≤ cycle) → (fieldIn s f).arb.refresh = false → (fieldIn s f).train = .ready →
      0 < look 0 (fieldIn s f).arb.credit r.q → (fieldIn s f).arb.roundCycles < 1024 →
      ∃ t, exec (.stackBurstGrant f cycle found) s = .next t ∧ (fieldIn t f).arb.pending = [] ∧
        look 0 (fieldIn t f).arb.grants r.q = look 0 (fieldIn s f).arb.grants r.q + 1 ∧
        look 0 (fieldIn t f).arb.credit r.q + 1 = look 0 (fieldIn s f).arb.credit r.q ∧
        (look 0 (fieldIn t f).arb.wait r.q) = 0 ∧
        (∀ bs, r.what = .put bs → ∀ k < bs.length, readByte (fieldIn t f).mem (r.addr + k) = bs.getD k 0) ∧
        (r.what = .get → (fieldIn t f).arb.out = some (r.q, readBytes (fieldIn s f).mem r.addr r.len))) ∧
    ((1920 ≤ cycle ∧ cycle ≤ 1999) ∨ ((fieldIn s f).arb.refresh = true ∧ cycle < 2000) ∨ (fieldIn s f).train ≠ .ready →
      exec (.stackBurstGrant f cycle found) s = .next s) ∧
    ((fieldIn s f).on = true → ∃ t, exec (.stackRefreshWindow f) s = .next t ∧ (fieldIn t f).arb.refresh = true))

/-- R201, R202: a stack trains state by state from STK_CAL to STK_MAP; a warm start's test in which a channel fails sends it
back to STK_CAL; with at most 2 failed channels of its 66 it is READY in full mode, with 3 to 34 in reduced mode, and with
more it has failed and holds nothing. -/
def Obligations.StackTraining : Prop :=
  ∀ (s : State) (f : FieldIx) (failed : List Nat), (fieldIn s f).on = true →
    (∀ a b, (a, b) ∈ [(StkState.cal, StkState.level), (.level, .deskew), (.deskew, .test)] → (fieldIn s f).train = a →
      ∃ t, exec (.stackTrainStateDone f failed) s = .next t ∧ (fieldIn t f).train = b) ∧
    ((fieldIn s f).train = .test →
      (((fieldIn s f).warm = false ∨ ∀ c ∈ failed, 66 ≤ c) →
        ∃ t, exec (.stackTrainStateDone f failed) s = .next t ∧ (fieldIn t f).train = .map ∧
          (fieldIn t f).failed.Nodup ∧ ∀ c, c ∈ (fieldIn t f).failed ↔ c ∈ failed ∧ c < 66) ∧
      ((fieldIn s f).warm = true → (∃ c ∈ failed, c < 66) →
        ∃ t, exec (.stackTrainStateDone f failed) s = .next t ∧ (fieldIn t f).train = .cal ∧ (fieldIn t f).warm = false)) ∧
    ((fieldIn s f).train = .map → ∃ t, exec (.stackTrainStateDone f failed) s = .next t ∧
      ((fieldIn s f).failed.length ≤ 2 → (fieldIn t f).train = .ready ∧ stackCap (fieldIn t f).mode = 2 ^ 35) ∧
      (2 < (fieldIn s f).failed.length → (fieldIn s f).failed.length ≤ 34 →
        (fieldIn t f).train = .ready ∧ stackCap (fieldIn t f).mode = 2 ^ 34) ∧
      (34 < (fieldIn s f).failed.length → (fieldIn t f).train = .fail ∧ stackCap (fieldIn t f).mode = 0))

/-- What a field's own commands leave: every other field, every tile, the queue and the other planes. -/
def Obligations.FieldCommandFrame : Prop :=
  ∀ (s t : State) (f : FieldIx) (c : Instr),
    ((∃ a b, c = .fieldIntStatusClear f a b) ∨ (∃ a, c = .fieldIntForceSet f a) ∨ (∃ a, c = .arbStarveClear f a) ∨
      (∃ q, c = .arbStarve f q) ∨ (∃ q, c = .arbRequesterMask f q) ∨ (∃ q, c = .arbRequesterUnmask f q) ∨
      (∃ a, c = .stackTrainStateDone f a) ∨ c = .stackRefreshWindow f) →
    exec c s = .next t →
      (∀ n, n ≠ f.val → fieldIn t n = fieldIn s n) ∧ t.sys.data.tiles = s.sys.data.tiles ∧
      (fieldIn t f).mem = (fieldIn s f).mem ∧ t.pending = s.pending ∧ t.sys.ts = s.sys.ts ∧ t.sys.sf = s.sys.sf ∧
      t.sys.ctrl = s.sys.ctrl ∧ t.sys.mgmt = s.sys.mgmt ∧ t.sys.sill = s.sys.sill

/-! ### Beats, J1, J3 and plumb -/

/-- What a boundary closes, and when a step switches. R141, R147, R149: a boundary closes the tick, counting the beat when
one was executed and adding the stretch; while the beat's tiles are not done no boundary falls, and at cycle 2,255 the tick
closes with 256 stretch cycles and, with no earlier fault, beat fault 1. R144, R168: the scheduled step comes into force at
its tick and not before. -/
def Obligations.BoundariesCloseTicksAndSwitchSteps : Prop :=
  (∀ s : State, Alone s → s.sys.data.plumb.markers = [] → s.sys.data.on = true → s.sys.data.beat.marking = true →
    (∀ k, stretchOf s.sys.data = some k → ∃ t, exec .beatBoundary s = .next t ∧
      t.sys.data.beat.tick = s.sys.data.beat.tick + 1 ∧
      t.sys.data.beat.cstretch = s.sys.data.beat.cstretch + BitVec.ofNat 32 k ∧
      t.sys.data.beat.count = if s.sys.data.beat.advancing then s.sys.data.beat.count + 1 else s.sys.data.beat.count) ∧
    (stretchOf s.sys.data = none → exec .beatBoundary s = .next s ∧
      ∃ t, exec .beatOverrun s = .next t ∧ t.sys.data.beat.tick = s.sys.data.beat.tick + 1 ∧
        t.sys.data.beat.cstretch = s.sys.data.beat.cstretch + 256 ∧
        (s.sys.data.beat.fault = none → s.sys.data.beat.pendFault = none →
          (∀ e ∈ s.sys.data.tiles, e.2.report = none) →
          t.sys.data.beat.fault = some 1 ∧ t.sys.data.beat.advancing = false))) ∧
  (∀ (s : State) (p : Nat) (pt : W64), s.sys.data.beat.pend = some (p, pt) → s.sys.data.beat.marking = true →
    (pt.toNat ≤ s.sys.data.beat.tick.toNat → ∃ t, exec .stepSwitch s = .next t ∧ t.sys.data.beat.step = p ∧
      t.sys.data.beat.lastSwitch = pt ∧ t.sys.data.beat.pend = none ∧ t.sys.data.tiles = s.sys.data.tiles) ∧
    (s.sys.data.beat.tick.toNat < pt.toNat → exec .stepSwitch s = .next s))

/-- J1 toward the data plane, J4 from it. R18, R19, R21: the data plane latches the J1 levels and orders it sees while it is
powered; an order that arrives while HALT stands is discarded; at power-up the order that stands is taken as acted on. R22,
R529, R274: the J4 snapshot, taken once in a frame, carries the beat count and the tick and empties the accumulators; the
placement record carries the turn's state and the maps. -/
def Obligations.JointsLatchOrdersAndReport : Prop :=
  ((∀ (s : State) (w : BitVec 16), s.sys.mgmt.run = .up → ∃ t, exec (.j1OrderWrite w) s = .next t ∧
    t.sys.mgmt.joints.order = w ∧
    (s.sys.data.on = true → orderSeq s.sys.data.j1.order ≠ orderSeq w → t.sys.data.j1.order = w ∧
      (s.sys.data.beat.halted = true → t.sys.data.j1.acted = orderSeq w) ∧
      (s.sys.data.beat.halted = false → t.sys.data.j1.acted = s.sys.data.j1.acted)) ∧
    (orderSeq s.sys.data.j1.order = orderSeq w → t.sys.data = s.sys.data)) ∧
  (∀ (s : State) (k : Fin 16) (hold throttle : Bool), s.sys.mgmt.run = .up → s.sys.data.on = true →
    ∃ t, exec (.j1LevelWrite k hold throttle) s = .next t ∧
      t.sys.data.j1.stepReq = min 12 (max k.val s.sys.mgmt.joints.minStep) ∧
      t.sys.data.j1.hold = hold ∧ t.sys.data.j1.throttle = throttle) ∧
  (∀ s : State, s.sys.data.on = false → s.sys.mgmt.module.dataOn = true →
    ∃ t, exec .dataPlanePowerUp s = .next t ∧ t.sys.data.on = true ∧ t.sys.data.j1.acted = orderSeq t.sys.data.j1.order ∧
      t.sys.data.j1.order = s.sys.mgmt.joints.order) ∧
  ∀ s : State, s.sys.mgmt.module.dataOn = false → exec .dataPlanePowerUp s = .next s) ∧
  (∀ (s : State),
    (∀ droop : List Byte, droop.length = 64 → s.sys.data.on = true →
      s.sys.mgmt.joints.snapFrame ≠ some s.sys.mgmt.frame → ∃ t, exec (.j4Snapshot droop) s = .next t ∧
      t.sys.mgmt.joints.snapFrame = some s.sys.mgmt.frame ∧
      t.sys.mgmt.joints.snapshot.length = 1024 ∧
      t.sys.mgmt.joints.snapshot.take 8 = natLe 8 s.sys.data.beat.count.toNat ∧
      (t.sys.mgmt.joints.snapshot.drop 8).take 8 = natLe 8 s.sys.data.beat.tick.toNat ∧
      (t.sys.mgmt.joints.snapshot.drop 48).take 64 = droop ∧
      t.sys.data.sum = Summary.zero ∧ t.sys.data.beat.tick = s.sys.data.beat.tick) ∧
    (∀ droop : List Byte, s.sys.mgmt.joints.snapFrame = some s.sys.mgmt.frame → exec (.j4Snapshot droop) s = .next s) ∧
    ∃ t, exec .j4PlacementRecord s = .next t ∧ t.sys.mgmt.joints.placement.turnState = s.sys.data.place.turnState ∧
      t.sys.mgmt.joints.placement.code = s.sys.data.place.code ∧
      t.sys.mgmt.joints.placement.loadCheck = s.sys.data.place.loadCheck ∧ t.sys.data = s.sys.data)

/-- R542, R543: HALTED rises while HALT stands, or fails to; either way TILE_PWR_EN falls and no tile stays powered; a tile
rail above 0.20 V after that opens and locks the inlet. -/
def Obligations.HaltDropsTilePower : Prop :=
  ∀ s : State, s.sys.sill.halt = true →
    (∃ t, exec .haltedRise s = .next t ∧ t.sys.sill.halted = true ∧ t.sys.sill.tilePwrEn = false ∧
      ∀ n, tileOn t.sys.data n = false) ∧
    (s.sys.sill.halted = false →
      (∃ t, exec .haltedTimeout s = .next t ∧ t.sys.sill.tilePwrEn = false ∧ ∀ n, tileOn t.sys.data n = false) ∧
      ∃ t, exec .haltedMissing s = .next t ∧ t.sys.sill.haltMissing = true) ∧
    (s.sys.sill.tilePwrEn = false →
      (∀ mv, 200 < mv → ∃ t, exec (.tileRailCheck mv) s = .next t ∧ t.sys.sill.inletLock = true ∧
        t.sys.sill.ssd = .opened ∧ t.sys.sill.contactor = false) ∧
      ∀ mv ≤ 200, exec (.tileRailCheck mv) s = .next s)

/-- State words, and how plumb follows its root. R158, R159, R160: a due state word leaves with the next sequence number; a
word received is taken once. R156, R161, R170, R171, R172, R175, R242: lock, markers, loss and takeover of the root, a new
backup, a lost member and a failed assembly. -/
def Obligations.PlumbWordsAndRoots : Prop :=
  ((∀ s : State, s.sys.data.on = true → (inSystem s.sys.data = false ∨ s.sys.data.plumb.trained = true) →
    (s.sys.data.beat.marking = true ∨ s.sys.data.beat.fault.isSome) → s.sys.data.plumb.wordDue = true →
    ∃ t w, exec .stateWordSend s = .next t ∧ t.sys.data.plumb.sent = some w ∧
      w.wseq = s.sys.data.plumb.wseq + 1 ∧ t.sys.data.plumb.wseq = s.sys.data.plumb.wseq + 1 ∧
      w.origin = ownModule s.sys.data ∧ w.stamp = s.sys.data.j1.stamp ∧ t.sys.data.plumb.wordDue = false) ∧
  ∀ (s : State) (e : EngineIx) (x : BitVec 128) (rest : List (BitVec 128)) (w : StateWord),
    (engineOf s.sys.data e).wordsIn = x :: rest → wordOf x = some w → w.origin ≠ ownModule s.sys.data →
    (w.wseq ∉ look [] s.sys.data.plumb.seen w.origin.toNat →
      ∃ t, exec (.stateWordReceive e) s = .next t ∧ w.wseq ∈ look [] t.sys.data.plumb.seen w.origin.toNat ∧
        look 0 t.sys.data.plumb.heard w.origin.toNat = s.sys.data.beat.tick) ∧
    (w.wseq ∈ look [] s.sys.data.plumb.seen w.origin.toNat →
      ∃ t, exec (.stateWordReceive e) s = .next t ∧ t.sys.data.plumb = s.sys.data.plumb)) ∧
  (∀ s : State,
    (∀ ok, s.sys.data.on = true → s.sys.data.beat.marking = true → ∃ t, exec (.plumbLock ok) s = .next t ∧
      t.sys.data.plumb.locked = ok ∧ t.sys.data.plumb.wordDue = true) ∧
    (∀ (e : EngineIx) (x : BitVec 128) (b : Int) (m : MarkerIn), (engineOf s.sys.data e).markerIn = some (x, b) →
      markerOf s.sys.data.beat.tick (phaseErr b (x.extractLsb' 64 32) s.sys.data) x = some m →
      ∃ t, exec (.markerReceive e) s = .next t ∧ look none t.sys.data.plumb.markers e = some m) ∧
    (inSystem s.sys.data = true → s.sys.data.plumb.assembled = true → s.sys.data.plumb.synced = true →
      s.sys.data.plumb.root ≠ some (ownModule s.sys.data) → s.sys.data.plumb.rootLost = false →
      s.sys.data.plumb.rtick.toInt + 20 < s.sys.data.beat.tick.toInt - 1 →
      ∃ t, exec .rootLost s = .next t ∧ t.sys.data.plumb.rootLost = true ∧
        (s.sys.data.plumb.backup = some (ownModule s.sys.data) → t.sys.data.plumb.rootClaim = true ∧
          t.sys.data.plumb.takeover = some (s.sys.data.beat.tick - 1 + 32))) ∧
    (∀ at_ b, s.sys.data.plumb.takeover = some at_ → s.sys.data.plumb.backup = some b →
      at_.toNat ≤ s.sys.data.beat.tick.toNat → ∃ t, exec .rootTakeover s = .next t ∧
        t.sys.data.plumb.root = some b ∧ t.sys.data.plumb.rootLost = false ∧ t.sys.data.plumb.takeover = none) ∧
    (∀ b, s.sys.data.plumb.backup = some b → s.sys.data.plumb.root = some (ownModule s.sys.data) →
      (look 0 s.sys.data.plumb.heard b.toNat).toNat + 2048 ≤ s.sys.data.beat.tick.toNat →
      ∃ t, exec .backupRedesignate s = .next t ∧ t.sys.data.plumb.backup ≠ some b) ∧
    (∀ m : Fin 256, inSystem s.sys.data = true → s.sys.data.beat.run = true → isMember s.sys.data m = true →
      m.val ≠ (ownModule s.sys.data).toNat → s.sys.data.beat.pendFault = none →
      (look 0 s.sys.data.plumb.heard m).toNat + 2048 ≤ s.sys.data.beat.tick.toNat →
      ∃ t, exec (.memberLost m) s = .next t ∧ t.sys.data.beat.pendFault = some 5) ∧
    (inSystem s.sys.data = true → s.sys.data.plumb.assembled = false → s.sys.data.plumb.incomplete = false →
      s.sys.data.plumb.trained = true → deadSide s.sys.data = true →
      ∃ t, exec .assemblyIncomplete s = .next t ∧ t.sys.data.plumb.incomplete = true))

/-! ### Scarf engines -/

/-- Scarf training and the order of cells. R233 to R236: an engine trains state by state and comes up, or fails with the
cause of the state that failed; from 8 lanes that pass it trains, the ninth being the spare; the peer's identity, digest and
latency are checked. R226 to R231: an engine that is up sends a due replay before anything new, a new cell with the next
sequence while its retry buffer has room, and a cell of no units and no words while it is full; every cell carries ack, nack
and its check value. A bad cell, and what follows it until its replay, is not accepted; the next cell in order is. -/
def Obligations.ScarfTrainsAndCarriesCells : Prop :=
  (∀ (s : State) (e : EngineIx),
    ((engineIn s e).state = .bias →
      TrainsTo s e (.calibrated true) .adapt ∧ TrainFails s e (.calibrated false) 1) ∧
    ((engineIn s e).state = .adapt →
      TrainsTo s e (.calibrated true) .lane ∧ TrainFails s e (.calibrated false) 2) ∧
    ((engineIn s e).state = .lane → ∀ rx tx : List Nat,
      (8 ≤ (passing rx).length → ∃ t, exec (.scarfTrainStateDone e (.lanes rx tx)) s = .next t ∧
        (engineIn t e).state = .id ∧ (engineIn t e).lanes = (passing rx).take 8 ∧
        (engineIn t e).spareLane = (passing rx).getD 8 15 ∧ (engineIn t e).txLanes = (passing tx).take 8 ∧
        (engineIn t e).ident = some (ownIdent s.sys.data e)) ∧
      ((passing rx).length < 8 → TrainFails s e (.lanes rx tx) 3)) ∧
    ((engineIn s e).state = .id → ∀ p : ScfIdent,
      let want := peerIdent s.sys.data e
      (p.module ≠ want.module ∨ p.side ≠ want.side ∨ p.index ≠ want.index → TrainFails s e (.peer p) 4) ∧
      (p.module = want.module → p.side = want.side → p.index = want.index →
        (p.digest ≠ want.digest → TrainFails s e (.peer p) 5) ∧ (p.digest = want.digest → TrainsTo s e (.peer p) .lat))) ∧
    ((engineIn s e).state = .lat → ∀ ns : Nat,
      (ns ≤ 270 → TrainsTo s e (.latency ns) .up) ∧ (270 < ns → TrainFails s e (.latency ns) 6))) ∧
  (∀ (s : State) (e : EngineIx), (engineIn s e).state = .up →
    (∀ phase : W32,
      ((engineIn s e).replay = [] → (engineIn s e).retry.length < 16 →
        ∃ t c, exec (.scarfCellSend e phase) s = .next t ∧ (engineIn t e).sent = some c ∧
          c.seq = (engineIn s e).txSeq + 1 ∧ c.ack = (engineIn s e).rxAck ∧ c.nack = (engineIn s e).nackDue ∧
          c.marker = (engineIn s e).markerDue ∧ c.phase = (if (engineIn s e).markerDue.isSome then phase else 0) ∧
          c.units.length ≤ 19 ∧ cellGood c [] = true ∧ (engineIn t e).retry = (engineIn s e).retry ++ [c] ∧
          (engineIn t e).nackDue = false) ∧
      (∀ c0 rest, (engineIn s e).replay = [] → 16 ≤ (engineIn s e).retry.length → (engineIn s e).retry = c0 :: rest →
        ∃ t c, exec (.scarfCellSend e phase) s = .next t ∧ (engineIn t e).sent = some c ∧ c.units = [] ∧ c.words = [] ∧
          c.seq = c0.seq - 1 ∧ (engineIn t e).retry = (engineIn s e).retry ∧
          (engineIn t e).words = (engineIn s e).words ∧ (engineIn t e).txQueue = (engineIn s e).txQueue) ∧
      (∀ c0 rest, (engineIn s e).replay = c0 :: rest →
        ∃ t c, exec (.scarfCellSend e phase) s = .next t ∧ (engineIn t e).replay = rest ∧ (engineIn t e).sent = some c ∧
          c.seq = c0.seq ∧ c.units = c0.units ∧ c.words = c0.words ∧ c.ack = (engineIn s e).rxAck ∧
          c.nack = (engineIn s e).nackDue ∧ cellGood c [] = true)) ∧
    (∀ (c : Cell) (arrival : Int) (errs : List LineError),
      (cellGood c errs = false → ((engineIn s e).rejecting = false ∨ c.seq = (engineIn s e).rxAck + 1) →
        ∃ t, exec (.scarfCellReceive e c arrival errs) s = .next t ∧ (engineIn t e).rxAck = (engineIn s e).rxAck ∧
          (engineIn t e).nackDue = true ∧ (engineIn t e).rejecting = true ∧
          (engineIn t e).retries = satInc (engineIn s e).retries 1 ∧
          (engineIn t e).fails = (engineIn s e).fails + if c.seq = (engineIn s e).rxAck + 1 then 1 else 0) ∧
      (cellGood c errs = false → (engineIn s e).rejecting = true → c.seq ≠ (engineIn s e).rxAck + 1 →
        ∃ t, exec (.scarfCellReceive e c arrival errs) s = .next t ∧ (engineIn t e).rxAck = (engineIn s e).rxAck ∧
          (engineIn t e).nackDue = (engineIn s e).nackDue ∧ (engineIn t e).retries = (engineIn s e).retries ∧
          (engineIn t e).fails = (engineIn s e).fails) ∧
      (cellGood c errs = true → c.seq = (engineIn s e).rxAck + 1 →
        ∃ t, exec (.scarfCellReceive e c arrival errs) s = .next t ∧ (engineIn t e).rxAck = c.seq ∧
          (engineIn t e).rejecting = false ∧ (engineIn t e).fails = 0 ∧
          ∀ x ∈ (engineIn t e).retry, ackCovers c.ack x.seq = false) ∧
      (cellGood c errs = true → c.seq ≠ (engineIn s e).rxAck + 1 → (engineIn s e).rejecting = true →
        ∃ t, exec (.scarfCellReceive e c arrival errs) s = .next t ∧ (engineIn t e).rxAck = (engineIn s e).rxAck ∧
          (engineIn t e).wordsIn = (engineIn s e).wordsIn ∧ (engineIn t e).held = (engineIn s e).held)))

/-- Scarf engines that fail, swap lanes or retrain, and the flits they hold. R232, R237, R239: an engine goes down and
retrains after 8 failures of one sequence or an ack that has not advanced for 4 µs; a running module whose scheduled flits
it carries has beat fault 8. A degraded lane is swapped for the spare: after 64 good cells the receiver says so, and the
peer's first cell after that comes under the new assignment. A retrain begins at SCF_ADAPT, and none is accepted while
RUNNING. R245, R246: the entry engine releases a held flit in its arrival beat, so that it reaches its landing buffer in
time, and not before; one that arrives for a later beat waits; a late one is written, counts, and more than 288 cycles late
is beat fault 8. -/
def Obligations.EnginesFailSwapRetrainAndRelease : Prop :=
  (∀ (s : State) (e : EngineIx),
    ((engineIn s e).state = .up → ∀ entry : Bool,
      (8 ≤ (engineIn s e).fails ∨
          ((engineIn s e).retry ≠ [] ∧ (engineIn s e).ackSince.toNat + 4000 ≤ s.sys.ts.toNat) →
        ∃ t, exec (.engineDown e entry) s = .next t ∧ (engineIn t e).state = .adapt ∧ (engineIn t e).failCause = 7 ∧
          (s.sys.mgmt.module = .running ∨ s.sys.mgmt.module = .held → (entry = true ∨ isExit s.sys.data e = true) →
            s.sys.data.beat.pendFault = none → tileReported s.sys.data = false →
            t.sys.data.beat.pendFault = some 8)) ∧
      ((engineIn s e).fails < 8 → ((engineIn s e).retry = [] ∨ s.sys.ts.toNat < (engineIn s e).ackSince.toNat + 4000) →
        exec (.engineDown e entry) s = .next s)) ∧
    (∀ lane : Fin 9, (engineIn s e).state = .up → lane.val ∈ (engineIn s e).lanes → (engineIn s e).spareLane < 9 →
      (engineIn s e).swapping = none →
      (laneDegraded (engineIn s e) lane = true → ∃ t, exec (.laneSwapRequest e lane) s = .next t ∧
        (engineIn t e).swapReq = true ∧ (engineIn t e).swapping = some (lane.val, 0)) ∧
      (laneDegraded (engineIn s e) lane = false → ∃ t, exec (.laneSwapRequest e lane) s = .next t ∧
        engineIn t e = engineIn s e)) ∧
    (∀ lane n, (engineIn s e).swapping = some (lane, n) →
      ((engineIn s e).swapSeen = true → ∃ t, exec (.laneSwapComplete e) s = .next t ∧ (engineIn t e).spareLane = 15 ∧
        (engineIn t e).swapping = none ∧ (engineIn t e).lanes = (engineIn s e).lanes) ∧
      ((engineIn s e).swapSeen = false → exec (.laneSwapComplete e) s = .next s) ∧
      ∀ (c : Cell) (arrival : Int) (errs : List LineError), (engineIn s e).state = .up → cellGood c errs = true →
        c.seq = (engineIn s e).rxAck + 1 → ∃ t, exec (.scarfCellReceive e c arrival errs) s = .next t ∧
          (engineIn t e).swapping = some (lane, n + 1) ∧ (n + 1 = 64 → (engineIn t e).swapNow = true) ∧
          (c.swapNow = true → (engineIn s e).swapSent = true → (engineIn s e).swapSeen = false →
            (engineIn t e).swapSeen = true ∧
            (engineIn t e).lanes = (engineIn s e).lanes.map (fun x => if x = lane then (engineIn s e).spareLane else x))) ∧
    (∀ (m : Msg) (side : Fin 4) (index : BitVec 8), s.sys.data.on = true →
      (s.sys.mgmt.module = .running → ∃ t, exec (.scarfRetrain m side index) s = .next t ∧
        t.sys.data.reply = some ⟨some m, 0x0410, []⟩ ∧ t.sys.data.engines = s.sys.data.engines) ∧
      (s.sys.mgmt.module ≠ .running → sideNo (engineSide e) = side.val → index = 0xFF ∨ index.toNat = e.val % 12 →
        (engineIn s e).state ≠ .off → ∃ t, exec (.scarfRetrain m side index) s = .next t ∧
          t.sys.data.reply = some ⟨some m, 0, []⟩ ∧ (engineIn t e).state = .adapt))) ∧
  (∀ (s : State) (e : EngineIx) (n cycle : Nat) (f : HeldFlit) (ix : Nat), (engineIn s e).held[n]? = some f →
    physTile s.sys.data f.row f.col = some ix → tileOn s.sys.data ix = true →
    let beats := (s.sys.data.beat.count.setWidth 8 - f.arriveBeat).toNat
    (128 ≤ beats ∨ cycle < 2000 * beats ∨ (beats = 0 ∧ (s.sys.data.beat.advancing = false ∨ 2256 ≤ cycle)) →
      exec (.scarfFlitRelease e n cycle) s = .next s) ∧
    (beats < 128 → 2000 * beats ≤ cycle → (beats = 0 → s.sys.data.beat.advancing = true ∧ cycle < 2256) →
      (cycle + entryCycles e ix + 2 < f.land + f.k → exec (.scarfFlitRelease e n cycle) s = .next s) ∧
      (cycle + entryCycles e ix + 2 = f.land + f.k →
        ∃ t, exec (.scarfFlitRelease e n cycle) s = .next t ∧
          (engineIn t e).held.length + 1 = (engineIn s e).held.length ∧
          t.sys.data.mesh.flits = s.sys.data.mesh.flits ++
            [⟨s.sys.data.beat.count, f.land, f.k, attachTile e, ix, f.offset, f.data⟩]) ∧
      (f.land + f.k < cycle + entryCycles e ix + 2 →
        ∃ t, exec (.scarfFlitRelease e n cycle) s = .next t ∧
          (engineIn t e).held.length + 1 = (engineIn s e).held.length ∧
          (∀ k < f.data.length, readByte (tileIn t ix).store (f.offset % 2 ^ 24 + k) = f.data.getD k 0) ∧
          (engineIn t e).scarfLate = satInc (engineIn s e).scarfLate 1 ∧
          (f.land + f.k + 288 < cycle + entryCycles e ix + 2 → s.sys.data.beat.pendFault = none →
            tileReported s.sys.data = false → t.sys.data.beat.pendFault = some 8))))

/-! ### Hosts: sessions, run control, loads, transfers, events -/

/-- Sessions, the control role and the subscribers of events. R297, R299, R300, R316: OPEN makes a session, and grants the
control role when asked and free; it is refused when 8 sessions exist or the role is held; CLOSE and 60 s of silence end a
session, 5 s without a HEARTBEAT the role. R315: acknowledgements, resends and lapses of event subscribers, on each plane.
-/
def Obligations.SessionsAndEventSubscribers : Prop :=
  (∀ s : State,
    (∀ (m : Msg) (control force : Bool), s.sys.ctrl.on = true →
      s.sys.ctrl.sessions.find? (fun x => x.addr == m.addr && x.openSeq == m.seq) = none →
      (s.sys.ctrl.sessions.length < 8 → (control = true → s.sys.ctrl.control = none ∨ force = true) →
        journalFull s.sys.ctrl = false →
        ∃ t r, exec (.hostOpen m control force) s = .next t ∧
          t.sys.ctrl.sessions.length = s.sys.ctrl.sessions.length + 1 ∧ t.sys.ctrl.reply = some r ∧
          r.resp.status = 0 ∧ r.resp.data = natLe 4 s.sys.ctrl.nextSession.toNat ∧
          (control = true → t.sys.ctrl.control = some s.sys.ctrl.nextSession ∧ t.sys.ctrl.hostAlive = false) ∧
          (control = false → t.sys.ctrl.control = s.sys.ctrl.control)) ∧
      (8 ≤ s.sys.ctrl.sessions.length →
        ∃ t, exec (.hostOpen m control force) s = .next t ∧ Answered t m 0x0103 ∧
          t.sys.ctrl.sessions = s.sys.ctrl.sessions) ∧
      (s.sys.ctrl.sessions.length < 8 → control = true → s.sys.ctrl.control.isSome = true → force = false →
        ∃ t, exec (.hostOpen m control force) s = .next t ∧ Answered t m 0x0502 ∧
          t.sys.ctrl.control = s.sys.ctrl.control)) ∧
    (∀ m : Msg, NewMessage s m →
      (∃ t, exec (.hostClose m) s = .next t ∧ Answered t m 0 ∧ (∀ x ∈ t.sys.ctrl.sessions, x.num ≠ m.session) ∧
        (s.sys.ctrl.control = some m.session → t.sys.ctrl.control = none ∧ t.sys.ctrl.hostAlive = false)) ∧
      (∃ t r, exec (.hostHeartbeat m) s = .next t ∧ Answered t m 0 ∧ t.sys.ctrl.reply = some r ∧
        r.resp.data.length = 30 ∧ r.resp.data.take 16 = wordBytes s.sys.ctrl.word ∧
        (s.sys.ctrl.control = some m.session → t.sys.ctrl.hostAlive = true))) ∧
    (∀ (engine : Fin 4) (addr : Nat) (bs : List Byte),
      (s.sys.ctrl.on = true → badDatagram bs = true → ∃ t, exec (.badMessage engine addr bs) s = .next t ∧
        Answered t (datagramMsg engine addr bs) 0x0101 ∧ t.sys.ctrl.sessions = s.sys.ctrl.sessions ∧
        t.sys.ctrl.journal = s.sys.ctrl.journal) ∧
      (badDatagram bs = false → exec (.badMessage engine addr bs) s = .next s)) ∧
    (∀ (n : W32) (x : Session), sessionOf s.sys.ctrl n = some x →
      (60000000000 < (s.sys.ts - x.lastMsg).toNat → ∃ t, exec (.sessionTimeout n) s = .next t ∧
        (∀ y ∈ t.sys.ctrl.sessions, y.num ≠ n) ∧ t.sys.ctrl.control ≠ some n) ∧
      ((s.sys.ts - x.lastMsg).toNat ≤ 60000000000 → exec (.sessionTimeout n) s = .next s) ∧
      (s.sys.ctrl.control = some n →
        (5000000000 < (s.sys.ts - x.lastBeat.getD x.granted).toNat → ∃ t, exec .controlRoleLost s = .next t ∧
          t.sys.ctrl.control = none ∧ t.sys.ctrl.hostAlive = false ∧ t.sys.ctrl.sessions = s.sys.ctrl.sessions) ∧
        ((s.sys.ts - x.lastBeat.getD x.granted).toNat ≤ 5000000000 → exec .controlRoleLost s = .next s)))) ∧
  (∀ s : State,
    (∀ (m : Msg) (next : W64) (sub : Bool), NewMessage s m → ∃ t, exec (.runEventAck m next sub) s = .next t ∧
      Answered t m 0 ∧ AckTaken s.sys.ts m.engine m.addr next sub s.sys.ctrl.ring t.sys.ctrl.ring) ∧
    (∀ (m : Msg) (next : W64) (sub : Bool), s.sys.data.on = true →
      ∃ t, exec (.dataEventAck m next sub) s = .next t ∧ t.sys.data.reply = some ⟨some m, 0, []⟩ ∧
        AckTaken s.sys.ts m.engine m.addr next sub s.sys.data.ring t.sys.data.ring) ∧
    ∀ (p : Plane) (addr : Nat),
      (∀ x, (ringIn s p).subs.find? (fun y => y.addr == addr) = some x → ∃ t, exec (.eventResend p addr) s = .next t ∧
        (ringIn t p).sent =
          (((ringIn s p).recs.filter fun y => decide (x.next.toNat ≤ y.seq.toNat)).take 64).map eventBytes ∧
        (ringIn t p).subs = (ringIn s p).subs) ∧
      ∃ t, exec (.subscriberLapse p addr) s = .next t ∧ (ringIn t p).recs = (ringIn s p).recs ∧
        ∀ x, x ∈ (ringIn t p).subs ↔
          x ∈ (ringIn s p).subs ∧ ¬(x.addr = addr ∧ 5000000000 ≤ (s.sys.ts - x.lastAck).toNat))

/-- Run control passes a command on as an order request or refuses it. R304, R305: a command of the control session that
passes every check becomes an order request on J2 with its op code and arrival stamp; START and RESUME need a rack order of
ready as well. R304: the first check that fails gives the refusal, which is answered and journaled. -/
def Obligations.RunControlAcceptsOrRefuses : Prop :=
  (∀ (s : State) (m : Msg), FromControl s m → WordRuns s →
    Requests (.hostHold m) s m 0x10 0 ∧
    (RunExists s → Requests (.hostStop m) s m 3 0) ∧
    (s.sys.ctrl.word.order = 2 → s.sys.ctrl.image.isSome = true → s.sys.ctrl.rc = .loaded ∨ s.sys.ctrl.rc = .held →
      Requests (.hostStart m) s m 1 0) ∧
    (s.sys.ctrl.word.order = 2 → s.sys.ctrl.rc = .held → s.sys.ctrl.restart = false → settled s.sys.data = true →
      Requests (.hostResume m) s m 2 0) ∧
    (∀ h, s.sys.ctrl.image = some h → h.tpPeriod ≠ 0 → RunExists s →
      Requests (.hostCheckpoint m) s m 4 0 ∧
      ∀ g : Fin 256, pwTurnState s.sys.ctrl.placement ≠ 2 →
        codeLegal h (repairOf s.sys.ctrl.repair) (h.sizeX + 1, h.sizeY + 1) (compose (pwCode s.sys.ctrl.placement) g) = true →
        pwTurnOk s.sys.ctrl.placement (compose (pwCode s.sys.ctrl.placement) g) = true →
        Requests (.hostTurn m g) s m 5 g) ∧
    ∀ v : F32, Requests (.hostCap m v) s m 0x11 0) ∧
  (∀ (s : State) (m : Msg), FromControl s m →
    (¬ WordRuns s → RefusedWith (.hostStart m) s m 0x20 0x0410 ∧ RefusedWith (.hostHold m) s m 0x21 0x0410 ∧
      RefusedWith (.hostResume m) s m 0x22 0x0410 ∧ RefusedWith (.hostCheckpoint m) s m 0x23 0x0410 ∧
      RefusedWith (.hostStop m) s m 0x25 0x0410) ∧
    (WordRuns s → s.sys.ctrl.word.order ≠ 2 →
      RefusedWith (.hostStart m) s m 0x20 0x041A ∧ RefusedWith (.hostResume m) s m 0x22 0x041A) ∧
    (WordRuns s → s.sys.ctrl.image = none → RefusedWith (.hostCheckpoint m) s m 0x23 0x0412) ∧
    (WordRuns s → s.sys.ctrl.rc = .noImage ∨ s.sys.ctrl.rc = .loaded → RefusedWith (.hostStop m) s m 0x25 0x041D) ∧
    (WordRuns s → s.sys.ctrl.rc = .loading → RefusedWith (.hostStop m) s m 0x25 0x041E) ∧
    (WordRuns s → s.sys.ctrl.word.order = 2 → s.sys.ctrl.rc = .held → s.sys.ctrl.restart = true →
      RefusedWith (.hostResume m) s m 0x22 0x0416))

/-- R305, R306, R32: Skour gives its verdict on an order request: what it accepts it carries out; one older than 20 ms is
discarded; once the module has left READY, RUNNING and HELD it refuses; without a verdict for 20 frames run control refuses.
-/
def Obligations.SkourJudgesOrderRequests : Prop :=
  ∀ s : State,
    (∀ r, s.sys.ctrl.orderReq = some r → skourUp s.sys = true →
      (20000000 < (s.sys.ts - r.stamp).toNat → ∃ t, exec .orderRequest s = .next t ∧ t.sys.ctrl.orderReq = none ∧
        t.sys.mgmt = s.sys.mgmt) ∧
      ((s.sys.ts - r.stamp).toNat ≤ 20000000 → leftSince s.sys = true → ∃ t, exec .orderRequest s = .next t ∧
        t.sys.mgmt.joints.verdict = 0x0410 ∧ t.sys.mgmt.joints.verdictCount = s.sys.mgmt.joints.verdictCount + 1 ∧
        t.sys.mgmt.module = s.sys.mgmt.module ∧ t.sys.mgmt.joints.order = s.sys.mgmt.joints.order) ∧
      ((s.sys.ts - r.stamp).toNat ≤ 20000000 → leftSince s.sys = false → orderSince s.sys = false →
        (1 ≤ r.op → r.op ≤ 5 → ∃ t, exec .orderRequest s = .next t ∧ t.sys.ctrl.orderReq = none ∧
          t.sys.mgmt.joints.verdict = 0 ∧ t.sys.mgmt.joints.verdictCount = s.sys.mgmt.joints.verdictCount + 1 ∧
          t.sys.mgmt.joints.order = nextOrder s.sys.mgmt r.op (if r.op = 5 then r.turn else 0) ∧
          (r.op ≤ 2 → t.sys.mgmt.module = .running) ∧ (r.op = 2 → t.sys.mgmt.joints.hostHold = false)) ∧
        (r.op = 0x10 → ∃ t, exec .orderRequest s = .next t ∧ t.sys.mgmt.joints.verdict = 0 ∧
          t.sys.mgmt.joints.hostHold = true ∧ t.sys.mgmt.module = s.sys.mgmt.module) ∧
        (r.op = 0x11 → ∃ t, exec .orderRequest s = .next t ∧ t.sys.ctrl.orderReq = none ∧
          (∀ v, judgeHostCap (rackCap s.sys) s.sys.ctrl.hostCap = .ok v →
            t.sys.mgmt.joints.verdict = 0 ∧ t.sys.mgmt.power.hostCap = v) ∧
          ∀ code, judgeHostCap (rackCap s.sys) s.sys.ctrl.hostCap = .error code →
            t.sys.mgmt.joints.verdict = BitVec.ofNat 16 code ∧ t.sys.mgmt.power.hostCap = s.sys.mgmt.power.hostCap))) ∧
    (∀ x, s.sys.ctrl.current = some x →
      (20000000 ≤ (s.sys.ts - x.stamp).toNat → s.sys.ctrl.queue = [] → ∃ t, exec .orderVerdictTimeout s = .next t ∧
        t.sys.ctrl.current = none ∧ t.sys.ctrl.orderReq = none ∧ Answered t x.msg 0x0420 ∧
        t.sys.ctrl.rc = s.sys.ctrl.rc) ∧
      ((s.sys.ts - x.stamp).toNat < 20000000 → exec .orderVerdictTimeout s = .next s))

/-- What J2 carries, and loads, restores and system descriptions. R17, R23, R24, R199, R301, R306, R307, R360, R362: the
joint J2 and the end of a stop: the state word both planes hold, the verdict it brings, the profile, the journal records,
and NO_IMAGE and READY once the stop has completed. R241, R260, R290, R308, R274: LOAD_BEGIN starts a load and drops the
image; data is taken from the control session while it lasts; a verdict of check 10, or 10 s without data, ends it; RESTORE
and SYS_DESC have their effect on both planes. -/
def Obligations.JointTwoAndLoads : Prop :=
  (∀ s : State,
    (skourUp s.sys = true → ∃ t, exec .j2StateWordUpdate s = .next t ∧ t.sys.mgmt.joints.word = stateWordOf s.sys ∧
      t.sys.ctrl.word = stateWordOf s.sys ∧ t.sys.ctrl.placement = placementWordOf s.sys.mgmt.joints.placement ∧
      (∀ x, s.sys.ctrl.on = true → s.sys.ctrl.queue = [] → s.sys.ctrl.current = some x →
        s.sys.mgmt.joints.verdictCount ≠ s.sys.ctrl.word.verdictCount →
        t.sys.ctrl.current = none ∧ Answered t x.msg s.sys.mgmt.joints.verdict)) ∧
    (skourUp s.sys = true → s.sys.ctrl.profileDue = true → ∃ t, exec .j2Profile s = .next t ∧
      t.sys.ctrl.profileDue = false ∧ t.sys.mgmt.power.profile = s.sys.ctrl.profile.bind readProfile ∧
      t.sys.mgmt.joints.minStep = s.sys.ctrl.stepExpected ∧
      getE t.sys Ent.profileState = (if (s.sys.ctrl.profile.bind readProfile).isSome then 1 else 2)) ∧
    (∀ r rest, s.sys.ctrl.journal = r :: rest → skourUp s.sys = true → ∃ t e, exec .j2JournalRecord s = .next t ∧
      t.sys.ctrl.journal = rest ∧ t.sys.mgmt.journal.find? (fun p => p.1 == s.sys.mgmt.jNext % 65536) = some e ∧
      e.2.time = r.time ∧ e.2.source = r.source ∧ e.2.kind = r.kind ∧ e.2.value = r.value ∧ e.2.result = r.result ∧
      e.2.sequence = s.sys.mgmt.jNext) ∧
    (s.sys.ctrl.rc = .stopping → s.sys.data.beat.run = false → quiescent s.sys.data = true →
      stopResetsOver s.sys.data = true → ∃ t, exec .stopComplete s = .next t ∧ t.sys.ctrl.rc = .noImage ∧
        t.sys.ctrl.image = none ∧ t.sys.mgmt.joints.hostHold = false ∧
        (s.sys.mgmt.module = .running ∨ s.sys.mgmt.module = .held → t.sys.mgmt.module = .ready))) ∧
  (∀ (s : State) (m : Msg),
    (FromControl s m → s.sys.ctrl.word.module = .ready → s.sys.ctrl.word.order = 2 → ∀ (len : Nat) (rep : List Byte),
      ∃ t j, exec (.loadBegin m len rep) s = .next t ∧ Answered t m 0 ∧ t.sys.ctrl.rc = .loading ∧
        t.sys.ctrl.image = none ∧ t.sys.ctrl.load = some j ∧ j.len = len ∧ j.repair = rep ∧ j.bytes = [] ∧
        t.sys.data.place.image = none ∧ t.sys.data.place.loadCheck = 0xFFFF) ∧
    (FromControl s m → s.sys.ctrl.word.module = .ready → s.sys.ctrl.image.isSome = true → s.sys.ctrl.rc ≠ .noImage →
      s.sys.ctrl.rc ≠ .stopping → s.sys.ctrl.rc ≠ .void →
      restoreFitsNow s.sys.data = true → ∃ t, exec (.hostRestore m) s = .next t ∧ Answered t m 0 ∧
        t.sys.ctrl.rc = .held ∧ t.sys.ctrl.restart = true ∧
        ∀ i, s.sys.data.place.image = some i → t.sys.data.beat.count = BitVec.ofNat 64 (restoreBeat i s.sys.data)) ∧
    (FromControl s m → s.sys.ctrl.word.module = .ready ∨ s.sys.ctrl.word.module = .standby → ∀ payload,
      (descValid payload = true → ∃ t, exec (.sysDesc m payload) s = .next t ∧ Answered t m 0 ∧
        t.sys.ctrl.desc = some (descOf (payload.headD 0) (payload.drop 1)) ∧
        t.sys.data.desc = some (descOf (payload.headD 0) (payload.drop 1)) ∧ t.sys.data.plumb.assembled = false) ∧
      (descValid payload = false → RefusedWith (.sysDesc m payload) s m 0x13 0x0101)) ∧
    (NewMessage s m → s.sys.ctrl.control = some m.session → ∀ (off : Nat) (bs : List Byte),
      (s.sys.ctrl.load = none → ∃ t, exec (.loadData m off bs) s = .next t ∧ Answered t m 0x0421 ∧
        t.sys.data = s.sys.data) ∧
      ∀ j, s.sys.ctrl.load = some j → j.judged = false →
        loadFull (ownModule s.sys.data).toNat (takeBytes (cenvOf s.sys) off bs j) = false →
        ∃ t k, exec (.loadData m off bs) s = .next t ∧ Answered t m 0 ∧ t.sys.ctrl.load = some k ∧ k.last = s.sys.ts ∧
          (∀ a, readByte k.bytes (off + a) = if a < min bs.length (j.len - off) then bs.getD a 0
            else readByte j.bytes (off + a)) ∧ t.sys.ctrl.journal = s.sys.ctrl.journal) ∧
    (∀ j, s.sys.ctrl.load = some j → j.judged = true →
      (s.sys.ctrl.profileDue = false → pwLoadCheck s.sys.ctrl.placement = 0 → ∃ t, exec .loadComplete s = .next t ∧
        t.sys.ctrl.rc = .loaded ∧ t.sys.ctrl.load = none ∧ t.sys.ctrl.image = some (readHeader j.bytes) ∧
        t.sys.data = s.sys.data) ∧
      (s.sys.ctrl.profileDue = false → pwLoadCheck s.sys.ctrl.placement = 0x0314 → ∃ t, exec .loadComplete s = .next t ∧
        t.sys.ctrl.rc = .noImage ∧ t.sys.ctrl.load = none ∧ t.sys.ctrl.image = none ∧ t.sys.data.place.image = none) ∧
      (s.sys.ctrl.profileDue = true → exec .loadComplete s = .next s)) ∧
    (∀ j, s.sys.ctrl.load = some j → j.judged = false →
      (10000000000 ≤ (s.sys.ts - j.last).toNat → ∃ t, exec .loadTimeout s = .next t ∧ t.sys.ctrl.rc = .noImage ∧
        t.sys.ctrl.load = none) ∧
      ((s.sys.ts - j.last).toNat < 10000000000 → exec .loadTimeout s = .next s)) ∧
    (let p := s.sys.data.place
      let m := logicalModule s.sys.data
      (∀ i, p.image = some i → ∃ t, exec .placementCheck s = .next t ∧
        t.sys.data.place.turnOk = turnOkOf s.sys.data i.header p.repair m (heldTables s.sys.data) ∧
        (scheduleOk s.sys.data i.header p.repair 0 m (heldTables s.sys.data) = true → t.sys.data.place.loadCheck = 0) ∧
        (scheduleOk s.sys.data i.header p.repair 0 m (heldTables s.sys.data) = false →
          t.sys.data.place.loadCheck = 0x0314)) ∧
      (p.image = none → p.arrived = true → tilesReady s.sys.data = true →
        let i := readImage p.incoming
        ∃ t, exec .placementCheck s = .next t ∧
          (scheduleOk s.sys.data i.header p.repair 0 m (schedOf i m) = true →
            t.sys.data.place.image = some i ∧ t.sys.data.place.loadCheck = 0) ∧
          (scheduleOk s.sys.data i.header p.repair 0 m (schedOf i m) = false →
            t.sys.data.place.image = none ∧ t.sys.data.place.loadCheck = 0x0314))))

/-- R275 to R281, R286, R288: a turn goes through its phases when what each waits for holds, completes with turn_state 3 and
the new code, and fails with turn_state 4; a checkpoint ends once it is captured; a due turn is reported once. -/
def Obligations.TurnsGoThroughTheirPhases : Prop :=
  ∀ s : State,
    (∀ (j : TurnJob) (i : Image), s.sys.data.place.job = some j → s.sys.data.place.image = some i →
      (∀ arrived : List Arrived, copyServed s.sys.data = true →
        (j.phase = 0 → quiescent s.sys.data = true) → (j.phase ≠ 0 → j.checkpoint = false) →
        (j.phase = 2 → quiescent s.sys.data = true) →
        (j.phase = 3 → tilesReady s.sys.data = true ∧ shadowsHold i j.target s.sys.data = true) → j.phase ≤ 3 →
        ∃ t, exec (.turnPhaseDone arrived) s = .next t ∧
          t.sys.data.place.job = some { j with phase := j.phase + 1 }) ∧
      (j.checkpoint = false → 1000000 * max 1000 (4 * i.header.turnMs.getD j.target 0) < (s.sys.ts - j.since).toNat →
        ∃ t, exec (.turnFailed .timeout) s = .next t ∧ t.sys.data.place.turnState = 4 ∧ t.sys.data.place.job = none ∧
          t.sys.data.place.code = s.sys.data.place.code)) ∧
    (∀ j : TurnJob, s.sys.data.place.job = some j →
      (j.checkpoint = false → j.phase = 4 → ∃ t, exec .turnComplete s = .next t ∧ t.sys.data.place.turnState = 3 ∧
        t.sys.data.place.code = j.target ∧ t.sys.data.place.job = none) ∧
      (j.checkpoint = true → j.phase = 1 → ∃ t, exec .checkpointCaptured s = .next t ∧ t.sys.data.place.job = none ∧
        t.sys.data.place.turnState = s.sys.data.place.turnState)) ∧
    (skourUp s.sys = true → getE s.sys Ent.turnInterval ≠ 0 → getE s.sys Ent.turnDue = 0 →
      getE s.sys Ent.turnInterval * 1000 ≤ s.sys.mgmt.joints.runFrames →
      ∃ t, exec .turnDue s = .next t ∧ getE t.sys Ent.turnDue = 1 ∧ exec .turnDue t = .next t)

/-- R239, R292, R293, R309 to R312: CSR access, bulk transfers and queue pairs at the host ports: what a request names it
reads or writes, and what R309 to R312 refuse is answered with its status. -/
def Obligations.HostPortsReadAndWrite : Prop :=
  ∀ s : State, s.sys.data.on = true →
    (∀ (m : Msg) (a : W64) (phys : BitVec 16),
      (∀ k, csrPlace s.sys.data a phys.toNat = .refused k → ∃ t, exec (.tcsrRead m a phys) s = .next t ∧
        t.sys.data.reply = some ⟨some m, BitVec.ofNat 16 k, List.replicate 8 (if k = 2 then 0xFF else 0)⟩) ∧
      (∀ ix off, csrPlace s.sys.data a phys.toNat = .tile ix off → ∃ t, exec (.tcsrRead m a phys) s = .next t ∧
        t.sys.data.reply =
          some ⟨some m, 0, natLe 8 (csrRead (ctxOf (envOf s.sys) s.sys.data ix) ix (tileIn s ix) off).toNat⟩ ∧
        tileIn t ix = tileIn s ix) ∧
      (∀ f off, csrPlace s.sys.data a phys.toNat = .field f off → ∃ t, exec (.tcsrRead m a phys) s = .next t ∧
        t.sys.data.reply =
          some ⟨some m, 0, natLe 8 (fieldCsrRead (quiescent s.sys.data) f (fieldIn s f) off).toNat⟩ ∧
        t.sys.data.fields = s.sys.data.fields) ∧
      (∀ (v : W64) k, csrPlace s.sys.data a phys.toNat = .refused k → ∃ t, exec (.tcsrWrite m a phys v) s = .next t ∧
        t.sys.data.reply = some ⟨some m, BitVec.ofNat 16 k, []⟩ ∧ t.sys.data.tiles = s.sys.data.tiles) ∧
      (∀ (v : W64) ix off, csrPlace s.sys.data a phys.toNat = .tile ix off →
        ∃ t, exec (.tcsrWrite m a phys v) s = .next t ∧ t.sys.data.reply = some ⟨some m, 0, []⟩ ∧
          (tileIn t ix).csr = (csrWrite (ctxOf (envOf s.sys) s.sys.data ix) (tileIn s ix) off v).csr) ∧
      ∀ (v : W64) f off, csrPlace s.sys.data a phys.toNat = .field f off →
        ∃ t, exec (.tcsrWrite m a phys v) s = .next t ∧ t.sys.data.reply = some ⟨some m, 0, []⟩ ∧
          (fieldIn t f).routerCfg = (fieldCsrWrite (envOf s.sys).running (fieldIn s f) off v).routerCfg) ∧
    (∀ (m : Msg) (a : W64) (bs : List Byte),
      (isLoadAddr a = true ∨ 8152 < bs.length ∨ bulkPlace s.sys.data a bs.length = none →
        ∃ t, exec (.tstreamPut m a bs) s = .next t ∧ t.sys.data.reply = some ⟨some m, 1, []⟩ ∧
          t.sys.data.tiles = s.sys.data.tiles ∧ t.sys.data.fields = s.sys.data.fields) ∧
      (∀ ix off, isLoadAddr a = false → bs.length ≤ 8152 → bulkPlace s.sys.data a bs.length = some (.store ix off) →
        (∃ t, exec (.tstreamPut m a bs) s = .next t ∧ t.sys.data.reply = some ⟨some m, 0, []⟩ ∧
          ∀ k, readByte (tileIn t ix).store k =
            if off ≤ k ∧ k < off + bs.length then bs.getD (k - off) 0 else readByte (tileIn s ix).store k) ∧
        (∀ (e : Fin 4) qpn key, qpAdmits s.sys.data e qpn key = true →
          ∃ t, exec (.rdmaWrite e qpn key a bs) s = .next t ∧ t.sys.data.reply = some ⟨none, 0, []⟩ ∧
            ∀ k, readByte (tileIn t ix).store k =
              if off ≤ k ∧ k < off + bs.length then bs.getD (k - off) 0 else readByte (tileIn s ix).store k))) ∧
    (∀ (m : Msg) (e : Fin 4) (a : W64) (n : Nat) (found : StackFound) (p : BulkPlace), isLoadAddr a = false →
      bulkPlace s.sys.data a n = some p →
      (n ≤ 8160 → bulkServed s.sys.data (dmaOf m.engine) p = true → ∃ t, exec (.tstreamGet m a n found) s = .next t ∧
        t.sys.data.reply = some ⟨some m, 0, bulkRead s.sys.data p n⟩) ∧
      (∀ qpn key, qpAdmits s.sys.data e qpn key = true → bulkServed s.sys.data (dmaOf qpn.toNat) p = true →
        ∃ t, exec (.rdmaRead e qpn key a n found) s = .next t ∧
          t.sys.data.reply = some ⟨none, 0, bulkRead s.sys.data p n⟩) ∧
      ∀ qpn key, qpAdmits s.sys.data e qpn key = false →
        ∃ t, exec (.rdmaRead e qpn key a n found) s = .next t ∧ t.sys.data.reply = some ⟨none, 1, []⟩ ∧
          ∀ q ∈ (hostOf t.sys.data e).qps, q.qpn = qpn → q.error = true) ∧
    (∀ (m : Msg) (qpn psn : W32) (cls : Nat),
      ((hostOf s.sys.data m.engine).qps.length < 1024 → ∃ t q, exec (.qpOpen m qpn psn cls) s = .next t ∧
        (hostOf t.sys.data m.engine).qps = (hostOf s.sys.data m.engine).qps ++ [q] ∧ q.hostQpn = qpn ∧ q.hostPsn = psn ∧
        q.cls = cls ∧ q.error = false ∧ ∀ x ∈ (hostOf s.sys.data m.engine).qps, x.qpn ≠ q.qpn) ∧
      (1024 ≤ (hostOf s.sys.data m.engine).qps.length → ∃ t, exec (.qpOpen m qpn psn cls) s = .next t ∧
        t.sys.data.reply = some ⟨some m, 1, []⟩ ∧ t.sys.data.hosts = s.sys.data.hosts) ∧
      (∀ x, x ∈ (hostOf s.sys.data m.engine).qps → x.qpn = qpn → ∃ t, exec (.qpClose m qpn) s = .next t ∧
        t.sys.data.reply = some ⟨some m, 0, []⟩ ∧ ∀ y ∈ (hostOf t.sys.data m.engine).qps, y.qpn ≠ qpn)) ∧
    (∀ e : Fin 4, (hostOf s.sys.data e).on = true →
      (∃ t, exec (.hostPortOtherFrame e .ipv4) s = .next t ∧
        (hostOf t.sys.data e).discarded = (hostOf s.sys.data e).discarded + 1) ∧
      (∃ t, exec (.hostPortOtherFrame e .echo) s = .next t ∧ (hostOf t.sys.data e) = hostOf s.sys.data e) ∧
      ∀ lane : Fin 8, (hostOf s.sys.data e).sparedLane = none →
        ∃ t, exec (.hostPortRetrain e (some lane)) s = .next t ∧ (hostOf t.sys.data e).sparedLane = some lane.val ∧
          (hostOf t.sys.data e).pfc = getE s.sys Ent.hostPfcPriority)

/-! ### Power -/

/-- The inlet, the converter blocks, the intermediate bus and the phases. R335, R336, R337, R338: the inlet closes in step 4
of a start when the contactor holds nothing back and precharge reaches the inlet's voltage; it opens on Skour's order, after
a precharge of 500 ms, and on an input loss, whose recovery lets step 4 begin again; readings inside the range lose nothing.
R341, R342, R344: a converter block that faults is isolated, retired at its third fault within 24 hours, and else restarted
after 10 s; a bus below 48.0 V for more than 100 µs raises throttle until it has been back for 1,000 frames; a disabled
phase counts against its field. -/
def Obligations.InletBlocksAndBus : Prop :=
  (∀ s : State,
    (∀ behind inlet reached : Nat, closing s.sys = true → s.sys.sill.on = true → forcedState s.sys = none →
      s.sys.sill.ssd = .opened → 680 ≤ inlet → inlet ≤ 880 →
      (50 ≤ behind → ∃ t, exec (.inletClose behind inlet reached) s = .next t ∧ dbit t.sys.mgmt Ent.inletFlags 1 = true ∧
        t.sys.sill = s.sys.sill ∧ getE t.sys Ent.startFault = 4 * 256 + 1 ∧ t.sys.mgmt.start = none) ∧
      (behind < 50 → inlet ≤ reached + 20 → reached ≤ inlet + 20 →
        ∃ t j, exec (.inletClose behind inlet reached) s = .next t ∧ t.sys.sill.ssd = .closed ∧
          t.sys.sill.contactor = true ∧ t.sys.sill.halt = false ∧ t.sys.mgmt.module = .standby ∧
          getE t.sys Ent.inletState = 2 ∧ t.sys.mgmt.start = some j ∧ j.step = 5) ∧
      (behind < 50 → reached + 20 < inlet → ∃ t, exec (.inletClose behind inlet reached) s = .next t ∧
        t.sys.sill.ssd = .precharging ∧ t.sys.sill.contactor = true ∧ getE t.sys Ent.inletState = 1)) ∧
    (s.sys.sill.ssd = .precharging → ∃ t, exec .prechargeTimeout s = .next t ∧ t.sys.sill.ssd = .opened ∧
      t.sys.sill.contactor = false ∧ dbit t.sys.mgmt Ent.inletFlags 2 = true ∧
      getE t.sys Ent.startFault = 4 * 256 + 2 ∧ t.sys.mgmt.start = none) ∧
    (s.sys.sill.ssd ≠ .opened → forcedState s.sys = none → ∃ t, exec .inletOpen s = .next t ∧
      t.sys.sill.ssd = .opened ∧ t.sys.sill.contactor = false ∧ t.sys.mgmt.module = .off ∧ t.sys.data.on = false) ∧
    (100 < s.sys.mgmt.power.warnFrames → dbit s.sys.mgmt Ent.inletFlags 0 = false →
      ∃ t, exec .inputOutOfRange s = .next t ∧ dbit t.sys.mgmt Ent.inletFlags 0 = true) ∧
    (s.sys.mgmt.power.warnFrames ≤ 100 → exec .inputOutOfRange s = .next s) ∧
    (inletClosed s.sys = true → forcedState s.sys = none →
      (∀ k, (∃ v us, k = .volts v us ∧ (920 < v ∧ 50 ≤ us ∨ v < 640 ∧ 2000 < us)) ∨
          (∃ a us, k = .amps a us ∧ 120 < a ∧ 2 ≤ us) →
        ∃ t, exec (.inputLoss k) s = .next t ∧ t.sys.sill.ssd = .opened ∧ t.sys.mgmt.power.inletLost = true ∧
          t.sys.mgmt.module = .off ∧ AlarmOn t 4 ∧
          getE t.sys Ent.inputFaults = (getE s.sys Ent.inputFaults + 1) % 2 ^ 32) ∧
      (∀ v us, 640 ≤ v → v ≤ 920 → exec (.inputLoss (.volts v us)) s = .next s) ∧
      ∀ a us, a ≤ 120 → exec (.inputLoss (.amps a us)) s = .next s) ∧
    (s.sys.mgmt.power.inletLost = true → skourUp s.sys = true → ∃ t, exec .inletRecovered s = .next t ∧
      t.sys.mgmt.power.inletLost = false ∧ ¬ AlarmOn t 4 ∧
      (s.sys.mgmt.module = .off → 1 ≤ getE s.sys Ent.powerOrder → s.sys.mgmt.orderAt = none →
        forcedState s.sys = none → s.sys.mgmt.start = none → ∃ j, t.sys.mgmt.start = some j ∧ j.step = 4))) ∧
  (∀ s : State,
    (∀ n : Fin 4, getE s.sys (Ent.convState + n) = 1 → ∃ t, exec (.converterFault n) s = .next t ∧
      getE t.sys (Ent.convState + n) =
        if 2 ≤ ((look [] s.sys.mgmt.power.convFaults n).filter fun a => decide (sinceT s.sys a < 86400000000000)).length
        then 3 else 2) ∧
    (∀ n : Fin 4, getE s.sys (Ent.convState + n) = 2 → inletClosed s.sys = true → skourUp s.sys = true →
      (10000000000 ≤ sinceT s.sys (look 0 s.sys.mgmt.power.convRestart n) →
        ∃ t, exec (.converterRestart n) s = .next t ∧ getE t.sys (Ent.convState + n) = 1) ∧
      (sinceT s.sys (look 0 s.sys.mgmt.power.convRestart n) < 10000000000 →
        exec (.converterRestart n) s = .next s)) ∧
    (inletClosed s.sys = true → skourUp s.sys = true → ∀ mv us : Nat,
      (mv < 48000 → 100 < us → ∃ t, exec (.busUndervoltage mv us) s = .next t ∧
        t.sys.mgmt.power.throttles.busUv = true ∧ (s.sys.data.on = true → t.sys.data.j1.throttle = true)) ∧
      (48000 ≤ mv ∨ us ≤ 100 → exec (.busUndervoltage mv us) s = .next s)) ∧
    (s.sys.mgmt.power.throttles.busUv = true → skourUp s.sys = true →
      (1000 ≤ s.sys.mgmt.power.busOkFrames → ∃ t, exec .busUndervoltageClear s = .next t ∧
        t.sys.mgmt.power.throttles.busUv = false) ∧
      (s.sys.mgmt.power.busOkFrames < 1000 → exec .busUndervoltageClear s = .next s)) ∧
    ∀ (f : FieldIx) (p : Fin 18), (look [] s.sys.mgmt.power.phasesOut f).contains p.val = false →
      ∃ t, exec (.phaseDisable f p) s = .next t ∧
        look [] t.sys.mgmt.power.phasesOut f = p.val :: look [] s.sys.mgmt.power.phasesOut f ∧
        phasesOf t.sys.mgmt f = min 16 (17 - (look [] s.sys.mgmt.power.phasesOut f).length))

/-- Power domains and power orders. R29, R30, R347, R348, R349, R445: an enabled domain comes up once the groups before its
own are on, a tile only when it is in service and not marked, a service domain when its supply is there; one that misses its
rail goes off, counts, and marks its tile or fails its stack or engine. In SERVICE no domain is enabled so. R353 to R355: a
power order acts once its delay has passed, outside SAFE_STOP and LEAK_CUT: off opens the inlet, standby powers the data
plane down, ready makes a start due. -/
def Obligations.DomainsAndPowerOrders : Prop :=
  (∀ (s : State) (d : Fin 1404),
    (s.sys.mgmt.module ≠ .service → groupsBefore d ≤ groupsOn s.sys →
      (∀ ix, domainOf d = .tile ix → s.sys.data.on = true → s.sys.data.tilePwrEn = true → tileOn s.sys.data ix = false →
        ((getE s.sys Ent.repairMap).testBit ix = false → tileInService s.sys ix = true →
          ∃ t, exec (.domainEnable d) s = .next t ∧ tileOn t.sys.data ix = true ∧ (tileIn t ix).tstate = .reset) ∧
        ((getE s.sys Ent.repairMap).testBit ix = true ∨ tileInService s.sys ix = false →
          exec (.domainEnable d) s = .next s)) ∧
      (∀ f, domainOf d = .stack f → s.sys.data.on = true → (fieldOf s.sys.data f).on = false →
        ∃ t, exec (.domainEnable d) s = .next t ∧ (fieldOf t.sys.data f).on = true) ∧
      (∀ i, domainOf d = .scarf i → s.sys.data.on = true → (engineOf s.sys.data i).on = false →
        keptOff s.sys.data i = false → s.sys.mgmt.module ≠ .warmStart →
        ∃ t, exec (.domainEnable d) s = .next t ∧ (engineOf t.sys.data i).state = .bias) ∧
      (∀ i, domainOf d = .host i → s.sys.data.on = true → (hostOf s.sys.data i).on = false →
        ∃ t, exec (.domainEnable d) s = .next t ∧ (hostOf t.sys.data i).on = true) ∧
      (∀ n, domainOf d = .service n →
        (serviceFed n s.sys = true → ∃ t, exec (.domainEnable d) s = .next t ∧
          t.sys.mgmt.service = s.sys.mgmt.service ||| 2 ^ n ∧ (n = 7 → t.sys.ctrl.on = true)) ∧
        (serviceFed n s.sys = false → exec (.domainEnable d) s = .next s))) ∧
    (s.sys.mgmt.module = .service ∨ groupsOn s.sys < groupsBefore d → exec (.domainEnable d) s = .next s) ∧
    ∃ t, exec (.domainFault d) s = .next t ∧ getE t.sys Ent.lastDomainFault = d.val ∧
      (∀ ix, domainOf d = .tile ix → tileOn t.sys.data ix = false ∧ (getE t.sys Ent.repairMap).testBit ix = true) ∧
      (∀ f, domainOf d = .stack f → (fieldOf t.sys.data f).mode = .failed) ∧
      ∀ i, domainOf d = .scarf i → (engineOf t.sys.data i).state = .fail) ∧
  (∀ (s : State) (at_ : W64), s.sys.mgmt.orderAt = some at_ → skourUp s.sys = true →
    (sinceT s.sys at_ < getE s.sys Ent.orderDelay * 1000000000 ∨ s.sys.mgmt.module = .safeStop ∨
      s.sys.mgmt.module = .leakCut → exec .powerOrderAct s = .next s) ∧
    (getE s.sys Ent.orderDelay * 1000000000 ≤ sinceT s.sys at_ → s.sys.mgmt.module ≠ .safeStop →
      s.sys.mgmt.module ≠ .leakCut → s.sys.mgmt.module ≠ .off →
      ∃ t, exec .powerOrderAct s = .next t ∧ t.sys.mgmt.orderAt = none ∧
        (getE s.sys Ent.powerOrder = 0 → t.sys.mgmt.module = .off ∧ t.sys.sill.ssd = .opened ∧ t.sys.data.on = false) ∧
        (getE s.sys Ent.powerOrder = 1 → t.sys.mgmt.module = .standby ∧
          (s.sys.mgmt.module ≠ .standby → t.sys.data.on = false)) ∧
        (getE s.sys Ent.powerOrder = 2 → s.sys.mgmt.module = .standby → s.sys.mgmt.start = none →
          ∃ cold, t.sys.mgmt.startDue = some cold)))

/-- R7, R27, R351, R352, R370, R371, R458: a frame advances TSCLK by 1 ms and Sill's time by what its own clock counted, and
enters its power in the meter; the forecast is computed for 60 minutes; the retained store keeps the newest image until the
next one is written. Without power nothing passes. -/
def Obligations.FramesMetersAndRetainedImages : Prop :=
  ∀ s : State,
    (∀ f : FrameMeas,
      (s.sys.mgmt.service = 0 → exec (.frameBoundary f) s = .next s) ∧
      (s.sys.mgmt.service ≠ 0 → ∃ t, exec (.frameBoundary f) s = .next t ∧
        (s.sys.mgmt.bus.slew = 0 → t.sys.ts = s.sys.ts + 1000000) ∧
        t.sys.sf = s.sys.sf + BitVec.ofNat 64 f.sill ∧ t.sys.mgmt.frame = s.sys.mgmt.frame + 1 ∧
        t.sys.mgmt.power.frames = (f.power :: s.sys.mgmt.power.frames).take 1000 ∧
        getE t.sys Ent.power1s = ratF32 (meanPower ((f.power :: s.sys.mgmt.power.frames).take 1000)) ∧
        t.sys.mgmt.power.energyPart = (s.sys.mgmt.power.energyPart + f.power) % 1000)) ∧
    (∃ t, exec .forecastRecompute s = .next t ∧ t.sys.mgmt.power.forecastDue = false ∧
      getE t.sys Ent.forecast =
        leNat (natLe 4 (minuteOf s.sys.ts) ++ (List.range 60).flatMap (forecastEntry s.sys))) ∧
    (skourUp s.sys = true → s.sys.mgmt.records.length = 2 → s.sys.mgmt.settings.length = 2 →
      (∃ t, exec .energyWrite s = .next t ∧
        ImageWritten s.sys.mgmt.records t.sys.mgmt.records (imageOf true s.sys.mgmt) (getE t.sys Ent.recordsGen)) ∧
      (s.sys.mgmt.recordsDirty = true → ∃ t, exec (.retainedWrite true) s = .next t ∧
        ImageWritten s.sys.mgmt.records t.sys.mgmt.records (imageOf true s.sys.mgmt) (getE t.sys Ent.recordsGen)) ∧
      (s.sys.mgmt.settingsDirty = true → ∃ t, exec (.retainedWrite false) s = .next t ∧
        ImageWritten s.sys.mgmt.settings t.sys.mgmt.settings (imageOf false s.sys.mgmt) (getE t.sys Ent.settingsGen)) ∧
      (s.sys.mgmt.settingsDirty = false → exec (.retainedWrite false) s = .next s))

/-! ### Coolant and thermal policy -/

/-- Flow, the schedules and the thermal policy. R381, R386 to R391, R430, R447: Skour writes the sequencers' schedule at
each coolant period, but between a start's prime and its tiles, when the prime's schedule stands; 1,000 frames give the flow
margin, whose shortfall caps the power; a flow stop throttles the data plane and forces the zones, and its end is told.
R393, R394, R396, R397: thermal_step rises every 50 frames a clamp reading remains, throttle follows 1,000 frames at step
12, and 1,000 cool frames lower it; a hot converter block faults; the mean inlet temperature outside its range is told. -/
def Obligations.FlowSchedulesAndTemperatures : Prop :=
  (∀ s : State, skourUp s.sys = true →
    (primed s.sys = true → ∃ t, exec .coolantPeriodStart s = .next t ∧
      t.sys.mgmt.act.schedule = s.sys.mgmt.act.schedule ∧ t.sys.mgmt.cool.frames = 0) ∧
    (primed s.sys = false → ∃ t, exec .coolantPeriodStart s = .next t ∧
      t.sys.mgmt.act.schedule = periodSchedule s.sys ((List.range 16).map (zoneDemand s.sys)) ∧
      t.sys.mgmt.cool.frames = 0 ∧
      ∀ z : ZoneIx, look 0 t.sys.mgmt.cool.demand z = zoneDemand s.sys z) ∧
    (1000 ≤ s.sys.mgmt.cool.qCount → ∃ t, exec .flowMarginEval s = .next t ∧
      t.sys.mgmt.cool.qCount = 0 ∧ t.sys.mgmt.cool.qWins = (s.sys.mgmt.cool.qSum :: s.sys.mgmt.cool.qWins).take 60 ∧
      (let q := qMean ((s.sys.mgmt.cool.qSum :: s.sys.mgmt.cool.qWins).take 60)
       let need := coldCap s.sys / mkRat 6967 10
       getE t.sys Ent.qAvail = ratF32 q ∧
        (need ≠ 0 → q / need - 1 < mkRat 15 100 → t.sys.mgmt.cool.flowTerm = mkRat 6967 10 * q / mkRat 115 100 ∧
          dbit t.sys.mgmt Ent.coolantFlags 0 = true) ∧
        (need ≠ 0 → mkRat 15 100 ≤ q / need - 1 → t.sys.mgmt.cool.flowTerm = 30000))) ∧
    (s.sys.mgmt.cool.qCount < 1000 → exec .flowMarginEval s = .next s) ∧
    (s.sys.mgmt.cool.watch.stop = none →
      (10 < s.sys.mgmt.cool.watch.meterLow → crossPasses s.sys = false →
        ∃ t, exec .flowStop s = .next t ∧ t.sys.mgmt.cool.watch.stop = some (0, s.sys.ts) ∧
          dbit t.sys.mgmt Ent.coolantFlags 1 = true ∧ AlarmOn t 3 ∧
          (anyTileOn s.sys.data = true → t.sys.mgmt.power.throttles.flowStop = true ∧
            ∀ z : ZoneIx, (chanOf t.sys z).force = true)) ∧
      (10 < s.sys.mgmt.cool.watch.meterLow → crossPasses s.sys = true →
        ∃ t, exec .flowStop s = .next t ∧ t.sys.mgmt.cool.watch.stop = none ∧ meterUsable t.sys = false) ∧
      (s.sys.mgmt.cool.watch.meterLow ≤ 10 → s.sys.mgmt.cool.watch.dpLow ≤ 10 → exec .flowStop s = .next s)) ∧
    (∀ p, s.sys.mgmt.cool.watch.stop = some p →
      (100 < s.sys.mgmt.cool.watch.clear → ∃ t, exec .flowRestored s = .next t ∧ t.sys.mgmt.cool.watch.stop = none ∧
        t.sys.mgmt.power.throttles.flowStop = false ∧ dbit t.sys.mgmt Ent.coolantFlags 1 = false ∧ ¬ AlarmOn t 3) ∧
      (s.sys.mgmt.cool.watch.clear ≤ 100 → exec .flowRestored s = .next s))) ∧
  (∀ s : State, skourUp s.sys = true →
    (∀ n m, s.sys.mgmt.cool.clamp = some (n, m) →
      (50 ≤ n → ∃ t, exec .thermalStepRise s = .next t ∧
        t.sys.mgmt.cool.thermalStep = min 12 (s.sys.mgmt.cool.thermalStep + 1)) ∧
      (n < 50 → exec .thermalStepRise s = .next s) ∧
      (s.sys.mgmt.cool.thermalStep = 12 → 1000 < m → s.sys.mgmt.power.throttles.clamp = false →
        ∃ t, exec .thermalThrottle s = .next t ∧ t.sys.mgmt.power.throttles.clamp = true ∧
          (s.sys.data.on = true → t.sys.data.j1.throttle = true)) ∧
      (m ≤ 1000 → exec .thermalThrottle s = .next s)) ∧
    (0 < s.sys.mgmt.cool.thermalStep → s.sys.mgmt.cool.thermalStep ≤ 12 → 1000 < s.sys.mgmt.cool.coolFrames →
      ∃ t, exec .thermalStepLower s = .next t ∧
        t.sys.mgmt.cool.thermalStep + 1 = s.sys.mgmt.cool.thermalStep ∧ t.sys.mgmt.power.throttles.clamp = false) ∧
    (∀ b : Fin 4, getE s.sys (Ent.convState + b) = 1 →
      (10 < look 0 s.sys.mgmt.cool.convHot b → ∃ t, exec (.converterOvertemp b) s = .next t ∧
        getE t.sys (Ent.convState + b) ≠ 1) ∧
      (look 0 s.sys.mgmt.cool.convHot b ≤ 10 → exec (.converterOvertemp b) s = .next s)) ∧
    (1000 < s.sys.mgmt.cool.inletHot → ∃ t, exec .inletTempOutOfRange s = .next t ∧
      dbit t.sys.mgmt Ent.coolantFlags 3 = true) ∧
    (1000 < s.sys.mgmt.cool.inletCold → ∃ t, exec .inletTempOutOfRange s = .next t ∧
      dbit t.sys.mgmt Ent.coolantFlags 4 = true))

/-- Conversions, sensor pairs and the leak channels. R377, R379, R380, R584: a conversion stores each reading; a sensor that
cannot measure sets its fault flag and is not used; a pair more than 10 frames apart is in disagreement, one more than 1,000
frames in it is suspect, and one 1,000 frames in agreement leaves it while it is not. R398: ten samples in a row at the
threshold confirm a leak, one below it starts over; a channel that reads below 5 µS for more than 100 samples is faulted. -/
def Obligations.SensorsPairsAndLeakChannels : Prop :=
  (∀ s : State,
    (s.sys.mgmt.service.testBit 3 = true →
      (∀ (n : Fin 2560) (v : Int), ∃ t, exec (.sensorConversion [(.tile n, .ok v)]) s = .next t ∧
        look 0 t.sys.mgmt.cool.tileRaw n = v) ∧
      (∀ n : Fin 2560, ∃ t, exec (.sensorConversion [(.tile n, .bad)]) s = .next t ∧
        dbit t.sys.mgmt Ent.tileSensorFaults n = true ∧ usable t.sys.mgmt (.tile n) = false) ∧
      ∀ v : Nat, ∃ t, exec (.sensorConversion [(.meter, .ok v)]) s = .next t ∧ t.sys.mgmt.cool.flow = v) ∧
    (s.sys.mgmt.service.testBit 3 = false → ∀ rs, exec (.sensorConversion rs) s = .next s) ∧
    ∀ ix : TileIx,
      ((∀ p ∈ s.sys.mgmt.cool.inDis, p.1 ≠ ix.val) → dbit s.sys.mgmt Ent.pairSuspect ix = false →
        (10 < look 0 s.sys.mgmt.cool.apart ix → ∃ t, exec (.pairDisagree ix) s = .next t ∧
          dbit t.sys.mgmt Ent.pairDisagree ix = true ∧ ∃ p ∈ t.sys.mgmt.cool.inDis, p.1 = ix.val) ∧
        (look 0 s.sys.mgmt.cool.apart ix ≤ 10 → exec (.pairDisagree ix) s = .next s)) ∧
      (1000 < look 0 s.sys.mgmt.cool.inDis ix → dbit s.sys.mgmt Ent.pairSuspect ix = false →
        ∃ t, exec (.pairSuspect ix) s = .next t ∧ dbit t.sys.mgmt Ent.pairSuspect ix = true) ∧
      (1000 < look 0 s.sys.mgmt.cool.agree ix → dbit s.sys.mgmt Ent.pairSuspect ix = false →
        ∃ t, exec (.pairAgree ix) s = .next t ∧ ∀ p ∈ t.sys.mgmt.cool.inDis, p.1 ≠ ix.val) ∧
      (dbit s.sys.mgmt Ent.pairSuspect ix = true → exec (.pairAgree ix) s = .next s)) ∧
  (∀ (s : State) (b : Bool), s.sys.sill.on = true →
    let before := if b then s.sys.sill.leakB else s.sys.sill.leakA
    (∀ g : Nat, ∃ t, exec (.leakSample b g) s = .next t ∧
      let after := if b then t.sys.sill.leakB else t.sys.sill.leakA
      after.g = g ∧
        (getSnap 10 s.sys Ent.leakThreshold ≤ mkRat g 10 → after.high = before.high + 1 ∧
          (9 ≤ before.high → after.confirmed = true)) ∧
        (mkRat g 10 < getSnap 10 s.sys Ent.leakThreshold → after.high = 0 ∧
          (after.confirmed = before.confirmed))) ∧
    (before.faulted = false →
      (100 < before.low → ∃ t, exec (.leakChannelFault b) s = .next t ∧
        (if b then t.sys.sill.leakB else t.sys.sill.leakA).faulted = true) ∧
      (before.low ≤ 100 → exec (.leakChannelFault b) s = .next s)))

/-! ### Valves, pumps and fans -/

/-- The valve channels and the zones. R406, R408 to R412, R419, R420: a pull-in that finds its bank free starts, one that
finds it busy waits; it regulates, decays and holds; without movement in its samples it is made once more and then judged by
the pressures; an open or shorted coil is a fault. Under profile 1 channel 18 acts as channel 19, whose limits are those of
the pair and which waits for the isolation valves. R412 to R415, R417: a zone's window opens its valve and closes it at its
end unless a force stands or the next window adjoins; a pressure that did not return marks it stuck open; a faulted zone
valve is retested every 10 s up to six times. -/
def Obligations.ValvesPullHoldAndRetest : Prop :=
  (∀ (s : State) (c : Fin 20),
    let k := chanKey s.sys c
    let tray := profile1 s.sys && (k == 18 || k == 19)
    let free := bankOn s.sys (bankOf k) && !(profile1 s.sys && k == 19 && isoDriven s.sys)
    ((chanIn s k).st = .off → free = true →
      (bankBusy s.sys (bankOf k) = false → ∃ t, exec (.pullinStart c) s = .next t ∧ (chanIn t k).st = .pull) ∧
      (bankBusy s.sys (bankOf k) = true → ∃ t, exec (.pullinStart c) s = .next t ∧ (chanIn t k).st = .deferred ∧
        look [] t.sys.mgmt.act.waiting (bankOf k) = look [] s.sys.mgmt.act.waiting (bankOf k) ++ [k] ∧
        dbit t.sys.mgmt Ent.deferredFlags k = true)) ∧
    ((chanIn s k).st = .pull →
      (∃ t, exec (.pullinRegulationEnd c) s = .next t ∧ (chanIn t k).st = .decay true) ∧
      ((chanIn s k).retest = false → ∀ ma,
        (ma < (if tray then 1000 else 500) → ∃ t, exec (.openCoilCheck c ma) s = .next t ∧ (chanIn t k).st = .faulted ∧
          dbit t.sys.mgmt Ent.valveFaults k = true) ∧
        ((if tray then 1000 else 500) ≤ ma → exec (.openCoilCheck c ma) s = .next s) ∧
        ((if tray then 12000 else 6000) < ma → ∃ t, exec (.coilShort c ma) s = .next t ∧ (chanIn t k).st = .faulted ∧
          dbit t.sys.mgmt Ent.valveFaults k = true) ∧
        (ma ≤ (if tray then 12000 else 6000) → exec (.coilShort c ma) s = .next s))) ∧
    ((chanIn s k).st = .decay true → (chanIn s k).retest = false →
      look [] s.sys.mgmt.act.waiting (bankOf k) = [] → ∀ samples : List Nat,
      (dipSeen s.sys k samples = true → ∃ t, exec (.fastDecayEnd c samples) s = .next t ∧ (chanIn t k).st = .hold) ∧
      (dipSeen s.sys k samples = false → (chanIn s k).second = false →
        ∃ t, exec (.fastDecayEnd c samples) s = .next t ∧ (chanIn t k).st = .decay false ∧ (chanIn t k).again = true) ∧
      (dipSeen s.sys k samples = false → (chanIn s k).second = true → k < 16 →
        ∃ t, exec (.fastDecayEnd c samples) s = .next t ∧ (chanIn t k).st = .hold ∧ (chanIn t k).cross = true)) ∧
    ((chanIn s k).st = .decay false → ∀ samples, ∃ t, exec (.fastDecayEnd c samples) s = .next t ∧
      (chanIn t k).st = .off) ∧
    ((chanIn s k).again = true → (chanIn s k).st = .off → free = true → bankBusy s.sys (bankOf k) = false →
      ∃ t, exec (.movementRetry c) s = .next t ∧ (chanIn t k).st = .pull ∧ (chanIn t k).second = true ∧
        (chanIn t k).again = false) ∧
    ((chanIn s k).cross = true → (chanIn s k).retest = false →
      (dpUsable s.sys k = true → dpOpen s.sys ≤ dpFall s.sys k → ∃ t, exec (.movementCrossCheck c) s = .next t ∧
        (chanIn t k).cross = false ∧ (chanIn t k).st = (chanIn s k).st) ∧
      (dpUsable s.sys k = false ∨ dpFall s.sys k < dpOpen s.sys → ∃ t, exec (.movementCrossCheck c) s = .next t ∧
        (chanIn t k).st = .faulted ∧ dbit t.sys.mgmt Ent.valveFaults k = true))) ∧
  (∀ (s : State) (z : ZoneIx),
    (actOn s.sys = true → 0 < dutyOf s.sys z → (chanIn s z).st = .off → bankOn s.sys (bankOf z) = true →
      bankBusy s.sys (bankOf z) = false → ∃ t, exec (.zoneWindowStart z) s = .next t ∧ (chanIn t z).st = .pull ∧
        (chanIn t z).window = true ∧ (chanIn t z).duty = dutyOf s.sys z) ∧
    ((chanIn s z).window = true → (chanIn s z).force = false → (chanIn s z).retest = false →
      ((chanIn s z).duty < 97 ∨ dutyOf s.sys z = 0) → (chanIn s z).st = .hold →
      ∃ t, exec (.zoneWindowEnd z) s = .next t ∧ (chanIn t z).st = .decay false ∧ (chanIn t z).window = false ∧
        (chanIn t z).check = true) ∧
    ((chanIn s z).force = true ∨ (97 ≤ (chanIn s z).duty ∧ 0 < dutyOf s.sys z) →
      exec (.zoneWindowEnd z) s = .next s) ∧
    ((chanIn s z).check = true → (chanIn s z).st = .off →
      ∃ t, exec (.stuckOpenCheck z) s = .next t ∧ (chanIn t z).check = false ∧
        (dpUsable s.sys z = true → dpOpen s.sys < dpFall s.sys z → dbit t.sys.mgmt Ent.stuckOpen z = true) ∧
        (dpUsable s.sys z = false ∨ dpFall s.sys z ≤ dpOpen s.sys →
          dbit t.sys.mgmt Ent.stuckOpen z = dbit s.sys.mgmt Ent.stuckOpen z)) ∧
    (∃ t, exec (.zoneForce z) s = .next t ∧ (chanIn t z).force = true ∧ dutyOf t.sys z = 100) ∧
    (skourUp s.sys = true → dbit s.sys.mgmt Ent.valveFaults z = true → (chanIn s z).st = .faulted →
      bankOn s.sys (bankOf z) = true → bankBusy s.sys (bankOf z) = false →
      ((look (0, 0) s.sys.mgmt.act.retests z).1 < 6 →
        10000000000 ≤ sinceT s.sys (look (0, 0) s.sys.mgmt.act.retests z).2 →
        ∃ t, exec (.valveRetest z) s = .next t ∧ (chanIn t z).st = .pull ∧ (chanIn t z).retest = true ∧
          (look (0, 0) t.sys.mgmt.act.retests z).1 = (look (0, 0) s.sys.mgmt.act.retests z).1 + 1) ∧
      (6 ≤ (look (0, 0) s.sys.mgmt.act.retests z).1 → exec (.valveRetest z) s = .next s)))

/-- The banks, the pumps and the fans. R405: a bank more than 200 µs in limit trips; it is on again 1 s later, and its third
trip within 10 minutes faults its four channels. R422, R424 to R427, R429: the sequencers hold the schedule Skour writes and
run pumps and fans toward its targets; a unit that gives no pulses is retried after 500 ms at 0 V, and faulted after its
third retry; 200 ms without pulses is a loss. -/
def Obligations.BanksPumpsAndFans : Prop :=
  (∀ (s : State) (b : Fin 5),
    (bankOn s.sys b = true → ∀ us : Nat,
      (us ≤ 200 → exec (.bankTrip b us false) s = .next s) ∧
      (200 < us → ∃ t, exec (.bankTrip b us false) s = .next t ∧ look false t.sys.mgmt.act.bankOff b = true ∧
        getE t.sys Ent.bankTrips = (getE s.sys Ent.bankTrips + 1) % 2 ^ 32 ∧
        (2 ≤ ((look [] s.sys.mgmt.act.bankTrips b).filter fun a => decide (sinceT s.sys a < 600000000000)).length →
          dbit t.sys.mgmt Ent.bankOff b = true ∧ ∀ i < 4, (chanIn t (4 * b + i)).st = .faulted))) ∧
    ∀ a rest, actOn s.sys = true → look false s.sys.mgmt.act.bankOff b = true → dbit s.sys.mgmt Ent.bankOff b = false →
      look [] s.sys.mgmt.act.bankTrips b = a :: rest →
      (1000000000 ≤ sinceT s.sys a → ∃ t, exec (.bankRetry b) s = .next t ∧ look false t.sys.mgmt.act.bankOff b = false) ∧
      (sinceT s.sys a < 1000000000 → exec (.bankRetry b) s = .next s)) ∧
  (∀ s : State,
    (∀ sch : Schedule, skourUp s.sys = true → ∃ t, exec (.sequencerScheduleWrite sch) s = .next t ∧
      t.sys.mgmt.act.schedule = sch) ∧
    (∀ sch : Schedule, skourUp s.sys = false → exec (.sequencerScheduleWrite sch) s = .next s) ∧
    (∀ (n : Fin 4) (pct : Fin 101), actOn s.sys = true → (unitOf s.sys (16 + n)).st = .stopped → fanFaulted s.sys = false →
      0 < pct.val → ∃ t, exec (.targetStep (.fan n) pct) s = .next t ∧ (unitOf t.sys (16 + n)).st = .starting ∧
        (unitOf t.sys (16 + n)).target = heldTarget s.sys (16 + n) pct.val) ∧
    (∀ rpm : List Nat, actOn s.sys = true → ∀ n : Fin 2, ∃ t, exec (.driveLoop rpm) s = .next t ∧
      unitOf t.sys n = beginRetry n s.sys.ts (loopStep n (rpm.getD n 0) (unitOf s.sys n))) ∧
    ∀ u : DriveNo,
      ((unitOf s.sys u.code).st = .starting → (unitOf s.sys u.code).retryAt = none →
        (∃ t, exec (.unitStartCheck u true) s = .next t ∧ (unitOf t.sys u.code).st = .running ∧
          (unitOf t.sys u.code).retries = 0) ∧
        ((unitOf s.sys u.code).retries < 3 → ∃ t, exec (.unitStartCheck u false) s = .next t ∧
          (unitOf t.sys u.code).retries = (unitOf s.sys u.code).retries + 1 ∧
          (unitOf t.sys u.code).volts = 0 ∧ (unitOf t.sys u.code).retryAt = some (s.sys.ts + 500000000)) ∧
        (3 ≤ (unitOf s.sys u.code).retries → ∃ t, exec (.unitStartCheck u false) s = .next t ∧
          (unitOf t.sys u.code).st = .faulted)) ∧
      ((unitOf s.sys u.code).st = .running → 0 < (unitOf s.sys u.code).target → ∀ ms : Nat,
        (200 < ms → ∃ t, exec (.tachLoss u ms) s = .next t ∧ (unitOf t.sys u.code).st = .tachLoss ∧
          (unitOf t.sys u.code).volts = (limitsOf u.code).vMax) ∧
        (ms ≤ 200 → exec (.tachLoss u ms) s = .next s)) ∧
      ((unitOf s.sys u.code).st = .tachLoss → ∃ t, exec (.tachRecover u) s = .next t ∧
        (unitOf t.sys u.code).st = .running))

/-! ### Skour -/

/-- The reference clock, and the starts of the module. R440 to R443: REF leaves an oscillator that is lost or deviates for
the other, or for holdover; from holdover it goes to whichever becomes good, and it reverts to OSC-A after 2^20 good cycles
unless revert is disabled. R445, R447, R449, R450, R451, R459: power brings Skour and Sill up with the retained store; a due
start begins in STANDBY, goes on step by step, ends in READY, and ends in OFF or STANDBY when a step fails. -/
def Obligations.ReferenceAndStarts : Prop :=
  (∀ s : State,
    (∀ b lost : Bool, oscOf s.sys.mgmt.clocks b = .good →
      ∃ t, exec (.oscFault b lost) s = .next t ∧
        oscOf t.sys.mgmt.clocks b = (if lost then .lost else .deviating) ∧
        (s.sys.mgmt.clocks.source = b2n b → t.sys.mgmt.clocks.source =
          if oscOf s.sys.mgmt.clocks (!b) = .good then 1 - b2n b else 2) ∧
        (s.sys.mgmt.clocks.source ≠ b2n b → t.sys.mgmt.clocks.source = s.sys.mgmt.clocks.source)) ∧
    (∀ b : Bool, oscOf s.sys.mgmt.clocks b ≠ .good → ∃ t, exec (.oscGood b) s = .next t ∧
      oscOf t.sys.mgmt.clocks b = .good ∧
      t.sys.mgmt.clocks.source = if s.sys.mgmt.clocks.source = 2 then b2n b else s.sys.mgmt.clocks.source) ∧
    (s.sys.mgmt.clocks.source = 1 → s.sys.mgmt.clocks.a = .good → dbit s.sys.mgmt Ent.oscFlags 4 = false → ∀ n,
      (1048576 ≤ n → ∃ t, exec (.oscRevert n) s = .next t ∧ t.sys.mgmt.clocks.source = 0) ∧
      (n < 1048576 → exec (.oscRevert n) s = .next s))) ∧
  (∀ s : State,
    (∀ f : PowerFound, s.sys.mgmt.service = 0 → f.sillPart = 0 → f.pairA = true → pairAt s.sys.mgmt 0 ≠ .retired →
      forcedState s.sys = none →
      ∃ t, exec (.powerApplied f) s = .next t ∧ t.sys.sill.on = true ∧ t.sys.sill.fault = false ∧
        skourUp t.sys = true ∧ t.sys.mgmt.active = 0 ∧ pairAt t.sys.mgmt 0 = .active ∧ t.sys.mgmt.service = 0x3F ∧
        t.sys.mgmt.module = .off ∧ getE t.sys Ent.strapAddress = f.strap.val) ∧
    (∀ f : PowerFound, s.sys.mgmt.service ≠ 0 → exec (.powerApplied f) s = .next s) ∧
    (s.sys.mgmt.module = .standby → skourUp s.sys = true →
      (s.sys.mgmt.startDue = some true → ∃ t j, exec (.coldStart []) s = .next t ∧ t.sys.mgmt.module = .coldStart ∧
        t.sys.mgmt.start = some j ∧ j.cold = true ∧ j.step = 6 ∧ t.sys.mgmt.startDue = none) ∧
      (s.sys.mgmt.startDue = some false → ∃ t j, exec (.warmStart []) s = .next t ∧ t.sys.mgmt.module = .warmStart ∧
        t.sys.mgmt.start = some j ∧ j.cold = false ∧ j.step = 1 ∧ t.sys.mgmt.startDue = none)) ∧
    (∀ (fs : List StepFound), s.sys.mgmt.startDue = none →
      exec (.coldStart fs) s = .next s ∧ exec (.warmStart fs) s = .next s) ∧
    (∀ j, s.sys.mgmt.start = some j → skourUp s.sys = true → startStands j s.sys.mgmt.module = true →
      (j.cold = true → j.step = 8 ∨ j.step = 9 → ∃ t k, exec (.startStepDone .done) s = .next t ∧
        t.sys.mgmt.start = some k ∧ k.cold = true ∧ k.step = j.step + 1 ∧ k.began = j.began) ∧
      (j.cold = true → j.step = 11 → ∃ t, exec (.startStepDone .done) s = .next t ∧ t.sys.mgmt.start = none ∧
        t.sys.mgmt.module = .ready ∧ getE t.sys Ent.lastStart = 1 ∧ t.sys.mgmt.coldNext = false) ∧
      (j.cold = false → j.step = 6 → ∃ t, exec (.startStepDone .done) s = .next t ∧ t.sys.mgmt.start = none ∧
        t.sys.mgmt.module = .ready ∧ getE t.sys Ent.lastStart = 2) ∧
      (∃ t, exec (.startStepFail false) s = .next t ∧ t.sys.mgmt.start = none ∧
        getE t.sys Ent.startFault = j.step * 256 + 1 ∧
        (s.sys.mgmt.module = .coldStart ∨ s.sys.mgmt.module = .warmStart → t.sys.mgmt.module = .standby ∧
          t.sys.data.on = false)) ∧
      (sinceT s.sys j.since ≤ stepLimit j.cold j.step → exec (.startStepFail true) s = .next s)) ∧
    ∀ j, s.sys.mgmt.start = some j → startStands j s.sys.mgmt.module = false →
      ∀ f, exec (.startStepDone f) s = .next s ∧ exec (.startStepFail true) s = .next s)

/-- Skour's pairs, its restarts and the rack manager's silence. R434 to R438: a mismatch of the active pair gives control to
the standby pair; a mismatched pair tests itself and is resynchronised, or is retired at its third mismatch within 24 hours
or when its test fails; with no standby pair Skour restarts. R452, R454, R455, R461: a management-only warm start brings
Skour back with the pair that passes its test while the data plane and Sill's latches stand as they were; without a passing
pair Skour stays away. The rack manager's silence of 5 s ends rack_alive. -/
def Obligations.PairsRestartsAndSilence : Prop :=
  (∀ (s : State) (p : Fin 2), s.sys.mgmt.pairs.length = 2 → s.sys.mgmt.mismatches.length = 2 →
    (pairAt s.sys.mgmt p = .active → pairAt s.sys.mgmt (1 - p.val) = .standby → s.sys.mgmt.run ≠ .down →
      ∃ t, exec (.lockstepMismatch p) s = .next t ∧ t.sys.mgmt.active = 1 - p.val ∧
        pairAt t.sys.mgmt (1 - p.val) = .active ∧
        pairAt t.sys.mgmt p =
          if 2 ≤ (((s.sys.mgmt.mismatches.getD p []).take 7).filter
            fun a => decide (sinceT s.sys a < 86400000000000)).length then .retired else .selftest) ∧
    (pairAt s.sys.mgmt p = .active → pairAt s.sys.mgmt (1 - p.val) ≠ .standby → s.sys.mgmt.run ≠ .down →
      ∃ t, exec (.lockstepMismatch p) s = .next t ∧ ∃ beats, t.sys.mgmt.run = .restart s.sys.ts false beats) ∧
    (pairAt s.sys.mgmt p = .selftest → skourUp s.sys = true →
      (∃ t, exec (.pairSelftestDone p true) s = .next t ∧ pairAt t.sys.mgmt p = .resync) ∧
      ∃ t, exec (.pairSelftestDone p false) s = .next t ∧ pairAt t.sys.mgmt p = .retired) ∧
    (pairAt s.sys.mgmt p = .resync → skourUp s.sys = true →
      ∃ t, exec (.pairResyncDone p) s = .next t ∧ pairAt t.sys.mgmt p = .standby)) ∧
  (∀ s : State,
    (∀ (since : W64) (ordered : Bool) (beats : Nat), s.sys.mgmt.run = .restart since ordered beats →
      (s.sys.mgmt.start = none → pairAt s.sys.mgmt s.sys.mgmt.active = .active → s.sys.mgmt.active < 2 →
        forcedState s.sys = none →
        ∃ t, exec (.mgmtWarmStart true true .fine) s = .next t ∧ skourUp t.sys = true ∧
          t.sys.mgmt.active = s.sys.mgmt.active ∧ t.sys.mgmt.module = s.sys.mgmt.module ∧
          t.sys.data = s.sys.data ∧
          t.sys.sill.safeStop = s.sys.sill.safeStop ∧ t.sys.sill.leakCut = s.sys.sill.leakCut ∧
          t.sys.sill.lastService = s.sys.sf ∧ t.sys.sill.longWindow = none) ∧
      ∀ f : StoreFound, ∃ t, exec (.mgmtWarmStart false false f) s = .next t ∧ t.sys.mgmt.run = .down ∧
        t.sys.data = s.sys.data) ∧
    (∀ a, skourUp s.sys = true → s.sys.mgmt.joints.rackLast = some a →
      (5000000000 < sinceT s.sys a → ∃ t, exec .rackAliveTimeout s = .next t ∧ getE t.sys Ent.rackAlive = 0) ∧
      (sinceT s.sys a ≤ 5000000000 → exec .rackAliveTimeout s = .next s)))

/-! ### The rack bus -/

/-- Alarms and the other messages of the rack bus. R490, R494: each alarm that has begun goes out once, and again 1 s after
its last send while its condition lasts, up to 10 times; an alarm of another module is kept once for its source and number.
R477, R482, R488, R489, R491, R526: a status goes out in the module's window when the bus idles by latest_start, a window
missed counts, event records go to their channel and targets, a queued message can be cancelled before its frame starts, and
frames R477 ignores count. -/
def Obligations.AlarmsAndMessages : Prop :=
  (∀ s : State,
    (skourUp s.sys = true → (∀ a ∈ s.sys.mgmt.bus.alarms, a.repeats = 0) → (s.sys.mgmt.bus.alarms.map Alarm.seq).Nodup →
      ∃ t, exec (.safetyAlarm .own) s = .next t ∧ (∀ a ∈ t.sys.mgmt.bus.alarms, a.repeats = 1) ∧
        t.sys.mgmt.bus.alarms.map Alarm.code = s.sys.mgmt.bus.alarms.map Alarm.code) ∧
    (∀ (seq : BitVec 16) (a : Alarm), s.sys.mgmt.bus.alarms.find? (fun a => a.seq == seq.toNat) = some a →
      skourUp s.sys = true →
      (1 ≤ a.repeats → a.repeats ≤ 10 → 1000000000 ≤ sinceT s.sys a.sentAt → mayCarry s.sys 0 0 = true →
        mayCarry s.sys 1 0 = true →
        ∃ t b, exec (.alarmRepeat seq) s = .next t ∧ t.sys.mgmt.bus.alarms.find? (fun a => a.seq == seq.toNat) = some b ∧
          b.repeats = a.repeats + 1 ∧ SentLast t ⟨1, identOf 0 (ownAddress s.sys) 0, alarmData a⟩) ∧
      (10 < a.repeats ∨ sinceT s.sys a.sentAt < 1000000000 → exec (.alarmRepeat seq) s = .next s)) ∧
    (∀ (c : Fin 2) (i : BitVec 29) (bs : List Byte), chanUp s.sys c = true → ignoredIdent i = false →
      bits 25 21 i.toNat = 0 → bs.length = 16 → ∃ t r, exec (.safetyAlarm (.heard c i bs)) s = .next t ∧
        r ∈ t.sys.mgmt.bus.heard ∧ r.take 3 = (natLe 1 (bits 20 13 i.toNat) ++ bs).take 3 ∧
        exec (.safetyAlarm (.heard c i bs)) t = .next t)) ∧
  (∀ s : State,
    (∀ (c : Fin 2) (w : Fin 16) (idle loop : Nat), exclusiveOk s.sys = true →
      (statusWindow s.sys w = true → idle ≤ latestStart s.sys c → mayCarry s.sys c 4 = true → skourUp s.sys = true →
        s.sys.mgmt.bus.status ≠ [] → ∃ t, exec (.statusSend c w idle loop) s = .next t ∧
          SentLast t ⟨c, identOf 4 (ownAddress s.sys) (winSelector (windowNow s.sys w)),
            s.sys.mgmt.bus.status ++ natLe 8 (basicCycle s.sys * 10000000 + 625000 * w)⟩) ∧
      (statusWindow s.sys w = true ∨ (w = 0 ∧ sendsReference s.sys = true) → latestStart s.sys c < idle →
        chanUp s.sys c = true → ∃ t, exec (.exclusiveWindowMissed c w idle) s = .next t ∧
          getE t.sys (Ent.windowMissed + c) = (getE s.sys (Ent.windowMissed + c) + 1) % 2 ^ 32 ∧
          dbit t.sys.mgmt (Ent.chanFlags + c) 5 = true)) ∧
    (∀ (c : Fin 2) (w : Fin 16) (idle loop : Nat),
      (statusWindow s.sys w = false ∨ latestStart s.sys c < idle → exec (.statusSend c w idle loop) s = .next s) ∧
      (idle ≤ latestStart s.sys c → exec (.exclusiveWindowMissed c w idle) s = .next s)) ∧
    (∀ r rest, s.sys.mgmt.bus.events = r :: rest → skourUp s.sys = true → targetsOf s.sys = [] →
      ∃ t, exec .eventMessageSend s = .next t ∧ t.sys.mgmt.bus.events = rest ∧
        (∀ c, channelFor s.sys (getE s.sys Ent.eventChannel) = some c → ownAddress s.sys ≠ 0 →
          (busIn s c).queue.length < 24 →
          (busIn t c).queue = queueIn ⟨identOf 5 (ownAddress s.sys) 0, 5, dlcPad r⟩ (busIn s c).queue)) ∧
    (∀ (c : Fin 2) (n : Nat) (m : QMsg), (busIn s c).queue[n]? = some m →
      (∀ k : CancelMeets, k ≠ .completed → ∃ t, exec (.messageCancel c n k) s = .next t ∧
        (busIn t c).queue.length + 1 = (busIn s c).queue.length ∧ (busIn t c).cancelled = some true ∧
        t.sys.mgmt.bus.sent = s.sys.mgmt.bus.sent) ∧
      (∃ t, exec (.messageCancel c n .completed) s = .next t ∧ (busIn t c).cancelled = some false ∧
        SentLast t ⟨c, m.ident, m.data⟩)) ∧
    (∀ i : BitVec 29,
      (ignoredIdent i = true → ∃ t, exec (.rackBusFrameIgnored i) s = .next t ∧
        getE t.sys Ent.framesIgnored = (getE s.sys Ent.framesIgnored + 1) % 2 ^ 32) ∧
      (ignoredIdent i = false → exec (.rackBusFrameIgnored i) s = .next s)) ∧
    (∀ c : Fin 2, skourUp s.sys = true → chanUp s.sys c = true → ∃ t, exec (.rackHeartbeat c 1) s = .next t ∧
      getE t.sys Ent.rackAlive = 1 ∧ t.sys.mgmt.joints.rackLast = some s.sys.ts))

/-- Time, and the rack bus channels. R484 to R487, R524: time comes from precision time, a reference, or no one; TSCLK steps
to an offset above 100 µs and slews otherwise; the gnomon sends the reference; after 10 s of running free the module sends
in no exclusive window. R473, R474, R492, R493, R496: a channel joins at the rate it finds, goes error-passive and bus-off
as its counters say, recovers, and stops sending after its third collision. -/
def Obligations.TimeAndChannels : Prop :=
  (∀ s : State,
    (∀ (c : Fin 2) (ts tr : W64) (src : Fin 3) (idle : Bool), chanUp s.sys c = true →
      ∃ t, exec (.reference c ts tr src idle) s = .next t ∧ t.sys.mgmt.bus.refAny = 0 ∧
        getE t.sys Ent.gnomonOffset = ratF32 ((ts - tr).toInt : Rat) ∧
        (src = 0 → idle = true → t.sys.mgmt.bus.refUsable = 0 ∧
          (getE s.sys Ent.timeSource = 1 → 100000 < (ts - tr).toInt.natAbs →
            t.sys.ts = s.sys.ts + BitVec.ofInt 64 (ts - tr).toInt) ∧
          (getE s.sys Ent.timeSource = 1 → (ts - tr).toInt.natAbs ≤ 100000 →
            t.sys.ts = s.sys.ts ∧ t.sys.mgmt.bus.slew = (ts - tr).toInt)) ∧
        (src ≠ 0 ∨ idle = false → t.sys.ts = s.sys.ts ∧ t.sys.mgmt.bus.refUsable = s.sys.mgmt.bus.refUsable)) ∧
    (∀ (c : Fin 2) (loop : Nat),
      (skourUp s.sys = true → sendsReference s.sys = true → exclusiveOk s.sys = true → mayCarry s.sys c 1 = true →
        ∃ t d, exec (.referenceSend c loop) s = .next t ∧
          SentLast t ⟨c, identOf 1 (ownAddress s.sys) (basicCycle s.sys % 8), d⟩ ∧ d.length = 16 ∧
          d.take 8 = natLe 8 (basicCycle s.sys * 10000000)) ∧
      (sendsReference s.sys = false → exec (.referenceSend c loop) s = .next s)) ∧
    (skourUp s.sys = true → getE s.sys Ent.timeSource ≠ sourceNow s.sys →
      ∃ t, exec .timeSourceChange s = .next t ∧ getE t.sys Ent.timeSource = sourceNow s.sys) ∧
    (getE s.sys Ent.timeSource = sourceNow s.sys → exec .timeSourceChange s = .next s) ∧
    (∀ a, s.sys.mgmt.bus.freeSince = some a → getE s.sys Ent.timeSource = 2 →
      (10000000000 ≤ sinceT s.sys a → ∃ t, exec .freeRunningTimeout s = .next t ∧ exclusiveOk t.sys = false) ∧
      (sinceT s.sys a < 10000000000 → exec .freeRunningTimeout s = .next s)) ∧
    (∀ off : Int, getE s.sys Ent.ptpEnable = 1 → getE s.sys Ent.ptpState = 2 →
      ∃ t, exec (.ptpSync off) s = .next t ∧ t.sys.mgmt.bus.ptpLast = s.sys.ts ∧
        getE t.sys Ent.ptpOffset = ratF32 (off : Rat) ∧
        (off.natAbs ≤ 1000 → 15 ≤ s.sys.mgmt.bus.ptpGood → getE t.sys Ent.ptpState = 3) ∧
        (1000 < off.natAbs → t.sys.mgmt.bus.ptpGood = 0 ∧ getE t.sys Ent.ptpState = 2)) ∧
    (getE s.sys Ent.ptpState = 3 →
      (3000000000 ≤ sinceT s.sys s.sys.mgmt.bus.ptpLast → ∃ t, exec .ptpSyncTimeout s = .next t ∧
        getE t.sys Ent.ptpState = 2) ∧
      (sinceT s.sys s.sys.mgmt.bus.ptpLast < 3000000000 → exec .ptpSyncTimeout s = .next s) ∧
      ∀ m : W64, getE s.sys Ent.ptpMaster ≠ m.toNat → ∃ t, exec (.bestMasterChange m) s = .next t ∧
        getE t.sys Ent.ptpMaster = m.toNat ∧ getE t.sys Ent.ptpState = 2)) ∧
  (∀ (s : State) (c : Fin 2),
    ((busIn s c).st = .detecting →
      (∀ edges : Bool, ∃ t, exec (.rateDetectDwell c edges) s = .next t ∧
        (busIn t c).dwell = ((busIn s c).dwell + 1) % 4 ∧ (busIn t c).dwells = (busIn s c).dwells + 1) ∧
      (∀ fails : Bool, ownAddress s.sys ≠ 0 → ∃ t, exec (.rateFound c fails) s = .next t ∧ (busIn t c).st = .active ∧
        getE t.sys (Ent.nominalRate + c) = rateAt (busIn s c).dwell ∧
        (fails = true → (busIn t c).muted = true ∧ dbit t.sys.mgmt (Ent.chanFlags + c) 7 = true)) ∧
      ((busIn s c).dwells < 20 → exec (.rateDetectTimeout c) s = .next s) ∧
      (20 ≤ (busIn s c).dwells → (busIn s c).edges = false → ownAddress s.sys ≠ 0 →
        ∃ t, exec (.rateDetectTimeout c) s = .next t ∧ (busIn t c).st = .active) ∧
      (20 ≤ (busIn s c).dwells → (busIn s c).edges = true →
        ∃ t, exec (.rateDetectTimeout c) s = .next t ∧ (busIn t c).st = .detecting ∧
          dbit t.sys.mgmt (Ent.chanFlags + c) 4 = true)) ∧
    ((busIn s c).st = .active → ∀ tec rec_ : Nat, tec ≤ 255 →
      (128 ≤ max tec rec_ → ∃ t, exec (.errorPassive c tec rec_) s = .next t ∧ (busIn t c).st = .passive ∧
        getE t.sys (Ent.tec + c) = tec ∧ dbit t.sys.mgmt (Ent.chanFlags + c) 0 = true) ∧
      (max tec rec_ < 128 → ∃ t, exec (.errorPassive c tec rec_) s = .next t ∧ (busIn t c).st = .active ∧
        getE t.sys (Ent.tec + c) = tec ∧ getE t.sys (Ent.rec + c) = rec_)) ∧
    (chanUp s.sys c = true → ∀ tec : Nat,
      (255 < tec → ∃ t, exec (.busOff c tec) s = .next t ∧
        getE t.sys (Ent.busOffs + c) = (getE s.sys (Ent.busOffs + c) + 1) % 2 ^ 32 ∧
        (busIn t c).queue = (busIn s c).queue.filter (fun m => m.cls == 0) ∧
        (busIn t c).st =
          if 3 ≤ ((busIn s c).recoveries.filter fun a => decide (sinceT s.sys a < 60000000000)).length ∨
              getE s.sys Ent.autoRecover = 0 then .closed else .recovering) ∧
      (tec ≤ 255 → exec (.busOff c tec) s = .next s)) ∧
    ((busIn s c).st = .recovering → ∃ t, exec (.busOffRecovery c) s = .next t ∧ (busIn t c).st = .active ∧
      getE t.sys (Ent.tec + c) = 0 ∧ getE t.sys (Ent.rec + c) = 0) ∧
    (∀ by_ : CollisionBy, chanUp s.sys c = true →
      ((∃ i : BitVec 29, by_ = .foreign i ∧ bits 20 13 i.toNat = ownAddress s.sys ∧ ownAddress s.sys ≠ 0) ∨
        (∃ p : Nat, by_ = .repeated p p)) →
      ∃ t, exec (.addressCollision c by_) s = .next t ∧ dbit t.sys.mgmt (Ent.chanFlags + c) 3 = true ∧
        (busIn t c).collisions = (busIn s c).collisions + 1 ∧
        ((busIn s c).collisions = 2 → (busIn t c).st = .listen)) ∧
    ∀ p q : Nat, p ≠ q → exec (.addressCollision c (.repeated p q)) s = .next s)

/-! ### The object dictionary -/

/-- Reads of the dictionary and the segments of transfers. R499, R501, R504, R508, R513, R515: a read answers with the
entry's value, the first 48 bytes of a longer one whose segments follow; what no entry holds, or the level may not read, is
refused and counted; a repeat gets the kept answer. R499, R500, R502: segments continue the transfer of their requester and
tag in order, an abort or 1 s of silence ends it, and a segment of no transfer is refused. -/
def Obligations.ReadsAndSegmentsAnswer : Prop :=
  (∀ (s : State) (q : DictCall),
    (Reaches s q.target (reqOf 1 q) →
      (∀ e, nameEntry q.index.toNat q.sub.toNat = .ok e →
        (mayRead (levelOf s.sys q.who) (q.index.toNat * 256 + q.sub.toNat) = true →
          ∃ t y, exec (.dictRead q) s = .next t ∧ Replies t (reqOf 1 q) 0 ∧ t.sys.mgmt.bus.reply = some y ∧
            y.total = e.len ∧
            y.value = (natLe e.len (readEntry s.sys q.who (q.index.toNat * 256 + q.sub.toNat))).take 48 ∧
            (48 < e.len → ∃ r, transferOf t.sys (reqOf 1 q) = some r ∧ r.next = 1 ∧
              r.bytes = natLe e.len (readEntry s.sys q.who (q.index.toNat * 256 + q.sub.toNat)))) ∧
        (mayRead (levelOf s.sys q.who) (q.index.toNat * 256 + q.sub.toNat) = false →
          ∃ t, exec (.dictRead q) s = .next t ∧ Replies t (reqOf 1 q) 0x0531 ∧
            getE t.sys Ent.readsRefused = (getE s.sys Ent.readsRefused + 1) % 2 ^ 32)) ∧
      ∀ c, nameEntry q.index.toNat q.sub.toNat = .error c → ∃ t, exec (.dictRead q) s = .next t ∧
        Replies t (reqOf 1 q) c ∧ getE t.sys Ent.readsRefused = (getE s.sys Ent.readsRefused + 1) % 2 ^ 32) ∧
    (∀ r, requestHeard q.target q.who s.sys = true → keptAnswer s.sys (reqOf 1 q) = some r →
      ∃ t, exec (.dictRead q) s = .next t ∧ t.sys.mgmt.bus.reply = some r) ∧
    (requestHeard q.target q.who s.sys = false → exec (.dictRead q) s = .next s)) ∧
  (∀ (s : State) (q : DictCall) (r : Transfer), transferOf s.sys (reqOf 5 q) = some r →
    (requestHeard q.target q.who s.sys = true → transferIdle s.sys r = false → r.next = q.segment.toNat →
      r.index = q.index.toNat → r.sub = q.sub.toNat →
      (r.op = 1 → keptAnswer s.sys (reqOf 5 q) = none → ∃ t y, exec (.readSegment q) s = .next t ∧
        Replies t (reqOf 5 q) 0 ∧ t.sys.mgmt.bus.reply = some y ∧ y.total = r.total ∧
        y.value = (r.bytes.drop (48 * q.segment.toNat)).take 48) ∧
      (r.op = 2 → keptAnswer s.sys (reqOf 6 q) = none → r.bytes.length + 48 < r.total →
        ∃ t v, exec (.writeSegment q) s = .next t ∧ Replies t (reqOf 6 q) 0 ∧
          transferOf t.sys (reqOf 6 q) = some v ∧ v.next = r.next + 1 ∧
          v.bytes = r.bytes ++ (q.value ++ List.replicate 48 0).take 48)) ∧
    (requestHeard q.target q.who s.sys = true → keptAnswer s.sys (reqOf 7 q) = none →
      ∃ t, exec (.dictAbort q) s = .next t ∧ Replies t (reqOf 7 q) 0 ∧ transferOf t.sys (reqOf 7 q) = none) ∧
    (∀ x : Requester, x = q.who → skourUp s.sys = true →
      (transferIdle s.sys r = true → ∃ t, exec (.transferIdleTimeout x q.tag) s = .next t ∧
        transferOf t.sys (reqOf 7 q) = none) ∧
      (transferIdle s.sys r = false → exec (.transferIdleTimeout x q.tag) s = .next s)))

/-- Plain writes and safety writes of the dictionary. R506, R512, R514, R515, R516, R517: a plain write of an entry the
level may not write is refused and journaled with the value unchanged; an accepted one of an entry that orders nothing
stores its value. R519, R520, R522: a first step that passes every check gets a challenge of Sill and leaves its value
pending for 2 s; the confirmation with the challenge and the complement carries it out and ends it; a wrong one ends it with
0x0601. -/
def Obligations.WritesAreJudgedInOneStepOrTwo : Prop :=
  (∀ (s : State) (q : DictCall) (e : DEntry), Reaches s q.target (reqOf 2 q) →
    nameEntry q.index.toNat q.sub.toNat = .ok e → e.len = q.total.toNat → e.len ≤ 48 → q.segment = 0 →
    q.value.length = e.len →
    let k := q.index.toNat * 256 + q.sub.toNat
    (e.acc = .ro → ∃ t, exec (.dictWrite q) s = .next t ∧ Replies t (reqOf 2 q) 0x0203 ∧
      getE t.sys k = getE s.sys k ∧ t.sys.mgmt.jNext = seqAfter s.sys.mgmt.jNext) ∧
    (e.acc ≠ .ro → e.acc ≠ .rws → k ≠ Ent.flagClear → mayWrite (levelOf s.sys q.who) k = false →
      ∃ t, exec (.dictWrite q) s = .next t ∧ Replies t (reqOf 2 q) 0x0530 ∧ getE t.sys k = getE s.sys k ∧
        t.sys.mgmt.jNext = seqAfter s.sys.mgmt.jNext) ∧
    (k ∈ [Ent.startMode, Ent.coldInterval, Ent.turnInterval, Ent.orderDelay, Ent.dutyFloor, Ent.dtTarget,
        Ent.forecastEnable, Ent.autoRecover, Ent.eventChannel, Ent.gnomonBackup] →
      mayWrite (levelOf s.sys q.who) k = true → valueRefusal s.sys k (leNat q.value) = 0 →
      ∃ t, exec (.dictWrite q) s = .next t ∧ Replies t (reqOf 2 q) 0 ∧ getE t.sys k = leNat q.value)) ∧
  (∀ (s : State) (q : DictCall) (e : DEntry), entryOf (q.index.toNat * 256 + q.sub.toNat) = some e → e.acc = .rws →
    nameEntry q.index.toNat q.sub.toNat = .ok e → e.len = q.total.toNat → e.len ≤ 48 →
    mayWrite (levelOf s.sys q.who) (q.index.toNat * 256 + q.sub.toNat) = true →
    (Reaches s q.target (reqOf 3 q) → q.segment = 0 → q.value.length = e.len →
      pendingOf s.sys q.index.toNat q.sub.toNat = none →
      valueRefusal s.sys (q.index.toNat * 256 + q.sub.toNat) (leNat q.value) = 0 →
      safetyRefusal s.sys (q.index.toNat * 256 + q.sub.toNat) (leNat q.value) = 0 →
      (sillAnswers s.sys = true → ∃ t p y, exec (.safetyFirstStep q) s = .next t ∧ Replies t (reqOf 3 q) 0 ∧
        pendingOf t.sys q.index.toNat q.sub.toNat = some p ∧ p.value = leNat q.value ∧ p.at_ = s.sys.ts ∧
        t.sys.mgmt.bus.reply = some y ∧
        y.value = natLe 4 p.challenge.toNat ++ natLe 8 (leNat q.value) ++ natLe 4 2000 ∧
        ∃ c ∈ t.sys.sill.challenges, c.index = q.index.toNat ∧ c.sub = q.sub.toNat ∧ c.value = p.challenge) ∧
      (sillAnswers s.sys = false → ∃ t, exec (.safetyFirstStep q) s = .next t ∧ Replies t (reqOf 3 q) 0x0603 ∧
        pendingOf t.sys q.index.toNat q.sub.toNat = none)) ∧
    (∀ (p : SafetyWrite) (challenge : W32) (complement : W64), Reaches s q.target (reqOf 4 q) →
      q.value = natLe 4 challenge.toNat ++ natLe 8 complement.toNat →
      pendingOf s.sys q.index.toNat q.sub.toNat = some p → sameWho p.who q.who = true → inWindow s.sys p.at_ = true →
      valueRefusal s.sys (q.index.toNat * 256 + q.sub.toNat) p.value = 0 →
      (challenge ≠ p.challenge ∨ complement ≠ ~~~(BitVec.ofNat 64 p.value) →
        ∃ t, exec (.safetyConfirm q) s = .next t ∧ Replies t (reqOf 4 q) 0x0601 ∧
          pendingOf t.sys q.index.toNat q.sub.toNat = none ∧ t.sys.data = s.sys.data ∧ t.sys.mgmt.dict = s.sys.mgmt.dict) ∧
      (challenge = p.challenge → complement = ~~~(BitVec.ofNat 64 p.value) →
        safetyRefusal s.sys (q.index.toNat * 256 + q.sub.toNat) p.value = 0 →
        (sillAgrees s.sys q.index.toNat q.sub.toNat p.value challenge complement = true →
          ∃ t, exec (.safetyConfirm q) s = .next t ∧ Replies t (reqOf 4 q) 0 ∧
            pendingOf t.sys q.index.toNat q.sub.toNat = none) ∧
        (sillAgrees s.sys q.index.toNat q.sub.toNat p.value challenge complement = false →
          ∃ t, exec (.safetyConfirm q) s = .next t ∧ Replies t (reqOf 4 q) 0x0603 ∧
            t.sys.data = s.sys.data ∧ t.sys.mgmt.dict = s.sys.mgmt.dict))) ∧
    (∀ p, pendingOf s.sys q.index.toNat q.sub.toNat = some p →
      (inWindow s.sys p.at_ = false → ∃ t, exec (.safetyWindowExpire q.index q.sub) s = .next t ∧
        pendingOf t.sys q.index.toNat q.sub.toNat = none) ∧
      (inWindow s.sys p.at_ = true → exec (.safetyWindowExpire q.index q.sub) s = .next s)))

/-- R268, R350, R353, R357, R453, R470, R481, R493, R497, R509, R511, R530: what the accepted writes of the entries that
order something do. -/
def Obligations.AcceptedWritesTakeEffect : Prop :=
  ∀ (s : State) (target : Fin 32) (who : Requester) (tag : BitVec 16),
    (∀ v : W32, WriteAccepted s target who tag Ent.domainForce (natLe 4 v.toNat) →
      ∃ t, exec (.domainForce target who tag v) s = .next t ∧
        (1396 ≤ bits 10 0 v.toNat → t.sys.mgmt.service.testBit (bits 10 0 v.toNat - 1396) =
          (v.toNat.testBit 31 && (s.sys.mgmt.service.testBit (bits 10 0 v.toNat - 1396) ||
            serviceFed (bits 10 0 v.toNat - 1396) s.sys))) ∧
        (bits 10 0 v.toNat < 1280 → v.toNat.testBit 31 = false → tileOn t.sys.data (bits 10 0 v.toNat) = false)) ∧
    (∀ v : Byte, WriteAccepted s target who tag Ent.powerOrder (natLe 1 v.toNat) →
      ∃ t, exec (.powerOrderWrite target who tag v) s = .next t ∧ getE t.sys Ent.powerOrder = v.toNat ∧
        t.sys.mgmt.orderAt = some s.sys.ts) ∧
    (∀ v : List Byte, WriteAccepted s target who tag Ent.envelope v →
      ∃ t, exec (.envelopeWrite target who tag v) s = .next t ∧ getE t.sys Ent.envelope = leNat v ∧
        t.sys.mgmt.power.envelopeAt = s.sys.ts ∧ getE t.sys Ent.rackAlive = 1) ∧
    (∀ (index : BitVec 16) (sub group : Byte) (mask : W64),
      WriteAccepted s target who tag Ent.flagClear
        (natLe 2 index.toNat ++ natLe 1 sub.toNat ++ natLe 1 group.toNat ++ natLe 8 mask.toNat) →
      stickyMask (index.toNat * 256 + sub.toNat) ≠ 0 → index.toNat * 256 + sub.toNat ≠ Ent.sillState →
      ∃ t, exec (.flagClear target who tag index sub group mask) s = .next t ∧ ∀ i,
        (getE t.sys (index.toNat * 256 + sub.toNat)).testBit i =
          ((getE s.sys (index.toNat * 256 + sub.toNat)).testBit i &&
            !(((mask.toNat * 2 ^ (64 * group.toNat)) &&& stickyMask (index.toNat * 256 + sub.toNat)).testBit i))) ∧
    (∀ mask : W64, mask.toNat.testBit 5 = true → WriteAccepted s target who tag Ent.flagClear
        (natLe 2 (Ent.sillState / 256) ++ natLe 1 (Ent.sillState % 256) ++ natLe 1 0 ++ natLe 8 mask.toNat) →
      ∃ t, exec (.flagClear target who tag (BitVec.ofNat 16 (Ent.sillState / 256)) (BitVec.ofNat 8 (Ent.sillState % 256)) 0
        mask) s = .next t ∧ t.sys.sill.haltMissing = false) ∧
    (∀ v : List Byte, WriteAccepted s target who tag Ent.authorityTable v →
      ∃ t, exec (.authorityTable target who tag v) s = .next t ∧ getE t.sys Ent.authorityTable = leNat v) ∧
    (∀ v : Byte, WriteAccepted s target who tag Ent.channelRestart (natLe 1 v.toNat) →
      ∃ t, exec (.channelRestart target who tag v) s = .next t ∧ ∀ c : Fin 2, v.toNat.testBit c = true →
        (busIn s c).st ≠ .off → getE s.sys Ent.rateMode = 0 → (busIn t c).st = .detecting) ∧
    (∀ v : Byte, WriteAccepted s target who tag Ent.collisionClear (natLe 1 v.toNat) → v = 1 →
      ∃ t, exec (.collisionClear target who tag v) s = .next t ∧ ∀ c : Fin 2, (busIn t c).collisions = 0 ∧
        dbit t.sys.mgmt (Ent.chanFlags + c) 3 = false) ∧
    (∀ v : Byte, WriteAccepted s target who tag Ent.nodeAddress (natLe 1 v.toNat) →
      ∃ t, exec (.nodeAddress target who tag v) s = .next t ∧ getE t.sys Ent.nodeAddress = v.toNat ∧
        t.sys.mgmt.bus.addressDue = true) ∧
    (∀ v : List Byte, WriteAccepted s target who tag Ent.matrix v →
      ∃ t, exec (.matrix target who tag v) s = .next t ∧ t.sys.mgmt.bus.matrixDue = some (maskMatrix (leNat v)) ∧
        getE t.sys Ent.matrix = getE s.sys Ent.matrix) ∧
    (∀ v : Byte, WriteAccepted s target who tag Ent.gnomonNode (natLe 1 v.toNat) →
      ∃ t, exec (.gnomonNode target who tag v) s = .next t ∧ t.sys.mgmt.bus.gnomonDue = some v.toNat) ∧
    (∀ v : Byte, WriteAccepted s target who tag Ent.mgmtRestart (natLe 1 v.toNat) → v = 1 →
      ∃ t, exec (.mgmtRestart target who tag v) s = .next t ∧ t.sys.mgmt.run =
        .restart s.sys.ts false (snapCount s.sys.mgmt)) ∧
    (∀ v : BitVec 16, WriteAccepted s target who tag Ent.retireTile (natLe 2 v.toNat) →
      ∃ t, exec (.retireTile target who tag v) s = .next t ∧ (getE t.sys Ent.repairMap).testBit v.toNat = true) ∧
    (∀ v : Byte, WriteAccepted s target who tag Ent.rackHold (natLe 1 v.toNat) →
      ∃ t, exec (.rackHold target who tag v) s = .next t ∧ getE t.sys Ent.rackHold = v.toNat ∧
        (s.sys.data.on = true → t.sys.data.j1.hold = (s.sys.mgmt.joints.hostHold || decide (v = 1)))) ∧
    (∀ (addr : BitVec 128) (port : BitVec 16) (bs : List Byte), skourUp s.sys = true →
      s.sys.mgmt.service.testBit 5 = true →
      (bs.length = 80 → leNat (bs.take 2) = 0x4B44 → leNat ((bs.drop 2).take 1) = 1 → leNat ((bs.drop 3).take 1) = 1 →
        exec (.mgmtDatagram addr port bs) s = .next { s with
          sys := request 0 (bodyRequest ⟨2, addr.toNat, port.toNat⟩ (leNat ((bs.drop 4).take 2)) (bs.drop 16)) s.sys }) ∧
      (bs.length < 64 → ∃ t, exec (.mgmtDatagram addr port bs) s = .next t ∧
        getE t.sys Ent.readsRefused = (getE s.sys Ent.readsRefused + 1) % 2 ^ 32))

/-- R268, R380, R418, R419, R427, R437, R442, R445, R460, R554, R555: what the confirmed safety writes do. -/
def Obligations.ConfirmedWritesTakeEffect : Prop :=
  ∀ (s : State) (target : Fin 32) (who : Requester) (tag : BitVec 16) (c : W32) (m : W64) (v : Nat),
    (ConfirmAccepted s target who tag c m Ent.maskSensor v → ∃ t, exec (.maskSensor target who tag c m) s = .next t ∧
      dbit t.sys.mgmt Ent.sensorMasks (v % 32768) = decide (v < 32768)) ∧
    (ConfirmAccepted s target who tag c m Ent.valveFaultClear v →
      ∃ t, exec (.valveFaultClear target who tag c m) s = .next t ∧
        ∀ n : Fin 20, v.testBit n = true → dbit t.sys.mgmt Ent.valveFaults n = false) ∧
    (ConfirmAccepted s target who tag c m Ent.manifoldProfile v →
      ∃ t, exec (.manifoldProfile target who tag c m) s = .next t ∧ getE t.sys Ent.manifoldProfile = v) ∧
    (ConfirmAccepted s target who tag c m Ent.unitFaultClear v →
      ∃ t, exec (.unitFaultClear target who tag c m) s = .next t ∧
        (∀ n : Fin 2, v.testBit n = true → (unitOf t.sys n).st ≠ .faulted) ∧
        ∀ n : Fin 4, v.testBit (2 + n) = true → (unitOf t.sys (16 + n)).st ≠ .faulted) ∧
    (ConfirmAccepted s target who tag c m Ent.pairRestore v → s.sys.mgmt.pairs.length = 2 →
      ∃ t, exec (.pairRestore target who tag c m) s = .next t ∧ ∀ p : Fin 2, v.testBit p = true →
        pairAt s.sys.mgmt p = .retired ∨ pairAt s.sys.mgmt p = .failed → pairAt t.sys.mgmt p = .resync) ∧
    (ConfirmAccepted s target who tag c m Ent.oscRevertClear v → v = 1 →
      ∃ t, exec (.oscRevertClear target who tag c m) s = .next t ∧ dbit t.sys.mgmt Ent.oscFlags 4 = false) ∧
    (ConfirmAccepted s target who tag c m Ent.serviceOrder v →
      ∃ t, exec (.serviceOrder target who tag c m) s = .next t ∧ t.sys.data.on = false ∧
        t.sys.mgmt.module = if v = 1 then .service else .standby) ∧
    (ConfirmAccepted s target who tag c m Ent.restoreFactory v →
      ∃ t, exec (.restoreFactory target who tag c m) s = .next t ∧ t.sys.mgmt.coldNext = true ∧
        ∀ k e, entryOf k = some e → e.retained = true → e.acc ≠ .ro → getE t.sys k = dflt k) ∧
    (ConfirmAccepted s target who tag c m Ent.restoreTile v →
      ∃ t, exec (.restoreTile target who tag c m) s = .next t ∧ (getE t.sys Ent.repairMap).testBit v = false) ∧
    (ConfirmAccepted s target who tag c m Ent.safeStopExit v →
      ∃ t, exec (.safeStopExit target who tag c m) s = .next t ∧ t.sys.sill.safeStop = false ∧
        t.sys.sill.inletLock = false ∧ t.sys.sill.halt = false ∧ t.sys.sill.acted = [] ∧
        (s.sys.mgmt.module = .safeStop → t.sys.mgmt.module = .standby ∧ t.sys.data.on = false)) ∧
    (ConfirmAccepted s target who tag c m Ent.leakCutExit v →
      ∃ t, exec (.leakCutExit target who tag c m) s = .next t ∧ t.sys.sill.leakCut = false ∧
        t.sys.sill.safeStop = false ∧ t.sys.sill.trayCut = false ∧ t.sys.mgmt.module = .off ∧
        t.sys.mgmt.coldNext = true ∧ ¬ AlarmOn t 1)

/-! ### Sill -/

/-- R392, R395, R399, R537, R541, R544, R546, R553: leak cut, flow not restored, over-temperature, bus and inlet protection,
supervision of Skour and lost sensing act on their triggers, with their latch and outputs, and stop nothing without them; a
trigger in the SFCLK cycle of a confirmation keeps the latches that the exit would have cleared. -/
def Obligations.SafetyFunctionsAct : Prop :=
  ∀ s : State, s.sys.sill.on = true →
    (∀ b : Bool, (if b then s.sys.sill.leakB else s.sys.sill.leakA).confirmed = true → s.sys.sill.leakCut = false →
      inletClosed s.sys = true → ∃ t, exec (.sf1LeakCut b) s = .next t ∧ Acted s t 1 ∧ t.sys.sill.leakCut = true ∧
        t.sys.sill.trayCut = true ∧ t.sys.sill.leakOut = true ∧ t.sys.sill.ssd = .opened ∧
        t.sys.mgmt.module = .leakCut ∧ (s.sys.mgmt.module ≠ .leakCut → AlarmOn t 1)) ∧
    (∀ det at_, s.sys.sill.watch.stop = some (det, at_) →
      (2000000000 ≤ sinceSf s.sys at_ → anyTileOn s.sys.data = true →
        BitVec.ofNat 8 (16 * (det + 1) + 2) ∉ s.sys.sill.acted →
        ∃ t, exec .sf2FlowNotRestored s = .next t ∧ Acted s t 2 ∧ SafeStopped s t) ∧
      (sinceSf s.sys at_ < 2000000000 ∨ anyTileOn s.sys.data = false → exec .sf2FlowNotRestored s = .next s)) ∧
    (∀ stack : Bool,
      let n := if stack then s.sys.sill.hotStack else s.sys.sill.hotTile
      (2 ≤ n → (if stack then 0x23#8 else 0x13#8) ∉ s.sys.sill.acted →
        ∃ t, exec (.sf3OverTemperature stack) s = .next t ∧ Acted s t 3 ∧ SafeStopped s t ∧
          ∀ l, s.sys.sill.exited = some (s.sys.sf, l) → t.sys.sill.leakCut = l.leakCut ∧
            t.sys.sill.inletLock = l.inletLock ∧ t.sys.sill.exited = none) ∧
      (n < 2 → exec (.sf3OverTemperature stack) s = .next s)) ∧
    (∀ us amps mv : Nat,
      (700 < amps → 50 < us → ∃ t, exec (.sf4BusProtection false amps us) s = .next t ∧ Acted s t 4 ∧
        SafeStopped s t ∧ t.sys.sill.sf4At = some s.sys.sf) ∧
      (amps ≤ 700 ∨ us ≤ 50 → exec (.sf4BusProtection false amps us) s = .next s) ∧
      (59500 < mv → 10 < us → ∃ t, exec (.sf4BusProtection true mv us) s = .next t ∧ Acted s t 4 ∧ InletLocked t) ∧
      (mv ≤ 59500 ∨ us ≤ 10 → exec (.sf4BusProtection true mv us) s = .next s)) ∧
    (∀ amps : Nat, s.sys.sill.sf4At ≠ none →
      (200 < amps → ∃ t, exec (.busCurrentRecheck amps) s = .next t ∧ InletLocked t) ∧
      (amps ≤ 200 → ∃ t, exec (.busCurrentRecheck amps) s = .next t ∧ t.sys.sill.inletLock = s.sys.sill.inletLock ∧
        t.sys.sill.sf4At = none)) ∧
    (inletClosed s.sys = true → ∀ us v a : Nat,
      (120 < a → 2 ≤ us → ∃ t, exec (.sf5InletProtection true a us) s = .next t ∧ Acted s t 5 ∧ InletLocked t) ∧
      (920 < v → 50 ≤ us → ∃ t, exec (.sf5InletProtection false v us) s = .next t ∧ Acted s t 5 ∧
        t.sys.sill.ssd = .opened ∧ (NoneWithheld s → t.sys.sill.inletLock = s.sys.sill.inletLock)) ∧
      (a ≤ 120 ∨ us < 2 → exec (.sf5InletProtection true a us) s = .next s) ∧
      (v ≤ 920 ∨ us < 50 → exec (.sf5InletProtection false v us) s = .next s)) ∧
    (∀ trig, sf6Trigger s.sys = some trig → s.sys.sill.sf6At = none → ∃ t, exec .sf6SkourSupervision s = .next t ∧
      Acted s t 6 ∧ SafeStopped s t ∧ t.sys.sill.sf6At = some s.sys.sf) ∧
    (sf6Trigger s.sys = none → exec .sf6SkourSupervision s = .next s) ∧
    (s.sys.sill.leakA.faulted = true → s.sys.sill.leakB.faulted = true → 0x18#8 ∉ s.sys.sill.acted →
      ∃ t, exec (.sf8SafetySensingLost .leak) s = .next t ∧ Acted s t 8 ∧ SafeStopped s t) ∧
    (anyTileOn s.sys.data = true → 0x28#8 ∉ s.sys.sill.acted →
      (10 < s.sys.sill.blind → ∃ t, exec (.sf8SafetySensingLost .flow) s = .next t ∧ Acted s t 8 ∧ SafeStopped s t) ∧
      (∃ t, exec (.sf8SafetySensingLost .link) s = .next t ∧ Acted s t 8 ∧ SafeStopped s t ∧ t.sys.sill.sensing = 0)) ∧
    ∀ part : Fin 7, s.sys.sill.fault = false → ∃ t, exec (.sf8SafetySensingLost (.sill part)) s = .next t ∧
      Acted s t 8 ∧ t.sys.sill.fault = true ∧ InletLocked t ∧ t.sys.sill.tilePwrEn = false ∧
      getE t.sys Ent.sillSelftest = part.val

/-- Sill's loops, timers and UART, and the loss of power. R535, R541, R545, R546, R548: what follows when a loop opens or
closes, when a trigger or Skour's silence lasts 10 s, when the watchdog is not serviced, and when Sill itself falls silent.
R33, R466, R536, R549, R559: Sill answers S, J and V on its UART while it runs; without any input only the retained store,
the journal and Sill's latches and contacts keep their state. -/
def Obligations.SillTimersUartAndPowerLoss : Prop :=
  (∀ s : State,
    (∀ us : Nat,
      (s.sys.sill.present = true → 20 < us → ∃ t, exec (.sf7TrayPowerOff true us) s = .next t ∧
        t.sys.sill.present = false ∧ t.sys.sill.ssd = .opened ∧ t.sys.data.on = false ∧
        (s.sys.sill.on = true → s.sys.sill.stopped = false → Acted s t 7)) ∧
      (us ≤ 20 → exec (.sf7TrayPowerOff true us) s = .next s) ∧
      (s.sys.sill.interlock = true → 1000 < us → ∃ t, exec (.sf7TrayPowerOff false us) s = .next t ∧
        t.sys.sill.interlock = false ∧ t.sys.sill.ssd = .opened ∧
        (s.sys.sill.on = true → getE t.sys Ent.trayOffRequests = (getE s.sys Ent.trayOffRequests + 1) % 2 ^ 32) ∧
        (s.sys.sill.on = true → s.sys.sill.stopped = false → Acted s t 7)) ∧
      (us ≤ 1000 → exec (.sf7TrayPowerOff false us) s = .next s)) ∧
    (s.sys.sill.present = false ∨ s.sys.sill.interlock = false → ∃ t, exec .trayClosed s = .next t ∧
      t.sys.sill.present = true ∧ t.sys.sill.interlock = true) ∧
    (∀ at_, s.sys.sill.sf6At = some at_ →
      (10000000000 ≤ sinceSf s.sys at_ → s.sys.sill.lastService.toNat < at_.toNat →
        ∃ t, exec .skourSilentInletOpen s = .next t ∧ InletLocked t) ∧
      (sinceSf s.sys at_ < 10000000000 ∨ at_.toNat ≤ s.sys.sill.lastService.toNat →
        exec .skourSilentInletOpen s = .next s)) ∧
    (∀ at_, s.sys.sill.latchAt = some at_ → s.sys.sill.safeStop = true → inletClosed s.sys = true →
      (10000000000 ≤ sinceSf s.sys at_ → TriggerStands s → ∃ t, exec .safeStopInletOpen s = .next t ∧ InletLocked t) ∧
      (sinceSf s.sys at_ < 10000000000 ∨ ¬ TriggerStands s → exec .safeStopInletOpen s = .next s)) ∧
    (s.sys.sill.on = true → s.sys.sill.longWindow = none → sf6Trigger s.sys = none → servedSince s.sys.sill = true →
      (62500000 ≤ sinceSf s.sys s.sys.sill.lastService → ∃ t, exec .watchdogExpiry s = .next t ∧
        t.sys.mgmt.run = .restart s.sys.ts true (snapCount s.sys.mgmt) ∧
        t.sys.sill.expiries = s.sys.sill.expiries + 1 ∧ t.sys.sill.longWindow = some ⟨true, s.sys.sf⟩) ∧
      (sinceSf s.sys s.sys.sill.lastService < 62500000 → exec .watchdogExpiry s = .next s)) ∧
    ∃ t, exec .supervisorTimeout s = .next t ∧ t.sys.sill.stopped = true ∧ t.sys.sill.halt = true ∧
      t.sys.sill.tilePwrEn = false ∧ t.sys.sill.ssd = .opened ∧ t.sys.data.on = false) ∧
  (∀ s : State,
    (s.sys.sill.on = true → s.sys.sill.stopped = false →
      (∃ t, exec .uartS s = .next t ∧
        t.sys.sill.uart = uartLine 83 (statusBody s.sys ++ natLe 4 (crc32 (statusBody s.sys)).toNat)) ∧
      (s.sys.sill.copy.length ≤ 64 → ∃ t, exec .uartJ s = .next t ∧ t.sys.sill.uart.length = 64 * 68 + 3) ∧
      (∃ t, exec .uartV s = .next t ∧ t.sys.sill.uart = uartLine 86 (natLe 4 (getE s.sys (Ent.fwVersion + 1))))) ∧
    (s.sys.sill.on = false → exec .uartS s = .next s ∧ exec .uartJ s = .next s ∧ exec .uartV s = .next s) ∧
    ∃ t, exec .auxPowerLoss s = .next t ∧ t.sys.sill.on = false ∧ t.sys.data.on = false ∧ t.sys.ctrl.on = false ∧
      t.sys.mgmt.service = 0 ∧ t.sys.ts = 0 ∧ t.sys.sf = 0 ∧
      t.sys.sill.safeStop = s.sys.sill.safeStop ∧
      t.sys.sill.leakCut = s.sys.sill.leakCut ∧ t.sys.sill.inletLock = s.sys.sill.inletLock ∧
      t.sys.sill.trayCut = s.sys.sill.trayCut ∧ t.sys.sill.leakOut = s.sys.sill.leakOut ∧
      t.sys.mgmt.journal = s.sys.mgmt.journal ∧ t.sys.mgmt.jNext = s.sys.mgmt.jNext ∧
      t.sys.mgmt.settings = s.sys.mgmt.settings ∧ t.sys.mgmt.records = s.sys.mgmt.records)

end
end

