-- ==== Sys2Proof/Laws/Control.lean ====
section
/-!
SUPPORT. What the operations of the control plane keep: the bounds of its sessions, stored responses, waiting commands and
journal records.
-/

namespace Sys2Proof.Machine

variable {e : CEnv} {c : Ctrl} {m : Msg}

/-- The bounds read five parts of the control plane and nothing else. -/
theorem Ctrl.Bounded.congr {d : Ctrl} (h : c.Bounded) (hs : d.sessions = c.sessions) (hq : d.queue = c.queue)
    (hj : d.journal = c.journal) (hc : d.control = c.control) : d.Bounded := by
  simpa [Ctrl.Bounded, hs, hq, hj, hc] using h

theorem Ctrl.reset_bounded : Ctrl.reset.Bounded := by simp [Ctrl.Bounded, Ctrl.reset]

@[simp] theorem raiseRun_bounded (code : Nat) (bs : List Byte) (h : c.Bounded) : (raiseRun e code bs c).Bounded :=
  h.congr rfl rfl rfl rfl

@[simp] theorem setRc_bounded (s : RcState) (cmd : W64) (h : c.Bounded) : (setRc e s cmd c).Bounded := by
  unfold setRc
  split
  · exact h
  · exact raiseRun_bounded _ _ (h.congr rfl rfl rfl rfl)

/-- A session changed without its number and with at most 256 answers keeps the bounds. -/
theorem editSession_bounded (n : W32) (f : Session → Session) (hn : ∀ s, (f s).num = s.num)
    (ha : ∀ s, s.answered.length ≤ 256 → (f s).answered.length ≤ 256) (h : c.Bounded) : (editSession n f c).Bounded := by
  obtain ⟨h1, h2, h3, h4, h5⟩ := h
  refine ⟨by simpa [editSession] using h1, ?_, h3, h4, ?_⟩
  · simp only [editSession, List.mem_map]
    rintro _ ⟨s, hs, rfl⟩
    split
    · exact ha s (h2 s hs)
    · exact h2 s hs
  · intro k hk
    obtain ⟨s, hs, rfl⟩ := h5 k hk
    refine ⟨if s.num = n then f s else s, List.mem_map.2 ⟨s, hs, rfl⟩, ?_⟩
    split
    · exact hn s
    · rfl

@[simp] theorem touch_bounded (n : W32) (t : W64) (h : c.Bounded) :
    (editSession n (fun s => { s with lastMsg := t }) c).Bounded :=
  editSession_bounded n _ (fun _ => rfl) (fun _ h => h) h

@[simp] theorem respond_bounded (status : Nat) (bs : List Byte) (h : c.Bounded) : (respond m status bs c).Bounded := by
  unfold respond
  refine editSession_bounded _ _ (fun _ => rfl) (fun s _ => ?_) (h.congr rfl rfl rfl rfl)
  simp

@[simp] theorem respondBare_bounded (status : Nat) (h : c.Bounded) : (respondBare m status c).Bounded :=
  h.congr rfl rfl rfl rfl

/-- What handles a new message of a known session keeps the bounds, so the whole message does. -/
theorem inSession_bounded (f : Ctrl → Ctrl) (hf : ∀ d, d.Bounded → (f d).Bounded) (h : c.Bounded) :
    (inSession e m f c).Bounded := by
  unfold inSession
  split
  · exact h
  · split
    · exact respondBare_bounded _ h
    · dsimp only
      split
      · exact (touch_bounded m.session e.ts h).congr rfl rfl rfl rfl
      · exact hf _ (touch_bounded m.session e.ts h)

@[simp] theorem journal_bounded (typ : Nat) (t v : W64) (r : Nat) (h : c.Bounded) : (journal m typ t v r c).Bounded := by
  obtain ⟨h1, h2, h3, h4, h5⟩ := h
  unfold journal
  split
  · exact ⟨h1, h2, h3, h4, h5⟩
  · rename_i hf
    refine ⟨h1, h2, h3, ?_, h5⟩
    simp [journalFull] at hf ⊢
    omega

@[simp] theorem openSession_bounded (control force : Bool) (h : c.Bounded) : (openSession e m control force c).Bounded := by
  unfold openSession
  split
  · exact h
  · split
    · exact h.congr rfl rfl rfl rfl
    · dsimp only
      split
      · exact respondBare_bounded _ h
      · split
        · exact respondBare_bounded _ h
        · split
          · exact respondBare_bounded _ h
          · obtain ⟨h1, h2, h3, h4, h5⟩ := h
            refine Ctrl.Bounded.congr (respond_bounded _ _ ?_) rfl rfl rfl rfl
            split
            · apply journal_bounded
              refine ⟨by simp; omega, ?_, h3, h4, ?_⟩
              · intro s hs
                rcases List.mem_append.1 hs with hs | hs
                · exact h2 s hs
                · simp at hs; simp [hs]
              · rintro n ⟨⟩
                exact ⟨_, List.mem_append_right _ (List.mem_singleton.2 rfl), rfl⟩
            · refine ⟨by simp; omega, ?_, h3, h4, ?_⟩
              · intro s hs
                rcases List.mem_append.1 hs with hs | hs
                · exact h2 s hs
                · simp at hs; simp [hs]
              · intro n hn
                obtain ⟨s, hs, hk⟩ := h5 n hn
                exact ⟨s, by simp [hs], hk⟩

@[simp] theorem dropSession_bounded (n : W32) (h : c.Bounded) : (dropSession n c).Bounded := by
  obtain ⟨h1, h2, h3, h4, h5⟩ := h
  refine ⟨(List.length_filter_le _ _).trans h1, fun s hs => h2 s (List.mem_filter.1 hs).1, h3, h4, ?_⟩
  intro k hk
  simp only [dropSession] at hk
  split at hk
  · cases hk
  · rename_i hne
    obtain ⟨s, hs, rfl⟩ := h5 k hk
    refine ⟨s, List.mem_filter.2 ⟨hs, ?_⟩, rfl⟩
    have : s.num ≠ n := fun hn => hne (hn ▸ hk)
    simpa using this

@[simp] theorem closeSession_bounded (h : c.Bounded) : (closeSession e m c).Bounded :=
  inSession_bounded _ (fun _ hd => dropSession_bounded _ (respond_bounded _ _ hd)) h

@[simp] theorem heartbeat_bounded (h : c.Bounded) : (heartbeat e m c).Bounded := by
  refine inSession_bounded _ (fun d hd => respond_bounded _ _ ?_) h
  dsimp only
  split
  · exact (editSession_bounded m.session (fun s => { s with lastBeat := some e.ts }) (fun _ => rfl) (fun _ h => h) hd).congr
      rfl rfl rfl rfl
  · exact hd

@[simp] theorem runEventAck_bounded (next : W64) (sub : Bool) (h : c.Bounded) : (runEventAck e m next sub c).Bounded :=
  inSession_bounded _ (fun _ hd => respond_bounded _ _ (hd.congr rfl rfl rfl rfl)) h

@[simp] theorem sessionTimeout_bounded (n : W32) (h : c.Bounded) : (sessionTimeout e n c).Bounded := by
  unfold sessionTimeout
  split
  · split
    · exact dropSession_bounded _ h
    · exact h
  · exact h

/-- Without the control role the bounds hold as they did. -/
theorem Ctrl.Bounded.roleless {d : Ctrl} (h : c.Bounded) (hs : d.sessions = c.sessions) (hq : d.queue = c.queue)
    (hj : d.journal = c.journal) (hc : d.control = none) : d.Bounded := by
  obtain ⟨h1, h2, h3, h4, _⟩ := h
  exact ⟨hs ▸ h1, hs ▸ h2, hq ▸ h3, hj ▸ h4, fun n hn => by rw [hc] at hn; cases hn⟩

@[simp] theorem roleLost_bounded (h : c.Bounded) : (roleLost e c).Bounded := by
  unfold roleLost
  split
  · exact h
  · split
    · exact h
    · split
      · exact h.roleless rfl rfl rfl rfl
      · exact h

@[simp] theorem finishCmd_bounded (x : Waiting) (status : Nat) (bs : List Byte) (h : c.Bounded) :
    (finishCmd x status bs c).Bounded :=
  journal_bounded _ _ _ _ (respond_bounded _ _ (h.congr rfl rfl rfl rfl))

@[simp] theorem acceptCmd_bounded (x : Waiting) (h : c.Bounded) : (acceptCmd e x c).1.Bounded := by
  unfold acceptCmd
  split
  · exact h.congr rfl rfl rfl rfl
  · split
    · exact setRc_bounded _ _ (finishCmd_bounded _ _ _ (h.congr rfl rfl rfl rfl))
    · exact finishCmd_bounded _ _ _ (h.congr rfl rfl rfl rfl)
    · exact setRc_bounded _ _ (finishCmd_bounded _ _ _ (h.congr rfl rfl rfl rfl))
    · exact h

@[simp] theorem judge_bounded (fits settled : Bool) (rep : Repair) (x : Waiting) (h : c.Bounded) :
    (judge e fits settled rep x c).1.Bounded := by
  unfold judge
  generalize (if c.control ≠ some x.msg.session then 0x0501 else checkCmd x.word fits settled rep x.cmd c) = code
  dsimp only
  split
  · exact acceptCmd_bounded x h
  · exact finishCmd_bounded _ _ _ h

/-- A command that takes its place among those that wait makes them one more. -/
@[simp] theorem insertWaiting_length (x : Waiting) (q : List Waiting) : (insertWaiting x q).length = q.length + 1 := by
  have h : ∀ (p : Waiting → Bool) (l : List Waiting), (l.filter p).length + (l.filter fun y => !p y).length = l.length := by
    intro p l
    induction l with
    | nil => rfl
    | cons a l ih =>
      by_cases ha : p a <;> simp [ha] <;> omega
  simp only [insertWaiting, List.partition_eq_filter_filter, List.length_append, List.length_cons]
  have := h (fun y => y.stamp != x.stamp || decide (y.msg.engine ≤ x.msg.engine)) q
  simp only [Function.comp_def] at *
  omega

@[simp] theorem arrive_bounded (fits settled : Bool) (rep : Repair) (cmd : RunCmd) (h : c.Bounded) :
    (arrive e fits settled rep m cmd c).1.Bounded := by
  have ht : (editSession m.session (fun s => { s with lastMsg := e.ts }) c).Bounded := touch_bounded m.session e.ts h
  unfold arrive
  split
  · exact h
  · split
    · exact finishCmd_bounded _ _ _ h
    · dsimp only
      split
      · exact ht.congr rfl rfl rfl rfl
      · split
        · split
          · exact finishCmd_bounded _ _ _ ht
          · obtain ⟨h1, h2, h3, h4, h5⟩ := ht
            refine ⟨h1, h2, ?_, h4, h5⟩
            rename_i hq
            simp only [insertWaiting_length]
            simp only [editSession] at hq ⊢
            omega
        · exact judge_bounded _ _ _ _ ht

@[simp] theorem judgeNext_bounded (fits settled : Bool) (rep : Repair) (h : c.Bounded) :
    (judgeNext e fits settled rep c).1.Bounded := by
  unfold judgeNext
  split
  · rename_i x rest _ hq
    have hr : ({ c with queue := rest } : Ctrl).Bounded := by
      obtain ⟨h1, h2, h3, h4, h5⟩ := h
      refine ⟨h1, h2, ?_, h4, h5⟩
      rw [hq] at h3
      simp at h3 ⊢
      omega
    split
    · exact hr.congr rfl rfl rfl rfl
    · exact judge_bounded _ _ _ _ hr
  · exact h

@[simp] theorem verdictIn_bounded (code : Nat) (h : c.Bounded) : (verdictIn e code c).Bounded := by
  unfold verdictIn
  split
  · exact h
  · rename_i x _
    have hf : (finishCmd x code [] { c with current := none, orderReq := none }).Bounded :=
      finishCmd_bounded _ _ _ (h.congr rfl rfl rfl rfl)
    dsimp only
    split
    · exact hf
    · split
      · exact setRc_bounded _ _ (hf.congr rfl rfl rfl rfl)
      · exact setRc_bounded _ _ hf
      · exact setRc_bounded _ _ hf
      · exact hf

@[simp] theorem verdictTimeout_bounded (h : c.Bounded) : (verdictTimeout e c).Bounded := by
  unfold verdictTimeout
  split
  · split
    · exact verdictIn_bounded _ h
    · exact h
  · exact h

@[simp] theorem followWord_bounded (h : c.Bounded) : (followWord e c).Bounded := by
  unfold followWord
  dsimp only
  repeat' split
  all_goals first
    | exact h
    | exact setRc_bounded _ _ (h.congr rfl rfl rfl rfl)

@[simp] theorem takeWord_bounded (w : J2Word) (p : W32) (h : c.Bounded) : (takeWord e w p c).Bounded := by
  have h1 : ({ c with word := w, placement := p } : Ctrl).Bounded := h.congr rfl rfl rfl rfl
  unfold takeWord
  split
  · exact h1
  · dsimp only
    apply followWord_bounded
    split
    · exact verdictIn_bounded _ h1
    · exact h1

@[simp] theorem endLoad_bounded (r : LoadReport) (h : c.Bounded) : (endLoad e r c).Bounded := by
  have h1 : (raiseRun e 0x0201 (reportBytes r) { c with load := none }).Bounded :=
    raiseRun_bounded _ _ (h.congr rfl rfl rfl rfl)
  unfold endLoad
  dsimp only
  split
  · exact setRc_bounded _ _ h1
  · exact setRc_bounded _ _ (h1.congr rfl rfl rfl rfl)

@[simp] theorem sendProfile_bounded (j : LoadJob) (h : c.Bounded) : (sendProfile j c).Bounded := h.congr rfl rfl rfl rfl

@[simp] theorem loadComplete_bounded (h : c.Bounded) : (loadComplete e c).2.Bounded := by
  unfold loadComplete
  split
  · split
    · exact h
    · split
      · exact endLoad_bounded _ h
      · exact endLoad_bounded _ h
  · exact h

@[simp] theorem badMessage_bounded (engine addr : Nat) (bs : List Byte) (h : c.Bounded) :
    (badMessage engine addr bs c).Bounded := by
  unfold badMessage
  split
  · exact respondBare_bounded _ h
  · exact h

@[simp] theorem ctrlPowerUp_bounded : (ctrlPowerUp c).Bounded := Ctrl.reset_bounded.congr rfl rfl rfl rfl

@[simp] theorem ctrlPowerDown_bounded : (ctrlPowerDown c).Bounded := Ctrl.reset_bounded.congr rfl rfl rfl rfl

end Sys2Proof.Machine
end

