-- ==== Sys2Proof/Laws/CtrlFrames.lean ====
section
/-!
SUPPORT. The management plane's operations that leave the control plane as it was: one lemma each.
-/

namespace Sys2Proof.Machine

/-- A fold of steps that keep the plane keeps it. -/
theorem foldl_ctrl {α : Type} (f : Module → α → Module) (h : ∀ y a, (f y a).ctrl = y.ctrl) (l : List α) (x : Module) :
    (l.foldl f x).ctrl = x.ctrl := by
  induction l generalizing x with
  | nil => rfl
  | cons a l ih => simp [ih, h]

/-- A repetition of steps that keep the plane keeps it. -/
theorem repeatN_ctrl (f : Nat → Module → Module) (h : ∀ n y, (f n y).ctrl = y.ctrl) (n : Nat) (x : Module) :
    (repeatN f n x).ctrl = x.ctrl := by
  induction n with
  | zero => rfl
  | succ n ih => simp [repeatN, ih, h]

@[simp] theorem onData_ctrl (f : Data → Data) (x : Module) : (onData f x).ctrl = x.ctrl := by
  simp [onData]

@[simp] theorem onMgmt_ctrl (f : Mgmt → Mgmt) (x : Module) : (onMgmt f x).ctrl = x.ctrl := by
  simp [onMgmt]

@[simp] theorem onSill_ctrl (f : Sill → Sill) (x : Module) : (onSill f x).ctrl = x.ctrl := by
  simp [onSill]

@[simp] theorem setE_ctrl (k v : Nat) (x : Module) : (setE k v x).ctrl = x.ctrl := by
  simp [setE]

@[simp] theorem incE_ctrl (k : Nat) (x : Module) : (incE k x).ctrl = x.ctrl := by
  simp [incE]

@[simp] theorem editJoints_ctrl (f : Joints → Joints) (x : Module) : (editJoints f x).ctrl = x.ctrl := by
  simp [editJoints]

@[simp] theorem editPower_ctrl (f : Power → Power) (x : Module) : (editPower f x).ctrl = x.ctrl := by
  simp [editPower]

@[simp] theorem editCool_ctrl (f : Cool → Cool) (x : Module) : (editCool f x).ctrl = x.ctrl := by
  simp [editCool]

@[simp] theorem editAct_ctrl (f : Act → Act) (x : Module) : (editAct f x).ctrl = x.ctrl := by
  simp [editAct]

@[simp] theorem editBus_ctrl (f : Bus → Bus) (x : Module) : (editBus f x).ctrl = x.ctrl := by
  simp [editBus]

@[simp] theorem commitEnt_ctrl (e : JEnt) (x : Module) : (commitEnt e x).ctrl = x.ctrl := by
  simp [commitEnt]

@[simp] theorem enqueue_ctrl (e : JEnt) (detail : List Byte) (x : Module) : (enqueue e detail x).ctrl = x.ctrl := by
  simp [enqueue]

@[simp] theorem note_ctrl (source kind key : Nat) (value : Nat) (x : Module) :
    (note source kind key value x).ctrl = x.ctrl := by
  simp [note, apply_ite Module.ctrl]

@[simp] theorem commitOrder_ctrl (source authority kind key : Nat) (value : W64) (result : Nat) (x : Module) :
    (commitOrder source authority kind key value result x).ctrl = x.ctrl := by
  simp [commitOrder]

@[simp] theorem recordEvent_ctrl (obj : Nat) (at_ : W64) (detail : List Byte) (x : Module) :
    (recordEvent obj at_ detail x).ctrl = x.ctrl := by
  simp [recordEvent]

@[simp] theorem raiseEvent_ctrl (obj : Nat) (detail : List Byte) (x : Module) :
    (raiseEvent obj detail x).ctrl = x.ctrl := by
  simp [raiseEvent, apply_ite Module.ctrl]

@[simp] theorem beginAlarm_ctrl (code cause : Nat) (x : Module) : (beginAlarm code cause x).ctrl = x.ctrl := by
  simp [beginAlarm]

@[simp] theorem endAlarm_ctrl (code : Nat) (x : Module) : (endAlarm code x).ctrl = x.ctrl := by
  simp [endAlarm]

@[simp] theorem markTile_ctrl (ix : Nat) (bad : Bool) (x : Module) : (markTile ix bad x).ctrl = x.ctrl := by
  simp [markTile, apply_ite Module.ctrl]

@[simp] theorem presentLevels_ctrl (v : J1Levels) (x : Module) : (presentLevels v x).ctrl = x.ctrl := by
  simp [presentLevels, apply_ite Module.ctrl]

@[simp] theorem writeJ1_ctrl (x : Module) : (writeJ1 x).ctrl = x.ctrl := by
  simp [writeJ1]

@[simp] theorem presentOrder_ctrl (o : BitVec 16) (x : Module) : (presentOrder o x).ctrl = x.ctrl := by
  simp [presentOrder]

@[simp] theorem setThrottle_ctrl (f : Throttles → Throttles) (x : Module) : (setThrottle f x).ctrl = x.ctrl := by
  simp [setThrottle]

@[simp] theorem writeOrder_ctrl (op turn : Nat) (x : Module) : (writeOrder op turn x).ctrl = x.ctrl := by
  simp [writeOrder]

@[simp] theorem writeStep_ctrl (x : Module) : (writeStep x).ctrl = x.ctrl := by
  simp [writeStep]

@[simp] theorem toState_ctrl (t : ModState) (x : Module) : (toState t x).ctrl = x.ctrl := by
  simp [toState, apply_ite Module.ctrl]

@[simp] theorem dataOff_ctrl (x : Module) : (dataOff x).ctrl = x.ctrl := by
  simp [dataOff]

@[simp] theorem dataOn_ctrl (x : Module) : (dataOn x).ctrl = x.ctrl := by
  simp [dataOn, apply_ite Module.ctrl]

@[simp] theorem dropTilePower_ctrl (x : Module) : (dropTilePower x).ctrl = x.ctrl := by
  simp [dropTilePower]

@[simp] theorem haltedRises_ctrl (x : Module) : (haltedRises x).ctrl = x.ctrl := by
  simp [haltedRises, apply_ite Module.ctrl]

@[simp] theorem haltedTimeout_ctrl (x : Module) : (haltedTimeout x).ctrl = x.ctrl := by
  simp [haltedTimeout, apply_ite Module.ctrl]

@[simp] theorem haltedMissing_ctrl (x : Module) : (haltedMissing x).ctrl = x.ctrl := by
  simp [haltedMissing, apply_ite Module.ctrl]

@[simp] theorem countAct_ctrl (fn trigger : Nat) (x : Module) : (countAct fn trigger x).ctrl = x.ctrl := by
  simp [countAct]

@[simp] theorem showCause_ctrl (x : Module) : (showCause x).ctrl = x.ctrl := by
  simp [showCause, apply_ite Module.ctrl]

@[simp] theorem latchSafe_ctrl (fn trigger : Nat) (x : Module) : (latchSafe fn trigger x).ctrl = x.ctrl := by
  simp [latchSafe]

@[simp] theorem serviceWatchdog_ctrl (x : Module) : (serviceWatchdog x).ctrl = x.ctrl := by
  simp [serviceWatchdog]

@[simp] theorem stopSkour_ctrl (ordered : Bool) (x : Module) : (stopSkour ordered x).ctrl = x.ctrl := by
  simp [stopSkour]

@[simp] theorem watchdogExpiry_ctrl (x : Module) : (watchdogExpiry x).ctrl = x.ctrl := by
  simp [watchdogExpiry, apply_ite Module.ctrl]

@[simp] theorem leakSample_ctrl (b : Bool) (g : Nat) (x : Module) : (leakSample b g x).ctrl = x.ctrl := by
  simp [leakSample, apply_ite Module.ctrl]

@[simp] theorem leakFault_ctrl (b : Bool) (x : Module) : (leakFault b x).ctrl = x.ctrl := by
  simp [leakFault, apply_ite Module.ctrl]

@[simp] theorem answerUart_ctrl (f : Module → List Byte) (x : Module) : (answerUart f x).ctrl = x.ctrl := by
  simp [answerUart, apply_ite Module.ctrl]

@[simp] theorem requestStep_ctrl (x : Module) : (requestStep x).ctrl = x.ctrl := by
  simp [requestStep, apply_ite Module.ctrl]

@[simp] theorem takeCapStep_ctrl (s : Nat) (x : Module) : (takeCapStep s x).ctrl = x.ctrl := by
  simp [takeCapStep]

@[simp] theorem fastLoop_ctrl (x : Module) : (fastLoop x).ctrl = x.ctrl := by
  simp [fastLoop, apply_ite Module.ctrl]

@[simp] theorem clearCapUnmet_ctrl (x : Module) : (clearCapUnmet x).ctrl = x.ctrl := by
  simp [clearCapUnmet, apply_ite Module.ctrl]

@[simp] theorem blockThrottle_ctrl (x : Module) : (blockThrottle x).ctrl = x.ctrl := by
  simp [blockThrottle, apply_ite Module.ctrl]

@[simp] theorem meterFrame_ctrl (mw : Nat) (newMinute : Bool) (x : Module) : (meterFrame mw newMinute x).ctrl = x.ctrl := by
  simp [meterFrame, apply_ite Module.ctrl]

@[simp] theorem noteLowering_ctrl (x : Module) : (noteLowering x).ctrl = x.ctrl := by
  simp [noteLowering]

@[simp] theorem updateK_ctrl (mw : Nat) (x : Module) : (updateK mw x).ctrl = x.ctrl := by
  simp [updateK]

@[simp] theorem recomputeForecast_ctrl (x : Module) : (recomputeForecast x).ctrl = x.ctrl := by
  simp [recomputeForecast]

@[simp] theorem beginStep_ctrl (cold : Bool) (step : Nat) (began : W64) (x : Module) :
    (beginStep cold step began x).ctrl = x.ctrl := by
  simp [beginStep]

@[simp] theorem beginInlet_ctrl (x : Module) : (beginInlet x).ctrl = x.ctrl := by
  simp [beginInlet, apply_ite Module.ctrl]

@[simp] theorem inputOutOfRange_ctrl (x : Module) : (inputOutOfRange x).ctrl = x.ctrl := by
  simp [inputOutOfRange, apply_ite Module.ctrl]

@[simp] theorem inletRecovered_ctrl (x : Module) : (inletRecovered x).ctrl = x.ctrl := by
  simp [inletRecovered, apply_ite Module.ctrl]

@[simp] theorem busUndervoltage_ctrl (mv us : Nat) (x : Module) : (busUndervoltage mv us x).ctrl = x.ctrl := by
  simp [busUndervoltage, apply_ite Module.ctrl]

@[simp] theorem busUndervoltageClear_ctrl (x : Module) : (busUndervoltageClear x).ctrl = x.ctrl := by
  simp [busUndervoltageClear, apply_ite Module.ctrl]

@[simp] theorem tileOff_ctrl (ix : Nat) (x : Module) : (tileOff ix x).ctrl = x.ctrl := by
  simp [tileOff]

@[simp] theorem loseField_ctrl (f : Nat) (x : Module) : (loseField f x).ctrl = x.ctrl := by
  simp [loseField, foldl_ctrl]

@[simp] theorem phaseDisable_ctrl (f p : Nat) (x : Module) : (phaseDisable f p x).ctrl = x.ctrl := by
  simp [phaseDisable, apply_ite Module.ctrl]

@[simp] theorem abandonStart_ctrl (x : Module) : (abandonStart x).ctrl = x.ctrl := by
  unfold abandonStart
  split <;> simp

@[simp] theorem editChan_ctrl (c : Nat) (f : Chan → Chan) (x : Module) : (editChan c f x).ctrl = x.ctrl := by
  simp [editChan]

@[simp] theorem syncValveThrottle_ctrl (x : Module) : (syncValveThrottle x).ctrl = x.ctrl := by
  simp [syncValveThrottle, apply_ite Module.ctrl]

@[simp] theorem leaveQueue_ctrl (c : Nat) (x : Module) : (leaveQueue c x).ctrl = x.ctrl := by
  simp [leaveQueue]

@[simp] theorem valveFault_ctrl (c cause : Nat) (x0 : Module) : (valveFault c cause x0).ctrl = x0.ctrl := by
  simp [valveFault, onlyIf, apply_ite Module.ctrl]

@[simp] theorem clearValveFault_ctrl (c : Nat) (x : Module) : (clearValveFault c x).ctrl = x.ctrl := by
  simp [clearValveFault, apply_ite Module.ctrl]

@[simp] theorem beginPull_ctrl (c : Nat) (x : Module) : (beginPull c x).ctrl = x.ctrl := by
  simp [beginPull]

@[simp] theorem requestPull_ctrl (c : Nat) (x : Module) : (requestPull c x).ctrl = x.ctrl := by
  simp [requestPull, apply_ite Module.ctrl]

@[simp] theorem startNext_ctrl (b : Nat) (x : Module) : (startNext b x).ctrl = x.ctrl := by
  unfold startNext
  split <;> simp [apply_ite Module.ctrl]

@[simp] theorem turnOff_ctrl (check : Bool) (c : Nat) (x : Module) : (turnOff check c x).ctrl = x.ctrl := by
  simp only [turnOff]
  repeat' split
  all_goals simp

@[simp] theorem pullinStart_ctrl (c : Nat) (x : Module) : (pullinStart c x).ctrl = x.ctrl := by
  unfold pullinStart
  split <;> simp

@[simp] theorem regulationEnd_ctrl (c : Nat) (x : Module) : (regulationEnd c x).ctrl = x.ctrl := by
  unfold regulationEnd
  split <;> simp

@[simp] theorem loseZone_ctrl (z : Nat) (x : Module) : (loseZone z x).ctrl = x.ctrl := by
  simp [loseZone, foldl_ctrl]

@[simp] theorem retestDone_ctrl (c : Nat) (pass : Bool) (x : Module) : (retestDone c pass x).ctrl = x.ctrl := by
  simp [retestDone, apply_ite Module.ctrl]

@[simp] theorem pullEnded_ctrl (c : Nat) (moved : Bool) (x : Module) : (pullEnded c moved x).ctrl = x.ctrl := by
  simp [pullEnded, apply_ite Module.ctrl]

@[simp] theorem decayEnd_ctrl (c : Nat) (samples : List Nat) (x : Module) : (decayEnd c samples x).ctrl = x.ctrl := by
  unfold decayEnd
  split <;> simp

@[simp] theorem movementRetry_ctrl (c : Nat) (x : Module) : (movementRetry c x).ctrl = x.ctrl := by
  simp [movementRetry, apply_ite Module.ctrl]

@[simp] theorem crossCheck_ctrl (c : Nat) (x : Module) : (crossCheck c x).ctrl = x.ctrl := by
  simp [crossCheck, apply_ite Module.ctrl]

@[simp] theorem openCoil_ctrl (c ma : Nat) (x : Module) : (openCoil c ma x).ctrl = x.ctrl := by
  unfold openCoil
  repeat' split
  all_goals simp [apply_ite Module.ctrl]

@[simp] theorem coilShort_ctrl (c ma : Nat) (x : Module) : (coilShort c ma x).ctrl = x.ctrl := by
  simp [coilShort, apply_ite Module.ctrl]

@[simp] theorem bankTrip_ctrl (b us : Nat) (own : Bool) (x : Module) : (bankTrip b us own x).ctrl = x.ctrl := by
  unfold bankTrip
  repeat' split
  all_goals simp [onlyIf, apply_ite Module.ctrl, repeatN_ctrl]

@[simp] theorem bankRetry_ctrl (b : Nat) (x : Module) : (bankRetry b x).ctrl = x.ctrl := by
  simp [bankRetry, apply_ite Module.ctrl, foldl_ctrl]

@[simp] theorem windowStart_ctrl (z : Nat) (x : Module) : (windowStart z x).ctrl = x.ctrl := by
  simp only [windowStart]
  repeat' split
  all_goals simp

@[simp] theorem windowEnd_ctrl (z : Nat) (x : Module) : (windowEnd z x).ctrl = x.ctrl := by
  simp [windowEnd, apply_ite Module.ctrl]

@[simp] theorem stuckOpen_ctrl (z : Nat) (x : Module) : (stuckOpen z x).ctrl = x.ctrl := by
  simp [stuckOpen, apply_ite Module.ctrl]

@[simp] theorem forceZone_ctrl (z : Nat) (x : Module) : (forceZone z x).ctrl = x.ctrl := by
  unfold forceZone
  split <;> simp

@[simp] theorem endForces_ctrl (x : Module) : (endForces x).ctrl = x.ctrl := by
  simp [endForces]

@[simp] theorem commandValve_ctrl (c : Nat) (openIt : Bool) (x : Module) : (commandValve c openIt x).ctrl = x.ctrl := by
  simp only [commandValve, onlyIf]
  repeat' split
  all_goals simp

@[simp] theorem valveRetest_ctrl (z : Nat) (x : Module) : (valveRetest z x).ctrl = x.ctrl := by
  simp [valveRetest, apply_ite Module.ctrl]

@[simp] theorem editUnit_ctrl (u : Nat) (f : DriveUnit → DriveUnit) (x : Module) : (editUnit u f x).ctrl = x.ctrl := by
  simp [editUnit]

@[simp] theorem setTarget_ctrl (u pct : Nat) (x : Module) : (setTarget u pct x).ctrl = x.ctrl := by
  simp [setTarget, onlyIf, apply_ite Module.ctrl]

@[simp] theorem setPump_ctrl (pct : Nat) (x : Module) : (setPump pct x).ctrl = x.ctrl := by
  unfold setPump
  split <;> simp

@[simp] theorem setFan_ctrl (n pct : Nat) (x : Module) : (setFan n pct x).ctrl = x.ctrl := by
  simp [setFan]

@[simp] theorem unitFault_ctrl (u : Nat) (x : Module) : (unitFault u x).ctrl = x.ctrl := by
  simp [unitFault, apply_ite Module.ctrl, repeatN_ctrl]

@[simp] theorem unitStartCheck_ctrl (u : Nat) (pulses : Bool) (x : Module) : (unitStartCheck u pulses x).ctrl = x.ctrl := by
  simp [unitStartCheck, apply_ite Module.ctrl]

@[simp] theorem tachLoss_ctrl (u ms : Nat) (x : Module) : (tachLoss u ms x).ctrl = x.ctrl := by
  simp [tachLoss, apply_ite Module.ctrl]

@[simp] theorem tachRecover_ctrl (u : Nat) (x : Module) : (tachRecover u x).ctrl = x.ctrl := by
  simp [tachRecover, apply_ite Module.ctrl]

@[simp] theorem driveLoop_ctrl (rpm : List Nat) (x : Module) : (driveLoop rpm x).ctrl = x.ctrl := by
  simp [driveLoop, apply_ite Module.ctrl, foldl_ctrl]

@[simp] theorem targetStep_ctrl (u pct : Nat) (x : Module) : (targetStep u pct x).ctrl = x.ctrl := by
  simp [targetStep, apply_ite Module.ctrl]

@[simp] theorem clearUnitFaults_ctrl (mask : Nat) (x : Module) : (clearUnitFaults mask x).ctrl = x.ctrl := by
  simp [clearUnitFaults, apply_ite Module.ctrl, foldl_ctrl]

@[simp] theorem clearValveFaults_ctrl (mask : Nat) (x : Module) : (clearValveFaults mask x).ctrl = x.ctrl := by
  simp [clearValveFaults, apply_ite Module.ctrl, foldl_ctrl]

@[simp] theorem writeSchedule_ctrl (s : Schedule) (x : Module) : (writeSchedule s x).ctrl = x.ctrl := by
  simp [writeSchedule, apply_ite Module.ctrl, foldl_ctrl]

@[simp] theorem noteUnobserved_ctrl (x : Module) : (noteUnobserved x).ctrl = x.ctrl := by
  simp [noteUnobserved, apply_ite Module.ctrl, foldl_ctrl]

@[simp] theorem setThermal_ctrl (s : Nat) (x : Module) : (setThermal s x).ctrl = x.ctrl := by
  simp [setThermal]

@[simp] theorem enterClamp_ctrl (kind which : Nat) (reading : Int) (x : Module) :
    (enterClamp kind which reading x).ctrl = x.ctrl := by
  simp [enterClamp]

@[simp] theorem checkClamp_ctrl (x : Module) : (checkClamp x).ctrl = x.ctrl := by
  simp only [checkClamp]
  repeat' split
  all_goals simp [apply_ite Module.ctrl, foldl_ctrl]

@[simp] theorem thermalRise_ctrl (x : Module) : (thermalRise x).ctrl = x.ctrl := by
  unfold thermalRise
  split <;> simp [apply_ite Module.ctrl]

@[simp] theorem thermalThrottle_ctrl (x : Module) : (thermalThrottle x).ctrl = x.ctrl := by
  unfold thermalThrottle
  split <;> simp [apply_ite Module.ctrl]

@[simp] theorem thermalLower_ctrl (x : Module) : (thermalLower x).ctrl = x.ctrl := by
  simp [thermalLower, apply_ite Module.ctrl]

@[simp] theorem emergencyPump_ctrl (x : Module) : (emergencyPump x).ctrl = x.ctrl := by
  unfold emergencyPump
  split <;> simp [apply_ite Module.ctrl]

@[simp] theorem flowStop_ctrl (x : Module) : (flowStop x).ctrl = x.ctrl := by
  simp [flowStop, apply_ite Module.ctrl, repeatN_ctrl]

@[simp] theorem flowRestored_ctrl (x : Module) : (flowRestored x).ctrl = x.ctrl := by
  simp only [flowRestored]
  repeat' split
  all_goals simp

@[simp] theorem noteHot_ctrl (x : Module) : (noteHot x).ctrl = x.ctrl := by
  simp [noteHot]

@[simp] theorem convert_ctrl (rs : List (SensorId × Reading)) (x : Module) : (convert rs x).ctrl = x.ctrl := by
  simp [convert, onlyIf, apply_ite Module.ctrl]

@[simp] theorem pairDisagree_ctrl (ix : Nat) (x : Module) : (pairDisagree ix x).ctrl = x.ctrl := by
  simp [pairDisagree, apply_ite Module.ctrl]

@[simp] theorem pairSuspect_ctrl (ix : Nat) (x : Module) : (pairSuspect ix x).ctrl = x.ctrl := by
  simp [pairSuspect, apply_ite Module.ctrl]

@[simp] theorem pairAgree_ctrl (ix : Nat) (x : Module) : (pairAgree ix x).ctrl = x.ctrl := by
  simp [pairAgree, apply_ite Module.ctrl]

@[simp] theorem maskSensor_ctrl (v : Nat) (x : Module) : (maskSensor v x).ctrl = x.ctrl := by
  simp [maskSensor, apply_ite Module.ctrl]

@[simp] theorem flowMarginEval_ctrl (x : Module) : (flowMarginEval x).ctrl = x.ctrl := by
  simp [flowMarginEval, apply_ite Module.ctrl]

@[simp] theorem periodStart_ctrl (x : Module) : (periodStart x).ctrl = x.ctrl := by
  simp [periodStart, apply_ite Module.ctrl]

@[simp] theorem syncFlowStop_ctrl (x : Module) : (syncFlowStop x).ctrl = x.ctrl := by
  simp [syncFlowStop, onlyIf, apply_ite Module.ctrl]

@[simp] theorem coolFrame_ctrl (x0 : Module) : (coolFrame x0).ctrl = x0.ctrl := by
  simp [coolFrame]

@[simp] theorem inletOut_ctrl (bit : Nat) (told : Bool) (x : Module) : (inletOut bit told x).ctrl = x.ctrl := by
  simp [inletOut, apply_ite Module.ctrl]

@[simp] theorem inletTemp_ctrl (x : Module) : (inletTemp x).ctrl = x.ctrl := by
  simp [inletTemp, apply_ite Module.ctrl]

@[simp] theorem syncAutonomy_ctrl (x : Module) : (syncAutonomy x).ctrl = x.ctrl := by
  simp [syncAutonomy, apply_ite Module.ctrl]

@[simp] theorem setRackAlive_ctrl (v : Nat) (x : Module) : (setRackAlive v x).ctrl = x.ctrl := by
  simp [setRackAlive, apply_ite Module.ctrl]

@[simp] theorem rackHeard_ctrl (x : Module) : (rackHeard x).ctrl = x.ctrl := by
  simp [rackHeard]

@[simp] theorem rackAliveTimeout_ctrl (x : Module) : (rackAliveTimeout x).ctrl = x.ctrl := by
  unfold rackAliveTimeout
  split <;> simp [apply_ite Module.ctrl]

@[simp] theorem editChannel_ctrl (c : Nat) (f : BusChan → BusChan) (x : Module) : (editChannel c f x).ctrl = x.ctrl := by
  simp [editChannel]

@[simp] theorem dataRegs_ctrl (c : Nat) (x : Module) : (dataRegs c x).ctrl = x.ctrl := by
  simp [dataRegs]

@[simp] theorem measureLoop_ctrl (c quanta : Nat) (x : Module) : (measureLoop c quanta x).ctrl = x.ctrl := by
  simp [measureLoop, apply_ite Module.ctrl]

@[simp] theorem joinAt_ctrl (c rate : Nat) (x : Module) : (joinAt c rate x).ctrl = x.ctrl := by
  simp [joinAt]

@[simp] theorem writeDataRate_ctrl (x : Module) : (writeDataRate x).ctrl = x.ctrl := by
  simp [writeDataRate, repeatN_ctrl]

@[simp] theorem joinChan_ctrl (c : Nat) (x : Module) : (joinChan c x).ctrl = x.ctrl := by
  unfold joinChan
  split <;> simp

@[simp] theorem takeAddress_ctrl (x : Module) : (takeAddress x).ctrl = x.ctrl := by
  simp [takeAddress, apply_ite Module.ctrl, repeatN_ctrl]

@[simp] theorem rateDwell_ctrl (c : Nat) (edges : Bool) (x : Module) : (rateDwell c edges x).ctrl = x.ctrl := by
  simp [rateDwell, apply_ite Module.ctrl]

@[simp] theorem rateFound_ctrl (c : Nat) (brsFails : Bool) (x : Module) : (rateFound c brsFails x).ctrl = x.ctrl := by
  simp [rateFound, apply_ite Module.ctrl]

@[simp] theorem rateTimeout_ctrl (c : Nat) (x : Module) : (rateTimeout c x).ctrl = x.ctrl := by
  simp [rateTimeout, apply_ite Module.ctrl]

@[simp] theorem frameIgnored_ctrl (i : BitVec 29) (x : Module) : (frameIgnored i x).ctrl = x.ctrl := by
  simp [frameIgnored, apply_ite Module.ctrl]

@[simp] theorem emit_ctrl (s : Sent) (x : Module) : (emit s x).ctrl = x.ctrl := by
  simp [emit]

@[simp] theorem queueMsg_ctrl (c : Nat) (m : QMsg) (x : Module) : (queueMsg c m x).ctrl = x.ctrl := by
  simp [queueMsg, apply_ite Module.ctrl]

@[simp] theorem sendQueued_ctrl (c : Nat) (go stay : List QMsg) (x : Module) : (sendQueued c go stay x).ctrl = x.ctrl := by
  simp [sendQueued, foldl_ctrl]

@[simp] theorem sendUrgent_ctrl (c : Nat) (x : Module) : (sendUrgent c x).ctrl = x.ctrl := by
  simp [sendUrgent]

@[simp] theorem drainWindow_ctrl (c win : Nat) (x0 : Module) : (drainWindow c win x0).ctrl = x0.ctrl := by
  simp [drainWindow, apply_ite Module.ctrl]

@[simp] theorem cancelMessage_ctrl (c n : Nat) (k : CancelMeets) (x : Module) : (cancelMessage c n k x).ctrl = x.ctrl := by
  unfold cancelMessage
  split <;> simp [apply_ite Module.ctrl]

@[simp] theorem writeMatrix_ctrl (m0 : Nat) (x : Module) : (writeMatrix m0 x).ctrl = x.ctrl := by
  simp [writeMatrix]

@[simp] theorem writeGnomon_ctrl (n : Nat) (x : Module) : (writeGnomon n x).ctrl = x.ctrl := by
  simp [writeGnomon]

@[simp] theorem forgetCollisions_ctrl (c : Nat) (x : Module) : (forgetCollisions c x).ctrl = x.ctrl := by
  simp [forgetCollisions]

@[simp] theorem clearCollisions_ctrl (x : Module) : (clearCollisions x).ctrl = x.ctrl := by
  simp [clearCollisions, repeatN_ctrl]

@[simp] theorem cycleStart_ctrl (x : Module) : (cycleStart x).ctrl = x.ctrl := by
  simp only [cycleStart]
  repeat' split
  all_goals simp

@[simp] theorem correctTime_ctrl (offset : Int) (x : Module) : (correctTime offset x).ctrl = x.ctrl := by
  simp [correctTime, apply_ite Module.ctrl]

@[simp] theorem timeSourceChange_ctrl (x : Module) : (timeSourceChange x).ctrl = x.ctrl := by
  simp [timeSourceChange, apply_ite Module.ctrl]

@[simp] theorem freeRunningTimeout_ctrl (x : Module) : (freeRunningTimeout x).ctrl = x.ctrl := by
  unfold freeRunningTimeout
  split <;> simp [apply_ite Module.ctrl]

@[simp] theorem referenceIn_ctrl (c : Nat) (ts tr : W64) (src : Nat) (idle : Bool) (x : Module) :
    (referenceIn c ts tr src idle x).ctrl = x.ctrl := by
  simp [referenceIn, apply_ite Module.ctrl]

@[simp] theorem referenceSend_ctrl (c loop : Nat) (x : Module) : (referenceSend c loop x).ctrl = x.ctrl := by
  simp [referenceSend, apply_ite Module.ctrl]

@[simp] theorem ptpUncalibrate_ctrl (x : Module) : (ptpUncalibrate x).ctrl = x.ctrl := by
  simp [ptpUncalibrate, apply_ite Module.ctrl]

@[simp] theorem ptpSync_ctrl (offset : Int) (x : Module) : (ptpSync offset x).ctrl = x.ctrl := by
  simp [ptpSync, apply_ite Module.ctrl]

@[simp] theorem ptpTimeout_ctrl (x : Module) : (ptpTimeout x).ctrl = x.ctrl := by
  simp [ptpTimeout, apply_ite Module.ctrl]

@[simp] theorem bestMaster_ctrl (master : W64) (x : Module) : (bestMaster master x).ctrl = x.ctrl := by
  simp [bestMaster, apply_ite Module.ctrl]

@[simp] theorem writePtpEnable_ctrl (v : Nat) (x : Module) : (writePtpEnable v x).ctrl = x.ctrl := by
  simp [writePtpEnable, apply_ite Module.ctrl]

@[simp] theorem etherAlarm_ctrl (data : List Byte) (x : Module) : (etherAlarm data x).ctrl = x.ctrl := by
  simp [etherAlarm, foldl_ctrl]

@[simp] theorem sendAlarm_ctrl (a : Alarm) (x : Module) : (sendAlarm a x).ctrl = x.ctrl := by
  simp [sendAlarm, apply_ite Module.ctrl, repeatN_ctrl]

@[simp] theorem bumpAlarm_ctrl (seq : Nat) (x : Module) : (bumpAlarm seq x).ctrl = x.ctrl := by
  simp [bumpAlarm]

@[simp] theorem alarmsOut_ctrl (x : Module) : (alarmsOut x).ctrl = x.ctrl := by
  simp [alarmsOut, apply_ite Module.ctrl, foldl_ctrl]

@[simp] theorem alarmIn_ctrl (c : Nat) (i : BitVec 29) (bs : List Byte) (x : Module) :
    (alarmIn c i bs x).ctrl = x.ctrl := by
  simp [alarmIn, apply_ite Module.ctrl]

@[simp] theorem alarmRepeat_ctrl (seq : Nat) (x : Module) : (alarmRepeat seq x).ctrl = x.ctrl := by
  unfold alarmRepeat
  split <;> simp [apply_ite Module.ctrl]

@[simp] theorem rackHeartbeat_ctrl (c source : Nat) (x : Module) : (rackHeartbeat c source x).ctrl = x.ctrl := by
  simp [rackHeartbeat, apply_ite Module.ctrl]

@[simp] theorem statusSend_ctrl (c w idle loop : Nat) (x : Module) : (statusSend c w idle loop x).ctrl = x.ctrl := by
  simp [statusSend, apply_ite Module.ctrl]

@[simp] theorem windowMissed_ctrl (c w idle : Nat) (x : Module) : (windowMissed c w idle x).ctrl = x.ctrl := by
  simp [windowMissed, apply_ite Module.ctrl]

@[simp] theorem eventSend_ctrl (x : Module) : (eventSend x).ctrl = x.ctrl := by
  unfold eventSend
  repeat' split
  all_goals simp [foldl_ctrl]

@[simp] theorem errorPassive_ctrl (c tec rec_ : Nat) (x : Module) : (errorPassive c tec rec_ x).ctrl = x.ctrl := by
  simp [errorPassive, apply_ite Module.ctrl]

@[simp] theorem closeChannel_ctrl (c : Nat) (x : Module) : (closeChannel c x).ctrl = x.ctrl := by
  simp [closeChannel]

@[simp] theorem busOff_ctrl (c tec : Nat) (x : Module) : (busOff c tec x).ctrl = x.ctrl := by
  simp [busOff, apply_ite Module.ctrl, foldl_ctrl]

@[simp] theorem busRecovered_ctrl (c : Nat) (x : Module) : (busRecovered c x).ctrl = x.ctrl := by
  simp [busRecovered, apply_ite Module.ctrl]

@[simp] theorem addressCollision_ctrl (c : Nat) (k : CollisionBy) (x : Module) :
    (addressCollision c k x).ctrl = x.ctrl := by
  simp only [addressCollision]
  repeat' split
  all_goals simp

@[simp] theorem restartChannels_ctrl (v : Nat) (x : Module) : (restartChannels v x).ctrl = x.ctrl := by
  simp [restartChannels, apply_ite Module.ctrl, repeatN_ctrl]

@[simp] theorem takeSnapshot_ctrl (droop : Nat → Byte) (x : Module) : (takeSnapshot droop x).ctrl = x.ctrl := by
  simp [takeSnapshot, apply_ite Module.ctrl]

@[simp] theorem takePlacement_ctrl (x : Module) : (takePlacement x).ctrl = x.ctrl := by
  simp [takePlacement, apply_ite Module.ctrl]

@[simp] theorem turnDue_ctrl (x : Module) : (turnDue x).ctrl = x.ctrl := by
  simp [turnDue, apply_ite Module.ctrl]

@[simp] theorem writeImage_ctrl (records : Bool) (x : Module) : (writeImage records x).ctrl = x.ctrl := by
  simp [writeImage, apply_ite Module.ctrl]

@[simp] theorem retainedWrite_ctrl (records : Bool) (x : Module) : (retainedWrite records x).ctrl = x.ctrl := by
  simp [retainedWrite, apply_ite Module.ctrl]

@[simp] theorem energyWrite_ctrl (x : Module) : (energyWrite x).ctrl = x.ctrl := by
  simp [energyWrite, apply_ite Module.ctrl]

@[simp] theorem tellStore_ctrl (f : StoreFound) (bits_ : Nat) (x : Module) : (tellStore f bits_ x).ctrl = x.ctrl := by
  simp [tellStore, apply_ite Module.ctrl]

@[simp] theorem loadOver_ctrl (kept : SMap Nat) (f : StoreFound) (x : Module) : (loadOver kept f x).ctrl = x.ctrl := by
  simp [loadOver]

@[simp] theorem loadStore_ctrl (f : StoreFound) (x : Module) : (loadStore f x).ctrl = x.ctrl := by
  simp [loadStore]

@[simp] theorem reloadStore_ctrl (f : StoreFound) (x : Module) : (reloadStore f x).ctrl = x.ctrl := by
  simp [reloadStore, onlyIf, apply_ite Module.ctrl]

@[simp] theorem restoreFactory_ctrl (x : Module) : (restoreFactory x).ctrl = x.ctrl := by
  simp [restoreFactory, repeatN_ctrl]

@[simp] theorem setPairing_ctrl (x : Module) : (setPairing x).ctrl = x.ctrl := by
  simp [setPairing]

@[simp] theorem freshWritable_ctrl (x : Module) : (freshWritable x).ctrl = x.ctrl := by
  simp [freshWritable]

@[simp] theorem setPair_ctrl (p : Nat) (s : PairSt) (x : Module) : (setPair p s x).ctrl = x.ctrl := by
  simp [setPair, apply_ite Module.ctrl]

@[simp] theorem afterMismatch_ctrl (p : Nat) (x : Module) : (afterMismatch p x).ctrl = x.ctrl := by
  simp [afterMismatch]

@[simp] theorem lockstepMismatch_ctrl (p : Nat) (x : Module) : (lockstepMismatch p x).ctrl = x.ctrl := by
  simp [lockstepMismatch, apply_ite Module.ctrl]

@[simp] theorem pairSelftest_ctrl (p : Nat) (pass : Bool) (x : Module) : (pairSelftest p pass x).ctrl = x.ctrl := by
  simp [pairSelftest, apply_ite Module.ctrl]

@[simp] theorem pairResynced_ctrl (p : Nat) (x : Module) : (pairResynced p x).ctrl = x.ctrl := by
  simp [pairResynced, apply_ite Module.ctrl]

@[simp] theorem digestsDiffer_ctrl (x : Module) : (digestsDiffer x).ctrl = x.ctrl := by
  simp [digestsDiffer, apply_ite Module.ctrl]

@[simp] theorem pairRestore_ctrl (v : Nat) (x : Module) : (pairRestore v x).ctrl = x.ctrl := by
  simp [pairRestore, apply_ite Module.ctrl, repeatN_ctrl]

@[simp] theorem oscEvent_ctrl (x : Module) : (oscEvent x).ctrl = x.ctrl := by
  simp [oscEvent]

@[simp] theorem moveRef_ctrl (s : Nat) (x : Module) : (moveRef s x).ctrl = x.ctrl := by
  simp [moveRef, apply_ite Module.ctrl]

@[simp] theorem oscTell_ctrl (x y : Module) : (oscTell x y).ctrl = y.ctrl := by
  simp [oscTell, apply_ite Module.ctrl]

@[simp] theorem oscFault_ctrl (b lost : Bool) (x : Module) : (oscFault b lost x).ctrl = x.ctrl := by
  simp [oscFault, apply_ite Module.ctrl]

@[simp] theorem oscGood_ctrl (b : Bool) (x : Module) : (oscGood b x).ctrl = x.ctrl := by
  simp [oscGood, apply_ite Module.ctrl]

@[simp] theorem oscRevert_ctrl (cycles : Nat) (x : Module) : (oscRevert cycles x).ctrl = x.ctrl := by
  simp [oscRevert, apply_ite Module.ctrl]

@[simp] theorem enableRevert_ctrl (x : Module) : (enableRevert x).ctrl = x.ctrl := by
  simp [enableRevert]

@[simp] theorem noteSteps_ctrl (x : Module) : (noteSteps x).ctrl = x.ctrl := by
  simp [noteSteps]

@[simp] theorem primeFault_ctrl (step : Nat) (zone : Byte) (x : Module) : (primeFault step zone x).ctrl = x.ctrl := by
  simp [primeFault]

@[simp] theorem primeDrive_ctrl (since : W64) (x : Module) : (primeDrive since x).ctrl = x.ctrl := by
  simp [primeDrive, apply_ite Module.ctrl, foldl_ctrl]

@[simp] theorem primeFrame_ctrl (x : Module) : (primeFrame x).ctrl = x.ctrl := by
  unfold primeFrame
  split <;> simp [apply_ite Module.ctrl]

@[simp] theorem beginPrime_ctrl (x : Module) : (beginPrime x).ctrl = x.ctrl := by
  simp [beginPrime]

@[simp] theorem writeTrims_ctrl (x : Module) : (writeTrims x).ctrl = x.ctrl := by
  simp [writeTrims]

@[simp] theorem clearBanks_ctrl (x : Module) : (clearBanks x).ctrl = x.ctrl := by
  simp [clearBanks, apply_ite Module.ctrl, repeatN_ctrl]

@[simp] theorem serviceSwitched_ctrl (d : Nat) (on : Bool) (x : Module) : (serviceSwitched d on x).ctrl = x.ctrl := by
  simp [serviceSwitched, apply_ite Module.ctrl, repeatN_ctrl]

@[simp] theorem takeQueue_ctrl (x : Module) : (takeQueue x).ctrl = x.ctrl := by
  simp [takeQueue, apply_ite Module.ctrl, foldl_ctrl]

@[simp] theorem assignSill_ctrl (x : Module) : (assignSill x).ctrl = x.ctrl := by
  simp [assignSill]

@[simp] theorem readBack_ctrl (x : Module) : (readBack x).ctrl = x.ctrl := by
  simp [readBack, apply_ite Module.ctrl]

@[simp] theorem restoreTile_ctrl (ix : Nat) (x : Module) : (restoreTile ix x).ctrl = x.ctrl := by
  simp [restoreTile]

@[simp] theorem trayClosed_ctrl (x : Module) : (trayClosed x).ctrl = x.ctrl := by
  simp [trayClosed, apply_ite Module.ctrl]

@[simp] theorem takeMeters_ctrl (f : FrameMeas) (x : Module) : (takeMeters f x).ctrl = x.ctrl := by
  simp [takeMeters, repeatN_ctrl]

@[simp] theorem followHost_ctrl (x : Module) : (followHost x).ctrl = x.ctrl := by
  simp [followHost, apply_ite Module.ctrl]

@[simp] theorem followImage_ctrl (x : Module) : (followImage x).ctrl = x.ctrl := by
  simp [followImage, apply_ite Module.ctrl]

@[simp] theorem advanceClock_ctrl (sill : Nat) (x : Module) : (advanceClock sill x).ctrl = x.ctrl := by
  simp [advanceClock]

@[simp] theorem meterStep_ctrl (f : FrameMeas) (minute : Bool) (x : Module) : (meterStep f minute x).ctrl = x.ctrl := by
  simp [meterStep]

@[simp] theorem frameWindows_ctrl (t : W64) (x : Module) : (frameWindows t x).ctrl = x.ctrl := by
  refine foldl_ctrl _ (fun y k => ?_) _ _
  refine (apply_ite Module.ctrl _ _ _).trans (ite_eq_right_iff.mpr fun _ => ?_)
  exact repeatN_ctrl _ (fun n z => drainWindow_ctrl n _ z) _ _

@[simp] theorem frameStart_ctrl (f : FrameMeas) (x : Module) : (frameStart f x).ctrl = x.ctrl := by
  simp [frameStart, onlyIf, apply_ite Module.ctrl]

@[simp] theorem takeStatus_ctrl (x : Module) : (takeStatus x).ctrl = x.ctrl := by
  simp [takeStatus]

@[simp] theorem setCursor_ctrl (w : Requester) (v : Nat) (x : Module) : (setCursor w v x).ctrl = x.ctrl := by
  simp [setCursor]

@[simp] theorem journalRequest_ctrl (w : Requester) (kind k : Nat) (bs : List Byte) (code : Nat) (x : Module) :
    (journalRequest w kind k bs code x).ctrl = x.ctrl := by
  simp [journalRequest]

@[simp] theorem endPending_ctrl (index sub : Nat) (x : Module) : (endPending index sub x).ctrl = x.ctrl := by
  simp [endPending]

@[simp] theorem useChallenge_ctrl (index sub : Nat) (x : Module) : (useChallenge index sub x).ctrl = x.ctrl := by
  simp [useChallenge]

@[simp] theorem safetyExpire_ctrl (index sub : Nat) (x : Module) : (safetyExpire index sub x).ctrl = x.ctrl := by
  simp [safetyExpire, apply_ite Module.ctrl]

@[simp] theorem sendReply_ctrl (chan : Nat) (r : DictReply) (x : Module) : (sendReply chan r x).ctrl = x.ctrl := by
  simp only [sendReply]
  repeat' split
  all_goals simp

@[simp] theorem keepAnswer_ctrl (q : DictReq) (r : DictReply) (x : Module) : (keepAnswer q r x).ctrl = x.ctrl := by
  simp [keepAnswer]

@[simp] theorem endTransfer_ctrl (q : DictReq) (x : Module) : (endTransfer q x).ctrl = x.ctrl := by
  simp [endTransfer]

@[simp] theorem addTransfer_ctrl (t : Transfer) (x : Module) : (addTransfer t x).ctrl = x.ctrl := by
  simp [addTransfer]

@[simp] theorem transferTimeout_ctrl (w : Requester) (tag : Nat) (x : Module) :
    (transferTimeout w tag x).ctrl = x.ctrl := by
  simp only [transferTimeout]
  repeat' split
  all_goals simp

@[simp] theorem tileStep_ctrl (ix : TileIx) (f : Ctx → Tile → Tile × Eff) (x : Module) :
    (tileStep ix f x).ctrl = x.ctrl := by
  simp [tileStep, apply_ite Module.ctrl]

@[simp] theorem tileEdit_ctrl (ix : TileIx) (f : Ctx → Tile → Tile) (x : Module) : (tileEdit ix f x).ctrl = x.ctrl := by
  simp [tileEdit, apply_ite Module.ctrl]

@[simp] theorem fieldEdit_ctrl (f : FieldIx) (g : Field → Field) (x : Module) : (fieldEdit f g x).ctrl = x.ctrl := by
  simp [fieldEdit, apply_ite Module.ctrl]

@[simp] theorem issueWhen_ctrl (i : Issue) (p : Bun → Bool) (x : Module) : (issueWhen i p x).ctrl = x.ctrl := by
  unfold issueWhen
  split <;> simp [apply_ite Module.ctrl]

@[simp] theorem issueC_ctrl (i : Issue) (p : Pred) (o : COp) (x : Module) : (issueC i p o x).ctrl = x.ctrl := by
  simp [issueC]

@[simp] theorem issueM_ctrl (i : Issue) (p : Pred) (o : MOp) (x : Module) : (issueM i p o x).ctrl = x.ctrl := by
  simp [issueM]

@[simp] theorem issueT_ctrl (i : Issue) (p : Pred) (o : TOp) (x : Module) : (issueT i p o x).ctrl = x.ctrl := by
  simp [issueT]

@[simp] theorem issueV_ctrl (i : Issue) (p : Pred) (o : VOp) (x : Module) : (issueV i p o x).ctrl = x.ctrl := by
  simp [issueV]

@[simp] theorem issueNop_ctrl (i : Issue) (s : SlotId) (x : Module) : (issueNop i s x).ctrl = x.ctrl := by
  unfold issueNop
  split <;> simp

@[simp] theorem finishReset_ctrl (ix : TileIx) (x : Module) : (finishReset ix x).ctrl = x.ctrl := by
  simp [finishReset, apply_ite Module.ctrl]

@[simp] theorem retireBeat_ctrl (ix : TileIx) (cycle : Nat) (x : Module) : (retireBeat ix cycle x).ctrl = x.ctrl := by
  simp [retireBeat]

@[simp] theorem completeRow_ctrl (ix : TileIx) (one : Bool) (cycle : Nat) (x : Module) :
    (completeRow ix one cycle x).ctrl = x.ctrl := by
  simp [completeRow]

@[simp] theorem imemStore_ctrl (ix : TileIx) (at_ : Nat) (w : Bundle) (x : Module) :
    (imemStore ix at_ w x).ctrl = x.ctrl := by
  simp [imemStore, apply_ite Module.ctrl]

@[simp] theorem plainCsrWrite_ctrl (a : CsrAt) (off : Nat) (v : W64) (x : Module) :
    (plainCsrWrite a off v x).ctrl = x.ctrl := by
  unfold plainCsrWrite
  repeat' split
  all_goals simp

@[simp] theorem writeMap_ctrl (w : MapEntry) (x : Module) : (writeMap w x).ctrl = x.ctrl := by
  unfold writeMap
  repeat' split
  all_goals simp

@[simp] theorem askStack_ctrl (a : ArbAsk) (x : Module) : (askStack a x).ctrl = x.ctrl := by
  unfold askStack
  split <;> simp [apply_ite Module.ctrl]

@[simp] theorem powerUpData_ctrl (x : Module) : (powerUpData x).ctrl = x.ctrl := by
  simp [powerUpData, apply_ite Module.ctrl]

@[simp] theorem writeOrderWord_ctrl (w : BitVec 16) (x : Module) : (writeOrderWord w x).ctrl = x.ctrl := by
  simp [writeOrderWord, apply_ite Module.ctrl]

@[simp] theorem writeLevels_ctrl (step : Nat) (hold throttle : Bool) (x : Module) :
    (writeLevels step hold throttle x).ctrl = x.ctrl := by
  simp [writeLevels]

@[simp] theorem whenData_ctrl (f : Data → Data) (x : Module) : (whenData f x).ctrl = x.ctrl := by
  simp [whenData, apply_ite Module.ctrl]

@[simp] theorem safetyAlarm_ctrl (a : AlarmFrame) (x : Module) : (safetyAlarm a x).ctrl = x.ctrl := by
  unfold safetyAlarm
  split <;> simp

@[simp] theorem judgeFrame_ctrl (mw : Nat) (x : Module) : (judgeFrame mw x).ctrl = x.ctrl := by
  unfold judgeFrame
  extract_lets p cap w ratio above exc x1 x2 x3 judged fb n x4 broken
  have h : x4.ctrl = x.ctrl := by simp [x4, x3, x2, x1, apply_ite Module.ctrl]
  split <;> (try split) <;> simp [h]

@[simp] theorem powerFrame_ctrl (mw : Nat) (x : Module) : (powerFrame mw x).ctrl = x.ctrl := by
  simp [powerFrame, apply_ite Module.ctrl]

end Sys2Proof.Machine
end

