-- ==== Sys2Proof/Laws/CtrlBounds.lean ====
section
/-!
SUPPORT. The module's operations that change the control plane keep its bounds: one lemma each.
-/

namespace Sys2Proof.Machine

@[simp] theorem onCtrl_ctrl (f : Ctrl → Ctrl) (x : Module) : (onCtrl f x).ctrl = f x.ctrl := rfl

/-- A fold of steps that keep the bounds keeps them. -/
theorem foldl_bounded {α : Type} (f : Module → α → Module) (hf : ∀ y a, y.ctrl.Bounded → (f y a).ctrl.Bounded) (l : List α)
    (x : Module) (h : x.ctrl.Bounded) : (l.foldl f x).ctrl.Bounded := by
  induction l generalizing x with
  | nil => exact h
  | cons a l ih => exact ih _ (hf _ _ h)

@[simp] theorem groupOneOn_bounded (x : Module) (h : x.ctrl.Bounded) :
    (groupOneOn x).ctrl.Bounded := by
  simp [groupOneOn, h, apply_ite Ctrl.Bounded]

@[simp] theorem groupOneOff_bounded (x : Module) (h : x.ctrl.Bounded) :
    (groupOneOff x).ctrl.Bounded := by
  simp [groupOneOff]

@[simp] theorem busDown_bounded (x : Module) (h : x.ctrl.Bounded) :
    (busDown x).ctrl.Bounded := by
  simp [busDown, h]

@[simp] theorem openInlet_bounded (x : Module) (h : x.ctrl.Bounded) :
    (openInlet x).ctrl.Bounded := by
  simp [openInlet, h]

@[simp] theorem followSill_bounded (x : Module) (h : x.ctrl.Bounded) :
    (followSill x).ctrl.Bounded := by
  unfold followSill
  repeat' split
  all_goals simp [h]

@[simp] theorem assertHalt_bounded (cause : Byte) (x : Module) (h : x.ctrl.Bounded) :
    (assertHalt cause x).ctrl.Bounded := by
  refine h.congr ?_ ?_ ?_ ?_ <;> simp [assertHalt]

@[simp] theorem lockInlet_bounded (x : Module) (h : x.ctrl.Bounded) :
    (lockInlet x).ctrl.Bounded := by
  simp [lockInlet, h]

@[simp] theorem tileRailCheck_bounded (mv : Nat) (x : Module) (h : x.ctrl.Bounded) :
    (tileRailCheck mv x).ctrl.Bounded := by
  simp [tileRailCheck, h, apply_ite Module.ctrl, apply_ite Ctrl.Bounded]

@[simp] theorem actJ3_bounded (fn trigger : Nat) (x : Module) (h : x.ctrl.Bounded) :
    (actJ3 fn trigger x).ctrl.Bounded := by
  simp [actJ3, h]

@[simp] theorem actDone_bounded (x : Module) (h : x.ctrl.Bounded) :
    (actDone x).ctrl.Bounded := by
  simp [actDone, h]

@[simp] theorem sf1_bounded (b : Bool) (x : Module) (h : x.ctrl.Bounded) : (sf1 b x).ctrl.Bounded := by
  have h1 : ∀ cause (y : Module), y.ctrl.Bounded → (actDone (openInlet (assertHalt cause y))).ctrl.Bounded :=
    fun cause y hy => actDone_bounded _ (openInlet_bounded _ (assertHalt_bounded _ _ hy))
  unfold sf1
  extract_lets c trig x1 x2 g
  split
  · exact h
  · rw [raiseEvent_ctrl]
    apply h1
    rw [onSill_ctrl, countAct_ctrl]
    exact h

@[simp] theorem sf2_bounded (x : Module) (h : x.ctrl.Bounded) :
    (sf2 x).ctrl.Bounded := by
  unfold sf2
  split <;> simp [h, apply_ite Module.ctrl, apply_ite Ctrl.Bounded]

@[simp] theorem sf3_bounded (stack : Bool) (x : Module) (h : x.ctrl.Bounded) :
    (sf3 stack x).ctrl.Bounded := by
  simp [sf3, h, apply_ite Module.ctrl, apply_ite Ctrl.Bounded]

@[simp] theorem sf4_bounded (voltage : Bool) (measured us : Nat) (x : Module) (h : x.ctrl.Bounded) :
    (sf4 voltage measured us x).ctrl.Bounded := by
  simp only [sf4]
  split
  · exact h
  · split
    · split
      · exact actDone_bounded _ (lockInlet_bounded _ (actJ3_bounded _ _ _ h))
      · exact h
    · split
      · refine actDone_bounded _ ?_
        rw [onSill_ctrl, latchSafe_ctrl]
        exact actJ3_bounded _ _ _ h
      · exact h

@[simp] theorem busRecheck_bounded (amps : Nat) (x : Module) (h : x.ctrl.Bounded) :
    (busRecheck amps x).ctrl.Bounded := by
  unfold busRecheck
  split <;> simp [h, apply_ite Module.ctrl, apply_ite Ctrl.Bounded]

@[simp] theorem inputLossPath_bounded (cause : Nat) (x : Module) (h : x.ctrl.Bounded) :
    (inputLossPath cause x).ctrl.Bounded := by
  simp [inputLossPath, h, apply_ite Module.ctrl]

@[simp] theorem sf5_bounded (current : Bool) (measured us : Nat) (x : Module) (h : x.ctrl.Bounded) :
    (sf5 current measured us x).ctrl.Bounded := by
  simp only [sf5]
  split
  · exact h
  · split
    · split
      · exact actDone_bounded _ (inputLossPath_bounded _ _ (actJ3_bounded _ _ _ h))
      · exact h
    · split
      · exact actDone_bounded _ (inputLossPath_bounded _ _ (actJ3_bounded _ _ _ h))
      · exact h

@[simp] theorem sf6_bounded (x : Module) (h : x.ctrl.Bounded) :
    (sf6 x).ctrl.Bounded := by
  unfold sf6
  split <;> simp [h, apply_ite Module.ctrl, apply_ite Ctrl.Bounded]

@[simp] theorem skourSilent_bounded (x : Module) (h : x.ctrl.Bounded) :
    (skourSilent x).ctrl.Bounded := by
  unfold skourSilent
  split <;> simp [h, apply_ite Module.ctrl, apply_ite Ctrl.Bounded]

@[simp] theorem sf7_bounded (present : Bool) (us : Nat) (x : Module) (h : x.ctrl.Bounded) :
    (sf7 present us x).ctrl.Bounded := by
  have h1 (p : Prop) [Decidable p] (y : Module) (hy : y.ctrl.Bounded) :
      (if p then y else incE Ent.trayOffRequests y).ctrl.Bounded := by split <;> exact hy
  have h2 (p : Prop) [Decidable p] (n : Nat) (y : Module) (hy : y.ctrl.Bounded) :
      (if p then y else actJ3 7 n y).ctrl.Bounded := by
    split
    · exact hy
    · exact actJ3_bounded _ _ _ hy
  simp only [sf7]
  split
  · exact actDone_bounded _ (openInlet_bounded _ (h2 _ _ _ (h1 _ _ h)))
  · exact h

@[simp] theorem sf8_bounded (k : SensingLost) (x : Module) (h : x.ctrl.Bounded) :
    (sf8 k x).ctrl.Bounded := by
  have h1 : ∀ t (y : Module), y.ctrl.Bounded → (actDone (latchSafe 8 t (actJ3 8 t y))).ctrl.Bounded := by
    intro t y hy
    refine actDone_bounded _ ?_
    rw [latchSafe_ctrl]
    exact actJ3_bounded _ _ _ hy
  simp only [sf8]
  split
  · exact h
  · split
    · split
      · exact h1 _ _ h
      · exact h
    · split
      · exact h1 _ _ h
      · exact h
    · split
      · exact h1 _ _ h
      · exact h
    · split
      · exact h
      · refine actDone_bounded _ (openInlet_bounded _ ?_)
        rw [dropTilePower_ctrl, setE_ctrl, onSill_ctrl]
        exact actJ3_bounded _ _ _ h

@[simp] theorem safeStopInlet_bounded (x : Module) (h : x.ctrl.Bounded) :
    (safeStopInlet x).ctrl.Bounded := by
  unfold safeStopInlet
  split <;> simp [h, apply_ite Module.ctrl, apply_ite Ctrl.Bounded]

@[simp] theorem supervisor_bounded (x : Module) (h : x.ctrl.Bounded) : (supervisor x).ctrl.Bounded := by
  unfold supervisor
  extract_lets x1
  have h1 : x1.ctrl.Bounded := by
    simp only [x1, onSill_ctrl]
    exact assertHalt_bounded _ _ h
  refine followSill_bounded _ (openInlet_bounded _ ?_)
  rw [dropTilePower_ctrl]
  exact h1

@[simp] theorem inletOn_bounded (x : Module) (h : x.ctrl.Bounded) :
    (inletOn x).ctrl.Bounded := by
  simp [inletOn, h]

@[simp] theorem inletClose_bounded (behind inlet reached : Nat) (x : Module) (h : x.ctrl.Bounded) :
    (inletClose behind inlet reached x).ctrl.Bounded := by
  simp [inletClose, h, apply_ite Module.ctrl, apply_ite Ctrl.Bounded]

@[simp] theorem prechargeTimeout_bounded (x : Module) (h : x.ctrl.Bounded) :
    (prechargeTimeout x).ctrl.Bounded := by
  simp [prechargeTimeout, h, apply_ite Module.ctrl, apply_ite Ctrl.Bounded]

@[simp] theorem inletOpen_bounded (x : Module) (h : x.ctrl.Bounded) :
    (inletOpen x).ctrl.Bounded := by
  simp [inletOpen, h, apply_ite Module.ctrl, apply_ite Ctrl.Bounded]

@[simp] theorem inputLoss_bounded (k : InletMeas) (x : Module) (h : x.ctrl.Bounded) :
    (inputLoss k x).ctrl.Bounded := by
  unfold inputLoss
  repeat' split
  all_goals simp [h]

@[simp] theorem blocksChanged_bounded (x : Module) (h : x.ctrl.Bounded) :
    (blocksChanged x).ctrl.Bounded := by
  simp [blocksChanged, h, apply_ite Module.ctrl, apply_ite Ctrl.Bounded]

@[simp] theorem converterFault_bounded (n : Nat) (x : Module) (h : x.ctrl.Bounded) : (converterFault n x).ctrl.Bounded := by
  simp only [converterFault]
  split
  · exact h
  · apply blocksChanged_bounded
    simp only [onlyIf]
    split
    · rw [note_ctrl]; exact h
    · exact h

@[simp] theorem converterRestart_bounded (n : Nat) (x : Module) (h : x.ctrl.Bounded) :
    (converterRestart n x).ctrl.Bounded := by
  simp [converterRestart, h, apply_ite Module.ctrl, apply_ite Ctrl.Bounded]

@[simp] theorem domainOn_bounded (warm : Bool) (d : Nat) (x : Module) (h : x.ctrl.Bounded) :
    (domainOn warm d x).ctrl.Bounded := by
  unfold domainOn
  split <;> simp [h, apply_ite Module.ctrl, apply_ite Ctrl.Bounded]

@[simp] theorem domainOff_bounded (d : Nat) (x : Module) (h : x.ctrl.Bounded) :
    (domainOff d x).ctrl.Bounded := by
  unfold domainOff
  split <;> simp [h, apply_ite Module.ctrl, apply_ite Ctrl.Bounded]

@[simp] theorem domainEnable_bounded (d : Nat) (x : Module) (h : x.ctrl.Bounded) :
    (domainEnable d x).ctrl.Bounded := by
  simp [domainEnable, h, apply_ite Module.ctrl, apply_ite Ctrl.Bounded]

@[simp] theorem domainFault_bounded (d : Nat) (x : Module) (h : x.ctrl.Bounded) :
    (domainFault d x).ctrl.Bounded := by
  unfold domainFault
  split <;> simp [h]

@[simp] theorem goStandby_bounded (x : Module) (h : x.ctrl.Bounded) : (goStandby x).ctrl.Bounded := by
  simp only [goStandby, onlyIf]
  split <;> simp [h]

@[simp] theorem actOnOrder_bounded (order : Nat) (x : Module) (h : x.ctrl.Bounded) :
    (actOnOrder order x).ctrl.Bounded := by
  unfold actOnOrder
  split <;> simp [h, apply_ite Module.ctrl, apply_ite Ctrl.Bounded]

@[simp] theorem powerOrderAct_bounded (x : Module) (h : x.ctrl.Bounded) :
    (powerOrderAct x).ctrl.Bounded := by
  unfold powerOrderAct
  split <;> simp [h, apply_ite Module.ctrl, apply_ite Ctrl.Bounded]

@[simp] theorem converterOvertemp_bounded (b : Nat) (x : Module) (h : x.ctrl.Bounded) :
    (converterOvertemp b x).ctrl.Bounded := by
  simp [converterOvertemp, h, apply_ite Module.ctrl, apply_ite Ctrl.Bounded]

@[simp] theorem applyCarry_bounded (r : Ctrl × Carry) (x : Module) (h : r.1.Bounded) : (applyCarry r x).ctrl.Bounded := by
  simp only [applyCarry]
  repeat' split
  all_goals simpa using h

@[simp] theorem hostCommand_bounded (m : Msg) (cmd : RunCmd) (x : Module) (h : x.ctrl.Bounded) :
    (hostCommand m cmd x).ctrl.Bounded := applyCarry_bounded _ _ (arrive_bounded _ _ _ _ h)

@[simp] theorem judgeWaiting_bounded (x : Module) (h : x.ctrl.Bounded) : (judgeWaiting x).ctrl.Bounded :=
  applyCarry_bounded _ _ (judgeNext_bounded _ _ _ h)

/-- A repetition of steps that keep the bounds keeps them. -/
theorem repeatN_bounded (f : Nat → Module → Module) (hf : ∀ n y, y.ctrl.Bounded → (f n y).ctrl.Bounded) (n : Nat) (x : Module)
    (h : x.ctrl.Bounded) : (repeatN f n x).ctrl.Bounded := by
  induction n with
  | zero => exact h
  | succ n ih => exact hf _ _ ih

@[simp] theorem judgeQueue_bounded (x : Module) (h : x.ctrl.Bounded) : (judgeQueue x).ctrl.Bounded :=
  repeatN_bounded _ (fun _ y hy => judgeWaiting_bounded y hy) _ _ h

@[simp] theorem verdictOverdue_bounded (x : Module) (h : x.ctrl.Bounded) : (verdictOverdue x).ctrl.Bounded :=
  judgeQueue_bounded _ (verdictTimeout_bounded h)

@[simp] theorem giveVerdict_bounded (code : Nat) (x : Module) (h : x.ctrl.Bounded) : (giveVerdict code x).ctrl.Bounded :=
  h.congr rfl rfl rfl rfl

@[simp] theorem actOnRequest_bounded (r : OrderReq) (x : Module) (h : x.ctrl.Bounded) :
    (actOnRequest r x).ctrl.Bounded := by
  unfold actOnRequest
  repeat' split
  all_goals simp [h]

@[simp] theorem orderRequest_bounded (x : Module) (h : x.ctrl.Bounded) : (orderRequest x).ctrl.Bounded := by
  simp only [orderRequest]
  repeat' split
  all_goals first
    | exact h
    | exact h.congr rfl rfl rfl rfl
    | exact giveVerdict_bounded _ _ h
    | exact actOnRequest_bounded _ _ h

@[simp] theorem updateWord_bounded (x : Module) (h : x.ctrl.Bounded) :
    (updateWord x).ctrl.Bounded := by
  simp [updateWord, h, apply_ite Module.ctrl, apply_ite Ctrl.Bounded]

@[simp] theorem takeProfile_bounded (x : Module) (h : x.ctrl.Bounded) : (takeProfile x).ctrl.Bounded := by
  simp only [takeProfile]
  split
  · exact h
  · rw [requestStep_ctrl]
    exact h.congr rfl rfl rfl rfl

@[simp] theorem takeRecord_bounded (x : Module) (h : x.ctrl.Bounded) : (takeRecord x).ctrl.Bounded := by
  simp only [takeRecord]
  split
  · exact h
  · rename_i r rest hj
    split
    · exact h
    · obtain ⟨h1, h2, h3, h4, h5⟩ := h
      rw [hj] at h4
      exact ⟨h1, h2, h3, Nat.le_of_succ_le h4, h5⟩

@[simp] theorem stopComplete_bounded (x : Module) (h : x.ctrl.Bounded) : (stopComplete x).ctrl.Bounded := by
  simp only [stopComplete]
  have h1 : ∀ e code bs cmd, (raiseRun e code bs
      (setRc e .noImage cmd { x.ctrl with image := none, restart := false })).Bounded :=
    fun e code bs cmd => raiseRun_bounded _ _ (setRc_bounded _ _ (h.congr rfl rfl rfl rfl))
  repeat' split
  all_goals simp [h, h1]

@[simp] theorem judgeIfFull_bounded (x : Module) (h : x.ctrl.Bounded) : (judgeIfFull x).ctrl.Bounded := by
  unfold judgeIfFull
  split
  · exact h
  · extract_lets own e hd
    split
    · exact h
    · split
      · rw [onData_ctrl, onCtrl_ctrl]
        exact endLoad_bounded _ h
      · rw [onData_ctrl, onCtrl_ctrl]
        exact sendProfile_bounded _ (h.congr rfl rfl rfl rfl)

@[simp] theorem takeLoadBytes_bounded (off : Nat) (bs : List Byte) (x : Module) (h : x.ctrl.Bounded) :
    (takeLoadBytes off bs x).ctrl.Bounded := by
  simp only [takeLoadBytes]
  repeat' split
  all_goals first
    | exact h
    | exact judgeIfFull_bounded _ (h.congr rfl rfl rfl rfl)

@[simp] theorem loadData_bounded (m : Msg) (off : Nat) (bs : List Byte) (x : Module) (h : x.ctrl.Bounded) :
    (loadData m off bs x).ctrl.Bounded := by
  have ht : (editSession m.session (fun s => { s with lastMsg := x.ts }) x.ctrl).Bounded := touch_bounded _ _ h
  simp only [loadData]
  repeat' split
  all_goals first
    | exact h
    | exact respondBare_bounded _ h
    | exact ht.congr rfl rfl rfl rfl
    | exact respond_bounded _ _ ht
    | exact takeLoadBytes_bounded _ _ _ (respond_bounded _ _ ht)

@[simp] theorem loadDone_bounded (x : Module) (h : x.ctrl.Bounded) :
    (loadDone x).ctrl.Bounded := by
  simp only [loadDone]
  repeat' split
  all_goals simp [h]

@[simp] theorem loadTimeout_bounded (x : Module) (h : x.ctrl.Bounded) :
    (loadTimeout x).ctrl.Bounded := by
  simp [loadTimeout, h, apply_ite Module.ctrl, apply_ite Ctrl.Bounded]

@[simp] theorem rdmaWriteAll_bounded (engine : Nat) (qpn key : W32) (a : W64) (bs : List Byte) (x : Module) (h : x.ctrl.Bounded) :
    (rdmaWriteAll engine qpn key a bs x).ctrl.Bounded := by
  simp [rdmaWriteAll, h, apply_ite Module.ctrl, apply_ite Ctrl.Bounded]

@[simp] theorem powerApplied_bounded (f : PowerFound) (x : Module) (h : x.ctrl.Bounded) : (powerApplied f x).ctrl.Bounded := by
  simp only [powerApplied]
  repeat' split
  all_goals simp [h, repeatN]

@[simp] theorem auxPowerLoss_bounded (x : Module) : (auxPowerLoss x).ctrl.Bounded := Ctrl.reset_bounded.congr rfl rfl rfl rfl

@[simp] theorem failStart_bounded (cause : Nat) (x : Module) (h : x.ctrl.Bounded) :
    (failStart cause x).ctrl.Bounded := by
  unfold failStart
  split <;> simp [h, apply_ite Module.ctrl, apply_ite Ctrl.Bounded]

@[simp] theorem spareTile_bounded (ix : Nat) (x : Module) (h : x.ctrl.Bounded) : (spareTile ix x).ctrl.Bounded := by
  have h1 : (tileOff ix (markTile ix true x)).ctrl.Bounded := by
    rw [tileOff_ctrl, markTile_ctrl]
    exact h
  unfold spareTile
  extract_lets x1
  split
  · exact domainOn_bounded _ _ _ h1
  · exact h1

@[simp] theorem enterStep_bounded (cold : Bool) (k : Nat) (began : W64) (x0 : Module) (h : x0.ctrl.Bounded) :
    (enterStep cold k began x0).ctrl.Bounded := by
  have h0 : (beginStep cold k began x0).ctrl.Bounded := by simpa using h
  have hopen : ∀ y : Module, y.ctrl.Bounded → (beginPrime y).ctrl.Bounded := fun y hy => by simpa using hy
  have hgroups : ∀ y : Module, y.ctrl.Bounded → (repeatN (fun i z => domainOn (!cold) (1344 + i) z) 52
      (repeatN (fun f z => domainOn (!cold) (1280 + f) z) 64 (dataOn y))).ctrl.Bounded := by
    intro y hy
    refine repeatN_bounded _ (fun n y hy => domainOn_bounded _ _ _ hy) _ _
      (repeatN_bounded _ (fun n y hy => domainOn_bounded _ _ _ hy) _ _ ?_)
    simpa using hy
  have htiles : ∀ y : Module, y.ctrl.Bounded →
      ((startTiles y.mgmt).foldl (fun z ix => domainOn false ix z) y).ctrl.Bounded :=
    fun y hy => foldl_bounded _ (fun y a hy => domainOn_bounded _ _ _ hy) _ _ hy
  simp only [enterStep]
  split
  · exact hopen _ h0
  · exact hgroups _ h0
  · exact htiles _ h0
  · split
    · exact hopen _ h0
    · exact h0
  · exact hgroups _ h0
  · exact htiles _ h0
  · exact h0

theorem primeHeaders_bounded (p : PrimeFound) (x y : Module) (hy : primeHeaders p x = some y) (h : x.ctrl.Bounded) :
    y.ctrl.Bounded := by
  simp only [primeHeaders] at hy
  split at hy
  · cases hy
  · split at hy
    · cases hy
    · cases hy
      refine foldl_bounded _ (fun y a hy => ?_) _ _ h
      split
      · simpa using hy
      · exact hy

@[simp] theorem primeDone_bounded (cold : Bool) (p : PrimeFound) (next : Module → Module) (x : Module)
    (hn : ∀ y, y.ctrl.Bounded → (next y).ctrl.Bounded) (h : x.ctrl.Bounded) : (primeDone cold p next x).ctrl.Bounded := by
  have hf : ∀ s z (y : Module), y.ctrl.Bounded → (primeFault s z y).ctrl.Bounded := fun s z y hy => by simpa using hy
  unfold primeDone
  split
  · exact failStart_bounded _ _ (hf _ _ _ h)
  · rename_i x1 hx
    have h1 := primeHeaders_bounded p x x1 hx h
    extract_lets bad1 bad0 x2 x3 x4 floor x5 x6 s cmds
    have h2 : x2.ctrl.Bounded := by
      simp only [x2]
      split
      · exact hf _ _ _ h1
      · exact h1
    have h3 : x3.ctrl.Bounded := by
      simp only [x3]
      cases bad1 <;> cases bad0 <;> simpa [onlyIf] using h2
    have h5 : x5.ctrl.Bounded := by
      simp only [x5, x4]
      split <;> simpa using h3
    have h6 : x6.ctrl.Bounded := by
      simp only [x6]
      split <;> simpa using h5
    split
    · exact failStart_bounded _ _ h2
    · exact hn _ (by simpa using h6)

@[simp] theorem startDone_bounded (cold : Bool) (began : W64) (x : Module) (h : x.ctrl.Bounded) :
    (startDone cold began x).ctrl.Bounded := by
  simp [startDone, h, apply_ite Module.ctrl]

@[simp] theorem nextStep_bounded (j : StartJob) (x : Module) (h : x.ctrl.Bounded) : (nextStep j x).ctrl.Bounded :=
  enterStep_bounded _ _ _ _ h

@[simp] theorem blocksDone_bounded (ok : List Bool) (mv : Nat) (x : Module) (h : x.ctrl.Bounded) :
    (blocksDone ok mv x).ctrl.Bounded := by
  have h1 : ∀ g : Nat → Module → Module, (∀ n y, (g n y).ctrl = y.ctrl) → (repeatN g 4 x).ctrl.Bounded := by
    intro g hg
    rw [repeatN_ctrl g hg]
    exact h
  have h2 := h1 (fun n y => if getE y (Ent.convState + n) = 3 then y else setE (Ent.convState + n) (b2n (ok.getD n false)) y)
    (fun n y => by simp [apply_ite Module.ctrl])
  simp only [blocksDone]
  generalize repeatN (fun n y =>
    if getE y (Ent.convState + n) = 3 then y else setE (Ent.convState + n) (b2n (ok.getD n false)) y) 4 x = z at h2
  repeat' split
  all_goals simp [h2]

@[simp] theorem stepDone_bounded (f : StepFound) (x : Module) (h : x.ctrl.Bounded) : (stepDone f x).ctrl.Bounded := by
  have hs : ∀ (l : List Nat), (l.foldl (fun y ix => spareTile ix y) x).ctrl.Bounded :=
    fun l => foldl_bounded _ (fun y a hy => spareTile_bounded _ _ hy) _ _ h
  have hp : ∀ cold p j, (primeDone cold p (nextStep j) x).ctrl.Bounded :=
    fun cold p j => primeDone_bounded _ _ _ _ (fun y hy => nextStep_bounded j y hy) h
  have hl : ∀ y : Module, y.ctrl = x.ctrl →
      (repeatN (fun f y => if phasesOf y.mgmt f ≤ 3 then loseField f y else y) 64 y).ctrl.Bounded := by
    intro y hy
    rw [repeatN_ctrl _ (fun n y => by simp [apply_ite Module.ctrl]), hy]
    exact h
  simp only [stepDone]
  repeat' split
  all_goals simp [h, hs, hp, hl]

@[simp] theorem stepFail_bounded (timeout : Bool) (x : Module) (h : x.ctrl.Bounded) :
    (stepFail timeout x).ctrl.Bounded := by
  unfold stepFail
  split <;> simp [h, apply_ite Module.ctrl, apply_ite Ctrl.Bounded]

@[simp] theorem runStart_bounded (cold : Bool) (fs : List StepFound) (x : Module) (h : x.ctrl.Bounded) :
    (runStart cold fs x).ctrl.Bounded := by
  unfold runStart
  repeat' first
    | (simp [h, apply_ite Module.ctrl, apply_ite Ctrl.Bounded]; done)
    | split
    | (refine foldl_bounded _ (fun y a h => ?_) _ _ ?_)
    | (simp [h, apply_ite Module.ctrl, apply_ite Ctrl.Bounded])

@[simp] theorem domainForce_bounded (v : Nat) (x : Module) (h : x.ctrl.Bounded) :
    (domainForce v x).ctrl.Bounded := by
  simp [domainForce, h, apply_ite Module.ctrl, apply_ite Ctrl.Bounded]

@[simp] theorem unforce_bounded (x : Module) (h : x.ctrl.Bounded) :
    (unforce x).ctrl.Bounded := by
  unfold unforce
  repeat' first
    | (simp [h, apply_ite Module.ctrl, apply_ite Ctrl.Bounded]; done)
    | split
    | (refine foldl_bounded _ (fun y a h => ?_) _ _ ?_)
    | (simp [h, apply_ite Module.ctrl, apply_ite Ctrl.Bounded])

@[simp] theorem serviceOrder_bounded (v : Nat) (x : Module) (h : x.ctrl.Bounded) :
    (serviceOrder v x).ctrl.Bounded := by
  simp [serviceOrder, h, apply_ite Module.ctrl, apply_ite Ctrl.Bounded]

@[simp] theorem takeRecords_bounded (x : Module) (h : x.ctrl.Bounded) : (takeRecords x).ctrl.Bounded :=
  repeatN_bounded _ (fun _ _ hy => takeRecord_bounded _ hy) _ _ h

@[simp] theorem mgmtWarmStart_bounded (passA passB : Bool) (f : StoreFound) (x : Module) (h : x.ctrl.Bounded) :
    (mgmtWarmStart passA passB f x).ctrl.Bounded := by
  have h2 : ∀ (old : Bool) (y : Module), y.ctrl.Bounded →
      (onlyIf old (onCtrl fun c => { c with orderReq := none }) y).ctrl.Bounded := by
    intro old y hy
    cases old
    · exact hy
    · exact hy.congr rfl rfl rfl rfl
  unfold mgmtWarmStart
  split
  · extract_lets r frames old
    split
    · exact h
    · extract_lets x1 x3 x4 x5 x6 x7 x8
      have h3 : x3.ctrl.Bounded := by simpa [x3, x1] using h
      have h4 : x4.ctrl.Bounded := by simpa [x4] using takeRecords_bounded x3 h3
      have h5 : x5.ctrl.Bounded := h2 _ _ h4
      have h8 : x8.ctrl.Bounded := by simpa [x8, x7, x6] using h5
      split
      · split
        · exact failStart_bounded _ _ h8
        · exact followSill_bounded _ h8
      · exact followSill_bounded _ h8
  · exact h

@[simp] theorem safeStopExit_bounded (x : Module) (h : x.ctrl.Bounded) : (safeStopExit x).ctrl.Bounded := by
  simp only [safeStopExit]
  have h1 : (onCtrl (fun c => { c with haltCause := 0 }) x).ctrl.Bounded := h.congr rfl rfl rfl rfl
  split <;> simpa using h1

@[simp] theorem leakCutExit_bounded (x : Module) (h : x.ctrl.Bounded) :
    (leakCutExit x).ctrl.Bounded := by
  refine h.congr ?_ ?_ ?_ ?_ <;> simp [leakCutExit]

@[simp] theorem followBeats_bounded (x : Module) (h : x.ctrl.Bounded) :
    (followBeats x).ctrl.Bounded := by
  simp [followBeats, h, apply_ite Module.ctrl]

@[simp] theorem skourFrame_bounded (f : FrameMeas) (x : Module) (h : x.ctrl.Bounded) : (skourFrame f x).ctrl.Bounded := by
  have h1 : ∀ (d : Bool) (y : Module), y.ctrl.Bounded → (onlyIf d digestsDiffer y).ctrl.Bounded := by
    intro d y hy
    cases d
    · exact hy
    · rw [onlyIf, if_pos rfl, digestsDiffer_ctrl]
      exact hy
  unfold skourFrame
  extract_lets x1 x2 x3
  have hx : x1.ctrl.Bounded := h1 _ _ (by rw [takeMeters_ctrl, serviceWatchdog_ctrl]; exact h)
  rw [coolFrame_ctrl, powerFrame_ctrl, primeFrame_ctrl, editJoints_ctrl]
  simp only [x2, syncValveThrottle_ctrl, followImage_ctrl]
  refine followBeats_bounded _ ?_
  rw [followHost_ctrl]
  exact followSill_bounded _ hx

@[simp] theorem frameBoundary_bounded (f : FrameMeas) (x : Module) (h : x.ctrl.Bounded) :
    (frameBoundary f x).ctrl.Bounded := by
  have hy : (frameStart f x).ctrl.Bounded := (frameStart_ctrl f x).symm ▸ h
  generalize hz : frameStart f x = y at hy
  simp only [frameBoundary, hz]
  split
  · exact h
  · split
    · rw [takeStatus_ctrl]
      exact skourFrame_bounded _ _ hy
    · exact hy

@[simp] theorem restoreBlock_bounded (n : Nat) (x : Module) (h : x.ctrl.Bounded) :
    (restoreBlock n x).ctrl.Bounded := by
  simp [restoreBlock, h, apply_ite Module.ctrl, apply_ite Ctrl.Bounded]

@[simp] theorem clearFlags_bounded (v : Nat) (x : Module) (h : x.ctrl.Bounded) : (clearFlags v x).ctrl.Bounded := by
  simp only [clearFlags]
  split
  · cases (clearBits v).testBit 5 <;> simpa [onlyIf] using h
  · split <;> simpa using h

/-- A choice between two modules that keep the bounds keeps them. -/
theorem ite_bounded (c : Prop) [Decidable c] (a b : Module) (ha : a.ctrl.Bounded) (hb : b.ctrl.Bounded) :
    (if c then a else b).ctrl.Bounded := by
  split
  · exact ha
  · exact hb

@[simp] theorem writeActs_bounded (level k v : Nat) (x : Module) (h : x.ctrl.Bounded) :
    (writeActs level k v x).ctrl.Bounded := by
  have h1 : ∀ (d : Bool) (g : Module → Module), (∀ y, (g y).ctrl = y.ctrl) → (onlyIf d g x).ctrl.Bounded := by
    intro d g hg
    cases d
    · exact h
    · rw [onlyIf, if_pos rfl, hg]
      exact h
  have h2 : ∀ y : Module, y.ctrl = x.ctrl → y.ctrl.Bounded := fun y hy => hy ▸ h
  unfold writeActs
  repeat' with_reducible refine ite_bounded _ _ _ ?_ ?_
  · exact h1 _ _ rackHeard_ctrl
  · exact h2 _ (by simp)
  · exact h2 _ (by simp)
  · exact h2 _ (by simp)
  · exact h1 _ _ clearCollisions_ctrl
  · exact h2 _ (by simp)
  · exact serviceOrder_bounded _ _ h
  · exact h1 _ _ (stopSkour_ctrl _)
  · exact clearFlags_bounded _ _ h
  · exact h2 _ (by simp)
  · exact restoreBlock_bounded _ _ h
  · exact h2 _ (by simp)
  · exact h2 _ (by simp)
  · exact domainForce_bounded _ _ h
  · exact h2 _ (by simp)
  · exact h2 _ (by simp)
  · exact h2 _ (by simp)
  · exact h2 _ (by simp)
  · exact h2 _ (by simp)
  · exact h2 _ (by simp)
  · exact h1 _ _ enableRevert_ctrl
  · exact h2 _ (by simp)
  · exact safeStopExit_bounded _ h
  · exact leakCutExit_bounded _ h
  · exact h

@[simp] theorem applyWrite_bounded (w : Requester) (level k v : Nat) (x : Module) (h : x.ctrl.Bounded) :
    (applyWrite w level k v x).ctrl.Bounded := by
  simp [applyWrite, h, apply_ite Module.ctrl, apply_ite Ctrl.Bounded]

@[simp] theorem judgeWrite_bounded (w : Requester) (index sub : Nat) (bs : List Byte) (x : Module) (h : x.ctrl.Bounded) :
    (judgeWrite w index sub bs x).2.ctrl.Bounded := by
  simp only [judgeWrite]
  repeat' split
  all_goals simp [h]

@[simp] theorem judgeFirst_bounded (w : Requester) (index sub : Nat) (bs : List Byte) (x : Module) (h : x.ctrl.Bounded) :
    (judgeFirst w index sub bs x).2.2.ctrl.Bounded := by
  simp only [judgeFirst]
  repeat' split
  all_goals simp [h, issueChallenge]

@[simp] theorem judgeConfirm_bounded (w : Requester) (index sub : Nat) (challenge : W32) (complement : W64) (x : Module)
    (h : x.ctrl.Bounded) : (judgeConfirm w index sub challenge complement x).2.ctrl.Bounded := by
  simp only [judgeConfirm]
  repeat' split
  all_goals simp [h]

@[simp] theorem serveWhole_bounded (q : DictReq) (op : Nat) (bs : List Byte) (x : Module) (h : x.ctrl.Bounded) :
    (serveWhole q op bs x).2.ctrl.Bounded := by
  simp only [serveWhole]
  split <;> simp [h]

@[simp] theorem refuseRead_bounded (q : DictReq) (code : Nat) (x : Module) (h : x.ctrl.Bounded) :
    (refuseRead q code x).2.ctrl.Bounded := by simpa [refuseRead] using h

@[simp] theorem refuseTransfer_bounded (q : DictReq) (code : Nat) (x : Module) (h : x.ctrl.Bounded) :
    (refuseTransfer q code x).2.ctrl.Bounded := by simpa [refuseTransfer] using h

@[simp] theorem serveOp_bounded (q : DictReq) (x : Module) (h : x.ctrl.Bounded) : (serveOp q x).2.ctrl.Bounded := by
  have hr : ∀ c (y : Module), y.ctrl.Bounded → (refuseRead q c y).2.ctrl.Bounded := fun c y hy => refuseRead_bounded q c y hy
  have ht : ∀ c (y : Module), y.ctrl.Bounded → (refuseTransfer q c y).2.ctrl.Bounded :=
    fun c y hy => refuseTransfer_bounded q c y hy
  have h1 : (serveRead q x).2.ctrl.Bounded := by
    simp only [serveRead]
    repeat' split
    all_goals first
      | exact hr _ _ (by simpa using h)
      | simpa [apply_ite Module.ctrl] using h
  have h2 : (serveBegin q x).2.ctrl.Bounded := by
    simp only [serveBegin]
    repeat' split
    all_goals first
      | exact ht _ _ (by simpa using h)
      | exact serveWhole_bounded _ _ _ _ (by simpa using h)
      | simpa using h
  have h3 : (serveConfirm q x).2.ctrl.Bounded := by
    simp only [serveConfirm]
    repeat' split
    all_goals first
      | exact ht _ _ (by simpa using h)
      | exact judgeConfirm_bounded _ _ _ _ _ _ (by simpa using h)
  have h4 : (serveReadSegment q x).2.ctrl.Bounded := by
    simp only [serveReadSegment]
    repeat' split
    all_goals first
      | exact hr _ _ (by simpa using h)
      | exact hr _ _ h
      | simpa [apply_ite Module.ctrl] using h
  have h5 : (serveWriteSegment q x).2.ctrl.Bounded := by
    simp only [serveWriteSegment]
    repeat' split
    all_goals first
      | exact ht _ _ (by simpa using h)
      | exact ht _ _ h
      | exact serveWhole_bounded _ _ _ _ (by simpa using h)
      | simpa using h
  have h6 : (serveAbort q x).2.ctrl.Bounded := by
    simp only [serveAbort]
    split
    · exact ht _ _ h
    · simpa [repeatN] using h
  unfold serveOp
  repeat' split
  all_goals first
    | assumption
    | exact ht _ _ h

@[simp] theorem request_bounded (target : Nat) (q : DictReq) (x : Module) (h : x.ctrl.Bounded) :
    (request target q x).ctrl.Bounded := by
  simp only [request]
  repeat' split
  all_goals simp [h]

@[simp] theorem mgmtDatagram_bounded (addr port : Nat) (bs : List Byte) (x : Module) (h : x.ctrl.Bounded) :
    (mgmtDatagram addr port bs x).ctrl.Bounded := by
  simp [mgmtDatagram, h, apply_ite Module.ctrl, apply_ite Ctrl.Bounded]

@[simp] theorem wholeWrite_bounded (target : Nat) (w : Requester) (tag k : Nat) (bs : List Byte) (x : Module)
    (h : x.ctrl.Bounded) : (wholeWrite target w tag k bs x).ctrl.Bounded := by
  simp only [wholeWrite]
  repeat' split
  all_goals simp [h]

@[simp] theorem confirmWrite_bounded (target : Nat) (w : Requester) (tag k : Nat) (challenge : W32) (complement : W64) (x : Module) (h : x.ctrl.Bounded) :
    (confirmWrite target w tag k challenge complement x).ctrl.Bounded := by
  simp [confirmWrite, h]

@[simp] theorem resendEvents_bounded (p : Plane) (addr : Nat) (x : Module) (h : x.ctrl.Bounded) :
    (resendEvents p addr x).ctrl.Bounded := by
  cases p
  · exact h
  · exact h.congr rfl rfl rfl rfl

@[simp] theorem lapseSubscriber_bounded (p : Plane) (addr : Nat) (x : Module) (h : x.ctrl.Bounded) :
    (lapseSubscriber p addr x).ctrl.Bounded := by
  cases p
  · exact h
  · exact h.congr rfl rfl rfl rfl

@[simp] theorem dictionary_bounded (op : Nat) (q : DictCall) (x : Module) (h : x.ctrl.Bounded) :
    (dictionary op q x).ctrl.Bounded := by
  simp [dictionary, h]

end Sys2Proof.Machine
end

