-- ==== Sys2Proof/Laws/Exec.lean ====
section
/-!
SUPPORT. What each command does, one equation each: the next state is the state with the module changed by the operation
the command names. Proofs cite these and never unfold `exec`. Then what every command and every step have in common.
-/

namespace Sys2Proof.Machine

variable (s : State)

@[simp] theorem exec_nop (i : Issue) (slot : SlotId) :
    exec (.nop i slot) s = .next { s with sys := issueNop i slot s.sys } := rfl

@[simp] theorem exec_alu (i : Issue) (p : Pred) (sd sa sb : BitVec 5) (f : AluFn) :
    exec (.alu i p sd sa sb f) s = .next { s with sys := issueC i p (.alu sd sa sb f) s.sys } := rfl

@[simp] theorem exec_addi (i : Issue) (p : Pred) (sd sa : BitVec 5) (imm : BitVec 12) :
    exec (.addi i p sd sa imm) s = .next { s with sys := issueC i p (.addi sd sa imm) s.sys } := rfl

@[simp] theorem exec_andi (i : Issue) (p : Pred) (sd sa : BitVec 5) (imm : BitVec 12) :
    exec (.andi i p sd sa imm) s = .next { s with sys := issueC i p (.andi sd sa imm) s.sys } := rfl

@[simp] theorem exec_ori (i : Issue) (p : Pred) (sd sa : BitVec 5) (imm : BitVec 12) :
    exec (.ori i p sd sa imm) s = .next { s with sys := issueC i p (.ori sd sa imm) s.sys } := rfl

@[simp] theorem exec_xori (i : Issue) (p : Pred) (sd sa : BitVec 5) (imm : BitVec 12) :
    exec (.xori i p sd sa imm) s = .next { s with sys := issueC i p (.xori sd sa imm) s.sys } := rfl

@[simp] theorem exec_shli (i : Issue) (p : Pred) (sd sa : BitVec 5) (imm : BitVec 5) :
    exec (.shli i p sd sa imm) s = .next { s with sys := issueC i p (.shli sd sa imm) s.sys } := rfl

@[simp] theorem exec_shri (i : Issue) (p : Pred) (sd sa : BitVec 5) (imm : BitVec 5) :
    exec (.shri i p sd sa imm) s = .next { s with sys := issueC i p (.shri sd sa imm) s.sys } := rfl

@[simp] theorem exec_srai (i : Issue) (p : Pred) (sd sa : BitVec 5) (imm : BitVec 5) :
    exec (.srai i p sd sa imm) s = .next { s with sys := issueC i p (.srai sd sa imm) s.sys } := rfl

@[simp] theorem exec_muli (i : Issue) (p : Pred) (sd sa : BitVec 5) (imm : BitVec 12) :
    exec (.muli i p sd sa imm) s = .next { s with sys := issueC i p (.muli sd sa imm) s.sys } := rfl

@[simp] theorem exec_movl (i : Issue) (p : Pred) (sd : BitVec 5) (imm : BitVec 16) :
    exec (.movl i p sd imm) s = .next { s with sys := issueC i p (.movl sd imm) s.sys } := rfl

@[simp] theorem exec_movh (i : Issue) (p : Pred) (sd : BitVec 5) (imm : BitVec 16) :
    exec (.movh i p sd imm) s = .next { s with sys := issueC i p (.movh sd imm) s.sys } := rfl

@[simp] theorem exec_cmp (i : Issue) (p : Pred) (pd : BitVec 3) (sa sb : BitVec 5) (c : Cond) :
    exec (.cmp i p pd sa sb c) s = .next { s with sys := issueC i p (.cmp pd sa sb c) s.sys } := rfl

@[simp] theorem exec_cmpi (i : Issue) (p : Pred) (pd : BitVec 3) (sa : BitVec 5) (c : Cond) (imm : BitVec 11) :
    exec (.cmpi i p pd sa c imm) s = .next { s with sys := issueC i p (.cmpi pd sa c imm) s.sys } := rfl

@[simp] theorem exec_plog (i : Issue) (p : Pred) (pd pa pb : BitVec 3) (f : PFn) :
    exec (.plog i p pd pa pb f) s = .next { s with sys := issueC i p (.plog pd pa pb f) s.sys } := rfl

@[simp] theorem exec_br (i : Issue) (p : Pred) (target : BitVec 14) :
    exec (.br i p target) s = .next { s with sys := issueC i p (.br target) s.sys } := rfl

@[simp] theorem exec_jal (i : Issue) (p : Pred) (sd : BitVec 5) (target : BitVec 14) :
    exec (.jal i p sd target) s = .next { s with sys := issueC i p (.jal sd target) s.sys } := rfl

@[simp] theorem exec_jr (i : Issue) (p : Pred) (sa : BitVec 5) :
    exec (.jr i p sa) s = .next { s with sys := issueC i p (.jr sa) s.sys } := rfl

@[simp] theorem exec_loop (i : Issue) (p : Pred) (sc : BitVec 5) (stop : BitVec 14) :
    exec (.loop i p sc stop) s = .next { s with sys := issueC i p (.loop sc stop) s.sys } := rfl

@[simp] theorem exec_loopi (i : Issue) (p : Pred) (count : BitVec 8) (stop : BitVec 14) :
    exec (.loopi i p count stop) s = .next { s with sys := issueC i p (.loopi count stop) s.sys } := rfl

@[simp] theorem exec_lpop (i : Issue) (p : Pred) :
    exec (.lpop i p) s = .next { s with sys := issueC i p (.lpop) s.sys } := rfl

@[simp] theorem exec_csrr (i : Issue) (p : Pred) (pair : BitVec 4) (idx : BitVec 13) :
    exec (.csrr i p pair idx) s = .next { s with sys := issueC i p (.csrr pair idx) s.sys } := rfl

@[simp] theorem exec_csrw (i : Issue) (p : Pred) (pair : BitVec 4) (idx : BitVec 13) :
    exec (.csrw i p pair idx) s = .next { s with sys := issueC i p (.csrw pair idx) s.sys } := rfl

@[simp] theorem exec_sig (i : Issue) (p : Pred) :
    exec (.sig i p) s = .next { s with sys := issueC i p (.sig) s.sys } := rfl

@[simp] theorem exec_beat (i : Issue) (p : Pred) :
    exec (.beat i p) s = .next { s with sys := issueC i p (.beat) s.sys } := rfl

@[simp] theorem exec_beatRetire (tile : TileIx) (cycle : Nat) :
    exec (.beatRetire tile cycle) s = .next { s with sys := retireBeat tile cycle s.sys } := rfl

@[simp] theorem exec_lds (i : Issue) (p : Pred) (sd : BitVec 5) (aB : BitVec 4) (imm : BitVec 13) :
    exec (.lds i p sd aB imm) s = .next { s with sys := issueM i p (.lds sd aB imm) s.sys } := rfl

@[simp] theorem exec_sts (i : Issue) (p : Pred) (ss : BitVec 5) (aB : BitVec 4) (imm : BitVec 13) :
    exec (.sts i p ss aB imm) s = .next { s with sys := issueM i p (.sts ss aB imm) s.sys } := rfl

@[simp] theorem exec_ldv (i : Issue) (p : Pred) (vd : BitVec 6) (aB : BitVec 4) (sz : Sz) (imm : BitVec 9) :
    exec (.ldv i p vd aB sz imm) s = .next { s with sys := issueM i p (.ldv vd aB sz imm) s.sys } := rfl

@[simp] theorem exec_stv (i : Issue) (p : Pred) (vs : BitVec 6) (aB : BitVec 4) (sz : Sz) (imm : BitVec 9) :
    exec (.stv i p vs aB sz imm) s = .next { s with sys := issueM i p (.stv vs aB sz imm) s.sys } := rfl

@[simp] theorem exec_aaddi (i : Issue) (p : Pred) (ad aS : BitVec 4) (imm : BitVec 14) :
    exec (.aaddi i p ad aS imm) s = .next { s with sys := issueM i p (.aaddi ad aS imm) s.sys } := rfl

@[simp] theorem exec_aadd (i : Issue) (p : Pred) (ad aS : BitVec 4) (ss : BitVec 5) (sh : BitVec 3) :
    exec (.aadd i p ad aS ss sh) s = .next { s with sys := issueM i p (.aadd ad aS ss sh) s.sys } := rfl

@[simp] theorem exec_amov (i : Issue) (p : Pred) (ad : BitVec 4) (sl sh : BitVec 5) :
    exec (.amov i p ad sl sh) s = .next { s with sys := issueM i p (.amov ad sl sh) s.sys } := rfl

@[simp] theorem exec_aget (i : Issue) (p : Pred) (sd : BitVec 5) (aS : BitVec 4) (hi : Bool) :
    exec (.aget i p sd aS hi) s = .next { s with sys := issueM i p (.aget sd aS hi) s.sys } := rfl

@[simp] theorem exec_wfill (i : Issue) (p : Pred) (t : Bool) (kind : FillKind) (aS : BitVec 4) (sU : BitVec 5) :
    exec (.wfill i p t kind aS sU) s = .next { s with sys := issueM i p (.wfill t kind aS sU) s.sys } := rfl

@[simp] theorem exec_wfillDone (tile : TileIx) (t : Bool) :
    exec (.wfillDone tile t) s = .next { s with sys := (tileStep tile (fun _ u => (fillDone t u, Eff.none)) s.sys) }
      := rfl

@[simp] theorem exec_sarm (i : Issue) (p : Pred) (aL : BitVec 4) (tag : BitVec 12) (ur : Bool) (aR : BitVec 4) :
    exec (.sarm i p aL tag ur aR) s = .next { s with sys := issueM i p (.sarm aL tag ur aR) s.sys } := rfl

@[simp] theorem exec_ureq (i : Issue) (p : Pred) (aD : BitVec 4) :
    exec (.ureq i p aD) s = .next { s with sys := issueM i p (.ureq aD) s.sys } := rfl

@[simp] theorem exec_ureqCompletion (tile : TileIx) (id : Fin 16) :
    exec (.ureqCompletion tile id) s = .next { s with sys := (onData (ureqComplete (envOf s.sys) tile id) s.sys) } :=
      rfl

@[simp] theorem exec_xsnd (i : Issue) (p : Pred) (aS : BitVec 4) (sD : BitVec 5) (cls : BitVec 4) (len : BitVec 2) :
    exec (.xsnd i p aS sD cls len) s = .next { s with sys := (issueM i p (.xsnd aS sD cls len) s.sys) } := rfl

@[simp] theorem exec_vext (i : Issue) (p : Pred) (sd : BitVec 5) (vs : BitVec 6) (lane : BitVec 9) :
    exec (.vext i p sd vs lane) s = .next { s with sys := issueM i p (.vext sd vs lane) s.sys } := rfl

@[simp] theorem exec_tcfg (i : Issue) (p : Pred) (t : Bool) (sa sb : BitVec 5) :
    exec (.tcfg i p t sa sb) s = .next { s with sys := issueT i p (.tcfg t sa sb) s.sys } := rfl

@[simp] theorem exec_trow (i : Issue) (p : Pred) (t : Bool) (aA aS : BitVec 4) (sS : BitVec 5) (cnt : BitVec 8) :
    exec (.trow i p t aA aS sS cnt) s = .next { s with sys := (issueT i p (.trow t aA aS sS cnt) s.sys) } := rfl

@[simp] theorem exec_trussRowComplete (tile : TileIx) (t : Bool) (cycle : Nat) :
    exec (.trussRowComplete tile t cycle) s = .next { s with sys := completeRow tile t cycle s.sys } := rfl

@[simp] theorem exec_tswp (i : Issue) (p : Pred) (t : Bool) :
    exec (.tswp i p t) s = .next { s with sys := issueT i p (.tswp t) s.sys } := rfl

@[simp] theorem exec_tdrn (i : Issue) (p : Pred) (t : Bool) (vd : BitVec 6) (q : BitVec 2) (cnt : BitVec 5) :
    exec (.tdrn i p t vd q cnt) s = .next { s with sys := issueT i p (.tdrn t vd q cnt) s.sys } := rfl

@[simp] theorem exec_trussDrain (tile : TileIx) (t : Bool) (cycle : Nat) :
    exec (.trussDrain tile t cycle) s = .next { s with sys := (tileStep tile (fun cx u => (drainOne cx cycle t u,
      Eff.none)) s.sys) } := rfl

@[simp] theorem exec_vfp (i : Issue) (p : Pred) (vd va vb : BitVec 6) (f : VfpFn) :
    exec (.vfp i p vd va vb f) s = .next { s with sys := issueV i p (.vfp vd va vb f) s.sys } := rfl

@[simp] theorem exec_vfn (i : Issue) (p : Pred) (vd va : BitVec 6) (f : VfnFn) :
    exec (.vfn i p vd va f) s = .next { s with sys := issueV i p (.vfn vd va f) s.sys } := rfl

@[simp] theorem exec_vcmp (i : Issue) (p : Pred) (vd va vb : BitVec 6) (c : VCond) :
    exec (.vcmp i p vd va vb c) s = .next { s with sys := issueV i p (.vcmp vd va vb c) s.sys } := rfl

@[simp] theorem exec_vcmpp (i : Issue) (p : Pred) (pd : BitVec 3) (va vb : BitVec 6) (c : VCond) (all : Bool) :
    exec (.vcmpp i p pd va vb c all) s = .next { s with sys := issueV i p (.vcmpp pd va vb c all) s.sys } := rfl

@[simp] theorem exec_vsel (i : Issue) (p : Pred) (vd va vb : BitVec 6) :
    exec (.vsel i p vd va vb) s = .next { s with sys := issueV i p (.vsel vd va vb) s.sys } := rfl

@[simp] theorem exec_vsplat (i : Issue) (p : Pred) (vd : BitVec 6) (sa : BitVec 5) :
    exec (.vsplat i p vd sa) s = .next { s with sys := issueV i p (.vsplat vd sa) s.sys } := rfl

@[simp] theorem exec_viota (i : Issue) (p : Pred) (vd : BitVec 6) :
    exec (.viota i p vd) s = .next { s with sys := issueV i p (.viota vd) s.sys } := rfl

@[simp] theorem exec_vperm (i : Issue) (p : Pred) (vd va vb : BitVec 6) :
    exec (.vperm i p vd va vb) s = .next { s with sys := issueV i p (.vperm vd va vb) s.sys } := rfl

@[simp] theorem exec_vrot (i : Issue) (p : Pred) (vd va : BitVec 6) (k : BitVec 9) :
    exec (.vrot i p vd va k) s = .next { s with sys := issueV i p (.vrot vd va k) s.sys } := rfl

@[simp] theorem exec_vcvt (i : Issue) (p : Pred) (vd va : BitVec 6) (fmt : CvtFmt) :
    exec (.vcvt i p vd va fmt) s = .next { s with sys := issueV i p (.vcvt vd va fmt) s.sys } := rfl

@[simp] theorem exec_vsr (i : Issue) (p : Pred) (vd va : BitVec 6) (fmt : Narrow) (grp : BitVec 3) :
    exec (.vsr i p vd va fmt grp) s = .next { s with sys := issueV i p (.vsr vd va fmt grp) s.sys } := rfl

@[simp] theorem exec_vpack (i : Issue) (p : Pred) (vd va : BitVec 6) (fmt : PackFmt) :
    exec (.vpack i p vd va fmt) s = .next { s with sys := issueV i p (.vpack vd va fmt) s.sys } := rfl

@[simp] theorem exec_vunpk (i : Issue) (p : Pred) (vd va : BitVec 6) (fmt : PackFmt) :
    exec (.vunpk i p vd va fmt) s = .next { s with sys := issueV i p (.vunpk vd va fmt) s.sys } := rfl

@[simp] theorem exec_vred (i : Issue) (p : Pred) (vd va : BitVec 6) (max : Bool) :
    exec (.vred i p vd va max) s = .next { s with sys := issueV i p (.vred vd va max) s.sys } := rfl

@[simp] theorem exec_vqmx (i : Issue) (p : Pred) (vd va : BitVec 6) (fmt : Narrow) (sr : Bool) (grp : BitVec 3) :
    exec (.vqmx i p vd va fmt sr grp) s = .next { s with sys := (issueV i p (.vqmx vd va fmt sr grp) s.sys) } := rfl

@[simp] theorem exec_vqk4 (i : Issue) (p : Pred) (vd va : BitVec 6) (sT : BitVec 5) (sr : Bool) (grp : BitVec 3) :
    exec (.vqk4 i p vd va sT sr grp) s = .next { s with sys := (issueV i p (.vqk4 vd va sT sr grp) s.sys) } := rfl

@[simp] theorem exec_scrubRead (tile : TileIx) (line : BitVec 18) (found : ScrubFound) :
    exec (.scrubRead tile line found) s = .next { s with sys := (tileStep tile (scrubRead line.toNat found) s.sys) }
      := rfl

@[simp] theorem exec_instructionMemoryWrite (tile : TileIx) (at_ : BitVec 14) (w : Bundle) :
    exec (.instructionMemoryWrite tile at_ w) s = .next { s with sys := (imemStore tile at_.toNat w s.sys) } := rfl

@[simp] theorem exec_tileResetEnd (tile : TileIx) :
    exec (.tileResetEnd tile) s = .next { s with sys := finishReset tile s.sys } := rfl

@[simp] theorem exec_intStatusClear (tile : TileIx) (mask hw : W64) :
    exec (.intStatusClear tile mask hw) s = .next { s with sys := (tileEdit tile (fun _ u => clearInt u mask hw)
      s.sys) } := rfl

@[simp] theorem exec_intForceSet (tile : TileIx) (mask : W64) :
    exec (.intForceSet tile mask) s = .next { s with sys := (tileEdit tile (fun _ u => forceInt u mask) s.sys) } :=
      rfl

@[simp] theorem exec_fieldIntStatusClear (field : FieldIx) (mask hw : W64) :
    exec (.fieldIntStatusClear field mask hw) s =
      .next { s with sys := (fieldEdit field (fun f => { f with intStatus := w1c f.intStatus mask (hw &&& fieldIntMask) }) s.sys) } := rfl

@[simp] theorem exec_fieldIntForceSet (field : FieldIx) (mask : W64) :
    exec (.fieldIntForceSet field mask) s = .next { s with sys := (fieldEdit field (fun f => fieldCsrWrite false f
      0x0020 mask) s.sys) } := rfl

@[simp] theorem exec_arbStarveClear (field : FieldIx) (mask : W64) :
    exec (.arbStarveClear field mask) s = .next { s with sys := (fieldEdit field (fun f => fieldCsrWrite false f
      0x0700 mask) s.sys) } := rfl

@[simp] theorem exec_evcntWrite (tile : TileIx) (n : Fin 8) (v : W64) :
    exec (.evcntWrite tile n v) s = .next { s with sys := (tileEdit tile (fun _ u => writeEvcnt u n v) s.sys) } := rfl

@[simp] theorem exec_sampRelease (tile : TileIx) (n : Fin 128) :
    exec (.sampRelease tile n) s = .next { s with sys := (tileEdit tile (fun _ u => releaseSamples u n) s.sys) } :=
      rfl

@[simp] theorem exec_sampCtrlWrite (tile : TileIx) (v : W64) :
    exec (.sampCtrlWrite tile v) s = .next { s with sys := (tileEdit tile (fun _ u => writeSampCtrl u v) s.sys) } :=
      rfl

@[simp] theorem exec_bwCtrlWrite (tile : TileIx) (v : W64) :
    exec (.bwCtrlWrite tile v) s = .next { s with sys := (tileEdit tile (fun _ u => writeBwCtrl u v) s.sys) } := rfl

@[simp] theorem exec_csrWrite (place : CsrAt) (off : BitVec 16) (v : W64) :
    exec (.csrWrite place off v) s = .next { s with sys := plainCsrWrite place off.toNat v s.sys } := rfl

@[simp] theorem exec_mapWrite (w : MapEntry) : exec (.mapWrite w) s = .next { s with sys := writeMap w s.sys } := rfl

@[simp] theorem exec_sampleRecordWrite (tile : TileIx) (measured : Nat) :
    exec (.sampleRecordWrite tile measured) s = .next { s with sys := (tileEdit tile (fun _ u => sampleWrite measured
      u) s.sys) } := rfl

@[simp] theorem exec_bwWindowClose (tile : TileIx) :
    exec (.bwWindowClose tile) s = .next { s with sys := tileEdit tile (fun _ u => bwClose u) s.sys } := rfl

@[simp] theorem exec_scheduledSlot (tile : TileIx) (tag : BitVec 12) (cycle : Nat) :
    exec (.scheduledSlot tile tag cycle) s = .next { s with sys := (onData (scheduledSlot (envOf s.sys) tile
      tag.toNat cycle) s.sys) } := rfl

@[simp] theorem exec_scheduledFlitLand (n cycle : Nat) (others : List Contender) :
    exec (.scheduledFlitLand n cycle others) s = .next { s with sys := (onData (flitLand (envOf s.sys) n cycle
      others) s.sys) } := rfl

@[simp] theorem exec_lateFlitArrival (n cycle : Nat) (others : List Contender) :
    exec (.lateFlitArrival n cycle others) s = .next { s with sys := (onData (flitLate (envOf s.sys) n cycle others)
      s.sys) } := rfl

@[simp] theorem exec_stackReadReturn (n cycle : Nat) (found : StackFound) :
    exec (.stackReadReturn n cycle found) s = .next { s with sys := (onData (stackReturn (envOf s.sys) n cycle found)
      s.sys) } := rfl

@[simp] theorem exec_unscheduledPacketArrive (n : Nat) (hops : List Hop) (others : List Contender) (far : FarAnswer) :
    exec (.unscheduledPacketArrive n hops others far) s = .next { s with sys := (onData (packetArrive (envOf s.sys) n
      hops others far) s.sys) } := rfl

@[simp] theorem exec_escapeMove (n : Nat) (router : TileIx) (waited : Nat) :
    exec (.escapeMove n router waited) s = .next { s with sys := (onData (escapeMove (envOf s.sys) n router waited)
      s.sys) } := rfl

@[simp] theorem exec_exchangeRecordLand (n cycle : Nat) (others : List Contender) :
    exec (.exchangeRecordLand n cycle others) s = .next { s with sys := (onData (recordLand (envOf s.sys) n cycle
      others) s.sys) } := rfl

@[simp] theorem exec_stackRequest (a : ArbAsk) :
    exec (.stackRequest a) s = .next { s with sys := askStack a s.sys } := rfl

@[simp] theorem exec_stackBurstGrant (field : FieldIx) (cycle : Nat) (found : StackFound) :
    exec (.stackBurstGrant field cycle found) s = .next { s with sys := (onData (stackGrant (envOf s.sys) field cycle
      found) s.sys) } := rfl

@[simp] theorem exec_arbStarve (field : FieldIx) (q : Fin 24) :
    exec (.arbStarve field q) s = .next { s with sys := fieldEdit field (arbStarve q) s.sys } := rfl

@[simp] theorem exec_arbRequesterMask (field : FieldIx) (q : Fin 24) :
    exec (.arbRequesterMask field q) s = .next { s with sys := fieldEdit field (arbMask q) s.sys } := rfl

@[simp] theorem exec_arbRequesterUnmask (field : FieldIx) (q : Fin 24) :
    exec (.arbRequesterUnmask field q) s = .next { s with sys := (fieldEdit field (arbUnmask field q) s.sys) } := rfl

@[simp] theorem exec_stackTrainStateDone (field : FieldIx) (failed : List Nat) :
    exec (.stackTrainStateDone field failed) s = .next { s with sys := (fieldEdit field (stackTrainDone failed)
      s.sys) } := rfl

@[simp] theorem exec_stackRefreshWindow (field : FieldIx) :
    exec (.stackRefreshWindow field) s = .next { s with sys := fieldEdit field refreshWindow s.sys } := rfl

@[simp] theorem exec_beatBoundary :
    exec .beatBoundary s = .next { s with sys := onData (beatBoundary (envOf s.sys)) s.sys } := rfl

@[simp] theorem exec_beatOverrun :
    exec .beatOverrun s = .next { s with sys := onData (beatOverrun (envOf s.sys)) s.sys } := rfl

@[simp] theorem exec_stepSwitch :
    exec .stepSwitch s = .next { s with sys := onData (stepSwitch (envOf s.sys)) s.sys } := rfl

@[simp] theorem exec_j4Snapshot (droop : List Byte) :
    exec (.j4Snapshot droop) s = .next { s with sys := takeSnapshot (fun f => droop.getD f 0) s.sys } := rfl

@[simp] theorem exec_j4PlacementRecord :
    exec .j4PlacementRecord s = .next { s with sys := takePlacement s.sys } := rfl

@[simp] theorem exec_j1OrderWrite (w : BitVec 16) :
    exec (.j1OrderWrite w) s = .next { s with sys := writeOrderWord w s.sys } := rfl

@[simp] theorem exec_j1LevelWrite (step : Fin 16) (hold throttle : Bool) :
    exec (.j1LevelWrite step hold throttle) s = .next { s with sys := (writeLevels step hold throttle s.sys) } := rfl

@[simp] theorem exec_haltedRise : exec .haltedRise s = .next { s with sys := haltedRises s.sys } := rfl

@[simp] theorem exec_haltedTimeout : exec .haltedTimeout s = .next { s with sys := haltedTimeout s.sys } := rfl

@[simp] theorem exec_haltedMissing : exec .haltedMissing s = .next { s with sys := haltedMissing s.sys } := rfl

@[simp] theorem exec_tileRailCheck (mv : Nat) :
    exec (.tileRailCheck mv) s = .next { s with sys := tileRailCheck mv s.sys } := rfl

@[simp] theorem exec_dataPlanePowerUp : exec .dataPlanePowerUp s = .next { s with sys := powerUpData s.sys } := rfl

@[simp] theorem exec_markerReceive (engine : EngineIx) :
    exec (.markerReceive engine) s = .next { s with sys := onData (markerReceive engine) s.sys } := rfl

@[simp] theorem exec_stateWordReceive (engine : EngineIx) :
    exec (.stateWordReceive engine) s = .next { s with sys := onData (wordReceive engine) s.sys } := rfl

@[simp] theorem exec_stateWordSend : exec .stateWordSend s = .next { s with sys := onData wordSend s.sys } := rfl

@[simp] theorem exec_plumbLock (ok : Bool) :
    exec (.plumbLock ok) s = .next { s with sys := onData (plumbLock (envOf s.sys) ok) s.sys } := rfl

@[simp] theorem exec_rootLost : exec .rootLost s = .next { s with sys := onData rootLost s.sys } := rfl

@[simp] theorem exec_rootTakeover :
    exec .rootTakeover s = .next { s with sys := onData (rootTakeover (envOf s.sys)) s.sys } := rfl

@[simp] theorem exec_backupRedesignate :
    exec .backupRedesignate s = .next { s with sys := onData backupRedesignate s.sys } := rfl

@[simp] theorem exec_memberLost (module : Fin 256) :
    exec (.memberLost module) s = .next { s with sys := onData (memberLost (envOf s.sys) module) s.sys } := rfl

@[simp] theorem exec_assemblyIncomplete :
    exec .assemblyIncomplete s = .next { s with sys := onData (assemblyIncomplete (envOf s.sys)) s.sys } := rfl

@[simp] theorem exec_scarfCellReceive (engine : EngineIx) (cell : Cell) (arrival : Int) (errs : List LineError) :
    exec (.scarfCellReceive engine cell arrival errs) s = .next { s with sys := (onData (cellReceive (envOf s.sys)
      engine cell arrival errs) s.sys) } := rfl

@[simp] theorem exec_scarfCellSend (engine : EngineIx) (phase : W32) :
    exec (.scarfCellSend engine phase) s = .next { s with sys := (onData (cellSend (envOf s.sys) engine phase) s.sys)
      } := rfl

@[simp] theorem exec_engineDown (engine : EngineIx) (entry : Bool) :
    exec (.engineDown engine entry) s = .next { s with sys := (onData (engineDown (envOf s.sys) engine entry) s.sys)
      } := rfl

@[simp] theorem exec_laneSwapRequest (engine : EngineIx) (lane : Fin 9) :
    exec (.laneSwapRequest engine lane) s = .next { s with sys := (onData (swapRequest engine lane) s.sys) } := rfl

@[simp] theorem exec_laneSwapComplete (engine : EngineIx) :
    exec (.laneSwapComplete engine) s = .next { s with sys := (onData (swapComplete (envOf s.sys) engine) s.sys) } :=
      rfl

@[simp] theorem exec_scarfTrainStateDone (engine : EngineIx) (found : TrainFound) :
    exec (.scarfTrainStateDone engine found) s = .next { s with sys := (onData (scarfTrainDone (envOf s.sys) engine
      found) s.sys) } := rfl

@[simp] theorem exec_scarfFlitRelease (engine : EngineIx) (n cycle : Nat) :
    exec (.scarfFlitRelease engine n cycle) s = .next { s with sys := (onData (flitRelease (envOf s.sys) engine n
      cycle) s.sys) } := rfl

@[simp] theorem exec_hostOpen (m : Msg) (control force : Bool) :
    exec (.hostOpen m control force) s = .next { s with sys := (onCtrl (openSession (cenvOf s.sys) m control force)
      s.sys) } := rfl

@[simp] theorem exec_hostClose (m : Msg) :
    exec (.hostClose m) s = .next { s with sys := onCtrl (closeSession (cenvOf s.sys) m) s.sys } := rfl

@[simp] theorem exec_hostHeartbeat (m : Msg) :
    exec (.hostHeartbeat m) s = .next { s with sys := onCtrl (heartbeat (cenvOf s.sys) m) s.sys } := rfl

@[simp] theorem exec_loadBegin (m : Msg) (len : Nat) (repair : List Byte) :
    exec (.loadBegin m len repair) s = .next { s with sys := (hostCommand m (.loadBegin len repair) s.sys) } := rfl

@[simp] theorem exec_loadData (m : Msg) (off : Nat) (bs : List Byte) :
    exec (.loadData m off bs) s = .next { s with sys := loadData m off bs s.sys } := rfl

@[simp] theorem exec_loadComplete : exec .loadComplete s = .next { s with sys := loadDone s.sys } := rfl

@[simp] theorem exec_loadTimeout : exec .loadTimeout s = .next { s with sys := loadTimeout s.sys } := rfl

@[simp] theorem exec_placementCheck :
    exec .placementCheck s = .next { s with sys := onData (placementCheck (envOf s.sys)) s.sys } := rfl

@[simp] theorem exec_hostRestore (m : Msg) :
    exec (.hostRestore m) s = .next { s with sys := hostCommand m .restore s.sys } := rfl

@[simp] theorem exec_sysDesc (m : Msg) (payload : List Byte) :
    exec (.sysDesc m payload) s = .next { s with sys := hostCommand m (.sysDesc payload) s.sys } := rfl

@[simp] theorem exec_hostStart (m : Msg) :
    exec (.hostStart m) s = .next { s with sys := hostCommand m .start s.sys } := rfl

@[simp] theorem exec_hostHold (m : Msg) :
    exec (.hostHold m) s = .next { s with sys := hostCommand m .hold s.sys } := rfl

@[simp] theorem exec_hostResume (m : Msg) :
    exec (.hostResume m) s = .next { s with sys := hostCommand m .resume s.sys } := rfl

@[simp] theorem exec_hostCheckpoint (m : Msg) :
    exec (.hostCheckpoint m) s = .next { s with sys := hostCommand m .checkpoint s.sys } := rfl

@[simp] theorem exec_hostTurn (m : Msg) (g : Fin 256) :
    exec (.hostTurn m g) s = .next { s with sys := hostCommand m (.turn g) s.sys } := rfl

@[simp] theorem exec_hostStop (m : Msg) :
    exec (.hostStop m) s = .next { s with sys := hostCommand m .stop s.sys } := rfl

@[simp] theorem exec_stopComplete : exec .stopComplete s = .next { s with sys := stopComplete s.sys } := rfl

@[simp] theorem exec_hostCap (m : Msg) (cap : F32) :
    exec (.hostCap m cap) s = .next { s with sys := hostCommand m (.hostCap cap) s.sys } := rfl

@[simp] theorem exec_tcsrRead (m : Msg) (a : W64) (phys : BitVec 16) :
    exec (.tcsrRead m a phys) s = .next { s with sys := (whenData (tcsrRead (envOf s.sys) m a phys.toNat) s.sys) } :=
      rfl

@[simp] theorem exec_tcsrWrite (m : Msg) (a : W64) (phys : BitVec 16) (v : W64) :
    exec (.tcsrWrite m a phys v) s = .next { s with sys := (whenData (tcsrWrite (envOf s.sys) m a phys.toNat v)
      s.sys) } := rfl

@[simp] theorem exec_tstreamPut (m : Msg) (a : W64) (bs : List Byte) :
    exec (.tstreamPut m a bs) s = .next { s with sys := (whenData (tstreamPut (envOf s.sys) m a bs) s.sys) } := rfl

@[simp] theorem exec_tstreamGet (m : Msg) (a : W64) (n : Nat) (found : StackFound) :
    exec (.tstreamGet m a n found) s = .next { s with sys := (whenData (tstreamGet (envOf s.sys) m a n found) s.sys)
      } := rfl

@[simp] theorem exec_qpOpen (m : Msg) (qpn psn : W32) (cls : Nat) :
    exec (.qpOpen m qpn psn cls) s = .next { s with sys := whenData (qpOpen m qpn psn cls) s.sys } := rfl

@[simp] theorem exec_qpClose (m : Msg) (qpn : W32) :
    exec (.qpClose m qpn) s = .next { s with sys := whenData (qpClose m qpn) s.sys } := rfl

@[simp] theorem exec_scarfRetrain (m : Msg) (side : Fin 4) (index : BitVec 8) :
    exec (.scarfRetrain m side index) s = .next { s with sys := (whenData (scarfRetrain (s.sys.mgmt.module ==
      .running) m side index.toNat) s.sys) } := rfl

@[simp] theorem exec_dataEventAck (m : Msg) (next : W64) (subscribe : Bool) :
    exec (.dataEventAck m next subscribe) s = .next { s with sys := (whenData (dataEventAck (envOf s.sys) m next
      subscribe) s.sys) } := rfl

@[simp] theorem exec_runEventAck (m : Msg) (next : W64) (subscribe : Bool) :
    exec (.runEventAck m next subscribe) s = .next { s with sys := (onCtrl (runEventAck (cenvOf s.sys) m next
      subscribe) s.sys) } := rfl

@[simp] theorem exec_badMessage (engine : Fin 4) (addr : Nat) (datagram : List Byte) :
    exec (.badMessage engine addr datagram) s = .next { s with sys := (onCtrl (badMessage engine addr datagram)
      s.sys) } := rfl

@[simp] theorem exec_eventResend (plane : Plane) (addr : Nat) :
    exec (.eventResend plane addr) s = .next { s with sys := resendEvents plane addr s.sys } := rfl

@[simp] theorem exec_subscriberLapse (plane : Plane) (addr : Nat) :
    exec (.subscriberLapse plane addr) s = .next { s with sys := lapseSubscriber plane addr s.sys } := rfl

@[simp] theorem exec_sessionTimeout (session : W32) :
    exec (.sessionTimeout session) s = .next { s with sys := (onCtrl (sessionTimeout (cenvOf s.sys) session) s.sys) }
      := rfl

@[simp] theorem exec_controlRoleLost :
    exec .controlRoleLost s = .next { s with sys := onCtrl (roleLost (cenvOf s.sys)) s.sys } := rfl

@[simp] theorem exec_rdmaWrite (engine : Fin 4) (qpn key : W32) (a : W64) (bs : List Byte) :
    exec (.rdmaWrite engine qpn key a bs) s = .next { s with sys := (if s.sys.data.on then rdmaWriteAll engine qpn
      key a bs s.sys else s.sys) } := rfl

@[simp] theorem exec_rdmaRead (engine : Fin 4) (qpn key : W32) (a : W64) (n : Nat) (found : StackFound) :
    exec (.rdmaRead engine qpn key a n found) s = .next { s with sys := (whenData (rdmaRead (envOf s.sys) engine qpn
      key a n found) s.sys) } := rfl

@[simp] theorem exec_orderRequest : exec .orderRequest s = .next { s with sys := orderRequest s.sys } := rfl

@[simp] theorem exec_orderVerdictTimeout :
    exec .orderVerdictTimeout s = .next { s with sys := verdictOverdue s.sys } := rfl

@[simp] theorem exec_j2JournalRecord : exec .j2JournalRecord s = .next { s with sys := takeRecord s.sys } := rfl

@[simp] theorem exec_j2StateWordUpdate : exec .j2StateWordUpdate s = .next { s with sys := updateWord s.sys } := rfl

@[simp] theorem exec_j2Profile : exec .j2Profile s = .next { s with sys := takeProfile s.sys } := rfl

@[simp] theorem exec_turnPhaseDone (arrived : List Arrived) :
    exec (.turnPhaseDone arrived) s = .next { s with sys := (onData (turnPhaseDone (envOf s.sys) arrived) s.sys) } :=
      rfl

@[simp] theorem exec_turnComplete :
    exec .turnComplete s = .next { s with sys := onData (turnComplete (envOf s.sys)) s.sys } := rfl

@[simp] theorem exec_turnFailed (cause : TurnFault) :
    exec (.turnFailed cause) s = .next { s with sys := onData (turnFailed (envOf s.sys) cause) s.sys } := rfl

@[simp] theorem exec_checkpointCaptured :
    exec .checkpointCaptured s = .next { s with sys := onData (checkpointCaptured (envOf s.sys)) s.sys } := rfl

@[simp] theorem exec_turnDue : exec .turnDue s = .next { s with sys := turnDue s.sys } := rfl

@[simp] theorem exec_frameBoundary (f : FrameMeas) :
    exec (.frameBoundary f) s = .next { s with sys := frameBoundary f s.sys } := rfl

@[simp] theorem exec_forecastRecompute :
    exec .forecastRecompute s = .next { s with sys := recomputeForecast s.sys } := rfl

@[simp] theorem exec_energyWrite : exec .energyWrite s = .next { s with sys := energyWrite s.sys } := rfl

@[simp] theorem exec_inletClose (behind inlet reached : Nat) :
    exec (.inletClose behind inlet reached) s = .next { s with sys := (inletClose behind inlet reached s.sys) } := rfl

@[simp] theorem exec_prechargeTimeout :
    exec .prechargeTimeout s = .next { s with sys := prechargeTimeout s.sys } := rfl

@[simp] theorem exec_inletOpen : exec .inletOpen s = .next { s with sys := inletOpen s.sys } := rfl

@[simp] theorem exec_inputOutOfRange : exec .inputOutOfRange s = .next { s with sys := inputOutOfRange s.sys } := rfl

@[simp] theorem exec_inputLoss (meas : InletMeas) :
    exec (.inputLoss meas) s = .next { s with sys := inputLoss meas s.sys } := rfl

@[simp] theorem exec_inletRecovered : exec .inletRecovered s = .next { s with sys := inletRecovered s.sys } := rfl

@[simp] theorem exec_converterFault (block : Fin 4) :
    exec (.converterFault block) s = .next { s with sys := converterFault block s.sys } := rfl

@[simp] theorem exec_converterRestart (block : Fin 4) :
    exec (.converterRestart block) s = .next { s with sys := converterRestart block s.sys } := rfl

@[simp] theorem exec_busUndervoltage (mv us : Nat) :
    exec (.busUndervoltage mv us) s = .next { s with sys := busUndervoltage mv us s.sys } := rfl

@[simp] theorem exec_busUndervoltageClear :
    exec .busUndervoltageClear s = .next { s with sys := busUndervoltageClear s.sys } := rfl

@[simp] theorem exec_phaseDisable (field : FieldIx) (phase : Fin 18) :
    exec (.phaseDisable field phase) s = .next { s with sys := phaseDisable field phase s.sys } := rfl

@[simp] theorem exec_domainEnable (d : Fin 1404) :
    exec (.domainEnable d) s = .next { s with sys := domainEnable d s.sys } := rfl

@[simp] theorem exec_domainFault (d : Fin 1404) :
    exec (.domainFault d) s = .next { s with sys := domainFault d s.sys } := rfl

@[simp] theorem exec_domainForce (target : Fin 32) (who : Requester) (tag : BitVec 16) (v : W32) :
    exec (.domainForce target who tag v) s = .next { s with sys := (wholeWrite target who tag.toNat Ent.domainForce
      (natLe 4 v.toNat) s.sys) } := rfl

@[simp] theorem exec_powerOrderWrite (target : Fin 32) (who : Requester) (tag : BitVec 16) (v : Byte) :
    exec (.powerOrderWrite target who tag v) s = .next { s with sys := (wholeWrite target who tag.toNat
      Ent.powerOrder (natLe 1 v.toNat) s.sys) } := rfl

@[simp] theorem exec_powerOrderAct : exec .powerOrderAct s = .next { s with sys := powerOrderAct s.sys } := rfl

@[simp] theorem exec_envelopeWrite (target : Fin 32) (who : Requester) (tag : BitVec 16) (v : List Byte) :
    exec (.envelopeWrite target who tag v) s = .next { s with sys := (wholeWrite target who tag.toNat Ent.envelope
      (v) s.sys) } := rfl

@[simp] theorem exec_sensorConversion (rs : List (SensorId × Reading)) :
    exec (.sensorConversion rs) s = .next { s with sys := convert rs s.sys } := rfl

@[simp] theorem exec_pairDisagree (tile : TileIx) :
    exec (.pairDisagree tile) s = .next { s with sys := pairDisagree tile s.sys } := rfl

@[simp] theorem exec_pairSuspect (tile : TileIx) :
    exec (.pairSuspect tile) s = .next { s with sys := pairSuspect tile s.sys } := rfl

@[simp] theorem exec_pairAgree (tile : TileIx) :
    exec (.pairAgree tile) s = .next { s with sys := pairAgree tile s.sys } := rfl

@[simp] theorem exec_maskSensor (target : Fin 32) (who : Requester) (tag : BitVec 16) (challenge : W32) (complement :
      W64) :
    exec (.maskSensor target who tag challenge complement) s = .next { s with sys := (confirmWrite target who
      tag.toNat Ent.maskSensor challenge complement s.sys) } := rfl

@[simp] theorem exec_coolantPeriodStart :
    exec .coolantPeriodStart s = .next { s with sys := periodStart s.sys } := rfl

@[simp] theorem exec_flowMarginEval : exec .flowMarginEval s = .next { s with sys := flowMarginEval s.sys } := rfl

@[simp] theorem exec_flowStop : exec .flowStop s = .next { s with sys := flowStop s.sys } := rfl

@[simp] theorem exec_flowRestored : exec .flowRestored s = .next { s with sys := flowRestored s.sys } := rfl

@[simp] theorem exec_thermalStepRise : exec .thermalStepRise s = .next { s with sys := thermalRise s.sys } := rfl

@[simp] theorem exec_thermalThrottle : exec .thermalThrottle s = .next { s with sys := thermalThrottle s.sys } := rfl

@[simp] theorem exec_thermalStepLower : exec .thermalStepLower s = .next { s with sys := thermalLower s.sys } := rfl

@[simp] theorem exec_converterOvertemp (block : Fin 4) :
    exec (.converterOvertemp block) s = .next { s with sys := converterOvertemp block s.sys } := rfl

@[simp] theorem exec_inletTempOutOfRange :
    exec .inletTempOutOfRange s = .next { s with sys := inletTemp s.sys } := rfl

@[simp] theorem exec_leakSample (b : Bool) (g : Nat) :
    exec (.leakSample b g) s = .next { s with sys := leakSample b g s.sys } := rfl

@[simp] theorem exec_leakChannelFault (b : Bool) :
    exec (.leakChannelFault b) s = .next { s with sys := leakFault b s.sys } := rfl

@[simp] theorem exec_bankTrip (bank : Fin 5) (us : Nat) (own : Bool) :
    exec (.bankTrip bank us own) s = .next { s with sys := bankTrip bank us own s.sys } := rfl

@[simp] theorem exec_bankRetry (bank : Fin 5) :
    exec (.bankRetry bank) s = .next { s with sys := bankRetry bank s.sys } := rfl

@[simp] theorem exec_pullinStart (c : Fin 20) :
    exec (.pullinStart c) s = .next { s with sys := pullinStart (chanKey s.sys c) s.sys } := rfl

@[simp] theorem exec_pullinRegulationEnd (c : Fin 20) :
    exec (.pullinRegulationEnd c) s = .next { s with sys := regulationEnd (chanKey s.sys c) s.sys } := rfl

@[simp] theorem exec_fastDecayEnd (c : Fin 20) (samples : List Nat) :
    exec (.fastDecayEnd c samples) s = .next { s with sys := decayEnd (chanKey s.sys c) samples s.sys } := rfl

@[simp] theorem exec_openCoilCheck (c : Fin 20) (ma : Nat) :
    exec (.openCoilCheck c ma) s = .next { s with sys := openCoil (chanKey s.sys c) ma s.sys } := rfl

@[simp] theorem exec_coilShort (c : Fin 20) (ma : Nat) :
    exec (.coilShort c ma) s = .next { s with sys := coilShort (chanKey s.sys c) ma s.sys } := rfl

@[simp] theorem exec_movementRetry (c : Fin 20) :
    exec (.movementRetry c) s = .next { s with sys := movementRetry (chanKey s.sys c) s.sys } := rfl

@[simp] theorem exec_zoneWindowStart (z : ZoneIx) :
    exec (.zoneWindowStart z) s = .next { s with sys := windowStart z s.sys } := rfl

@[simp] theorem exec_zoneWindowEnd (z : ZoneIx) :
    exec (.zoneWindowEnd z) s = .next { s with sys := windowEnd z s.sys } := rfl

@[simp] theorem exec_stuckOpenCheck (z : ZoneIx) :
    exec (.stuckOpenCheck z) s = .next { s with sys := stuckOpen z s.sys } := rfl

@[simp] theorem exec_zoneForce (z : ZoneIx) : exec (.zoneForce z) s = .next { s with sys := forceZone z s.sys } := rfl

@[simp] theorem exec_valveRetest (z : ZoneIx) :
    exec (.valveRetest z) s = .next { s with sys := valveRetest z s.sys } := rfl

@[simp] theorem exec_valveFaultClear (target : Fin 32) (who : Requester) (tag : BitVec 16) (challenge : W32)
      (complement : W64) :
    exec (.valveFaultClear target who tag challenge complement) s = .next { s with sys := (confirmWrite target who
      tag.toNat Ent.valveFaultClear challenge complement s.sys) } := rfl

@[simp] theorem exec_manifoldProfile (target : Fin 32) (who : Requester) (tag : BitVec 16) (challenge : W32)
      (complement : W64) :
    exec (.manifoldProfile target who tag challenge complement) s = .next { s with sys := (confirmWrite target who
      tag.toNat Ent.manifoldProfile challenge complement s.sys) } := rfl

@[simp] theorem exec_driveLoop (rpm : List Nat) :
    exec (.driveLoop rpm) s = .next { s with sys := driveLoop rpm s.sys } := rfl

@[simp] theorem exec_targetStep (unit : DriveNo) (pct : Fin 101) :
    exec (.targetStep unit pct) s = .next { s with sys := targetStep unit.code pct s.sys } := rfl

@[simp] theorem exec_unitStartCheck (unit : DriveNo) (pulses : Bool) :
    exec (.unitStartCheck unit pulses) s = .next { s with sys := unitStartCheck unit.code pulses s.sys } := rfl

@[simp] theorem exec_tachLoss (unit : DriveNo) (ms : Nat) :
    exec (.tachLoss unit ms) s = .next { s with sys := tachLoss unit.code ms s.sys } := rfl

@[simp] theorem exec_tachRecover (unit : DriveNo) :
    exec (.tachRecover unit) s = .next { s with sys := tachRecover unit.code s.sys } := rfl

@[simp] theorem exec_unitFaultClear (target : Fin 32) (who : Requester) (tag : BitVec 16) (challenge : W32)
      (complement : W64) :
    exec (.unitFaultClear target who tag challenge complement) s = .next { s with sys := (confirmWrite target who
      tag.toNat Ent.unitFaultClear challenge complement s.sys) } := rfl

@[simp] theorem exec_sequencerScheduleWrite (sch : Schedule) :
    exec (.sequencerScheduleWrite sch) s = .next { s with sys := (if skourUp s.sys then writeSchedule sch s.sys else
      s.sys) } := rfl

@[simp] theorem exec_lockstepMismatch (pair : Fin 2) :
    exec (.lockstepMismatch pair) s = .next { s with sys := lockstepMismatch pair s.sys } := rfl

@[simp] theorem exec_pairSelftestDone (pair : Fin 2) (pass : Bool) :
    exec (.pairSelftestDone pair pass) s = .next { s with sys := pairSelftest pair pass s.sys } := rfl

@[simp] theorem exec_pairRestore (target : Fin 32) (who : Requester) (tag : BitVec 16) (challenge : W32) (complement
      : W64) :
    exec (.pairRestore target who tag challenge complement) s = .next { s with sys := (confirmWrite target who
      tag.toNat Ent.pairRestore challenge complement s.sys) } := rfl

@[simp] theorem exec_oscFault (b lost : Bool) :
    exec (.oscFault b lost) s = .next { s with sys := oscFault b lost s.sys } := rfl

@[simp] theorem exec_oscRevert (cycles : Nat) :
    exec (.oscRevert cycles) s = .next { s with sys := oscRevert cycles s.sys } := rfl

@[simp] theorem exec_oscRevertClear (target : Fin 32) (who : Requester) (tag : BitVec 16) (challenge : W32)
      (complement : W64) :
    exec (.oscRevertClear target who tag challenge complement) s = .next { s with sys := (confirmWrite target who
      tag.toNat Ent.oscRevertClear challenge complement s.sys) } := rfl

@[simp] theorem exec_powerApplied (found : PowerFound) :
    exec (.powerApplied found) s = .next { s with sys := powerApplied found s.sys } := rfl

@[simp] theorem exec_coldStart (found : List StepFound) :
    exec (.coldStart found) s = .next { s with sys := runStart true found s.sys } := rfl

@[simp] theorem exec_warmStart (found : List StepFound) :
    exec (.warmStart found) s = .next { s with sys := runStart false found s.sys } := rfl

@[simp] theorem exec_startStepDone (found : StepFound) :
    exec (.startStepDone found) s = .next { s with sys := stepDone found s.sys } := rfl

@[simp] theorem exec_startStepFail (timeout : Bool) :
    exec (.startStepFail timeout) s = .next { s with sys := stepFail timeout s.sys } := rfl

@[simp] theorem exec_serviceOrder (target : Fin 32) (who : Requester) (tag : BitVec 16) (challenge : W32) (complement
      : W64) :
    exec (.serviceOrder target who tag challenge complement) s = .next { s with sys := (confirmWrite target who
      tag.toNat Ent.serviceOrder challenge complement s.sys) } := rfl

@[simp] theorem exec_mgmtRestart (target : Fin 32) (who : Requester) (tag : BitVec 16) (v : Byte) :
    exec (.mgmtRestart target who tag v) s = .next { s with sys := (wholeWrite target who tag.toNat Ent.mgmtRestart
      (natLe 1 v.toNat) s.sys) } := rfl

@[simp] theorem exec_mgmtWarmStart (passA passB : Bool) (store : StoreFound) :
    exec (.mgmtWarmStart passA passB store) s = .next { s with sys := (mgmtWarmStart passA passB store s.sys) } := rfl

@[simp] theorem exec_retainedWrite (records : Bool) :
    exec (.retainedWrite records) s = .next { s with sys := retainedWrite records s.sys } := rfl

@[simp] theorem exec_restoreFactory (target : Fin 32) (who : Requester) (tag : BitVec 16) (challenge : W32)
      (complement : W64) :
    exec (.restoreFactory target who tag challenge complement) s = .next { s with sys := (confirmWrite target who
      tag.toNat Ent.restoreFactory challenge complement s.sys) } := rfl

@[simp] theorem exec_retireTile (target : Fin 32) (who : Requester) (tag : BitVec 16) (v : BitVec 16) :
    exec (.retireTile target who tag v) s = .next { s with sys := (wholeWrite target who tag.toNat Ent.retireTile
      (natLe 2 v.toNat) s.sys) } := rfl

@[simp] theorem exec_restoreTile (target : Fin 32) (who : Requester) (tag : BitVec 16) (challenge : W32) (complement
      : W64) :
    exec (.restoreTile target who tag challenge complement) s = .next { s with sys := (confirmWrite target who
      tag.toNat Ent.restoreTile challenge complement s.sys) } := rfl

@[simp] theorem exec_rackAliveTimeout :
    exec .rackAliveTimeout s = .next { s with sys := rackAliveTimeout s.sys } := rfl

@[simp] theorem exec_rackHold (target : Fin 32) (who : Requester) (tag : BitVec 16) (v : Byte) :
    exec (.rackHold target who tag v) s = .next { s with sys := (wholeWrite target who tag.toNat Ent.rackHold (natLe
      1 v.toNat) s.sys) } := rfl

@[simp] theorem exec_safetyAlarm (a : AlarmFrame) :
    exec (.safetyAlarm a) s = .next { s with sys := safetyAlarm a s.sys } := rfl

@[simp] theorem exec_alarmRepeat (seq : BitVec 16) :
    exec (.alarmRepeat seq) s = .next { s with sys := alarmRepeat seq.toNat s.sys } := rfl

@[simp] theorem exec_reference (c : Fin 2) (ts tr : W64) (src : Fin 3) (idle : Bool) :
    exec (.reference c ts tr src idle) s = .next { s with sys := referenceIn c ts tr src idle s.sys } := rfl

@[simp] theorem exec_referenceSend (c : Fin 2) (loop : Nat) :
    exec (.referenceSend c loop) s = .next { s with sys := referenceSend c loop s.sys } := rfl

@[simp] theorem exec_rackHeartbeat (c : Fin 2) (source : Fin 32) :
    exec (.rackHeartbeat c source) s = .next { s with sys := rackHeartbeat c source s.sys } := rfl

@[simp] theorem exec_statusSend (c : Fin 2) (w : Fin 16) (idle loop : Nat) :
    exec (.statusSend c w idle loop) s = .next { s with sys := statusSend c w idle loop s.sys } := rfl

@[simp] theorem exec_exclusiveWindowMissed (c : Fin 2) (w : Fin 16) (idle : Nat) :
    exec (.exclusiveWindowMissed c w idle) s = .next { s with sys := windowMissed c w idle s.sys } := rfl

@[simp] theorem exec_eventMessageSend : exec .eventMessageSend s = .next { s with sys := eventSend s.sys } := rfl

@[simp] theorem exec_freeRunningTimeout :
    exec .freeRunningTimeout s = .next { s with sys := freeRunningTimeout s.sys } := rfl

@[simp] theorem exec_timeSourceChange :
    exec .timeSourceChange s = .next { s with sys := timeSourceChange s.sys } := rfl

@[simp] theorem exec_dictRead (q : DictCall) :
    exec (.dictRead q) s = .next { s with sys := dictionary 1 q s.sys } := rfl

@[simp] theorem exec_dictWrite (q : DictCall) :
    exec (.dictWrite q) s = .next { s with sys := dictionary 2 q s.sys } := rfl

@[simp] theorem exec_safetyFirstStep (q : DictCall) :
    exec (.safetyFirstStep q) s = .next { s with sys := dictionary 3 q s.sys } := rfl

@[simp] theorem exec_safetyConfirm (q : DictCall) :
    exec (.safetyConfirm q) s = .next { s with sys := dictionary 4 q s.sys } := rfl

@[simp] theorem exec_readSegment (q : DictCall) :
    exec (.readSegment q) s = .next { s with sys := dictionary 5 q s.sys } := rfl

@[simp] theorem exec_writeSegment (q : DictCall) :
    exec (.writeSegment q) s = .next { s with sys := dictionary 6 q s.sys } := rfl

@[simp] theorem exec_dictAbort (q : DictCall) :
    exec (.dictAbort q) s = .next { s with sys := dictionary 7 q s.sys } := rfl

@[simp] theorem exec_transferIdleTimeout (who : Requester) (tag : BitVec 16) :
    exec (.transferIdleTimeout who tag) s = .next { s with sys := transferTimeout who tag.toNat s.sys } := rfl

@[simp] theorem exec_safetyWindowExpire (index : BitVec 16) (sub : Byte) :
    exec (.safetyWindowExpire index sub) s = .next { s with sys := (safetyExpire index.toNat sub.toNat s.sys) } := rfl

@[simp] theorem exec_flagClear (target : Fin 32) (who : Requester) (tag : BitVec 16) (index : BitVec 16) (sub group :
      Byte) (mask : W64) :
    exec (.flagClear target who tag index sub group mask) s = .next { s with sys := (wholeWrite target who tag.toNat
      Ent.flagClear (natLe 2 index.toNat ++ natLe 1 sub.toNat ++ natLe 1 group.toNat ++ natLe 8 mask.toNat) s.sys) }
      := rfl

@[simp] theorem exec_authorityTable (target : Fin 32) (who : Requester) (tag : BitVec 16) (v : List Byte) :
    exec (.authorityTable target who tag v) s = .next { s with sys := (wholeWrite target who tag.toNat
      Ent.authorityTable (v) s.sys) } := rfl

@[simp] theorem exec_mgmtDatagram (addr : BitVec 128) (port : BitVec 16) (bs : List Byte) :
    exec (.mgmtDatagram addr port bs) s = .next { s with sys := (mgmtDatagram addr.toNat port.toNat bs s.sys) } := rfl

@[simp] theorem exec_rateDetectDwell (c : Fin 2) (edges : Bool) :
    exec (.rateDetectDwell c edges) s = .next { s with sys := rateDwell c edges s.sys } := rfl

@[simp] theorem exec_rateFound (c : Fin 2) (brsFails : Bool) :
    exec (.rateFound c brsFails) s = .next { s with sys := rateFound c brsFails s.sys } := rfl

@[simp] theorem exec_rateDetectTimeout (c : Fin 2) :
    exec (.rateDetectTimeout c) s = .next { s with sys := rateTimeout c s.sys } := rfl

@[simp] theorem exec_busOff (c : Fin 2) (tec : Nat) :
    exec (.busOff c tec) s = .next { s with sys := busOff c tec s.sys } := rfl

@[simp] theorem exec_busOffRecovery (c : Fin 2) :
    exec (.busOffRecovery c) s = .next { s with sys := busRecovered c s.sys } := rfl

@[simp] theorem exec_errorPassive (c : Fin 2) (tec rec_ : Nat) :
    exec (.errorPassive c tec rec_) s = .next { s with sys := errorPassive c tec rec_ s.sys } := rfl

@[simp] theorem exec_addressCollision (c : Fin 2) (by_ : CollisionBy) :
    exec (.addressCollision c by_) s = .next { s with sys := addressCollision c by_ s.sys } := rfl

@[simp] theorem exec_messageCancel (c : Fin 2) (n : Nat) (meets : CancelMeets) :
    exec (.messageCancel c n meets) s = .next { s with sys := cancelMessage c n meets s.sys } := rfl

@[simp] theorem exec_channelRestart (target : Fin 32) (who : Requester) (tag : BitVec 16) (v : Byte) :
    exec (.channelRestart target who tag v) s = .next { s with sys := (wholeWrite target who tag.toNat
      Ent.channelRestart (natLe 1 v.toNat) s.sys) } := rfl

@[simp] theorem exec_collisionClear (target : Fin 32) (who : Requester) (tag : BitVec 16) (v : Byte) :
    exec (.collisionClear target who tag v) s = .next { s with sys := (wholeWrite target who tag.toNat
      Ent.collisionClear (natLe 1 v.toNat) s.sys) } := rfl

@[simp] theorem exec_nodeAddress (target : Fin 32) (who : Requester) (tag : BitVec 16) (v : Byte) :
    exec (.nodeAddress target who tag v) s = .next { s with sys := (wholeWrite target who tag.toNat Ent.nodeAddress
      (natLe 1 v.toNat) s.sys) } := rfl

@[simp] theorem exec_matrix (target : Fin 32) (who : Requester) (tag : BitVec 16) (v : List Byte) :
    exec (.matrix target who tag v) s = .next { s with sys := (wholeWrite target who tag.toNat Ent.matrix (v) s.sys)
      } := rfl

@[simp] theorem exec_gnomonNode (target : Fin 32) (who : Requester) (tag : BitVec 16) (v : Byte) :
    exec (.gnomonNode target who tag v) s = .next { s with sys := (wholeWrite target who tag.toNat Ent.gnomonNode
      (natLe 1 v.toNat) s.sys) } := rfl

@[simp] theorem exec_ptpSync (offset : Int) :
    exec (.ptpSync offset) s = .next { s with sys := ptpSync offset s.sys } := rfl

@[simp] theorem exec_ptpSyncTimeout : exec .ptpSyncTimeout s = .next { s with sys := ptpTimeout s.sys } := rfl

@[simp] theorem exec_sf1LeakCut (b : Bool) : exec (.sf1LeakCut b) s = .next { s with sys := sf1 b s.sys } := rfl

@[simp] theorem exec_sf2FlowNotRestored : exec .sf2FlowNotRestored s = .next { s with sys := sf2 s.sys } := rfl

@[simp] theorem exec_sf3OverTemperature (stack : Bool) :
    exec (.sf3OverTemperature stack) s = .next { s with sys := sf3 stack s.sys } := rfl

@[simp] theorem exec_sf4BusProtection (voltage : Bool) (measured us : Nat) :
    exec (.sf4BusProtection voltage measured us) s = .next { s with sys := (sf4 voltage measured us s.sys) } := rfl

@[simp] theorem exec_busCurrentRecheck (amps : Nat) :
    exec (.busCurrentRecheck amps) s = .next { s with sys := busRecheck amps s.sys } := rfl

@[simp] theorem exec_sf5InletProtection (current : Bool) (measured us : Nat) :
    exec (.sf5InletProtection current measured us) s = .next { s with sys := (sf5 current measured us s.sys) } := rfl

@[simp] theorem exec_sf6SkourSupervision : exec .sf6SkourSupervision s = .next { s with sys := sf6 s.sys } := rfl

@[simp] theorem exec_skourSilentInletOpen :
    exec .skourSilentInletOpen s = .next { s with sys := skourSilent s.sys } := rfl

@[simp] theorem exec_sf7TrayPowerOff (present : Bool) (us : Nat) :
    exec (.sf7TrayPowerOff present us) s = .next { s with sys := sf7 present us s.sys } := rfl

@[simp] theorem exec_trayClosed : exec .trayClosed s = .next { s with sys := trayClosed s.sys } := rfl

@[simp] theorem exec_sf8SafetySensingLost (lost : SensingLost) :
    exec (.sf8SafetySensingLost lost) s = .next { s with sys := sf8 lost s.sys } := rfl

@[simp] theorem exec_safeStopInletOpen :
    exec .safeStopInletOpen s = .next { s with sys := safeStopInlet s.sys } := rfl

@[simp] theorem exec_watchdogExpiry : exec .watchdogExpiry s = .next { s with sys := watchdogExpiry s.sys } := rfl

@[simp] theorem exec_supervisorTimeout : exec .supervisorTimeout s = .next { s with sys := supervisor s.sys } := rfl

@[simp] theorem exec_safeStopExit (target : Fin 32) (who : Requester) (tag : BitVec 16) (challenge : W32) (complement
      : W64) :
    exec (.safeStopExit target who tag challenge complement) s = .next { s with sys := (confirmWrite target who
      tag.toNat Ent.safeStopExit challenge complement s.sys) } := rfl

@[simp] theorem exec_leakCutExit (target : Fin 32) (who : Requester) (tag : BitVec 16) (challenge : W32) (complement
      : W64) :
    exec (.leakCutExit target who tag challenge complement) s = .next { s with sys := (confirmWrite target who
      tag.toNat Ent.leakCutExit challenge complement s.sys) } := rfl

@[simp] theorem exec_uartS : exec .uartS s = .next { s with sys := answerUart uartS s.sys } := rfl

@[simp] theorem exec_uartJ : exec .uartJ s = .next { s with sys := answerUart (fun y => uartJ y.sill) s.sys } := rfl

@[simp] theorem exec_uartV : exec .uartV s = .next { s with sys := answerUart uartV s.sys } := rfl

@[simp] theorem exec_auxPowerLoss : exec .auxPowerLoss s = .next { s with sys := auxPowerLoss s.sys } := rfl

@[simp] theorem exec_hostPortRetrain (engine : Fin 4) (failed : Option (Fin 8)) :
    exec (.hostPortRetrain engine failed) s = .next { s with sys := (if (hostOf s.sys.data engine).on then onData
      (portRetrain engine (failed.map Fin.val) (getE s.sys Ent.hostPfcPriority)) s.sys else s.sys) } := rfl

@[simp] theorem exec_hostPortOtherFrame (engine : Fin 4) (frame : OtherFrame) :
    exec (.hostPortOtherFrame engine frame) s = .next { s with sys := (if (hostOf s.sys.data engine).on then onData
      (otherFrame engine frame) s.sys else s.sys) } := rfl

@[simp] theorem exec_evcntWrap (tile : TileIx) (n : Fin 8) (k : Nat) :
    exec (.evcntWrap tile n k) s = .next { s with sys := (tileEdit tile (fun _ u => wrapEvcnt n k u) s.sys) } := rfl

@[simp] theorem exec_movementCrossCheck (c : Fin 20) :
    exec (.movementCrossCheck c) s = .next { s with sys := crossCheck (chanKey s.sys c) s.sys } := rfl

@[simp] theorem exec_pairResyncDone (pair : Fin 2) :
    exec (.pairResyncDone pair) s = .next { s with sys := pairResynced pair s.sys } := rfl

@[simp] theorem exec_oscGood (b : Bool) : exec (.oscGood b) s = .next { s with sys := oscGood b s.sys } := rfl

@[simp] theorem exec_bestMasterChange (master : W64) :
    exec (.bestMasterChange master) s = .next { s with sys := bestMaster master s.sys } := rfl

@[simp] theorem exec_rackBusFrameIgnored (ident : BitVec 29) :
    exec (.rackBusFrameIgnored ident) s = .next { s with sys := frameIgnored ident s.sys } := rfl

/-- Every command answers a next state: none faults and none is refused. The queue is as it was. -/
theorem exec_answers (c : Instr) : ∃ x, exec c s = .next { s with sys := x } := by
  cases c <;> exact ⟨_, rfl⟩

/-- A step with a command waiting runs it on the queue's rest. -/
theorem step_cons (c : Instr) (rest : List Instr) (h : s.pending = c :: rest) :
    step s = exec c { s with pending := rest } := by
  simp [step, h]

/-- On an empty queue a step changes nothing. -/
theorem step_nil (h : s.pending = []) : step s = .next s := by
  simp [step, h]

/-- What a step can do: idle on an empty queue, or run the front command on the rest of the queue. -/
theorem step_cases {t : State} (h : step s = .next t) :
    (s.pending = [] ∧ t = s) ∨
      ∃ c rest, s.pending = c :: rest ∧ exec c { s with pending := rest } = .next t ∧ t.pending = rest := by
  cases hp : s.pending with
  | nil =>
    rw [step_nil s hp] at h
    cases h
    exact .inl ⟨rfl, rfl⟩
  | cons c rest =>
    rw [step_cons s c rest hp] at h
    obtain ⟨x, hx⟩ := exec_answers { s with pending := rest } c
    refine .inr ⟨c, rest, rfl, h, ?_⟩
    rw [hx] at h
    cases h
    rfl

end Sys2Proof.Machine
end

