-- ==== Sys2Proof/Laws/Maps.lean ====
section
/-!
SUPPORT. Sparse maps and byte memories: a read after a write at the same key gives the value written, a write leaves every
other key as it was, and every operation keeps the canonical form.
-/

namespace Sys2Proof.Machine

variable {α : Type}

/-! ### Reading after writing -/

@[simp] theorem look_nil (d : α) (k : Nat) : look d [] k = d := rfl

@[simp] theorem look_drop_self (d : α) (m : SMap α) (k : Nat) : look d (drop m k) k = d := by
  induction m with
  | nil => rfl
  | cons e m ih =>
    obtain ⟨j, v⟩ := e
    by_cases h : j = k
    · simpa [drop, h] using ih
    · simpa [drop, h, look, Ne.symm h] using ih

theorem look_drop_of_ne (d : α) (m : SMap α) {k i : Nat} (h : i ≠ k) : look d (drop m k) i = look d m i := by
  induction m with
  | nil => rfl
  | cons e m ih =>
    obtain ⟨j, v⟩ := e
    by_cases hj : j = k
    · have hi : i ≠ j := fun hh => h (hh.trans hj)
      simpa [drop, hj, look, h] using ih
    · by_cases hi : i = j
      · simp [drop, hj, look, hi]
      · simpa [drop, hj, look, hi] using ih

@[simp] theorem look_insertKey_self (d : α) (m : SMap α) (k : Nat) (v : α) : look d (insertKey m k v) k = v := by
  induction m with
  | nil => simp [insertKey, look]
  | cons e m ih =>
    obtain ⟨j, w⟩ := e
    unfold insertKey
    split
    · simp [look]
    · rename_i hne
      split
      · simp [look]
      · simpa [look, hne] using ih

theorem look_insertKey_of_ne (d : α) (m : SMap α) (v : α) {k i : Nat} (h : i ≠ k) :
    look d (insertKey m k v) i = look d m i := by
  induction m with
  | nil => simp [insertKey, look, h]
  | cons e m ih =>
    obtain ⟨j, w⟩ := e
    unfold insertKey
    split
    · rename_i hk
      simp [look, h, hk ▸ h]
    · split
      · simp [look, h]
      · by_cases hi : i = j
        · simp [look, hi]
        · simpa [look, hi] using ih

variable [DecidableEq α]

@[simp] theorem look_put_self (d : α) (m : SMap α) (k : Nat) (v : α) : look d (put d m k v) k = v := by
  unfold put
  split
  · rename_i h
    simp [h]
  · simp

/-- Another key reads as before, under whichever default it is read. -/
theorem look_put_of_ne (d e : α) (m : SMap α) (v : α) {k i : Nat} (h : i ≠ k) : look d (put e m k v) i = look d m i := by
  unfold put
  split
  · exact look_drop_of_ne d m h
  · exact look_insertKey_of_ne d m v h

/-- A write, read at any key. -/
theorem look_put (d : α) (m : SMap α) (k i : Nat) (v : α) : look d (put d m k v) i = if i = k then v else look d m i := by
  split
  · rename_i h
    simp [h]
  · rename_i h
    exact look_put_of_ne d d m v h

@[simp] theorem look_upd_self (d : α) (m : SMap α) (k : Nat) (f : α → α) : look d (upd d m k f) k = f (look d m k) := by
  simp [upd]

theorem look_upd_of_ne (d : α) (m : SMap α) (f : α → α) {k i : Nat} (h : i ≠ k) : look d (upd d m k f) i = look d m i :=
  look_put_of_ne d d m _ h

/-! ### The canonical form -/

/-- Every key of a canonical map lies above its bound. -/
theorem wfFrom_lt {d : α} {l : Nat} {m : SMap α} (h : wfFrom d (some l) m = true) : ∀ e ∈ m, l < e.1 := by
  induction m generalizing l with
  | nil => intro e he; cases he
  | cons e m ih =>
    simp only [wfFrom, Bool.and_eq_true, decide_eq_true_eq] at h
    intro a ha
    rcases List.mem_cons.1 ha with rfl | ha
    · exact h.1.1
    · exact h.1.1.trans (ih h.2 a ha)

/-- A map whose keys lie above a bound is canonical from it when it is canonical. -/
theorem wfFrom_bound {d : α} {m : SMap α} {lo lo' : Option Nat} (h : wfFrom d lo m = true)
    (hl : ∀ l, lo' = some l → ∀ e ∈ m, l < e.1) : wfFrom d lo' m = true := by
  cases m with
  | nil => cases lo' <;> rfl
  | cons e m =>
    cases lo' with
    | none => cases lo <;> simp_all [wfFrom]
    | some l =>
      have := hl l rfl e (by simp)
      cases lo <;> simp_all [wfFrom]

theorem wfFrom_drop (d : α) (k : Nat) {lo : Option Nat} {m : SMap α} (h : wfFrom d lo m = true) :
    wfFrom d lo (drop m k) = true := by
  induction m generalizing lo with
  | nil => exact h
  | cons e m ih =>
    have hm : wfFrom d (some e.1) m = true := by
      cases lo <;> simp only [wfFrom, Bool.and_eq_true] at h <;> exact h.2
    by_cases hk : e.1 = k
    · have he : drop (e :: m) k = drop m k := by simp [drop, hk]
      rw [he]
      refine wfFrom_bound (ih hm) ?_
      rintro l rfl a ha
      exact wfFrom_lt h a (List.mem_cons_of_mem _ (List.mem_filter.1 ha).1)
    · have he : drop (e :: m) k = e :: drop m k := by simp [drop, hk]
      rw [he]
      cases lo <;> simp only [wfFrom, Bool.and_eq_true] at h ⊢ <;> exact ⟨h.1, ih h.2⟩

theorem wfFrom_insertKey {d : α} (k : Nat) {v : α} (hv : v ≠ d) {lo : Option Nat} {m : SMap α} (h : wfFrom d lo m = true)
    (hk : ∀ l, lo = some l → l < k) : wfFrom d lo (insertKey m k v) = true := by
  induction m generalizing lo with
  | nil => cases lo <;> simp_all [insertKey, wfFrom]
  | cons e m ih =>
    obtain ⟨j, w⟩ := e
    have hm : wfFrom d (some j) m = true := by
      cases lo <;> simp only [wfFrom, Bool.and_eq_true] at h <;> exact h.2
    unfold insertKey
    split
    · rename_i hj
      cases lo <;> simp_all [wfFrom]
    · split
      · cases lo <;> simp_all [wfFrom]
      · have hj : j < k := by omega
        have := ih hm (fun l hl => Option.some.inj hl ▸ hj)
        cases lo <;> simp_all [wfFrom]

/-- Every write keeps the canonical form. -/
theorem put_mapWf (d : α) (m : SMap α) (k : Nat) (v : α) (h : mapWf d m = true) : mapWf d (put d m k v) = true := by
  unfold put
  split
  · exact wfFrom_drop d k h
  · rename_i hv
    exact wfFrom_insertKey k hv h (fun l hl => by cases hl)

theorem upd_mapWf (d : α) (m : SMap α) (k : Nat) (f : α → α) (h : mapWf d m = true) : mapWf d (upd d m k f) = true :=
  put_mapWf d m k _ h

/-! ### Byte memories -/

@[simp] theorem readByte_writeByte_self (m : Memory) (a : Nat) (b : Byte) : readByte (writeByte m a b) a = b :=
  look_put_self 0 m a b

theorem readByte_writeByte_of_ne (m : Memory) (b : Byte) {a i : Nat} (h : i ≠ a) :
    readByte (writeByte m a b) i = readByte m i := look_put_of_ne 0 0 m b h

/-- Writing a byte string leaves every byte outside it as it was. -/
theorem readByte_writeBytes_of_out (bs : List Byte) (m : Memory) (a i : Nat) (h : i < a ∨ a + bs.length ≤ i) :
    readByte (writeBytes m a bs) i = readByte m i := by
  induction bs generalizing m a with
  | nil => rfl
  | cons b bs ih =>
    simp only [List.length_cons] at h
    rw [writeBytes, ih _ _ (by omega)]
    exact readByte_writeByte_of_ne m b (by omega)

/-- A byte of a byte string reads back. -/
theorem readByte_writeBytes (bs : List Byte) (m : Memory) (a i : Nat) (h : i < bs.length) :
    readByte (writeBytes m a bs) (a + i) = bs[i] := by
  induction bs generalizing m a i with
  | nil => simp at h
  | cons b bs ih =>
    cases i with
    | zero =>
      rw [writeBytes, readByte_writeBytes_of_out _ _ _ _ (by omega)]
      simp
    | succ i =>
      have := ih (writeByte m a b) (a + 1) i (by simpa using h)
      rw [show a + 1 + i = a + (i + 1) by omega] at this
      simpa [writeBytes] using this

@[simp] theorem readBytes_length (m : Memory) (a n : Nat) : (readBytes m a n).length = n := by
  induction n generalizing a with
  | zero => rfl
  | succ n ih => simp [readBytes, ih]

theorem readBytes_getElem (m : Memory) (a n i : Nat) (h : i < (readBytes m a n).length) :
    (readBytes m a n)[i] = readByte m (a + i) := by
  induction n generalizing a i with
  | zero => simp at h
  | succ n ih =>
    cases i with
    | zero => rfl
    | succ i =>
      have := ih (a + 1) i (by simpa [readBytes] using h)
      simpa [readBytes, Nat.add_assoc, Nat.add_comm 1 i] using this

/-- Reading a byte string back where it was written gives it. -/
@[simp] theorem readBytes_writeBytes (bs : List Byte) (m : Memory) (a : Nat) :
    readBytes (writeBytes m a bs) a bs.length = bs := by
  refine List.ext_getElem (by simp) fun i h _ => ?_
  rw [readBytes_getElem]
  exact readByte_writeBytes bs m a i (by simpa using h)

theorem writeByte_wf (m : Memory) (a : Nat) (b : Byte) (h : Memory.wf m = true) : Memory.wf (writeByte m a b) = true :=
  put_mapWf 0 m a b h

theorem writeBytes_wf (m : Memory) (a : Nat) (bs : List Byte) (h : Memory.wf m = true) :
    Memory.wf (writeBytes m a bs) = true := by
  induction bs generalizing m a with
  | nil => exact h
  | cons b bs ih => exact ih _ _ (writeByte_wf m a b h)

end Sys2Proof.Machine
end

