-- ==== Sys2Proof/Laws/State.lean ====
section
/-!
SUPPORT. One lemma per field per update of the state, the module and the management plane, true by definition: later proofs
never unfold a record update.
-/

namespace Sys2Proof.Machine

@[simp] theorem State.setPending_sys (s : State) (q : List Instr) : ({ s with pending := q } : State).sys = s.sys := rfl
@[simp] theorem State.setPending_pending (s : State) (q : List Instr) : ({ s with pending := q } : State).pending = q := rfl
@[simp] theorem State.setSys_sys (s : State) (x : Module) : ({ s with sys := x } : State).sys = x := rfl
@[simp] theorem State.setSys_pending (s : State) (x : Module) : ({ s with sys := x } : State).pending = s.pending := rfl

@[simp] theorem onSys_next (f : Module → Module) (s : State) : onSys f s = .next { s with sys := f s.sys } := rfl

@[simp] theorem onData_ts (f : Data → Data) (x : Module) : (onData f x).ts = x.ts := rfl
@[simp] theorem onData_sf (f : Data → Data) (x : Module) : (onData f x).sf = x.sf := rfl
@[simp] theorem onData_data (f : Data → Data) (x : Module) : (onData f x).data = f x.data := rfl
@[simp] theorem onData_mgmt (f : Data → Data) (x : Module) : (onData f x).mgmt = x.mgmt := rfl
@[simp] theorem onData_sill (f : Data → Data) (x : Module) : (onData f x).sill = x.sill := rfl

@[simp] theorem onCtrl_ts (f : Ctrl → Ctrl) (x : Module) : (onCtrl f x).ts = x.ts := rfl
@[simp] theorem onCtrl_sf (f : Ctrl → Ctrl) (x : Module) : (onCtrl f x).sf = x.sf := rfl
@[simp] theorem onCtrl_data (f : Ctrl → Ctrl) (x : Module) : (onCtrl f x).data = x.data := rfl
@[simp] theorem onCtrl_mgmt (f : Ctrl → Ctrl) (x : Module) : (onCtrl f x).mgmt = x.mgmt := rfl
@[simp] theorem onCtrl_sill (f : Ctrl → Ctrl) (x : Module) : (onCtrl f x).sill = x.sill := rfl

@[simp] theorem onMgmt_ts (f : Mgmt → Mgmt) (x : Module) : (onMgmt f x).ts = x.ts := rfl
@[simp] theorem onMgmt_sf (f : Mgmt → Mgmt) (x : Module) : (onMgmt f x).sf = x.sf := rfl
@[simp] theorem onMgmt_data (f : Mgmt → Mgmt) (x : Module) : (onMgmt f x).data = x.data := rfl
@[simp] theorem onMgmt_mgmt (f : Mgmt → Mgmt) (x : Module) : (onMgmt f x).mgmt = f x.mgmt := rfl
@[simp] theorem onMgmt_sill (f : Mgmt → Mgmt) (x : Module) : (onMgmt f x).sill = x.sill := rfl

@[simp] theorem onSill_ts (f : Sill → Sill) (x : Module) : (onSill f x).ts = x.ts := rfl
@[simp] theorem onSill_sf (f : Sill → Sill) (x : Module) : (onSill f x).sf = x.sf := rfl
@[simp] theorem onSill_data (f : Sill → Sill) (x : Module) : (onSill f x).data = x.data := rfl
@[simp] theorem onSill_mgmt (f : Sill → Sill) (x : Module) : (onSill f x).mgmt = x.mgmt := rfl
@[simp] theorem onSill_sill (f : Sill → Sill) (x : Module) : (onSill f x).sill = f x.sill := rfl

@[simp] theorem editJoints_ts (f : Joints → Joints) (x : Module) : (editJoints f x).ts = x.ts := rfl
@[simp] theorem editJoints_sf (f : Joints → Joints) (x : Module) : (editJoints f x).sf = x.sf := rfl
@[simp] theorem editJoints_data (f : Joints → Joints) (x : Module) : (editJoints f x).data = x.data := rfl
@[simp] theorem editJoints_sill (f : Joints → Joints) (x : Module) : (editJoints f x).sill = x.sill := rfl
@[simp] theorem editJoints_run (f : Joints → Joints) (x : Module) :
    (editJoints f x).mgmt.run = x.mgmt.run := rfl
@[simp] theorem editJoints_active (f : Joints → Joints) (x : Module) :
    (editJoints f x).mgmt.active = x.mgmt.active := rfl
@[simp] theorem editJoints_pairs (f : Joints → Joints) (x : Module) :
    (editJoints f x).mgmt.pairs = x.mgmt.pairs := rfl
@[simp] theorem editJoints_mismatches (f : Joints → Joints) (x : Module) :
    (editJoints f x).mgmt.mismatches = x.mgmt.mismatches := rfl
@[simp] theorem editJoints_clocks (f : Joints → Joints) (x : Module) :
    (editJoints f x).mgmt.clocks = x.mgmt.clocks := rfl
@[simp] theorem editJoints_module (f : Joints → Joints) (x : Module) :
    (editJoints f x).mgmt.module = x.mgmt.module := rfl
@[simp] theorem editJoints_frame (f : Joints → Joints) (x : Module) :
    (editJoints f x).mgmt.frame = x.mgmt.frame := rfl
@[simp] theorem editJoints_dict (f : Joints → Joints) (x : Module) :
    (editJoints f x).mgmt.dict = x.mgmt.dict := rfl
@[simp] theorem editJoints_settings (f : Joints → Joints) (x : Module) :
    (editJoints f x).mgmt.settings = x.mgmt.settings := rfl
@[simp] theorem editJoints_records (f : Joints → Joints) (x : Module) :
    (editJoints f x).mgmt.records = x.mgmt.records := rfl
@[simp] theorem editJoints_settingsDirty (f : Joints → Joints) (x : Module) :
    (editJoints f x).mgmt.settingsDirty = x.mgmt.settingsDirty := rfl
@[simp] theorem editJoints_recordsDirty (f : Joints → Joints) (x : Module) :
    (editJoints f x).mgmt.recordsDirty = x.mgmt.recordsDirty := rfl
@[simp] theorem editJoints_stackTrims (f : Joints → Joints) (x : Module) :
    (editJoints f x).mgmt.stackTrims = x.mgmt.stackTrims := rfl
@[simp] theorem editJoints_opticalTrims (f : Joints → Joints) (x : Module) :
    (editJoints f x).mgmt.opticalTrims = x.mgmt.opticalTrims := rfl
@[simp] theorem editJoints_stackFailed (f : Joints → Joints) (x : Module) :
    (editJoints f x).mgmt.stackFailed = x.mgmt.stackFailed := rfl
@[simp] theorem editJoints_coldNext (f : Joints → Joints) (x : Module) :
    (editJoints f x).mgmt.coldNext = x.mgmt.coldNext := rfl
@[simp] theorem editJoints_journal (f : Joints → Joints) (x : Module) :
    (editJoints f x).mgmt.journal = x.mgmt.journal := rfl
@[simp] theorem editJoints_jNext (f : Joints → Joints) (x : Module) :
    (editJoints f x).mgmt.jNext = x.mgmt.jNext := rfl
@[simp] theorem editJoints_jHeld (f : Joints → Joints) (x : Module) :
    (editJoints f x).mgmt.jHeld = x.mgmt.jHeld := rfl
@[simp] theorem editJoints_eventSeq (f : Joints → Joints) (x : Module) :
    (editJoints f x).mgmt.eventSeq = x.mgmt.eventSeq := rfl
@[simp] theorem editJoints_start (f : Joints → Joints) (x : Module) :
    (editJoints f x).mgmt.start = x.mgmt.start := rfl
@[simp] theorem editJoints_startDue (f : Joints → Joints) (x : Module) :
    (editJoints f x).mgmt.startDue = x.mgmt.startDue := rfl
@[simp] theorem editJoints_orderAt (f : Joints → Joints) (x : Module) :
    (editJoints f x).mgmt.orderAt = x.mgmt.orderAt := rfl
@[simp] theorem editJoints_service (f : Joints → Joints) (x : Module) :
    (editJoints f x).mgmt.service = x.mgmt.service := rfl
@[simp] theorem editJoints_joints (f : Joints → Joints) (x : Module) :
    (editJoints f x).mgmt.joints = f x.mgmt.joints := rfl
@[simp] theorem editJoints_power (f : Joints → Joints) (x : Module) :
    (editJoints f x).mgmt.power = x.mgmt.power := rfl
@[simp] theorem editJoints_cool (f : Joints → Joints) (x : Module) :
    (editJoints f x).mgmt.cool = x.mgmt.cool := rfl
@[simp] theorem editJoints_act (f : Joints → Joints) (x : Module) :
    (editJoints f x).mgmt.act = x.mgmt.act := rfl
@[simp] theorem editJoints_bus (f : Joints → Joints) (x : Module) :
    (editJoints f x).mgmt.bus = x.mgmt.bus := rfl

@[simp] theorem editPower_ts (f : Power → Power) (x : Module) : (editPower f x).ts = x.ts := rfl
@[simp] theorem editPower_sf (f : Power → Power) (x : Module) : (editPower f x).sf = x.sf := rfl
@[simp] theorem editPower_data (f : Power → Power) (x : Module) : (editPower f x).data = x.data := rfl
@[simp] theorem editPower_sill (f : Power → Power) (x : Module) : (editPower f x).sill = x.sill := rfl
@[simp] theorem editPower_run (f : Power → Power) (x : Module) :
    (editPower f x).mgmt.run = x.mgmt.run := rfl
@[simp] theorem editPower_active (f : Power → Power) (x : Module) :
    (editPower f x).mgmt.active = x.mgmt.active := rfl
@[simp] theorem editPower_pairs (f : Power → Power) (x : Module) :
    (editPower f x).mgmt.pairs = x.mgmt.pairs := rfl
@[simp] theorem editPower_mismatches (f : Power → Power) (x : Module) :
    (editPower f x).mgmt.mismatches = x.mgmt.mismatches := rfl
@[simp] theorem editPower_clocks (f : Power → Power) (x : Module) :
    (editPower f x).mgmt.clocks = x.mgmt.clocks := rfl
@[simp] theorem editPower_module (f : Power → Power) (x : Module) :
    (editPower f x).mgmt.module = x.mgmt.module := rfl
@[simp] theorem editPower_frame (f : Power → Power) (x : Module) :
    (editPower f x).mgmt.frame = x.mgmt.frame := rfl
@[simp] theorem editPower_dict (f : Power → Power) (x : Module) :
    (editPower f x).mgmt.dict = x.mgmt.dict := rfl
@[simp] theorem editPower_settings (f : Power → Power) (x : Module) :
    (editPower f x).mgmt.settings = x.mgmt.settings := rfl
@[simp] theorem editPower_records (f : Power → Power) (x : Module) :
    (editPower f x).mgmt.records = x.mgmt.records := rfl
@[simp] theorem editPower_settingsDirty (f : Power → Power) (x : Module) :
    (editPower f x).mgmt.settingsDirty = x.mgmt.settingsDirty := rfl
@[simp] theorem editPower_recordsDirty (f : Power → Power) (x : Module) :
    (editPower f x).mgmt.recordsDirty = x.mgmt.recordsDirty := rfl
@[simp] theorem editPower_stackTrims (f : Power → Power) (x : Module) :
    (editPower f x).mgmt.stackTrims = x.mgmt.stackTrims := rfl
@[simp] theorem editPower_opticalTrims (f : Power → Power) (x : Module) :
    (editPower f x).mgmt.opticalTrims = x.mgmt.opticalTrims := rfl
@[simp] theorem editPower_stackFailed (f : Power → Power) (x : Module) :
    (editPower f x).mgmt.stackFailed = x.mgmt.stackFailed := rfl
@[simp] theorem editPower_coldNext (f : Power → Power) (x : Module) :
    (editPower f x).mgmt.coldNext = x.mgmt.coldNext := rfl
@[simp] theorem editPower_journal (f : Power → Power) (x : Module) :
    (editPower f x).mgmt.journal = x.mgmt.journal := rfl
@[simp] theorem editPower_jNext (f : Power → Power) (x : Module) :
    (editPower f x).mgmt.jNext = x.mgmt.jNext := rfl
@[simp] theorem editPower_jHeld (f : Power → Power) (x : Module) :
    (editPower f x).mgmt.jHeld = x.mgmt.jHeld := rfl
@[simp] theorem editPower_eventSeq (f : Power → Power) (x : Module) :
    (editPower f x).mgmt.eventSeq = x.mgmt.eventSeq := rfl
@[simp] theorem editPower_start (f : Power → Power) (x : Module) :
    (editPower f x).mgmt.start = x.mgmt.start := rfl
@[simp] theorem editPower_startDue (f : Power → Power) (x : Module) :
    (editPower f x).mgmt.startDue = x.mgmt.startDue := rfl
@[simp] theorem editPower_orderAt (f : Power → Power) (x : Module) :
    (editPower f x).mgmt.orderAt = x.mgmt.orderAt := rfl
@[simp] theorem editPower_service (f : Power → Power) (x : Module) :
    (editPower f x).mgmt.service = x.mgmt.service := rfl
@[simp] theorem editPower_joints (f : Power → Power) (x : Module) :
    (editPower f x).mgmt.joints = x.mgmt.joints := rfl
@[simp] theorem editPower_power (f : Power → Power) (x : Module) :
    (editPower f x).mgmt.power = f x.mgmt.power := rfl
@[simp] theorem editPower_cool (f : Power → Power) (x : Module) :
    (editPower f x).mgmt.cool = x.mgmt.cool := rfl
@[simp] theorem editPower_act (f : Power → Power) (x : Module) :
    (editPower f x).mgmt.act = x.mgmt.act := rfl
@[simp] theorem editPower_bus (f : Power → Power) (x : Module) :
    (editPower f x).mgmt.bus = x.mgmt.bus := rfl

@[simp] theorem editCool_ts (f : Cool → Cool) (x : Module) : (editCool f x).ts = x.ts := rfl
@[simp] theorem editCool_sf (f : Cool → Cool) (x : Module) : (editCool f x).sf = x.sf := rfl
@[simp] theorem editCool_data (f : Cool → Cool) (x : Module) : (editCool f x).data = x.data := rfl
@[simp] theorem editCool_sill (f : Cool → Cool) (x : Module) : (editCool f x).sill = x.sill := rfl
@[simp] theorem editCool_run (f : Cool → Cool) (x : Module) :
    (editCool f x).mgmt.run = x.mgmt.run := rfl
@[simp] theorem editCool_active (f : Cool → Cool) (x : Module) :
    (editCool f x).mgmt.active = x.mgmt.active := rfl
@[simp] theorem editCool_pairs (f : Cool → Cool) (x : Module) :
    (editCool f x).mgmt.pairs = x.mgmt.pairs := rfl
@[simp] theorem editCool_mismatches (f : Cool → Cool) (x : Module) :
    (editCool f x).mgmt.mismatches = x.mgmt.mismatches := rfl
@[simp] theorem editCool_clocks (f : Cool → Cool) (x : Module) :
    (editCool f x).mgmt.clocks = x.mgmt.clocks := rfl
@[simp] theorem editCool_module (f : Cool → Cool) (x : Module) :
    (editCool f x).mgmt.module = x.mgmt.module := rfl
@[simp] theorem editCool_frame (f : Cool → Cool) (x : Module) :
    (editCool f x).mgmt.frame = x.mgmt.frame := rfl
@[simp] theorem editCool_dict (f : Cool → Cool) (x : Module) :
    (editCool f x).mgmt.dict = x.mgmt.dict := rfl
@[simp] theorem editCool_settings (f : Cool → Cool) (x : Module) :
    (editCool f x).mgmt.settings = x.mgmt.settings := rfl
@[simp] theorem editCool_records (f : Cool → Cool) (x : Module) :
    (editCool f x).mgmt.records = x.mgmt.records := rfl
@[simp] theorem editCool_settingsDirty (f : Cool → Cool) (x : Module) :
    (editCool f x).mgmt.settingsDirty = x.mgmt.settingsDirty := rfl
@[simp] theorem editCool_recordsDirty (f : Cool → Cool) (x : Module) :
    (editCool f x).mgmt.recordsDirty = x.mgmt.recordsDirty := rfl
@[simp] theorem editCool_stackTrims (f : Cool → Cool) (x : Module) :
    (editCool f x).mgmt.stackTrims = x.mgmt.stackTrims := rfl
@[simp] theorem editCool_opticalTrims (f : Cool → Cool) (x : Module) :
    (editCool f x).mgmt.opticalTrims = x.mgmt.opticalTrims := rfl
@[simp] theorem editCool_stackFailed (f : Cool → Cool) (x : Module) :
    (editCool f x).mgmt.stackFailed = x.mgmt.stackFailed := rfl
@[simp] theorem editCool_coldNext (f : Cool → Cool) (x : Module) :
    (editCool f x).mgmt.coldNext = x.mgmt.coldNext := rfl
@[simp] theorem editCool_journal (f : Cool → Cool) (x : Module) :
    (editCool f x).mgmt.journal = x.mgmt.journal := rfl
@[simp] theorem editCool_jNext (f : Cool → Cool) (x : Module) :
    (editCool f x).mgmt.jNext = x.mgmt.jNext := rfl
@[simp] theorem editCool_jHeld (f : Cool → Cool) (x : Module) :
    (editCool f x).mgmt.jHeld = x.mgmt.jHeld := rfl
@[simp] theorem editCool_eventSeq (f : Cool → Cool) (x : Module) :
    (editCool f x).mgmt.eventSeq = x.mgmt.eventSeq := rfl
@[simp] theorem editCool_start (f : Cool → Cool) (x : Module) :
    (editCool f x).mgmt.start = x.mgmt.start := rfl
@[simp] theorem editCool_startDue (f : Cool → Cool) (x : Module) :
    (editCool f x).mgmt.startDue = x.mgmt.startDue := rfl
@[simp] theorem editCool_orderAt (f : Cool → Cool) (x : Module) :
    (editCool f x).mgmt.orderAt = x.mgmt.orderAt := rfl
@[simp] theorem editCool_service (f : Cool → Cool) (x : Module) :
    (editCool f x).mgmt.service = x.mgmt.service := rfl
@[simp] theorem editCool_joints (f : Cool → Cool) (x : Module) :
    (editCool f x).mgmt.joints = x.mgmt.joints := rfl
@[simp] theorem editCool_power (f : Cool → Cool) (x : Module) :
    (editCool f x).mgmt.power = x.mgmt.power := rfl
@[simp] theorem editCool_cool (f : Cool → Cool) (x : Module) :
    (editCool f x).mgmt.cool = f x.mgmt.cool := rfl
@[simp] theorem editCool_act (f : Cool → Cool) (x : Module) :
    (editCool f x).mgmt.act = x.mgmt.act := rfl
@[simp] theorem editCool_bus (f : Cool → Cool) (x : Module) :
    (editCool f x).mgmt.bus = x.mgmt.bus := rfl

@[simp] theorem editAct_ts (f : Act → Act) (x : Module) : (editAct f x).ts = x.ts := rfl
@[simp] theorem editAct_sf (f : Act → Act) (x : Module) : (editAct f x).sf = x.sf := rfl
@[simp] theorem editAct_data (f : Act → Act) (x : Module) : (editAct f x).data = x.data := rfl
@[simp] theorem editAct_sill (f : Act → Act) (x : Module) : (editAct f x).sill = x.sill := rfl
@[simp] theorem editAct_run (f : Act → Act) (x : Module) :
    (editAct f x).mgmt.run = x.mgmt.run := rfl
@[simp] theorem editAct_active (f : Act → Act) (x : Module) :
    (editAct f x).mgmt.active = x.mgmt.active := rfl
@[simp] theorem editAct_pairs (f : Act → Act) (x : Module) :
    (editAct f x).mgmt.pairs = x.mgmt.pairs := rfl
@[simp] theorem editAct_mismatches (f : Act → Act) (x : Module) :
    (editAct f x).mgmt.mismatches = x.mgmt.mismatches := rfl
@[simp] theorem editAct_clocks (f : Act → Act) (x : Module) :
    (editAct f x).mgmt.clocks = x.mgmt.clocks := rfl
@[simp] theorem editAct_module (f : Act → Act) (x : Module) :
    (editAct f x).mgmt.module = x.mgmt.module := rfl
@[simp] theorem editAct_frame (f : Act → Act) (x : Module) :
    (editAct f x).mgmt.frame = x.mgmt.frame := rfl
@[simp] theorem editAct_dict (f : Act → Act) (x : Module) :
    (editAct f x).mgmt.dict = x.mgmt.dict := rfl
@[simp] theorem editAct_settings (f : Act → Act) (x : Module) :
    (editAct f x).mgmt.settings = x.mgmt.settings := rfl
@[simp] theorem editAct_records (f : Act → Act) (x : Module) :
    (editAct f x).mgmt.records = x.mgmt.records := rfl
@[simp] theorem editAct_settingsDirty (f : Act → Act) (x : Module) :
    (editAct f x).mgmt.settingsDirty = x.mgmt.settingsDirty := rfl
@[simp] theorem editAct_recordsDirty (f : Act → Act) (x : Module) :
    (editAct f x).mgmt.recordsDirty = x.mgmt.recordsDirty := rfl
@[simp] theorem editAct_stackTrims (f : Act → Act) (x : Module) :
    (editAct f x).mgmt.stackTrims = x.mgmt.stackTrims := rfl
@[simp] theorem editAct_opticalTrims (f : Act → Act) (x : Module) :
    (editAct f x).mgmt.opticalTrims = x.mgmt.opticalTrims := rfl
@[simp] theorem editAct_stackFailed (f : Act → Act) (x : Module) :
    (editAct f x).mgmt.stackFailed = x.mgmt.stackFailed := rfl
@[simp] theorem editAct_coldNext (f : Act → Act) (x : Module) :
    (editAct f x).mgmt.coldNext = x.mgmt.coldNext := rfl
@[simp] theorem editAct_journal (f : Act → Act) (x : Module) :
    (editAct f x).mgmt.journal = x.mgmt.journal := rfl
@[simp] theorem editAct_jNext (f : Act → Act) (x : Module) :
    (editAct f x).mgmt.jNext = x.mgmt.jNext := rfl
@[simp] theorem editAct_jHeld (f : Act → Act) (x : Module) :
    (editAct f x).mgmt.jHeld = x.mgmt.jHeld := rfl
@[simp] theorem editAct_eventSeq (f : Act → Act) (x : Module) :
    (editAct f x).mgmt.eventSeq = x.mgmt.eventSeq := rfl
@[simp] theorem editAct_start (f : Act → Act) (x : Module) :
    (editAct f x).mgmt.start = x.mgmt.start := rfl
@[simp] theorem editAct_startDue (f : Act → Act) (x : Module) :
    (editAct f x).mgmt.startDue = x.mgmt.startDue := rfl
@[simp] theorem editAct_orderAt (f : Act → Act) (x : Module) :
    (editAct f x).mgmt.orderAt = x.mgmt.orderAt := rfl
@[simp] theorem editAct_service (f : Act → Act) (x : Module) :
    (editAct f x).mgmt.service = x.mgmt.service := rfl
@[simp] theorem editAct_joints (f : Act → Act) (x : Module) :
    (editAct f x).mgmt.joints = x.mgmt.joints := rfl
@[simp] theorem editAct_power (f : Act → Act) (x : Module) :
    (editAct f x).mgmt.power = x.mgmt.power := rfl
@[simp] theorem editAct_cool (f : Act → Act) (x : Module) :
    (editAct f x).mgmt.cool = x.mgmt.cool := rfl
@[simp] theorem editAct_act (f : Act → Act) (x : Module) :
    (editAct f x).mgmt.act = f x.mgmt.act := rfl
@[simp] theorem editAct_bus (f : Act → Act) (x : Module) :
    (editAct f x).mgmt.bus = x.mgmt.bus := rfl

@[simp] theorem editBus_ts (f : Bus → Bus) (x : Module) : (editBus f x).ts = x.ts := rfl
@[simp] theorem editBus_sf (f : Bus → Bus) (x : Module) : (editBus f x).sf = x.sf := rfl
@[simp] theorem editBus_data (f : Bus → Bus) (x : Module) : (editBus f x).data = x.data := rfl
@[simp] theorem editBus_sill (f : Bus → Bus) (x : Module) : (editBus f x).sill = x.sill := rfl
@[simp] theorem editBus_run (f : Bus → Bus) (x : Module) :
    (editBus f x).mgmt.run = x.mgmt.run := rfl
@[simp] theorem editBus_active (f : Bus → Bus) (x : Module) :
    (editBus f x).mgmt.active = x.mgmt.active := rfl
@[simp] theorem editBus_pairs (f : Bus → Bus) (x : Module) :
    (editBus f x).mgmt.pairs = x.mgmt.pairs := rfl
@[simp] theorem editBus_mismatches (f : Bus → Bus) (x : Module) :
    (editBus f x).mgmt.mismatches = x.mgmt.mismatches := rfl
@[simp] theorem editBus_clocks (f : Bus → Bus) (x : Module) :
    (editBus f x).mgmt.clocks = x.mgmt.clocks := rfl
@[simp] theorem editBus_module (f : Bus → Bus) (x : Module) :
    (editBus f x).mgmt.module = x.mgmt.module := rfl
@[simp] theorem editBus_frame (f : Bus → Bus) (x : Module) :
    (editBus f x).mgmt.frame = x.mgmt.frame := rfl
@[simp] theorem editBus_dict (f : Bus → Bus) (x : Module) :
    (editBus f x).mgmt.dict = x.mgmt.dict := rfl
@[simp] theorem editBus_settings (f : Bus → Bus) (x : Module) :
    (editBus f x).mgmt.settings = x.mgmt.settings := rfl
@[simp] theorem editBus_records (f : Bus → Bus) (x : Module) :
    (editBus f x).mgmt.records = x.mgmt.records := rfl
@[simp] theorem editBus_settingsDirty (f : Bus → Bus) (x : Module) :
    (editBus f x).mgmt.settingsDirty = x.mgmt.settingsDirty := rfl
@[simp] theorem editBus_recordsDirty (f : Bus → Bus) (x : Module) :
    (editBus f x).mgmt.recordsDirty = x.mgmt.recordsDirty := rfl
@[simp] theorem editBus_stackTrims (f : Bus → Bus) (x : Module) :
    (editBus f x).mgmt.stackTrims = x.mgmt.stackTrims := rfl
@[simp] theorem editBus_opticalTrims (f : Bus → Bus) (x : Module) :
    (editBus f x).mgmt.opticalTrims = x.mgmt.opticalTrims := rfl
@[simp] theorem editBus_stackFailed (f : Bus → Bus) (x : Module) :
    (editBus f x).mgmt.stackFailed = x.mgmt.stackFailed := rfl
@[simp] theorem editBus_coldNext (f : Bus → Bus) (x : Module) :
    (editBus f x).mgmt.coldNext = x.mgmt.coldNext := rfl
@[simp] theorem editBus_journal (f : Bus → Bus) (x : Module) :
    (editBus f x).mgmt.journal = x.mgmt.journal := rfl
@[simp] theorem editBus_jNext (f : Bus → Bus) (x : Module) :
    (editBus f x).mgmt.jNext = x.mgmt.jNext := rfl
@[simp] theorem editBus_jHeld (f : Bus → Bus) (x : Module) :
    (editBus f x).mgmt.jHeld = x.mgmt.jHeld := rfl
@[simp] theorem editBus_eventSeq (f : Bus → Bus) (x : Module) :
    (editBus f x).mgmt.eventSeq = x.mgmt.eventSeq := rfl
@[simp] theorem editBus_start (f : Bus → Bus) (x : Module) :
    (editBus f x).mgmt.start = x.mgmt.start := rfl
@[simp] theorem editBus_startDue (f : Bus → Bus) (x : Module) :
    (editBus f x).mgmt.startDue = x.mgmt.startDue := rfl
@[simp] theorem editBus_orderAt (f : Bus → Bus) (x : Module) :
    (editBus f x).mgmt.orderAt = x.mgmt.orderAt := rfl
@[simp] theorem editBus_service (f : Bus → Bus) (x : Module) :
    (editBus f x).mgmt.service = x.mgmt.service := rfl
@[simp] theorem editBus_joints (f : Bus → Bus) (x : Module) :
    (editBus f x).mgmt.joints = x.mgmt.joints := rfl
@[simp] theorem editBus_power (f : Bus → Bus) (x : Module) :
    (editBus f x).mgmt.power = x.mgmt.power := rfl
@[simp] theorem editBus_cool (f : Bus → Bus) (x : Module) :
    (editBus f x).mgmt.cool = x.mgmt.cool := rfl
@[simp] theorem editBus_act (f : Bus → Bus) (x : Module) :
    (editBus f x).mgmt.act = x.mgmt.act := rfl
@[simp] theorem editBus_bus (f : Bus → Bus) (x : Module) :
    (editBus f x).mgmt.bus = f x.mgmt.bus := rfl

/-! ### Dictionary values -/

/-- The stored value reads back. -/
@[simp] theorem dget_dset_self (k v : Nat) (m : Mgmt) : dget (dset k v m) k = v := by
  unfold dset
  split
  · assumption
  · dsimp only
    split
    · split
      · simp [dget]
      · split <;> simp [dget]
    · simp [dget]

/-- Every other entry keeps its value. -/
theorem dget_dset_of_ne (v : Nat) (m : Mgmt) {k i : Nat} (h : i ≠ k) : dget (dset k v m) i = dget m i := by
  unfold dset
  split
  · rfl
  · dsimp only
    split
    · split
      · simp [dget, look_put_of_ne _ _ _ _ h]
      · split <;> simp [dget, look_put_of_ne _ _ _ _ h]
    · simp [dget, look_put_of_ne _ _ _ _ h]

/-- What `dset` changes: the stored values, and which image is due. -/
theorem dset_cases (k v : Nat) (m : Mgmt) :
    ∃ d a b, dset k v m = { m with dict := d, settingsDirty := a, recordsDirty := b } := by
  unfold dset
  split
  · exact ⟨_, _, _, rfl⟩
  · dsimp only
    split
    · split
      · exact ⟨_, _, _, rfl⟩
      · split <;> exact ⟨_, _, _, rfl⟩
    · exact ⟨_, _, _, rfl⟩

@[simp] theorem dset_run (k v : Nat) (m : Mgmt) : (dset k v m).run = m.run := by
  obtain ⟨_, _, _, h⟩ := dset_cases k v m
  rw [h]

@[simp] theorem dset_active (k v : Nat) (m : Mgmt) : (dset k v m).active = m.active := by
  obtain ⟨_, _, _, h⟩ := dset_cases k v m
  rw [h]

@[simp] theorem dset_pairs (k v : Nat) (m : Mgmt) : (dset k v m).pairs = m.pairs := by
  obtain ⟨_, _, _, h⟩ := dset_cases k v m
  rw [h]

@[simp] theorem dset_mismatches (k v : Nat) (m : Mgmt) : (dset k v m).mismatches = m.mismatches := by
  obtain ⟨_, _, _, h⟩ := dset_cases k v m
  rw [h]

@[simp] theorem dset_clocks (k v : Nat) (m : Mgmt) : (dset k v m).clocks = m.clocks := by
  obtain ⟨_, _, _, h⟩ := dset_cases k v m
  rw [h]

@[simp] theorem dset_module (k v : Nat) (m : Mgmt) : (dset k v m).module = m.module := by
  obtain ⟨_, _, _, h⟩ := dset_cases k v m
  rw [h]

@[simp] theorem dset_frame (k v : Nat) (m : Mgmt) : (dset k v m).frame = m.frame := by
  obtain ⟨_, _, _, h⟩ := dset_cases k v m
  rw [h]

@[simp] theorem dset_settings (k v : Nat) (m : Mgmt) : (dset k v m).settings = m.settings := by
  obtain ⟨_, _, _, h⟩ := dset_cases k v m
  rw [h]

@[simp] theorem dset_records (k v : Nat) (m : Mgmt) : (dset k v m).records = m.records := by
  obtain ⟨_, _, _, h⟩ := dset_cases k v m
  rw [h]

@[simp] theorem dset_stackTrims (k v : Nat) (m : Mgmt) : (dset k v m).stackTrims = m.stackTrims := by
  obtain ⟨_, _, _, h⟩ := dset_cases k v m
  rw [h]

@[simp] theorem dset_opticalTrims (k v : Nat) (m : Mgmt) : (dset k v m).opticalTrims = m.opticalTrims := by
  obtain ⟨_, _, _, h⟩ := dset_cases k v m
  rw [h]

@[simp] theorem dset_stackFailed (k v : Nat) (m : Mgmt) : (dset k v m).stackFailed = m.stackFailed := by
  obtain ⟨_, _, _, h⟩ := dset_cases k v m
  rw [h]

@[simp] theorem dset_coldNext (k v : Nat) (m : Mgmt) : (dset k v m).coldNext = m.coldNext := by
  obtain ⟨_, _, _, h⟩ := dset_cases k v m
  rw [h]

@[simp] theorem dset_journal (k v : Nat) (m : Mgmt) : (dset k v m).journal = m.journal := by
  obtain ⟨_, _, _, h⟩ := dset_cases k v m
  rw [h]

@[simp] theorem dset_jNext (k v : Nat) (m : Mgmt) : (dset k v m).jNext = m.jNext := by
  obtain ⟨_, _, _, h⟩ := dset_cases k v m
  rw [h]

@[simp] theorem dset_jHeld (k v : Nat) (m : Mgmt) : (dset k v m).jHeld = m.jHeld := by
  obtain ⟨_, _, _, h⟩ := dset_cases k v m
  rw [h]

@[simp] theorem dset_eventSeq (k v : Nat) (m : Mgmt) : (dset k v m).eventSeq = m.eventSeq := by
  obtain ⟨_, _, _, h⟩ := dset_cases k v m
  rw [h]

@[simp] theorem dset_start (k v : Nat) (m : Mgmt) : (dset k v m).start = m.start := by
  obtain ⟨_, _, _, h⟩ := dset_cases k v m
  rw [h]

@[simp] theorem dset_startDue (k v : Nat) (m : Mgmt) : (dset k v m).startDue = m.startDue := by
  obtain ⟨_, _, _, h⟩ := dset_cases k v m
  rw [h]

@[simp] theorem dset_orderAt (k v : Nat) (m : Mgmt) : (dset k v m).orderAt = m.orderAt := by
  obtain ⟨_, _, _, h⟩ := dset_cases k v m
  rw [h]

@[simp] theorem dset_service (k v : Nat) (m : Mgmt) : (dset k v m).service = m.service := by
  obtain ⟨_, _, _, h⟩ := dset_cases k v m
  rw [h]

@[simp] theorem dset_joints (k v : Nat) (m : Mgmt) : (dset k v m).joints = m.joints := by
  obtain ⟨_, _, _, h⟩ := dset_cases k v m
  rw [h]

@[simp] theorem dset_power (k v : Nat) (m : Mgmt) : (dset k v m).power = m.power := by
  obtain ⟨_, _, _, h⟩ := dset_cases k v m
  rw [h]

@[simp] theorem dset_cool (k v : Nat) (m : Mgmt) : (dset k v m).cool = m.cool := by
  obtain ⟨_, _, _, h⟩ := dset_cases k v m
  rw [h]

@[simp] theorem dset_act (k v : Nat) (m : Mgmt) : (dset k v m).act = m.act := by
  obtain ⟨_, _, _, h⟩ := dset_cases k v m
  rw [h]

@[simp] theorem dset_bus (k v : Nat) (m : Mgmt) : (dset k v m).bus = m.bus := by
  obtain ⟨_, _, _, h⟩ := dset_cases k v m
  rw [h]

@[simp] theorem setE_ts (k v : Nat) (x : Module) : (setE k v x).ts = x.ts := rfl
@[simp] theorem setE_sf (k v : Nat) (x : Module) : (setE k v x).sf = x.sf := rfl
@[simp] theorem setE_data (k v : Nat) (x : Module) : (setE k v x).data = x.data := rfl
@[simp] theorem setE_sill (k v : Nat) (x : Module) : (setE k v x).sill = x.sill := rfl
@[simp] theorem setE_run (k v : Nat) (x : Module) : (setE k v x).mgmt.run = x.mgmt.run := dset_run k v x.mgmt
@[simp] theorem setE_active (k v : Nat) (x : Module) : (setE k v x).mgmt.active = x.mgmt.active := dset_active k v x.mgmt
@[simp] theorem setE_pairs (k v : Nat) (x : Module) : (setE k v x).mgmt.pairs = x.mgmt.pairs := dset_pairs k v x.mgmt
@[simp] theorem setE_mismatches (k v : Nat) (x : Module) : (setE k v x).mgmt.mismatches = x.mgmt.mismatches := dset_mismatches k v x.mgmt
@[simp] theorem setE_clocks (k v : Nat) (x : Module) : (setE k v x).mgmt.clocks = x.mgmt.clocks := dset_clocks k v x.mgmt
@[simp] theorem setE_module (k v : Nat) (x : Module) : (setE k v x).mgmt.module = x.mgmt.module := dset_module k v x.mgmt
@[simp] theorem setE_frame (k v : Nat) (x : Module) : (setE k v x).mgmt.frame = x.mgmt.frame := dset_frame k v x.mgmt
@[simp] theorem setE_settings (k v : Nat) (x : Module) : (setE k v x).mgmt.settings = x.mgmt.settings := dset_settings k v x.mgmt
@[simp] theorem setE_records (k v : Nat) (x : Module) : (setE k v x).mgmt.records = x.mgmt.records := dset_records k v x.mgmt
@[simp] theorem setE_stackTrims (k v : Nat) (x : Module) : (setE k v x).mgmt.stackTrims = x.mgmt.stackTrims := dset_stackTrims k v x.mgmt
@[simp] theorem setE_opticalTrims (k v : Nat) (x : Module) : (setE k v x).mgmt.opticalTrims = x.mgmt.opticalTrims := dset_opticalTrims k v x.mgmt
@[simp] theorem setE_stackFailed (k v : Nat) (x : Module) : (setE k v x).mgmt.stackFailed = x.mgmt.stackFailed := dset_stackFailed k v x.mgmt
@[simp] theorem setE_coldNext (k v : Nat) (x : Module) : (setE k v x).mgmt.coldNext = x.mgmt.coldNext := dset_coldNext k v x.mgmt
@[simp] theorem setE_journal (k v : Nat) (x : Module) : (setE k v x).mgmt.journal = x.mgmt.journal := dset_journal k v x.mgmt
@[simp] theorem setE_jNext (k v : Nat) (x : Module) : (setE k v x).mgmt.jNext = x.mgmt.jNext := dset_jNext k v x.mgmt
@[simp] theorem setE_jHeld (k v : Nat) (x : Module) : (setE k v x).mgmt.jHeld = x.mgmt.jHeld := dset_jHeld k v x.mgmt
@[simp] theorem setE_eventSeq (k v : Nat) (x : Module) : (setE k v x).mgmt.eventSeq = x.mgmt.eventSeq := dset_eventSeq k v x.mgmt
@[simp] theorem setE_start (k v : Nat) (x : Module) : (setE k v x).mgmt.start = x.mgmt.start := dset_start k v x.mgmt
@[simp] theorem setE_startDue (k v : Nat) (x : Module) : (setE k v x).mgmt.startDue = x.mgmt.startDue := dset_startDue k v x.mgmt
@[simp] theorem setE_orderAt (k v : Nat) (x : Module) : (setE k v x).mgmt.orderAt = x.mgmt.orderAt := dset_orderAt k v x.mgmt
@[simp] theorem setE_service (k v : Nat) (x : Module) : (setE k v x).mgmt.service = x.mgmt.service := dset_service k v x.mgmt
@[simp] theorem setE_joints (k v : Nat) (x : Module) : (setE k v x).mgmt.joints = x.mgmt.joints := dset_joints k v x.mgmt
@[simp] theorem setE_power (k v : Nat) (x : Module) : (setE k v x).mgmt.power = x.mgmt.power := dset_power k v x.mgmt
@[simp] theorem setE_cool (k v : Nat) (x : Module) : (setE k v x).mgmt.cool = x.mgmt.cool := dset_cool k v x.mgmt
@[simp] theorem setE_act (k v : Nat) (x : Module) : (setE k v x).mgmt.act = x.mgmt.act := dset_act k v x.mgmt
@[simp] theorem setE_bus (k v : Nat) (x : Module) : (setE k v x).mgmt.bus = x.mgmt.bus := dset_bus k v x.mgmt

@[simp] theorem incE_ts (k : Nat) (x : Module) : (incE k x).ts = x.ts := rfl
@[simp] theorem incE_sf (k : Nat) (x : Module) : (incE k x).sf = x.sf := rfl
@[simp] theorem incE_data (k : Nat) (x : Module) : (incE k x).data = x.data := rfl
@[simp] theorem incE_sill (k : Nat) (x : Module) : (incE k x).sill = x.sill := rfl
@[simp] theorem incE_run (k : Nat) (x : Module) : (incE k x).mgmt.run = x.mgmt.run := dset_run k _ x.mgmt
@[simp] theorem incE_active (k : Nat) (x : Module) : (incE k x).mgmt.active = x.mgmt.active := dset_active k _ x.mgmt
@[simp] theorem incE_pairs (k : Nat) (x : Module) : (incE k x).mgmt.pairs = x.mgmt.pairs := dset_pairs k _ x.mgmt
@[simp] theorem incE_mismatches (k : Nat) (x : Module) : (incE k x).mgmt.mismatches = x.mgmt.mismatches := dset_mismatches k _ x.mgmt
@[simp] theorem incE_clocks (k : Nat) (x : Module) : (incE k x).mgmt.clocks = x.mgmt.clocks := dset_clocks k _ x.mgmt
@[simp] theorem incE_module (k : Nat) (x : Module) : (incE k x).mgmt.module = x.mgmt.module := dset_module k _ x.mgmt
@[simp] theorem incE_frame (k : Nat) (x : Module) : (incE k x).mgmt.frame = x.mgmt.frame := dset_frame k _ x.mgmt
@[simp] theorem incE_settings (k : Nat) (x : Module) : (incE k x).mgmt.settings = x.mgmt.settings := dset_settings k _ x.mgmt
@[simp] theorem incE_records (k : Nat) (x : Module) : (incE k x).mgmt.records = x.mgmt.records := dset_records k _ x.mgmt
@[simp] theorem incE_stackTrims (k : Nat) (x : Module) : (incE k x).mgmt.stackTrims = x.mgmt.stackTrims := dset_stackTrims k _ x.mgmt
@[simp] theorem incE_opticalTrims (k : Nat) (x : Module) : (incE k x).mgmt.opticalTrims = x.mgmt.opticalTrims := dset_opticalTrims k _ x.mgmt
@[simp] theorem incE_stackFailed (k : Nat) (x : Module) : (incE k x).mgmt.stackFailed = x.mgmt.stackFailed := dset_stackFailed k _ x.mgmt
@[simp] theorem incE_coldNext (k : Nat) (x : Module) : (incE k x).mgmt.coldNext = x.mgmt.coldNext := dset_coldNext k _ x.mgmt
@[simp] theorem incE_journal (k : Nat) (x : Module) : (incE k x).mgmt.journal = x.mgmt.journal := dset_journal k _ x.mgmt
@[simp] theorem incE_jNext (k : Nat) (x : Module) : (incE k x).mgmt.jNext = x.mgmt.jNext := dset_jNext k _ x.mgmt
@[simp] theorem incE_jHeld (k : Nat) (x : Module) : (incE k x).mgmt.jHeld = x.mgmt.jHeld := dset_jHeld k _ x.mgmt
@[simp] theorem incE_eventSeq (k : Nat) (x : Module) : (incE k x).mgmt.eventSeq = x.mgmt.eventSeq := dset_eventSeq k _ x.mgmt
@[simp] theorem incE_start (k : Nat) (x : Module) : (incE k x).mgmt.start = x.mgmt.start := dset_start k _ x.mgmt
@[simp] theorem incE_startDue (k : Nat) (x : Module) : (incE k x).mgmt.startDue = x.mgmt.startDue := dset_startDue k _ x.mgmt
@[simp] theorem incE_orderAt (k : Nat) (x : Module) : (incE k x).mgmt.orderAt = x.mgmt.orderAt := dset_orderAt k _ x.mgmt
@[simp] theorem incE_service (k : Nat) (x : Module) : (incE k x).mgmt.service = x.mgmt.service := dset_service k _ x.mgmt
@[simp] theorem incE_joints (k : Nat) (x : Module) : (incE k x).mgmt.joints = x.mgmt.joints := dset_joints k _ x.mgmt
@[simp] theorem incE_power (k : Nat) (x : Module) : (incE k x).mgmt.power = x.mgmt.power := dset_power k _ x.mgmt
@[simp] theorem incE_cool (k : Nat) (x : Module) : (incE k x).mgmt.cool = x.mgmt.cool := dset_cool k _ x.mgmt
@[simp] theorem incE_act (k : Nat) (x : Module) : (incE k x).mgmt.act = x.mgmt.act := dset_act k _ x.mgmt
@[simp] theorem incE_bus (k : Nat) (x : Module) : (incE k x).mgmt.bus = x.mgmt.bus := dset_bus k _ x.mgmt

@[simp] theorem getE_setE_self (k v : Nat) (x : Module) : getE (setE k v x) k = v := dget_dset_self k v x.mgmt

theorem getE_setE_of_ne (v : Nat) (x : Module) {k i : Nat} (h : i ≠ k) : getE (setE k v x) i = getE x i :=
  dget_dset_of_ne v x.mgmt h

end Sys2Proof.Machine
end

