-- ==== Sys2Proof/Laws/Tile.lean ====
section
/-!
SUPPORT. One tile: what its bookkeeping leaves, what a bundle that issues does to it, and what a step of one tile leaves
of the rest of the data plane.
-/

namespace Sys2Proof.Machine

/-! ### The work of a tile: everything but its CSRs and instruments -/

/-- A tile with its CSRs and instruments put aside. -/
def Tile.work (t : Tile) : Tile := { t with csr := TileCsr.reset, inst := Instruments.reset }

theorem Tile.work_regs {t u : Tile} (h : t.work = u.work) : t.regs = u.regs := by injection h
theorem Tile.work_seq {t u : Tile} (h : t.work = u.work) : t.seq = u.seq := by injection h
theorem Tile.work_store {t u : Tile} (h : t.work = u.work) : t.store = u.store := by injection h
theorem Tile.work_imem {t u : Tile} (h : t.work = u.work) : t.imem = u.imem := by injection h
theorem Tile.work_truss0 {t u : Tile} (h : t.work = u.work) : t.truss0 = u.truss0 := by injection h
theorem Tile.work_truss1 {t u : Tile} (h : t.work = u.work) : t.truss1 = u.truss1 := by injection h
theorem Tile.work_xfer {t u : Tile} (h : t.work = u.work) : t.xfer = u.xfer := by injection h
theorem Tile.work_tstate {t u : Tile} (h : t.work = u.work) : t.tstate = u.tstate := by injection h
theorem Tile.work_poison {t u : Tile} (h : t.work = u.work) : t.poison = u.poison := by injection h

/-- A repetition of steps that keep the work keeps it. -/
theorem repeatN_work (f : Nat → Tile → Tile) (h : ∀ n u, (f n u).work = u.work) (n : Nat) (t : Tile) :
    (repeatN f n t).work = t.work := by
  induction n with
  | zero => rfl
  | succ n ih => simp only [repeatN, h, ih]

/-- A fold of steps that keep the work keeps it. -/
theorem foldl_work {α : Type} (f : Tile → α → Tile) (h : ∀ u a, (f u a).work = u.work) (l : List α) (t : Tile) :
    (l.foldl f t).work = t.work := by
  induction l generalizing t with
  | nil => rfl
  | cons a l ih => simp only [List.foldl_cons, ih, h]

@[simp] theorem setInt_work (t : Tile) (i : Nat) : (setInt t i).work = t.work := rfl

@[simp] theorem setIntIf_work (b : Bool) (t : Tile) (i : Nat) : (setIntIf b t i).work = t.work := by
  cases b <;> rfl

@[simp] theorem bumpOne_work (t : Tile) (n k : Nat) : (bumpOne t n k).work = t.work := by
  simp only [bumpOne]
  split <;> rfl

@[simp] theorem selectStep_work (t : Tile) (c k : Nat) : (selectStep t c k).work = t.work := by
  simp only [selectStep]
  split <;> rfl

@[simp] theorem bumpFor_work (c ev k : Nat) (t : Tile) : (bumpFor c ev k t).work = t.work := by
  simp only [bumpFor]
  have h : ∀ n u, (if counts u n ev then bumpOne u n (c * k) else u).work = u.work := by
    intro n u
    split <;> simp
  split
  · rfl
  · split <;> simp [repeatN_work _ h]

@[simp] theorem bump_work (ev k : Nat) (t : Tile) : (bump ev k t).work = t.work := bumpFor_work 1 ev k t

@[simp] theorem countStall_work (c n : Nat) (t : Tile) : (countStall c n t).work = t.work := by simp [countStall]

@[simp] theorem countStalls_work (ss : List (BitVec 4 × Nat)) (t : Tile) : (countStalls ss t).work = t.work :=
  foldl_work _ (by intro u s; simp) ss t

@[simp] theorem countConflicts_work (n : Nat) (t : Tile) : (countConflicts n t).work = t.work := by
  simp only [countConflicts]
  split
  · rfl
  · rw [setInt_work, bumpFor_work]
    rfl

@[simp] theorem countImem_work (i : Issue) (pc : Nat) (t : Tile) : (countImem i pc t).work = t.work := by
  simp only [countImem]
  split <;> rfl

@[simp] theorem countStore_work (i : Issue) (t : Tile) : (countStore i t).work = t.work := by
  simp only [countStore]
  split
  · rfl
  · rw [setInt_work, bump_work]
    rfl

@[simp] theorem sampleIssue_work (cx : Ctx) (i : Issue) (pc : Nat) (w : Bundle) (b : Bun) (r : Regs) (lat : Nat)
    (timed : Bool) (ss : List (BitVec 4 × Nat)) (t : Tile) : (sampleIssue cx i pc w b r lat timed ss t).work = t.work := by
  simp only [sampleIssue]
  have h : (if sampMode t = 1 then selectStep t 1 1 else t).work = t.work := by split <;> simp
  generalize (if sampMode t = 1 then selectStep t 1 1 else t) = u at h ⊢
  split
  · exact h
  · exact Eq.trans rfl h

@[simp] theorem countIssue_work (r : Regs) (b : Bun) (taken looped nan : Bool) (t : Tile) :
    (countIssue r b taken looped nan t).work = t.work := by
  simp only [countIssue]
  rw [foldl_work _ (by intro u e; simp)]
  simp only [bump_work]
  rfl

@[simp] theorem clearInt_work (t : Tile) (mask hw : W64) : (clearInt t mask hw).work = t.work := rfl
@[simp] theorem forceInt_work (t : Tile) (mask : W64) : (forceInt t mask).work = t.work := rfl
@[simp] theorem writeEvcnt_work (t : Tile) (n : Nat) (v : W64) : (writeEvcnt t n v).work = t.work := rfl
@[simp] theorem writeEvsel_work (t : Tile) (n : Nat) (v : W64) : (writeEvsel t n v).work = t.work := rfl
@[simp] theorem releaseSamples_work (t : Tile) (n : Nat) : (releaseSamples t n).work = t.work := rfl
@[simp] theorem writeSampCtrl_work (t : Tile) (v : W64) : (writeSampCtrl t v).work = t.work := by
  simp only [writeSampCtrl]
  split <;> rfl
@[simp] theorem writeBwCtrl_work (t : Tile) (v : W64) : (writeBwCtrl t v).work = t.work := by
  simp only [writeBwCtrl]
  split
  · rfl
  · split <;> rfl

@[simp] theorem csrWrite_work (cx : Ctx) (t : Tile) (off : Nat) (v : W64) : (csrWrite cx t off v).work = t.work := by
  simp only [csrWrite, apply_ite Tile.work, clearInt_work, forceInt_work, writeEvcnt_work, writeEvsel_work,
    releaseSamples_work, writeSampCtrl_work, writeBwCtrl_work]
  simp only [Tile.work, ite_self]

@[simp] theorem csrwClear_work (w : Option (Nat × W64)) (t : Tile) : (csrwClear w t).work = t.work := by
  simp only [csrwClear]
  split
  · split <;> simp
  · rfl

@[simp] theorem csrwRest_work (cx : Ctx) (before t : Tile) (w : Option (Nat × W64)) :
    (csrwRest cx before t w).work = t.work := by
  unfold csrwRest
  split
  · rfl
  · dsimp only
    split
    · rfl
    · split
      · exact Eq.trans rfl (csrWrite_work cx t _ _)
      · simp

/-- The slots act on a tile that has the work of the tile as it stood. -/
@[simp] theorem issueSeen_work (pc : Nat) (i : Issue) (w : Option (Nat × W64)) (t0 tn : Tile) :
    (issueSeen pc i w t0 tn).work = tn.work := by
  simp [issueSeen]

/-! ### What the sequencer reads of a tile -/

/-- Two tiles agree on the registers, the next address, the instruction memory and the store. -/
def Tile.Same (t u : Tile) : Prop := t.regs = u.regs ∧ t.seq.pc = u.seq.pc ∧ t.imem = u.imem ∧ t.store = u.store

theorem Tile.Same.refl (t : Tile) : t.Same t := ⟨rfl, rfl, rfl, rfl⟩

theorem Tile.Same.trans {t u v : Tile} (h : t.Same u) (g : u.Same v) : t.Same v :=
  ⟨h.1.trans g.1, h.2.1.trans g.2.1, h.2.2.1.trans g.2.2.1, h.2.2.2.trans g.2.2.2⟩

theorem Tile.same_of_work {t u : Tile} (h : t.work = u.work) : t.Same u :=
  ⟨Tile.work_regs h, congrArg Seq.pc (Tile.work_seq h), Tile.work_imem h, Tile.work_store h⟩

theorem repeatN_same (f : Nat → Tile → Tile) (h : ∀ n u, (f n u).Same u) (n : Nat) (t : Tile) : (repeatN f n t).Same t := by
  induction n with
  | zero => exact .refl t
  | succ n ih => exact (h n _).trans ih

theorem passTo_same (cyc : Nat) (t : Tile) : (passTo cyc t).Same t := by
  unfold passTo
  split
  · exact .refl t
  · have h : (bumpFor (cyc - t.seq.cycle) 0x052 t.xfer.ureqs.length (bumpFor (cyc - t.seq.cycle) 0x001 1 t)).work = t.work := by
      simp
    have g := Tile.same_of_work h
    exact ⟨g.1, g.2.1, g.2.2.1, g.2.2.2⟩

theorem faultTile_same (cx : Ctx) (cyc cause pc : Nat) (t : Tile) : (faultTile cx cyc cause pc t).Same t := by
  unfold faultTile
  dsimp only
  split
  · exact ⟨rfl, rfl, rfl, rfl⟩
  · have g := passTo_same cyc (setInt t (15 + cause))
    exact ⟨g.1, g.2.1, g.2.2.1, g.2.2.2⟩

theorem setTruss_same (t : Tile) (one : Bool) (u : Truss) : (setTruss t one u).Same t := by
  cases one <;> exact ⟨rfl, rfl, rfl, rfl⟩

theorem countedChunk_same (store : Memory) (one : Bool) (t : Tile) : (countedChunk store one t).Same t := by
  unfold countedChunk
  dsimp only
  split
  · exact .refl t
  · refine (Tile.same_of_work (bump_work _ _ _)).trans ?_
    have g := setTruss_same t one (readChunk store (trussOf t one))
    exact ⟨g.1, g.2.1, g.2.2.1, g.2.2.2⟩

/-- A chunk that a truss reads leaves everything the sequencer reads. -/
theorem chunkOrFault_same (cx : Ctx) (cyc : Nat) (one : Bool) (t : Tile) : (chunkOrFault cx cyc one t).Same t := by
  unfold chunkOrFault
  split
  · exact faultTile_same ..
  · exact countedChunk_same ..

theorem chunksRead_same (cx : Ctx) (i : Issue) (t : Tile) : (chunksRead cx i t).Same t :=
  (repeatN_same _ (fun _ _ => chunkOrFault_same ..) _ _).trans
    ((repeatN_same _ (fun _ _ => chunkOrFault_same ..) _ _).trans (passTo_same i.cycle t))

theorem chunksNow_same (cx : Ctx) (i : Issue) (t : Tile) : (chunksNow cx i t).Same t := by
  unfold chunksNow
  dsimp only
  split <;> split <;> first
    | exact .refl t
    | exact chunkOrFault_same ..
    | exact (chunkOrFault_same ..).trans (chunkOrFault_same ..)

theorem chunksRead_fetched (cx : Ctx) (i : Issue) (t : Tile) : fetched (chunksRead cx i t) = fetched t := by
  obtain ⟨-, b, c, -⟩ := chunksRead_same cx i t
  simp only [fetched, b, c]

/-! ### The data plane around one tile -/

@[simp] theorem raiseData_tiles (e : Env) (code : Nat) (detail : List Byte) (d : Data) :
    (raiseData e code detail d).tiles = d.tiles := rfl
@[simp] theorem raiseData_fields (e : Env) (code : Nat) (detail : List Byte) (d : Data) :
    (raiseData e code detail d).fields = d.fields := rfl

@[simp] theorem setTile_tiles (e : Env) (ix : Nat) (t : Tile) (d : Data) :
    (setTile e ix t d).tiles = put Tile.off d.tiles ix t := by
  simp only [setTile]
  split <;> rfl
@[simp] theorem setField_tiles (e : Env) (n : Nat) (f : Field) (d : Data) : (setField e n f d).tiles = d.tiles := by
  simp only [setField]
  split <;> rfl
@[simp] theorem setField_fields (e : Env) (n : Nat) (f : Field) (d : Data) :
    (setField e n f d).fields = put Field.off d.fields n f := by
  simp only [setField]
  split <;> rfl
@[simp] theorem setTile_fields (e : Env) (ix : Nat) (t : Tile) (d : Data) : (setTile e ix t d).fields = d.fields := by
  simp only [setTile]
  split <;> rfl

@[simp] theorem applyEff_tiles (e : Env) (ix : Nat) (old new : Tile) (x : Eff) (d : Data) :
    (applyEff e ix old new x d).tiles = d.tiles := by
  simp only [applyEff]
  split <;> simp

theorem onTile_tiles (e : Env) (ix : Nat) (f : Ctx → Tile → Tile × Eff) (d : Data) :
    (onTile e ix f d).tiles = put Tile.off d.tiles ix (f (ctxOf e d ix) (tileOf d ix)).1 := by
  simp [onTile]

/-- A step of tile `ix` gives that tile what the step answers, and leaves every other tile as it was. -/
theorem tileOf_onTile (e : Env) (ix n : Nat) (f : Ctx → Tile → Tile × Eff) (d : Data) :
    tileOf (onTile e ix f d) n = if n = ix then (f (ctxOf e d ix) (tileOf d ix)).1 else tileOf d n := by
  simp only [tileOf, onTile_tiles, look_put]

theorem tileOf_editTile (e : Env) (ix n : Nat) (f : Ctx → Tile → Tile) (d : Data) :
    tileOf (editTile e ix f d) n = if n = ix then f (ctxOf e d ix) (tileOf d ix) else tileOf d n := by
  simp only [tileOf, editTile, setTile_tiles, look_put]

theorem fieldOf_editField (e : Env) (m n : Nat) (f : Field → Field) (d : Data) :
    fieldOf (editField e m f d) n = if n = m then f (fieldOf d m) else fieldOf d n := by
  simp only [fieldOf, editField, setField_fields, look_put]

@[simp] theorem editField_tiles (e : Env) (m : Nat) (f : Field → Field) (d : Data) :
    (editField e m f d).tiles = d.tiles := by
  simp [editField]

@[simp] theorem editTile_fields (e : Env) (m : Nat) (f : Ctx → Tile → Tile) (d : Data) :
    (editTile e m f d).fields = d.fields := by
  simp [editTile]

/-! ### A bundle that issues -/

@[simp] theorem execM_regs (cx : Ctx) (t0 t : Tile) (cyc : Nat) (o : MOp) : (execM cx t0 t cyc o).1.regs = t.regs := by
  cases o <;> simp only [execM]
  case sts => rfl
  case stv vs aB sz imm => cases sz <;> rfl
  case wfill one k aS sU =>
    split
    · rfl
    · rw [Tile.work_regs (bump_work _ _ _)]
      cases one <;> rfl
  case sarm aL tag ur aR =>
    split
    · rw [Tile.work_regs (bump_work _ _ _), Tile.work_regs (bump_work _ _ _)]
    · exact show (bump 0x053 1 t).regs = t.regs from Tile.work_regs (bump_work _ _ _)
  case ureq => rw [Tile.work_regs (bump_work _ _ _)]
  case xsnd aS sD cls len =>
    simp only [exchangeSend]
    split
    · rw [Tile.work_regs (bump_work _ _ _)]
    · split <;> rw [Tile.work_regs (bump_work _ _ _)] <;> rfl

@[simp] theorem execM_seq (cx : Ctx) (t0 t : Tile) (cyc : Nat) (o : MOp) : (execM cx t0 t cyc o).1.seq = t.seq := by
  cases o <;> simp only [execM]
  case sts => rfl
  case stv vs aB sz imm => cases sz <;> rfl
  case wfill one k aS sU =>
    split
    · rfl
    · rw [Tile.work_seq (bump_work _ _ _)]
      cases one <;> rfl
  case sarm aL tag ur aR =>
    split
    · rw [Tile.work_seq (bump_work _ _ _), Tile.work_seq (bump_work _ _ _)]
    · exact show (bump 0x053 1 t).seq = t.seq from Tile.work_seq (bump_work _ _ _)
  case ureq => rw [Tile.work_seq (bump_work _ _ _)]
  case xsnd aS sD cls len =>
    simp only [exchangeSend]
    split
    · rw [Tile.work_seq (bump_work _ _ _)]
    · split <;> rw [Tile.work_seq (bump_work _ _ _)] <;> rfl

/-- What a T slot leaves: everything but its truss, the CSRs and the instruments. -/
theorem setTruss_seq (t : Tile) (one : Bool) (u : Truss) : (setTruss t one u).seq = t.seq := by cases one <;> rfl

theorem countedChunk_seq (store : Memory) (one : Bool) (t : Tile) : (countedChunk store one t).seq = t.seq := by
  unfold countedChunk
  dsimp only
  split
  · rfl
  · exact (Tile.work_seq (bump_work _ _ _)).trans (setTruss_seq t one _)

theorem takeBatch_same (store : Memory) (idle one : Bool) (b : Batch) (t : Tile) : (takeBatch store idle one b t).Same t := by
  unfold takeBatch
  dsimp only
  split
  · exact (countedChunk_same ..).trans (setTruss_same ..)
  · split <;> exact setTruss_same ..

theorem execT_same (t0 t : Tile) (cyc : Nat) (o : TOp) : (execT t0 t cyc o).Same t := by
  cases o <;> simp only [execT]
  case nop => exact .refl t
  case trow => exact takeBatch_same ..
  case tswp => exact (Tile.same_of_work (bump_work _ _ _)).trans (setTruss_same ..)
  all_goals exact setTruss_same ..

@[simp] theorem execT_regs (t0 t : Tile) (cyc : Nat) (o : TOp) : (execT t0 t cyc o).regs = t.regs := (execT_same t0 t cyc o).1
@[simp] theorem execT_store (t0 t : Tile) (cyc : Nat) (o : TOp) : (execT t0 t cyc o).store = t.store :=
  (execT_same t0 t cyc o).2.2.2

@[simp] theorem execT_seq (t0 t : Tile) (cyc : Nat) (o : TOp) : (execT t0 t cyc o).seq = t.seq := by
  cases o <;> simp only [execT, takeBatch]
  case trow =>
    split
    · rw [countedChunk_seq, setTruss_seq]
    · split <;> rw [setTruss_seq]
  case tswp => exact (Tile.work_seq (bump_work _ _ _)).trans (setTruss_seq ..)
  all_goals rw [setTruss_seq]

/-- The address an issuing bundle goes to, and the loop stack it leaves (R107, R109). -/
def nextOf (c : COut) (pc : Nat) : Nat × List LoopEntry × Bool :=
  match c.taken with
  | some a => (a, c.loops, false)
  | none => nextAddr pc c.loops

/-- The register writes of an issuing bundle, in slot order. -/
def bundleWrs (cx : Ctx) (ix : Nat) (i : Issue) (b : Bun) (pc : Nat) (t0 : Tile) (u : Tile) : List TWr :=
  (execC cx ix t0 pc (opOr .nop t0.regs b.c)).writes ++ (execM cx t0 u i.cycle (opOr .nop t0.regs b.m)).2.1 ++
    (execV t0 (opOr .nop t0.regs b.v)).writes

/-- What an issuing bundle leaves of the tile but for CSRs and instruments: the M and T slots' own effects, the register
writes in their order but for those that meet a drain (R52), and the sequencer at its next address. -/
theorem issueNow_work (cx : Ctx) (ix : Nat) (i : Issue) (w : Bundle) (b : Bun) (pc : Nat) (t0 tn : Tile) :
    (issueNow cx ix i w b pc t0 tn).1.work =
      Tile.work
        (let c := execC cx ix t0 pc (opOr .nop t0.regs b.c)
         let u := issueSeen pc i c.csrw t0 tn
         let m := execM cx t0 u i.cycle (opOr .nop t0.regs b.m)
         let t2 := execT t0 m.1 i.cycle (opOr .nop t0.regs b.t)
         { t2 with
           regs := { applyWrs tn.regs ((bundleWrs cx ix i b pc t0 u).filter fun x => !clashes t0 i.cycle x) with
             loops := (nextOf c pc).2.1 }
           seq := { seqIssued i.cycle c.taken.isSome (opOr .nop t0.regs b.m) (opOr .nop t0.regs b.v)
               (bundleWrites t0.regs b) tn.seq with
             pc := (nextOf c pc).1, lastPc := BitVec.ofNat 14 pc
             beatAt := if c.beat then some (i.cycle + 1) else tn.seq.beatAt } }) := by
  have hu := issueSeen_work pc i (execC cx ix t0 pc (opOr .nop t0.regs b.c)).csrw t0 tn
  have hr := (execT_regs t0 (execM cx t0 (issueSeen pc i (execC cx ix t0 pc (opOr .nop t0.regs b.c)).csrw t0 tn) i.cycle
      (opOr .nop t0.regs b.m)).1 i.cycle (opOr .nop t0.regs b.t)).trans
    ((execM_regs cx t0 _ i.cycle (opOr .nop t0.regs b.m)).trans (Tile.work_regs hu))
  have hs := (execT_seq t0 (execM cx t0 (issueSeen pc i (execC cx ix t0 pc (opOr .nop t0.regs b.c)).csrw t0 tn) i.cycle
      (opOr .nop t0.regs b.m)).1 i.cycle (opOr .nop t0.regs b.t)).trans
    ((execM_seq cx t0 _ i.cycle (opOr .nop t0.regs b.m)).trans (Tile.work_seq hu))
  unfold issueNow nextOf bundleWrs
  dsimp only
  rw [hr, hs]
  generalize execC cx ix t0 pc (opOr .nop t0.regs b.c) = c
  obtain ⟨writes, taken, loops, csrw, sig, beat⟩ := c
  cases taken <;>
    simp only [csrwRest_work, sampleIssue_work, countStore_work, countIssue_work, setIntIf_work] <;> rfl

/-- The tile that the chunks of an issue's cycle leave. -/
def tileNow (cx : Ctx) (i : Issue) (t0 : Tile) : Tile := chunksNow cx i (countImem i t0.seq.pc t0)

theorem tileNow_same (cx : Ctx) (i : Issue) (t0 : Tile) : (tileNow cx i t0).Same t0 :=
  (chunksNow_same ..).trans (Tile.same_of_work (countImem_work ..))

/-- A bundle that the tile can issue does so. -/
theorem issueBundle_issues {cx : Ctx} {ix : Nat} {i : Issue} {t : Tile} {w : Bundle}
    (h : mayIssue (chunksRead cx i t) = true) (hf : fetched (chunksRead cx i t) = some w) (he : i.err.imemUncorr = false)
    (hi : bundleIllegal cx (chunksRead cx i t) (chunksRead cx i t).seq.pc (decodeBundle w) = false)
    (hh : bundleHold (chunksRead cx i t) i.cycle (decodeBundle w) = none)
    (hu : issueFault cx i (chunksRead cx i t) (decodeBundle w) = none)
    (hn : (tileNow cx i (chunksRead cx i t)).tstate ≠ .fault) :
    issueBundle cx ix i t =
      issueNow cx ix i w (decodeBundle w) (chunksRead cx i t).seq.pc (chunksRead cx i t)
        (tileNow cx i (chunksRead cx i t)) := by
  simp only [tileNow] at hn
  simp [issueBundle, tileNow, h, hf, he, hi, hh, hu, hn]

end Sys2Proof.Machine
end

