-- ==== Sys2Proof/Laws/Registers.lean ====
section
/-!
SUPPORT. The registers after a bundle's writes: what a register reads when every write to it carries one value, and that
a register no write names is as it was.
-/

namespace Sys2Proof.Machine

/-! ### Lanes -/

@[simp] theorem fit_length (n : Nat) (xs : List W32) : (fit n xs).length = n := by
  simp [fit]

theorem lane_fit (n : Nat) (xs : List W32) (l : Nat) (h : l < n) : lane (fit n xs) l = lane xs l := by
  simp only [lane, fit, List.getD_eq_getElem?_getD, List.getElem?_take, h, if_true]
  by_cases hl : l < xs.length
  · rw [List.getElem?_append_left hl]
  · rw [List.getElem?_append_right (by omega), List.getElem?_replicate, List.getElem?_eq_none (l := xs) (by omega)]
    split <;> rfl

theorem lane_append (xs ys : List W32) (l : Nat) :
    lane (xs ++ ys) l = if l < xs.length then lane xs l else lane ys (l - xs.length) := by
  simp only [lane, List.getD_eq_getElem?_getD]
  split
  · rw [List.getElem?_append_left (by assumption)]
  · rw [List.getElem?_append_right (by omega)]

theorem lane_drop (xs : List W32) (n l : Nat) : lane (xs.drop n) l = lane xs (n + l) := by
  simp [lane, List.getD_eq_getElem?_getD]

/-- Lane `l` of a register whose quarter `q` was replaced. -/
theorem lane_setQuarter (v : VReg) (q : Nat) (xs : List W32) (l : Nat) (hq : q < 4) (hl : l < 512) :
    lane (setQuarter v q xs) l = if l / 128 = q then lane xs (l % 128) else lane v l := by
  simp only [setQuarter, lane_append, List.length_append, fit_length]
  by_cases h1 : l < 128 * q
  · rw [if_pos (by omega), if_pos h1, lane_fit _ _ _ h1, if_neg (by omega)]
  · by_cases h2 : l < 128 * q + 128
    · rw [if_pos h2, if_neg h1, lane_fit _ _ _ (by omega), if_pos (by omega)]
      congr 1
      omega
    · have e : 128 * (q + 1) + (l - (128 * q + 128)) = l := by omega
      rw [if_neg h2, lane_fit _ _ _ (by omega), lane_drop, if_neg (by omega), e]

theorem lane_quarterOf (v : VReg) (q l : Nat) (h : l < 128) : lane (quarterOf v q) l = lane v (128 * q + l) := by
  simp only [quarterOf, lane_fit _ _ _ h, lane_drop]

/-! ### One register file write -/

@[simp] theorem readS_zero (r : Regs) : readS r 0 = 0 := rfl
@[simp] theorem readP_zero (r : Regs) : readP r 0 = true := rfl

theorem readS_writeS (r : Regs) (i n : Nat) (v : W32) :
    readS (writeS r i v) n = if n = i then (if i = 0 then 0 else v) else readS r n := by
  by_cases hi : i = 0
  · subst hi
    by_cases hn : n = 0
    · subst hn
      rfl
    · simp [writeS, hn]
  · by_cases hn : n = 0
    · subst hn
      simp [Ne.symm hi]
    · simp [readS, writeS, hi, hn, look_put]

theorem readP_writeP (r : Regs) (i n : Nat) (v : Bool) :
    readP (writeP r i v) n = if n = i then (if i = 0 then true else v) else readP r n := by
  by_cases hi : i = 0
  · subst hi
    by_cases hn : n = 0
    · subst hn
      rfl
    · simp [writeP, hn]
  · by_cases hn : n = 0
    · subst hn
      simp [Ne.symm hi]
    · simp [readP, writeP, hi, hn, look_put]

theorem readA_writeA (r : Regs) (i n : Nat) (v : Addr) : readA (writeA r i v) n = if n = i then v else readA r n := by
  simp [readA, writeA, look_put]

theorem readV_writeV (r : Regs) (i n : Nat) (v : VReg) : readV (writeV r i v) n = if n = i then v else readV r n := by
  simp [readV, writeV, look_put]

@[simp] theorem writeS_p (r : Regs) (i : Nat) (v : W32) : readP (writeS r i v) = readP r := by
  by_cases h : i = 0 <;> simp only [writeS, h, if_true, if_false] <;> rfl
@[simp] theorem writeS_a (r : Regs) (i : Nat) (v : W32) : readA (writeS r i v) = readA r := by
  by_cases h : i = 0 <;> simp only [writeS, h, if_true, if_false] <;> rfl
@[simp] theorem writeS_v (r : Regs) (i : Nat) (v : W32) : readV (writeS r i v) = readV r := by
  by_cases h : i = 0 <;> simp only [writeS, h, if_true, if_false] <;> rfl
@[simp] theorem writeP_s (r : Regs) (i : Nat) (v : Bool) : readS (writeP r i v) = readS r := by
  by_cases h : i = 0 <;> simp only [writeP, h, if_true, if_false] <;> rfl
@[simp] theorem writeP_a (r : Regs) (i : Nat) (v : Bool) : readA (writeP r i v) = readA r := by
  by_cases h : i = 0 <;> simp only [writeP, h, if_true, if_false] <;> rfl
@[simp] theorem writeP_v (r : Regs) (i : Nat) (v : Bool) : readV (writeP r i v) = readV r := by
  by_cases h : i = 0 <;> simp only [writeP, h, if_true, if_false] <;> rfl
@[simp] theorem writeA_s (r : Regs) (i : Nat) (v : Addr) : readS (writeA r i v) = readS r := rfl
@[simp] theorem writeA_p (r : Regs) (i : Nat) (v : Addr) : readP (writeA r i v) = readP r := rfl
@[simp] theorem writeA_v (r : Regs) (i : Nat) (v : Addr) : readV (writeA r i v) = readV r := rfl
@[simp] theorem writeV_s (r : Regs) (i : Nat) (v : VReg) : readS (writeV r i v) = readS r := rfl
@[simp] theorem writeV_p (r : Regs) (i : Nat) (v : VReg) : readP (writeV r i v) = readP r := rfl
@[simp] theorem writeV_a (r : Regs) (i : Nat) (v : VReg) : readA (writeV r i v) = readA r := rfl

/-! ### Every write of a bundle -/

theorem mem_insertWr (w x : TWr) (ws : List TWr) : x ∈ insertWr w ws ↔ x = w ∨ x ∈ ws := by
  induction ws with
  | nil => simp [insertWr]
  | cons y ys ih =>
    simp only [insertWr]
    split
    · simp
    · simp only [List.mem_cons, ih]
      tauto

/-- Ordering a bundle's writes neither adds nor drops one. -/
theorem mem_orderWr (x : TWr) (ws : List TWr) : x ∈ orderWr ws ↔ x ∈ ws := by
  have h : ∀ (ws acc : List TWr), x ∈ ws.foldl (fun acc w => insertWr w acc) acc ↔ x ∈ acc ∨ x ∈ ws := by
    intro ws
    induction ws with
    | nil => simp
    | cons w ws ih =>
      intro acc
      rw [List.foldl_cons, ih, mem_insertWr, List.mem_cons]
      tauto
  simpa [orderWr] using h ws []

theorem applyWrs_loops (r : Regs) (ws : List TWr) : (applyWrs r ws).loops = r.loops := by
  unfold applyWrs
  generalize orderWr ws = l
  induction l generalizing r with
  | nil => rfl
  | cons w l ih =>
    rw [List.foldl_cons, ih]
    cases w with
    | mk lat wr =>
      cases wr <;> simp only [applyWr, writeS, writeP, writeA, writeV] <;> split <;> rfl

/-- After a list of writes a read gives `v` when some write makes it so and no write makes it anything else. -/
theorem foldl_read {β : Type} (rd : Regs → β) (v : β) (sets : TWr → Prop) (l : List TWr) (r : Regs)
    (h1 : ∀ r w, w ∈ l → sets w → rd (applyWr r w.wr) = v) (h2 : ∀ r w, w ∈ l → ¬sets w → rd (applyWr r w.wr) = rd r)
    (hs : rd r = v ∨ ∃ w ∈ l, sets w) : rd (l.foldl (fun r w => applyWr r w.wr) r) = v := by
  induction l generalizing r with
  | nil =>
    rcases hs with h | ⟨w, hw, -⟩
    · exact h
    · cases hw
  | cons w l ih =>
    rw [List.foldl_cons]
    refine ih _ (fun r w hw => h1 r w (List.mem_cons_of_mem _ hw)) (fun r w hw => h2 r w (List.mem_cons_of_mem _ hw)) ?_
    by_cases hw : sets w
    · exact .inl (h1 r w List.mem_cons_self hw)
    · rcases hs with h | ⟨x, hx, hsx⟩
      · exact .inl ((h2 r w List.mem_cons_self hw).trans h)
      · rcases List.mem_cons.mp hx with rfl | hx
        · exact absurd hsx hw
        · exact .inr ⟨x, hx, hsx⟩

/-- The scalar register a bundle's writes give `v`, when every write to it carries `v`. -/
theorem readS_applyWrs {r : Regs} {ws : List TWr} {n : Nat} {v : W32} (hn : n ≠ 0) (h : ∃ w ∈ ws, w.wr = .s n v)
    (ho : ∀ w ∈ ws, ∀ x, w.wr = .s n x → x = v) : readS (applyWrs r ws) n = v := by
  refine foldl_read (fun r => readS r n) v (fun w => w.wr = .s n v) _ r ?_ ?_ ?_
  · intro r w _ hw
    simp [hw, applyWr, readS_writeS, hn]
  · intro r w hw hne
    have hw := (mem_orderWr w ws).mp hw
    cases hc : w.wr with
    | s i x =>
      simp only [applyWr, readS_writeS]
      split
      · rename_i hi
        subst hi
        exact absurd (ho w hw x hc ▸ hc) hne
      · rfl
    | _ => simp [applyWr]
  · obtain ⟨w, hw, e⟩ := h
    exact .inr ⟨w, (mem_orderWr w ws).mpr hw, e⟩

theorem readP_applyWrs {r : Regs} {ws : List TWr} {n : Nat} {v : Bool} (hn : n ≠ 0) (h : ∃ w ∈ ws, w.wr = .p n v)
    (ho : ∀ w ∈ ws, ∀ x, w.wr = .p n x → x = v) : readP (applyWrs r ws) n = v := by
  refine foldl_read (fun r => readP r n) v (fun w => w.wr = .p n v) _ r ?_ ?_ ?_
  · intro r w _ hw
    simp [hw, applyWr, readP_writeP, hn]
  · intro r w hw hne
    have hw := (mem_orderWr w ws).mp hw
    cases hc : w.wr with
    | p i x =>
      simp only [applyWr, readP_writeP]
      split
      · rename_i hi
        subst hi
        exact absurd (ho w hw x hc ▸ hc) hne
      · rfl
    | _ => simp [applyWr]
  · obtain ⟨w, hw, e⟩ := h
    exact .inr ⟨w, (mem_orderWr w ws).mpr hw, e⟩

theorem readA_applyWrs {r : Regs} {ws : List TWr} {n : Nat} {v : Addr} (h : ∃ w ∈ ws, w.wr = .a n v)
    (ho : ∀ w ∈ ws, ∀ x, w.wr = .a n x → x = v) : readA (applyWrs r ws) n = v := by
  refine foldl_read (fun r => readA r n) v (fun w => w.wr = .a n v) _ r ?_ ?_ ?_
  · intro r w _ hw
    simp [hw, applyWr, readA_writeA]
  · intro r w hw hne
    have hw := (mem_orderWr w ws).mp hw
    cases hc : w.wr with
    | a i x =>
      simp only [applyWr, readA_writeA]
      split
      · rename_i hi
        subst hi
        exact absurd (ho w hw x hc ▸ hc) hne
      · rfl
    | _ => simp [applyWr]
  · obtain ⟨w, hw, e⟩ := h
    exact .inr ⟨w, (mem_orderWr w ws).mpr hw, e⟩

/-- Lane `l` of a vector register when every write to its quarter carries `x` in that lane. -/
theorem lane_applyWrs {r : Regs} {ws : List TWr} {n l : Nat} {x : W32} (hl : l < 512)
    (hq : ∀ w ∈ ws, ∀ q xs, w.wr = .vq n q xs → q < 4)
    (h : ∃ w ∈ ws, ∃ xs, w.wr = .vq n (l / 128) xs)
    (ho : ∀ w ∈ ws, ∀ xs, w.wr = .vq n (l / 128) xs → lane xs (l % 128) = x) :
    lane (readV (applyWrs r ws) n) l = x := by
  refine foldl_read (fun r => lane (readV r n) l) x (fun w => ∃ xs, w.wr = .vq n (l / 128) xs) _ r ?_ ?_ ?_
  · rintro r w hw ⟨xs, e⟩
    have hw := (mem_orderWr w ws).mp hw
    simp only [e, applyWr, readV_writeV, if_true]
    rw [lane_setQuarter _ _ _ _ (by omega) hl, if_pos rfl]
    exact ho w hw xs e
  · intro r w hw hne
    have hw := (mem_orderWr w ws).mp hw
    cases hc : w.wr with
    | vq i q xs =>
      simp only [applyWr, readV_writeV]
      split
      · rename_i hi
        subst hi
        rw [lane_setQuarter _ _ _ _ (hq w hw q xs hc) hl, if_neg]
        intro e
        subst e
        exact hne ⟨xs, hc⟩
      · rfl
    | _ => simp [applyWr]
  · obtain ⟨w, hw, e⟩ := h
    exact .inr ⟨w, (mem_orderWr w ws).mpr hw, e⟩

/-- A read that no write of the bundle moves. -/
theorem applyWrs_keeps {β : Type} (rd : Regs → β) {r : Regs} {ws : List TWr}
    (h : ∀ r, ∀ w ∈ ws, rd (applyWr r w.wr) = rd r) : rd (applyWrs r ws) = rd r :=
  foldl_read rd (rd r) (fun _ => False) _ r (fun _ _ _ hf => hf.elim)
    (fun r w hw _ => h r w ((mem_orderWr w ws).mp hw)) (.inl rfl)

theorem readS_applyWrs_keeps {r : Regs} {ws : List TWr} {n : Nat} (h : ∀ w ∈ ws, ∀ x, w.wr ≠ .s n x) :
    readS (applyWrs r ws) n = readS r n := by
  refine applyWrs_keeps (fun r => readS r n) ?_
  intro r w hw
  cases hc : w.wr with
  | s i x =>
    simp only [applyWr, readS_writeS]
    rw [if_neg]
    rintro rfl
    exact h w hw x hc
  | _ => simp [applyWr]

theorem readP_applyWrs_keeps {r : Regs} {ws : List TWr} {n : Nat} (h : ∀ w ∈ ws, ∀ x, w.wr ≠ .p n x) :
    readP (applyWrs r ws) n = readP r n := by
  refine applyWrs_keeps (fun r => readP r n) ?_
  intro r w hw
  cases hc : w.wr with
  | p i x =>
    simp only [applyWr, readP_writeP]
    rw [if_neg]
    rintro rfl
    exact h w hw x hc
  | _ => simp [applyWr]

theorem readA_applyWrs_keeps {r : Regs} {ws : List TWr} {n : Nat} (h : ∀ w ∈ ws, ∀ x, w.wr ≠ .a n x) :
    readA (applyWrs r ws) n = readA r n := by
  refine applyWrs_keeps (fun r => readA r n) ?_
  intro r w hw
  cases hc : w.wr with
  | a i x =>
    simp only [applyWr, readA_writeA]
    rw [if_neg]
    rintro rfl
    exact h w hw x hc
  | _ => simp [applyWr]

theorem readV_applyWrs_keeps {r : Regs} {ws : List TWr} {n : Nat} (h : ∀ w ∈ ws, ∀ q x, w.wr ≠ .vq n q x) :
    readV (applyWrs r ws) n = readV r n := by
  refine applyWrs_keeps (fun r => readV r n) ?_
  intro r w hw
  cases hc : w.wr with
  | vq i q x =>
    simp only [applyWr, readV_writeV]
    rw [if_neg]
    rintro rfl
    exact h w hw q x hc
  | _ => simp [applyWr]

end Sys2Proof.Machine
end

