-- ==== Sys2Proof/Laws/Issue.lean ====
section
/-!
SUPPORT. A slot command whose bundle issues: the tile it leaves.
-/

namespace Sys2Proof.Machine

/-- The register writes of an issuing bundle, in slot order; one that meets a drain is discarded (R52). -/
def writesOf (s : State) (i : Issue) (b : Bun) : List TWr :=
  (bundleWrs (ctxOf (envOf s.sys) s.sys.data i.tile) i.tile i b (tileReady s i).seq.pc (tileReady s i) (tileReady s i)).filter
    fun x => !clashes (tileReady s i) i.cycle x

/-- What the C slot of an issuing bundle does. -/
def cOutOf (s : State) (i : Issue) (b : Bun) : COut :=
  execC (ctxOf (envOf s.sys) s.sys.data i.tile) i.tile (tileReady s i) (tileReady s i).seq.pc
    (opOr .nop (tileReady s i).regs b.c)

/-- The tile that the M and T slots act on. -/
def seenOf (s : State) (i : Issue) (b : Bun) : Tile :=
  issueSeen (tileReady s i).seq.pc i (cOutOf s i b).csrw (tileReady s i)
    (tileNow (ctxOf (envOf s.sys) s.sys.data i.tile) i (tileReady s i))

/-- The tile after the M and T slots' own effects. -/
def unitsOf (s : State) (i : Issue) (b : Bun) : Tile :=
  let t := tileReady s i
  execT t (execM (ctxOf (envOf s.sys) s.sys.data i.tile) t (seenOf s i b) i.cycle (opOr .nop t.regs b.m)).1 i.cycle
    (opOr .nop t.regs b.t)

theorem tileReady_same (s : State) (i : Issue) : (tileReady s i).Same (tileOf s.sys.data i.tile) := chunksRead_same ..

theorem tileReady_regs (s : State) (i : Issue) : (tileReady s i).regs = (tileOf s.sys.data i.tile).regs :=
  (tileReady_same s i).1

theorem tileReady_store (s : State) (i : Issue) : (tileReady s i).store = (tileOf s.sys.data i.tile).store :=
  (tileReady_same s i).2.2.2

theorem tileReady_pc (s : State) (i : Issue) : (tileReady s i).seq.pc = (tileOf s.sys.data i.tile).seq.pc :=
  (tileReady_same s i).2.1

/-- The M and T slots act on the registers, the store and the address as they stood. -/
theorem seenOf_same (s : State) (i : Issue) (b : Bun) : (seenOf s i b).Same (tileOf s.sys.data i.tile) :=
  (Tile.same_of_work (issueSeen_work ..)).trans ((tileNow_same ..).trans (tileReady_same s i))

theorem execC_loops_nop (cx : Ctx) (ix : Nat) (t : Tile) (pc : Nat) : (execC cx ix t pc .nop).loops = t.regs.loops := rfl

/-- What an M-slot operation writes does not depend on the tile it acts on, but on the tile as it stood. -/
theorem execM_writes (cx : Ctx) (t0 t u : Tile) (cyc : Nat) (o : MOp) :
    (execM cx t0 t cyc o).2.1 = (execM cx t0 u cyc o).2.1 := by
  cases o <;> simp only [execM]
  case wfill => split <;> rfl
  case sarm => split <;> rfl

theorem bundleWrs_tile (cx : Ctx) (ix : Nat) (i : Issue) (b : Bun) (pc : Nat) (t0 t u : Tile) :
    bundleWrs cx ix i b pc t0 t = bundleWrs cx ix i b pc t0 u := by
  simp only [bundleWrs, execM_writes cx t0 t u]

/-- A slot command whose bundle issues steps its tile: the tile is what the bundle's issue leaves. -/
theorem issueWhen_tile {s : State} {i : Issue} {b : Bun} {f : Bun → Bool} (h : Issues s i b) (hf : f b = true) :
    ∃ w, decodeBundle w = b ∧ tileOf (issueWhen i f s.sys).data i.tile =
      (issueNow (ctxOf (envOf s.sys) s.sys.data i.tile) i.tile i w b (tileReady s i).seq.pc (tileReady s i)
        (tileNow (ctxOf (envOf s.sys) s.sys.data i.tile) i (tileReady s i))).1 := by
  obtain ⟨hon, hm, he, hd, hi, hh, hu, hn⟩ := h
  cases hw : fetched (tileReady s i) with
  | none => simp [hw] at hd
  | some w =>
    rw [hw] at hd
    have hb : decodeBundle w = b := by simpa using hd
    refine ⟨w, hb, ?_⟩
    have hw' : fetched (tileOf s.sys.data i.tile) = some w := by
      rw [← hw]
      exact (chunksRead_fetched _ _ _).symm
    subst hb
    simp only [issueWhen, hw', hf, if_true, tileStep, hon, onData, tileOf_onTile]
    rw [issueBundle_issues hm hw he hi hh hu hn]
    rfl

theorem issueWhen_work {s : State} {i : Issue} {b : Bun} {f : Bun → Bool} (h : Issues s i b) (hf : f b = true) :
    (tileOf (issueWhen i f s.sys).data i.tile).work =
      Tile.work
        (let tn := tileNow (ctxOf (envOf s.sys) s.sys.data i.tile) i (tileReady s i)
         { unitsOf s i b with
           regs := { applyWrs (tileReady s i).regs (writesOf s i b) with
             loops := (nextOf (cOutOf s i b) (tileReady s i).seq.pc).2.1 }
           seq := { seqIssued i.cycle (cOutOf s i b).taken.isSome (opOr .nop (tileReady s i).regs b.m)
               (opOr .nop (tileReady s i).regs b.v) (bundleWrites (tileReady s i).regs b) tn.seq with
             pc := (nextOf (cOutOf s i b) (tileReady s i).seq.pc).1
             lastPc := BitVec.ofNat 14 (tileReady s i).seq.pc
             beatAt := if (cOutOf s i b).beat then some (i.cycle + 1) else tn.seq.beatAt } }) := by
  obtain ⟨w, -, e⟩ := issueWhen_tile h hf
  rw [e, issueNow_work]
  rw [show (tileNow (ctxOf (envOf s.sys) s.sys.data i.tile) i (tileReady s i)).regs = (tileReady s i).regs from
    (tileNow_same ..).1]
  simp only [writesOf, bundleWrs_tile _ _ _ _ _ _ _ (tileReady s i)]
  rfl

/-- The registers an issuing bundle leaves. -/
theorem issueWhen_regs {s : State} {i : Issue} {b : Bun} {f : Bun → Bool} (h : Issues s i b) (hf : f b = true) :
    (tileOf (issueWhen i f s.sys).data i.tile).regs =
      { applyWrs (tileOf s.sys.data i.tile).regs (writesOf s i b) with
        loops := (nextOf (cOutOf s i b) (tileOf s.sys.data i.tile).seq.pc).2.1 } := by
  rw [Tile.work_regs (issueWhen_work h hf), tileReady_regs, tileReady_pc]

/-- The next address of an issuing bundle. -/
theorem issueWhen_pc {s : State} {i : Issue} {b : Bun} {f : Bun → Bool} (h : Issues s i b) (hf : f b = true) :
    (tileOf (issueWhen i f s.sys).data i.tile).seq.pc =
      (nextOf (cOutOf s i b) (tileOf s.sys.data i.tile).seq.pc).1 := by
  rw [Tile.work_seq (issueWhen_work h hf), tileReady_pc]

/-- The store an issuing bundle leaves. -/
theorem issueWhen_store {s : State} {i : Issue} {b : Bun} {f : Bun → Bool} (h : Issues s i b) (hf : f b = true) :
    (tileOf (issueWhen i f s.sys).data i.tile).store = (unitsOf s i b).store :=
  (Tile.work_store (issueWhen_work h hf) :)

/-- A slot command leaves every other tile as it was. -/
theorem issueWhen_other (i : Issue) (f : Bun → Bool) (x : Module) (n : Nat) (h : n ≠ i.tile) :
    tileOf (issueWhen i f x).data n = tileOf x.data n := by
  unfold issueWhen
  split
  · split
    · unfold tileStep
      split
      · simp only [onData, tileOf_onTile, h, if_false]
      · rfl
    · rfl
  · rfl

/-- An executing slot carries its operation. -/
theorem opOr_op {α : Type} {d o : α} {r : Regs} {p : Pred} (h : executes r p = true) : opOr d r ⟨p, .op o⟩ = o := by
  simp [opOr, running?, h]

/-- A suppressed slot carries none. -/
theorem opOr_suppressed {α : Type} {d : α} {r : Regs} {x : Slot α} (h : executes r x.pred = false) : opOr d r x = d := by
  simp [opOr, running?, h]

/-! ### Which registers a slot's writes name -/

/-- The register a write names. -/
def wrName : Wr → RegName
  | .s n _ => .s n
  | .p n _ => .p n
  | .a n _ => .a n
  | .vq n _ _ => .v n

theorem wholeV_names {lat r : Nat} {v : VReg} {w : TWr} (h : w ∈ wholeV lat r v) : wrName w.wr = .v r := by
  simp only [wholeV, List.mem_map] at h
  obtain ⟨q, -, rfl⟩ := h
  rfl

/-- A C-slot operation writes the registers it names and no others. -/
theorem execC_names {cx : Ctx} {ix : Nat} {t : Tile} {pc : Nat} {o : COp} {w : TWr}
    (h : w ∈ (execC cx ix t pc o).writes) : wrName w.wr ∈ destsC o := by
  cases o <;> simp only [execC, cWrites, loopOut] at h
  case loop => split at h <;> simp at h
  case loopi => split at h <;> simp at h
  case csrr =>
    rcases List.mem_cons.mp h with rfl | h
    · simp [wrName, destsC]
    · rw [List.mem_singleton] at h
      subst h
      simp [wrName, destsC]
  all_goals simp at h <;> subst h <;> simp [wrName, destsC]

/-- An M-slot operation writes the registers it names and no others. -/
theorem execM_names {cx : Ctx} {t0 t : Tile} {cyc : Nat} {o : MOp} {w : TWr} (h : w ∈ (execM cx t0 t cyc o).2.1) :
    wrName w.wr ∈ destsM o := by
  cases o <;> simp only [execM] at h
  case ldv =>
    obtain ⟨q, -, rfl⟩ := List.mem_map.mp h
    simp [wrName, destsM]
  case wfill => split at h <;> simp at h
  case sarm => split at h <;> simp at h
  case xsnd => simp at h
  all_goals simp at h <;> subst h <;> simp [wrName, destsM]

/-- A V-slot operation writes the register it names and no other. -/
theorem execV_names {t : Tile} {o : VOp} {w : TWr} (h : w ∈ (execV t o).writes) : wrName w.wr ∈ destsV o := by
  cases o <;> simp only [execV, vWhole] at h
  case nop => simp at h
  case vcmpp =>
    rw [List.mem_singleton] at h
    subst h
    simp [wrName, destsV]
  all_goals rw [wholeV_names h]; simp [destsV]

end Sys2Proof.Machine
end

