-- ==== Sys2Proof/Tests/Slice0.lean ====
section
/-!
SUPPORT. The model's own tests: ill-formed commands are refused by `wellFormed`, words laid out from the tables of the spec
decode to their operations, and for every statement with hypotheses a small state that meets them, with what one step
leaves where that is quick to compute. `after c s p`: the command answers a next state, and `p` holds of it.
-/

namespace Sys2Proof.Tests

open Sys2Proof Sys2Proof.Machine

set_option Elab.async false

/-- The command answers a next state of which `p` holds. -/
def after (c : Instr) (s : State) (p : State → Bool) : Bool :=
  match exec c s with
  | .next t => p t
  | _ => false

/-- The command changes nothing. -/
def idle (c : Instr) (s : State) : Bool := after c s fun t => decide (t = s)

/-- A state from the module at reset. -/
def mk (f : Module → Module) : State := ⟨[], f Module.reset⟩

/-- Physical tile 0. -/
def t0 : TileIx := 0

/-- A powered tile at a bundle. -/
def tileAt (w : Bundle) (f : Tile → Tile) : Tile := f { Tile.off with tstate := .issue, imem := [(0, w)] }

/-- A powered data plane with tile 0. -/
def withTile (t : Tile) : State := mk (onData fun d => { d with on := true, tiles := [(0, t)] })

/-- A powered data plane. -/
def withData (f : Data → Data) : State := mk (onData fun d => f { d with on := true })

/-- A bundle of four slot words. -/
def bundle (c m t v : W32) : Bundle := c ++ m ++ t ++ v

/-- Tile 0 issues in cycle 10 of a beat. -/
def iss : Issue := Issue.plain t0 10

/-! ### Well-formed commands -/

def msg0 : Msg := ⟨0, 1, 1, 1, 7⟩
def rack : Requester := ⟨0, 1, 0⟩
def cell0 : Cell := ⟨1, 0, false, false, false, 8, List.replicate 16 8, none, 0, [], [], 0⟩
def frame0 : FrameMeas := ⟨0, 0, 0, 0, 0, 0, 0, [0, 0, 0, 0], false, 0, List.replicate 20 0, 0⟩

/-- A command inside each bound that `wellFormed` sets. -/
theorem test_wellFormed :
    ([.vqmx iss ⟨false, 0⟩ 0 0 .e2m1 false 0, .unscheduledPacketArrive 0 [⟨1279, 8, 8⟩] [] .accepted,
      .stackRequest (.other 0 ⟨23, 2, false, 0, 64, .get⟩), .stackTrainStateDone 0 [65],
      .j4Snapshot (List.replicate 64 0), .scarfCellReceive 0 cell0 0 [], .scarfTrainStateDone 0 (.peer ⟨0, 3, 11, 0⟩),
      .scarfTrainStateDone 0 (.lanes (List.replicate 9 0) (List.replicate 9 0)),
      .hostClose { msg0 with engine := 3 }, .loadBegin msg0 0 (List.replicate 160 0), .sysDesc msg0 (List.replicate 45 0),
      .qpOpen msg0 0 0 2, .dataEventAck { msg0 with addr := 2 ^ 128 - 1 } 0 true, .hostTurn msg0 7,
      .turnPhaseDone [⟨63, [], [(0, 1), (5, 2)], 0⟩], .fastDecayEnd 0 [],
      .frameBoundary frame0, .domainForce 0 ⟨2, 5, 0xFFFF⟩ 0 0,
      .envelopeWrite 0 rack 0 (List.replicate 124 0), .sensorConversion [(.meter, .ok 8000), (.supply, .ok 0)],
      .driveLoop [0, 0, 0, 0, 0, 0], .sequencerScheduleWrite Schedule.idle,
      .powerApplied ⟨0, 0, true, true, ⟨[1], [0], [], []⟩⟩, .startStepDone (.blocks [true, true, true, true] 0),
      .startStepDone (.phases [(63, [17])]), .startStepDone (.tiles [1279]), .safetyAlarm (.heard 0 0 []),
      .dictRead ⟨0, rack, 1, 0x2000, 0, 4, 0, List.replicate 48 0⟩, .authorityTable 0 rack 0 (List.replicate 288 0),
      .matrix 0 rack 0 (List.replicate 512 0), .hostPortOtherFrame 0 (.pause 7)] : List Instr).all Instr.wellFormed = true := by
  decide +kernel

/-- Each bound passed by one is refused. -/
theorem test_illFormed :
    ([.vqmx iss ⟨false, 0⟩ 0 0 .bf16 false 0, .vqmx iss ⟨false, 0⟩ 0 0 .int8 false 0,
      .unscheduledPacketArrive 0 [⟨1280, 8, 8⟩] [] .accepted, .unscheduledPacketArrive 0 [⟨0, 9, 8⟩] [] .accepted,
      .unscheduledPacketArrive 0 [⟨0, 8, 9⟩] [] .accepted,
      .stackRequest (.other 0 ⟨24, 2, false, 0, 64, .get⟩), .stackRequest (.other 0 ⟨23, 3, false, 0, 64, .get⟩),
      .stackTrainStateDone 0 [66], .j4Snapshot (List.replicate 63 0), .scarfCellReceive 0 { cell0 with swapLane := 9 } 0 [],
      .scarfCellReceive 0 { cell0 with credits := [] } 0 [], .scarfCellReceive 0 { cell0 with words := List.replicate 9 0 } 0 [],
      .scarfCellReceive 0 { cell0 with units := List.replicate 20 ⟨0, [], none, 0, none⟩ } 0 [],
      .scarfCellReceive 0 { cell0 with units := [⟨0, List.replicate 513 0, none, 0, none⟩] } 0 [],
      .scarfTrainStateDone 0 (.peer ⟨0, 4, 0, 0⟩), .scarfTrainStateDone 0 (.peer ⟨0, 0, 12, 0⟩),
      .scarfTrainStateDone 0 (.lanes [] (List.replicate 9 0)),
      .hostClose { msg0 with engine := 4 }, .hostStart { msg0 with addr := 2 ^ 128 }, .loadBegin msg0 0 [], .sysDesc msg0 [],
      .qpOpen msg0 0 0 3, .hostTurn msg0 8, .turnPhaseDone [⟨64, [], [], 0⟩], .turnPhaseDone [⟨0, [], [(5, 2), (0, 1)], 0⟩],
      .fastDecayEnd 0 (List.replicate 4002 0), .frameBoundary { frame0 with blocks := [] },
      .frameBoundary { frame0 with valves := [] }, .domainForce 0 ⟨0, 32, 0⟩ 0 0, .domainForce 0 ⟨1, 0, 1⟩ 0 0,
      .domainForce 0 ⟨2, 5, 0x10000⟩ 0 0, .domainForce 0 ⟨3, 5, 0⟩ 0 0, .envelopeWrite 0 rack 0 [],
      .sensorConversion [(.meter, .bad), (.meter, .ok 0)], .sensorConversion [(.meter, .ok 8001)], .driveLoop [],
      .sequencerScheduleWrite { Schedule.idle with pump := 101 },
      .sequencerScheduleWrite { Schedule.idle with duties := [] }, .sequencerScheduleWrite { Schedule.idle with fans := [0, 0, 0, 101] },
      .powerApplied ⟨0, 0, true, true, ⟨[2], [], [], []⟩⟩, .mgmtWarmStart true true ⟨[], [2], [], []⟩,
      .startStepDone (.blocks [true] 0), .startStepDone (.prime ⟨false, 0, [], 0, 0⟩), .startStepDone (.phases [(64, [])]),
      .coldStart [.phases [(0, [18])]], .startStepDone (.tiles [1280]),
      .safetyAlarm (.heard 0 0 (List.replicate 65 0)), .dictRead ⟨0, rack, 1, 0x2000, 0, 4, 0, List.replicate 49 0⟩,
      .authorityTable 0 rack 0 [], .matrix 0 rack 0 [], .hostPortOtherFrame 0 (.pause 8)] : List Instr).all
      (fun c => !c.wellFormed) = true := by decide +kernel

/-! ### Slot operations -/

/-- Words of the C slot laid out field by field from the table of R106. -/
def wordsC : List (W32 × COp) :=
  [(0x04064287, .alu 3 4 5 .sra),
   (0x08064FFF, .addi 3 4 (-1)),
   (0x0C064FFF, .andi 3 4 0xFFF),
   (0x10064800, .ori 3 4 0x800),
   (0x143E0001, .xori 31 0 1),
   (0x1806401F, .shli 3 4 31),
   (0x1C064001, .shri 3 4 1),
   (0x20064010, .srai 3 4 16),
   (0x240647FF, .muli 3 4 0x7FF),
   (0x28068000, .movl 3 0x8000),
   (0x2C061234, .movh 3 0x1234),
   (0x30110B00, .cmp 2 4 5 .ltu),
   (0x34111FFF, .cmpi 2 4 .ge (-1)),
   (0x38117800, .plog 2 1 3 .andn),
   (0x40003FFF, .br 0x3FFF),
   (0x44060123, .jal 3 0x123),
   (0x48080000, .jr 4),
   (0x4C080007, .loop 4 7),
   (0x503FC007, .loopi 255 7),
   (0x54000000, .lpop),
   (0x5808000E, .csrr 2 0x0E),
   (0x5C080020, .csrw 2 0x20),
   (0x60000000, .sig),
   (0x64000000, .beat)]

/-- Words of the M slot laid out field by field from the table of R116. -/
def wordsM : List (W32 × MOp) :=
  [(0x04065FFF, .lds 3 2 (-1)),
   (0x08084001, .sts 4 2 1),
   (0x0C3F2601, .ldv 63 2 (.quarter 3) 1),
   (0x0C052800, .ldv 5 2 .full 0),
   (0x100521FF, .stv 5 2 (.quarter 0) (-1)),
   (0x10052800, .stv 5 2 .full 0),
   (0x143CA000, .aaddi 15 2 0x2000),
   (0x183C89C0, .aadd 15 2 4 7),
   (0x1C3C8500, .amov 15 4 5),
   (0x20065000, .aget 3 2 true),
   (0x24291800, .wfill true .scales 2 6),
   (0x280BFFE6, .sarm 2 0xFFF true 3),
   (0x28080046, .sarm 2 1 false 3),
   (0x2C080000, .ureq 2),
   (0x30088380, .xsnd 2 4 1 3),
   (0x3407FFFC, .vext 3 63 511)]

/-- Words of the T slot laid out field by field from the table of R126. -/
def wordsT : List (W32 × TOp) :=
  [(0x04242800, .tcfg true 4 5),
   (0x0804A400, .trow false 2 5 4 0),
   (0x0C200000, .tswp true),
   (0x103FFF00, .tdrn true 63 3 31)]

/-- Words of the V slot laid out field by field from the table of R134. -/
def wordsV : List (W32 × VOp) :=
  [(0x04072095, .vfp 7 8 9 .fnma),
   (0x08072200, .vfn 7 8 .neg),
   (0x0C072098, .vcmp 7 8 9 .ilt),
   (0x102904D8, .vcmpp 5 8 9 .ieq true),
   (0x14072090, .vsel 7 8 9),
   (0x18072000, .vsplat 7 4),
   (0x1C070000, .viota 7),
   (0x20072090, .vperm 7 8 9),
   (0x240723FE, .vrot 7 8 511),
   (0x28072040, .vcvt 7 8 (.into .e4m3)),
   (0x28072380, .vcvt 7 8 (.outOf .int8)),
   (0x2C0722F0, .vsr 7 8 .e2m1 7),
   (0x30072280, .vpack 7 8 .k4Scales),
   (0x34072080, .vunpk 7 8 .b6),
   (0x38072200, .vred 7 8 true),
   (0x3C072258, .vqmx 7 8 .e5m2 true 3),
   (0x40072096, .vqk4 7 8 4 true 3)]


theorem test_wordsC : ∀ x ∈ wordsC, decodeC x.1 = .op x.2 := by decide
theorem test_wordsM : ∀ x ∈ wordsM, decodeM x.1 = .op x.2 := by decide
theorem test_wordsT : ∀ x ∈ wordsT, decodeT x.1 = .op x.2 := by decide
theorem test_wordsV : ∀ x ∈ wordsV, decodeV x.1 = .op x.2 := by decide

/-- Reserved opcodes and reserved field values (R95, R96, R106, R116, R134). -/
theorem test_reserved_words :
    decodeC 0x3C000000 = .reserved ∧ decodeC 0x68000000 = .reserved ∧ decodeM 0x38000000 = .reserved ∧
    decodeT 0x14000000 = .reserved ∧ decodeV 0x44000000 = .reserved ∧ decodeC 0x0400000D = .badField ∧
    decodeC 0x30000180 = .badField ∧ decodeM 0x0C000A00 = .badField ∧ decodeM 0x24180000 = .badField ∧
    decodeV 0x0400000F = .badField ∧ decodeV 0x280001C0 = .badField ∧ decodeV 0x3C000280 = .badField := by decide

/-- What the slot witnesses share: small registers, one loop, two schedule entries (a mesh send and a stack read), one
exchange class, and a legal truss configuration word. -/
def slotTile (w : Bundle) : Tile :=
  tileAt w fun t => { t with
    regs := { t.regs with
      s := [(3, 9), (4, 5), (6, 0x00010002)], a := [(2, 0x1000), (3, 0x1000000040)], p := [(1, true)], loops := [⟨1, 5, 2⟩] }
    xfer := { t.xfer with
      sched := [(1, 0x40000000000000000000000000000000 ||| (100#128 <<< 115)), (4095, 0xC0000000000000000000000000000000 ||| (100#128 <<< 115))]
      classes := [(1, some ⟨2, true, 3, 4, 0x2000, 512, 0x8000⟩)] } }

def slotState (c m t v : W32) : State :=
  mk (onData fun d => { d with
    on := true, tiles := [(0, slotTile (bundle c m t v))], fields := [(0, { Field.off with on := true, mode := .full })] })

/-- Predicate p0, not inverted. -/
def pAlways : Pred := ⟨false, 0⟩

/-- Witness of the slot statements: every word issues on its tile, its slot executes, and no other slot writes. -/
theorem test_slots_issueC : ∀ x ∈ wordsC,
    IssuesC (slotState x.1 0 0 0) iss (decodeBundle (bundle x.1 0 0 0)) pAlways x.2 ∧
      destsM (runM (slotState x.1 0 0 0) iss (decodeBundle (bundle x.1 0 0 0))) = [] ∧
      destsV (runV (slotState x.1 0 0 0) iss (decodeBundle (bundle x.1 0 0 0))) = [] := by
  simp only [IssuesC, Issues, ChunksRead]; decide +kernel
theorem test_slots_issueM : ∀ x ∈ wordsM,
    IssuesM (slotState 0 x.1 0 0) iss (decodeBundle (bundle 0 x.1 0 0)) pAlways x.2 ∧
      destsC (runC (slotState 0 x.1 0 0) iss (decodeBundle (bundle 0 x.1 0 0))) = [] ∧
      destsV (runV (slotState 0 x.1 0 0) iss (decodeBundle (bundle 0 x.1 0 0))) = [] := by
  simp only [IssuesM, Issues, ChunksRead]; decide +kernel
theorem test_slots_issueT : ∀ x ∈ wordsT,
    IssuesT (slotState 0 0 x.1 0) iss (decodeBundle (bundle 0 0 x.1 0)) pAlways x.2 := by
  simp only [IssuesT, Issues, ChunksRead]; decide +kernel
theorem test_slots_issueV : ∀ x ∈ wordsV,
    IssuesV (slotState 0 0 0 x.1) iss (decodeBundle (bundle 0 0 0 x.1)) pAlways x.2 ∧
      destsC (runC (slotState 0 0 0 x.1) iss (decodeBundle (bundle 0 0 0 x.1))) = [] ∧
      destsM (runM (slotState 0 0 0 x.1) iss (decodeBundle (bundle 0 0 0 x.1))) = [] := by
  simp only [IssuesV, Issues, ChunksRead]; decide +kernel

/-- R106's results, worked by hand from s3 = 9 and s4 = 5. -/
theorem test_scalar_results :
    ((wordsC.take 11).zip [5#32, 4#32, 5#32, 0x805#32, 1#32, 0x80000000#32, 2#32, 0#32, 10235#32, 0x8000#32, 0x12340009#32]).all
      (fun x => after (commandC iss pAlways x.1.2) (slotState x.1.1 0 0 0) fun t =>
        decide (readS (tileIn t 0).regs (if x.1.2 = .xori 31 0 1 then 31 else 3) = x.2)) = true := by decide +kernel

/-- A slot command on another bundle than its own does nothing (log 19). -/
theorem test_other_bundle : idle (.sig iss pAlways) (slotState 0x64000000 0 0 0) = true := by decide +kernel

/-- The tile at bundle 5 with a loop stack. -/
def atFive (ls : List LoopEntry) (c m t v : W32) : State :=
  withTile (tileAt 0 fun x => { x with
    imem := [(5, bundle c m t v)], seq := { x.seq with pc := 5 }, regs := { x.regs with loops := ls } })

/-- Witnesses of the next-address statement: a loop that ends elsewhere, one that returns with two passes left, an outer one
that returns when the inner has none left, and loops that are all over. -/
theorem test_next_address :
    (let b := decodeBundle (bundle 0x60000000 0 0 0)
     Drives (.sig iss pAlways) iss b) ∧
    goesOn (.sig) = true ∧
    after (.sig iss pAlways) (atFive [⟨1, 9, 2⟩] 0x60000000 0 0 0) (fun t => (tileIn t 0).seq.pc == 6) = true ∧
    after (.sig iss pAlways) (atFive [⟨1, 5, 2⟩] 0x60000000 0 0 0)
      (fun t => (tileIn t 0).seq.pc == 1 && (tileIn t 0).regs.loops == [⟨1, 5, 1⟩]) = true ∧
    after (.sig iss pAlways) (atFive [⟨1, 5, 1⟩, ⟨0, 5, 3⟩] 0x60000000 0 0 0)
      (fun t => (tileIn t 0).seq.pc == 0 && (tileIn t 0).regs.loops == [⟨0, 5, 2⟩]) = true ∧
    after (.sig iss pAlways) (atFive [⟨1, 5, 1⟩] 0x60000000 0 0 0)
      (fun t => (tileIn t 0).seq.pc == 6 && (tileIn t 0).regs.loops == []) = true :=
  ⟨⟨_, by decide, fun _ => rfl⟩, by decide +kernel⟩

/-- Witness of the statement of suppressed slots: a bundle whose SIG is suppressed by p2, which holds 0. -/
theorem test_suppressed :
    let s := slotState 0x60800000 0 0 0
    let b := decodeBundle (bundle 0x60800000 0 0 0)
    Drives (.sig iss ⟨false, 2⟩) iss b ∧ Issues s iss b ∧ RunsNothing s iss b ∧
      NoLoopEnd (tileIn s 0).seq.pc (tileIn s 0).regs.loops.head?.toList ∧
      after (.sig iss ⟨false, 2⟩) s (fun t => (tileIn t 0).seq.pc == 1 && (tileIn t 0).csr.intStatus == 0) = true ∧
      emptySlot .m b = true ∧ after (.nop iss .m) s (fun t => (tileIn t 0).seq.pc == 1) = true :=
  ⟨⟨_, by decide, fun _ => rfl⟩, by simp only [Issues, ChunksRead, RunsNothing, NoLoopEnd]; decide +kernel⟩

/-- Witnesses of the statement of reserved encodings: SIG beside a reserved opcode that is suppressed, and beside a reserved
field value in an executing slot; the tile takes fault 3. -/
theorem test_reserved_fault :
    (Drives (.sig iss pAlways) iss (decodeBundle (bundle 0x60000000 0x38800000 0 0)) ∧
      Drives (.sig iss pAlways) iss (decodeBundle (bundle 0x60000000 0 0 0x0400000F))) ∧
    (let s := withTile (tileAt (bundle 0x60000000 0x38800000 0 0) id)
     ReservedSlot (tileIn s 0).regs (decodeBundle (bundle 0x60000000 0x38800000 0 0)).m) ∧
    (let s := withTile (tileAt (bundle 0x60000000 0 0 0x0400000F) id)
     ReservedSlot (tileIn s 0).regs (decodeBundle (bundle 0x60000000 0 0 0x0400000F)).v) ∧
    ([bundle 0x60000000 0x38800000 0 0, bundle 0x60000000 0 0 0x0400000F].all fun w =>
      let s := withTile (tileAt w id)
      let b := decodeBundle w
      decide (tileOn s.sys.data 0 = true ∧ mayIssue (tileReady s iss) = true ∧
        (fetched (tileReady s iss)).map decodeBundle = some b) &&
      after (.sig iss pAlways) s fun t =>
        (tileIn t 0).tstate == .fault && (tileIn t 0).csr.faultCause == 3 && (tileIn t 0).csr.intStatus.getLsbD 18) = true :=
  ⟨⟨⟨_, by decide, fun _ => rfl⟩, ⟨_, by decide, fun _ => rfl⟩⟩, by simp only [ReservedSlot]; decide +kernel⟩

/-- Witnesses of the transfer statements: SARM one cycle before its slot's last chance and one after (R119, R120); UREQ with
a valid descriptor; a completed transfer; XSND at the last index below its class's capacity and at the capacity. -/
theorem test_transfers :
    ([(98, true), (99, false)].all fun x =>
      after (.sarm (Issue.plain t0 x.1) pAlways 2 1 false 3) (slotState 0 0x28080046 0 0)
        fun t => (look none (tileIn t 0).xfer.armed 1).isSome == x.2 &&
          (fieldIn t 0).intStatus.getLsbD 2 == !x.2) = true ∧
    after (.ureq iss pAlways 2) (slotState 0 0x2C080000 0 0) (fun t => (tileIn t 0).xfer.ureqs.map Ureq.id == [0]) = true ∧
    (let u : Ureq := ⟨0, 0xAB, 0x40, 3, 0, 64, 0, 0, 64, 64, 0, false⟩
     let s := withTile (tileAt 0 fun t => { t with xfer := { t.xfer with ureqs := [u] } })
     ((tileIn s 0).xfer.ureqs.find? (fun v => v.id = 0) = some u ∧ u.len ≤ u.moved ∧ s.sys.data.mesh.packets = []) ∧
      after (.ureqCompletion t0 0) s (fun t => wordAt (tileIn t 0).store 0x44 == 0xAB && (tileIn t 0).xfer.ureqs == []) = true) ∧
    ([(1, 1), (2, 0)].all fun x =>
      let s := slotState 0 0x30080200 0 0
      let s1 := { s with sys := onData (fun d => { d with
        tiles := d.tiles.map fun e => (e.1, { e.2 with xfer := { e.2.xfer with issuedX := [(1, x.1)] } }) }) s.sys }
      after (.xsnd iss pAlways 2 0 1 0) s1 fun t =>
        t.sys.data.mesh.xrecs.length == x.2 && (tileIn t 0).xfer.deferred.length == 1 - x.2 &&
          (tileIn t 0).csr.intStatus.getLsbD 7 == (x.2 == 0)) = true := by decide +kernel

/-- A truss with one row ready and drains waiting. -/
def readyTruss (n : Nat) : Truss := { Truss.zero with inflight := [List.replicate 128 1], queue := List.replicate n (List.replicate 128 2) }

/-- Witnesses of the truss statements: a row that completes with seven and with eight rows queued (R49); a drain of a queued
row, alone, ahead of a slot's write of its quarter that completes later, and together with one (R52, R103); one before its
time; one with nothing in flight (R50); fills of no unit and of one; a TROW of a row of one chunk and of two on an idle truss,
and one behind an active batch. -/
theorem test_trusses :
    ([(7, 8, false), (8, 8, true)].all fun x =>
      after (.trussRowComplete t0 false 20) (withTile (tileAt 0 fun t => { t with truss0 := readyTruss x.1 })) fun t =>
        (tileIn t 0).truss0.queue.length == x.2.1 && (tileIn t 0).truss0.blocked == x.2.2) = true ∧
    ([([], 2, false), ([⟨.q 7 3, 23, false⟩], 0, false), ([⟨.q 7 3, 22, false⟩], 2, true), ([⟨.q 7 2, 23, false⟩], 2, false)].all fun x =>
      after (.trussDrain t0 false 20)
        (withTile (tileAt 0 fun t => { t with
          truss0 := { readyTruss 1 with drains := [⟨7, 3, 20⟩] }, seq := { t.seq with board := x.1 } })) fun t =>
          lane (readV (tileIn t 0).regs 7) 383 == 0 && lane (readV (tileIn t 0).regs 7) 384 == x.2.1 &&
            (tileIn t 0).truss0.queue == [] && (tileIn t 0).csr.intStatus.getLsbD 2 == x.2.2) = true ∧
    idle (.trussDrain t0 false 19) (withTile (tileAt 0 fun t => { t with truss0 := { readyTruss 1 with drains := [⟨7, 3, 20⟩] } })) = true ∧
    after (.trussDrain t0 true 20)
      (withTile (tileAt 0 fun t => { t with truss1 := { Truss.zero with drains := [⟨7, 3, 20⟩] } })) (fun t =>
        (tileIn t 0).tstate == .fault && (tileIn t 0).csr.faultCause == 5) = true ∧
    ([(0x00000000, false), (0x00010002, true)].all fun x =>
      after (.wfill iss pAlways true .weights 2 6)
        (withTile (tileAt (bundle 0 0x24211800 0 0) fun t => { t with regs := { t.regs with s := [(6, x.1)] } })) fun t =>
        (tileIn t 0).truss1.filling == x.2 && (tileIn t 0).seq.pc == 1) = true ∧
    after (.wfillDone t0 true) (withTile (tileAt 0 fun t => { t with truss1 := { Truss.zero with filling := true } }))
      (fun t => (tileIn t 0).truss1 == Truss.zero) = true ∧
    ([(none, 0, 1, none), (none, 0x01000000, 0, none),
      (some ⟨0, 0, 0, 0, 9, 1⟩, 0, 0, some (⟨0, 0, 0, 0, 256, 0⟩ : Batch))].all fun x =>
      after (.trow iss pAlways false 0 0 0 0)
        (withTile (tileAt (bundle 0 0 0x08000000 0) fun t => { t with truss0 := { Truss.zero with active := x.1, cfg := x.2.1 } })) fun t =>
        (tileIn t 0).truss0.inflight.length == x.2.2.1 && (tileIn t 0).truss0.pending == x.2.2.2 &&
          (tileIn t 0).truss0.active.isSome && (tileIn t 0).truss0.row.isSome == (x.2.1 != 0)) = true ∧
    after (.tdrn iss pAlways true 63 3 1) (withTile (tileAt (bundle 0 0 0x103FE100 0) id))
      (fun t => (tileIn t 0).truss1.drains == [⟨63, 3, 10⟩, ⟨0, 0, 11⟩]) = true := by decide +kernel

/-- BEAT waits for its work and retires in a later cycle (R55). -/
theorem test_beat_retires :
    let s := withTile (tileAt 0 fun t => { t with seq := { t.seq with beatAt := some 10 } })
    ((tileIn s 0).tstate = .issue ∧ (tileIn s 0).seq.beatAt = some 10 ∧ workDone 10 (tileIn s 0) = true) ∧
      after (.beatRetire t0 10) s (fun t => (tileIn t 0).tstate == .wait && (tileIn t 0).seq.lastDone == 10) = true ∧
      idle (.beatRetire t0 9) s = true := by decide +kernel

/-- R140's tree and R134's lanes on a small vector; a vector is all lanes, so one value is enough. -/
theorem test_vector_results :
    (let s := withTile (tileAt (bundle 0 0 0 0x1C070000) id)
     after (.viota iss pAlways 7) s fun t => lane (readV (tileIn t 0).regs 7) 511 == 511) = true ∧
    (let s := withTile (tileAt (bundle 0 0 0 0x24072002) fun t => { t with regs := { t.regs with v := [(8, 5 :: List.replicate 511 6)] } })
     after (.vrot iss pAlways 7 8 1) s fun t => lane (readV (tileIn t 0).regs 7) 511 == 5) = true ∧
    ctree (List.replicate 512 0x3F800000) = 0x44000000 ∧ addF .rne 0x3F800000 0x3F800000 = 0x40000000 ∧
    mulF .rne 0x7F800000 0 = 0x7FC00000 ∧ maxF 0x80000000 0 = 0 ∧
    (convNarrow .e4m3 .rne (val32 0x43E00000)).1 = 0x7E ∧ (widen .e2m1 7).1 = 0x40C00000 := by decide +kernel

/-! ### Tile commands, the mesh, fields and arbiters -/

/-- Field 0 powered. -/
def field0 (f : Field → Field) : Field := f { Field.off with on := true }
def withField (f : Field → Field) : State := withData fun d => { d with fields := [(0, field0 f)] }

/-- Set wins over a clear (R62), and int_force sets no reserved bit (R63), in a tile and in a field. -/
theorem test_sticky :
    (let s := withTile (tileAt 0 fun t => { t with csr := { t.csr with intStatus := 0x6 } })
     after (.intStatusClear t0 0x6 0x4) s (fun t => (tileIn t 0).csr.intStatus == 0x4) &&
       after (.intForceSet t0 0xFFFFFFFFFFFFFFFF) s fun t => (tileIn t 0).csr.intStatus == 0x3F7FFF) = true ∧
    (let s := withField fun f => { f with intStatus := 0x6, arb := { f.arb with starve := 0x3 } }
     after (.fieldIntStatusClear 0 0x6 0x204) s (fun t => (fieldIn t 0).intStatus == 0x4) &&
       after (.fieldIntForceSet 0 0xFFFF) s (fun t => (fieldIn t 0).intStatus == 0x1FF) &&
       after (.arbStarveClear 0 1) s fun t => (fieldIn t 0).arb.starve == 2) = true := by decide +kernel

/-- A tile with changed instruments. -/
def withInst (f : Instruments → Instruments) : State := withTile (tileAt 0 fun t => { t with inst := f t.inst })

/-- Counters at their wrap (R322), releases, a change of mode and a rise of bw_ctrl.enable. -/
theorem test_counters :
    (after (.evcntWrite t0 7 0x1000000000005) (withInst id) (fun t => look 0 (tileIn t 0).inst.evcnt 7 == 5) &&
     (let s := withInst fun i => { i with evcnt := [(2, 0xFFFFFFFFFFFF)], evsel := [(2, 0x8000)] }
      after (.evcntWrap t0 2 1) s fun t => look 0 (tileIn t 0).inst.evcnt 2 == 0 &&
        (look 0 (tileIn t 0).inst.evsel 2).getLsbD 63 && (tileIn t 0).csr.intStatus.getLsbD 9) &&
     after (.sampRelease t0 2) (withInst fun i => { i with sampValid := 3 }) (fun t => (tileIn t 0).inst.sampValid == 1) &&
     after (.sampCtrlWrite t0 0x6) (withInst fun i => { i with selCount := 9, sampCtrl := 1 })
       (fun t => (tileIn t 0).inst.sampCtrl.getLsbD 2 && sampMode (tileIn t 0) == 2 && (tileIn t 0).inst.selCount == 0) &&
     after (.bwCtrlWrite t0 0x80000000) (withInst id) fun t => (tileIn t 0).inst.openNext) = true := by decide +kernel

def rec0 : SampleRec := ⟨0, 0, 0, 0, 0, 0, 0, 0, 4, true⟩

/-- Records into a buffer with room, and into a full one that stops sampling; a window that has run its length. -/
theorem test_samples :
    (after (.sampleRecordWrite t0 9) (withInst fun i => { i with inProgress := some rec0, sampPtr := 63, sampSeq := 5 })
       (fun t => (tileIn t 0).inst.sampPtr == 0 && (tileIn t 0).inst.sampSeq == 6 &&
         (look 0 (tileIn t 0).inst.buffer 63).toNat / 2 ^ 96 % 2 ^ 16 == 9 &&
         (look 0 (tileIn t 0).inst.buffer 63).toNat / 2 ^ 192 % 2 ^ 32 == 5) &&
     after (.sampleRecordWrite t0 9)
       (withInst fun i => { i with inProgress := some rec0, sampValid := 64, sampCtrl := 4, sampMissed := 0xFFFF })
       (fun t => (tileIn t 0).inst.buffer == [] && (tileIn t 0).inst.sampMissed == 0xFFFF) &&
     after (.bwWindowClose t0) (withInst fun i => { i with closing := some ([(11, 7)], 5) })
       fun t => (tileIn t 0).inst.snapSeq == 1 && (tileIn t 0).inst.snapTick == 5 && (tileIn t 0).csr.intStatus.getLsbD 11 &&
         look 0 (tileIn t 0).inst.banks 11 == 7) = true := by decide +kernel

/-- Writes of a mailbox, a read-only register, sr_key and vfp_ctrl in and out of RUNNING, and int_enable. -/
theorem test_csr_writes :
    (let s := withTile (tileAt 0 id)
     let r := { s with sys := onMgmt (fun m => { m with module := .running }) s.sys }
     after (.csrWrite (.tile t0) 0x138 5) s (fun t => look 0 (tileIn t 0).csr.mailbox 7 == 5) &&
     [0x0000#16, 0x0608#16, 0x0071#16].all (fun o => after (.csrWrite (.tile t0) o 5) s fun t => tileIn t 0 == tileIn s 0) &&
     after (.csrWrite (.tile t0) 0x70 5) s (fun t => (tileIn t 0).csr.srKey == 5) &&
     after (.csrWrite (.tile t0) 0x70 5) r (fun t => (tileIn t 0).csr.srKey == 0) &&
     after (.csrWrite (.tile t0) 0x78 7) s (fun t => (tileIn t 0).csr.vfpCtrl == 3) &&
     after (.csrWrite (.tile t0) 0x78 7) r (fun t => (tileIn t 0).csr.vfpCtrl == 0) &&
     after (.csrWrite (.tile t0) 0x48 0xFFFFFFFFFFFFFFFF) s fun t => (tileIn t 0).csr.intEnable == 0x3F7FFF) = true := by
  decide +kernel

/-- Instruction memory in RESET, IDLE and ISSUE; scrubber reads; the end of a reset. -/
theorem test_imem_scrub_reset :
    (let s (x : TState) := withTile (tileAt 0 fun t => { t with tstate := x })
     [TState.reset, .idle].all (fun x => after (.instructionMemoryWrite t0 0x3FFF 5) (s x) fun t => look 0 (tileIn t 0).imem 0x3FFF == 5) &&
     after (.instructionMemoryWrite t0 9 5) (s .issue) (fun t => look 0 (tileIn t 0).imem 9 == 0 && (tileIn t 0).csr.intStatus.getLsbD 14) &&
     after (.scrubRead t0 0 (.corrected 8)) (s .wait) (fun t => (tileIn t 0).csr.storeCorrected == 1 && (tileIn t 0).csr.storeLast == 8) &&
     after (.scrubRead t0 0 .uncorrectable) (s .wait) (fun t => (tileIn t 0).tstate == .fault && (tileIn t 0).csr.faultCause == 2) &&
     after (.tileResetEnd t0) (s .reset) fun t => (tileIn t 0).tstate == .idle) = true := by decide +kernel

/-- Map writes while beats are stopped, and one that is blocked while they advance (R181). -/
theorem test_map_writes :
    (let s := withField id
     let r := { s with sys := onData (fun d => { d with beat := { d.beat with advancing := true } }) s.sys }
     after (.mapWrite (.tile 33 (some 9))) s (fun t => physTile t.sys.data 1 1 == some 9) &&
     after (.mapWrite (.module 255 0)) s (fun t => physModule t.sys.data 255 == 0) &&
     quiescent s.sys.data &&
     after (.mapWrite (.module 255 0)) r fun t => physModule t.sys.data 255 == 255 && (fieldIn t 0).intStatus.getLsbD 1) = true := by
  decide +kernel

/-- `OutputServes` as a Boolean: its own right side. -/
def serves (s : State) (a : Nat) (path : List Nat) (b : Nat) (ch : Channel) (response : Bool) (others : List Contender) : Bool :=
  winsOver (look 0 s.sys.data.mesh.served b) ⟨inPort a path, ch, response⟩ others

/-- A scheduled stack read in its cycle and out of it, a slot with nothing armed, a mesh send, a flit that lands in its cycle
and one that comes later, and a stack read's return. -/
theorem test_scheduled :
    (let s := withTile (tileAt 0 fun t => { t with
       store := [(0x41, 9)]
       xfer := { t.xfer with
         armed := [(5, some ⟨0x47, none, 0⟩), (6, some ⟨0x47, none, 0⟩)]
         sched := [(5, 0xC0000000000000000000000000000000 ||| (10#128 <<< 115) ||| (1#128 <<< 92)),
           (6, 0x40000000000000000000000000000000 ||| (10#128 <<< 115) ||| (50#128 <<< 104) ||| (2#128 <<< 56))] } })
     idle (.scheduledSlot t0 7 10) s && idle (.scheduledSlot t0 5 11) s &&
     after (.scheduledSlot t0 5 10) s (fun t => (look none (tileIn t 0).xfer.armed 5).isNone &&
       t.sys.data.mesh.returns.map (fun r => (r.tile, r.done, r.store, r.data.length)) == [(0, 0, 0x40, 128)]) &&
     decide (physModule s.sys.data 0 = (ownModule s.sys.data).toNat) &&
     after (.scheduledSlot t0 6 10)
       { s with sys := onData (fun d => { d with mesh := { d.mesh with tileMap := [(0, some 1)] } }) s.sys } (fun t =>
         t.sys.data.mesh.flits == [⟨0, 50, 0, 0, 1, 0x80, 0 :: 9 :: List.replicate 62 0⟩]) &&
     (let f := withData fun d => { d with
        tiles := [(0, tileAt 0 id)]
        mesh := { d.mesh with flits := [⟨0, 3, 0, 1, 0, 0x80, [1, 2]⟩], returns := [⟨0, 5, 0x40, 0, [7, 8], 30, 0⟩] } }
      let win : List Contender := [⟨12, .record, false⟩]
      decide (serves f 1 (dimPath 1 0) 0 .scheduled false win) &&
      after (.scheduledFlitLand 0 3 win) f (fun t => t.sys.data.mesh.flits == [] && readByte (tileIn t 0).store 0x81 == 2) &&
      idle (.scheduledFlitLand 0 4 win) f &&
      after (.lateFlitArrival 0 4 win) f (fun t => (fieldIn t 0).intStatus.getLsbD 3 && t.sys.data.sum.lateLands == 1) &&
      after (.stackReadReturn 0 30 ⟨0, 0⟩) f fun t => readByte (tileIn t 0).store 0x41 == 8)) = true := by decide +kernel

/-- A put of tile 0 to logical tile 1, which is physical tile 1 or is not mapped; its acknowledgement; the answer of another
module; its move to the escape channel past the threshold. -/
theorem test_packets :
    (let u : Ureq := ⟨0, 0, 0, 3, 0, 64, 0, 0, 64, 0, 0, false⟩
     let p : Packet := ⟨0, 0, 0, 0, 0, 1, 0x100, 0x40, 64, none, none, none, false⟩
     let s (q : Packet) (m : SMap (Option Nat)) := withData fun d => { d with
       tiles := [(0, tileAt 0 fun t => { t with xfer := { t.xfer with ureqs := [u] }, store := [(0x41, 9)] }), (1, tileAt 0 id)]
       mesh := { d.mesh with packets := [q], tileMap := m } }
     let a := s p [(1, some 1)]
     let b := s p [(1, none)]
     let hop : List Hop := [⟨1, 8, 8⟩]
     decide (physModule a.sys.data 0 = (ownModule a.sys.data).toNat ∧ physTile a.sys.data 0 1 = some 1 ∧
       physTile b.sys.data 0 1 = none ∧ packetPath 0 1 none hop = some [1] ∧ serves a 0 [1] 1 .adaptive false []) &&
     after (.unscheduledPacketArrive 0 hop [] .accepted) a (fun t => readByte (tileIn t 1).store 0x101 == 9 &&
       t.sys.data.mesh.packets == [{ p with start := 1, ack := some 0 }]) &&
     after (.unscheduledPacketArrive 0 hop [] .accepted) b (fun t => (fieldIn t 0).intStatus.getLsbD 0 &&
       t.sys.data.mesh.packets == [{ p with ack := some 2 }]) &&
     (let c := s { p with start := 1, ack := some 3 } []
      let back : List Hop := [⟨0, 8, 8⟩]
      decide (packetPath 1 0 none back = some [0] ∧ serves c 1 [0] 0 .adaptive true []) &&
      after (.unscheduledPacketArrive 0 back [] .accepted) c fun t => t.sys.data.mesh.packets == [] &&
        (tileIn t 0).xfer.ureqs.map (fun v => (v.moved, v.status)) == [(64, 3)]) &&
     after (.unscheduledPacketArrive 0 [] [] .unreachable) (s { p with away := true } []) (fun t =>
       (tileIn t 0).xfer.ureqs.map (fun v => (v.moved, v.status)) == [(64, 5)]) &&
     idle (.escapeMove 0 0 4096) a &&
     after (.escapeMove 0 0 4097) a fun t => t.sys.data.mesh.packets == [{ p with escaped := some 0 }] &&
       t.sys.data.sum.escapes == 1 && idle (.escapeMove 0 0 4097) t) = true := by decide +kernel

/-- A record lands at rank 1, index 2 of its class, in and past cycle 1,999. -/
theorem test_exchange_lands :
    ([(1999, false), (2000, true)].all fun x =>
      let s := withData fun d => { d with
        tiles := [(0, tileAt 0 fun t => { t with xfer := { t.xfer with classes := [(1, some ⟨3, true, 0, 4, 0x2000, 64, 0x108⟩)] } })]
        mesh := { d.mesh with xrecs := [⟨0, 0, ⟨0, 0, 0, 1, [7, 8]⟩, 1, 2⟩], tileMap := [(0, some 0)] } }
      decide (physTile s.sys.data 0 0 = some 0 ∧ serves s 0 (dimPath 0 0) 0 .record false [] ∧ (0x108 : Nat) < 0x2000 + 5 * 64 ∧ 0x100 + 4 ≤ 0x108) &&
      after (.exchangeRecordLand 0 x.1 []) s fun t =>
        readByte (tileIn t 0).store (0x2000 + 5 * 64 + 1) == 8 && readByte (tileIn t 0).store 0x108 == 0x20 &&
        wordAt (tileIn t 0).store 0x100 == 1 && (fieldIn t 0).intStatus.getLsbD 4 == x.2) = true := by decide +kernel

/-- An arbiter with requester 3 present. -/
def withArb (f : Arb → Arb) : State :=
  withField fun x => { x with train := .ready, mode := .full, arb := f { x.arb with present := 0xF } }
def ask3 : StackReq := ⟨3, 0, false, 0, 64, .get⟩

/-- Requests (a tile's transfer too), masks and starvation at the threshold and below it. -/
theorem test_arbiter :
    (let s := withArb id
     decide (isPresent (fieldIn s 0).arb 3 = true ∧ isPresent (fieldIn s 0).arb 22 = false ∧ burstOk (fieldIn s 0) ask3 = true) &&
     after (.stackRequest (.tile t0 0))
       { s with sys := onData (fun d => { d with
         tiles := [(0, tileAt 0 fun t => { t with xfer := { t.xfer with
           ureqs := [⟨0, 0, 0, 1, 2, 128, 0, 0x10000007C0, 0, 0, 0, false⟩] } })] }) s.sys } (fun t =>
         (fieldIn t 0).arb.pending.map (fun r => (r.q, r.cls, r.write, r.addr, r.len)) == [(0, 2, false, 0x7C0, 64)] &&
           (tileIn t 0).xfer.ureqs.map Ureq.asked == [64]) &&
     after (.stackRequest (.other 0 ask3)) s (fun t => (fieldIn t 0).arb.pending == [ask3]) &&
     after (.arbRequesterMask 0 3) (withArb fun a => { a with pending := [ask3] }) (fun t =>
       (fieldIn t 0).arb.pending == [] && (fieldIn t 0).intStatus.getLsbD 5 && !isPresent (fieldIn t 0).arb 3 &&
         idle (.arbStarve 0 3) t) &&
     after (.arbRequesterUnmask 0 22) s (fun t => isPresent (fieldIn t 0).arb 22) &&
     [(99, false), (100, true)].all (fun x =>
       after (.arbStarve 0 3) (withArb fun a => { a with req := [(3, 100#64 <<< 32)], wait := [(3, x.1)], pending := [ask3] })
         fun t => (fieldIn t 0).arb.starve.getLsbD 3 == x.2)) = true := by decide +kernel

/-- One pending request with credit is granted; in the refresh window nothing is. -/
theorem test_grants :
    (let s (r : Bool) := withArb fun a => { a with pending := [ask3], credit := [(3, 1)], roundCycles := 1023, refresh := r }
     after (.stackBurstGrant 0 1919 ⟨0, 0⟩) (s false) (fun t => (fieldIn t 0).arb.pending == [] && look 0 (fieldIn t 0).arb.grants 3 == 1 &&
       look 0 (fieldIn t 0).arb.credit 3 == 0 && (fieldIn t 0).arb.out == some (3, List.replicate 64 0)) &&
     idle (.stackBurstGrant 0 1919 ⟨0, 0⟩) (s true) && idle (.stackBurstGrant 0 1920 ⟨0, 0⟩) (s false) &&
     idle (.stackBurstGrant 0 1999 ⟨0, 0⟩) (s false) &&
     after (.stackBurstGrant 0 2000 ⟨0, 0⟩) (s true) (fun t => (fieldIn t 0).arb.pending == []) &&
     after (.stackRefreshWindow 0) (s false) fun t => (fieldIn t 0).arb.refresh) = true := by decide +kernel

/-- Training: 2, 3, 34 and 35 failed channels at its end. -/
theorem test_stack_training :
    ([(2, StkState.ready, StackMode.full), (3, .ready, .reduced), (34, .ready, .reduced), (35, .fail, .failed)].all fun x =>
      after (.stackTrainStateDone 0 []) (withField fun f => { f with train := .map, failed := List.range x.1 }) fun t =>
        (fieldIn t 0).train == x.2.1 && stackCap (fieldIn t 0).mode == stackCap x.2.2) = true ∧
    (after (.stackTrainStateDone 0 [5, 5, 66]) (withField fun f => { f with train := .test })
       (fun t => (fieldIn t 0).train == .map && (fieldIn t 0).failed == [5]) &&
     after (.stackTrainStateDone 0 [66]) (withField fun f => { f with train := .test, warm := true }) (fun t => (fieldIn t 0).train == .map) &&
     after (.stackTrainStateDone 0 [65]) (withField fun f => { f with train := .test, warm := true }) (fun t => (fieldIn t 0).train == .cal) &&
     after (.stackTrainStateDone 0 []) (withField fun f => { f with train := .cal })
       (fun t => (fieldIn t 0).train == .level)) = true := by decide +kernel

/-! ### Beats, joints, plumb and scarf -/

/-- A powered data plane whose beat generator marks boundaries. -/
def withBeat (f : BeatGen → BeatGen) : State := withData fun d => { d with beat := f { d.beat with marking := true } }

/-- The same data plane with one tile that has not retired its BEAT in a beat that advances. -/
def notDone : State :=
  withData fun d => { d with beat := { d.beat with marking := true, advancing := true, run := true }, tiles := [(0, tileAt 0 fun t => { t with csr := { t.csr with logicalValid := true } })] }

/-- A boundary with and without an executed beat, and one that cannot fall until cycle 2,255 (R149). -/
theorem test_boundaries :
    (let s := withBeat fun b => { b with tick := 7, count := 3 }
     let r := withBeat fun b => { b with tick := 7, count := 3, advancing := true }
     decide (inSystem s.sys.data = false ∧ stretchOf s.sys.data = some 0 ∧ stretchOf r.sys.data = some 0 ∧ stretchOf notDone.sys.data = none ∧ inSystem notDone.sys.data = false) &&
     after .beatBoundary s (fun t => t.sys.data.beat.tick == 8 && t.sys.data.beat.count == 3) &&
     after .beatBoundary r (fun t => t.sys.data.beat.tick == 8 && t.sys.data.beat.count == 4) &&
     idle .beatBoundary notDone &&
     after .beatOverrun notDone fun t => t.sys.data.beat.tick == 1 && t.sys.data.beat.cstretch == 256 &&
       t.sys.data.beat.fault == some 1 && !t.sys.data.beat.advancing) = true := by
  decide +kernel

/-- A step switches at its tick, not one tick before. -/
theorem test_step_switch :
    (let s (n : W64) := withBeat fun b => { b with tick := n, pend := some (4, 20) }
     idle .stepSwitch (s 19) &&
     after .stepSwitch (s 20) fun t => t.sys.data.beat.step == 4 && t.sys.data.beat.pend == none &&
       t.sys.data.beat.lastSwitch == 20) = true := by decide +kernel

/-- J1 orders with and without HALT, levels, and power-up in READY and in SERVICE. -/
theorem test_j1 :
    (let up (s : State) : State := { s with sys := onMgmt (fun m => { m with run := .up }) s.sys }
     let s (h : Bool) := up (withBeat fun b => { b with halted := h })
     after (.j1OrderWrite 0x0501) (s false) (fun t => t.sys.data.j1.order == 0x0501 && t.sys.data.j1.acted == 0) &&
     after (.j1OrderWrite 0x0501) (s true) (fun t => t.sys.data.j1.acted == 5) &&
     after (.j1LevelWrite 15 true true) (s false)
       (fun t => t.sys.data.j1.stepReq == 12 && t.sys.data.j1.hold && t.sys.data.j1.throttle) &&
     after .dataPlanePowerUp (mk (onMgmt fun m => { m with module := .ready, joints := { m.joints with order := 0x0901 } }))
       fun t => t.sys.data.on && t.sys.data.j1.order == 0x0901 && t.sys.data.j1.acted == 9 &&
         idle .dataPlanePowerUp (mk (onMgmt fun m => { m with module := .service }))) = true := by decide +kernel

/-- The J4 snapshot, once in a frame, and the placement record. -/
theorem test_j4 :
    (let s := withData fun d => { d with beat := { d.beat with count := 0x102, tick := 0x203 }, place := { d.place with code := 9, turnState := 3 } }
     decide (s.sys.mgmt.joints.snapFrame ≠ some s.sys.mgmt.frame) &&
     after (.j4Snapshot (List.replicate 64 5)) s (fun t => t.sys.mgmt.joints.snapshot.length == 1024 &&
       t.sys.mgmt.joints.snapshot.take 16 == natLe 8 0x102 ++ natLe 8 0x203 &&
       (t.sys.mgmt.joints.snapshot.drop 48).take 64 == List.replicate 64 5 && t.sys.data.sum == Summary.zero &&
       idle (.j4Snapshot (List.replicate 64 6)) t) &&
     after .j4PlacementRecord s fun t => t.sys.mgmt.joints.placement.code == 9 && t.sys.mgmt.joints.placement.turnState == 3) = true := by
  decide +kernel

/-- A run switched off leaves tiles unpowered; a tile rail above 0.20 V locks the inlet (R542, R543). -/
theorem test_halt :
    (let s (h p : Bool) : State := { withTile (tileAt 0 id) with sys := onSill (fun x => { x with on := true, halt := true, halted := h, tilePwrEn := p, ssd := .closed, contactor := true }) (withTile (tileAt 0 id)).sys }
     after .haltedRise (s false true) (fun t => t.sys.sill.halted && !t.sys.sill.tilePwrEn && !tileOn t.sys.data 0) &&
     after .haltedTimeout (s false true) (fun t => !t.sys.sill.tilePwrEn && !tileOn t.sys.data 0) &&
     after .haltedMissing (s false true) (fun t => t.sys.sill.haltMissing) &&
     after (.tileRailCheck 201) (s true false) (fun t => t.sys.sill.inletLock && t.sys.sill.ssd == .opened) &&
     idle (.tileRailCheck 200) (s true false)) = true := by decide +kernel

/-- The description of a system of two modules, this one module 0. -/
def two : SysDesc := ⟨0, 0, 2, 1, 0, 3, 0xABCD⟩
/-- A member of the system of two. -/
def inTwo (f : Plumb → Plumb) (n : W64) : State :=
  withData fun d => { d with desc := some two, beat := { d.beat with marking := true, tick := n, run := true }, plumb := f { d.plumb with assembled := true } }

/-- A word that is due leaves; a word of module 1 is taken once. -/
theorem test_state_words :
    (let x : BitVec 128 := 0x02010540000000000000000000000000
     let s (seen : SMap (List (BitVec 8))) := withData fun d => { d with
       desc := some two, engines := [(12, { Engine.off with on := true, state := .up, wordsIn := [x] })]
       plumb := { d.plumb with seen := seen }, beat := { d.beat with tick := 9 } }
     decide ((wordOf x).map (fun w => (w.origin, w.wseq)) = some (1#8, 5#8) ∧ ownModule (s []).sys.data = 0) &&
     after .stateWordSend (withData fun d => { d with beat := { d.beat with marking := true }, plumb := { d.plumb with wordDue := true, wseq := 0xFF } })
       (fun t => (t.sys.data.plumb.sent.map fun w => w.wseq) == some 0 && !t.sys.data.plumb.wordDue) &&
     after (.stateWordReceive 12) (s []) (fun t => (look [] t.sys.data.plumb.seen 1).contains 5 && look 0 t.sys.data.plumb.heard 1 == 9) &&
     after (.stateWordReceive 12) (s [(1, [5])]) fun t => t.sys.data.plumb == (s [(1, [5])]).sys.data.plumb) = true := by decide +kernel

/-- Lock, a marker, a root lost after more than 20 ticks, its takeover, a backup and a member that have been silent for
2,048 ticks, and a dead side. -/
theorem test_plumb :
    (let x : BitVec 128 := 0x01000118000000000000000000000000
     let m : Plumb → Plumb := fun p => { p with root := some 1, backup := some 0, rtick := 100, synced := true }
     decide (inSystem (inTwo m 122).sys.data = true ∧ isMember (inTwo m 122).sys.data 1 = true) &&
     after (.plumbLock true) (inTwo m 0) (fun t => t.sys.data.plumb.locked && t.sys.data.plumb.wordDue) &&
     after (.markerReceive 12) (withData fun d => { d with engines := [(12, { Engine.off with on := true, state := .up, markerIn := some (x, 0) })] })
       (fun t => (look none t.sys.data.plumb.markers 12).isSome) &&
     after .rootLost (inTwo m 122) (fun t => t.sys.data.plumb.rootLost && t.sys.data.plumb.rootClaim && t.sys.data.plumb.takeover == some 153) &&
     idle .rootLost (inTwo m 121) &&
     after .rootTakeover (inTwo (fun p => { m p with takeover := some 153 }) 153) (fun t => t.sys.data.plumb.root == some 0 && t.sys.data.plumb.takeover == none) &&
     after .backupRedesignate (inTwo (fun p => { p with root := some 0, backup := some 1 }) 2048) (fun t => t.sys.data.plumb.backup != some 1) &&
     after (.memberLost 1) (inTwo id 2048) (fun t => t.sys.data.beat.pendFault == some 5) &&
     idle (.memberLost 1) (inTwo id 2047) &&
     after .assemblyIncomplete (inTwo (fun p => { p with assembled := false, trained := true }) 0) (fun t => t.sys.data.plumb.incomplete) &&
     deadSide (inTwo id 0).sys.data) = true := by
  decide +kernel

/-- Engine 12, the first on the east side. -/
def withEng (f : Engine → Engine) : State :=
  withData fun d => { d with desc := some two, engines := [(12, f { Engine.off with on := true, state := .up })] }

/-- Lanes 0 to `n` - 1 pass with 4,096 errors, the others have one more. -/
def pass (n : Nat) : List Nat := (List.range 9).map fun l => if l < n then 4096 else 4097

/-- Training's states, with 7, 8 and 9 good lanes and latencies of 270 ns and 271 ns. -/
theorem test_scarf_training :
    (let s (x : ScfState) := withEng fun g => { g with state := x }
     let goes (x : ScfState) (f : TrainFound) (y : ScfState) (k : BitVec 4) : Bool :=
       after (.scarfTrainStateDone 12 f) (s x) fun t => (engineIn t 12).state == y && (engineIn t 12).failCause == k
     let ours : ScfIdent := ⟨0, 1, 0, 0xABCD⟩
     let peer : ScfIdent := ⟨1, 3, 11, 0xABCD⟩
     decide (ownIdent (s .id).sys.data 12 = ours ∧ peerIdent (s .id).sys.data 12 = peer) &&
     goes .bias (.calibrated true) .adapt 0 && goes .bias (.calibrated false) .fail 1 && goes .adapt (.calibrated true) .lane 0 &&
     goes .adapt (.calibrated false) .fail 2 && goes .lane (.lanes (pass 7) (pass 9)) .fail 3 &&
     goes .lane (.lanes (pass 8) (pass 9)) .id 0 &&
     after (.scarfTrainStateDone 12 (.lanes (pass 9) (pass 8))) (s .lane) (fun t => (engineIn t 12).lanes == List.range 8 &&
       (engineIn t 12).spareLane == 8 && (engineIn t 12).txLanes == List.range 8 && (engineIn t 12).ident == some ours) &&
     goes .lat (.latency 270) .up 0 && goes .lat (.latency 271) .fail 6 && goes .id (.peer peer) .lat 0 &&
     goes .id (.peer { peer with digest := 0xABCE }) .fail 5 && goes .id (.peer { peer with index := 10 }) .fail 4 &&
     goes .id (.peer { peer with module := 0 }) .fail 4 && goes .id (.peer { peer with side := 1 }) .fail 4) = true := by decide +kernel

/-- Cell 1 with its check value. -/
def cell1 : Cell := sealCell { cell0 with seq := 1 }

set_option maxRecDepth 10000 in
/-- Check values, and a codeword with 8 and with 9 symbols in error. -/
theorem test_codewords :
    (cellGood cell1 [] && !cellGood { cell1 with crc := cell1.crc ^^^ 1 } []) = true := by decide +kernel

/-- Cells sent: new with 15 unacknowledged, without units with 16, and replayed. -/
theorem test_scarf_sends :
    (let c := cell1
     after (.scarfCellSend 12 7) (withEng fun g => { g with retry := List.replicate 15 c })
       (fun t => (engineIn t 12).retry.length == 16 && (engineIn t 12).sent.map (fun x => (x.seq, x.phase)) == some (1, 0)) &&
     after (.scarfCellSend 12 7) (withEng fun g => { g with markerDue := some 5 })
       (fun t => (engineIn t 12).sent.map (fun x => (x.seq, x.marker, x.phase)) == some (1, some 5, 7)) &&
     after (.scarfCellSend 12 7) (withEng fun g => { g with retry := List.replicate 16 { c with seq := 9 }, words := [5] })
       (fun t => (engineIn t 12).retry.length == 16 && (engineIn t 12).words == [5] &&
         (engineIn t 12).sent.map (fun x => (x.seq, x.units, x.words)) == some (8, [], [])) &&
     after (.scarfCellSend 12 7) (withEng fun g => { g with replay := [c, c], rxAck := 6 })
       fun t => (engineIn t 12).replay.length == 1 && (engineIn t 12).sent.map Cell.ack == some 6) = true := by decide +kernel

set_option maxRecDepth 10000 in
/-- Cells received: good, bad, bad again while its replay is awaited, and out of order. -/
theorem test_scarf_cells :
    (let c := cell1
     let bad : Cell := { c with crc := c.crc ^^^ 1 }
     let later := sealCell { cell0 with seq := 2 }
     after (.scarfCellReceive 12 c 0 []) (withEng id) (fun t => (engineIn t 12).rxAck == 1) &&
     after (.scarfCellReceive 12 bad 0 []) (withEng id)
       (fun t => (engineIn t 12).rxAck == 0 && (engineIn t 12).nackDue && (engineIn t 12).rejecting &&
         (engineIn t 12).fails == 1 && (engineIn t 12).retries == 1) &&
     after (.scarfCellReceive 12 { bad with seq := 2 } 0 []) (withEng fun g => { g with rejecting := true })
       (fun t => (engineIn t 12).fails == 0 && (engineIn t 12).retries == 0) &&
     after (.scarfCellReceive 12 later 0 []) (withEng fun g => { g with rejecting := true })
       fun t => (engineIn t 12).rxAck == 0) = true := by decide +kernel

set_option maxRecDepth 10000 in
/-- Eight failures and seven; an ack that has not advanced for 4 µs; a lane swap of a degraded lane, its 64th good cell, the
peer's cell that comes under it; a retrain in and out of RUNNING. -/
theorem test_engine_repairs :
    (let run (s : State) : State := { s with sys := onMgmt (fun m => { m with module := .running }) s.sys }
     let late (n : W64) (s : State) : State := { s with sys := { s.sys with ts := n } }
     let lanes (g : Engine) : Engine := { g with lanes := [0, 3], spareLane := 8, laneCorr := [(3, 16385)] }
     after (.engineDown 12 false) (withEng fun g => { g with fails := 8 })
       (fun t => (engineIn t 12).state == .adapt && (engineIn t 12).failCause == 7) &&
     after (.engineDown 12 false) (late 4000 (withEng fun g => { g with retry := [cell1] }))
       (fun t => (engineIn t 12).state == .adapt) &&
     idle (.engineDown 12 false) (late 3999 (withEng fun g => { g with fails := 7, retry := [cell1] })) &&
     after (.laneSwapRequest 12 3) (withEng lanes) (fun t => (engineIn t 12).swapReq && (engineIn t 12).swapping == some (3, 0)) &&
     after (.laneSwapRequest 12 0) (withEng lanes) (fun t => (engineIn t 12).swapping == none) &&
     after (.scarfCellReceive 12 cell1 0 []) (withEng fun g => { lanes g with swapping := some (3, 63) })
       (fun t => (engineIn t 12).swapNow && idle (.laneSwapComplete 12) t) &&
     after (.scarfCellReceive 12 (sealCell { cell0 with seq := 1, swapNow := true }) 0 [])
       (withEng fun g => { lanes g with swapping := some (3, 64), swapSent := true })
       (fun t => (engineIn t 12).swapSeen && (engineIn t 12).lanes == [0, 8] &&
         after (.laneSwapComplete 12) t fun r => (engineIn r 12).spareLane == 15 && (engineIn r 12).swapping == none) &&
     after (.scarfRetrain msg0 1 0) (withEng id)
       (fun t => (engineIn t 12).state == .adapt && t.sys.data.reply == some ⟨some msg0, 0, []⟩) &&
     after (.scarfRetrain msg0 1 0xFF) (run (withEng id))
       fun t => (engineIn t 12).state == .up && t.sys.data.reply == some ⟨some msg0, 0x0410, []⟩) = true := by
  decide +kernel

/-- A module whose tile 0 sends over engine 12, running. -/
def exitDown : State :=
  mk fun x => onMgmt (fun m => { m with module := .running }) (onData (fun d => { d with
    on := true, desc := some two, engines := [(12, { Engine.off with on := true, state := .up, fails := 8 })]
    tiles := [(0, tileAt 0 fun t => { t with
      csr := { t.csr with logicalValid := true }, xfer := { t.xfer with sched := [(0, 0x40000000000000000000000000000000 ||| (1#128 <<< 84))] } })] }) x)

/-- A running module that loses an exit of scheduled flits has beat fault 8 (R253). -/
theorem test_exit_down :
    ((List.range 48).filter (isExit exitDown.sys.data) = [12] ∧ tileReported exitDown.sys.data = false) ∧
      after (.engineDown 12 false) exitDown (fun t => t.sys.data.beat.pendFault == some 8) = true := by decide +kernel

/-- A held flit one cycle before its release, at it, in the beat before, and released 288 and 289 cycles late. -/
theorem test_held_flits :
    (let s (b : BitVec 8) := withData fun d => { d with
       beat := { d.beat with advancing := true }
       tiles := [(0, tileAt 0 id)], mesh := { d.mesh with tileMap := [(33, some 0)] }
       engines := [(12, { Engine.off with on := true, state := .up, held := [⟨b, 100, 40, 1, 1, 0x80, [4, 5]⟩] })] }
     let due := 44
     (physTile (s 0).sys.data 1 1 == some 0 && !tileReported (s 0).sys.data && due + entryCycles 12 0 + 2 == 140) &&
     idle (.scarfFlitRelease 12 0 due) (s 1) && idle (.scarfFlitRelease 12 0 (due - 1)) (s 0) &&
     after (.scarfFlitRelease 12 0 due) (s 0) (fun t => (engineIn t 12).held == [] &&
       t.sys.data.mesh.flits == [⟨0, 100, 40, attachTile 12, 0, 0x80, [4, 5]⟩]) &&
     after (.scarfFlitRelease 12 0 (due + 288)) (s 0) (fun t => readByte (tileIn t 0).store 0x81 == 5 &&
       (engineIn t 12).scarfLate == 1 && t.sys.data.beat.pendFault == none) &&
     after (.scarfFlitRelease 12 0 (due + 289)) (s 0) fun t => t.sys.data.beat.pendFault == some 8) = true := by decide +kernel

/-! ### Hosts -/

/-- A state with another module. -/
def onSt (f : Module → Module) (s : State) : State := { s with sys := f s.sys }

def sess : Session := ⟨1, 1, 0, 0, none, 0, []⟩
/-- A control block with session 1, which holds the control role. -/
def withCtrl (f : Ctrl → Ctrl) : State := mk (onCtrl fun c => f { c with on := true, sessions := [sess], control := some 1, nextSession := 2 })
/-- The status a host just got. -/
def status (t : State) : Option (BitVec 16) := t.sys.ctrl.reply.map fun r => r.resp.status
/-- The state word's module state and order. -/
def wordAs (m : ModState) (o : Nat) : J2Word := { J2Word.reset with module := m, order := o }

/-- The message of the control session is new to it. -/
theorem test_from_control :
    FromControl (withCtrl fun c => { c with word := wordAs .ready 2 }) msg0 ∧ WordRuns (withCtrl fun c => { c with word := wordAs .ready 2 }) ∧
      RunExists (withCtrl fun c => { c with rc := .armed }) :=
  ⟨⟨⟨by decide, sess, by decide, by decide⟩, by decide, by decide, by decide, by decide⟩, .inl (by decide), .inl (by decide)⟩

/-- Seven sessions and eight; the role held, forced and free; CLOSE, HEARTBEAT, a bad message, and the timeouts to the
nanosecond. -/
theorem test_sessions :
    (let many (n : Nat) := withCtrl fun c => { c with sessions := (List.range n).map fun k => { sess with num := BitVec.ofNat 32 (k + 1), addr := k + 10 } }
     let m : Msg := { msg0 with addr := 99, seq := 44 }
     let at_ (n : W64) : State := { withCtrl id with sys := { (withCtrl id).sys with ts := n } }
     after (.hostOpen m false false) (many 7) (fun t => t.sys.ctrl.sessions.length == 8 && status t == some 0 && t.sys.ctrl.control == some 1) &&
     after (.hostOpen m false false) (many 8) (fun t => t.sys.ctrl.sessions.length == 8 && status t == some 0x0103) &&
     after (.hostOpen m true false) (many 7) (fun t => status t == some 0x0502) &&
     after (.hostOpen m true true) (many 7) (fun t => status t == some 0 && t.sys.ctrl.control == some 2) &&
     after (.hostClose msg0) (withCtrl id) (fun t => t.sys.ctrl.sessions == [] && t.sys.ctrl.control == none && status t == some 0) &&
     after (.hostHeartbeat msg0) (withCtrl id) (fun t => t.sys.ctrl.hostAlive && (t.sys.ctrl.reply.map fun r => r.resp.data.length) == some 30) &&
     [List.replicate 31 0, List.replicate 32 0].all (fun bs =>
       badDatagram bs && after (.badMessage 0 1 bs) (withCtrl id) fun t => status t == some 0x0101) &&
     idle (.badMessage 0 1 ([0x57, 0x4B, 1, 3] ++ List.replicate 28 0)) (withCtrl id) &&
     idle (.sessionTimeout 1) (at_ 60000000000) &&
     after (.sessionTimeout 1) (at_ 60000000001) (fun t => t.sys.ctrl.sessions == [] && t.sys.ctrl.control == none) &&
     idle .controlRoleLost (at_ 5000000000) &&
     after .controlRoleLost (at_ 5000000001) fun t => t.sys.ctrl.control == none && t.sys.ctrl.sessions == [sess]) = true := by
  decide +kernel

/-- A ring with one record, and a subscriber that wants it. -/
def ring1 (sub : List Subscriber) : EvRing := ⟨[⟨1, 0, 0, 0, 0x0101, 0, []⟩], 2, sub, []⟩

/-- Acknowledgements of a new subscriber and a ninth one; a resend; a lapse at 5 s. -/
theorem test_subscribers :
    (let subs (n : Nat) : List Subscriber := (List.range n).map fun k => ⟨k, 0, 1, 0⟩
     let d (n : Nat) (ts : W64) : State := { withData (fun x => { x with ring := ring1 (subs n) }) with
       sys := { (withData fun x => { x with ring := ring1 (subs n) }).sys with ts := ts } }
     after (.dataEventAck { msg0 with addr := 70 } 1 true) (d 7 9) (fun t => t.sys.data.ring.subs.contains ⟨70, 0, 1, 9⟩ && t.sys.data.ring.sent.length == 1) &&
     after (.dataEventAck { msg0 with addr := 70 } 1 true) (d 8 9) (fun t => t.sys.data.ring.subs.length == 8 && !t.sys.data.ring.subs.contains ⟨70, 0, 1, 9⟩) &&
     after (.runEventAck msg0 1 true) (withCtrl fun c => { c with ring := ring1 [] }) (fun t => t.sys.ctrl.ring.subs.length == 1 && status t == some 0) &&
     after (.eventResend .data 0) (d 1 9) (fun t => t.sys.data.ring.sent.length == 1) &&
     idle (.subscriberLapse .data 0) (d 1 4999999999) &&
     after (.subscriberLapse .data 0) (d 1 5000000000) fun t => t.sys.data.ring.subs == []) = true := by decide +kernel

/-- A run image's header with a turn point in every beat and every code legal on a module of one. -/
def header0 : ImgHeader := { readHeader [] with tpPeriod := 1, turnMask := 0xFF }
/-- Run control with an image, in a run state and under a word. -/
def runAs (rc : RcState) (w : J2Word) (f : Ctrl → Ctrl) : State :=
  withCtrl fun c => f { c with rc := rc, word := w, image := some header0, placement := 0x0000FF00 }
/-- The op code and turn of the order request. -/
def asked (t : State) : Option (Nat × Nat) := t.sys.ctrl.orderReq.map fun r => (r.op, r.turn)

/-- Each command that is accepted becomes an order request with its op code (R305). -/
theorem test_accepted :
    (let w := wordAs .running 2
     after (.hostHold msg0) (runAs .void w id) (fun t => asked t == some (0x10, 0)) &&
     [RcState.armed, .running, .held].all (fun r => after (.hostStop msg0) (runAs r w id) fun t => asked t == some (3, 0)) &&
     [RcState.loaded, .held].all (fun r => after (.hostStart msg0) (runAs r w id) fun t => asked t == some (1, 0)) &&
     after (.hostResume msg0) (runAs .held w id) (fun t => asked t == some (2, 0)) &&
     after (.hostCheckpoint msg0) (runAs .running w id) (fun t => asked t == some (4, 0)) &&
     pwTurnState 0x0000FF00 != 2 && codeLegal header0 [] (1, 1) (compose 0 2) && pwTurnOk 0x0000FF00 (compose 0 2) &&
     after (.hostTurn msg0 2) (runAs .running w id) (fun t => asked t == some (5, 2)) &&
     after (.hostCap msg0 0x46000000) (runAs .noImage w id) fun t => asked t == some (0x11, 0) && t.sys.ctrl.hostCap == 0x46000000) = true := by
  decide +kernel

/-- The refusals of R304, each answered and journaled. -/
theorem test_refused :
    (let gets (c : Instr) (s : State) (typ : Nat) (code : BitVec 16) : Bool :=
       after c s fun t => status t == some code && t.sys.ctrl.journal.map (fun r => (r.sub, r.result)) == [(typ, code)] && asked t == none
     [ModState.off, .standby, .coldStart, .warmStart, .safeStop, .leakCut, .service].all (fun m =>
       [RcState.noImage, .loading, .loaded, .void, .turning].all fun r =>
         let s := runAs r (wordAs m 2) id
         gets (.hostStart msg0) s 0x20 0x0410 && gets (.hostHold msg0) s 0x21 0x0410 && gets (.hostResume msg0) s 0x22 0x0410 &&
           gets (.hostCheckpoint msg0) s 0x23 0x0410 && gets (.hostStop msg0) s 0x25 0x0410) &&
     gets (.hostStart msg0) (runAs .loaded (wordAs .ready 1) id) 0x20 0x041A &&
     gets (.hostResume msg0) (runAs .held (wordAs .ready 1) id) 0x22 0x041A &&
     gets (.hostCheckpoint msg0) (runAs .running (wordAs .ready 2) fun c => { c with image := none }) 0x23 0x0412 &&
     gets (.hostStop msg0) (runAs .loaded (wordAs .ready 2) id) 0x25 0x041D &&
     gets (.hostStop msg0) (runAs .loading (wordAs .ready 2) id) 0x25 0x041E &&
     gets (.hostResume msg0) (runAs .held (wordAs .ready 2) fun c => { c with restart := true }) 0x22 0x0416) = true := by decide +kernel

/-- Skour at work, in a module state, with what else is set. -/
def skour (m : ModState) (f : Module → Module) : State := mk fun x => f (onMgmt (fun g => { g with run := .up, module := m, service := 0xFF }) x)

/-- Verdicts: accepted in READY, refused in STANDBY, discarded past 20 ms; the timeout of run control at 20 ms (R306). -/
theorem test_verdicts :
    (let req (op : Nat) (ts : W64) (m : ModState) : State :=
       skour m fun x => { onCtrl (fun c => { c with orderReq := some ⟨7, 0, 3, op⟩, on := true }) x with ts := ts }
     let wait (ts : W64) : State := { withCtrl (fun c => { c with current := some ⟨msg0, .start, 0, wordAs .ready 2⟩, orderReq := some ⟨7, 0, 0, 1⟩ }) with
       sys := { (withCtrl fun c => { c with current := some ⟨msg0, .start, 0, wordAs .ready 2⟩, orderReq := some ⟨7, 0, 0, 1⟩ }).sys with ts := ts } }
     after .orderRequest (req 1 20000001 .ready) (fun t => asked t == none && t.sys.mgmt.joints.verdictCount == 0) &&
     after .orderRequest (req 1 20000000 .standby) (fun t => t.sys.mgmt.joints.verdict == 0x0410 && t.sys.mgmt.joints.verdictCount == 1) &&
     after .orderRequest (req 1 20000000 .ready) (fun t => t.sys.mgmt.joints.verdict == 0 && t.sys.mgmt.joints.order == 0x0101 && t.sys.mgmt.module == .running) &&
     after .orderRequest (req 0x11 0 .standby) (fun t => t.sys.mgmt.joints.verdict == 0x0410) &&
     after .orderRequest (onSt (onCtrl fun c => { c with current := some ⟨msg0, .hostCap 0, 0, wordAs .standby 1⟩ }) (req 0x11 0 .standby))
       (fun t => t.sys.mgmt.joints.verdict == 0) &&
     after .orderRequest (req 5 0 .running) (fun t => t.sys.mgmt.joints.order == 0x0165 && t.sys.mgmt.module == .running) &&
     after .orderRequest (req 0x10 0 .running) (fun t => t.sys.mgmt.joints.hostHold && t.sys.mgmt.module == .running) &&
     [(0, 0), (0x462BE000, 0), (0x42C80000, 0x0320)].all (fun (v : BitVec 32 × BitVec 16) =>
       after .orderRequest (onSt (onCtrl fun c => { c with hostCap := v.1 }) (req 0x11 0 .running)) fun t =>
         t.sys.mgmt.joints.verdict == v.2) &&
     idle .orderVerdictTimeout (wait 19999999) &&
     after .orderVerdictTimeout (wait 20000000) fun t => status t == some 0x0420 && t.sys.ctrl.current == none) = true := by decide +kernel

/-- J2 and the end of a stop. -/
theorem test_j2 :
    (let s := skour .ready (onCtrl fun c => { c with
       on := true, sessions := [sess], current := some ⟨msg0, .hold, 0, wordAs .ready 2⟩, word := { J2Word.reset with verdictCount := 9 } })
     after .j2StateWordUpdate s (fun t => t.sys.ctrl.word.module == .ready && t.sys.ctrl.current == none && status t == some 0) &&
     after .j2Profile (skour .ready (onCtrl fun c => { c with profileDue := true, stepExpected := 4, profile := some [] }))
       (fun t => !t.sys.ctrl.profileDue && t.sys.mgmt.joints.minStep == 4 && getE t.sys Ent.profileState == 2) &&
     after .j2JournalRecord (skour .ready (onCtrl fun c => { c with journal := [⟨5, 0x10, 4, 3, 0x7002, 0x20, 7, 0⟩] }))
       (fun t => t.sys.ctrl.journal == [] && t.sys.mgmt.journal.map (fun e => (e.1, e.2.sequence, e.2.value)) == [(1, 1, 7)]) &&
     after .stopComplete (skour .running (onCtrl fun c => { c with on := true, rc := .stopping, image := some header0 }))
       fun t => t.sys.ctrl.rc == .noImage && t.sys.mgmt.module == .ready) = true := by decide +kernel

/-- A system description of a module of one (R241), with its CRC-32 as computed outside the model. -/
def desc0 : List Byte := [0] ++ List.replicate 5 0 ++ [1] ++ List.replicate 34 0 ++ natLe 4 0x26722A79

/-- A load that begins, takes data, and ends by its verdict or after 10 s. -/
theorem test_loads :
    (let w := wordAs .ready 2
     let j : LoadJob := ⟨2000, [], [], [], 0, false⟩
     let s (p : W32) (k : LoadJob) (ts : W64) : State := { withCtrl (fun c => { c with rc := .loading, word := w, placement := p, load := some k, image := some header0 }) with
       sys := { (withCtrl fun c => { c with rc := .loading, word := w, placement := p, load := some k, image := some header0 }).sys with ts := ts } }
     after (.loadBegin msg0 2000 [1]) (runAs .loaded w id) (fun t => t.sys.ctrl.rc == .loading && t.sys.ctrl.image == none && status t == some 0 &&
       (t.sys.ctrl.load.map fun k => (k.len, k.repair)) == some (2000, [1]) && t.sys.data.place.loadCheck == 0xFFFF) &&
     after (.loadData msg0 0 [5]) (runAs .loaded w id) (fun t => status t == some 0x0421) &&
     !loadFull 0 (takeBytes (cenvOf (s 0 j 7).sys) 1998 [5, 6, 7] j) &&
     after (.loadData msg0 1998 [5, 6, 7]) (s 0 j 7) (fun t => (t.sys.ctrl.load.map fun k => (k.bytes, k.last)) == some ([(1998, 5), (1999, 6)], 7)) &&
     after .loadComplete (s 0 { j with judged := true } 0) (fun t => t.sys.ctrl.rc == .loaded && t.sys.ctrl.load == none) &&
     after .loadComplete (s 0x03140000 { j with judged := true } 0) (fun t => t.sys.ctrl.rc == .noImage && t.sys.ctrl.image == none) &&
     idle .loadTimeout (s 0 j 9999999999) &&
     after .loadTimeout (s 0 j 10000000000) fun t => t.sys.ctrl.rc == .noImage) = true := by decide +kernel

/-- A system description, and one whose CRC is wrong. -/
theorem test_descriptions :
    (descValid desc0 && !descValid (List.replicate 45 0) &&
     after (.sysDesc msg0 desc0) (runAs .loaded (wordAs .standby 1) id) (fun t => status t == some 0 && (t.sys.data.desc.map fun d => d.scarfDelay) == some 1) &&
     after (.sysDesc msg0 (List.replicate 45 0)) (runAs .loaded (wordAs .ready 1) id) fun t => status t == some 0x0101) = true := by
  decide +kernel

/-- An image of one column. -/
def image0 (bytes : Memory) : Image := ⟨{ header0 with widths := 1 }, [⟨2, 0, 0, 0, 0, 16, []⟩], [], bytes⟩

/-- Check 10 of an arrived image, of a loaded one that passes, and of a loaded one whose tile (0, 0) sends to a module
outside the system (R274). -/
theorem test_placement_check :
    (let s (sched : SMap (BitVec 128)) := withData fun d => { d with
       place := { d.place with image := some (image0 []) }, mesh := { d.mesh with tileMap := [(0, some 0)] }
       tiles := [(0, tileAt 0 fun t => { t with xfer := { t.xfer with sched := sched } })] }
     let bad := s [(0, 0x400000000FF000000000000000000000)]
     let fits (s : State) (i : Image) (tab : Nat → Nat → List (BitVec 128)) :=
       Machine.scheduleOk s.sys.data i.header s.sys.data.place.repair 0 (logicalModule s.sys.data) tab
     fits (s []) (image0 []) (heldTables (s []).sys.data) && !fits bad (image0 []) (heldTables bad.sys.data) &&
     after .placementCheck (s []) (fun t => t.sys.data.place.loadCheck == 0) &&
     after .placementCheck bad (fun t => t.sys.data.place.loadCheck == 0x0314) &&
     tilesReady (withData id).sys.data && fits (withData id) (readImage []) (schedOf (readImage []) 0) &&
     after .placementCheck (withData fun d => { d with place := { d.place with arrived := true } })
       fun t => t.sys.data.place.image == some (readImage []) && t.sys.data.place.loadCheck == 0) = true := by decide +kernel

/-- A turn or checkpoint in progress on an image without tiles. -/
def turning (p : Nat) (chk : Bool) (ts : W64) : State :=
  mk fun x => { onData (fun d => { d with
    on := true, place := { d.place with image := some ⟨header0, [], [], []⟩, job := some ⟨p, chk, 2, 0, 9⟩ } }) x with ts := ts }

/-- The phases of a turn and their ends; its failure past one second (R281); a turn that falls due (R286). -/
theorem test_turns :
    (quiescent (turning 0 false 0).sys.data && copyServed (turning 0 false 0).sys.data && tilesReady (turning 3 false 0).sys.data &&
     [0, 1, 2].all (fun p => after (.turnPhaseDone []) (turning p false 0) fun t => (t.sys.data.place.job.map TurnJob.phase) == some (p + 1)) &&
     idle (.turnFailed .timeout) (turning 3 false 1000000000) &&
     after (.turnFailed .timeout) (turning 3 false 1000000001) (fun t => t.sys.data.place.turnState == 4 && t.sys.data.place.job == none) &&
     after .turnComplete (turning 4 false 0) (fun t => t.sys.data.place.turnState == 3 && t.sys.data.place.code == 2) &&
     after .checkpointCaptured (turning 1 true 0) (fun t => t.sys.data.place.job == none) &&
     (let s (n : Nat) := skour .running fun x => setE Ent.turnInterval 2 (editJoints (fun j => { j with runFrames := n }) x)
      idle .turnDue (s 1999) && after .turnDue (s 2000) fun t => getE t.sys Ent.turnDue == 1)) = true := by decide +kernel

/-- Host ports: CSR access by physical tile, bulk transfers at the last byte of a store and past it, queue pairs, and other
frames. -/
theorem test_host_ports :
    (let s := withData fun d => { d with
       tiles := [(0, tileAt 0 id)], mesh := { d.mesh with tileMap := [(0, some 0)] }
       hosts := [(0, { HostEngine.off with on := true, qps := [⟨5, 0, 6, 0, 0, 0, false⟩] })] }
     let gets (c : Instr) (r : Reply) : Bool := after c s fun t => t.sys.data.reply == some r
     let tok (m : Option Msg) (st : BitVec 16) (bs : List Byte) : Reply := ⟨m, st, bs⟩
     csrPlace s.sys.data 0x2000138 0 == .tile 0 0x138 && csrPlace s.sys.data 0x2000138 1 == .refused 2 &&
     after (.tcsrWrite msg0 0x2000138 0 9) s (fun t => look 0 (tileIn t 0).csr.mailbox 7 == 9 && t.sys.data.reply == some ⟨some msg0, 0, []⟩) &&
     gets (.tcsrWrite msg0 0x2000138 1 9) (tok (some msg0) 2 []) &&
     gets (.tcsrRead msg0 0x2000138 1) (tok (some msg0) 2 (List.replicate 8 0xFF)) &&
     gets (.tcsrRead msg0 0x2000078 0) (tok (some msg0) 0 (List.replicate 8 0)) &&
     bulkPlace s.sys.data 0xFFFFFF 1 == some (.store 0 0xFFFFFF) && bulkPlace s.sys.data 0xFFFFFF 2 == none &&
     after (.tstreamPut msg0 0xFFFFFF [7]) s (fun t => readByte (tileIn t 0).store 0xFFFFFF == 7) &&
     gets (.tstreamPut msg0 0xFFFFFF [7, 8]) (tok (some msg0) 1 []) &&
     gets (.tstreamGet msg0 0xFFFFFF 1 ⟨0, 0⟩) (tok (some msg0) 0 [0]) && qpAdmits s.sys.data 0 5 6 && !qpAdmits s.sys.data 0 5 7 &&
     after (.rdmaWrite 0 5 6 0x10 [7]) s (fun t => readByte (tileIn t 0).store 0x10 == 7) &&
     gets (.rdmaRead 0 5 6 0x10 1 ⟨0, 0⟩) (tok none 0 [0]) &&
     after (.rdmaRead 0 5 7 0x10 1 ⟨0, 0⟩) s (fun t => t.sys.data.reply == some ⟨none, 1, []⟩ && (hostOf t.sys.data 0).qps.all QueuePair.error) &&
     after (.qpOpen msg0 8 9 2) s (fun t => (hostOf t.sys.data 0).qps.length == 2) &&
     after (.qpClose msg0 5) s (fun t => (hostOf t.sys.data 0).qps == []) &&
     after (.hostPortOtherFrame 0 .ipv4) s (fun t => (hostOf t.sys.data 0).discarded == 1) &&
     after (.hostPortRetrain 0 (some 7)) s fun t => (hostOf t.sys.data 0).sparedLane == some 7) = true := by decide +kernel

/-- CSR access to a field, and a host's read of a stack that its arbiter serves (R208, R239). -/
theorem test_host_fields :
    (let s := withData fun d => { d with
       fields := [(0, field0 fun x => { x with train := .ready, mode := .full, mem := [(0, 9)], arb := { x.arb with present := 0x100000 } })]
       tiles := [(0, tileAt 0 id)], mesh := { d.mesh with tileMap := [(0, some 0)] } }
     csrPlace s.sys.data 0x3000028 0 == .field 0 0x28 && bulkPlace s.sys.data 0x1000000000 1 == some (.stack 0 0 0) &&
     bulkServed s.sys.data (dmaOf 0) (.stack 0 0 0) &&
     after (.tcsrRead msg0 0x3000028 0) s (fun t => t.sys.data.reply == some ⟨some msg0, 0, natLe 8 0x10000001⟩) &&
     after (.tcsrWrite msg0 0x3000028 0 0) s (fun t => (fieldIn t 0).routerCfg == 0) &&
     after (.tstreamGet msg0 0x1000000000 1 ⟨0, 0⟩) s (fun t => t.sys.data.reply == some ⟨some msg0, 0, [9]⟩)) = true := by decide +kernel

/-- A host engine with all its queue pairs opens no more. -/
theorem test_queue_pairs_full :
    after (.qpOpen msg0 8 9 2) (withData fun d => { d with hosts := [(0, { HostEngine.off with on := true, qps := List.replicate 1024 ⟨5, 0, 6, 0, 0, 0, false⟩ })] })
      (fun t => t.sys.data.reply == some ⟨some msg0, 1, []⟩) = true := by decide +kernel

/-! ### Power, coolant and actuators -/

/-- The inlet is closed and Sill runs. -/
def closed (x : Module) : Module := onSill (fun s => { s with on := true, ssd := .closed, contactor := true }) x
/-- TSCLK reads `n`. -/
def atTime (n : W64) (x : Module) : Module := { x with ts := n }
/-- Step 4 of a start on a standing power order. -/
def inStep4 : State :=
  skour .off fun x => onSill (fun s => { s with on := true }) (onMgmt (fun m => { m with start := some ⟨true, 4, 0, 0, false⟩ }) x)
/-- Alarm `n` stands. -/
def alarm (n : Nat) (t : State) : Bool := t.sys.mgmt.bus.alarms.any fun a => a.code == n

/-- The inlet at 49 V and 50 V behind the contactor, with precharge reached and not, at both ends of its range. -/
theorem test_inlet_close :
    (closing inStep4.sys && (forcedState inStep4.sys).isNone &&
     [680, 880].all (fun v => after (.inletClose 49 v (v - 20)) inStep4 fun t =>
       t.sys.sill.ssd == .closed && t.sys.mgmt.module == .standby && getE t.sys Ent.inletState == 2 && (t.sys.mgmt.start.map StartJob.step) == some 5) &&
     after (.inletClose 49 700 679) inStep4 (fun t => t.sys.sill.ssd == .precharging && getE t.sys Ent.inletState == 1) &&
     after (.inletClose 50 700 700) inStep4 (fun t => dbit t.sys.mgmt Ent.inletFlags 1 && t.sys.sill.ssd == .opened && getE t.sys Ent.startFault == 0x401) &&
     after .prechargeTimeout { inStep4 with sys := onSill (fun s => { s with ssd := .precharging }) inStep4.sys } fun t =>
       t.sys.sill.ssd == .opened && dbit t.sys.mgmt Ent.inletFlags 2 && getE t.sys Ent.startFault == 0x402 && t.sys.mgmt.start == none) = true := by
  decide +kernel

/-- Skour's order, the warning band, the three input losses at their limits, and the recovery (R336, R337, R338). -/
theorem test_inlet_open :
    (let s := skour .ready closed
     let lost := skour .off fun x => setE Ent.powerOrder 1 (beginAlarm 4 0 (editPower (fun p => { p with inletLost := true }) x))
     inletClosed s.sys && (forcedState s.sys).isNone &&
     after .inletOpen s (fun t => t.sys.sill.ssd == .opened && t.sys.mgmt.module == .off) &&
     idle .inputOutOfRange (skour .ready (editPower fun p => { p with warnFrames := 100 })) &&
     after .inputOutOfRange (skour .ready (editPower fun p => { p with warnFrames := 101 })) (fun t => dbit t.sys.mgmt Ent.inletFlags 0) &&
     [InletMeas.volts 921 50, .volts 639 2001, .amps 121 2].all (fun k => after (.inputLoss k) s fun t =>
       t.sys.sill.ssd == .opened && t.sys.mgmt.power.inletLost && t.sys.mgmt.module == .off && alarm 4 t && getE t.sys Ent.inputFaults == 1) &&
     [InletMeas.volts 920 9999, .volts 640 9999, .amps 120 9999].all (fun k => idle (.inputLoss k) s) &&
     after .inletRecovered lost fun t => !t.sys.mgmt.power.inletLost && !alarm 4 t && (t.sys.mgmt.start.map StartJob.step) == some 4) = true := by
  decide +kernel

/-- A block's first and third faults; its restart after 10 s; the bus at its limits; a phase. -/
theorem test_blocks :
    (let s (ts : W64) (f : Module → Module) := skour .ready fun x => atTime ts (closed (f (setE Ent.convState 1 x)))
     let isolated (ts : W64) := s ts fun x => setE (Ent.convState + 1) 2 x
     after (.converterFault 0) (s 9 id) (fun t => getE t.sys Ent.convState == 2) &&
     after (.converterFault 0) (s 86400000000000 (editPower fun p => { p with convFaults := [(0, [2, 1])] })) (fun t => getE t.sys Ent.convState == 3) &&
     after (.converterFault 0) (s 86400000000001 (editPower fun p => { p with convFaults := [(0, [2, 1])] })) (fun t => getE t.sys Ent.convState == 2) &&
     idle (.converterRestart 1) (isolated 9999999999) &&
     after (.converterRestart 1) (isolated 10000000000) (fun t => getE t.sys (Ent.convState + 1) == 1) &&
     after (.busUndervoltage 47999 101) (s 0 id) (fun t => t.sys.mgmt.power.throttles.busUv) &&
     idle (.busUndervoltage 48000 101) (s 0 id) && idle (.busUndervoltage 47999 100) (s 0 id) &&
     [(999, true), (1000, false)].all (fun p => after .busUndervoltageClear
       (s 0 (editPower fun w => { w with busOkFrames := p.1, throttles := { w.throttles with busUv := true } })) fun t => t.sys.mgmt.power.throttles.busUv == p.2) &&
     after (.phaseDisable 0 17) (s 0 id) fun t => look [] t.sys.mgmt.power.phasesOut 0 == [17] && phasesOf t.sys.mgmt 0 == 16) = true := by
  decide +kernel

/-- A powered data plane whose first `n` groups of domains are on: actuator drive and security, the stacks, the engines. -/
def grouped (n : Nat) (f : Data → Data) : State :=
  skour .ready fun x => setE Ent.convState 1 (onMgmt (fun m => { m with service := if n = 0 then 0x3F else 0xFF }) (onData (fun d => f { d with
    on := true
    fields := if 2 ≤ n then (List.range 64).map fun k => (k, field0 id) else []
    engines := if 3 ≤ n then (List.range 48).map fun k => (k, { Engine.off with on := true }) else [] }) x))

/-- The first and last domains of each kind come up with the groups before theirs, and not with one group fewer; a tile that
is marked or a spare; a service domain without the bus. -/
theorem test_domains :
    (let all := grouped 3 id
     [(0, true), (1278, true), (4, false), (1279, false)].all (fun (p : Fin 1404 × Bool) =>
       tileInService all.sys p.1 == p.2 && after (.domainEnable p.1) all fun t => tileOn t.sys.data p.1 == p.2) &&
     idle (.domainEnable 0) (grouped 2 id) && idle (.domainEnable 0) (onSt (setE Ent.repairMap 1) all) &&
     [1280, 1343].all (fun d => idle (.domainEnable d) (grouped 0 id) &&
       after (.domainEnable d) (grouped 1 id) fun t => (fieldOf t.sys.data (d.val - 1280)).on) &&
     [1344, 1391].all (fun d => idle (.domainEnable d) (grouped 1 id) &&
       after (.domainEnable d) (grouped 2 id) fun t => (engineOf t.sys.data (d.val - 1344)).state == .bias) &&
     [1392, 1395].all (fun d => idle (.domainEnable d) (grouped 1 id) &&
       after (.domainEnable d) (grouped 2 id) fun t => (hostOf t.sys.data (d.val - 1392)).on) &&
     after (.domainEnable 1403) (grouped 0 id) (fun t => t.sys.mgmt.service == 0xBF && t.sys.ctrl.on) &&
     idle (.domainEnable 1403) (onSt (setE Ent.convState 2) (grouped 0 id)) &&
     idle (.domainEnable 1280) (onSt (onMgmt fun m => { m with module := .service }) all)) = true := by decide +kernel

/-- The first and last domains of each kind fail. -/
theorem test_domain_faults :
    (after (.domainFault 0) (withTile (tileAt 0 id)) (fun t => !tileOn t.sys.data 0 && (getE t.sys Ent.repairMap).testBit 0) &&
     [1280, 1343].all (fun d => after (.domainFault d) (withData id) fun t =>
       (fieldOf t.sys.data (d.val - 1280)).mode == .failed && getE t.sys Ent.lastDomainFault == d.val) &&
     [1344, 1391].all (fun d => after (.domainFault d) (withData id) fun t => (engineOf t.sys.data (d.val - 1344)).state == .fail)) = true := by
  decide +kernel

/-- Power orders 0, 1 and 2 at the end of their delay; one a nanosecond early, and one in SAFE_STOP. -/
theorem test_power_orders :
    (let s (m : ModState) (o : Nat) (ts : W64) := skour m fun x => atTime ts (closed (onMgmt (fun g => { g with orderAt := some 0 })
       (setE Ent.orderDelay 2 (setE Ent.powerOrder o x))))
     idle .powerOrderAct (s .ready 0 1999999999) && idle .powerOrderAct (s .safeStop 0 2000000000) &&
     after .powerOrderAct (s .ready 0 2000000000) (fun t => t.sys.mgmt.module == .off && t.sys.sill.ssd == .opened && t.sys.mgmt.orderAt == none) &&
     after .powerOrderAct (s .ready 1 2000000000) (fun t => t.sys.mgmt.module == .standby) &&
     after .powerOrderAct (s .standby 2 2000000000) fun t => t.sys.mgmt.startDue == some true) = true := by decide +kernel

/-- A frame, the forecast, and the retained images. -/
theorem test_frames :
    (let f : FrameMeas := { frame0 with power := 5000, inletV := 700, sill := 999999 }
     let s := skour .off id
     idle (.frameBoundary f) (mk id) &&
     after (.frameBoundary f) s (fun t => t.sys.ts == 1000000 && t.sys.sf == 999999 && t.sys.mgmt.frame == 1 && t.sys.mgmt.power.frames == [5000] &&
       getE t.sys Ent.power1s == 0x40A00000) &&
     after .energyWrite s (fun t => t.sys.mgmt.records.any fun c => c.gen == 1) &&
     after (.retainedWrite true) (skour .off (onMgmt fun m => { m with recordsDirty := true })) (fun t => t.sys.mgmt.records.any fun c => c.gen == 1) &&
     after (.retainedWrite false) (skour .off (onMgmt fun m => { m with settingsDirty := true })) (fun t => t.sys.mgmt.settings.any fun c => c.gen == 1) &&
     idle (.retainedWrite false) s) = true := by decide +kernel

/-- Conversions, and a pair of sensors at each limit of R379. -/
theorem test_sensors :
    (let s (f : Cool → Cool) := skour .ready (editCool f)
     after (.sensorConversion [(.tile 2559, .ok 400)]) (s id) (fun t => look 0 t.sys.mgmt.cool.tileRaw 2559 == 400) &&
     after (.sensorConversion [(.tile 0, .bad)]) (s id) (fun t => dbit t.sys.mgmt Ent.tileSensorFaults 0 && !usable t.sys.mgmt (.tile 0)) &&
     after (.sensorConversion [(.meter, .ok 5)]) (s id) (fun t => t.sys.mgmt.cool.flow == 5) &&
     idle (.sensorConversion [(.meter, .ok 5)]) (mk id) &&
     idle (.pairDisagree 0) (s fun c => { c with apart := [(0, 10)] }) &&
     after (.pairDisagree 0) (s fun c => { c with apart := [(0, 11)] }) (fun t => dbit t.sys.mgmt Ent.pairDisagree 0 && t.sys.mgmt.cool.inDis.any fun p => p.1 == 0) &&
     after (.pairSuspect 0) (s fun c => { c with inDis := [(0, 1001)] }) (fun t => dbit t.sys.mgmt Ent.pairSuspect 0) &&
     after (.pairAgree 0) (s fun c => { c with inDis := [(0, 5)], agree := [(0, 1001)] }) fun t => t.sys.mgmt.cool.inDis == []) = true := by
  decide +kernel

/-- A coolant period, the flow margin's 1,000 frames, and a flow stop and its end at their limits. -/
theorem test_flow :
    (let s (f : Cool → Cool) := skour .ready (editCool f)
     let low (n : Nat) := s fun c => { c with watch := { c.watch with meterLow := n } }
     let stop (n : Nat) := skour .ready fun x => beginAlarm 3 0 (editCool (fun c => { c with watch := ⟨0, 0, n, some (0, 0)⟩ }) x)
     after .coolantPeriodStart (s id) (fun t => t.sys.mgmt.cool.frames == 0) &&
     idle .flowMarginEval (s fun c => { c with qCount := 999 }) &&
     after .flowMarginEval (s fun c => { c with qCount := 1000, qSum := 7 }) (fun t => t.sys.mgmt.cool.qCount == 0 && t.sys.mgmt.cool.qWins == [7]) &&
     idle .flowStop (low 10) && !crossPasses (low 11).sys &&
     after .flowStop (low 11) (fun t => t.sys.mgmt.cool.watch.stop == some (0, 0) && alarm 3 t && dbit t.sys.mgmt Ent.coolantFlags 1) &&
     idle .flowRestored (stop 100) &&
     after .flowRestored (stop 101) fun t => t.sys.mgmt.cool.watch.stop == none && !alarm 3 t) = true := by decide +kernel

/-- The thermal policy at its limits (R393, R394, R396, R397). -/
theorem test_thermal :
    (let s (f : Cool → Cool) := skour .ready fun x => setE Ent.convState 1 (editCool f x)
     idle .thermalStepRise (s fun c => { c with clamp := some (49, 0) }) &&
     after .thermalStepRise (s fun c => { c with clamp := some (50, 0), thermalStep := 3 }) (fun t => t.sys.mgmt.cool.thermalStep == 4) &&
     idle .thermalThrottle (s fun c => { c with clamp := some (0, 1000), thermalStep := 12 }) &&
     after .thermalThrottle (s fun c => { c with clamp := some (0, 1001), thermalStep := 12 }) (fun t => t.sys.mgmt.power.throttles.clamp) &&
     after .thermalStepLower (s fun c => { c with coolFrames := 1001, thermalStep := 1 }) (fun t => t.sys.mgmt.cool.thermalStep == 0) &&
     idle (.converterOvertemp 0) (s fun c => { c with convHot := [(0, 10)] }) &&
     after (.converterOvertemp 0) (s fun c => { c with convHot := [(0, 11)] }) (fun t => getE t.sys Ent.convState != 1) &&
     after .inletTempOutOfRange (s fun c => { c with inletHot := 1001 }) (fun t => dbit t.sys.mgmt Ent.coolantFlags 3) &&
     after .inletTempOutOfRange (s fun c => { c with inletCold := 1001 }) fun t => dbit t.sys.mgmt Ent.coolantFlags 4) = true := by decide +kernel

/-- The tenth sample at the default threshold of 40 µS, and one below it; a channel open for 101 samples (R398). -/
theorem test_leak_channels :
    (let s (f : LeakChan → LeakChan) := mk (onSill fun x => { x with on := true, leakA := f x.leakA })
     (getSnap 10 (s id).sys Ent.leakThreshold).num == 40 &&
     after (.leakSample false 400) (s fun c => { c with high := 9 }) (fun t => t.sys.sill.leakA.confirmed && t.sys.sill.leakA.high == 10) &&
     after (.leakSample false 399) (s fun c => { c with high := 9 }) (fun t => !t.sys.sill.leakA.confirmed && t.sys.sill.leakA.high == 0) &&
     idle (.leakChannelFault false) (s fun c => { c with low := 100 }) &&
     after (.leakChannelFault false) (s fun c => { c with low := 101 }) fun t => t.sys.sill.leakA.faulted) = true := by decide +kernel

/-- One valve channel, with Skour and the actuators at work. -/
def valve (c : Nat) (f : Chan → Chan) : State := skour .ready fun x => editAct (fun a => { a with chans := [(c, f Chan.off)] }) x

/-- The zone's differential pressure. -/
def dpIs (n : Nat) (s : State) : State := onSt (editCool fun c => { c with dp := [(0, n)] }) s
/-- Samples of a pull-in that falls by 1 A after 120 µs, and of one that does not. -/
def dips : List Nat := List.replicate 120 2000 ++ List.replicate 4 1000
def flat : List Nat := List.replicate 124 2000

/-- A pull-in's start, deferral, current limits and end. -/
theorem test_pull_ins :
    (bankOn (valve 0 id).sys 0 && !bankBusy (valve 0 id).sys 0 && bankBusy (valve 1 fun k => { k with st := .pull }).sys 0 &&
     after (.pullinStart 0) (valve 0 id) (fun t => (chanIn t 0).st == .pull) &&
     after (.pullinStart 0) (valve 1 fun k => { k with st := .pull }) (fun t => (chanIn t 0).st == .deferred && look [] t.sys.mgmt.act.waiting 0 == [0]) &&
     after (.pullinRegulationEnd 0) (valve 0 fun k => { k with st := .pull }) (fun t => (chanIn t 0).st == .decay true) &&
     [(499, true), (500, false)].all (fun p => after (.openCoilCheck 0 p.1) (valve 0 fun k => { k with st := .pull }) fun t => ((chanIn t 0).st == .faulted) == p.2) &&
     [(6000, false), (6001, true)].all (fun p => after (.coilShort 0 p.1) (valve 0 fun k => { k with st := .pull }) fun t => ((chanIn t 0).st == .faulted) == p.2)) = true := by
  decide +kernel

/-- Under profile 1 channel 18 stands for channel 19: twice the limits, and no start while an isolation valve is driven. -/
theorem test_tray_pair :
    (let pair (c : Nat) (f : Chan → Chan) := onSt (editAct fun a => { a with paired := true }) (valve c f)
     after (.pullinStart 18) (pair 19 id) (fun t => (chanIn t 19).st == .pull) &&
     after (.pullinStart 18) (pair 16 fun k => { k with st := .hold }) (fun t => (chanIn t 19).st == .off) &&
     [(999, true), (1000, false)].all (fun p => after (.openCoilCheck 18 p.1) (pair 19 fun k => { k with st := .pull }) fun t => ((chanIn t 19).st == .faulted) == p.2) &&
     [(12000, false), (12001, true)].all (fun p => after (.coilShort 18 p.1) (pair 19 fun k => { k with st := .pull }) fun t => ((chanIn t 19).st == .faulted) == p.2)) = true := by
  decide +kernel

/-- The end of fast decay with and without movement, a second pull-in, and the cross-check at its limit. -/
theorem test_movement :
    (let dec (f : Chan → Chan) := valve 0 fun k => f { k with st := .decay true }
     let chk := dpIs 1000 (valve 0 fun k => { k with st := .hold, cross := true, before := 1030 })
     dipSeen (dec id).sys 0 dips && !dipSeen (dec id).sys 0 flat &&
     after (.fastDecayEnd 0 dips) (dec id) (fun t => (chanIn t 0).st == .hold) &&
     after (.fastDecayEnd 0 flat) (dec id) (fun t => (chanIn t 0).st == .decay false && (chanIn t 0).again &&
       after (.fastDecayEnd 0 []) t fun u => (chanIn u 0).st == .off &&
         after (.movementRetry 0) u fun v => (chanIn v 0).st == .pull && (chanIn v 0).second) &&
     after (.fastDecayEnd 0 flat) (dec fun k => { k with second := true }) (fun t => (chanIn t 0).st == .hold && (chanIn t 0).cross) &&
     decide (dpOpen chk.sys = 30) && dpUsable chk.sys 0 &&
     after (.movementCrossCheck 0) chk (fun t => (chanIn t 0).st == .hold && !(chanIn t 0).cross) &&
     after (.movementCrossCheck 0) (dpIs 1001 chk) fun t => (chanIn t 0).st == .faulted) = true := by decide +kernel

/-- A bank in limit for 200 µs and 201 µs, its third trip in 10 minutes, and its retry. -/
theorem test_banks :
    (let s (ts : W64) (f : Act → Act) := skour .ready fun x => atTime ts (editAct f x)
     let off (ts : W64) := s ts fun a => { a with bankOff := [(4, true)], bankTrips := [(4, [0])] }
     idle (.bankTrip 4 200 false) (s 0 id) &&
     after (.bankTrip 4 201 false) (s 0 id) (fun t => look false t.sys.mgmt.act.bankOff 4 && getE t.sys Ent.bankTrips == 1 && !dbit t.sys.mgmt Ent.bankOff 4) &&
     after (.bankTrip 4 201 false) (s 600000000000 fun a => { a with bankTrips := [(4, [2, 1])] })
       (fun t => dbit t.sys.mgmt Ent.bankOff 4 && [16, 17, 18, 19].all fun c => (chanIn t c).st == .faulted) &&
     idle (.bankRetry 4) (off 999999999) &&
     after (.bankRetry 4) (off 1000000000) fun t => !look false t.sys.mgmt.act.bankOff 4) = true := by
  decide +kernel

/-- Zone windows, forces, the stuck-open check at its limit, and retests at their time and number. -/
theorem test_zones :
    (let duty (n : Nat) (s : State) : State := { s with sys := editAct (fun a => { a with schedule := { a.schedule with duties := List.replicate 16 n } }) s.sys }
     let bad (n : Nat) (ts : W64) : State := { valve 0 (fun k => { k with st := .faulted }) with sys := atTime ts (setE Ent.valveFaults 1
       (editAct (fun a => { a with retests := [(0, (n, 0))] }) (valve 0 fun k => { k with st := .faulted }).sys)) }
     after (.zoneWindowStart 0) (duty 1 (valve 0 id)) (fun t => (chanIn t 0).st == .pull && (chanIn t 0).window) &&
     after (.zoneWindowEnd 0) (duty 96 (valve 0 fun k => { k with st := .hold, window := true, duty := 96 })) (fun t => (chanIn t 0).st == .decay false && (chanIn t 0).check) &&
     idle (.zoneWindowEnd 0) (duty 96 (valve 0 fun k => { k with st := .hold, window := true, duty := 96, force := true })) &&
     idle (.zoneWindowEnd 0) (duty 96 (valve 0 fun k => { k with st := .hold, window := true, duty := 97 })) &&
     [(1031, true), (1030, false)].all (fun (p : Rat × Bool) =>
       after (.stuckOpenCheck 0) (dpIs 1000 (valve 0 fun k => { k with check := true, before := p.1 }))
         fun t => dbit t.sys.mgmt Ent.stuckOpen 0 == p.2) &&
     after (.zoneForce 15) (valve 15 id) (fun t => (chanIn t 15).force && dutyOf t.sys 15 == 100) &&
     after (.valveRetest 0) (bad 5 10000000000) (fun t => (chanIn t 0).st == .pull && (look (0, 0) t.sys.mgmt.act.retests 0).1 == 6) &&
     idle (.valveRetest 0) (bad 6 10000000000) && idle (.valveRetest 0) (bad 5 9999999999)) = true := by decide +kernel

/-- One pump or fan, with Skour and the actuators at work. -/
def unit (u : Nat) (f : DriveUnit → DriveUnit) : State := skour .ready fun x => editAct (fun a => { a with units := [(u, f DriveUnit.stopped)] }) x

/-- The schedule, a fan's start, a pump's loop, retries 3 and 4, and 200 ms and 201 ms without a pulse. -/
theorem test_units :
    (after (.sequencerScheduleWrite { Schedule.idle with pump := 9 }) (unit 0 id) (fun t => t.sys.mgmt.act.schedule.pump == 9) &&
     idle (.sequencerScheduleWrite Schedule.idle) (mk id) && !fanFaulted (unit 0 id).sys &&
     after (.targetStep (.fan 3) 50) (unit 0 id) (fun t => (unitOf t.sys 19).st == .starting && (unitOf t.sys 19).target == 50) &&
     after (.driveLoop [3000, 0, 0, 0, 0, 0]) (unit 0 fun d => { d with st := .running, target := 50 })
       (fun t => (unitOf t.sys 0).rpm == 3000 && (unitOf t.sys 0).volts == 30) &&
     after (.unitStartCheck (.pump 0) true) (unit 0 fun d => { d with st := .starting, retries := 2 }) (fun t => (unitOf t.sys 0).st == .running && (unitOf t.sys 0).retries == 0) &&
     after (.unitStartCheck (.pump 0) false) (unit 0 fun d => { d with st := .starting, retries := 2 }) (fun t => (unitOf t.sys 0).retries == 3 && (unitOf t.sys 0).volts == 0 && (unitOf t.sys 0).retryAt == some 500000000) &&
     after (.unitStartCheck (.pump 0) false) (unit 0 fun d => { d with st := .starting, retries := 3 }) (fun t => (unitOf t.sys 0).st == .faulted) &&
     idle (.tachLoss (.fan 0) 200) (unit 16 fun d => { d with st := .running, target := 5 }) &&
     after (.tachLoss (.fan 0) 201) (unit 16 fun d => { d with st := .running, target := 5 }) (fun t => (unitOf t.sys 16).st == .tachLoss && (unitOf t.sys 16).volts == 12) &&
     after (.tachRecover (.fan 0)) (unit 16 fun d => { d with st := .tachLoss, target := 5 }) fun t => (unitOf t.sys 16).st == .running) = true := by
  decide +kernel


/-! ### Skour and the rack bus -/

/-- Two pairs and their latest mismatches, with Skour at work. -/
def pairs (ps : List PairSt) (ms : List W64) (ts : W64) : State :=
  skour .ready fun x => atTime ts (onMgmt (fun m => { m with pairs := ps, mismatches := [ms, []] }) x)

/-- A pair's second and third mismatch within 24 hours, no standby pair, and a pair's way back (R434 to R438). -/
theorem test_pairs :
    (after (.lockstepMismatch 0) (pairs [.active, .standby] [1] 9) (fun t => t.sys.mgmt.active == 1 && t.sys.mgmt.pairs == [.selftest, .active]) &&
     after (.lockstepMismatch 0) (pairs [.active, .standby] [2, 1] 86400000000000) (fun t => t.sys.mgmt.pairs == [.retired, .active]) &&
     after (.lockstepMismatch 0) (pairs [.active, .standby] [2, 1] 86400000000001) (fun t => t.sys.mgmt.pairs == [.selftest, .active]) &&
     after (.lockstepMismatch 0) (pairs [.active, .resync] [] 9) (fun t => match t.sys.mgmt.run with | .restart a o _ => a == 9 && !o | _ => false) &&
     after (.pairSelftestDone 0 true) (pairs [.selftest, .active] [] 9) (fun t => t.sys.mgmt.pairs == [.resync, .active]) &&
     after (.pairSelftestDone 0 false) (pairs [.selftest, .active] [] 9) (fun t => t.sys.mgmt.pairs == [.retired, .active]) &&
     after (.pairResyncDone 0) (pairs [.resync, .active] [] 9) fun t => t.sys.mgmt.pairs == [.standby, .active]) = true := by decide +kernel

/-- Faults of either oscillator, holdover, and the revert at 2^20 cycles (R440 to R443). -/
theorem test_oscillators :
    (let s (c : Clocks) := skour .ready (onMgmt fun m => { m with clocks := c })
     after (.oscFault false true) (s ⟨0, .good, .good, []⟩) (fun t => t.sys.mgmt.clocks.source == 1 && t.sys.mgmt.clocks.a == .lost) &&
     after (.oscFault false false) (s ⟨0, .good, .lost, []⟩) (fun t => t.sys.mgmt.clocks.source == 2 && t.sys.mgmt.clocks.a == .deviating) &&
     after (.oscFault true true) (s ⟨0, .good, .good, []⟩) (fun t => t.sys.mgmt.clocks.source == 0) &&
     after (.oscGood true) (s ⟨2, .lost, .lost, []⟩) (fun t => t.sys.mgmt.clocks.source == 1) &&
     after (.oscGood true) (s ⟨0, .good, .lost, []⟩) (fun t => t.sys.mgmt.clocks.source == 0 && t.sys.mgmt.clocks.b == .good) &&
     after (.oscRevert 1048576) (s ⟨1, .good, .good, []⟩) (fun t => t.sys.mgmt.clocks.source == 0) &&
     idle (.oscRevert 1048575) (s ⟨1, .good, .good, []⟩)) = true := by decide +kernel

/-- Power applied to a module that never had any; it has no effect on one that has power (R447). -/
theorem test_power_applied :
    (let f : PowerFound := ⟨5, 0, true, true, StoreFound.fine⟩
     State.reset.sys.mgmt.service == 0 && pairAt State.reset.sys.mgmt 0 != .retired && (forcedState State.reset.sys).isNone &&
     after (.powerApplied f) State.reset (fun t => t.sys.sill.on && !t.sys.sill.fault && skourUp t.sys && t.sys.mgmt.active == 0 &&
       t.sys.mgmt.pairs == [.active, .standby] && t.sys.mgmt.service == 0x3F && t.sys.mgmt.module == .off && getE t.sys Ent.strapAddress == 5 &&
       getE t.sys Ent.addressInUse == 5) &&
     idle (.powerApplied f) (skour .off id)) = true := by decide +kernel

/-- A due start, and none due (R445, R446). -/
theorem test_starts :
    (let s (d : Option Bool) := skour .standby fun x => closed (onMgmt (fun m => { m with startDue := d }) x)
     let j (t : State) := t.sys.mgmt.start.map fun k => (k.cold, k.step)
     after (.coldStart []) (s (some true)) (fun t => t.sys.mgmt.module == .coldStart && j t == some (true, 6) && t.sys.mgmt.startDue == none) &&
     after (.warmStart []) (s (some false)) (fun t => t.sys.mgmt.module == .warmStart && j t == some (false, 1) && t.sys.mgmt.startDue == none) &&
     idle (.coldStart [.done]) (s none) && idle (.warmStart [.done]) (s none)) = true := by decide +kernel

/-- Steps that end, the last steps, a step that fails, and one that has its time (R447, R449, R451). -/
theorem test_start_steps :
    (let s (c : Bool) (k : Nat) (ts : W64) := skour (if c then .coldStart else .warmStart) fun x => atTime ts (closed (onMgmt (fun m => { m with start := some ⟨c, k, 0, 0, false⟩ }) x))
     let j (t : State) := t.sys.mgmt.start.map fun k => (k.cold, k.step)
     after (.startStepDone .done) (s true 9 0) (fun t => j t == some (true, 10)) &&
     after (.startStepFail false) (s true 10 0) (fun t => j t == none && getE t.sys Ent.startFault == 0xA01 && t.sys.mgmt.module == .standby && !t.sys.data.on) &&
     idle (.startStepFail true) (s true 6 48000000000) &&
     after (.startStepFail true) (s true 6 48000000001) (fun t => j t == none) &&
     (let gone := onSt (onMgmt fun m => { m with module := .safeStop }) (s true 9 0)
      idle (.startStepDone .done) gone && idle (.startStepFail true) gone)) = true := by decide +kernel

/-- The last step of a cold and of a warm start: READY. -/
theorem test_start_ends :
    (let s (c : Bool) (k : Nat) := skour (if c then .coldStart else .warmStart) fun x => closed (onMgmt (fun m => { m with start := some ⟨c, k, 0, 0, false⟩, coldNext := true }) x)
     after (.startStepDone .done) (s true 11) (fun t => t.sys.mgmt.start == none && t.sys.mgmt.module == .ready) &&
     after (.startStepDone .done) (s false 6) fun t => t.sys.mgmt.start == none && t.sys.mgmt.module == .ready) = true := by
  decide +kernel

/-- A management-only warm start, one without a pair that passes, and the rack manager's silence to the nanosecond. -/
theorem test_restarts :
    (let s := skour .running (onMgmt fun m => { m with run := .restart 0 false 3 })
     let quiet (ts : W64) := skour .ready fun x => atTime ts (setE Ent.rackAlive 1 (editJoints (fun j => { j with rackLast := some 0 }) x))
     (forcedState s.sys).isNone && s.sys.mgmt.start == none && pairAt s.sys.mgmt 0 == .active &&
     after (.mgmtWarmStart true true .fine) s (fun t => skourUp t.sys && t.sys.mgmt.module == .running && t.sys.sill.longWindow == none) &&
     after (.mgmtWarmStart false false .fine) s (fun t => t.sys.mgmt.run == .down) &&
     idle .rackAliveTimeout (quiet 5000000000) &&
     after .rackAliveTimeout (quiet 5000000001) fun t => getE t.sys Ent.rackAlive == 0 && getE t.sys Ent.autonomous == 1) = true := by decide +kernel

/-- Both channels active at node address 5, and what else is set. -/
def onBus (f : Module → Module) : State := skour .ready fun x => f (setE Ent.addressInUse 5
  (editBus (fun b => { b with chans := [(0, { BusChan.off with st := .active }), (1, { BusChan.off with st := .active })] }) x))
/-- The channel, identifier and data of the frame sent last. -/
def last (t : State) : Option Sent := t.sys.mgmt.bus.sent.getLast?

/-- Alarms out, repeats 10 and 11, and one of another module, heard once (R490, R494). -/
theorem test_alarms :
    (let a (n : Nat) : Alarm := ⟨1, 4, 0, .ready, 9, n, 5⟩
     let s (n : Nat) := onBus fun x => atTime 1000000005 (editBus (fun b => { b with alarms := [a n] }) x)
     let i := identOf 0 7 0
     let bs : List Byte := [1, 0, 4] ++ List.replicate 13 0
     after (.safetyAlarm .own) (s 0) (fun t => t.sys.mgmt.bus.alarms.map Alarm.repeats == [1] && t.sys.mgmt.bus.sent.map Sent.chan == [0, 1]) &&
     mayCarry (s 10).sys 0 0 && mayCarry (s 10).sys 1 0 &&
     after (.alarmRepeat 1) (s 10) (fun t => t.sys.mgmt.bus.alarms.map Alarm.repeats == [11] && last t == some ⟨1, identOf 0 5 0, alarmData (a 10)⟩) &&
     idle (.alarmRepeat 1) (s 11) && idle (.alarmRepeat 1) (onSt (atTime 1000000004) (s 10)) && !ignoredIdent i &&
     after (.safetyAlarm (.heard 0 i bs)) (s 0) (fun t => t.sys.mgmt.bus.heard == [7 :: bs] && idle (.safetyAlarm (.heard 1 i bs)) t)) = true := by
  decide +kernel

/-- A reference 100,000 ns and 100,001 ns off, one that may not be used, and one sent (R485, R486). -/
theorem test_reference :
    (let s := onBus fun x => setE Ent.timeSource 1 (setE Ent.gnomonBackup 5 x)
     after (.reference 0 100000 0 0 true) s (fun t => t.sys.ts == 0 && t.sys.mgmt.bus.slew == 100000 && t.sys.mgmt.bus.refUsable == 0) &&
     after (.reference 0 100001 0 0 true) s (fun t => t.sys.ts == 100001) &&
     after (.reference 0 0 100001 0 true) s (fun t => t.sys.ts == -100001) &&
     after (.reference 0 100001 0 1 true) s (fun t => t.sys.ts == 0 && t.sys.mgmt.bus.refUsable == 3) &&
     after (.reference 0 100001 0 0 false) s (fun t => t.sys.ts == 0) &&
     sendsReference (onBus fun x => setE Ent.timeSource 0 (setE Ent.gnomonNode 5 (atTime 20000000 x))).sys && exclusiveOk s.sys &&
     after (.referenceSend 1 0) (onBus fun x => setE Ent.timeSource 0 (setE Ent.gnomonNode 5 (atTime 20000000 x))) (fun t => last t == some ⟨1, identOf 1 5 2,
       natLe 8 20000000 ++ [2, 0, 0, 0, 0, 0, 0, 0]⟩) &&
     idle (.referenceSend 1 0) (onBus (setE Ent.gnomonNode 4))) = true := by decide +kernel

/-- time_source, 10 s of running free, and precision time at its limits (R484, R487, R524). -/
theorem test_time :
    (let lone := onBus (editBus fun b => { b with refUsable := 2 })
     let free (ts : W64) := onBus fun x => setE Ent.timeSource 2 (atTime ts (editBus (fun b => { b with freeSince := some 0 }) x))
     let ptp (n : Nat) := onBus fun x => setE Ent.ptpEnable 1 (setE Ent.ptpState 2 (editBus (fun b => { b with ptpGood := n }) x))
     let locked (ts : W64) := onBus fun x => setE Ent.ptpState 3 (atTime ts x)
     sourceNow lone.sys == 1 && getE lone.sys Ent.timeSource == 2 &&
     after .timeSourceChange lone (fun t => getE t.sys Ent.timeSource == 1) &&
     idle .timeSourceChange (onBus fun x => setE Ent.timeSource 2 (editBus (fun b => { b with refUsable := 3 }) x)) &&
     after .freeRunningTimeout (free 10000000000) (fun t => !exclusiveOk t.sys) && idle .freeRunningTimeout (free 9999999999) &&
     after (.ptpSync 1000) (ptp 15) (fun t => getE t.sys Ent.ptpState == 3) &&
     after (.ptpSync (-1000)) (ptp 14) (fun t => getE t.sys Ent.ptpState == 2 && t.sys.mgmt.bus.ptpGood == 15) &&
     after (.ptpSync 1001) (ptp 15) (fun t => getE t.sys Ent.ptpState == 2 && t.sys.mgmt.bus.ptpGood == 0) &&
     after .ptpSyncTimeout (locked 3000000000) (fun t => getE t.sys Ent.ptpState == 2) && idle .ptpSyncTimeout (locked 2999999999) &&
     after (.bestMasterChange 8) (locked 0) fun t => getE t.sys Ent.ptpMaster == 8 && getE t.sys Ent.ptpState == 2) = true := by decide +kernel

/-- The module's window of a status, event records, a cancel, an ignored frame and the rack manager's heartbeat. -/
theorem test_messages :
    (let s := onBus fun x => editBus (fun b => { b with status := List.replicate 24 3 }) (setE Ent.matrix (0x40000000 + 5 * 2 ^ 25 + 4 * 2 ^ 20 + 9 * 2 ^ 7) x)
     let limit := latestStart s.sys 1
     let q : QMsg := ⟨identOf 5 5 0, 5, [1]⟩
     let e := onBus fun x => setE Ent.eventTargets 0 (editBus (fun b => { b with events := [List.replicate 48 1] }) x)
     let w := onBus (editChannel 0 fun b => { b with queue := [q] })
     statusWindow s.sys 0 && exclusiveOk s.sys && mayCarry s.sys 1 4 && !statusWindow s.sys 1 &&
     after (.statusSend 1 0 limit 0) s (fun t => last t == some ⟨1, identOf 4 5 9, List.replicate 24 3 ++ natLe 8 0⟩) &&
     idle (.statusSend 1 1 0 0) s && idle (.statusSend 1 0 (limit + 1) 0) s && idle (.exclusiveWindowMissed 1 0 limit) s &&
     after (.exclusiveWindowMissed 1 0 (limit + 1)) s (fun t => getE t.sys (Ent.windowMissed + 1) == 1 && dbit t.sys.mgmt (Ent.chanFlags + 1) 5) &&
     targetsOf e.sys == [] &&
     after .eventMessageSend e (fun t => t.sys.mgmt.bus.events == [] && ((busIn t 0).queue ++ (busIn t 1).queue).map QMsg.ident == [identOf 5 5 0]) &&
     after (.messageCancel 0 0 .before) w (fun t => (busIn t 0).queue == [] && (busIn t 0).cancelled == some true && last t == none) &&
     after (.messageCancel 0 0 .completed) w (fun t => (busIn t 0).cancelled == some false && last t == some ⟨0, q.ident, [1]⟩) &&
     ignoredIdent 0 && after (.rackBusFrameIgnored 0) w (fun t => getE t.sys Ent.framesIgnored == 1) && idle (.rackBusFrameIgnored (identOf 1 31 0)) w &&
     after (.rackHeartbeat 1 1) w fun t => getE t.sys Ent.rackAlive == 1 && t.sys.mgmt.joints.rackLast == some 0) = true := by decide +kernel

/-- Channel 0 in a state. -/
def chan (s : BusSt) (f : BusChan → BusChan) (ts : W64) : State :=
  onBus fun x => atTime ts (editChannel 0 (fun b => f { b with st := s }) x)

/-- Rate detection, its five cycles, error-passive and bus-off at their limits, recovery, and a third collision. -/
theorem test_channels :
    (after (.rateDetectDwell 0 true) (chan .detecting (fun b => { b with dwell := 3 }) 0) (fun t => (busIn t 0).dwell == 0 && (busIn t 0).dwells == 1) &&
     after (.rateFound 0 true) (chan .detecting (fun b => { b with dwell := 3 }) 0) (fun t => (busIn t 0).st == .active && (busIn t 0).muted &&
       getE t.sys Ent.nominalRate == 125 && dbit t.sys.mgmt Ent.chanFlags 7) &&
     idle (.rateDetectTimeout 0) (chan .detecting (fun b => { b with dwells := 19 }) 0) &&
     after (.rateDetectTimeout 0) (chan .detecting (fun b => { b with dwells := 20 }) 0) (fun t => (busIn t 0).st == .active) &&
     after (.rateDetectTimeout 0) (chan .detecting (fun b => { b with dwells := 20, edges := true }) 0)
       (fun t => (busIn t 0).st == .detecting && dbit t.sys.mgmt Ent.chanFlags 4) &&
     after (.errorPassive 0 128 0) (chan .active id 0) (fun t => (busIn t 0).st == .passive && getE t.sys Ent.tec == 128) &&
     after (.errorPassive 0 127 126) (chan .active id 0) (fun t => (busIn t 0).st == .active && getE t.sys Ent.tec == 127 &&
       getE t.sys Ent.rec == 126) &&
     after (.addressCollision 0 (.repeated 4 4)) (chan .active id 0) (fun t => (busIn t 0).collisions == 1) &&
     idle (.addressCollision 0 (.repeated 4 5)) (chan .active id 0) && idle (.busOff 0 255) (chan .passive id 0) &&
     after (.busOff 0 256) (chan .passive (fun b => { b with recoveries := [1, 2, 3], queue := [⟨9, 5, []⟩, ⟨0, 0, []⟩] }) 60000000003)
       (fun t => (busIn t 0).st == .recovering && (busIn t 0).queue == [⟨0, 0, []⟩] && getE t.sys Ent.busOffs == 1) &&
     after (.busOff 0 256) (chan .passive (fun b => { b with recoveries := [1, 2, 3] }) 60000000000) (fun t => (busIn t 0).st == .closed) &&
     after (.busOffRecovery 0) (chan .recovering id 0) (fun t => (busIn t 0).st == .active && getE t.sys Ent.tec == 0) &&
     after (.addressCollision 0 (.foreign (identOf 4 5 0))) (chan .active (fun b => { b with collisions := 2 }) 0)
       fun t => (busIn t 0).st == .listen && (busIn t 0).collisions == 3 && dbit t.sys.mgmt Ent.chanFlags 3) = true := by decide +kernel


/-! ### The object dictionary -/

/-- A request of the rack manager to node 5: entry, total length, segment and value. -/
def ask (k n seg : Nat) (v : List Byte) : DictCall :=
  ⟨5, rack, 1, BitVec.ofNat 16 (k / 256), BitVec.ofNat 8 (k % 256), BitVec.ofNat 16 n, BitVec.ofNat 16 seg, v⟩
/-- The response's result, total length and number of value bytes. -/
def replied (t : State) : Option (BitVec 16 × Nat × Nat) := t.sys.mgmt.bus.reply.map fun y => (y.result, y.total, y.value.length)
/-- `Reaches`, computed. -/
def reaches (s : State) (target : Nat) (r : DictReq) : Bool :=
  requestHeard target r.who s.sys && (keptAnswer s.sys r).isNone && !transfersFull (endTransfer r s.sys) r

theorem reaches_of {s : State} {target : Nat} {r : DictReq} (h : reaches s target r = true) : Reaches s target r := by
  simpa [reaches, Reaches, and_assoc] using h

/-- Reads: a short and a long entry, one the level may not read, indexes and sub-indexes that hold nothing, a repeat, and
another node's request. -/
theorem test_reads :
    (let s := onBus id
     let host (q : DictCall) : DictCall := { q with who := ⟨0, 7, 0⟩ }
     let kept := onBus (keepAnswer (reqOf 1 (ask Ent.moduleState 1 0 [])) (replyTo (reqOf 1 (ask Ent.moduleState 1 0 [])) 0 1 [9]))
     reaches s 5 (reqOf 1 (ask Ent.moduleState 1 0 [])) && reaches s 5 (reqOf 1 (ask Ent.j4Snapshot 1024 0 [])) &&
     after (.dictRead (ask Ent.moduleState 1 0 [])) s (fun t => replied t == some (0, 1, 1) && (t.sys.mgmt.bus.reply.map DictReply.value) == some [4]) &&
     after (.dictRead (ask Ent.stackTemps 128 0 [])) s (fun t => replied t == some (0, 128, 48) &&
       ((transferOf t.sys (reqOf 1 (ask Ent.stackTemps 128 0 []))).map Transfer.next) == some 1) &&
     mayRead (levelOf s.sys ⟨0, 7, 0⟩) Ent.authorityTable == false &&
     after (.dictRead (host (ask Ent.authorityTable 288 0 []))) s (fun t => replied t == some (0x0531, 0, 0) && getE t.sys Ent.readsRefused == 1) &&
     after (.dictRead (ask 0x000001 1 0 [])) s (fun t => replied t == some (0x0201, 0, 0)) &&
     after (.dictRead (ask 0x2000FE 1 0 [])) s (fun t => replied t == some (0x0202, 0, 0)) &&
     after (.dictRead (ask Ent.moduleState 1 0 [])) kept (fun t => (t.sys.mgmt.bus.reply.map DictReply.value) == some [9]) &&
     idle (.dictRead { ask Ent.moduleState 1 0 [] with target := 6 }) s) = true := by decide +kernel

/-- A transfer of the rack manager with tag 1, last continued at time 0. -/
def moving (op k total : Nat) (bs : List Byte) (ts : W64) : State :=
  onBus fun x => atTime ts (addTransfer ⟨rack, 1, op, k / 256, k % 256, total, 1, bs, 0⟩ x)

/-- A read's and a write's second segment, an abort, and 1 s of silence to the nanosecond. -/
theorem test_segments :
    (let r := moving 1 Ent.stackTemps 128 (List.replicate 60 1 ++ List.replicate 68 2)
     let w := moving 2 Ent.envelope 124 (List.replicate 48 3)
     after (.readSegment (ask Ent.stackTemps 128 1 [])) (r 999999999)
       (fun t => (t.sys.mgmt.bus.reply.map DictReply.value) == some (List.replicate 12 1 ++ List.replicate 36 2)) &&
     after (.writeSegment (ask Ent.envelope 124 1 (List.replicate 48 4))) (w 0) (fun t => replied t == some (0, 124, 0) &&
       ((transferOf t.sys (reqOf 6 (ask Ent.envelope 124 1 []))).map fun v => (v.next, v.bytes)) == some (2, List.replicate 48 3 ++ List.replicate 48 4)) &&
     after (.dictAbort (ask Ent.envelope 124 1 [])) (w 0) (fun t => replied t == some (0, 0, 0) && t.sys.mgmt.bus.transfers == []) &&
     idle (.transferIdleTimeout rack 1) (w 999999999) &&
     after (.transferIdleTimeout rack 1) (w 1000000000) fun t => t.sys.mgmt.bus.transfers == [] && t.sys.mgmt.jNext == 2) = true := by
  decide +kernel

/-- Plain writes of a read-only entry, without the authority, and accepted. -/
theorem test_plain_writes :
    (let s := onBus id
     let q := ask Ent.moduleState 1 0 [1]
     let host : DictCall := { ask Ent.powerOrder 1 0 [1] with who := ⟨0, 7, 0⟩ }
     let w := ask Ent.startMode 1 0 [2]
     reaches s 5 (reqOf 2 q) && reaches s 5 (reqOf 2 host) && reaches s 5 (reqOf 2 w) && valueRefusal s.sys Ent.startMode 2 == 0 &&
     after (.dictWrite q) s (fun t => replied t == some (0x0203, 1, 0) && t.sys.mgmt.jNext == 2) &&
     after (.dictWrite host) s (fun t => replied t == some (0x0530, 1, 0) && getE t.sys Ent.powerOrder == getE s.sys Ent.powerOrder && t.sys.mgmt.jNext == 2) &&
     after (.dictWrite w) s fun t => replied t == some (0, 1, 0) && getE t.sys Ent.startMode == 2) = true := by decide +kernel

/-- SERVICE with a pending write of entry `k` by the rack manager, challenged with 0x11 by Sill at time 0. -/
def pend (m : ModState) (k v n : Nat) (ts : W64) (f : Module → Module) : State :=
  onBus fun x => atTime ts (f (onSill (fun s => { s with on := true, challenges := [⟨k / 256, k % 256, 0x11, 0⟩] })
    (onMgmt (fun g => { g with module := m }) (editBus (fun b => { b with safety := [⟨rack, k / 256, k % 256, v, n, 0x11, 0⟩] }) x))))
/-- A confirmation's value. -/
def confirmation (c : W32) (v : Nat) : List Byte := natLe 4 c.toNat ++ natLe 8 (~~~(BitVec.ofNat 64 v)).toNat

/-- First steps with Sill at work and silent; confirmations right, wrong and without Sill's challenge; the 2 s to the
nanosecond. -/
theorem test_safety_writes :
    (let k := Ent.manifoldProfile
     let s (on : Bool) := onBus fun x => onSill (fun s => { s with on := on }) (onMgmt (fun g => { g with module := .service }) x)
     let q := ask k 1 0 [1]
     let p := pend .service k 1 1 2000000000 id
     let c (v : List Byte) := ask k 1 0 v
     let alone : State := { p with sys := onSill (fun x => { x with challenges := [] }) p.sys }
     reaches (s true) 5 (reqOf 3 q) && valueRefusal (s true).sys k 1 == 0 && safetyRefusal (s true).sys k 1 == 0 && (pendingOf (s true).sys (k / 256) (k % 256)).isNone &&
     after (.safetyFirstStep q) (s true) (fun t => ((pendingOf t.sys (k / 256) (k % 256)).map SafetyWrite.value) == some 1) &&
     after (.safetyFirstStep q) (s false) (fun t => replied t == some (0x0603, 1, 0) && (pendingOf t.sys (k / 256) (k % 256)).isNone) &&
     reaches p 5 (reqOf 4 (c (confirmation 0x11 1))) && inWindow p.sys 0 &&
     after (.safetyConfirm (c (confirmation 0x11 1))) p (fun t => replied t == some (0, 1, 0) && getE t.sys k == 1 && t.sys.mgmt.bus.safety == []) &&
     after (.safetyConfirm (c (confirmation 0x12 1))) p (fun t => replied t == some (0x0601, 1, 0) && getE t.sys k == 0 && t.sys.mgmt.bus.safety == []) &&
     after (.safetyConfirm (c (confirmation 0x11 0))) p (fun t => replied t == some (0x0601, 1, 0)) &&
     after (.safetyConfirm (c (confirmation 0x11 1))) alone (fun t => replied t == some (0x0603, 1, 0) && getE t.sys k == 0) &&
     idle (.safetyWindowExpire (BitVec.ofNat 16 (k / 256)) (BitVec.ofNat 8 (k % 256))) p &&
     after (.safetyWindowExpire (BitVec.ofNat 16 (k / 256)) (BitVec.ofNat 8 (k % 256))) (pend .service k 1 1 2000000001 id)
       fun t => t.sys.mgmt.bus.safety == []) = true := by decide +kernel

/-- `WriteAccepted`, computed. -/
def accepted (s : State) (k : Nat) (bs : List Byte) : Bool :=
  reaches s 5 (wholeReq rack 1 k bs) && (entryOf k).any (fun e => e.len == bs.length) && mayWrite (levelOf s.sys rack) k &&
    valueRefusal s.sys k (leNat bs) == 0

theorem accepted_of {s : State} {k : Nat} {bs : List Byte} (h : accepted s k bs = true) : WriteAccepted s 5 rack 1 k bs := by
  simp only [accepted, Bool.and_eq_true, Option.any_eq_true, beq_iff_eq] at h
  exact ⟨reaches_of h.1.1.1, h.1.1.2, h.1.2, h.2⟩

/-- Node 5 in a module state. -/
def inState (m : ModState) (f : Module → Module) : State := onBus fun x => f (onMgmt (fun g => { g with module := m }) x)

/-- Each write that orders something is accepted from the rack manager, and does it. -/
theorem test_accepted_writes :
    (let s := inState .service fun x => setE Ent.coolantFlags 0x3C x
     let one (k v : Nat) : Bool := accepted s k (natLe 1 v)
     accepted s Ent.domainForce (natLe 4 0x8000057B) && accepted s Ent.domainForce (natLe 4 0) &&
     after (.domainForce 5 rack 1 0x8000057B) s (fun t => t.sys.mgmt.service.testBit 7) &&
     after (.domainForce 5 rack 1 0) (onSt (onData fun d => { d with on := true, tiles := [(0, tileAt 0 id)] }) s) (fun t => !tileOn t.sys.data 0) &&
     (let missing := onSt (onSill fun x => { x with on := true, haltMissing := true }) s
      accepted missing Ent.flagClear (natLe 12 (2 ^ 32 * 32 + Ent.sillState / 256 + 65536 * (Ent.sillState % 256))) &&
      after (.flagClear 5 rack 1 (BitVec.ofNat 16 (Ent.sillState / 256)) (BitVec.ofNat 8 (Ent.sillState % 256)) 0 32) missing
        fun t => !t.sys.sill.haltMissing) &&
     one Ent.powerOrder 1 && after (.powerOrderWrite 5 rack 1 1) s (fun t => getE t.sys Ent.powerOrder == 1 && t.sys.mgmt.orderAt == some 0) &&
     accepted s Ent.flagClear (natLe 12 (2 ^ 32 * 8 + Ent.coolantFlags / 256 + 65536 * (Ent.coolantFlags % 256))) &&
     after (.flagClear 5 rack 1 (BitVec.ofNat 16 (Ent.coolantFlags / 256)) (BitVec.ofNat 8 (Ent.coolantFlags % 256)) 0 8) s (fun t => getE t.sys Ent.coolantFlags == 0x34) &&
     one Ent.channelRestart 2 && after (.channelRestart 5 rack 1 2) s (fun t => (busIn t 1).st == .detecting && (busIn t 0).st == .active) &&
     one Ent.collisionClear 1 && after (.collisionClear 5 rack 1 1) s (fun t => (busIn t 0).collisions == 0) &&
     one Ent.nodeAddress 31 && after (.nodeAddress 5 rack 1 31) s (fun t => t.sys.mgmt.bus.addressDue && getE t.sys Ent.addressInUse == 5) &&
     one Ent.gnomonNode 31 && after (.gnomonNode 5 rack 1 31) s (fun t => t.sys.mgmt.bus.gnomonDue == some 31) &&
     one Ent.mgmtRestart 1 && after (.mgmtRestart 5 rack 1 1) s (fun t => t.sys.mgmt.run == .restart 0 false (snapCount s.sys.mgmt)) &&
     accepted s Ent.retireTile (natLe 2 1279) && after (.retireTile 5 rack 1 1279) s (fun t => (getE t.sys Ent.repairMap).testBit 1279) &&
     one Ent.rackHold 1 && after (.rackHold 5 rack 1 1) s fun t => getE t.sys Ent.rackHold == 1) = true := by decide +kernel

/-- A matrix whose every basic cycle begins with the reference of gnomon 5. -/
def matrix5 : Nat := (List.range 8).foldl (fun n i => n + 0x4A100000 * 2 ^ (512 * i)) 0

/-- The same of the long entries, and datagrams of 80 bytes and of fewer than 64. -/
theorem test_long_writes :
    (let s := onBus id
     let d : List Byte := natLe 2 0x4B44 ++ [1, 1, 7, 0] ++ List.replicate 74 0
     let env := natLe 4 0 ++ List.replicate 120 0x7F
     accepted s Ent.envelope env &&
     after (.envelopeWrite 5 rack 1 env) s (fun t => getE t.sys Ent.rackAlive == 1 && getE t.sys Ent.envelope == leNat env) &&
     accepted s Ent.authorityTable (List.replicate 288 0xFF) &&
     after (.authorityTable 5 rack 1 (List.replicate 288 0xFF)) s (fun t => getE t.sys Ent.authorityTable == 2 ^ 2304 - 1) &&
     accepted s Ent.matrix (natLe 512 matrix5) &&
     after (.matrix 5 rack 1 (natLe 512 matrix5)) s (fun t => t.sys.mgmt.bus.matrixDue == some matrix5) &&
     skourUp s.sys && s.sys.mgmt.service.testBit 5 && d.length == 80 && leNat (d.take 2) == 0x4B44 && leNat ((d.drop 2).take 1) == 1 &&
     leNat ((d.drop 3).take 1) == 1 && after (.mgmtDatagram 9 9 d) s (fun t => replied t == some (0x0130, 0, 0)) &&
     after (.mgmtDatagram 9 9 [1]) s fun t => getE t.sys Ent.readsRefused == 1) = true := by decide +kernel

/-- `ConfirmAccepted`, computed. -/
def confirmed (s : State) (c : W32) (m : W64) (k v : Nat) : Bool :=
  match pendingOf s.sys (k / 256) (k % 256), entryOf k with
  | some p, some e => sameWho p.who rack && p.value == v &&
    reaches s 5 ⟨rack, (1 : BitVec 16).toNat, 4, k / 256, k % 256, e.len, 0, natLe 4 c.toNat ++ natLe 8 m.toNat⟩ &&
    mayWrite (levelOf s.sys rack) k && valueRefusal s.sys k v == 0 && inWindow s.sys p.at_ && c == p.challenge &&
    m == ~~~(BitVec.ofNat 64 v) && safetyRefusal s.sys k v == 0 && sillAgrees s.sys (k / 256) (k % 256) v c m
  | _, _ => false

theorem confirmed_of {s : State} {c : W32} {m : W64} {k v : Nat} (h : confirmed s c m k v = true) :
    ConfirmAccepted s 5 rack 1 c m k v := by
  unfold confirmed at h
  split at h
  · rename_i p e hp he
    simp only [Bool.and_eq_true, beq_iff_eq] at h
    obtain ⟨⟨⟨⟨⟨⟨⟨⟨⟨a1, a2⟩, a3⟩, a4⟩, a5⟩, a6⟩, a7⟩, a8⟩, a9⟩, a10⟩ := h
    exact ⟨p, e, hp, a1, a2, he, reaches_of a3, a4, a5, a6, a7, a8, a9, a10⟩
  · cases h

/-- Each confirmed safety write is accepted in its state, and does what its rule says. -/
theorem test_confirmed_writes :
    (let m (v : Nat) : W64 := ~~~(BitVec.ofNat 64 v)
     let ok (s : State) (k v : Nat) : Bool := confirmed s 0x11 (m v) k v
     let svc (k v n : Nat) (f : Module → Module) := pend .service k v n 0 f
     let mask := svc Ent.maskSensor 2559 2 id
     let valve := svc Ent.valveFaultClear 0x80001 4 (setE Ent.valveFaults 0xFFFFF)
     let unit_ := svc Ent.unitFaultClear 0x3F 1 (editAct fun a => { a with units := [(0, { DriveUnit.stopped with st := .faulted }), (19, { DriveUnit.stopped with st := .faulted })] })
     let pair := svc Ent.pairRestore 2 1 (onMgmt fun g => { g with pairs := [.active, .retired] })
     let osc := svc Ent.oscRevertClear 1 1 (setE Ent.oscFlags 16)
     let ready := pend .ready Ent.serviceOrder 1 1 0 id
     let stop := pend .safeStop Ent.safeStopExit 1 1 0 (onSill fun x => { x with safeStop := true })
     let leak := pend .leakCut Ent.leakCutExit 1 1 0 (onSill fun x =>
       { x with leakCut := true, leakA := { x.leakA with dry := 60001 }, leakB := { x.leakB with dry := 60001 } })
     ok mask Ent.maskSensor 2559 && after (.maskSensor 5 rack 1 0x11 (m 2559)) mask (fun t => dbit t.sys.mgmt Ent.sensorMasks 2559) &&
     ok valve Ent.valveFaultClear 0x80001 && after (.valveFaultClear 5 rack 1 0x11 (m 0x80001)) valve (fun t => getE t.sys Ent.valveFaults == 0x7FFFE) &&
     ok unit_ Ent.unitFaultClear 0x3F && after (.unitFaultClear 5 rack 1 0x11 (m 0x3F)) unit_ (fun t => (unitOf t.sys 0).st != .faulted && (unitOf t.sys 19).st != .faulted) &&
     ok pair Ent.pairRestore 2 && after (.pairRestore 5 rack 1 0x11 (m 2)) pair (fun t => t.sys.mgmt.pairs == [.active, .resync]) &&
     ok osc Ent.oscRevertClear 1 && after (.oscRevertClear 5 rack 1 0x11 (m 1)) osc (fun t => getE t.sys Ent.oscFlags == 0) &&
     ok ready Ent.serviceOrder 1 && after (.serviceOrder 5 rack 1 0x11 (m 1)) ready (fun t => t.sys.mgmt.module == .service) &&
     ok (svc Ent.serviceOrder 0 1 id) Ent.serviceOrder 0 && after (.serviceOrder 5 rack 1 0x11 (m 0)) (svc Ent.serviceOrder 0 1 id) (fun t => t.sys.mgmt.module == .standby) &&
     ok (svc Ent.restoreFactory 1 1 id) Ent.restoreFactory 1 && after (.restoreFactory 5 rack 1 0x11 (m 1)) (svc Ent.restoreFactory 1 1 id) (fun t => t.sys.mgmt.coldNext) &&
     ok (svc Ent.restoreTile 1279 2 (setE Ent.repairMap (2 ^ 1279))) Ent.restoreTile 1279 &&
     after (.restoreTile 5 rack 1 0x11 (m 1279)) (svc Ent.restoreTile 1279 2 (setE Ent.repairMap (2 ^ 1279))) (fun t => getE t.sys Ent.repairMap == 0) &&
     ok stop Ent.safeStopExit 1 && after (.safeStopExit 5 rack 1 0x11 (m 1)) stop (fun t => !t.sys.sill.safeStop && t.sys.mgmt.module == .standby) &&
     ok leak Ent.leakCutExit 1 && after (.leakCutExit 5 rack 1 0x11 (m 1)) leak fun t => !t.sys.sill.leakCut && t.sys.mgmt.module == .off) = true := by
  decide +kernel


/-! ### Sill, and the machine as a whole -/

/-- Sill at work behind a closed inlet, the module READY, Sill's clock at `sf`, and what else is set. -/
def sillAt (sf : W64) (f : Sill → Sill) : State := skour .ready fun x => { onSill f (closed x) with sf := sf }
/-- The same with tile 0 powered. -/
def hotAt (sf : W64) (f : Sill → Sill) : State := onSt (onData fun d => { d with on := true, tiles := [(0, tileAt 0 id)] }) (sillAt sf f)
/-- A function acted and the module is in SAFE_STOP. -/
def stopsSafe (c : Instr) (s : State) (fn : Nat) : Bool :=
  (forcedState s.sys).isNone && inletClosed s.sys && after c s fun t =>
    look 0 t.sys.sill.acts fn == 1 && t.sys.sill.halt && t.sys.sill.safeStop && t.sys.mgmt.module == .safeStop
/-- A function acted and the inlet is open and locked. -/
def locks (c : Instr) (s : State) (fn : Nat) : Bool :=
  after c s fun t => look 0 t.sys.sill.acts fn == 1 && t.sys.sill.inletLock && t.sys.sill.ssd == .opened

/-- A loop opened: SF-7 acted and the inlet is open. -/
def opens (c : Instr) (s : State) : Bool :=
  after c s fun t => look 0 t.sys.sill.acts 7 == 1 && t.sys.sill.halt && t.sys.sill.ssd == .opened

/-- SF-1 on either channel; SF-2 with a tile on and at 2 s, and a nanosecond before; SF-3 at its second conversion. -/
theorem test_sf1_to_sf3 :
    ([false, true].all (fun b => after (.sf1LeakCut b)
       (sillAt 9 fun s => if b then { s with leakB := { s.leakB with confirmed := true } } else { s with leakA := { s.leakA with confirmed := true } })
       fun t => look 0 t.sys.sill.acts 1 == 1 && t.sys.sill.leakCut && t.sys.sill.trayCut && t.sys.sill.leakOut &&
         t.sys.mgmt.module == .leakCut && alarm 1 t) &&
     stopsSafe .sf2FlowNotRestored (hotAt 2000000000 fun s => { s with watch := { s.watch with stop := some (0, 0) } }) 2 &&
     idle .sf2FlowNotRestored (hotAt 1999999999 fun s => { s with watch := { s.watch with stop := some (0, 0) } }) &&
     stopsSafe (.sf3OverTemperature false) (sillAt 9 fun s => { s with hotTile := 2 }) 3 &&
     stopsSafe (.sf3OverTemperature true) (sillAt 9 fun s => { s with hotStack := 2 }) 3 &&
     idle (.sf3OverTemperature true) (sillAt 9 fun s => { s with hotStack := 1 })) = true := by decide +kernel

/-- What a confirmation at time 9 cleared. -/
def cleared : Latches := ⟨true, true, true, 0, 0, 0x11, [0x11], true, true, none, none, none⟩

/-- A trigger in the SFCLK cycle of a confirmation keeps the latches, one in a later cycle does not (R553). -/
theorem test_withheld :
    (let s (at_ : W64) := sillAt 9 fun s => { s with hotTile := 2, exited := some (at_, cleared) }
     after (.sf3OverTemperature false) (s 9) (fun t => t.sys.sill.leakCut && t.sys.sill.inletLock && t.sys.sill.exited == none) &&
     after (.sf3OverTemperature false) (s 8) fun t => !t.sys.sill.leakCut && !t.sys.sill.inletLock) = true := by decide +kernel

/-- SF-4's and SF-5's limits, and the bus current after SF-4. -/
theorem test_sf4_and_sf5 :
    (let s := sillAt 9 id
     let after4 := sillAt 9 fun x => { x with sf4At := some 8 }
     stopsSafe (.sf4BusProtection false 701 51) s 4 && idle (.sf4BusProtection false 700 99) s && idle (.sf4BusProtection false 701 50) s &&
     locks (.sf4BusProtection true 59501 11) s 4 && idle (.sf4BusProtection true 59500 99) s && idle (.sf4BusProtection true 59501 10) s &&
     after (.busCurrentRecheck 201) after4 (fun t => t.sys.sill.inletLock) &&
     after (.busCurrentRecheck 200) after4 (fun t => !t.sys.sill.inletLock && t.sys.sill.sf4At == none) &&
     locks (.sf5InletProtection true 121 2) s 5 && idle (.sf5InletProtection true 120 9) s && idle (.sf5InletProtection true 121 1) s &&
     after (.sf5InletProtection false 921 50) s (fun t => look 0 t.sys.sill.acts 5 == 1 && t.sys.sill.ssd == .opened && !t.sys.sill.inletLock) &&
     idle (.sf5InletProtection false 920 99) s && idle (.sf5InletProtection false 921 49) s) = true := by decide +kernel

/-- SF-6 at the end of a long window, and SF-8's four cases. -/
theorem test_sf6_and_sf8 :
    (let long (sf : W64) := sillAt sf fun x => { x with longWindow := some ⟨false, 0⟩ }
     sf6Trigger (long 600006104).sys == some 2 && stopsSafe .sf6SkourSupervision (long 600006104) 6 &&
     idle .sf6SkourSupervision (long 600006103) &&
     stopsSafe (.sf8SafetySensingLost .leak) (sillAt 9 fun s =>
       { s with leakA := { s.leakA with faulted := true }, leakB := { s.leakB with faulted := true } }) 8 &&
     stopsSafe (.sf8SafetySensingLost .flow) (hotAt 9 fun s => { s with blind := 11 }) 8 &&
     stopsSafe (.sf8SafetySensingLost .link) (hotAt 9 id) 8 &&
     [0, 6].all fun p => locks (.sf8SafetySensingLost (.sill p)) (hotAt 9 id) 8 &&
       after (.sf8SafetySensingLost (.sill p)) (hotAt 9 id) fun t => t.sys.sill.fault && !t.sys.sill.tilePwrEn &&
         getE t.sys Ent.sillSelftest == p.val) = true := by decide +kernel

/-- Both loops at their times, and closed again; Skour silent, and a trigger standing, for 10 s. -/
theorem test_loops :
    (let s := sillAt 9 id
     let quiet (sf served : W64) := sillAt sf fun x => { x with sf6At := some 5, lastService := served }
     let hot (sf : W64) (n : Nat) := sillAt sf fun x => { x with latchAt := some 0, safeStop := true, hotTile := n }
     opens (.sf7TrayPowerOff true 21) s && idle (.sf7TrayPowerOff true 20) s &&
     opens (.sf7TrayPowerOff false 1001) s && idle (.sf7TrayPowerOff false 1000) s &&
     after .trayClosed (sillAt 9 fun x => { x with present := false }) (fun t => t.sys.sill.present && t.sys.sill.interlock) &&
     after .skourSilentInletOpen (quiet 10000000005 4) (fun t => t.sys.sill.inletLock) &&
     idle .skourSilentInletOpen (quiet 10000000004 4) && idle .skourSilentInletOpen (quiet 10000000005 5) &&
     after .safeStopInletOpen (hot 10000000000 2) (fun t => t.sys.sill.inletLock) &&
     idle .safeStopInletOpen (hot 9999999999 2) && idle .safeStopInletOpen (hot 10000000000 1)) = true := by decide +kernel

/-- The watchdog at 62.5 ms and a nanosecond before; the supervisor; the UART's answers. -/
theorem test_watchdog_and_uart :
    (let s (sf : W64) := sillAt sf id
     idle .watchdogExpiry (s 62499999) &&
     after .watchdogExpiry (s 62500000) (fun t => t.sys.sill.expiries == 1 && t.sys.sill.longWindow == some ⟨true, 62500000⟩ &&
       !skourUp t.sys) &&
     after .supervisorTimeout (s 0) (fun t => t.sys.sill.stopped && !t.sys.sill.tilePwrEn && t.sys.sill.ssd == .opened) &&
     after .uartS (s 0) (fun t => t.sys.sill.uart.length == 68 && t.sys.sill.uart.take 4 == [83, 32, 48, 49]) &&
     after .uartJ (s 0) (fun t => t.sys.sill.uart.length == 64 * 68 + 3 && t.sys.sill.uart.drop (64 * 68) == [69, 13, 10]) &&
     after .uartV (s 0) (fun t => t.sys.sill.uart.length == 12) && idle .uartS (mk id) && idle .uartJ (mk id) && idle .uartV (mk id)) = true := by
  decide +kernel

/-- Without any input the latches and the journal stand, and nothing else runs (R33). -/
theorem test_power_loss :
    after .auxPowerLoss (sillAt 9 fun s => { s with safeStop := true, leakOut := true }) (fun t =>
      !t.sys.sill.on && t.sys.sill.safeStop && t.sys.sill.leakOut && t.sys.mgmt.service == 0 && t.sys.sf == 0) = true := by decide +kernel

/-- A step runs the command in front, leaves the others, and idles without one. -/
theorem test_steps :
    (match step { sillAt 9 id with pending := [.trayClosed, .uartV] } with | .next t => t.pending == [.uartV] | _ => false) &&
      (match step State.reset with | .next t => decide (t = State.reset) | _ => false) = true := by decide +kernel

/-- A command put in front by the host's question is run first; the table gives the rows no bits. -/
theorem test_no_words : decodeTableWord 8 0 = none ∧ State.reset.withFetchWord 8 0 = State.reset := by decide +kernel

/-- A bounded control plane of a state that steps. -/
theorem test_bounded : ∃ t, (withData id).sys.ctrl.Bounded ∧ step { withData id with pending := [.trayClosed] } = .next t :=
  ⟨_, Ctrl.reset_bounded, rfl⟩

end Sys2Proof.Tests
end

section
/-!
SUPPORT. A slot command whose bundle issues: that it drives its bundle, the next address and the registers it leaves, and
which writes of the bundle name a register.
-/

namespace Sys2Proof.Machine

variable {c : Instr} {s : State} {i : Issue} {b : Bun} {p : Pred}

/-! ### A command drives the bundle that holds its operation -/

theorem IssuesC.issues {o : COp} (h : IssuesC s i b p o) : Issues s i b := by
  obtain ⟨hi, -, -⟩ := h
  exact hi

theorem IssuesV.issues {o : VOp} (h : IssuesV s i b p o) : Issues s i b := by
  obtain ⟨hi, -, -⟩ := h
  exact hi

theorem IssuesC.drives {o : COp} (h : IssuesC s i b p o)
    (hc : ∀ s, exec c s = .next { s with sys := issueC i p o s.sys }) : Drives c i b := by
  obtain ⟨-, hb, -⟩ := h
  exact ⟨fun b => b.c == ⟨p, .op o⟩, by simp [hb], hc⟩

theorem IssuesV.drives {o : VOp} (h : IssuesV s i b p o)
    (hc : ∀ s, exec c s = .next { s with sys := issueV i p o s.sys }) : Drives c i b := by
  obtain ⟨-, hb, -⟩ := h
  exact ⟨fun b => b.v == ⟨p, .op o⟩, by simp [hb], hc⟩

@[simp] theorem readS_setLoops (r : Regs) (ls : List LoopEntry) (n : Nat) :
    readS { r with loops := ls } n = readS r n := rfl

@[simp] theorem readV_setLoops (r : Regs) (ls : List LoopEntry) (n : Nat) :
    readV { r with loops := ls } n = readV r n := rfl

/-- A command that drives an issuing bundle goes to the bundle's next address and leaves its loop stack. -/
theorem Issues.goesTo (h : Issues s i b) (hd : Drives c i b) :
    GoesTo c s i.tile (nextOf (cOutOf s i b) (tileIn s i.tile).seq.pc).1
      (nextOf (cOutOf s i b) (tileIn s i.tile).seq.pc).2.1 := by
  obtain ⟨f, hf, he⟩ := hd
  exact ⟨_, he s, issueWhen_pc h hf, congrArg Regs.loops (issueWhen_regs h hf)⟩

/-- A command that drives an issuing bundle leaves the registers with the bundle's writes, and the loop stack. -/
theorem Issues.exec_regs (h : Issues s i b) (hd : Drives c i b) :
    ∃ t, exec c s = .next t ∧ (tileIn t i.tile).regs =
      { applyWrs (tileIn s i.tile).regs (writesOf s i b) with
        loops := (nextOf (cOutOf s i b) (tileIn s i.tile).seq.pc).2.1 } := by
  obtain ⟨f, hf, he⟩ := hd
  exact ⟨_, he s, issueWhen_regs h hf⟩

/-! ### What executes in a slot -/

theorem opOr_tileReady {α : Type} (d : α) (x : Slot α) :
    opOr d (tileReady s i).regs x = opOr d (tileIn s i.tile).regs x := by
  rw [tileReady_regs]
  rfl

/-- What the C slot does is told by the operation that runs in it. -/
theorem cOutOf_eq :
    cOutOf s i b = execC (ctxOf (envOf s.sys) s.sys.data i.tile) i.tile (tileReady s i) (tileIn s i.tile).seq.pc
      (runC s i b) := by
  rw [cOutOf, opOr_tileReady, tileReady_pc]
  rfl

theorem IssuesC.runC_eq {o : COp} (h : IssuesC s i b p o) : runC s i b = o := by
  obtain ⟨-, hb, hp⟩ := h
  rw [runC, hb, opOr_op hp]

theorem IssuesV.runV_eq {o : VOp} (h : IssuesV s i b p o) : runV s i b = o := by
  obtain ⟨-, hb, hp⟩ := h
  rw [runV, hb, opOr_op hp]

/-- The operation in the C slot of an issuing bundle is not one of R96's illegal ones. -/
theorem Issues.legalC (h : Issues s i b) :
    illegalC (tileReady s i) (tileIn s i.tile).seq.pc (runC s i b) = false := by
  obtain ⟨-, -, -, -, hi, -⟩ := h
  simp only [bundleIllegal, Bool.or_eq_false_iff] at hi
  obtain ⟨⟨⟨⟨-, hc⟩, -⟩, -⟩, -⟩ := hi
  rwa [opOr_tileReady, tileReady_pc] at hc

/-! ### The writes of a bundle, slot by slot -/

theorem mem_writesOf (w : TWr) :
    w ∈ writesOf s i b ↔
      (w ∈ (cOutOf s i b).writes ∨
        w ∈ (execM (ctxOf (envOf s.sys) s.sys.data i.tile) (tileReady s i) (tileReady s i) i.cycle (runM s i b)).2.1 ∨
        w ∈ (execV (tileReady s i) (runV s i b)).writes) ∧ clashes (tileReady s i) i.cycle w = false := by
  simp only [writesOf, bundleWrs, cOutOf, opOr_tileReady, runM, runV, List.mem_filter, List.mem_append, Bool.not_eq_true',
    or_assoc]

theorem s_notMem_destsV (o : VOp) (n : Nat) : RegName.s n ∉ destsV o := by
  cases o <;> simp [destsV]

theorem v_notMem_destsC (o : COp) (n : Nat) : RegName.v n ∉ destsC o := by
  cases o <;> simp [destsC]

/-- A scalar register that the M slot does not name is written by the C slot alone. -/
theorem c_of_mem_writesOf {n : Nat} (hm : RegName.s n ∉ destsM (runM s i b)) {w : TWr} {x : W32}
    (hw : w ∈ writesOf s i b) (e : w.wr = .s n x) : w ∈ (cOutOf s i b).writes := by
  have hn : wrName w.wr = .s n := by rw [e]; rfl
  obtain ⟨hc | hmw | hv, -⟩ := (mem_writesOf w).mp hw
  · exact hc
  · exact absurd (hn ▸ execM_names hmw) hm
  · exact absurd (hn ▸ execV_names hv) (s_notMem_destsV _ _)

/-- A vector register that the M slot does not name is written by the V slot alone. -/
theorem v_of_mem_writesOf {n q : Nat} (hm : RegName.v n ∉ destsM (runM s i b)) {w : TWr} {xs : List W32}
    (hw : w ∈ writesOf s i b) (e : w.wr = .vq n q xs) : w ∈ (execV (tileReady s i) (runV s i b)).writes := by
  have hn : wrName w.wr = .v n := by rw [e]; rfl
  obtain ⟨hc | hmw | hv, -⟩ := (mem_writesOf w).mp hw
  · have hc := execC_names hc
    exact absurd (hn ▸ hc) (v_notMem_destsC _ _)
  · exact absurd (hn ▸ execM_names hmw) hm
  · exact hv

/-- A scalar register that the C slot alone writes, with the one value its writes carry. -/
theorem readS_writesOf_c {n : Nat} {v : W32} (r : Regs) (hn : n ≠ 0) (hm : RegName.s n ∉ destsM (runM s i b))
    (hw : ∃ w ∈ (cOutOf s i b).writes, w.wr = .s n v)
    (ho : ∀ w ∈ (cOutOf s i b).writes, ∀ x, w.wr = .s n x → x = v) :
    readS (applyWrs r (writesOf s i b)) n = v := by
  obtain ⟨w, hwc, e⟩ := hw
  have hk : clashes (tileReady s i) i.cycle w = false := by simp [clashes, e]
  exact readS_applyWrs hn ⟨w, (mem_writesOf w).mpr ⟨.inl hwc, hk⟩, e⟩
    fun w hw x e => ho w (c_of_mem_writesOf hm hw e) x e

end Sys2Proof.Machine
end

section
/-!
SUPPORT. The next address: what R109 chooses over a loop stack, and what the branch and loop operations of the C slot make
of it. Then the branches and loops (O2).
-/

namespace Sys2Proof.Machine

variable {c : Instr} {s : State} {i : Issue} {b : Bun} {p : Pred}

/-! ### R109 over a loop stack -/

theorem nextAddr_noLoopEnd {pc : Nat} {ls : List LoopEntry} (h : NoLoopEnd pc ls.head?.toList) :
    nextAddr pc ls = (pc + 1, ls, false) := by
  cases ls with
  | nil => rfl
  | cons e es =>
    have he : e.stop.toNat ≠ pc := h e (by simp)
    simp [nextAddr, Ne.symm he]

/-- Loops that end at the bundle with no pass left are removed. -/
theorem nextAddr_finished {pc : Nat} {done : List LoopEntry} (rest : List LoopEntry)
    (h : ∀ d ∈ done, d.stop.toNat = pc ∧ d.left ≤ 1) : nextAddr pc (done ++ rest) = nextAddr pc rest := by
  induction done with
  | nil => rfl
  | cons d ds ih =>
    obtain ⟨hs, hl⟩ := h d List.mem_cons_self
    rw [List.cons_append, nextAddr, if_pos hs.symm, if_neg (by omega)]
    exact ih fun e he => h e (List.mem_cons_of_mem _ he)

/-- A loop that ends at the bundle with passes left returns to its start. -/
theorem nextAddr_return {pc : Nat} {e : LoopEntry} (rest : List LoopEntry) (hs : e.stop.toNat = pc) (hl : 1 < e.left) :
    nextAddr pc (e :: rest) = (e.start.toNat, { e with left := e.left - 1 } :: rest, true) := by
  rw [nextAddr, if_pos hs.symm, if_pos hl]

theorem NoLoopEnd.head {pc : Nat} {ls : List LoopEntry} (h : NoLoopEnd pc ls) : NoLoopEnd pc ls.head?.toList :=
  fun e he => h e (List.mem_of_mem_head? (by simpa using he))

/-! ### What the C slot makes of it -/

/-- An operation that neither branches nor moves the loop stack leaves the next address to R109. -/
theorem nextOf_goesOn {o : COp} (h : goesOn o = true) (cx : Ctx) (ix : Nat) (t : Tile) (pc : Nat) :
    nextOf (execC cx ix t pc o) pc = nextAddr pc t.regs.loops := by
  cases o with
  | br | jal | jr | loop | loopi | lpop => cases h
  | _ => rfl

/-- A LOOP or LOOPI that is legal: past the loop with a count of 0, else into it with a new entry (R108). -/
theorem nextOf_loopOut {ls : List LoopEntry} {pc count : Nat} {stop : BitVec 14} (h : pc + 1 ≤ stop.toNat) :
    nextOf (loopOut ls pc count stop) pc =
      (if count = 0 then stop.toNat + 1 else pc + 1,
        if count = 0 then ls else ⟨BitVec.ofNat 14 (pc + 1), stop, count⟩ :: ls, false) := by
  by_cases hc : count = 0
  · simp [loopOut, nextOf, hc]
  · simp only [loopOut, nextOf, hc, if_false]
    refine nextAddr_noLoopEnd fun e he => ?_
    rw [List.head?_cons, Option.toList_some, List.mem_singleton] at he
    subst he
    exact (by omega : stop.toNat ≠ pc)

/-- The next address of an issuing bundle and its loop stack, told by the operation in its C slot. -/
theorem Issues.goesTo_of {n : Nat} {ls : List LoopEntry} {f : Bool} (h : Issues s i b) (hd : Drives c i b)
    (hn : nextOf (execC (ctxOf (envOf s.sys) s.sys.data i.tile) i.tile (tileReady s i) (tileIn s i.tile).seq.pc
      (runC s i b)) (tileIn s i.tile).seq.pc = (n, ls, f)) : GoesTo c s i.tile n ls := by
  have hg := h.goesTo hd
  rwa [cOutOf_eq, hn] at hg

/-- A branch or loop command, by its operation; it is no loop return. -/
theorem IssuesC.goesTo_of {o : COp} {n : Nat} {ls : List LoopEntry} (h : IssuesC s i b p o)
    (hc : ∀ s, exec c s = .next { s with sys := issueC i p o s.sys })
    (hn : nextOf (execC (ctxOf (envOf s.sys) s.sys.data i.tile) i.tile (tileReady s i) (tileIn s i.tile).seq.pc o)
      (tileIn s i.tile).seq.pc = (n, ls, false)) : GoesTo c s i.tile n ls :=
  h.issues.goesTo_of (h.drives hc) (by rw [h.runC_eq, hn])

theorem tileReady_loops : (tileReady s i).regs.loops = (tileIn s i.tile).regs.loops :=
  congrArg Regs.loops (tileReady_regs s i)

theorem readS_tileReady (n : Nat) : readS (tileReady s i).regs n = readS (tileIn s i.tile).regs n :=
  congrArg (readS · n) (tileReady_regs s i)

/-! ### Branches and loops, command by command -/

theorem goesTo_br {target : BitVec 14} (h : IssuesC s i b p (.br target)) :
    GoesTo (.br i p target) s i.tile target.toNat (tileIn s i.tile).regs.loops :=
  h.goesTo_of (exec_br · i p target) (by simp [execC, nextOf, tileReady_loops])

theorem goesTo_jal {sd : BitVec 5} {target : BitVec 14} (h : IssuesC s i b p (.jal sd target)) :
    GoesTo (.jal i p sd target) s i.tile target.toNat (tileIn s i.tile).regs.loops :=
  h.goesTo_of (exec_jal · i p sd target) (by simp [execC, nextOf, tileReady_loops])

theorem goesTo_jr {sa : BitVec 5} (h : IssuesC s i b p (.jr sa)) :
    GoesTo (.jr i p sa) s i.tile ((readS (tileIn s i.tile).regs sa.toNat).toNat % 2 ^ 14)
      (tileIn s i.tile).regs.loops :=
  h.goesTo_of (exec_jr · i p sa) (by simp [execC, nextOf, tileReady_loops, readS_tileReady])

/-- A legal loop ends at its first bundle or beyond it (R96). -/
theorem IssuesC.loop_stop {sc : BitVec 5} {stop : BitVec 14} (h : IssuesC s i b p (.loop sc stop)) :
    (tileIn s i.tile).seq.pc + 1 ≤ stop.toNat := by
  have hl := h.issues.legalC
  rw [h.runC_eq, illegalC, Bool.or_eq_false_iff] at hl
  obtain ⟨hstop, -⟩ := hl
  simpa using hstop

theorem IssuesC.loopi_stop {count : BitVec 8} {stop : BitVec 14} (h : IssuesC s i b p (.loopi count stop)) :
    (tileIn s i.tile).seq.pc + 1 ≤ stop.toNat := by
  have hl := h.issues.legalC
  rw [h.runC_eq, illegalC, Bool.or_eq_false_iff] at hl
  obtain ⟨hstop, -⟩ := hl
  simpa using hstop

theorem goesTo_loop {sc : BitVec 5} {stop : BitVec 14} (h : IssuesC s i b p (.loop sc stop)) :
    GoesTo (.loop i p sc stop) s i.tile
      (if readS (tileIn s i.tile).regs sc.toNat = 0 then stop.toNat + 1 else (tileIn s i.tile).seq.pc + 1)
      (if readS (tileIn s i.tile).regs sc.toNat = 0 then (tileIn s i.tile).regs.loops else
        ⟨BitVec.ofNat 14 ((tileIn s i.tile).seq.pc + 1), stop, (readS (tileIn s i.tile).regs sc.toNat).toNat⟩ ::
          (tileIn s i.tile).regs.loops) := by
  refine h.goesTo_of (exec_loop · i p sc stop) ?_
  simp only [execC, tileReady_loops, readS_tileReady, nextOf_loopOut h.loop_stop]
  simp only [BitVec.toNat_eq]
  rfl

theorem goesTo_loopi {count : BitVec 8} {stop : BitVec 14} (h : IssuesC s i b p (.loopi count stop)) :
    GoesTo (.loopi i p count stop) s i.tile
      (if count = 0 then stop.toNat + 1 else (tileIn s i.tile).seq.pc + 1)
      (if count = 0 then (tileIn s i.tile).regs.loops else
        ⟨BitVec.ofNat 14 ((tileIn s i.tile).seq.pc + 1), stop, count.toNat⟩ :: (tileIn s i.tile).regs.loops) := by
  refine h.goesTo_of (exec_loopi · i p count stop) ?_
  simp only [execC, tileReady_loops, nextOf_loopOut h.loopi_stop]
  simp only [BitVec.toNat_eq]
  rfl

theorem goesTo_lpop (h : IssuesC s i b p .lpop)
    (hn : NoLoopEnd (tileIn s i.tile).seq.pc (tileIn s i.tile).regs.loops.tail) :
    GoesTo (.lpop i p) s i.tile ((tileIn s i.tile).seq.pc + 1) (tileIn s i.tile).regs.loops.tail := by
  refine h.goesTo_of (exec_lpop · i p) ?_
  simp only [execC, cWrites, nextOf, tileReady_loops]
  exact nextAddr_noLoopEnd hn.head

/-- A bundle whose C slot goes on follows the loop stack as it stood (R109). -/
theorem Issues.goesTo_goesOn {n : Nat} {ls : List LoopEntry} {f : Bool} (h : Issues s i b) (hd : Drives c i b)
    (ho : goesOn (runC s i b) = true)
    (hn : nextAddr (tileIn s i.tile).seq.pc (tileIn s i.tile).regs.loops = (n, ls, f)) : GoesTo c s i.tile n ls :=
  h.goesTo_of hd (by rw [nextOf_goesOn ho, tileReady_loops, hn])

/-- JAL's link: the address of the bundle after it (R107). -/
theorem jal_writesScalar (i : Issue) (p : Pred) (sd : BitVec 5) (target : BitVec 14) :
    WritesScalarC (.jal i p sd target) i p (.jal sd target) sd fun t => BitVec.ofNat 32 (t.seq.pc + 1) := by
  intro s b h hm
  obtain ⟨t, ht, hr⟩ := h.issues.exec_regs (h.drives (exec_jal · i p sd target))
  refine ⟨t, ht, ?_⟩
  rw [hr, readS_setLoops]
  by_cases hz : sd = 0
  · simp [hz]
  · have hn : sd.toNat ≠ 0 := by simpa [BitVec.toNat_eq] using hz
    rw [if_neg hz]
    exact readS_writesOf_c _ hn hm (by simp [cOutOf_eq, h.runC_eq, execC]) (by simp [cOutOf_eq, h.runC_eq, execC])

/-- Settles O2: branches and loops go where the operation says; every other bundle follows the loop stack, by what R109
makes of the finished loops at its top. -/
theorem branchesLoopsAndTheNextAddress : Obligations.BranchesLoopsAndTheNextAddress := by
  unfold Obligations.BranchesLoopsAndTheNextAddress
  refine ⟨⟨jal_writesScalar, fun s i b p => ⟨fun _ => goesTo_br, fun _ _ => goesTo_jal, fun _ => goesTo_jr,
    fun _ _ => goesTo_loop, fun _ _ => goesTo_loopi, goesTo_lpop⟩⟩, ?_⟩
  intro c s i b hd h ho pc ls
  refine ⟨fun hn => ?_, fun done e rest hl hdone hs hleft => ?_, fun done rest hl hdone hn => ?_⟩
  · exact h.goesTo_goesOn hd ho (nextAddr_noLoopEnd hn)
  · exact h.goesTo_goesOn hd ho (by
      rw [show (tileIn s i.tile).regs.loops = done ++ e :: rest from hl, nextAddr_finished _ hdone,
        nextAddr_return _ hs hleft])
  · exact h.goesTo_goesOn hd ho (by
      rw [show (tileIn s i.tile).regs.loops = done ++ rest from hl, nextAddr_finished _ hdone, nextAddr_noLoopEnd hn])

end Sys2Proof.Machine
end

section
/-!
SUPPORT. The V slot: what an operation reads of the tile as it stood, and the lanes a whole-register result leaves. Then the
conversions, the reduce and the quantisers (O15).
-/

namespace Sys2Proof.Machine

variable {c : Instr} {s : State} {i : Issue} {b : Bun} {p : Pred}

/-! ### The CSRs that the V slot reads -/

/-- The CSRs that vector arithmetic reads: the rounding mode and the key of stochastic rounding (R90). -/
def Tile.modes (t : Tile) : W64 × W64 := (t.csr.vfpCtrl, t.csr.srKey)

/-- A repetition of steps that keep a property keeps it. -/
theorem repeatN_induct {α : Type} {P : α → Prop} {f : Nat → α → α} (h : ∀ k u, P u → P (f k u)) (n : Nat) {t : α}
    (ht : P t) : P (repeatN f n t) := by
  induction n with
  | zero => exact ht
  | succ n ih => exact h n _ ih

/-- A repetition of steps keeps what each step keeps. -/
theorem repeatN_keeps {α β : Type} (rd : α → β) {f : Nat → α → α} (h : ∀ k u, rd (f k u) = rd u) (n : Nat) (t : α) :
    rd (repeatN f n t) = rd t :=
  repeatN_induct (P := fun u => rd u = rd t) (fun k u hu => (h k u).trans hu) n rfl

@[simp] theorem setInt_modes (t : Tile) (n : Nat) : (setInt t n).modes = t.modes := rfl

@[simp] theorem bumpOne_modes (t : Tile) (n k : Nat) : (bumpOne t n k).modes = t.modes := by
  simp only [bumpOne]
  split <;> rfl

@[simp] theorem selectStep_modes (t : Tile) (cycles k : Nat) : (selectStep t cycles k).modes = t.modes := by
  simp only [selectStep]
  split <;> rfl

@[simp] theorem bumpFor_modes (cycles ev k : Nat) (t : Tile) : (bumpFor cycles ev k t).modes = t.modes := by
  have h : ∀ n u, (if counts u n ev then bumpOne u n (cycles * k) else u).modes = u.modes := by
    intro n u
    split <;> simp
  simp only [bumpFor]
  split
  · rfl
  · split <;> simp [repeatN_keeps Tile.modes h]

@[simp] theorem passTo_modes (cyc : Nat) (t : Tile) : (passTo cyc t).modes = t.modes := by
  unfold passTo
  split
  · rfl
  · exact (bumpFor_modes _ _ _ _).trans (bumpFor_modes _ _ _ _)

@[simp] theorem faultTile_modes (cx : Ctx) (cyc cause pc : Nat) (t : Tile) :
    (faultTile cx cyc cause pc t).modes = t.modes := by
  unfold faultTile
  dsimp only
  split
  · rfl
  · exact (passTo_modes cyc (setInt t (15 + cause))).trans (setInt_modes t _)

@[simp] theorem setTruss_modes (t : Tile) (one : Bool) (u : Truss) : (setTruss t one u).modes = t.modes := by
  cases one <;> rfl

@[simp] theorem countedChunk_modes (store : Memory) (one : Bool) (t : Tile) :
    (countedChunk store one t).modes = t.modes := by
  unfold countedChunk
  dsimp only
  split
  · rfl
  · exact (bumpFor_modes _ _ _ _).trans (setTruss_modes t one _)

@[simp] theorem chunkOrFault_modes (cx : Ctx) (cyc : Nat) (one : Bool) (t : Tile) :
    (chunkOrFault cx cyc one t).modes = t.modes := by
  unfold chunkOrFault
  split <;> simp

@[simp] theorem chunksRead_modes (cx : Ctx) (i : Issue) (t : Tile) : (chunksRead cx i t).modes = t.modes := by
  have h (one : Bool) := repeatN_keeps Tile.modes (f := fun _ u => chunkOrFault cx i.cycle one u)
    fun _ u => chunkOrFault_modes cx i.cycle one u
  rw [chunksRead, h, h, passTo_modes]

/-- A V-slot operation reads the registers and the two CSRs of its tile, and nothing else. -/
theorem execV_congr {t u : Tile} (hr : t.regs = u.regs) (hm : t.modes = u.modes) (o : VOp) : execV t o = execV u o := by
  injection hm with hc hk
  simp only [execV, tileRmode, srSrc, hr, hc, hk]

theorem execV_tileReady (o : VOp) : execV (tileReady s i) o = execV (tileIn s i.tile) o :=
  execV_congr (tileReady_regs s i) (chunksRead_modes _ i _) o

/-! ### The lanes a whole-register result leaves -/

theorem mem_wholeV {lat r : Nat} {v : VReg} {w : TWr} :
    w ∈ wholeV lat r v ↔ ∃ q < 4, w = ⟨lat, .vq r q (quarterOf v q)⟩ := by
  simp [wholeV, eq_comm]

/-- A lane of a register that no write's quarter holds is as it was. -/
theorem lane_applyWrs_keeps {r : Regs} {ws : List TWr} {n l : Nat} (hl : l < 512)
    (h : ∀ w ∈ ws, ∀ q xs, w.wr = .vq n q xs → q < 4 ∧ l / 128 ≠ q) :
    lane (readV (applyWrs r ws) n) l = lane (readV r n) l := by
  refine applyWrs_keeps (fun r => lane (readV r n) l) fun r w hw => ?_
  cases hc : w.wr with
  | vq m q xs =>
    simp only [applyWr, readV_writeV]
    split
    · rename_i hm
      subst hm
      obtain ⟨hq, hne⟩ := h w hw q xs hc
      rw [lane_setQuarter _ _ _ _ hq hl, if_neg hne]
    · rfl
  | _ => simp [applyWr]

/-- A V-slot command whose operation writes a whole register writes its lanes, but for the quarters that meet a drain. -/
theorem writesLanes_of_whole {o : VOp} {vd : BitVec 6} {r : Tile → VReg} {f : Tile → Nat → W32}
    (hc : ∀ s, exec c s = .next { s with sys := issueV i p o s.sys })
    (hw : ∀ t, (execV t o).writes = wholeV (latV o) vd.toNat (r t)) (hf : ∀ t, ∀ l < 512, lane (r t) l = f t l) :
    WritesLanes c i p o vd f := by
  intro s b h hm
  have hv : (execV (tileReady s i) (runV s i b)).writes = wholeV (latV o) vd.toNat (r (tileIn s i.tile)) := by
    rw [h.runV_eq, execV_tileReady, hw]
  have hq {w : TWr} (hwm : w ∈ writesOf s i b) {q : Nat} {xs : List W32} (e : w.wr = .vq vd.toNat q xs) :
      q < 4 ∧ MeetsDrain s i (latV o) vd.toNat q = false ∧ xs = quarterOf (r (tileIn s i.tile)) q := by
    obtain ⟨-, hd⟩ := (mem_writesOf w).mp hwm
    obtain ⟨q', hq', rfl⟩ := mem_wholeV.mp (hv ▸ v_of_mem_writesOf hm hwm e)
    injection e with _ hqq hx
    subst hqq
    exact ⟨hq', hd, hx.symm⟩
  obtain ⟨t, ht, hr⟩ := h.issues.exec_regs (h.drives hc)
  refine ⟨t, ht, fun l hl => ?_⟩
  rw [hr, readV_setLoops]
  cases hmeet : MeetsDrain s i (latV o) vd.toNat (l / 128) with
  | true =>
    refine lane_applyWrs_keeps hl fun w hwm q xs e => ?_
    obtain ⟨hq4, hfree, -⟩ := hq hwm e
    refine ⟨hq4, ?_⟩
    rintro rfl
    exact absurd hmeet (by simp [hfree])
  | false =>
    rw [if_neg Bool.false_ne_true]
    refine lane_applyWrs hl (fun w hwm q xs e => (hq hwm e).1) ?_ fun w hwm xs e => ?_
    · refine ⟨⟨latV o, .vq vd.toNat (l / 128) (quarterOf (r (tileIn s i.tile)) (l / 128))⟩, ?_, _, rfl⟩
      refine (mem_writesOf _).mpr ⟨.inr (.inr ?_), hmeet⟩
      rw [hv]
      exact mem_wholeV.mpr ⟨_, by omega, rfl⟩
    · obtain ⟨-, -, rfl⟩ := hq hwm e
      rw [lane_quarterOf _ _ _ (Nat.mod_lt _ (by omega)), ← hf _ l hl, Nat.div_add_mod]

/-! ### Lanes of the results -/

theorem lane_map_range (g : Nat → W32) {n l : Nat} (h : l < n) : lane ((List.range n).map g) l = g l := by
  simp [lane, h]

/-- Blocks of `m` elements laid end to end: element `l` stands in block `l / m`, at `l % m`. -/
theorem getElem?_flatMap_range {α : Type} {m : Nat} {g : Nat → List α} {n : Nat} (hg : ∀ k < n, (g k).length = m)
    {l : Nat} (h : l < m * n) : ((List.range n).flatMap g)[l]? = (g (l / m))[l % m]? := by
  induction n with
  | zero => simp at h
  | succ n ih =>
    have hlen : ((List.range n).flatMap g).length = m * n := by
      rw [List.length_flatMap, List.map_congr_left fun k hk => hg k (by have := List.mem_range.mp hk; omega)]
      simp [Nat.mul_comm]
    rw [List.range_succ, List.flatMap_append, List.flatMap_singleton]
    by_cases hl : l < m * n
    · rw [List.getElem?_append_left (by omega)]
      exact ih (fun k hk => hg k (by omega)) hl
    · obtain ⟨j, rfl⟩ := Nat.exists_eq_add_of_le (Nat.le_of_not_lt hl)
      have hj : j < m := by rw [Nat.mul_succ] at h; omega
      rw [List.getElem?_append_right (by omega), hlen, Nat.add_sub_cancel_left, Nat.mul_add_div (by omega),
        Nat.div_eq_of_lt hj, Nat.mul_add_mod, Nat.mod_eq_of_lt hj, Nat.add_zero]

theorem lane_quantLanes (scale : Nat) (es : List Nat) {j : Nat} (h : j < es.length) :
    lane (quantLanes scale es) j = BitVec.ofNat 32 (256 * scale + es.getD j 0 % 256) := by
  simp [lane, quantLanes, h]

/-- Lane `l` of quantised blocks of `m` lanes: the element of its block at its place, and the block's scale (R139). -/
theorem lane_blocks {m n : Nat} {r : Nat → Nat × List Nat × Bool} (hr : ∀ k, (r k).2.1.length = m) {l : Nat}
    (h : l < m * n) :
    lane (((List.range n).map r).flatMap fun x => quantLanes x.1 x.2.1) l =
      BitVec.ofNat 32 (256 * (r (l / m)).1 + (r (l / m)).2.1.getD (l % m) 0 % 256) := by
  have hm : 0 < m := Nat.pos_of_mul_pos_right (by omega : 0 < m * n)
  rw [← lane_quantLanes _ _ (by rw [hr]; exact Nat.mod_lt _ hm), List.flatMap_map]
  simp only [lane, List.getD_eq_getElem?_getD]
  rw [getElem?_flatMap_range (m := m) (fun k _ => by simp [quantLanes, hr]) h]

theorem mxBlock_length (t : Narrow) (conv : Nat → FVal → Nat × Bool) (vs : List FVal) :
    (mxBlock t conv vs).2.1.length = vs.length := by
  unfold mxBlock
  split <;> simp

theorem k4Block_length (st : FVal) (conv : Nat → FVal → Nat × Bool) (vs : List FVal) :
    (k4Block st conv vs).2.1.length = vs.length := by
  unfold k4Block
  split
  · split <;> simp
  · simp

/-- Taking the maximum with its own operand once more changes nothing. -/
theorem maxF_maxF_self (x : F32) : maxF (maxF x x) x = maxF x x := by
  cases h : isNaN32 x with
  | true => simp [maxF, h]
  | false => simp [maxF, h]

theorem lane_cons_zeros (x : W32) {n l : Nat} (h : l ≤ n) :
    lane (x :: List.replicate n 0) l = if l = 0 then x else 0 := by
  cases l with
  | zero => rfl
  | succ k => simp [lane, Nat.lt_of_succ_le h]

/-- VRED's sum: the canonical tree in lane 0, +0 elsewhere (R140). -/
theorem lane_vred_sum (a : VReg) {l : Nat} (h : l < 512) :
    lane (vredOp false a).1 l = if l = 0 then ctree ((List.range 512).map (lane a)) else 0 := by
  simp only [vredOp, Bool.false_eq_true, if_false]
  exact lane_cons_zeros _ (Nat.le_of_lt_succ h)

/-- VRED's maximum: over the lanes in ascending order from lane 0, +0 in every other lane (R140). -/
theorem lane_vred_max (a : VReg) {l : Nat} (h : l < 512) :
    lane (vredOp true a).1 l =
      if l = 0 then (List.range 512).foldl (fun x k => maxF x (lane a k)) (maxF (lane a 0) (lane a 0)) else 0 := by
  have hm : (List.range 512).map (lane a) = lane a 0 :: (List.range 511).map fun k => lane a (k + 1) := by
    rw [List.range_succ_eq_map, List.map_cons, List.map_map]
    rfl
  rw [← List.foldl_map, hm, List.foldl_cons, maxF_maxF_self]
  simp only [vredOp, hm, if_true]
  exact lane_cons_zeros _ (Nat.le_of_lt_succ h)

/-- A lane's conversion in a quantiser, with or without stochastic rounding (R138). -/
theorem convLane_eq_quantRound (t : Tile) (n : Narrow) (sr : Bool) (grp : BitVec 3) :
    convLane n (tileRmode t) (if sr then some (srSrc t grp.toNat) else none) = quantRound t n sr grp := by
  funext l v
  cases sr <;> rfl

/-- Settles O15: each command writes the whole register its operation computes, and its lanes are those of the rule. -/
theorem conversionsReducesAndQuantisers : Obligations.ConversionsReducesAndQuantisers := by
  unfold Obligations.ConversionsReducesAndQuantisers
  intro i p vd va n grp sr sT
  refine ⟨?_, ?_, ?_, ?_, ?_, ?_, ?_⟩
  · refine writesLanes_of_whole (exec_vcvt · i p vd va (.into n)) (fun _ => rfl) fun t l hl => ?_
    simp only [vcvtOp, List.map_map, lane_map_range _ hl]
    rfl
  · refine writesLanes_of_whole (exec_vcvt · i p vd va (.outOf n)) (fun _ => rfl) fun t l hl => ?_
    simp only [vcvtOp, List.map_map, lane_map_range _ hl]
    rfl
  · refine writesLanes_of_whole (exec_vsr · i p vd va n grp) (fun _ => rfl) fun t l hl => ?_
    simp only [vsrOp, List.map_map, lane_map_range _ hl]
    rfl
  · exact writesLanes_of_whole (exec_vred · i p vd va false) (fun _ => rfl) fun t l hl => lane_vred_sum _ hl
  · exact writesLanes_of_whole (exec_vred · i p vd va true) (fun _ => rfl) fun t l hl => lane_vred_max _ hl
  · refine writesLanes_of_whole (exec_vqmx · i p vd va n sr grp) (fun _ => rfl) fun t l hl => ?_
    simp only [vqmxOp, convLane_eq_quantRound]
    rw [lane_blocks (m := 32) (fun k => by simp [mxBlock_length]) (by omega), Nat.mul_comm 32]
    rfl
  · refine writesLanes_of_whole (exec_vqk4 · i p vd va sT sr grp) (fun _ => rfl) fun t l hl => ?_
    simp only [vqk4Op, convLane_eq_quantRound]
    rw [lane_blocks (m := 16) (fun k => by simp [k4Block_length]) (by omega), Nat.mul_comm 16]
    rfl

end Sys2Proof.Machine
end

section
/-!
SUPPORT. The tile an issuing bundle leaves, where its CSRs and its state are asked for: what a CSRW stores, the flag of SIG,
and the state in which BEAT waits. Then CSR access, SIG and BEAT (O3).
-/

namespace Sys2Proof.Machine

variable {c : Instr} {s : State} {i : Issue} {b : Bun} {p : Pred}

/-! ### Sticky flags that bookkeeping leaves set -/

/-- Bit `n` of int_status is set. -/
def Tile.flagSet (n : Nat) (t : Tile) : Prop := t.csr.intStatus.getLsbD n = true

theorem setInt_flagSet_self (t : Tile) {n : Nat} (h : n < 64) : (setInt t n).flagSet n := by
  simp [Tile.flagSet, setInt, bit64, h]

variable {n : Nat} {t : Tile}

theorem setInt_flagSet (k : Nat) (h : t.flagSet n) : (setInt t k).flagSet n := by
  unfold Tile.flagSet at h
  simp [Tile.flagSet, setInt, h]

theorem setIntIf_flagSet (x : Bool) (k : Nat) (h : t.flagSet n) : (setIntIf x t k).flagSet n := by
  cases x with
  | false => exact h
  | true => exact setInt_flagSet k h

theorem setIntIf_flagSet_self (t : Tile) {x : Bool} (h : n < 64) (hx : x = true) : (setIntIf x t n).flagSet n := by
  subst hx
  exact setInt_flagSet_self t h

theorem bumpOne_flagSet (m k : Nat) (h : t.flagSet n) : (bumpOne t m k).flagSet n := by
  simp only [bumpOne]
  split
  · exact h
  · exact setInt_flagSet _ h

theorem selectStep_flagSet (cycles k : Nat) (h : t.flagSet n) : (selectStep t cycles k).flagSet n := by
  simp only [selectStep]
  split <;> exact h

theorem bumpFor_flagSet (cycles ev k : Nat) (h : t.flagSet n) : (bumpFor cycles ev k t).flagSet n := by
  have hstep : ∀ m (u : Tile), u.flagSet n → (if counts u m ev then bumpOne u m (cycles * k) else u).flagSet n := by
    intro m u hu
    split
    · exact bumpOne_flagSet _ _ hu
    · exact hu
  simp only [bumpFor]
  split
  · exact h
  · split
    · exact selectStep_flagSet _ _ (repeatN_induct hstep 8 h)
    · exact repeatN_induct hstep 8 h

theorem bump_flagSet (ev k : Nat) (h : t.flagSet n) : (bump ev k t).flagSet n := bumpFor_flagSet 1 ev k h

theorem countIssue_flagSet (r : Regs) (b : Bun) (taken looped nan : Bool) (h : t.flagSet n) :
    (countIssue r b taken looped nan t).flagSet n := by
  simp only [countIssue]
  refine List.foldlRecOn _ _ ?_ fun u hu e _ => bump_flagSet e 1 hu
  iterate 9 apply bump_flagSet
  exact h

theorem countStore_flagSet (i : Issue) (h : t.flagSet n) : (countStore i t).flagSet n := by
  simp only [countStore]
  split
  · exact h
  · exact setInt_flagSet _ (bump_flagSet _ _ h)

theorem sampleIssue_flagSet (cx : Ctx) (i : Issue) (pc : Nat) (w : Bundle) (b : Bun) (r : Regs) (lat : Nat) (timed : Bool)
    (ss : List (BitVec 4 × Nat)) (h : t.flagSet n) : (sampleIssue cx i pc w b r lat timed ss t).flagSet n := by
  have hs : (if sampMode t = 1 then selectStep t 1 1 else t).flagSet n := by
    split
    · exact selectStep_flagSet _ _ h
    · exact h
  simp only [sampleIssue]
  generalize (if sampMode t = 1 then selectStep t 1 1 else t) = u at hs ⊢
  split <;> exact hs

/-- A CSRW acts last on the tile (R62, R323); before it SIG has set its flag, which counters and samples leave set. -/
theorem issueNow_end (cx : Ctx) (ix : Nat) (i : Issue) (w : Bundle) (b : Bun) (pc : Nat) (t0 tn : Tile) :
    ∃ u : Tile, ((execC cx ix t0 pc (opOr .nop t0.regs b.c)).sig = true → u.flagSet bitSignal) ∧
      (issueNow cx ix i w b pc t0 tn).1 = csrwRest cx t0 u (execC cx ix t0 pc (opOr .nop t0.regs b.c)).csrw := by
  unfold issueNow
  dsimp only
  generalize execC cx ix t0 pc (opOr .nop t0.regs b.c) = c
  generalize execM cx t0 (issueSeen pc i c.csrw t0 tn) i.cycle (opOr .nop t0.regs b.m) = m
  refine ⟨_, fun hs => ?_, rfl⟩
  exact sampleIssue_flagSet _ _ _ _ _ _ _ _ _ (countStore_flagSet _ (countIssue_flagSet _ _ _ _ _
    (setIntIf_flagSet _ _ (setIntIf_flagSet _ _ (setIntIf_flagSet_self _ (by decide) hs)))))

/-- A bundle whose C slot executes SIG leaves sw_signal set (R112). -/
theorem issueNow_signal {cx : Ctx} {ix : Nat} {i : Issue} {w : Bundle} {b : Bun} {pc : Nat} {t0 tn : Tile}
    (ho : opOr .nop t0.regs b.c = .sig) : (issueNow cx ix i w b pc t0 tn).1.flagSet bitSignal := by
  obtain ⟨u, hu, e⟩ := issueNow_end cx ix i w b pc t0 tn
  rw [ho] at hu e
  rw [e]
  exact hu rfl

/-! ### What a CSRW stores -/

/-- A write of a mailbox's offset stores the value, whatever the module's state (R67). -/
theorem csrWrite_mailbox (cx : Ctx) (t : Tile) (n : Fin 8) (x : W64) :
    look 0 (csrWrite cx t (8 * (0x20 + n.val)) x).csr.mailbox n = x := by
  have hn : n.val < 8 := n.isLt
  have hk : (8 * (0x20 + n.val) - 0x0100) / 8 = n.val := by omega
  have hr : 0x0100 ≤ 8 * (0x20 + n.val) ∧ 8 * (0x20 + n.val) ≤ 0x0138 := by omega
  have hne (k : Nat) (h : k < 0x0100) : 8 * (0x20 + n.val) ≠ k := by omega
  rw [csrWrite, if_neg (hne _ (by decide)), if_neg (hne _ (by decide)), if_neg (hne _ (by decide)),
    if_neg (hne _ (by decide)), if_neg (hne _ (by decide)), if_neg (hne _ (by decide)), if_pos hr, hk]
  exact look_put_self ..

theorem csrwRest_mailbox (cx : Ctx) (t0 u : Tile) (n : Fin 8) (x : W64) :
    look 0 (csrwRest cx t0 u (some (8 * (0x20 + n.val), x))).csr.mailbox n = x := by
  have hn : n.val < 8 := n.isLt
  unfold csrwRest
  dsimp only
  rw [if_neg (by omega), if_neg (by omega)]
  exact csrWrite_mailbox cx u n x

/-! ### The state of a tile at its issue -/

theorem setTruss_tstate (t : Tile) (one : Bool) (u : Truss) : (setTruss t one u).tstate = t.tstate := by
  cases one <;> rfl

theorem countedChunk_tstate (store : Memory) (one : Bool) (t : Tile) : (countedChunk store one t).tstate = t.tstate := by
  unfold countedChunk
  dsimp only
  split
  · rfl
  · exact (Tile.work_tstate (bump_work _ _ _)).trans (setTruss_tstate t one _)

/-- A chunk that a truss reads leaves the tile's state, or takes it to FAULT (R41). -/
theorem chunkOrFault_tstate (cx : Ctx) (cyc : Nat) (one : Bool) (t : Tile) :
    (chunkOrFault cx cyc one t).tstate = t.tstate ∨ (chunkOrFault cx cyc one t).tstate = .fault := by
  unfold chunkOrFault faultTile
  dsimp only
  split
  · split
    · exact .inl rfl
    · exact .inr rfl
  · exact .inl (countedChunk_tstate ..)

theorem chunksNow_tstate (cx : Ctx) (i : Issue) (t : Tile) :
    (chunksNow cx i t).tstate = t.tstate ∨ (chunksNow cx i t).tstate = .fault := by
  have h (x one : Bool) (u : Tile) (hu : u.tstate = t.tstate ∨ u.tstate = .fault) :
      (if x then chunkOrFault cx i.cycle one u else u).tstate = t.tstate ∨
        (if x then chunkOrFault cx i.cycle one u else u).tstate = .fault := by
    split
    · rcases chunkOrFault_tstate cx i.cycle one u with e | e
      · rwa [e]
      · exact .inr e
    · exact hu
  exact h i.now1 true _ (h i.now0 false t (.inl rfl))

theorem execM_tstate (cx : Ctx) (t0 t : Tile) (cyc : Nat) (o : MOp) : (execM cx t0 t cyc o).1.tstate = t.tstate := by
  cases o <;> simp only [execM]
  case sts => rfl
  case stv => exact List.foldlRecOn (motive := fun u : Tile => u.tstate = t.tstate) _ _ rfl fun _ hu _ _ => hu
  case wfill one k aS sU =>
    split
    · rfl
    · rw [Tile.work_tstate (bump_work _ _ _), setTruss_tstate]
  case sarm aL tag ur aR =>
    split
    · rw [Tile.work_tstate (bump_work _ _ _), Tile.work_tstate (bump_work _ _ _)]
    · exact show (bump 0x053 1 t).tstate = t.tstate from Tile.work_tstate (bump_work _ _ _)
  case ureq => rw [Tile.work_tstate (bump_work _ _ _)]
  case xsnd aS sD cls len =>
    simp only [exchangeSend]
    split
    · rw [Tile.work_tstate (bump_work _ _ _)]
    · split <;> rw [Tile.work_tstate (bump_work _ _ _)] <;> rfl

theorem execT_tstate (t0 t : Tile) (cyc : Nat) (o : TOp) : (execT t0 t cyc o).tstate = t.tstate := by
  cases o <;> simp only [execT, takeBatch]
  case trow =>
    split
    · rw [countedChunk_tstate, setTruss_tstate]
    · split <;> rw [setTruss_tstate]
  case tswp => exact (Tile.work_tstate (bump_work _ _ _)).trans (setTruss_tstate ..)
  all_goals rw [setTruss_tstate]

/-- A tile whose bundle issues is in ISSUE, and stays in it. -/
theorem issueWhen_tstate {f : Bun → Bool} (h : Issues s i b) (hf : f b = true) :
    (tileOf (issueWhen i f s.sys).data i.tile).tstate = .issue := by
  have hwork := Tile.work_tstate (issueWhen_work h hf)
  obtain ⟨-, hm, -, -, -, -, -, hread⟩ := h
  simp only [mayIssue, Bool.and_eq_true, decide_eq_true_eq] at hm
  obtain ⟨hissue, -⟩ := hm
  have hnow : (tileNow (ctxOf (envOf s.sys) s.sys.data i.tile) i (tileReady s i)).tstate = .issue := by
    rcases chunksNow_tstate (ctxOf (envOf s.sys) s.sys.data i.tile) i
      (countImem i (tileReady s i).seq.pc (tileReady s i)) with e | e
    · exact e.trans ((Tile.work_tstate (countImem_work ..)).trans hissue)
    · exact absurd e hread
  rw [hwork]
  change (unitsOf s i b).tstate = .issue
  rw [unitsOf, execT_tstate, execM_tstate, seenOf, Tile.work_tstate (issueSeen_work ..), hnow]

/-! ### CSRR, CSRW, SIG, BEAT -/

/-- CSRR's two halves, when the M slot names neither register (R111). -/
theorem csrr_writesPair {pair : BitVec 4} {idx : BitVec 13} (h : IssuesC s i b p (.csrr pair idx))
    (hlo : RegName.s (2 * pair.toNat) ∉ destsM (runM s i b))
    (hhi : RegName.s (2 * pair.toNat + 1) ∉ destsM (runM s i b)) :
    let v := csrRead (ctxOf (envOf s.sys) s.sys.data i.tile) i.tile (tileReady s i) (8 * idx.toNat)
    ∃ t, exec (.csrr i p pair idx) s = .next t ∧
      (readS (tileIn t i.tile).regs (2 * pair.toNat)).toNat = (if pair = 0 then 0 else v.toNat % 2 ^ 32) ∧
      (readS (tileIn t i.tile).regs (2 * pair.toNat + 1)).toNat = v.toNat / 2 ^ 32 := by
  intro v
  have hw : (cOutOf s i b).writes =
      [⟨6, .s (2 * pair.toNat) (v.setWidth 32)⟩, ⟨6, .s (2 * pair.toNat + 1) (v.extractLsb' 32 32)⟩] := by
    rw [cOutOf_eq, h.runC_eq]
    rfl
  obtain ⟨t, ht, hr⟩ := h.issues.exec_regs (h.drives (exec_csrr · i p pair idx))
  refine ⟨t, ht, ?_, ?_⟩ <;> rw [hr, readS_setLoops]
  · by_cases hz : pair = 0
    · simp [hz]
    · have hn : 2 * pair.toNat ≠ 0 := by simpa [BitVec.toNat_eq] using hz
      rw [if_neg hz, readS_writesOf_c (v := v.setWidth 32) _ hn hlo (by simp [hw]) (by simp [hw])]
      simp
  · rw [readS_writesOf_c (v := v.extractLsb' 32 32) _ (by omega) hhi (by simp [hw]) (by simp [hw])]
    have hv := v.isLt
    rw [BitVec.extractLsb'_toNat, Nat.shiftRight_eq_div_pow]
    exact Nat.mod_eq_of_lt (by omega)

/-- CSRW of a mailbox stores the register pair, the odd register above (R111). -/
theorem csrw_writesMailbox {pair : BitVec 4} {n : Fin 8}
    (h : IssuesC s i b p (.csrw pair (BitVec.ofNat 13 (0x20 + n.val)))) :
    ∃ t, exec (.csrw i p pair (BitVec.ofNat 13 (0x20 + n.val))) s = .next t ∧
      (look 0 (tileIn t i.tile).csr.mailbox n).toNat =
        (readS (tileIn s i.tile).regs (2 * pair.toNat + 1)).toNat * 2 ^ 32 +
          (readS (tileIn s i.tile).regs (2 * pair.toNat)).toNat := by
  obtain ⟨f, hf, he⟩ := h.drives (exec_csrw · i p pair _)
  obtain ⟨w, -, e⟩ := issueWhen_tile h.issues hf
  have ho := (opOr_tileReady COp.nop b.c).trans h.runC_eq
  have hoff : 8 * (BitVec.ofNat 13 (0x20 + n.val)).toNat = 8 * (0x20 + n.val) := by
    rw [BitVec.toNat_ofNat, Nat.mod_eq_of_lt (by omega)]
  obtain ⟨u, -, hu⟩ := issueNow_end (ctxOf (envOf s.sys) s.sys.data i.tile) i.tile i w b (tileReady s i).seq.pc
    (tileReady s i) (tileNow (ctxOf (envOf s.sys) s.sys.data i.tile) i (tileReady s i))
  refine ⟨_, he s, ?_⟩
  change (look 0 (tileOf (issueWhen i f s.sys).data i.tile).csr.mailbox n).toNat = _
  rw [e, hu, ho]
  simp only [execC, hoff, csrwRest_mailbox, readS_tileReady]
  rw [BitVec.toNat_append, ← Nat.shiftLeft_add_eq_or_of_lt (BitVec.isLt _), Nat.shiftLeft_eq]

theorem sig_setsSignal (h : IssuesC s i b p .sig) :
    ∃ t, exec (.sig i p) s = .next t ∧ (tileIn t i.tile).csr.intStatus.getLsbD 13 = true := by
  obtain ⟨f, hf, he⟩ := h.drives (exec_sig · i p)
  obtain ⟨w, -, e⟩ := issueWhen_tile h.issues hf
  have ho : opOr .nop (tileReady s i).regs b.c = .sig := (opOr_tileReady _ _).trans h.runC_eq
  refine ⟨_, he s, ?_⟩
  change (tileOf (issueWhen i f s.sys).data i.tile).flagSet bitSignal
  rw [e]
  exact issueNow_signal ho

theorem beat_waits (h : IssuesC s i b p .beat) :
    ∃ t, exec (.beat i p) s = .next t ∧ (tileIn t i.tile).seq.beatAt = some (i.cycle + 1) ∧
      (tileIn t i.tile).tstate = .issue := by
  obtain ⟨f, hf, he⟩ := h.drives (exec_beat · i p)
  refine ⟨_, he s, ?_, issueWhen_tstate h.issues hf⟩
  change (tileOf (issueWhen i f s.sys).data i.tile).seq.beatAt = _
  rw [(Tile.work_seq (issueWhen_work h.issues hf) :)]
  change (if (cOutOf s i b).beat then some (i.cycle + 1) else _) = _
  rw [cOutOf_eq, h.runC_eq]
  rfl

/-- BEAT retires when the tile's work is done (R55): the tile waits, and reports the cycle. -/
theorem beatRetire_done {cyc first : Nat} {t : Tile} (hs : t.tstate = .issue) (hb : t.seq.beatAt = some first)
    (hw : workDone cyc t = true) (hf : first ≤ cyc) :
    (beatRetire cyc t).1.tstate = .wait ∧ (beatRetire cyc t).1.seq.beatAt = none ∧
      (beatRetire cyc t).1.seq.lastDone = cyc := by
  have hk (x : Bool) (cause k m : Nat) (u : Tile) : (setIntIf x (countStall cause k u) m).work = u.work := by simp
  simp only [beatRetire, hb, hs, hw, hf, and_self, if_true]
  rw [Tile.work_tstate (hk ..), Tile.work_seq (hk ..)]
  exact ⟨rfl, rfl, rfl⟩

/-- Settles O3: each command by its own lemma; BEAT_RETIRE steps a tile that is on. -/
theorem csrAccessSignalAndBeat : Obligations.CsrAccessSignalAndBeat := by
  unfold Obligations.CsrAccessSignalAndBeat
  intro s i b p
  refine ⟨fun _ _ h => csrr_writesPair h, fun _ _ => csrw_writesMailbox, sig_setsSignal, beat_waits, ?_⟩
  intro ix cycle first hs hb hw hf
  have hon : tileOn s.sys.data ix = true := by
    rw [tileIn] at hs
    simp [tileOn, hs]
  refine ⟨_, exec_beatRetire s ix cycle, ?_⟩
  simp only [tileIn, retireBeat, tileStep, hon, if_true, onData_data, tileOf_onTile]
  exact beatRetire_done hs hb hw hf

end Sys2Proof.Machine
end

section
/-!
SUPPORT. Plumb: what an event, an engine's edit, a flooded word and a noted beat fault leave of it, and the plumb each of its
commands leaves. Then state words, roots and lost members (O35).
-/

namespace Sys2Proof.Machine

variable {d : Data} {e : Env}

/-! ### What leaves plumb and the beat generator as they were -/

@[simp] theorem raiseData_plumb (e : Env) (code : Nat) (detail : List Byte) (d : Data) :
    (raiseData e code detail d).plumb = d.plumb := rfl

@[simp] theorem raiseData_beat (e : Env) (code : Nat) (detail : List Byte) (d : Data) :
    (raiseData e code detail d).beat = d.beat := rfl

@[simp] theorem editEngine_plumb (i : Nat) (f : Engine → Engine) (d : Data) : (editEngine i f d).plumb = d.plumb := rfl

@[simp] theorem floodWord_plumb (but : Nat) (w : BitVec 128) (d : Data) : (floodWord but w d).plumb = d.plumb := rfl

@[simp] theorem evRootElected_plumb (e : Env) (d : Data) : (evRootElected e d).plumb = d.plumb := rfl

@[simp] theorem evLock_plumb (e : Env) (d : Data) : (evLock e d).plumb = d.plumb := rfl

@[simp] theorem noteFault_plumb (cause : Nat) (d : Data) : (noteFault cause d).plumb = d.plumb := by
  unfold noteFault
  split <;> rfl

@[simp] theorem noteFirst_plumb (cause : Nat) (d : Data) : (noteFirst cause d).plumb = d.plumb := rfl

/-- With no beat fault waiting, the one that is noted first waits (R152). -/
theorem noteFirst_pendFault (cause : Nat) (h : d.beat.pendFault = none) :
    (noteFirst cause d).beat.pendFault = some (BitVec.ofNat 8 cause) := by
  simp [noteFirst, h]

/-! ### State words -/

/-- A word that is due waits while boundaries are marked or a beat fault stands, in a system once it has trained (R158). -/
theorem wordWaits_of_due (hon : d.on = true) (ht : inSystem d = false ∨ d.plumb.trained = true)
    (hm : d.beat.marking = true ∨ d.beat.fault.isSome) (hw : d.plumb.wordDue = true) : wordWaits d = true := by
  simp only [wordWaits, hon, hw, Bool.true_and, Bool.true_or, Bool.and_true, Bool.and_eq_true, Bool.or_eq_true,
    Bool.not_eq_true']
  exact ⟨ht, hm⟩

/-- What the sent word leaves of plumb: the own word among the members' words, and its record. -/
theorem wordSend_plumb (h : wordWaits d = true) :
    (wordSend d).plumb = { (keepOwn (ownWord d) d).plumb with
      lastSent := d.beat.tick, wordDue := false, sent := some (ownWord d)
      heard := put 0 d.plumb.heard (ownModule d).toNat d.beat.tick } := by
  rw [wordSend, if_pos h]
  rfl

section
variable {i : Nat} {x : BitVec 128} {rest : List (BitVec 128)} {w : StateWord}

/-- A copy of a word already seen is dropped (R159). -/
theorem wordReceive_plumb_of_seen (hin : (engineOf d i).wordsIn = x :: rest) (hx : wordOf x = some w)
    (hs : w.wseq ∈ look [] d.plumb.seen w.origin.toNat) : (wordReceive i d).plumb = d.plumb := by
  simp only [wordReceive, hin, hx, if_pos (Or.inr hs), editEngine_plumb]

/-- The first copy of another module's word is noted as seen, and its arrival as the member's last (R159, R160). -/
theorem wordReceive_seen_heard (hin : (engineOf d i).wordsIn = x :: rest) (hx : wordOf x = some w)
    (ho : w.origin ≠ ownModule d) (hs : w.wseq ∉ look [] d.plumb.seen w.origin.toNat) :
    look [] (wordReceive i d).plumb.seen w.origin.toNat =
        w.wseq :: (look [] d.plumb.seen w.origin.toNat).take 63 ∧
      look 0 (wordReceive i d).plumb.heard w.origin.toNat = d.beat.tick := by
  simp only [wordReceive, hin, hx, if_neg (not_or.mpr ⟨ho, hs⟩)]
  -- A late word is beat fault 3 beside that (R160), which leaves plumb as it is.
  split <;> simp

end

/-! ### Markers and lock -/

/-- The marker an engine received stands under that engine until the tick closes (R161). -/
theorem markerReceive_marker {i : Nat} {x : BitVec 128} {b : Int} {m : MarkerIn}
    (hin : (engineOf d i).markerIn = some (x, b))
    (hm : markerOf d.beat.tick (phaseErr b (x.extractLsb' 64 32) d) x = some m) :
    look none (markerReceive i d).plumb.markers i = some m := by
  simp only [markerReceive, hin, hm, editEngine_plumb, look_put_self]

/-- Reaching or missing lock makes a word due (R156); the lock event is beside it. -/
theorem plumbLock_plumb (e : Env) (ok : Bool) (hon : d.on = true) (hm : d.beat.marking = true) :
    (plumbLock e ok d).plumb = { d.plumb with locked := ok, wordDue := true } := by
  simp only [plumbLock, hon, hm, and_self, if_true]
  split
  · exact evLock_plumb e _
  · rfl

/-! ### The root and its backup -/

/-- The root counts as lost: its freshest tick is more than 20 ticks older than the last one closed (R170). -/
def RootSilent (d : Data) : Prop :=
  inSystem d = true ∧ d.plumb.assembled = true ∧ d.plumb.synced = true ∧ d.plumb.root ≠ some (ownModule d) ∧
    d.plumb.rootLost = false ∧ d.plumb.rtick.toInt + 20 < d.beat.tick.toInt - 1

/-- A lost root: a hold, a word that is due, and on the backup its claim with the takeover tick (R170, R171). -/
theorem rootLost_plumb (h : RootSilent d) :
    (rootLost d).plumb = { d.plumb with
      rootLost := true, wordDue := true, rootClaim := d.plumb.backup == some (ownModule d)
      takeover := if d.plumb.backup == some (ownModule d) then some (d.beat.tick - 1 + 32) else d.plumb.takeover } := by
  obtain ⟨hsys, hasm, hsync, hroot, hlost, hold⟩ := h
  simp only [rootLost, hsys, hasm, hsync, hlost, hroot, hold, Bool.not_false, ne_eq, not_false_eq_true, and_self, if_true]
  split <;> simp

/-- At the takeover tick the backup is root, and the loss of the old root has ended (R171). -/
theorem rootTakeover_root {at_ : W64} {b : BitVec 8} (ht : d.plumb.takeover = some at_) (hb : d.plumb.backup = some b)
    (hat : at_.toNat ≤ d.beat.tick.toNat) :
    (rootTakeover e d).plumb.root = some b ∧ (rootTakeover e d).plumb.rootLost = false ∧
      (rootTakeover e d).plumb.takeover = none := by
  simp only [rootTakeover, ht, hb, hat, if_true]
  split <;> simp

theorem eligibles_lt {m : Nat} (h : m ∈ eligibles d) : m < 256 := by
  unfold eligibles at h
  split at h
  · simp only [members, List.mem_filter, List.mem_range] at h
    obtain ⟨⟨hm, -⟩, -⟩ := h
    exact hm
  · simp at h

/-- The next eligible member is none of those named. -/
theorem nextEligible_ne {but : List Nat} {b : BitVec 8} (h : b.toNat ∈ but) : nextEligible d but ≠ some b := by
  intro hn
  obtain ⟨m, hm, rfl⟩ := Option.map_eq_some_iff.mp hn
  have hlt : m < 256 := eligibles_lt (List.mem_of_find?_eq_some hm)
  have hout : m ∉ but := by simpa using List.find?_some hm
  rw [BitVec.toNat_ofNat, Nat.mod_eq_of_lt hlt] at h
  exact hout h

/-- The root replaces a backup that has been silent for 2,048 ticks by another member (R172). -/
theorem backupRedesignate_backup {b : BitVec 8} (hb : d.plumb.backup = some b) (hr : d.plumb.root = some (ownModule d))
    (hs : (look 0 d.plumb.heard b.toNat).toNat + 2048 ≤ d.beat.tick.toNat) :
    (backupRedesignate d).plumb.backup = nextEligible d [(ownModule d).toNat, b.toNat] := by
  simp only [backupRedesignate, hb, hr, hs, and_self, if_true]

/-! ### Members -/

/-- A member silent for 2,048 ticks of a run is beat fault 5 (R175). -/
theorem memberLost_pendFault {m : Nat} (hsys : inSystem d = true) (hrun : d.beat.run = true) (hm : isMember d m = true)
    (ho : m ≠ (ownModule d).toNat) (hp : d.beat.pendFault = none)
    (hs : (look 0 d.plumb.heard m).toNat + 2048 ≤ d.beat.tick.toNat) :
    (memberLost e m d).beat.pendFault = some 5 := by
  rw [memberLost, if_pos ⟨hsys, hrun, hm, ho, hs⟩]
  exact noteFirst_pendFault 5 (d := evMemberLost e m d) (by rwa [evMemberLost, raiseData_beat])

/-- A trained module with a cabled side out of service gives up its assembly (R242). -/
theorem assemblyIncomplete_incomplete (hsys : inSystem d = true) (hasm : d.plumb.assembled = false)
    (hinc : d.plumb.incomplete = false) (ht : d.plumb.trained = true) (hd : deadSide d = true) :
    (assemblyIncomplete e d).plumb.incomplete = true := by
  simp [assemblyIncomplete, hsys, hasm, hinc, ht, hd]

/-- Settles O35: each command by the plumb, or the waiting beat fault, that it leaves. -/
theorem plumbWordsAndRoots : Obligations.PlumbWordsAndRoots := by
  unfold Obligations.PlumbWordsAndRoots
  refine ⟨⟨?send, ?receive⟩, fun s => ⟨?lock, ?marker, ?lost, ?takeover, ?backup, ?member, ?assembly⟩⟩
  case send =>
    intro s hon ht hm hw
    refine ⟨_, ownWord s.sys.data, exec_stateWordSend s, ?_⟩
    simp only [onData_data, wordSend_plumb (wordWaits_of_due hon ht hm hw), true_and, and_true]
    exact ⟨rfl, rfl, rfl, rfl⟩
  case receive =>
    intro s e x rest w hin hx ho
    refine ⟨fun hs => ?_, fun hs => ⟨_, exec_stateWordReceive s e, wordReceive_plumb_of_seen hin hx hs⟩⟩
    obtain ⟨hseen, hheard⟩ := wordReceive_seen_heard hin hx ho hs
    refine ⟨_, exec_stateWordReceive s e, ?_, hheard⟩
    simp only [onData_data, hseen, List.mem_cons, true_or]
  case lock =>
    intro ok hon hm
    refine ⟨_, exec_plumbLock s ok, ?_⟩
    simp only [onData_data, plumbLock_plumb _ ok hon hm, and_self]
  case marker =>
    intro e x b m hin hm
    exact ⟨_, exec_markerReceive s e, markerReceive_marker hin hm⟩
  case lost =>
    intro hsys hasm hsync hroot hlost hold
    refine ⟨_, exec_rootLost s, ?_⟩
    simp only [onData_data, rootLost_plumb ⟨hsys, hasm, hsync, hroot, hlost, hold⟩, true_and]
    intro hown
    simp [hown]
  case takeover =>
    intro at_ b ht hb hat
    exact ⟨_, exec_rootTakeover s, rootTakeover_root ht hb hat⟩
  case backup =>
    intro b hb hr hs
    refine ⟨_, exec_backupRedesignate s, ?_⟩
    simp only [onData_data, backupRedesignate_backup hb hr hs]
    exact nextEligible_ne (by simp)
  case member =>
    intro m hsys hrun hm ho hp hs
    exact ⟨_, exec_memberLost s m, memberLost_pendFault hsys hrun hm ho hp hs⟩
  case assembly =>
    intro hsys hasm hinc ht hd
    exact ⟨_, exec_assemblyIncomplete s, assemblyIncomplete_incomplete hsys hasm hinc ht hd⟩

end Sys2Proof.Machine
end

section
/-!
SUPPORT. The maps and the scheduled transfers: what an event, an edit and a port count leave of the data plane, and what each
of their commands does where its condition holds and where it does not (O27).
-/

namespace Sys2Proof.Machine

variable {d : Data} {e : Env}

/-! ### What events, edits and counts leave -/

/-- A command of the data plane that leaves it as it was leaves the module. -/
theorem onData_of_fixed {f : Data → Data} {x : Module} (h : f x.data = x.data) : onData f x = x := by
  rw [onData, h]

/-- An edit of a tile changes the tiles, and the ring when it raises an event. -/
theorem editTile_eq (e : Env) (ix : Nat) (f : Ctx → Tile → Tile) (d : Data) :
    ∃ ring, editTile e ix f d =
      { d with tiles := put Tile.off d.tiles ix (f (ctxOf e d ix) (tileOf d ix)), ring := ring } := by
  simp only [editTile, setTile]
  split <;> exact ⟨_, rfl⟩

@[simp] theorem editTile_mesh (e : Env) (ix : Nat) (f : Ctx → Tile → Tile) (d : Data) :
    (editTile e ix f d).mesh = d.mesh := by
  obtain ⟨ring, h⟩ := editTile_eq e ix f d
  rw [h]

@[simp] theorem editTile_sum (e : Env) (ix : Nat) (f : Ctx → Tile → Tile) (d : Data) :
    (editTile e ix f d).sum = d.sum := by
  obtain ⟨ring, h⟩ := editTile_eq e ix f d
  rw [h]

@[simp] theorem editTile_beat (e : Env) (ix : Nat) (f : Ctx → Tile → Tile) (d : Data) :
    (editTile e ix f d).beat = d.beat := by
  obtain ⟨ring, h⟩ := editTile_eq e ix f d
  rw [h]

@[simp] theorem ownModule_editTile (e : Env) (ix : Nat) (f : Ctx → Tile → Tile) (d : Data) :
    ownModule (editTile e ix f d) = ownModule d := by
  obtain ⟨ring, h⟩ := editTile_eq e ix f d
  rw [h]
  rfl

@[simp] theorem physModule_editTile (e : Env) (ix m : Nat) (f : Ctx → Tile → Tile) (d : Data) :
    physModule (editTile e ix f d) m = physModule d m := by
  simp only [physModule, editTile_mesh]

@[simp] theorem physTile_editTile (e : Env) (ix r c : Nat) (f : Ctx → Tile → Tile) (d : Data) :
    physTile (editTile e ix f d) r c = physTile d r c := by
  simp only [physTile, editTile_mesh]

@[simp] theorem editField_mesh (e : Env) (n : Nat) (f : Field → Field) (d : Data) :
    (editField e n f d).mesh = d.mesh := by
  simp only [editField, setField]
  split <;> rfl

@[simp] theorem editField_sum (e : Env) (n : Nat) (f : Field → Field) (d : Data) :
    (editField e n f d).sum = d.sum := by
  simp only [editField, setField]
  split <;> rfl

@[simp] theorem countPath_mesh (n : Nat) (sched : Bool) (a : Nat) (path : List Nat) (d : Data) :
    (countPath n sched a path d).mesh = d.mesh := by
  induction path generalizing a d with
  | nil => rfl
  | cons b r ih => rw [countPath, ih]; rfl

theorem countPort_tstate (p n : Nat) (sched : Bool) (t : Tile) : (countPort p n sched t).tstate = t.tstate := by
  unfold countPort
  split
  · rfl
  · split <;> rfl

theorem tstate_portAt (ix p n : Nat) (sched : Bool) (d : Data) :
    (tileOf (portAt d ix p n sched) ix).tstate = (tileOf d ix).tstate := by
  simp only [tileOf, portAt, look_put_self, countPort_tstate]

theorem tstate_ne_off_of_tileOn {ix : Nat} (h : tileOn d ix = true) : (tileOf d ix).tstate ≠ .off := by
  simpa [tileOn] using h

theorem removeAt_length {α : Type} {l : List α} {n : Nat} {x : α} (h : l[n]? = some x) :
    (removeAt l n).length + 1 = l.length := by
  obtain ⟨hn, -⟩ := List.getElem?_eq_some_iff.1 h
  simp only [removeAt, List.length_append, List.length_take, List.length_drop]
  omega

/-- A byte string written into a tile's store reads back from it. -/
theorem readByte_writeStore (t : Tile) (a : Nat) (bs : List Byte) {k : Nat} (h : k < bs.length) :
    readByte (writeStore t a bs).store (a + k) = bs.getD k 0 :=
  (readByte_writeBytes bs t.store a k h).trans (List.getElem_eq_getD 0)

theorem fieldInt_getLsbD_self (f : Field) {i : Nat} (h : i < 64) : (fieldInt f i).intStatus.getLsbD i = true := by
  simp [fieldInt, bit64, h]

theorem fieldInt_getLsbD_of_set {f : Field} {k : Nat} (i : Nat) (h : f.intStatus.getLsbD k = true) :
    (fieldInt f i).intStatus.getLsbD k = true := by
  simp [fieldInt, h]

/-! ### Map writes (R181) -/

/-- A write that takes effect gives its tile map entry the new place. -/
theorem physTile_writeTileMap (n : Nat) (p : Option Nat) (h : mapWritable d = true) :
    physTile (writeTileMap e n p d) (n / 32) (n % 32) = p := by
  rw [writeTileMap, if_pos h, physTile, Nat.div_add_mod]
  exact look_put_self ..

/-- A write that takes effect gives its module map entry the new module, and leaves the other entries. -/
theorem physModule_writeModuleMap (n m k : Nat) (h : mapWritable d = true) :
    physModule (writeModuleMap e n m d) k = if k = n then m else physModule d k := by
  rw [writeModuleMap, if_pos h]
  split
  case isTrue hk => subst hk; exact look_put_self ..
  case isFalse hk => exact look_put_of_ne k n _ _ hk

/-- What a refused map write does at one listed field. -/
def blockField (e : Env) (x : Data) (p : Nat × Field) : Data :=
  if p.2.on then editField e p.1 (fieldInt · fbitMapBlocked) x else x

theorem mapBlocked_eq (e : Env) (d : Data) : mapBlocked e d = d.fields.foldl (blockField e) d := rfl

@[simp] theorem blockField_mesh (x : Data) (p : Nat × Field) : (blockField e x p).mesh = x.mesh := by
  unfold blockField
  split
  · exact editField_mesh ..
  · rfl

@[simp] theorem mapBlocked_mesh (e : Env) (d : Data) : (mapBlocked e d).mesh = d.mesh := by
  rw [mapBlocked_eq]
  exact List.foldlRecOn (motive := fun x => x.mesh = d.mesh) _ _ rfl fun x hx p _ => (blockField_mesh x p).trans hx

/-- Field `f` shows map_write_blocked. -/
def ShowsBlocked (f : Nat) (d : Data) : Prop := (fieldOf d f).intStatus.getLsbD fbitMapBlocked = true

theorem blockField_keeps {f : Nat} (p : Nat × Field) (h : ShowsBlocked f d) : ShowsBlocked f (blockField e d p) := by
  unfold blockField
  split
  · rw [ShowsBlocked, fieldOf_editField]
    split
    case isTrue hf => exact fieldInt_getLsbD_of_set _ (hf ▸ h)
    case isFalse => exact h
  · exact h

theorem blockField_shows {f : Nat} {g : Field} (x : Data) (h : g.on = true) : ShowsBlocked f (blockField e x (f, g)) := by
  rw [blockField, if_pos h, ShowsBlocked, fieldOf_editField, if_pos rfl]
  exact fieldInt_getLsbD_self _ (by decide)

/-- A refused map write shows in every powered field: its own turn sets the bit, and later turns leave it set. -/
theorem mapBlocked_shows {f : Nat} {g : Field} (hm : (f, g) ∈ d.fields) (hg : g.on = true) :
    ShowsBlocked f (mapBlocked e d) := by
  obtain ⟨before, after, hl⟩ := List.append_of_mem hm
  rw [mapBlocked_eq, hl, List.foldl_append, List.foldl_cons]
  exact List.foldlRecOn (motive := ShowsBlocked f) _ _ (blockField_shows _ hg) fun _ hx p _ => blockField_keeps p hx

/-- A map write that does not take effect, of either map, is refused. -/
theorem writeMap_of_blocked {x : Module} (w : MapEntry) (hon : x.data.on = true) (h : mapWritable x.data = false) :
    (writeMap w x).data = mapBlocked (envOf x) x.data := by
  cases w <;> simp [writeMap, hon, writeTileMap, writeModuleMap, h]

theorem mapWritable_eq_false (h : d.beat.advancing = true ∨ quiescent d = false) : mapWritable d = false := by
  rcases h with h | h <;> simp [mapWritable, h]

/-! ### Slots (R119, R120, R188, R192) -/

theorem alignDown_six (n : Nat) : alignDown n 6 = n / 64 * 64 := by
  unfold alignDown
  omega

theorem stackLine_length (f : Field) (now i line : Nat) (h : f.recent = []) : (stackLine d f now i line).length = 64 := by
  simp [stackLine, h]

/-- With no recent scheduled write, a stack read holds its lines' 64 B each. -/
theorem stackLines_length (f : Field) (now line n : Nat) (h : f.recent = []) :
    (stackLines d f now line n).length = 64 * n := by
  induction n generalizing line with
  | zero => rfl
  | succ n ih =>
    rw [stackLines, List.length_append, stackLine_length f now n line h, ih]
    omega

section
variable {ix tag cyc : Nat} {a : Arm} {ent : BitVec 128}

theorem scheduledSlot_of_unarmed (h : look none (tileOf d ix).xfer.armed tag = none) :
    scheduledSlot e ix tag cyc d = d := by
  simp only [scheduledSlot, armOf, h]

theorem scheduledSlot_of_otherCycle (h : look none (tileOf d ix).xfer.armed tag = some a)
    (hent : look 0 (tileOf d ix).xfer.sched tag = ent) (hc : cyc ≠ schedSlot ent + a.moved) :
    scheduledSlot e ix tag cyc d = d := by
  simp only [scheduledSlot, armOf, h, hent, hc, ne_eq, not_false_eq_true, true_or, if_true]

/-- A flit for a mapped tile of this module joins the flits in flight. -/
theorem sendFlit_flits {src k dst : Nat} {bs : List Byte}
    (hm : physModule d (bits 91 84 ent.toNat) = (ownModule d).toNat)
    (ht : physTile d (bits 83 79 ent.toNat) (bits 78 74 ent.toNat) = some dst) :
    (sendFlit e src ent k bs d).mesh.flits = d.mesh.flits ++
      [⟨d.beat.count, schedLand ent, k, src, dst, bits 73 56 ent.toNat * 64 + 512 * k, bs⟩] := by
  simp only [sendFlit, hm, ht, if_true, countPath_mesh]

section
variable (h : look none (tileOf d ix).xfer.armed tag = some a) (hent : look 0 (tileOf d ix).xfer.sched tag = ent)
  (hc : cyc = schedSlot ent + a.moved)
include h hent hc

/-- The slot of an armed stack read disarms its tag and holds the stack's lines for the return. -/
theorem scheduledSlot_of_stackRead (hk : schedKind ent = 3) (hr : refreshing cyc = false) :
    ∃ off free, scheduledSlot e ix tag cyc d =
      { editTile e ix (fun _ t => setArm tag none t) d with
        free := free
        mesh := { d.mesh with
          returns := d.mesh.returns ++ [⟨ix, tag, alignDown a.store.toNat 6, off,
            stackLines d (fieldOf d (tileField ix)) (absCycle d cyc) (off / 64) (schedUnits ent),
            schedLand ent, 0⟩] } } := by
  simp only [scheduledSlot, armOf, h, hent, hc, hk, hc ▸ hr, ne_eq, not_true_eq_false, and_false, or_self, if_false,
    if_true, Bool.false_eq_true, editTile_mesh]
  exact ⟨_, _, rfl⟩

/-- The held read: its tag is armed no more, and it waits with all its lines and none returned. -/
theorem scheduledSlot_holdsRead (hk : schedKind ent = 3) (hr : refreshing cyc = false)
    (hold : (fieldOf d (tileField ix)).recent = []) :
    ∃ r, look none (tileOf (scheduledSlot e ix tag cyc d) ix).xfer.armed tag = none ∧
      (scheduledSlot e ix tag cyc d).mesh.returns = d.mesh.returns ++ [r] ∧ r.tile = ix ∧ r.done = 0 ∧
      r.land = schedLand ent ∧ r.store = a.store.toNat / 64 * 64 ∧ r.data.length = 64 * schedUnits ent := by
  obtain ⟨off, free, hd⟩ := scheduledSlot_of_stackRead (e := e) h hent hc hk hr
  rw [hd]
  refine ⟨_, ?_, rfl, rfl, rfl, rfl, alignDown_six _, stackLines_length _ _ _ _ hold⟩
  change look none (tileOf (editTile e ix (fun _ t => setArm tag none t) d) ix).xfer.armed tag = none
  rw [tileOf_editTile, if_pos rfl]
  exact look_put_self none _ tag none

/-- The slot of an armed mesh send lets its flit leave. -/
theorem scheduledSlot_of_send (hk : schedKind ent = 1) (hp : (tileOf d ix).poison = []) :
    ∃ f, scheduledSlot e ix tag cyc d =
      sendFlit e ix ent a.moved
        (readBytes (tileOf d ix).store ((alignDown a.store.toNat 6 + 512 * a.moved) % 2 ^ 24)
          (min 512 (64 * schedUnits ent - 512 * a.moved)))
        (editTile e ix f d) := by
  have hclean (at_ n : Nat) : poisonedIn (tileOf d ix) at_ n = false := by simp [poisonedIn, hp]
  simp only [scheduledSlot, armOf, h, hent, hc, hk, hclean, ne_eq, not_true_eq_false, false_and, or_self, if_false,
    if_true, Bool.false_eq_true, (by decide : ¬ (1 : Nat) = 3)]
  exact ⟨_, rfl⟩

/-- The flit of a mesh send to a mapped tile of this module: what it carries, and where it goes. -/
theorem scheduledSlot_sendsFlit {dst : Nat} (hk : schedKind ent = 1) (hp : (tileOf d ix).poison = [])
    (hm : physModule d (bits 91 84 ent.toNat) = (ownModule d).toNat)
    (ht : physTile d (bits 83 79 ent.toNat) (bits 78 74 ent.toNat) = some dst) :
    (scheduledSlot e ix tag cyc d).mesh.flits = d.mesh.flits ++
      [⟨d.beat.count, schedLand ent, a.moved, ix, dst, 64 * bits 73 56 ent.toNat + 512 * a.moved,
        readBytes (tileOf d ix).store ((a.store.toNat / 64 * 64 + 512 * a.moved) % 2 ^ 24)
          (min 512 (64 * schedUnits ent - 512 * a.moved))⟩] := by
  obtain ⟨g, hg⟩ := scheduledSlot_of_send (e := e) h hent hc hk hp
  rw [hg, sendFlit_flits (by simpa using hm) (by simpa using ht), editTile_mesh, editTile_beat, alignDown_six,
    Nat.mul_comm 64 (bits 73 56 ent.toNat)]

end

end

/-! ### Flits at their destination (R185, R188, R190) -/

/-- A flit written where its tile is on: its bytes stand in the store. -/
theorem writeFlit_store (f : Flit) (hon : tileOn d f.tile = true) {k : Nat} (hk : k < f.data.length) :
    readByte (tileOf (writeFlit e f d) f.tile).store (f.offset % 2 ^ 24 + k) = f.data.getD k 0 := by
  rw [writeFlit, if_neg (tstate_ne_off_of_tileOn hon), tileOf_editTile, if_pos rfl, Tile.work_store (bump_work _ _ _)]
  exact readByte_writeStore _ _ _ hk

theorem writeFlit_mesh (f : Flit) (d : Data) : (writeFlit e f d).mesh = d.mesh := by
  unfold writeFlit
  split
  · rfl
  · exact editTile_mesh ..

theorem writeFlit_sum (f : Flit) (d : Data) : (writeFlit e f d).sum = d.sum := by
  unfold writeFlit
  split
  · rfl
  · exact editTile_sum ..

/-- `d1` is `d` once its `n`-th flit `f` has been served at its router: it is in flight no more, its bytes are in its tile's
store, and the summary is as before. -/
def FlitStands (f : Flit) (n : Nat) (d d1 : Data) : Prop :=
  d1.mesh.flits = removeAt d.mesh.flits n ∧ d1.sum = d.sum ∧
    ∀ k < f.data.length, readByte (tileOf d1 f.tile).store (f.offset % 2 ^ 24 + k) = f.data.getD k 0

theorem flitWritten_stands {n : Nat} {f : Flit} {others : List Contender} (hon : tileOn d f.tile = true)
    (hw : winsOver (look 0 d.mesh.served f.tile) ⟨inPort f.source (dimPath f.source f.tile), .scheduled, false⟩
      others = true) :
    ∃ d1, flitWritten e n f others d = some d1 ∧ FlitStands f n d d1 := by
  have hnext : ∃ p, flitWritten e n f others d =
      some (writeFlit e f { d with mesh := { d.mesh with served := p, flits := removeAt d.mesh.flits n } }) := by
    rw [flitWritten, served, if_pos hw]
    exact ⟨_, rfl⟩
  obtain ⟨p, hnext⟩ := hnext
  refine ⟨_, hnext, by rw [writeFlit_mesh], writeFlit_sum .., fun k hk => writeFlit_store f ?_ hk⟩
  exact hon

section
variable {n cyc : Nat} {f : Flit} {others : List Contender} {d1 : Data}

theorem flitLand_of_served (hf : d.mesh.flits[n]? = some f) (hc : cyc = f.land + f.k) (hb : f.beat = d.beat.count)
    (hw : flitWritten e n f others d = some d1) : flitLand e n cyc others d = d1 := by
  simp only [flitLand, hf, hc, hb, hw, and_self, if_true, Option.getD_some]

/-- A late flit is written, counted in the summary, and told to its tile's field. -/
theorem flitLate_of_served (hf : d.mesh.flits[n]? = some f) (hc : f.land + f.k ≤ cyc ∨ f.beat ≠ d.beat.count)
    (hw : flitWritten e n f others d = some d1) :
    ∃ g : Field → Field, flitLate e n cyc others d =
      editField e (tileField f.tile) (fun x => fieldInt (g x) fbitLateLand)
        { d1 with sum := { d1.sum with lateLands := d1.sum.lateLands + 1 } } := by
  have hlate : ¬ (cyc < f.land + f.k ∧ d.beat.count = f.beat) := by
    rintro ⟨hlt, hb⟩
    exact hc.elim (fun h => absurd hlt (by omega)) fun h => h hb.symm
  simp only [flitLate, hf, hlate, hw, if_false]
  exact ⟨_, rfl⟩

end

/-! ### Stack reads return (R192) -/

theorem poisonLines_store (a bad n : Nat) (t : Tile) : (poisonLines a bad n t).store = t.store :=
  repeatN_induct (P := fun u : Tile => u.store = t.store) (fun _ _ hu => by split <;> exact hu) n rfl

/-- The next unit of a returning read is written in its cycle, after the counts of its field and router. -/
theorem stackReturn_eq {n : Nat} {r : StackReturn} (found : StackFound) (hr : d.mesh.returns[n]? = some r)
    (hon : tileOn d r.tile = true) :
    ∃ d1, stackReturn e n (r.land + r.done) found d = editTile e r.tile (fun _ t =>
      poisonLines ((r.store + 128 * r.done) % 2 ^ 24) found.badLines 2
        (writeStore t ((r.store + 128 * r.done) % 2 ^ 24) ((r.data.drop (128 * r.done)).take 128))) d1 := by
  simp only [stackReturn, hr, ne_eq, not_true_eq_false, if_false]
  refine ⟨_, if_neg fun hoff => tstate_ne_off_of_tileOn hon ?_⟩
  rw [tstate_portAt] at hoff
  simpa only [tileOf, countStack, editField_tiles] using hoff

/-- The next unit of a returning read stands in its tile's store, whatever the read found in the stack. -/
theorem stackReturn_store {n : Nat} {r : StackReturn} (found : StackFound) (hr : d.mesh.returns[n]? = some r)
    (hon : tileOn d r.tile = true) {k : Nat} (hk : k < min 128 (r.data.length - 128 * r.done)) :
    readByte (tileOf (stackReturn e n (r.land + r.done) found d) r.tile).store
        ((r.store + 128 * r.done) % 2 ^ 24 + k) = r.data.getD (128 * r.done + k) 0 := by
  have hlen : k < ((r.data.drop (128 * r.done)).take 128).length := by simpa using hk
  have hbyte : ((r.data.drop (128 * r.done)).take 128).getD k 0 = r.data.getD (128 * r.done + k) 0 := by
    simp [List.getD_eq_getElem?_getD, (by omega : k < 128)]
  obtain ⟨d1, h1⟩ := stackReturn_eq (e := e) found hr hon
  rw [h1, tileOf_editTile, if_pos rfl, poisonLines_store, readByte_writeStore _ _ _ hlen, hbyte]

/-! ### The commands -/

/-- While beats stand and nothing unscheduled is in flight, MAP_WRITE gives its entry the value (R181). -/
theorem mapWrite_takesEffect (s : State) (hon : s.sys.data.on = true) (hbeat : s.sys.data.beat.advancing = false)
    (hq : quiescent s.sys.data = true) :
    (∀ (n : Fin 1024) (p : Option TileIx), ∃ t, exec (.mapWrite (.tile n p)) s = .next t ∧
      physTile t.sys.data (n.val / 32) (n.val % 32) = p.map Fin.val) ∧
    ∀ n m : Fin 256, ∃ t, exec (.mapWrite (.module n m)) s = .next t ∧ physModule t.sys.data n = m.val ∧
      ∀ k, k ≠ n.val → physModule t.sys.data k = physModule s.sys.data k := by
  have hw : mapWritable s.sys.data = true := by simp [mapWritable, hbeat, hq]
  refine ⟨fun n p => ⟨_, exec_mapWrite s _, ?_⟩, fun n m => ⟨_, exec_mapWrite s _, ?_, fun k hk => ?_⟩⟩ <;>
    simp only [writeMap, hon, Bool.not_true, Bool.false_eq_true, if_false, onData_data]
  · exact physTile_writeTileMap _ _ hw
  · rw [physModule_writeModuleMap _ _ _ hw, if_pos rfl]
  · rw [physModule_writeModuleMap _ _ _ hw, if_neg hk]

/-- At any other time MAP_WRITE leaves both maps and shows in every powered field (R181). -/
theorem mapWrite_refused (s : State) (hon : s.sys.data.on = true)
    (h : s.sys.data.beat.advancing = true ∨ quiescent s.sys.data = false) (w : MapEntry) :
    ∃ t, exec (.mapWrite w) s = .next t ∧ t.sys.data.mesh = s.sys.data.mesh ∧
      ∀ f, (∃ g, (f, g) ∈ s.sys.data.fields ∧ g.on = true) → (fieldIn t f).intStatus.getLsbD 1 = true := by
  have hd := writeMap_of_blocked w hon (mapWritable_eq_false h)
  refine ⟨_, exec_mapWrite s w, ?_, ?_⟩
  · rw [State.setSys_sys, hd, mapBlocked_mesh]
  · rintro f ⟨g, hm, hg⟩
    rw [fieldIn, State.setSys_sys, hd]
    exact mapBlocked_shows hm hg

theorem exec_scheduledSlot_of_fixed {s : State} {ix : TileIx} {tag : BitVec 12} {cycle : Nat}
    (h : scheduledSlot (envOf s.sys) ix tag.toNat cycle s.sys.data = s.sys.data) :
    exec (.scheduledSlot ix tag cycle) s = .next s := by
  rw [exec_scheduledSlot, onData_of_fixed h]

/-- SCHEDULED_FLIT_LAND in the flit's cycle and beat takes it out of flight into its store (R188). -/
theorem scheduledFlitLand_writes {s : State} {n cycle : Nat} {f : Flit} {others : List Contender}
    (hf : s.sys.data.mesh.flits[n]? = some f) (hon : tileOn s.sys.data f.tile = true)
    (hw : OutputServes s f.source (dimPath f.source f.tile) f.tile .scheduled false others) (hc : cycle = f.land + f.k)
    (hb : f.beat = s.sys.data.beat.count) :
    ∃ t, exec (.scheduledFlitLand n cycle others) s = .next t ∧
      t.sys.data.mesh.flits.length + 1 = s.sys.data.mesh.flits.length ∧
      ∀ k < f.data.length, (readByte (tileIn t f.tile).store (f.offset % 2 ^ 24 + k)) = f.data.getD k 0 := by
  obtain ⟨d1, hd, hflits, -, hstore⟩ := flitWritten_stands (e := envOf s.sys) (n := n) hon hw
  refine ⟨_, exec_scheduledFlitLand s n cycle others, ?_⟩
  simp only [onData_data, tileIn, flitLand_of_served hf hc hb hd]
  exact ⟨hflits ▸ removeAt_length hf, hstore⟩

/-- LATE_FLIT_ARRIVAL writes the flit all the same, counts it and sets late_land (R190). -/
theorem lateFlitArrival_writes {s : State} {n cycle : Nat} {f : Flit} {others : List Contender}
    (hf : s.sys.data.mesh.flits[n]? = some f) (hon : tileOn s.sys.data f.tile = true)
    (hw : OutputServes s f.source (dimPath f.source f.tile) f.tile .scheduled false others)
    (hc : f.land + f.k ≤ cycle ∨ f.beat ≠ s.sys.data.beat.count) :
    ∃ t, exec (.lateFlitArrival n cycle others) s = .next t ∧
      (∀ k < f.data.length, (readByte (tileIn t f.tile).store (f.offset % 2 ^ 24 + k)) = f.data.getD k 0) ∧
      (fieldIn t (tileField f.tile)).intStatus.getLsbD 3 = true ∧
      t.sys.data.sum.lateLands = s.sys.data.sum.lateLands + 1 := by
  obtain ⟨d1, hd, -, hsum, hstore⟩ := flitWritten_stands (e := envOf s.sys) (n := n) hon hw
  obtain ⟨g, hg⟩ := flitLate_of_served (e := envOf s.sys) hf hc hd
  refine ⟨_, exec_lateFlitArrival s n cycle others, ?_⟩
  simp only [onData_data, tileIn, fieldIn, hg]
  refine ⟨fun k hk => ?_, ?_, ?_⟩
  · rw [tileOf, editField_tiles]
    exact hstore k hk
  · rw [fieldOf_editField, if_pos rfl]
    exact fieldInt_getLsbD_self _ (by decide)
  · rw [editField_sum, hsum]

/-- Settles O27: maps by whether a write takes effect; a slot by whether its tag is armed, its cycle and its kind; a flit by
whether it lands in its cycle or later; a returning stack read by the unit it writes. -/
theorem mapsAndScheduledTransfers : Obligations.MapsAndScheduledTransfers := by
  unfold Obligations.MapsAndScheduledTransfers
  refine ⟨fun s hon => ⟨mapWrite_takesEffect s hon, mapWrite_refused s hon⟩, ?unarmed, ?slot, ?flit, ?ret⟩
  case unarmed =>
    intro s ix tag cycle h
    exact exec_scheduledSlot_of_fixed (scheduledSlot_of_unarmed h)
  case slot =>
    intro s ix tag cycle a h ent
    refine ⟨fun hc => exec_scheduledSlot_of_fixed (scheduledSlot_of_otherCycle h rfl hc), fun hc hk hr hold => ?_,
      fun dst hc hk hp hm ht => ?_⟩
    · obtain ⟨r, hr⟩ := scheduledSlot_holdsRead (e := envOf s.sys) h rfl hc hk hr hold
      exact ⟨_, r, exec_scheduledSlot s ix tag cycle, hr⟩
    · exact ⟨_, _, exec_scheduledSlot s ix tag cycle, scheduledSlot_sendsFlit h rfl hc hk hp hm ht,
        rfl, rfl, rfl, rfl, rfl, rfl, rfl⟩
  case flit =>
    intro s n cycle f others hf hon hw
    exact ⟨fun hc hb => scheduledFlitLand_writes hf hon hw hc hb, fun hc => lateFlitArrival_writes hf hon hw hc⟩
  case ret =>
    intro s n r hr hon
    exact ⟨_, exec_stackReadReturn s n _ _, fun k hk => stackReturn_store _ hr hon hk⟩

end Sys2Proof.Machine
end

section
/-!
SUPPORT. The scarf engines: what an edit of an engine, a queued flit, a port count and an event leave of the engines, the beat
generator and the tiles, and what each command of a failure, a swap, a retrain and a release does. Then engines that fail, swap
lanes, retrain and release the flits they hold (O37).
-/

namespace Sys2Proof.Machine

variable {d : Data} {e : Env} {i : Nat}

/-! ### An engine after an edit -/

@[simp] theorem engineOf_editEngine_self (i : Nat) (f : Engine → Engine) (d : Data) :
    engineOf (editEngine i f d) i = f (engineOf d i) := look_upd_self ..

theorem engineOf_editEngine_of_ne {j : Nat} (f : Engine → Engine) (d : Data) (h : j ≠ i) :
    engineOf (editEngine i f d) j = engineOf d j := look_upd_of_ne _ _ _ h

@[simp] theorem editEngine_tiles (i : Nat) (f : Engine → Engine) (d : Data) : (editEngine i f d).tiles = d.tiles := rfl

@[simp] theorem raiseScarf_tiles (e : Env) (code i : Nat) (d : Data) : (raiseScarf e code i d).tiles = d.tiles := rfl

@[simp] theorem engineOf_raiseScarf (e : Env) (code i j : Nat) (d : Data) :
    engineOf (raiseScarf e code i d) j = engineOf d j := rfl

/-- An edit that keeps a part of the engine it changes keeps that part of every engine. -/
theorem editEngine_keeps {α : Type} (rd : Engine → α) {f : Engine → Engine} (h : ∀ g, rd (f g) = rd g) (i j : Nat)
    (d : Data) : rd (engineOf (editEngine i f d) j) = rd (engineOf d j) := by
  by_cases hj : j = i
  · rw [hj, engineOf_editEngine_self, h]
  · rw [engineOf_editEngine_of_ne f d hj]

/-- Engines edited in turn where a condition holds: each one's own turn alone changes it. -/
theorem engineOf_repeatN_editEngine (p : Nat → Prop) [DecidablePred p] (f : Engine → Engine) (n j : Nat) (d : Data) :
    engineOf (repeatN (fun i x => if p i then editEngine i f x else x) n d) j =
      if j < n ∧ p j then f (engineOf d j) else engineOf d j := by
  induction n with
  | zero => simp [repeatN]
  | succ n ih =>
    rw [repeatN]
    by_cases hj : j = n
    · subst hj
      rw [if_neg (by omega)] at ih
      by_cases hp : p j <;> simp [hp, ih]
    · have hlt : j < n + 1 ↔ j < n := by omega
      rw [if_congr (and_congr_left' hlt) rfl rfl, ← ih]
      split
      · exact engineOf_editEngine_of_ne f _ hj
      · rfl

/-- A part of an engine that its queue of flits has no share in. -/
def QueueFree {α : Type} (rd : Engine → α) : Prop := ∀ g q, rd { g with txQueue := q } = rd g

theorem queueFlit_keeps {α : Type} {rd : Engine → α} (h : QueueFree rd) (i j : Nat) (f : TxFlit) (d : Data) :
    rd (engineOf (queueFlit i f d) j) = rd (engineOf d j) :=
  editEngine_keeps rd (fun g => h g (g.txQueue ++ [f])) i j d

theorem moveQueued_keeps {α : Type} {rd : Engine → α} (h : QueueFree rd) (i j : Nat) (d : Data) :
    rd (engineOf (moveQueued i d) j) = rd (engineOf d j) := by
  have hcut := editEngine_keeps rd (fun g => h g (g.txQueue.filter fun f => hdrKind f.header != 2)) i j d
  unfold moveQueued
  dsimp only
  split
  · exact hcut
  · exact List.foldlRecOn (motive := fun x => rd (engineOf x j) = rd (engineOf d j)) _ _ hcut
      fun x hx f _ => (queueFlit_keeps h _ j f x).trans hx

/-- Moving the flits of an engine's queue changes engines alone. -/
theorem moveQueued_eq (i : Nat) (d : Data) : ∃ gs, moveQueued i d = { d with engines := gs } := by
  unfold moveQueued
  dsimp only
  split
  · exact ⟨_, rfl⟩
  · refine List.foldlRecOn (motive := fun x => ∃ gs, x = { d with engines := gs }) _ _ ?_ ?_
    · exact ⟨_, rfl⟩
    · rintro x ⟨gs, rfl⟩ f -
      exact ⟨_, rfl⟩

/-! ### Beat faults (R152) -/

@[simp] theorem noteFault_engines (cause : Nat) (d : Data) : (noteFault cause d).engines = d.engines := by
  unfold noteFault
  split <;> rfl

@[simp] theorem engineOf_noteFault (cause j : Nat) (d : Data) : engineOf (noteFault cause d) j = engineOf d j := by
  rw [engineOf, noteFault_engines, ← engineOf]

@[simp] theorem noteFault_tiles (cause : Nat) (d : Data) : (noteFault cause d).tiles = d.tiles := by
  unfold noteFault
  split <;> rfl

/-- No beat fault waits, and no tile has reported one: the next that is noted is the one declared. -/
def NoFault (d : Data) : Prop := d.beat.pendFault = none ∧ tileReported d = false

@[simp] theorem noFault_editEngine (i : Nat) (f : Engine → Engine) (d : Data) :
    NoFault (editEngine i f d) ↔ NoFault d := Iff.rfl

@[simp] theorem noFault_raiseScarf (e : Env) (code i : Nat) (d : Data) :
    NoFault (raiseScarf e code i d) ↔ NoFault d := Iff.rfl

theorem noteFault_pendFault (cause : Nat) (h : NoFault d) :
    (noteFault cause d).beat.pendFault = some (BitVec.ofNat 8 cause) := by
  obtain ⟨hp, ht⟩ := h
  simp [noteFault, hp, ht]

/-! ### Engines that go down (R232) -/

/-- Engine `i` out of service: from SCF_ADAPT with cause 7, its waiting flits moved, its event raised. -/
def downed (e : Env) (i : Nat) (d : Data) : Data :=
  raiseScarf e 0x0123 i (moveQueued i (editEngine i (fun g => { retrain g with failCause := 7 }) d))

theorem retrain_state {g : Engine} (h : g.state ≠ .off) : (retrain g).state = .adapt := by
  unfold retrain
  split
  · contradiction
  · rfl

theorem downed_engine (h : (engineOf d i).state ≠ .off) :
    (engineOf (downed e i d) i).state = .adapt ∧ (engineOf (downed e i d) i).failCause = 7 := by
  have hkeep := moveQueued_keeps (rd := fun g => (g.state, g.failCause)) (fun _ _ => rfl) i i
    (editEngine i (fun g => { retrain g with failCause := 7 }) d)
  simp only [engineOf_editEngine_self, retrain_state h, Prod.mk.injEq] at hkeep
  rwa [downed, engineOf_raiseScarf]

theorem downed_noFault (h : NoFault d) : NoFault (downed e i d) := by
  obtain ⟨gs, hgs⟩ := moveQueued_eq i (editEngine i (fun g => { retrain g with failCause := 7 }) d)
  rw [downed, noFault_raiseScarf, hgs]
  exact h

theorem engineDown_of_failed (entry : Bool) (hup : (engineOf d i).state = .up)
    (hf : 8 ≤ (engineOf d i).fails ∨
      ((engineOf d i).retry ≠ [] ∧ (engineOf d i).ackSince.toNat + 4000 ≤ e.ts.toNat)) :
    engineDown e i entry d =
      if (e.running ∨ e.held) ∧ (entry ∨ isExit d i) then noteFault 8 (downed e i d) else downed e i d := by
  unfold engineDown
  dsimp only
  refine if_neg ?_
  rintro (hn | ⟨hlt, hstall⟩)
  · exact hn hup
  · rcases hf with h8 | ⟨hr, ht⟩
    · omega
    · simp [hr, ht] at hstall

theorem engineDown_of_working (entry : Bool) (hf : (engineOf d i).fails < 8)
    (ha : (engineOf d i).retry = [] ∨ e.ts.toNat < (engineOf d i).ackSince.toNat + 4000) :
    engineDown e i entry d = d := by
  unfold engineDown
  dsimp only
  refine if_pos (Or.inr ⟨hf, ?_⟩)
  rcases ha with hr | ht
  · simp [hr]
  · simp [ht]

/-! ### Lane swaps (R237) -/

theorem swapComplete_of_seen {lane n : Nat} (hs : (engineOf d i).swapping = some (lane, n))
    (hseen : (engineOf d i).swapSeen = true) :
    (engineOf (swapComplete e i d) i).spareLane = 15 ∧ (engineOf (swapComplete e i d) i).swapping = none ∧
      (engineOf (swapComplete e i d) i).lanes = (engineOf d i).lanes := by
  simp only [swapComplete, hs, hseen, Bool.not_true, Bool.false_eq_true, if_false]
  rw [engineOf_raiseScarf, engineOf_editEngine_self]
  exact ⟨rfl, rfl, rfl⟩

theorem swapComplete_of_unseen (hseen : (engineOf d i).swapSeen = false) : swapComplete e i d = d := by
  unfold swapComplete
  split
  · rfl
  · simp [hseen]

/-- What a swap of the receive lanes stands at: the lanes in order, the spare, and the swap's progress. -/
def Engine.rxSwap (g : Engine) : List Nat × Nat × Option (Nat × Nat) × Bool × Bool × Bool :=
  (g.lanes, g.spareLane, g.swapping, g.swapNow, g.swapSent, g.swapSeen)

theorem countLines_rxSwap (es : List LineError) (g : Engine) : (countLines es g).rxSwap = g.rxSwap := by
  unfold countLines
  split
  · rfl
  · exact repeatN_keeps Engine.rxSwap (by intro _ _; rfl) 8 g

theorem arriveFlit_engines (i : Nat) (f : TxFlit) (d : Data) : (arriveFlit i f d).engines = d.engines := by
  unfold arriveFlit
  dsimp only
  split
  · rfl
  · split <;> rfl

theorem transitFlit_rxSwap (i j : Nat) (f : TxFlit) (d : Data) :
    (engineOf (transitFlit i f d) j).rxSwap = (engineOf d j).rxSwap := by
  unfold transitFlit
  dsimp only
  split
  · rfl
  · split
    · rfl
    · exact queueFlit_keeps (fun _ _ => rfl) _ j _ d

/-- A unit of an accepted cell has no share in a swap. -/
theorem takeUnit_rxSwap (i j : Nat) (f : TxFlit) (d : Data) :
    (engineOf (takeUnit i f d) j).rxSwap = (engineOf d j).rxSwap := by
  have hheld (l : HeldFlit) (x : Data) : (engineOf (editEngine i (fun g =>
      if holdDepth ≤ g.held.length then g else { g with held := g.held ++ [l] }) x) j).rxSwap = (engineOf x j).rxSwap :=
    editEngine_keeps Engine.rxSwap (fun g => by split <;> rfl) i j x
  unfold takeUnit
  dsimp only
  split
  · exact hheld _ _
  · split
    · exact editEngine_keeps Engine.rxSwap (by intro _; rfl) i j d
    · split
      · split
        · rw [engineOf, arriveFlit_engines]
          rfl
        · exact transitFlit_rxSwap ..
      · rfl

/-- The engine once the next cell in order has been accepted (R230, R231, R237). -/
def acceptCell (ts : W64) (arrival : Int) (c : Cell) (g : Engine) : Engine :=
  let n := match g.swapping with | some p => p.2 + 1 | none => 0
  { takeControl ts arrival c g with
    rxAck := c.seq
    rejecting := false
    fails := 0
    swapping := g.swapping.map fun p => (p.1, n)
    swapNow := g.swapNow || decide (g.swapping.isSome ∧ n = 64) }

theorem cellReceive_of_next {c : Cell} {errs : List LineError} (arrival : Int) (hup : (engineOf d i).state = .up)
    (hgood : cellGood c errs = true) (hseq : c.seq = (engineOf d i).rxAck + 1) :
    cellReceive e i c arrival errs d = c.units.foldl (fun x u => takeUnit i u x)
      (editEngine i (acceptCell e.ts arrival c) (editEngine i (countLines errs) d)) := by
  simp only [cellReceive, hup, hgood, ← hseq, ne_eq, not_true_eq_false, Bool.not_true, Bool.false_eq_true, if_false, if_true]
  rfl

/-- A good cell during a swap counts, the 64th sets swap_now, and the peer's first cell after this end has sent it puts the
spare in the lane's place. -/
theorem acceptCell_rxSwap {g : Engine} {lane n : Nat} (ts : W64) (arrival : Int) (c : Cell)
    (hs : g.swapping = some (lane, n)) :
    (acceptCell ts arrival c g).rxSwap =
      (if c.swapNow && g.swapSent && !g.swapSeen then swapIn lane g.spareLane g.lanes else g.lanes, g.spareLane,
        some (lane, n + 1), g.swapNow || decide (n + 1 = 64), g.swapSent,
        g.swapSeen || (c.swapNow && g.swapSent && !g.swapSeen)) := by
  simp only [acceptCell, takeControl, Engine.rxSwap, hs, Option.map_some, Option.isSome_some, true_and]
  cases c.swapNow && g.swapSent && !g.swapSeen <;> rfl

/-- The receive lanes' swap after the next cell in order: what its line and its units hold has no share in it. -/
theorem cellReceive_rxSwap {c : Cell} {errs : List LineError} {lane n : Nat} (arrival : Int)
    (hup : (engineOf d i).state = .up) (hgood : cellGood c errs = true) (hseq : c.seq = (engineOf d i).rxAck + 1)
    (hs : (engineOf d i).swapping = some (lane, n)) :
    (engineOf (cellReceive e i c arrival errs d) i).rxSwap = (acceptCell e.ts arrival c (engineOf d i)).rxSwap := by
  have hcount := countLines_rxSwap errs (engineOf d i)
  simp only [Engine.rxSwap, Prod.mk.injEq] at hcount
  obtain ⟨hlanes, hspare, hswap, hnow, hsent, hseen⟩ := hcount
  rw [cellReceive_of_next arrival hup hgood hseq]
  refine List.foldlRecOn (motive := fun x => (engineOf x i).rxSwap = _) _ _ ?_ fun x hx u _ =>
    (takeUnit_rxSwap i i u x).trans hx
  rw [engineOf_editEngine_self, engineOf_editEngine_self, acceptCell_rxSwap _ _ _ (hswap.trans hs),
    acceptCell_rxSwap _ _ _ hs, hlanes, hspare, hnow, hsent, hseen]

/-! ### Retrains (R239) -/

theorem whenData_of_on {f : Data → Data} {x : Module} (h : x.data.on = true) : whenData f x = onData f x := if_pos h

theorem scarfRetrain_engine (m : Msg) {side index : Nat} (hi : i < 48) (hside : sideNo (engineSide i) = side)
    (hix : index = 0xFF ∨ i % 12 = index) :
    engineOf (scarfRetrain false m side index d) i = retrain (engineOf d i) := by
  have h := engineOf_repeatN_editEngine (fun j => sideNo (engineSide j) = side ∧ (index = 0xFF ∨ j % 12 = index))
    retrain 48 i d
  rwa [if_pos ⟨hi, hside, hix⟩] at h

/-! ### Port counts and faults of tiles -/

theorem mem_insertKey {α : Type} {m : SMap α} {k : Nat} {v : α} {x : Nat × α} (h : x ∈ insertKey m k v) :
    x = (k, v) ∨ x ∈ m := by
  induction m with
  | nil => simpa [insertKey] using h
  | cons y m ih =>
    unfold insertKey at h
    split at h
    · exact (List.mem_cons.1 h).imp_right (List.mem_cons_of_mem _)
    · split at h
      · exact List.mem_cons.1 h
      · rcases List.mem_cons.1 h with rfl | h
        · exact Or.inr (List.mem_cons_self ..)
        · exact (ih h).imp_right (List.mem_cons_of_mem _)

/-- An entry of a map after a write is the one written or an older one. -/
theorem mem_put {α : Type} [DecidableEq α] {d : α} {m : SMap α} {k : Nat} {v : α} {x : Nat × α} (h : x ∈ put d m k v) :
    x = (k, v) ∨ x ∈ m := by
  unfold put at h
  split at h
  · exact Or.inr (List.mem_of_mem_filter h)
  · exact mem_insertKey h

/-- What holds of the default and of every entry holds of what a key reads as. -/
theorem look_of_forall {α : Type} {P : α → Prop} {d : α} {m : SMap α} (hd : P d) (hm : ∀ x ∈ m, P x.2) (k : Nat) :
    P (look d m k) := by
  induction m with
  | nil => exact hd
  | cons x m ih =>
    obtain ⟨hx, hm⟩ := List.forall_mem_cons.1 hm
    unfold look
    split
    · exact hx
    · exact ih hm

theorem tileReported_eq_false : tileReported d = false ↔ ∀ p ∈ d.tiles, p.2.report = none := by
  simp [tileReported]

/-- A tile that becomes one without a report adds none. -/
theorem tileReported_put {ix : Nat} {t : Tile} (h : tileReported d = false)
    (ht : (tileOf d ix).report = none → t.report = none) :
    tileReported { d with tiles := put Tile.off d.tiles ix t } = false := by
  rw [tileReported_eq_false] at h ⊢
  intro p hp
  rcases mem_put hp with rfl | hp
  · exact ht (look_of_forall (P := fun t : Tile => t.report = none) (d := Tile.off) rfl h ix)
  · exact h p hp

theorem Tile.work_report {t u : Tile} (h : t.work = u.work) : t.report = u.report := by injection h

theorem countPort_report (p n : Nat) (sched : Bool) (t : Tile) : (countPort p n sched t).report = t.report := by
  unfold countPort
  split
  · rfl
  · split <;> rfl

theorem tileOn_portAt (ix p n : Nat) (sched : Bool) (d : Data) (j : Nat) :
    tileOn (portAt d ix p n sched) j = tileOn d j := by
  by_cases hj : j = ix
  · rw [tileOn, hj, tstate_portAt, ← tileOn]
  · rw [tileOn, tileOf, portAt, look_put_of_ne _ _ _ _ hj, ← tileOf, ← tileOn]

theorem tileOn_countPath (n : Nat) (sched : Bool) (a : Nat) (path : List Nat) (d : Data) (j : Nat) :
    tileOn (countPath n sched a path d) j = tileOn d j := by
  induction path generalizing a d with
  | nil => rfl
  | cons b r ih => rw [countPath, ih, tileOn_portAt, tileOn_portAt]

@[simp] theorem countPath_engines (n : Nat) (sched : Bool) (a : Nat) (path : List Nat) (d : Data) :
    (countPath n sched a path d).engines = d.engines := by
  induction path generalizing a d with
  | nil => rfl
  | cons b r ih => rw [countPath, ih]; rfl

theorem portAt_noFault (ix p n : Nat) (sched : Bool) (h : NoFault d) : NoFault (portAt d ix p n sched) :=
  ⟨h.1, tileReported_put h.2 (countPort_report p n sched _).trans⟩

theorem countPath_noFault (n : Nat) (sched : Bool) (a : Nat) (path : List Nat) (h : NoFault d) :
    NoFault (countPath n sched a path d) := by
  induction path generalizing a d with
  | nil => exact h
  | cons b r ih => exact ih b (portAt_noFault _ _ _ _ (portAt_noFault _ _ _ _ h))

/-! ### The flits an engine holds (R245, R246) -/

theorem writeFlit_engines (f : Flit) (d : Data) : (writeFlit e f d).engines = d.engines := by
  unfold writeFlit
  split
  · rfl
  · obtain ⟨ring, h⟩ := editTile_eq e f.tile (fun _ t => bump 0x056 1 (writeStore t (f.offset % 2 ^ 24) f.data)) d
    rw [h]

theorem writeFlit_noFault (f : Flit) (h : NoFault d) : NoFault (writeFlit e f d) := by
  unfold writeFlit
  split
  · exact h
  · obtain ⟨ring, hr⟩ := editTile_eq e f.tile (fun _ t => bump 0x056 1 (writeStore t (f.offset % 2 ^ 24) f.data)) d
    rw [hr]
    exact ⟨h.1, tileReported_put h.2 fun hr => (Tile.work_report (bump_work ..)).trans hr⟩

section
variable {late : Nat}

/-- A late flit counts at its engine and raises scarf late once in a frame. -/
theorem flitLateBy_engine (h : late ≠ 0) :
    engineOf (flitLateBy e i late d) i =
      { engineOf d i with scarfLate := satInc (engineOf d i).scarfLate 1, lateRaised := true } := by
  simp only [flitLateBy, h, if_false, apply_ite (engineOf · i), engineOf_noteFault, ite_self, engineOf_raiseScarf,
    engineOf_editEngine_self]
  split
  case isTrue hr => rw [← hr]
  case isFalse => rfl

theorem flitLateBy_tiles (late : Nat) (d : Data) : (flitLateBy e i late d).tiles = d.tiles := by
  simp only [flitLateBy, apply_ite Data.tiles, noteFault_tiles, raiseScarf_tiles, editEngine_tiles, ite_self]

theorem flitLateBy_pendFault (h : 288 < late) (hn : NoFault d) :
    (flitLateBy e i late d).beat.pendFault = some 8 := by
  have hz : late ≠ 0 := by omega
  simp only [flitLateBy, hz, h, if_false, if_true]
  refine noteFault_pendFault 8 ?_
  split <;> simpa using hn

end

/-- The engine without its `n`-th held flit. -/
def letGoHeld (n : Nat) (g : Engine) : Engine := { g with held := removeAt g.held n }

/-- Engine `i` has let go its `n`-th held flit `f`, which crosses the routers to tile `ix`. -/
def letGo (i n ix : Nat) (f : HeldFlit) (d : Data) : Data :=
  countPath (units64 f.data.length) true (attachTile i) (dimPath (attachTile i) ix)
    (editEngine i (letGoHeld n) d)

/-- The held flit as it joins the flits in flight. -/
def HeldFlit.released (f : HeldFlit) (i ix : Nat) (d : Data) : Flit :=
  ⟨d.beat.count, f.land, f.k, attachTile i, ix, f.offset, f.data⟩

/-- The beats from a flit's arrival beat on (R245). -/
def HeldFlit.beats (f : HeldFlit) (d : Data) : Nat := (d.beat.count.setWidth 8 - f.arriveBeat).toNat

section
variable {n cyc ix : Nat} {f : HeldFlit}

theorem letGo_engine (i n ix : Nat) (f : HeldFlit) (d : Data) :
    engineOf (letGo i n ix f d) i = letGoHeld n (engineOf d i) := by
  rw [letGo, engineOf, countPath_engines]
  exact engineOf_editEngine_self i (letGoHeld n) d

theorem letGo_held (hf : (engineOf d i).held[n]? = some f) :
    (engineOf (letGo i n ix f d) i).held.length + 1 = (engineOf d i).held.length := by
  rw [letGo_engine]
  exact removeAt_length hf

theorem letGo_tileOn (i n ix : Nat) (f : HeldFlit) (d : Data) (j : Nat) : tileOn (letGo i n ix f d) j = tileOn d j :=
  tileOn_countPath ..

theorem letGo_noFault (h : NoFault d) : NoFault (letGo i n ix f d) :=
  countPath_noFault _ _ _ _ ((noFault_editEngine ..).2 h)

/-- A flit waits while its arrival beat is to come, and in that beat while beats stand or once it lies behind. -/
theorem flitRelease_of_otherBeat (hf : (engineOf d i).held[n]? = some f)
    (hb : 128 ≤ f.beats d ∨ cyc < 2000 * f.beats d ∨ (f.beats d = 0 ∧ (d.beat.advancing = false ∨ 2256 ≤ cyc))) :
    flitRelease e i n cyc d = d := by
  simp only [flitRelease, hf]
  refine if_pos ?_
  rcases hb with h | h | ⟨h0, h⟩
  · exact Or.inl h
  · exact Or.inr (Or.inr h)
  · exact Or.inr (Or.inl ⟨h0, h.imp_left fun hadv => by simp [hadv]⟩)

variable (hf : (engineOf d i).held[n]? = some f) (ht : physTile d f.row f.col = some ix) (h128 : f.beats d < 128)
  (hcyc : 2000 * f.beats d ≤ cyc) (hbeat : f.beats d = 0 → d.beat.advancing = true ∧ cyc < 2256)
include hf ht h128 hcyc hbeat

/-- In its arrival beat or after it, a flit for a mapped tile goes by its cycle. -/
theorem flitRelease_of_arrived :
    flitRelease e i n cyc d =
      if cyc < f.land + f.k - entryCycles i ix - 2 then d
      else if cyc + entryCycles i ix + 2 - (f.land + f.k) = 0 then
        { letGo i n ix f d with mesh := { d.mesh with flits := d.mesh.flits ++ [f.released i ix d] } }
      else flitLateBy e i (cyc + entryCycles i ix + 2 - (f.land + f.k))
        (writeFlit e (f.released i ix d) (letGo i n ix f d)) := by
  have hgo : ¬ (128 ≤ f.beats d ∨ (f.beats d = 0 ∧ (!d.beat.advancing ∨ 2256 ≤ cyc)) ∨ cyc < 2000 * f.beats d) := by
    rintro (h | ⟨h0, hadv | hlate⟩ | h)
    · omega
    · simp [(hbeat h0).1] at hadv
    · have := (hbeat h0).2
      omega
    · omega
  simp only [flitRelease, hf, ht]
  refine (if_neg hgo).trans ?_
  have hmesh : (letGo i n ix f d).mesh = d.mesh := countPath_mesh ..
  rw [← hmesh]
  rfl

theorem flitRelease_of_early (h : cyc + entryCycles i ix + 2 < f.land + f.k) : flitRelease e i n cyc d = d := by
  rw [flitRelease_of_arrived hf ht h128 hcyc hbeat, if_pos (by omega)]

theorem flitRelease_of_due (h : cyc + entryCycles i ix + 2 = f.land + f.k) :
    flitRelease e i n cyc d =
      { letGo i n ix f d with mesh := { d.mesh with flits := d.mesh.flits ++ [f.released i ix d] } } := by
  rw [flitRelease_of_arrived hf ht h128 hcyc hbeat, if_neg (by omega), if_pos (by omega)]

theorem flitRelease_of_late (h : f.land + f.k < cyc + entryCycles i ix + 2) :
    flitRelease e i n cyc d = flitLateBy e i (cyc + entryCycles i ix + 2 - (f.land + f.k))
      (writeFlit e (f.released i ix d) (letGo i n ix f d)) := by
  rw [flitRelease_of_arrived hf ht h128 hcyc hbeat, if_neg (by omega), if_neg (by omega)]

end

/-! ### The commands -/

/-- ENGINE_DOWN on an engine that has failed: it retrains, and an exit or entry of scheduled flits is beat fault 8. -/
theorem engineDown_takesDown {s : State} {g : EngineIx} (entry : Bool) (hup : (engineIn s g).state = .up)
    (hf : 8 ≤ (engineIn s g).fails ∨
      ((engineIn s g).retry ≠ [] ∧ (engineIn s g).ackSince.toNat + 4000 ≤ s.sys.ts.toNat)) :
    ∃ t, exec (.engineDown g entry) s = .next t ∧ (engineIn t g).state = .adapt ∧ (engineIn t g).failCause = 7 ∧
      (s.sys.mgmt.module = .running ∨ s.sys.mgmt.module = .held → (entry = true ∨ isExit s.sys.data g = true) →
        s.sys.data.beat.pendFault = none → tileReported s.sys.data = false → t.sys.data.beat.pendFault = some 8) := by
  have hdown := engineDown_of_failed (e := envOf s.sys) entry hup hf
  have hon : (engineIn s g).state ≠ .off := by simp [hup]
  obtain ⟨hstate, hcause⟩ := downed_engine (e := envOf s.sys) hon
  refine ⟨_, exec_engineDown s g entry, ?_⟩
  simp only [engineIn, onData_data, hdown]
  refine ⟨?_, ?_, fun hrun hsched hp ht => ?_⟩
  · split <;> simp [hstate]
  · split <;> simp [hcause]
  · rw [if_pos ⟨by simpa [envOf] using hrun, hsched⟩]
    exact noteFault_pendFault 8 (downed_noFault ⟨hp, ht⟩)

/-- LANE_SWAP_REQUEST with a spare and no swap under way: a degraded lane's swap begins, another lane's does not. -/
theorem laneSwapRequest_asks {s : State} {g : EngineIx} {lane : Fin 9} (hup : (engineIn s g).state = .up)
    (hl : lane.val ∈ (engineIn s g).lanes) (hsp : (engineIn s g).spareLane < 9) (hs : (engineIn s g).swapping = none) :
    (laneDegraded (engineIn s g) lane = true → ∃ t, exec (.laneSwapRequest g lane) s = .next t ∧
      (engineIn t g).swapReq = true ∧ (engineIn t g).swapping = some (lane.val, 0)) ∧
    (laneDegraded (engineIn s g) lane = false → ∃ t, exec (.laneSwapRequest g lane) s = .next t ∧
      engineIn t g = engineIn s g) := by
  simp only [engineIn] at hup hl hsp hs ⊢
  refine ⟨fun hd => ⟨_, exec_laneSwapRequest s g lane, ?_⟩, fun hd => ⟨_, exec_laneSwapRequest s g lane, ?_⟩⟩
  · simp [swapRequest, hup, hl, hsp, hs, hd]
  · simp [swapRequest, hd]

/-- The next cell in order, good and during a swap of the receive lanes. -/
theorem scarfCellReceive_swaps {s : State} {g : EngineIx} {lane n : Nat} {c : Cell} {errs : List LineError}
    (arrival : Int) (hs : (engineIn s g).swapping = some (lane, n)) (hup : (engineIn s g).state = .up)
    (hgood : cellGood c errs = true) (hseq : c.seq = (engineIn s g).rxAck + 1) :
    ∃ t, exec (.scarfCellReceive g c arrival errs) s = .next t ∧ (engineIn t g).swapping = some (lane, n + 1) ∧
      (n + 1 = 64 → (engineIn t g).swapNow = true) ∧
      (c.swapNow = true → (engineIn s g).swapSent = true → (engineIn s g).swapSeen = false →
        (engineIn t g).swapSeen = true ∧
        (engineIn t g).lanes = (engineIn s g).lanes.map (fun x => if x = lane then (engineIn s g).spareLane else x)) := by
  refine ⟨_, exec_scarfCellReceive s g c arrival errs, ?_⟩
  have hcell := (cellReceive_rxSwap (e := envOf s.sys) arrival hup hgood hseq hs).trans
    (acceptCell_rxSwap (envOf s.sys).ts arrival c hs)
  simp only [Engine.rxSwap, Prod.mk.injEq] at hcell
  obtain ⟨hlanes, -, hswap, hnow, -, hseen⟩ := hcell
  simp only [engineIn, onData_data, hlanes, hswap, hnow, hseen, true_and]
  refine ⟨fun h64 => by simp [h64], fun hc hsent hunseen => ?_⟩
  simp [hc, hsent, hunseen, swapIn]

/-- SCARF_RETRAIN is refused while RUNNING, and every engine stays as it is. -/
theorem scarfRetrain_refused {s : State} (m : Msg) (side : Fin 4) (index : BitVec 8) (hon : s.sys.data.on = true)
    (hrun : s.sys.mgmt.module = .running) : ∃ t, exec (.scarfRetrain m side index) s = .next t ∧
      t.sys.data.reply = some ⟨some m, 0x0410, []⟩ ∧ t.sys.data.engines = s.sys.data.engines := by
  refine ⟨_, exec_scarfRetrain s m side index, ?_⟩
  rw [whenData_of_on hon, hrun]
  exact ⟨rfl, rfl⟩

/-- SCARF_RETRAIN at any other time puts every engine it names that is on into SCF_ADAPT. -/
theorem scarfRetrain_accepted {s : State} {g : EngineIx} (m : Msg) {side : Fin 4} {index : BitVec 8}
    (hon : s.sys.data.on = true) (hrun : s.sys.mgmt.module ≠ .running) (hside : sideNo (engineSide g) = side.val)
    (hix : index = 0xFF ∨ index.toNat = g.val % 12) (hg : (engineIn s g).state ≠ .off) :
    ∃ t, exec (.scarfRetrain m side index) s = .next t ∧ t.sys.data.reply = some ⟨some m, 0, []⟩ ∧
      (engineIn t g).state = .adapt := by
  have hnamed : index.toNat = 0xFF ∨ g.val % 12 = index.toNat := hix.imp (congrArg BitVec.toNat) Eq.symm
  refine ⟨_, exec_scarfRetrain s m side index, ?_⟩
  simp only [whenData_of_on hon, beq_false_of_ne hrun, onData_data, engineIn]
  rw [scarfRetrain_engine m g.isLt hside hnamed]
  exact ⟨rfl, retrain_state hg⟩

section
variable {s : State} {g : EngineIx} {n cycle ix : Nat} {f : HeldFlit}

theorem exec_scarfFlitRelease_of_fixed (h : flitRelease (envOf s.sys) g n cycle s.sys.data = s.sys.data) :
    exec (.scarfFlitRelease g n cycle) s = .next s := by
  rw [exec_scarfFlitRelease, onData_of_fixed h]

variable (hf : (engineIn s g).held[n]? = some f) (ht : physTile s.sys.data f.row f.col = some ix)
  (h128 : f.beats s.sys.data < 128) (hcyc : 2000 * f.beats s.sys.data ≤ cycle)
  (hbeat : f.beats s.sys.data = 0 → s.sys.data.beat.advancing = true ∧ cycle < 2256)
include hf ht h128 hcyc hbeat

/-- SCARF_FLIT_RELEASE in the flit's cycle: it joins the flits in flight (R245). -/
theorem scarfFlitRelease_flies (hdue : cycle + entryCycles g ix + 2 = f.land + f.k) :
    ∃ t, exec (.scarfFlitRelease g n cycle) s = .next t ∧
      (engineIn t g).held.length + 1 = (engineIn s g).held.length ∧
      t.sys.data.mesh.flits = s.sys.data.mesh.flits ++
        [⟨s.sys.data.beat.count, f.land, f.k, attachTile g, ix, f.offset, f.data⟩] := by
  refine ⟨_, exec_scarfFlitRelease s g n cycle, ?_⟩
  simp only [engineIn, onData_data, flitRelease_of_due hf ht h128 hcyc hbeat hdue]
  exact ⟨letGo_held hf, rfl⟩

/-- SCARF_FLIT_RELEASE after the flit's cycle: it is written, counts, and more than 288 cycles late is beat fault 8 (R246). -/
theorem scarfFlitRelease_writesLate (hon : tileOn s.sys.data ix = true)
    (hlate : f.land + f.k < cycle + entryCycles g ix + 2) :
    ∃ t, exec (.scarfFlitRelease g n cycle) s = .next t ∧
      (engineIn t g).held.length + 1 = (engineIn s g).held.length ∧
      (∀ k < f.data.length, readByte (tileIn t ix).store (f.offset % 2 ^ 24 + k) = f.data.getD k 0) ∧
      (engineIn t g).scarfLate = satInc (engineIn s g).scarfLate 1 ∧
      (f.land + f.k + 288 < cycle + entryCycles g ix + 2 → s.sys.data.beat.pendFault = none →
        tileReported s.sys.data = false → t.sys.data.beat.pendFault = some 8) := by
  refine ⟨_, exec_scarfFlitRelease s g n cycle, ?_⟩
  have hne : cycle + entryCycles g ix + 2 - (f.land + f.k) ≠ 0 := by omega
  have hwritten (x : Data) (y : Flit) : engineOf (writeFlit (envOf s.sys) y x) g = engineOf x g := by
    rw [engineOf, writeFlit_engines, ← engineOf]
  simp only [engineIn, onData_data, flitRelease_of_late hf ht h128 hcyc hbeat hlate, flitLateBy_engine hne, hwritten]
  refine ⟨letGo_held hf, fun k hk => ?_, by rw [letGo_engine]; rfl, fun hmore hp hr => ?_⟩
  · rw [tileIn, onData_data, flitRelease_of_late hf ht h128 hcyc hbeat hlate, tileOf, flitLateBy_tiles]
    exact writeFlit_store (f.released g ix s.sys.data) ((letGo_tileOn ..).trans hon) hk
  · exact flitLateBy_pendFault (by omega) (writeFlit_noFault _ (letGo_noFault ⟨hp, hr⟩))

end

/-- Settles O37: an engine by whether it has failed; a swap by the lane, the cells counted and the peer's cell; a retrain by
whether the module is RUNNING; a held flit by its beat and its cycle. -/
theorem enginesFailSwapRetrainAndRelease : Obligations.EnginesFailSwapRetrainAndRelease := by
  unfold Obligations.EnginesFailSwapRetrainAndRelease
  refine ⟨fun s g => ⟨?down, ?request, ?complete, ?retrain⟩, ?release⟩
  case down =>
    intro hup entry
    refine ⟨engineDown_takesDown entry hup, fun hlt hack => ?_⟩
    rw [exec_engineDown, onData_of_fixed (engineDown_of_working (e := envOf s.sys) entry hlt hack)]
  case request =>
    intro lane
    exact laneSwapRequest_asks
  case complete =>
    intro lane n hs
    refine ⟨fun hseen => ⟨_, exec_laneSwapComplete s g, swapComplete_of_seen hs hseen⟩, fun hunseen => ?_,
      fun c arrival errs => scarfCellReceive_swaps arrival hs⟩
    rw [exec_laneSwapComplete, onData_of_fixed (swapComplete_of_unseen hunseen)]
  case retrain =>
    intro m side index hon
    exact ⟨scarfRetrain_refused m side index hon, scarfRetrain_accepted m hon⟩
  case release =>
    intro s g n cycle f ix hf ht hon beats
    refine ⟨fun hb => exec_scarfFlitRelease_of_fixed (flitRelease_of_otherBeat hf hb), fun h128 hcyc hbeat =>
      ⟨fun hearly => exec_scarfFlitRelease_of_fixed (flitRelease_of_early hf ht h128 hcyc hbeat hearly),
        scarfFlitRelease_flies hf ht h128 hcyc hbeat, scarfFlitRelease_writesLate hf ht h128 hcyc hbeat hon⟩⟩

end Sys2Proof.Machine
end

section
/-!
SUPPORT. The host's sessions: what a response, a stamped session and a journal record leave of the control plane, what each
session command makes of it, and how a plane's event ring takes an acknowledgement. Then sessions and event subscribers (O38).
-/

namespace Sys2Proof.Machine

variable {c : Ctrl} {e : CEnv} {m : Msg} {s : State}

/-! ### What edits, responses and journal records leave -/

/-- A command of the control plane that leaves it as it was leaves the module. -/
theorem onCtrl_of_fixed {f : Ctrl → Ctrl} {x : Module} (h : f x.ctrl = x.ctrl) : onCtrl f x = x := by
  rw [onCtrl, h]

theorem onCtrl_congr {f g : Ctrl → Ctrl} {x : Module} (h : f x.ctrl = g x.ctrl) : onCtrl f x = onCtrl g x := by
  rw [onCtrl, h, ← onCtrl]

@[simp] theorem editSession_control (n : W32) (f : Session → Session) (c : Ctrl) :
    (editSession n f c).control = c.control := rfl

@[simp] theorem editSession_word (n : W32) (f : Session → Session) (c : Ctrl) : (editSession n f c).word = c.word := rfl

@[simp] theorem respond_control (status : Nat) (bs : List Byte) (c : Ctrl) :
    (respond m status bs c).control = c.control := rfl

@[simp] theorem respond_hostAlive (status : Nat) (bs : List Byte) (c : Ctrl) :
    (respond m status bs c).hostAlive = c.hostAlive := rfl

@[simp] theorem respond_reply (status : Nat) (bs : List Byte) (c : Ctrl) : (respond m status bs c).reply =
    some ⟨m.engine, m.session, ⟨m.seq, m.cmdId, BitVec.ofNat 16 status, bs⟩, false⟩ := rfl

@[simp] theorem respond_sessions_length (status : Nat) (bs : List Byte) (c : Ctrl) :
    (respond m status bs c).sessions.length = c.sessions.length := List.length_map ..

@[simp] theorem journal_control (typ : Nat) (t v : W64) (r : Nat) (c : Ctrl) :
    (journal m typ t v r c).control = c.control := by
  unfold journal
  split <;> rfl

@[simp] theorem journal_hostAlive (typ : Nat) (t v : W64) (r : Nat) (c : Ctrl) :
    (journal m typ t v r c).hostAlive = c.hostAlive := by
  unfold journal
  split <;> rfl

@[simp] theorem journal_sessions (typ : Nat) (t v : W64) (r : Nat) (c : Ctrl) :
    (journal m typ t v r c).sessions = c.sessions := by
  unfold journal
  split <;> rfl

@[simp] theorem natLe_length (n v : Nat) : (natLe n v).length = n := by
  induction n generalizing v with
  | zero => rfl
  | succ n ih => rw [natLe, List.length_cons, ih]

@[simp] theorem wordBytes_length (w : J2Word) : (wordBytes w).length = 16 := by
  simp [wordBytes]

/-! ### Responses -/

/-- The reply latch of a response to `m`, with no eye on its engine and data. -/
theorem Answered.of_reply {engine : Nat} {status : BitVec 16} {bs : List Byte} {resent : Bool}
    (h : s.sys.ctrl.reply = some ⟨engine, m.session, ⟨m.seq, m.cmdId, status, bs⟩, resent⟩) : Answered s m status :=
  ⟨_, h, rfl, rfl, rfl, rfl⟩

/-- A new message of a known session goes on to what handles it, with its arrival on its session (R297, R299). -/
theorem inSession_of_new (f : Ctrl → Ctrl) (h : NewMessage s m) :
    inSession e m f s.sys.ctrl = f (editSession m.session (fun x => { x with lastMsg := e.ts }) s.sys.ctrl) := by
  obtain ⟨hon, x, hx, hnew⟩ := h
  simp only [inSession, hon, hx, hnew, Bool.not_true, Bool.false_eq_true, if_false]

/-! ### OPEN (R299, R300) -/

/-- The control plane with the session of an accepted OPEN, and with the control role when it was asked for. -/
def opened (e : CEnv) (m : Msg) (control : Bool) (c : Ctrl) : Ctrl :=
  let c1 := { c with
    sessions := c.sessions ++ [⟨c.nextSession, m.addr, m.seq, e.ts, none, e.ts, []⟩], nextSession := c.nextSession + 1 }
  let c2 := if control then journal m 1 e.ts m.cmdId 0 { c1 with control := some c.nextSession, hostAlive := false } else c1
  { respond { m with session := c.nextSession } 0 (natLe 4 c.nextSession.toNat) c2 with
    reply := some ⟨m.engine, m.session, ⟨m.seq, m.cmdId, 0, natLe 4 c.nextSession.toNat⟩, false⟩ }

/-- An OPEN that made none of the sessions kept is judged. -/
theorem openSession_of_unopened (control force : Bool) (hon : c.on = true)
    (hnew : c.sessions.find? (fun x => x.addr == m.addr && x.openSeq == m.seq) = none) :
    openSession e m control force c =
      if 8 ≤ c.sessions.length then respondBare m 0x0103 c
      else if control ∧ c.control.isSome ∧ !force then respondBare m 0x0502 c
      else if control ∧ journalFull c then respondBare m 0x0419 c
      else opened e m control c := by
  have hnone : (c.sessions.filter fun x => x.addr == m.addr && x.openSeq == m.seq) = [] :=
    List.filter_eq_nil_iff.mpr (List.find?_eq_none.mp hnew)
  rw [openSession, if_neg (by simp [hon]), hnone]
  rfl

theorem opened_reply (control : Bool) (c : Ctrl) : (opened e m control c).reply =
    some ⟨m.engine, m.session, ⟨m.seq, m.cmdId, 0, natLe 4 c.nextSession.toNat⟩, false⟩ := rfl

theorem opened_sessions_length (control : Bool) (c : Ctrl) :
    (opened e m control c).sessions.length = c.sessions.length + 1 := by
  cases control <;> simp [opened]

theorem opened_control (c : Ctrl) :
    (opened e m true c).control = some c.nextSession ∧ (opened e m true c).hostAlive = false ∧
      (opened e m false c).control = c.control := by
  simp [opened]

/-! ### The end of a session and of the control role (R299, R300) -/

theorem dropSession_num_ne {n : W32} {x : Session} (h : x ∈ (dropSession n c).sessions) : x.num ≠ n := by
  simpa using (List.mem_filter.mp h).2

theorem dropSession_control_ne (n : W32) (c : Ctrl) : (dropSession n c).control ≠ some n := by
  unfold dropSession
  dsimp only
  split
  · exact nofun
  · assumption

theorem dropSession_of_control {n : W32} (h : c.control = some n) :
    (dropSession n c).control = none ∧ (dropSession n c).hostAlive = false := by
  simp [dropSession, h]

theorem closeSession_of_new (h : NewMessage s m) :
    closeSession e m s.sys.ctrl = dropSession m.session
      (respond m 0 [] (editSession m.session (fun x => { x with lastMsg := e.ts }) s.sys.ctrl)) :=
  inSession_of_new _ h

theorem sessionTimeout_of_known {n : W32} {x : Session} (h : sessionOf c n = some x) :
    sessionTimeout e n c = if 60000000000 < (e.ts - x.lastMsg).toNat then dropSession n c else c := by
  simp only [sessionTimeout, h]

theorem roleLost_of_held {n : W32} {x : Session} (h : sessionOf c n = some x) (hc : c.control = some n) :
    roleLost e c = if 5000000000 < (e.ts - x.lastBeat.getD x.granted).toNat then
      { c with control := none, hostAlive := false } else c := by
  simp only [roleLost, hc, h]

/-! ### HEARTBEAT (R300, R316) -/

/-- A HEARTBEAT is answered with the 30 bytes of the status block, the state word first; the control session's tells that the
host is alive. -/
theorem heartbeat_of_new (h : NewMessage s m) :
    (∃ bs, (heartbeat e m s.sys.ctrl).reply = some ⟨m.engine, m.session, ⟨m.seq, m.cmdId, 0, bs⟩, false⟩ ∧
      bs.length = 30 ∧ bs.take 16 = wordBytes s.sys.ctrl.word) ∧
    (s.sys.ctrl.control = some m.session → (heartbeat e m s.sys.ctrl).hostAlive = true) := by
  simp only [heartbeat, inSession_of_new _ h, respond_reply, respond_hostAlive, editSession_control]
  by_cases hc : s.sys.ctrl.control = some m.session <;> simp [hc]

/-! ### Event rings (R315) -/

theorem recordsFrom_eq (r : EvRing) (next : W64) : recordsFrom r next =
    ((r.recs.filter fun y => decide (next.toNat ≤ y.seq.toNat)).take 64).map eventBytes := by
  simp [recordsFrom, BitVec.ult, ← decide_not]

theorem recordsFrom_length_le (r : EvRing) (next : W64) : (recordsFrom r next).length ≤ 64 := by
  rw [recordsFrom, List.length_map]
  exact List.length_take_le ..

/-- An acknowledgement of one who subscribes already, of a new one while there is room, and of any other. -/
theorem ringAck_ackTaken (ts : W64) (engine addr : Nat) (next : W64) (sub : Bool) (r : EvRing) :
    AckTaken ts engine addr next sub r (ringAck ts engine addr next sub r) := by
  unfold AckTaken
  rw [← recordsFrom_eq]
  have hsent := recordsFrom_length_le r next
  by_cases hold : ∃ x ∈ r.subs, x.addr = addr
  · have hany : (r.subs.any fun x => x.addr == addr) = true := by simpa using hold
    have hr : ringAck ts engine addr next sub r = { r with
        subs := r.subs.map fun x => if x.addr = addr then ⟨addr, engine, next, ts⟩ else x, sent := recordsFrom r next } :=
      if_pos hany
    obtain ⟨x, hx, hxa⟩ := hold
    rw [hr]
    exact ⟨rfl, rfl, fun _ => ⟨List.mem_map.mpr ⟨x, hx, if_pos hxa⟩, hsent, rfl⟩, fun hno => absurd hxa (hno x hx)⟩
  · have hany : ¬(r.subs.any fun x => x.addr == addr) = true := by simpa using hold
    by_cases hroom : sub = true ∧ r.subs.length < 8
    · have hr : ringAck ts engine addr next sub r =
          { r with subs := r.subs ++ [⟨addr, engine, next, ts⟩], sent := recordsFrom r next } :=
        (if_neg hany).trans (if_pos hroom)
      rw [hr]
      refine ⟨rfl, rfl, fun _ => ⟨List.mem_append_right _ List.mem_cons_self, hsent, rfl⟩, fun _ hfull => ?_⟩
      obtain ⟨hsub, hlt⟩ := hroom
      rcases hfull with hno | hge
      · exact absurd hsub (by simp [hno])
      · omega
    · have hr : ringAck ts engine addr next sub r = r := (if_neg hany).trans (if_neg hroom)
      rw [hr]
      exact ⟨rfl, rfl, fun htaken => absurd htaken (not_or.mpr ⟨hold, hroom⟩), fun _ _ => rfl⟩

theorem ringResend_of_found {r : EvRing} {addr : Nat} {x : Subscriber}
    (h : r.subs.find? (fun y => y.addr == addr) = some x) :
    ringResend addr r = { r with sent := recordsFrom r x.next } := by
  simp only [ringResend, h]

theorem mem_ringLapse_subs {ts : W64} {addr : Nat} {r : EvRing} {x : Subscriber} :
    x ∈ (ringLapse ts addr r).subs ↔ x ∈ r.subs ∧ ¬(x.addr = addr ∧ 5000000000 ≤ (ts - x.lastAck).toNat) := by
  simp only [ringLapse, List.mem_filter, Bool.not_eq_true', Bool.and_eq_false_iff, beq_eq_false_iff_ne,
    decide_eq_false_iff_not, not_and_or, ne_eq]

theorem ringIn_resendEvents (p : Plane) (addr : Nat) (s : State) :
    ringIn { s with sys := resendEvents p addr s.sys } p = ringResend addr (ringIn s p) := by
  cases p <;> rfl

theorem ringIn_lapseSubscriber (p : Plane) (addr : Nat) (s : State) :
    ringIn { s with sys := lapseSubscriber p addr s.sys } p = ringLapse s.sys.ts addr (ringIn s p) := by
  cases p <;> rfl

/-! ### The commands -/

section
variable {control force : Bool} (hon : s.sys.ctrl.on = true)
  (hnew : s.sys.ctrl.sessions.find? (fun x => x.addr == m.addr && x.openSeq == m.seq) = none)
include hon hnew

theorem hostOpen_opens (hroom : s.sys.ctrl.sessions.length < 8)
    (hfree : control = true → s.sys.ctrl.control = none ∨ force = true) (hj : journalFull s.sys.ctrl = false) :
    ∃ t r, exec (.hostOpen m control force) s = .next t ∧
      t.sys.ctrl.sessions.length = s.sys.ctrl.sessions.length + 1 ∧ t.sys.ctrl.reply = some r ∧
      r.resp.status = 0 ∧ r.resp.data = natLe 4 s.sys.ctrl.nextSession.toNat ∧
      (control = true → t.sys.ctrl.control = some s.sys.ctrl.nextSession ∧ t.sys.ctrl.hostAlive = false) ∧
      (control = false → t.sys.ctrl.control = s.sys.ctrl.control) := by
  have hheld : ¬(control = true ∧ s.sys.ctrl.control.isSome = true ∧ (!force) = true) := by
    rintro ⟨hc, hsome, hf⟩
    rcases hfree hc with hnone | hforce
    · simp [hnone] at hsome
    · simp [hforce] at hf
  have hopen : onCtrl (openSession (cenvOf s.sys) m control force) s.sys =
      onCtrl (opened (cenvOf s.sys) m control) s.sys := by
    refine onCtrl_congr ?_
    rw [openSession_of_unopened control force hon hnew, if_neg (by omega), if_neg hheld, if_neg (by simp [hj])]
  obtain ⟨hrole, hdead, hkept⟩ := opened_control (e := cenvOf s.sys) (m := m) s.sys.ctrl
  rw [exec_hostOpen, hopen]
  refine ⟨_, _, rfl, opened_sessions_length control _, opened_reply control _, rfl, rfl, ?_, ?_⟩
  · rintro rfl
    exact ⟨hrole, hdead⟩
  · rintro rfl
    exact hkept

theorem hostOpen_refusedFull (hfull : 8 ≤ s.sys.ctrl.sessions.length) :
    ∃ t, exec (.hostOpen m control force) s = .next t ∧ Answered t m 0x0103 ∧
      t.sys.ctrl.sessions = s.sys.ctrl.sessions := by
  have hopen : openSession (cenvOf s.sys) m control force s.sys.ctrl = respondBare m 0x0103 s.sys.ctrl := by
    rw [openSession_of_unopened control force hon hnew, if_pos hfull]
  refine ⟨_, exec_hostOpen s m control force, ?_⟩
  simp only [hopen, onCtrl]
  exact ⟨.of_reply rfl, rfl⟩

theorem hostOpen_refusedHeld (hroom : s.sys.ctrl.sessions.length < 8) (hc : control = true)
    (hheld : s.sys.ctrl.control.isSome = true) (hf : force = false) :
    ∃ t, exec (.hostOpen m control force) s = .next t ∧ Answered t m 0x0502 ∧
      t.sys.ctrl.control = s.sys.ctrl.control := by
  have hopen : openSession (cenvOf s.sys) m control force s.sys.ctrl = respondBare m 0x0502 s.sys.ctrl := by
    rw [openSession_of_unopened control force hon hnew, if_neg (by omega), if_pos ⟨hc, hheld, by simp [hf]⟩]
  refine ⟨_, exec_hostOpen s m control force, ?_⟩
  simp only [hopen, onCtrl]
  exact ⟨.of_reply rfl, rfl⟩

end

theorem hostClose_closes (h : NewMessage s m) :
    ∃ t, exec (.hostClose m) s = .next t ∧ Answered t m 0 ∧ (∀ x ∈ t.sys.ctrl.sessions, x.num ≠ m.session) ∧
      (s.sys.ctrl.control = some m.session → t.sys.ctrl.control = none ∧ t.sys.ctrl.hostAlive = false) := by
  refine ⟨_, exec_hostClose s m, ?_⟩
  simp only [onCtrl, closeSession_of_new h]
  exact ⟨.of_reply rfl, fun _ => dropSession_num_ne, dropSession_of_control⟩

theorem hostHeartbeat_answers (h : NewMessage s m) :
    ∃ t r, exec (.hostHeartbeat m) s = .next t ∧ Answered t m 0 ∧ t.sys.ctrl.reply = some r ∧
      r.resp.data.length = 30 ∧ r.resp.data.take 16 = wordBytes s.sys.ctrl.word ∧
      (s.sys.ctrl.control = some m.session → t.sys.ctrl.hostAlive = true) := by
  obtain ⟨⟨bs, hreply, hlen, hword⟩, halive⟩ := heartbeat_of_new (e := cenvOf s.sys) h
  exact ⟨_, _, exec_hostHeartbeat s m, .of_reply hreply, hreply, hlen, hword, halive⟩

theorem badMessage_refused (engine : Fin 4) (addr : Nat) {bs : List Byte} (hon : s.sys.ctrl.on = true)
    (hbad : badDatagram bs = true) :
    ∃ t, exec (.badMessage engine addr bs) s = .next t ∧ Answered t (datagramMsg engine addr bs) 0x0101 ∧
      t.sys.ctrl.sessions = s.sys.ctrl.sessions ∧ t.sys.ctrl.journal = s.sys.ctrl.journal := by
  refine ⟨_, exec_badMessage s engine addr bs, ?_⟩
  simp only [onCtrl, badMessage, hon, hbad, Bool.and_self, if_true]
  exact ⟨.of_reply rfl, rfl, rfl⟩

theorem exec_badMessage_of_good (engine : Fin 4) (addr : Nat) {bs : List Byte} (hgood : badDatagram bs = false) :
    exec (.badMessage engine addr bs) s = .next s := by
  rw [exec_badMessage, onCtrl_of_fixed (by simp [badMessage, hgood])]

section
variable {n : W32} {x : Session} (hx : sessionOf s.sys.ctrl n = some x)
include hx

theorem sessionTimeout_closes (hsilent : 60000000000 < (s.sys.ts - x.lastMsg).toNat) :
    ∃ t, exec (.sessionTimeout n) s = .next t ∧ (∀ y ∈ t.sys.ctrl.sessions, y.num ≠ n) ∧
      t.sys.ctrl.control ≠ some n := by
  refine ⟨_, exec_sessionTimeout s n, ?_⟩
  simp only [onCtrl, (sessionTimeout_of_known (e := cenvOf s.sys) hx).trans (if_pos hsilent)]
  exact ⟨fun _ => dropSession_num_ne, dropSession_control_ne n _⟩

theorem exec_sessionTimeout_of_heard (hheard : (s.sys.ts - x.lastMsg).toNat ≤ 60000000000) :
    exec (.sessionTimeout n) s = .next s := by
  rw [exec_sessionTimeout, onCtrl_of_fixed ((sessionTimeout_of_known (e := cenvOf s.sys) hx).trans (if_neg hheard.not_gt))]

variable (hc : s.sys.ctrl.control = some n)
include hc

theorem controlRoleLost_ends (hsilent : 5000000000 < (s.sys.ts - x.lastBeat.getD x.granted).toNat) :
    ∃ t, exec .controlRoleLost s = .next t ∧ t.sys.ctrl.control = none ∧ t.sys.ctrl.hostAlive = false ∧
      t.sys.ctrl.sessions = s.sys.ctrl.sessions := by
  refine ⟨_, exec_controlRoleLost s, ?_⟩
  simp only [onCtrl, (roleLost_of_held (e := cenvOf s.sys) hx hc).trans (if_pos hsilent), and_self]

theorem exec_controlRoleLost_of_heard (hheard : (s.sys.ts - x.lastBeat.getD x.granted).toNat ≤ 5000000000) :
    exec .controlRoleLost s = .next s := by
  rw [exec_controlRoleLost, onCtrl_of_fixed ((roleLost_of_held (e := cenvOf s.sys) hx hc).trans (if_neg hheard.not_gt))]

end

theorem runEventAck_takesAck (next : W64) (sub : Bool) (h : NewMessage s m) :
    ∃ t, exec (.runEventAck m next sub) s = .next t ∧ Answered t m 0 ∧
      AckTaken s.sys.ts m.engine m.addr next sub s.sys.ctrl.ring t.sys.ctrl.ring := by
  refine ⟨_, exec_runEventAck s m next sub, ?_⟩
  simp only [onCtrl, runEventAck, inSession_of_new _ h]
  exact ⟨.of_reply rfl, ringAck_ackTaken ..⟩

theorem dataEventAck_takesAck (m : Msg) (next : W64) (sub : Bool) (hon : s.sys.data.on = true) :
    ∃ t, exec (.dataEventAck m next sub) s = .next t ∧ t.sys.data.reply = some ⟨some m, 0, []⟩ ∧
      AckTaken s.sys.ts m.engine m.addr next sub s.sys.data.ring t.sys.data.ring := by
  refine ⟨_, exec_dataEventAck s m next sub, ?_⟩
  rw [whenData_of_on hon]
  exact ⟨rfl, ringAck_ackTaken ..⟩

theorem eventResend_sends {p : Plane} {addr : Nat} {x : Subscriber}
    (h : (ringIn s p).subs.find? (fun y => y.addr == addr) = some x) :
    ∃ t, exec (.eventResend p addr) s = .next t ∧
      (ringIn t p).sent =
        (((ringIn s p).recs.filter fun y => decide (x.next.toNat ≤ y.seq.toNat)).take 64).map eventBytes ∧
      (ringIn t p).subs = (ringIn s p).subs := by
  refine ⟨_, exec_eventResend s p addr, ?_⟩
  rw [ringIn_resendEvents, ringResend_of_found h]
  exact ⟨recordsFrom_eq _ _, rfl⟩

theorem subscriberLapse_lapses (p : Plane) (addr : Nat) :
    ∃ t, exec (.subscriberLapse p addr) s = .next t ∧ (ringIn t p).recs = (ringIn s p).recs ∧
      ∀ x, x ∈ (ringIn t p).subs ↔
        x ∈ (ringIn s p).subs ∧ ¬(x.addr = addr ∧ 5000000000 ≤ (s.sys.ts - x.lastAck).toNat) := by
  refine ⟨_, exec_subscriberLapse s p addr, ?_⟩
  rw [ringIn_lapseSubscriber]
  exact ⟨rfl, fun _ => mem_ringLapse_subs⟩

/-- Settles O38: each command by the control plane or the event ring that it leaves; a ring's acknowledgement by whether its
sender subscribes already and whether there is room. A limit not yet passed, or a datagram that is in order, leaves the state
as it is: the model's choice, log 11. -/
theorem sessionsAndEventSubscribers : Obligations.SessionsAndEventSubscribers := by
  unfold Obligations.SessionsAndEventSubscribers
  refine ⟨fun s => ⟨?opens, ?messages, ?bad, ?silence⟩, fun s => ⟨?runAck, ?dataAck, ?rings⟩⟩
  case opens =>
    intro m control force hon hnew
    exact ⟨hostOpen_opens hon hnew, hostOpen_refusedFull hon hnew, hostOpen_refusedHeld hon hnew⟩
  case messages => exact fun m h => ⟨hostClose_closes h, hostHeartbeat_answers h⟩
  case bad => exact fun engine addr bs => ⟨badMessage_refused engine addr, exec_badMessage_of_good engine addr⟩
  case silence =>
    intro n x hx
    exact ⟨sessionTimeout_closes hx, exec_sessionTimeout_of_heard hx, fun hc =>
      ⟨controlRoleLost_ends hx hc, exec_controlRoleLost_of_heard hx hc⟩⟩
  case runAck => exact fun m next sub => runEventAck_takesAck next sub
  case dataAck => exact fun m next sub => dataEventAck_takesAck m next sub
  case rings => exact fun p addr => ⟨fun x => eventResend_sends, subscriberLapse_lapses p addr⟩

end Sys2Proof.Machine
end

section
/-!
SUPPORT. What a write of a counter or a control register, a sample record and a closing window make of a tile's instruments.
Then counters, samples and windows (O24).
-/

namespace Sys2Proof.Machine

variable {s : State} {ix : TileIx} {t : Tile}

/-! ### A command that edits one tile -/

/-- A command that edits a powered tile goes on, and the tile is then what the edit makes of it. -/
theorem exec_edits {c : Instr} {f : Tile → Tile} (hon : tileOn s.sys.data ix = true)
    (he : exec c s = .next { s with sys := tileEdit ix (fun _ u => f u) s.sys }) :
    ∃ t, exec c s = .next t ∧ tileIn t ix = f (tileIn s ix) := by
  refine ⟨_, he, ?_⟩
  simp only [tileIn, tileEdit, hon, if_true, onData_data, tileOf_editTile]

@[simp] theorem setInt_inst (t : Tile) (i : Nat) : (setInt t i).inst = t.inst := rfl

@[simp] theorem setIntIf_inst (b : Bool) (t : Tile) (i : Nat) : (setIntIf b t i).inst = t.inst := by
  cases b <;> rfl

theorem satInc_toNat {w : Nat} (v : BitVec w) (n : Nat) : (satInc v n).toNat = min (v.toNat + n) (2 ^ w - 1) := by
  have hw : 0 < 2 ^ w := Nat.two_pow_pos w
  rw [satInc, BitVec.toNat_ofNat, Nat.mod_eq_of_lt (by omega)]

/-! ### Event counters (R322, R323) -/

theorem writeEvcnt_evcnt_self (t : Tile) (n : Nat) (v : W64) :
    (look 0 (writeEvcnt t n v).inst.evcnt n).toNat = v.toNat % 2 ^ 48 := by
  rw [writeEvcnt, look_put_self, BitVec.toNat_setWidth]

theorem writeEvcnt_evcnt_of_ne (t : Tile) (v : W64) {n m : Nat} (h : m ≠ n) :
    look 0 (writeEvcnt t n v).inst.evcnt m = look 0 t.inst.evcnt m :=
  look_put_of_ne 0 0 _ _ h

theorem bumpOne_evcnt_self (t : Tile) (n k : Nat) :
    (look 0 (bumpOne t n k).inst.evcnt n).toNat = ((look 0 t.inst.evcnt n).toNat + k) % 2 ^ 48 := by
  simp only [bumpOne]
  split <;> simp

/-- An addition past 2^48 − 1 sets the counter's ovf and counter_ovf (R322). -/
theorem bumpOne_overflows {n k : Nat} (h : 2 ^ 48 ≤ (look 0 t.inst.evcnt n).toNat + k) :
    (look 0 (bumpOne t n k).inst.evsel n).getLsbD 63 = true ∧ (bumpOne t n k).flagSet bitCounterOvf := by
  simp only [bumpOne, if_neg (Nat.not_lt.2 h)]
  exact ⟨by simp [bit64], setInt_flagSet_self _ (by decide)⟩

theorem wrapEvcnt_of_wrap {n k : Nat} (hen : (look 0 t.inst.evsel n).getLsbD 15 = true)
    (h : 2 ^ 48 ≤ (look 0 t.inst.evcnt n).toNat + k) : wrapEvcnt n k t = bumpOne t n k :=
  if_pos ⟨hen, h⟩

/-! ### samp_ctrl and bw_ctrl (R325, R331) -/

/-- The bits of samp_ctrl that are not reserved. -/
theorem writeSampCtrl_sampCtrl (t : Tile) (v : W64) : (writeSampCtrl t v).inst.sampCtrl = v &&& 0x3FF001F000F#64 := by
  simp only [writeSampCtrl]
  split <;> rfl

theorem writeSampCtrl_stopOnFull (t : Tile) (v : W64) :
    (writeSampCtrl t v).inst.sampCtrl.getLsbD 2 = v.getLsbD 2 := by
  rw [writeSampCtrl_sampCtrl]
  simp

theorem sampMode_eq (t : Tile) : sampMode t = t.inst.sampCtrl.toNat % 4 := by
  simp [sampMode]

theorem sampMode_writeSampCtrl (t : Tile) (v : W64) : sampMode (writeSampCtrl t v) = v.toNat % 4 := by
  have hlow : (v &&& 0x3FF001F000F#64) &&& 3#64 = v &&& 3#64 := by
    rw [BitVec.and_assoc]
    rfl
  have hmod (x : W64) : (x &&& 3#64).toNat = x.toNat % 4 := Nat.and_two_pow_sub_one_eq_mod x.toNat 2
  rw [sampMode_eq, writeSampCtrl_sampCtrl, ← hmod, hlow, hmod]

/-- A write that changes the mode restarts the selection count (R325). -/
theorem writeSampCtrl_selCount {v : W64} (h : sampMode t ≠ v.toNat % 4) : (writeSampCtrl t v).inst.selCount = 0 := by
  rw [← sampMode_writeSampCtrl t v] at h
  unfold writeSampCtrl at h ⊢
  dsimp only at h ⊢
  split
  case isTrue hsame =>
    rw [if_pos hsame] at h
    exact absurd hsame.1 h
  case isFalse => rfl

theorem bwEnable_masked (v : W64) : (v &&& 0x800CFFFF#64).getLsbD 31 = v.getLsbD 31 := by
  simp

theorem writeBwCtrl_enable (t : Tile) (v : W64) : (writeBwCtrl t v).inst.bwCtrl.getLsbD 31 = v.getLsbD 31 := by
  rw [← bwEnable_masked v]
  simp only [writeBwCtrl]
  split
  · rfl
  · split <;> rfl

theorem writeBwCtrl_opens {v : W64} (hwas : t.inst.bwCtrl.getLsbD 31 = false) (hnow : v.getLsbD 31 = true) :
    (writeBwCtrl t v).inst.openNext = true := by
  rw [← bwEnable_masked] at hnow
  simp only [writeBwCtrl, hwas, hnow]
  rfl

theorem writeBwCtrl_discards {v : W64} (hwas : t.inst.bwCtrl.getLsbD 31 = true) (hnow : v.getLsbD 31 = false) :
    (writeBwCtrl t v).inst.window = none ∧ (writeBwCtrl t v).inst.openNext = false := by
  rw [← bwEnable_masked] at hnow
  simp only [writeBwCtrl, hwas, hnow]
  exact ⟨rfl, rfl⟩

/-! ### Sample records (R327, R328, R329) -/

/-- The latency of a record's bundle: as measured where its schedule completes it, on the floor of its fixed latencies. -/
def SampleRec.latency (r : SampleRec) (measured : Nat) : Nat :=
  if r.timed then max r.fixedLatency measured else r.fixedLatency

/-- The sample record of the table of R329, as a number. -/
def SampleRec.number (r : SampleRec) (seq : W32) (latency : Nat) : Nat :=
  r.beatLo.toNat * 2 ^ 224 + seq.toNat * 2 ^ 192 + r.pc.toNat * 2 ^ 178 + r.ops.toNat * 2 ^ 152 +
    r.suppressed.toNat * 2 ^ 148 + r.cause.toNat * 2 ^ 144 + r.stallCycles * 2 ^ 128 + r.issueCycle * 2 ^ 112 +
    min latency 0xFFFF * 2 ^ 96 + r.trigger.toNat * 2 ^ 86

/-- Every field of a record stays within its bits, so that latency and seq read back from theirs (R329). -/
theorem SampleRec.number_fields {r : SampleRec} {latency : Nat} (seq : W32) (hlat : latency < 2 ^ 16)
    (hstall : r.stallCycles < 2 ^ 16) (hissue : r.issueCycle < 2 ^ 16) :
    (BitVec.ofNat 256 (r.number seq latency)).toNat / 2 ^ 96 % 2 ^ 16 = latency ∧
      (BitVec.ofNat 256 (r.number seq latency)).toNat / 2 ^ 192 % 2 ^ 32 = seq.toNat := by
  have hbeat := r.beatLo.isLt
  have hseq := seq.isLt
  have hpc := r.pc.isLt
  have hops := r.ops.isLt
  have hsup := r.suppressed.isLt
  have hcause := r.cause.isLt
  have htrig := r.trigger.isLt
  rw [BitVec.toNat_ofNat, SampleRec.number, Nat.min_eq_left (by omega)]
  constructor <;> omega

theorem SampleRec.latency_lt {r : SampleRec} {measured : Nat} (hfixed : r.fixedLatency < 2 ^ 16)
    (hmeasured : measured < 2 ^ 16) : r.latency measured < 2 ^ 16 := by
  unfold SampleRec.latency
  split <;> omega

/-- The instruments once a record that finds room, or overwrites the oldest, is in the buffer (R328). -/
def Instruments.recorded (i : Instruments) (r : SampleRec) (measured : Nat) : Instruments :=
  { i with
    inProgress := none
    buffer := put 0 i.buffer i.sampPtr (BitVec.ofNat 256 (r.number i.sampSeq (r.latency measured)))
    sampPtr := (i.sampPtr + 1) % 64
    sampSeq := i.sampSeq + 1
    sampValid := min (i.sampValid + 1) 64 }

section
variable {r : SampleRec} (measured : Nat) (hr : t.inst.inProgress = some r)
include hr

theorem sampleWrite_of_room (h : t.inst.sampCtrl.getLsbD 2 = false ∨ t.inst.sampValid ≠ 64) :
    (sampleWrite measured t).inst = t.inst.recorded r measured := by
  have hroom : ¬(t.inst.sampCtrl.getLsbD 2 = true ∧ t.inst.sampValid = 64) := by
    rintro ⟨hstop, hfull⟩
    rcases h with h | h
    · exact Bool.false_ne_true (h.symm.trans hstop)
    · exact h hfull
  simp only [sampleWrite, hr, if_neg hroom, setIntIf_inst]
  rfl

theorem sampleWrite_of_full (hstop : t.inst.sampCtrl.getLsbD 2 = true) (hfull : t.inst.sampValid = 64) :
    (sampleWrite measured t).inst =
      { t.inst with inProgress := none, sampMissed := satInc t.inst.sampMissed 1 } := by
  simp only [sampleWrite, hr, if_pos (And.intro hstop hfull)]

theorem sampleWrite_inProgress : (sampleWrite measured t).inst.inProgress = none := by
  by_cases h : t.inst.sampCtrl.getLsbD 2 = true ∧ t.inst.sampValid = 64
  · obtain ⟨hstop, hfull⟩ := h
    rw [sampleWrite_of_full measured hr hstop hfull]
  · rw [sampleWrite_of_room measured hr (by simpa [imp_iff_not_or] using h)]
    rfl

end

/-! ### Bandwidth windows (R331) -/

/-- Once the ports below `n` are copied to the keys from `base` on, each reads its count there. -/
theorem look_copyPorts (counts m : SMap W64) (base n : Nat) {port : Nat} (h : port < n) :
    look 0 (repeatN (fun p m => put 0 m (base + p) (look 0 counts p)) n m) (base + port) = look 0 counts port := by
  induction n with
  | zero => omega
  | succ n ih =>
    rw [repeatN, look_put]
    split
    case isTrue he => rw [Nat.add_left_cancel he]
    case isFalse hne => exact ih (by omega)

/-- The instruments once the counts of the closed window are in the bank of its turn. -/
def Instruments.banked (i : Instruments) (counts : SMap W64) (tick : W32) : Instruments :=
  { i with
    banks := repeatN (fun p m => put 0 m (12 * (i.snapSeq.toNat % 2) + p) (look 0 counts p)) 12 i.banks
    snapSeq := i.snapSeq + 1
    snapTick := tick
    closing := none }

theorem bwClose_of_closing {counts : SMap W64} {tick : W32} (h : t.inst.closing = some (counts, tick)) :
    bwClose t = setInt { t with inst := t.inst.banked counts tick } bitBwSnapshot := by
  rw [bwClose, h]
  rfl

/-! ### The commands -/

section
variable (hon : tileOn s.sys.data ix = true)
include hon

theorem evcntWrite_writes (n : Fin 8) (v : W64) :
    ∃ t, exec (.evcntWrite ix n v) s = .next t ∧
      (look 0 (tileIn t ix).inst.evcnt n).toNat = v.toNat % 2 ^ 48 ∧
      ∀ m, m ≠ n.val → look 0 (tileIn t ix).inst.evcnt m = look 0 (tileIn s ix).inst.evcnt m := by
  obtain ⟨t, ht, e⟩ := exec_edits hon (exec_evcntWrite s ix n v)
  refine ⟨t, ht, ?_⟩
  rw [e]
  exact ⟨writeEvcnt_evcnt_self .., fun m => writeEvcnt_evcnt_of_ne _ v⟩

theorem evcntWrap_wraps (n : Fin 8) (k : Nat) (hen : (look 0 (tileIn s ix).inst.evsel n).getLsbD 15 = true)
    (hpast : 2 ^ 48 ≤ (look 0 (tileIn s ix).inst.evcnt n).toNat + k) :
    ∃ t, exec (.evcntWrap ix n k) s = .next t ∧
      (look 0 (tileIn t ix).inst.evcnt n).toNat = ((look 0 (tileIn s ix).inst.evcnt n).toNat + k) % 2 ^ 48 ∧
      (look 0 (tileIn t ix).inst.evsel n).getLsbD 63 = true ∧ (tileIn t ix).csr.intStatus.getLsbD 9 = true := by
  obtain ⟨t, ht, e⟩ := exec_edits hon (exec_evcntWrap s ix n k)
  refine ⟨t, ht, ?_⟩
  rw [e, wrapEvcnt_of_wrap hen hpast]
  exact ⟨bumpOne_evcnt_self .., bumpOne_overflows hpast⟩

theorem sampRelease_lowersValid (n : Fin 128) :
    ∃ t, exec (.sampRelease ix n) s = .next t ∧
      (tileIn t ix).inst.sampValid = (tileIn s ix).inst.sampValid - n.val := by
  obtain ⟨t, ht, e⟩ := exec_edits hon (exec_sampRelease s ix n)
  refine ⟨t, ht, ?_⟩
  rw [e, releaseSamples]

theorem sampCtrlWrite_writes (v : W64) :
    ∃ t, exec (.sampCtrlWrite ix v) s = .next t ∧
      (tileIn t ix).inst.sampCtrl.getLsbD 2 = v.getLsbD 2 ∧ sampMode (tileIn t ix) = v.toNat % 4 ∧
      (sampMode (tileIn s ix) ≠ v.toNat % 4 → (tileIn t ix).inst.selCount = 0) := by
  obtain ⟨t, ht, e⟩ := exec_edits hon (exec_sampCtrlWrite s ix v)
  refine ⟨t, ht, ?_⟩
  rw [e]
  exact ⟨writeSampCtrl_stopOnFull .., sampMode_writeSampCtrl .., writeSampCtrl_selCount⟩

theorem bwCtrlWrite_writes (v : W64) :
    ∃ t, exec (.bwCtrlWrite ix v) s = .next t ∧ (tileIn t ix).inst.bwCtrl.getLsbD 31 = v.getLsbD 31 ∧
      ((tileIn s ix).inst.bwCtrl.getLsbD 31 = false → v.getLsbD 31 = true → (tileIn t ix).inst.openNext = true) ∧
      ((tileIn s ix).inst.bwCtrl.getLsbD 31 = true → v.getLsbD 31 = false →
        (tileIn t ix).inst.window = none ∧ (tileIn t ix).inst.openNext = false) := by
  obtain ⟨t, ht, e⟩ := exec_edits hon (exec_bwCtrlWrite s ix v)
  refine ⟨t, ht, ?_⟩
  rw [e]
  exact ⟨writeBwCtrl_enable .., writeBwCtrl_opens, writeBwCtrl_discards⟩

theorem sampleRecordWrite_records {r : SampleRec} {measured : Nat} (hr : (tileIn s ix).inst.inProgress = some r)
    (hfixed : r.fixedLatency < 2 ^ 16) (hstall : r.stallCycles < 2 ^ 16) (hissue : r.issueCycle < 2 ^ 16)
    (hmeasured : measured < 2 ^ 16) :
    ∃ t, exec (.sampleRecordWrite ix measured) s = .next t ∧ (tileIn t ix).inst.inProgress = none ∧
      (((tileIn s ix).inst.sampCtrl.getLsbD 2 = false ∨ (tileIn s ix).inst.sampValid ≠ 64) →
        (tileIn t ix).inst.sampSeq = (tileIn s ix).inst.sampSeq + 1 ∧
        (tileIn t ix).inst.sampPtr = ((tileIn s ix).inst.sampPtr + 1) % 64 ∧
        (look 0 (tileIn t ix).inst.buffer (tileIn s ix).inst.sampPtr).toNat / 2 ^ 96 % 2 ^ 16 = r.latency measured ∧
        (look 0 (tileIn t ix).inst.buffer (tileIn s ix).inst.sampPtr).toNat / 2 ^ 192 % 2 ^ 32 =
          (tileIn s ix).inst.sampSeq.toNat) ∧
      ((tileIn s ix).inst.sampCtrl.getLsbD 2 = true → (tileIn s ix).inst.sampValid = 64 →
        (tileIn t ix).inst.buffer = (tileIn s ix).inst.buffer ∧
        (tileIn t ix).inst.sampMissed.toNat = min ((tileIn s ix).inst.sampMissed.toNat + 1) 0xFFFF) := by
  obtain ⟨t, ht, e⟩ := exec_edits hon (exec_sampleRecordWrite s ix measured)
  refine ⟨t, ht, ?_, fun hroom => ?_, fun hstop hfull => ?_⟩ <;> rw [e]
  · exact sampleWrite_inProgress measured hr
  · rw [sampleWrite_of_room measured hr hroom, Instruments.recorded]
    refine ⟨rfl, rfl, ?_⟩
    rw [look_put_self]
    exact SampleRec.number_fields _ (SampleRec.latency_lt hfixed hmeasured) hstall hissue
  · rw [sampleWrite_of_full measured hr hstop hfull]
    exact ⟨rfl, satInc_toNat ..⟩

theorem bwWindowClose_banks {counts : SMap W64} {tick : W32}
    (hc : (tileIn s ix).inst.closing = some (counts, tick)) :
    ∃ t, exec (.bwWindowClose ix) s = .next t ∧ (tileIn t ix).inst.snapSeq = (tileIn s ix).inst.snapSeq + 1 ∧
      (tileIn t ix).inst.snapTick = tick ∧ (tileIn t ix).inst.closing = none ∧
      (tileIn t ix).csr.intStatus.getLsbD 11 = true ∧
      ∀ port < 12, look 0 (tileIn t ix).inst.banks (12 * ((tileIn s ix).inst.snapSeq.toNat % 2) + port) =
        look 0 counts port := by
  obtain ⟨t, ht, e⟩ := exec_edits hon (exec_bwWindowClose s ix)
  refine ⟨t, ht, ?_⟩
  rw [e, bwClose_of_closing hc]
  exact ⟨rfl, rfl, rfl, setInt_flagSet_self _ (by decide), fun _ => look_copyPorts _ _ _ _⟩

end

/-- Settles O24: each command by what its edit makes of the tile; a sample record by whether the full buffer stops sampling. -/
theorem countersSamplesAndWindows : Obligations.CountersSamplesAndWindows := by
  unfold Obligations.CountersSamplesAndWindows
  refine ⟨fun s ix hon => ⟨?writes, ?wraps, ?releases, ?sampling, ?windows⟩, fun s ix hon => ⟨?records, ?closes⟩⟩
  case writes => exact evcntWrite_writes hon
  case wraps => exact evcntWrap_wraps hon
  case releases => exact sampRelease_lowersValid hon
  case sampling => exact sampCtrlWrite_writes hon
  case windows => exact bwCtrlWrite_writes hon
  case records =>
    intro r hr hfixed hstall hissue measured hmeasured
    exact sampleRecordWrite_records hon hr hfixed hstall hissue hmeasured
  case closes => exact fun counts tick => bwWindowClose_banks hon

end Sys2Proof.Machine
end

section
/-!
SUPPORT. What the journal, the events, the alarms and the state register leave of the module; what the opening of the inlet
makes of Sill, of the data plane's power and of the dictionary. Then HALT and the tiles' power (O34).
-/

namespace Sys2Proof.Machine

variable {k : Nat}

/-! ### Records: what they leave of the module -/

/-- `y` is `x` with records made: at most the entries `ks` are written, Sill's copy of the journal moves on, and what Skour
keeps of its queues and its own state may change. -/
structure Module.SameBut (ks : List Nat) (x y : Module) : Prop where
  ts : y.ts = x.ts
  sf : y.sf = x.sf
  data : y.data = x.data
  joints : y.mgmt.joints = x.mgmt.joints
  sill : ∃ c, y.sill = { x.sill with copy := c }
  entries : ∀ k ∉ ks, getE y k = getE x k

theorem Module.SameBut.refl (ks : List Nat) (x : Module) : x.SameBut ks x :=
  ⟨rfl, rfl, rfl, rfl, ⟨_, rfl⟩, fun _ _ => rfl⟩

theorem Module.SameBut.trans {ks js : List Nat} {x y z : Module} (h : x.SameBut ks y) (g : y.SameBut js z) :
    x.SameBut (ks ++ js) z where
  ts := g.ts.trans h.ts
  sf := g.sf.trans h.sf
  data := g.data.trans h.data
  joints := g.joints.trans h.joints
  sill := by
    obtain ⟨c, hc⟩ := h.sill
    obtain ⟨d, hd⟩ := g.sill
    exact ⟨d, by rw [hd, hc]⟩
  entries k hk := by
    rw [List.mem_append, not_or] at hk
    rw [g.entries k hk.2, h.entries k hk.1]

/-- A change of what Skour keeps apart from the joints and the dictionary. -/
theorem onMgmt_sameBut (f : Mgmt → Mgmt) (x : Module) (hj : (f x.mgmt).joints = x.mgmt.joints)
    (hd : (f x.mgmt).dict = x.mgmt.dict) : x.SameBut [] (onMgmt f x) :=
  ⟨rfl, rfl, rfl, hj, ⟨_, rfl⟩, fun k _ => by simp only [getE, dget, onMgmt_mgmt, hd]⟩

theorem editPower_sameBut (f : Power → Power) (x : Module) : x.SameBut [] (editPower f x) := onMgmt_sameBut _ x rfl rfl

theorem editAct_sameBut (f : Act → Act) (x : Module) : x.SameBut [] (editAct f x) := onMgmt_sameBut _ x rfl rfl

theorem editBus_sameBut (f : Bus → Bus) (x : Module) : x.SameBut [] (editBus f x) := onMgmt_sameBut _ x rfl rfl

theorem setE_sameBut (k v : Nat) (x : Module) : x.SameBut [k] (setE k v x) :=
  ⟨rfl, rfl, rfl, setE_joints k v x, ⟨_, rfl⟩, fun _ hj => getE_setE_of_ne v x (List.ne_of_not_mem_cons hj)⟩

theorem incE_sameBut (k : Nat) (x : Module) : x.SameBut [k] (incE k x) := setE_sameBut k _ x

theorem getE_incE_self (k : Nat) (x : Module) : getE (incE k x) k = (getE x k + 1) % 2 ^ 32 := dget_dset_self k _ x.mgmt

/-- A journal entry, with Sill's copy of it (R465, R466). -/
theorem commitEnt_sameBut (e : JEnt) (x : Module) : x.SameBut [] (commitEnt e x) := by
  refine ⟨rfl, rfl, rfl, rfl, ?_, fun _ _ => rfl⟩
  unfold commitEnt
  dsimp only
  split <;> exact ⟨_, rfl⟩

theorem note_sameBut (source kind key value : Nat) (x : Module) : x.SameBut [] (note source kind key value x) := by
  unfold note
  dsimp only
  split
  · exact commitEnt_sameBut _ x
  · split
    · exact ⟨rfl, rfl, rfl, rfl, ⟨_, rfl⟩, fun _ _ => rfl⟩
    · exact editAct_sameBut _ x

/-- An event writes its own object (R526). -/
theorem raiseEvent_sameBut (obj : Nat) (detail : List Byte) (x : Module) :
    x.SameBut [obj] (raiseEvent obj detail x) := by
  unfold raiseEvent
  split
  · unfold recordEvent
    exact ((commitEnt_sameBut _ x).trans (onMgmt_sameBut _ _ rfl rfl)).trans
      ((setE_sameBut obj _ _).trans (editBus_sameBut _ _))
  · exact (editAct_sameBut _ x).trans (.refl [obj] _)

theorem beginAlarm_sameBut (code cause : Nat) (x : Module) : x.SameBut [Ent.alarmSeq] (beginAlarm code cause x) := by
  unfold beginAlarm
  exact (setE_sameBut Ent.alarmSeq _ x).trans (editBus_sameBut _ _)

theorem toState_sameBut (t : ModState) (x : Module) : x.SameBut [Ent.stateTime] (toState t x) := by
  unfold toState
  dsimp only
  split
  · exact .refl _ x
  · exact ((setE_sameBut Ent.stateTime _ x).trans (onMgmt_sameBut _ _ rfl rfl)).trans
      ((editPower_sameBut _ _).trans (note_sameBut ..))

/-- The state register follows Sill: it moves to the forced state, and an alarm may begin (R490, R550). -/
theorem followSill_sameBut (x : Module) : x.SameBut [Ent.stateTime, Ent.alarmSeq] (followSill x) := by
  have moved (t : ModState) : x.SameBut [Ent.stateTime]
      (toState t (onMgmt (fun m => { m with start := none, startDue := none }) x)) :=
    (onMgmt_sameBut _ x rfl rfl).trans (toState_sameBut t _)
  unfold followSill
  split
  · exact .refl _ x
  · split
    · exact .refl _ x
    · dsimp only
      split
      · exact (moved _).trans (beginAlarm_sameBut ..)
      · exact (moved _).trans (beginAlarm_sameBut ..)
      · exact (moved _).trans (.refl [Ent.alarmSeq] _)

theorem beginInlet_sameBut (x : Module) : x.SameBut [] (beginInlet x) := by
  unfold beginInlet
  split
  · exact (onMgmt_sameBut _ x rfl rfl).trans (note_sameBut ..)
  · exact .refl _ x

/-! ### The inlet opens (R336) -/

@[simp] theorem latchLevels_on (v : J1Levels) (d : Data) : (latchLevels v d).on = d.on := by
  unfold latchLevels
  split <;> rfl

@[simp] theorem presentLevels_sill (v : J1Levels) (x : Module) : (presentLevels v x).sill = x.sill := by
  unfold presentLevels
  split <;> rfl

@[simp] theorem presentLevels_on (v : J1Levels) (x : Module) : (presentLevels v x).data.on = x.data.on := by
  unfold presentLevels
  split
  · exact latchLevels_on v _
  · rfl

@[simp] theorem getE_presentLevels (v : J1Levels) (x : Module) : getE (presentLevels v x) k = getE x k := by
  unfold presentLevels
  split <;> rfl

@[simp] theorem dataOff_sill (x : Module) : (dataOff x).sill = x.sill := by
  simp [dataOff, setThrottle, writeJ1]

@[simp] theorem dataOff_on (x : Module) : (dataOff x).data.on = false := by
  simp [dataOff, setThrottle, writeJ1, dataPowerDown, Data.reset]

@[simp] theorem getE_dataOff (x : Module) : getE (dataOff x) k = getE x k := by
  simp only [dataOff, setThrottle, writeJ1, getE_presentLevels]
  rfl

/-- The entries that follow an open inlet: its state, the bus voltage, the valves held and the four blocks' states. -/
def inletEntries : List Nat :=
  Ent.inletState :: Ent.busVoltage :: Ent.valvesHeld :: (List.range 4).map (Ent.convState + ·)

/-- An entry is read from the stored values alone. -/
theorem dget_congr {m n : Mgmt} (h : m.dict = n.dict) (k : Nat) : dget m k = dget n k := by
  simp only [dget, h]

/-- The blocks that leave service write no other entry. -/
theorem dget_blocksOut {n : Nat} (h : ∀ i < n, k ≠ Ent.convState + i) (m : Mgmt) :
    dget (repeatN (fun i m => if dget m (Ent.convState + i) = 1 then dset (Ent.convState + i) 0 m else m) n m) k =
      dget m k := by
  induction n with
  | zero => rfl
  | succ n ih =>
    rw [repeatN]
    split
    · rw [dget_dset_of_ne 0 _ (h n n.lt_succ_self), ih fun i hi => h i (hi.trans n.lt_succ_self)]
    · exact ih fun i hi => h i (hi.trans n.lt_succ_self)

@[simp] theorem groupOneOff_sill (x : Module) : (groupOneOff x).sill = x.sill := by
  simp [groupOneOff]

theorem getE_groupOneOff (x : Module) (hk : k ≠ Ent.valvesHeld) : getE (groupOneOff x) k = getE x k :=
  getE_setE_of_ne 0 _ hk

@[simp] theorem busDown_sill (x : Module) : (busDown x).sill = x.sill := by
  simp [busDown]

/-- Without the bus the data plane is off. -/
@[simp] theorem busDown_on (x : Module) : (busDown x).data.on = false := by
  simp [busDown]

theorem getE_busDown (x : Module) (hk : k ∉ inletEntries) : getE (busDown x) k = getE x k := by
  simp only [inletEntries, List.mem_cons, List.mem_map, List.mem_range, not_or, not_exists, not_and] at hk
  obtain ⟨-, hbus, hvalves, hblocks⟩ := hk
  simp only [busDown, getE_dataOff, getE_groupOneOff _ hvalves]
  rw [getE, dget_dset_of_ne 0 _ hbus, getE, ← dget_blocksOut (fun i hi => Ne.symm (hblocks i hi)) x.mgmt]
  simp only [dget]

theorem openInlet_sill (x : Module) : (openInlet x).sill = { x.sill with ssd := .opened, contactor := false } := by
  rw [openInlet, setE_sill, busDown_sill, onSill_sill]

@[simp] theorem openInlet_on (x : Module) : (openInlet x).data.on = false := by
  rw [openInlet, setE_data, busDown_on]

theorem getE_openInlet (x : Module) (hk : k ∉ inletEntries) : getE (openInlet x) k = getE x k := by
  rw [openInlet, getE_setE_of_ne 0 _ (List.ne_of_not_mem_cons hk), getE_busDown _ hk]
  rfl

/-- A locked inlet: open, with the lock set. -/
theorem lockInlet_sill (x : Module) : ∃ c, (lockInlet x).sill =
    { x.sill with inletLock := true, ssd := .opened, contactor := false, copy := c } := by
  obtain ⟨c, hc⟩ := (followSill_sameBut (openInlet (onSill (fun s => { s with inletLock := true }) x))).sill
  exact ⟨c, by rw [lockInlet, hc, openInlet_sill, onSill_sill]⟩

/-! ### The tiles lose their power (R57, R542) -/

theorem look_of_unlisted {α : Type} {d : α} {m : SMap α} (h : k ∉ m.map Prod.fst) : look d m k = d := by
  induction m with
  | nil => rfl
  | cons e m ih =>
    simp only [List.map_cons, List.mem_cons, not_or] at h
    rw [look, if_neg h.1, ih h.2]

/-- A tile that is off stays off, and a listed one goes off, when each listed tile goes off in turn. -/
theorem tileOf_foldl_off (e : Env) (l : SMap Tile) (d : Data) (h : k ∉ l.map Prod.fst → tileOf d k = Tile.off) :
    tileOf (l.foldl (fun y p => editTile e p.1 (fun _ _ => Tile.off) y) d) k = Tile.off := by
  induction l generalizing d with
  | nil => exact h List.not_mem_nil
  | cons p l ih =>
    refine ih _ fun hl => ?_
    rw [tileOf_editTile]
    split
    · rfl
    · rename_i hp
      exact h (by simp [hp, hl])

@[simp] theorem followPresent_tiles (e : Env) (f : Nat) (d : Data) : (followPresent e f d).tiles = d.tiles := by
  unfold followPresent
  split
  · rfl
  · exact editField_tiles ..

@[simp] theorem followAll_tiles (e : Env) (d : Data) : (followAll e d).tiles = d.tiles := by
  unfold followAll
  exact List.foldlRecOn (motive := fun y => y.tiles = d.tiles) _ _ rfl
    fun y hy p _ => (followPresent_tiles e _ y).trans hy

theorem dropTiles_off (e : Env) (d : Data) (n : Nat) : tileOn (dropTiles e d) n = false := by
  have h : tileOf (dropTiles e d) n = Tile.off := by
    rw [tileOf, dropTiles, followAll_tiles]
    exact tileOf_foldl_off e d.tiles d look_of_unlisted
  rw [tileOn, h]
  rfl

theorem dropTilePower_sill (x : Module) : (dropTilePower x).sill = { x.sill with tilePwrEn := false } := rfl

theorem dropTilePower_off (x : Module) (n : Nat) : tileOn (dropTilePower x).data n = false :=
  dropTiles_off (envOf x) x.data n

/-! ### The commands -/

section
variable {s : State} (halt : s.sys.sill.halt = true)
include halt

theorem haltedRise_dropsTiles : ∃ t, exec .haltedRise s = .next t ∧ t.sys.sill.halted = true ∧
    t.sys.sill.tilePwrEn = false ∧ ∀ n, tileOn t.sys.data n = false := by
  refine ⟨_, exec_haltedRise s, ?_⟩
  simp only [haltedRises, halt, Bool.not_true, Bool.false_eq_true, if_false]
  exact ⟨rfl, rfl, dropTilePower_off _⟩

theorem haltedTimeout_dropsTiles (late : s.sys.sill.halted = false) : ∃ t, exec .haltedTimeout s = .next t ∧
    t.sys.sill.tilePwrEn = false ∧ ∀ n, tileOn t.sys.data n = false := by
  refine ⟨_, exec_haltedTimeout s, ?_⟩
  simp only [haltedTimeout, halt, late, Bool.not_false, and_self, if_true]
  exact ⟨rfl, dropTilePower_off _⟩

theorem haltedMissing_shows (late : s.sys.sill.halted = false) :
    ∃ t, exec .haltedMissing s = .next t ∧ t.sys.sill.haltMissing = true := by
  refine ⟨_, exec_haltedMissing s, ?_⟩
  simp only [haltedMissing, halt, late, Bool.not_false, and_self, if_true, onSill_sill]

theorem tileRailCheck_locksInlet (dropped : s.sys.sill.tilePwrEn = false) {mv : Nat} (high : 200 < mv) :
    ∃ t, exec (.tileRailCheck mv) s = .next t ∧ t.sys.sill.inletLock = true ∧ t.sys.sill.ssd = .opened ∧
      t.sys.sill.contactor = false := by
  obtain ⟨c, hc⟩ := lockInlet_sill s.sys
  refine ⟨_, exec_tileRailCheck s mv, ?_⟩
  simp only [tileRailCheck, halt, dropped, high, Bool.not_false, and_self, if_true, hc]

end

theorem exec_tileRailCheck_of_low (s : State) {mv : Nat} (low : mv ≤ 200) : exec (.tileRailCheck mv) s = .next s := by
  have hn : ¬200 < mv := Nat.not_lt.2 low
  simp only [exec_tileRailCheck, tileRailCheck, hn, and_false, if_false]

/-- Settles O34: HALTED's rise and its two time-outs each by their one branch, the rail check by what locks the inlet. -/
theorem haltDropsTilePower : Obligations.HaltDropsTilePower := by
  unfold Obligations.HaltDropsTilePower
  intro s halt
  refine ⟨haltedRise_dropsTiles halt, fun late => ?missing, fun dropped => ?rail⟩
  case missing => exact ⟨haltedTimeout_dropsTiles halt late, haltedMissing_shows halt late⟩
  case rail => exact ⟨fun _ => tileRailCheck_locksInlet halt dropped, fun _ => exec_tileRailCheck_of_low s⟩

end Sys2Proof.Machine
end

section
/-!
SUPPORT. What a function's act makes of Sill; the loops, Sill's timers and the watchdog, the answers on the UART. Then Sill's
loops, timers and UART, and the loss of all power (O60).
-/

namespace Sys2Proof.Machine

variable {s : State} {k : Nat}

/-! ### A function acts (R537, R542, R551) -/

/-- What a withheld agreement brings back is neither a loop's state nor a count (R553). -/
theorem withhold_keeps (now : W64) (s : Sill) :
    (withhold now s).present = s.present ∧ (withhold now s).interlock = s.interlock ∧ (withhold now s).acts = s.acts := by
  unfold withhold
  split
  · split <;> exact ⟨rfl, rfl, rfl⟩
  · exact ⟨rfl, rfl, rfl⟩

@[simp] theorem noteAct_present (cause : Byte) (now : W64) (s : Sill) : (noteAct cause now s).present = s.present :=
  (withhold_keeps now s).1

@[simp] theorem noteAct_interlock (cause : Byte) (now : W64) (s : Sill) :
    (noteAct cause now s).interlock = s.interlock :=
  (withhold_keeps now s).2.1

/-- The function's count rises by one. -/
theorem noteAct_acts (cause : Byte) (now : W64) (s : Sill) :
    look 0 (noteAct cause now s).acts (cause.toNat % 16) = look 0 s.acts (cause.toNat % 16) + 1 := by
  obtain ⟨-, -, ha⟩ := withhold_keeps now s
  simp only [noteAct, ha, look_upd_self]

/-- The entries a function's act writes: its count and its event. -/
def actEntries (fn : Nat) : List Nat := [Ent.sfActs + fn - 1, 0xA0FF01]

theorem countAct_sameBut (fn trigger : Nat) (x : Module) :
    (onSill (noteAct (BitVec.ofNat 8 (16 * trigger + fn)) x.sf) x).SameBut (actEntries fn) (countAct fn trigger x) :=
  ((incE_sameBut _ _).trans (note_sameBut ..)).trans (raiseEvent_sameBut ..)

/-- What an act through J3 makes of Sill: its count, and HALT. -/
theorem actJ3_sill (fn trigger : Nat) (x : Module) : ∃ c, (actJ3 fn trigger x).sill =
    { noteAct (BitVec.ofNat 8 (16 * trigger + fn)) x.sf x.sill with
      copy := c, halt := true, haltAt := some x.sf, halted := false } := by
  have h := countAct_sameBut fn trigger x
  obtain ⟨c, hc⟩ := h.sill
  exact ⟨c, by simp only [actJ3, assertHalt, onSill_sill, onCtrl_sill, onData_sill, hc, h.sf, onSill_sf]⟩

theorem getE_actJ3 (fn trigger : Nat) (x : Module) (hk : k ∉ actEntries fn) :
    getE (actJ3 fn trigger x) k = getE x k :=
  (countAct_sameBut fn trigger x).entries k hk

/-- The entries that the end of an act writes. -/
def doneEntries : List Nat := [Ent.lastHaltCause, Ent.lastHaltTime, Ent.stateTime, Ent.alarmSeq]

/-- What ends an act leaves the module but for the cause last shown, and its records. -/
theorem actDone_sameBut (x : Module) :
    ∃ l, (onSill (fun s => { s with lastCause := l }) x).SameBut doneEntries (actDone x) := by
  unfold actDone showCause
  dsimp only
  split
  · exact ⟨x.sill.lastCause, (Module.SameBut.refl [Ent.lastHaltCause, Ent.lastHaltTime] x).trans (followSill_sameBut x)⟩
  · exact ⟨_, ((setE_sameBut ..).trans (setE_sameBut ..)).trans (followSill_sameBut _)⟩

/-- What an act that opens the inlet ends with: Sill with the inlet open, and the data plane off. -/
theorem actDone_openInlet (x : Module) :
    (∃ c l, (actDone (openInlet x)).sill =
      { x.sill with ssd := .opened, contactor := false, lastCause := l, copy := c }) ∧
    (actDone (openInlet x)).data.on = false := by
  obtain ⟨l, h⟩ := actDone_sameBut (openInlet x)
  obtain ⟨c, hc⟩ := h.sill
  refine ⟨⟨c, l, ?_⟩, ?_⟩
  · rw [hc, onSill_sill, openInlet_sill]
  · rw [h.data, onSill_data, openInlet_on]

theorem getE_actDone (x : Module) (hk : k ∉ doneEntries) : getE (actDone x) k = getE x k := by
  obtain ⟨l, h⟩ := actDone_sameBut x
  exact h.entries k hk

/-! ### The loops (R537, R541, R548) -/

/-- A loop reads open, and Sill counts a request of the tray when it is INTERLOCK. -/
def loopRead (present : Bool) (x : Module) : Module :=
  let x1 := onSill (fun s => if present then { s with present := false } else { s with interlock := false }) x
  if present ∨ !x.sill.on then x1 else incE Ent.trayOffRequests x1

/-- SF-7 before it opens the inlet. -/
def loopOpens (present : Bool) (x : Module) : Module :=
  if x.sill.stopped ∨ !x.sill.on then loopRead present x
  else actJ3 7 (if present then 2 else 1) (loopRead present x)

theorem sf7_of_present {x : Module} {us : Nat} (h : x.sill.present = true) (hus : 20 < us) :
    sf7 true us x = actDone (openInlet (loopOpens true x)) :=
  if_pos (Or.inl ⟨rfl, hus, h⟩)

theorem sf7_of_interlock {x : Module} {us : Nat} (h : x.sill.interlock = true) (hus : 1000 < us) :
    sf7 false us x = actDone (openInlet (loopOpens false x)) :=
  if_pos (Or.inr ⟨rfl, hus, h⟩)

theorem loopRead_sill (present : Bool) (x : Module) : (loopRead present x).sill =
    if present then { x.sill with present := false } else { x.sill with interlock := false } := by
  unfold loopRead
  dsimp only
  split <;> rfl

theorem getE_loopRead_false {x : Module} (hon : x.sill.on = true) :
    getE (loopRead false x) Ent.trayOffRequests = (getE x Ent.trayOffRequests + 1) % 2 ^ 32 := by
  simp only [loopRead, hon, Bool.false_eq_true, Bool.not_true, or_self, if_false]
  exact getE_incE_self _ _

/-- The act leaves the loops and the tray's requests as they were read. -/
theorem loopOpens_loops (present : Bool) (x : Module) :
    (loopOpens present x).sill.present = (loopRead present x).sill.present ∧
    (loopOpens present x).sill.interlock = (loopRead present x).sill.interlock ∧
    getE (loopOpens present x) Ent.trayOffRequests = getE (loopRead present x) Ent.trayOffRequests := by
  unfold loopOpens
  split
  · exact ⟨rfl, rfl, rfl⟩
  · obtain ⟨c, hc⟩ := actJ3_sill 7 (if present then 2 else 1) (loopRead present x)
    exact ⟨by simp only [hc, noteAct_present], by simp only [hc, noteAct_interlock], getE_actJ3 _ _ _ (by decide)⟩

/-- While Sill runs the function acts: its count rises and HALT stands. -/
theorem loopOpens_acts (present : Bool) {x : Module} (hon : x.sill.on = true) (hrun : x.sill.stopped = false) :
    look 0 (loopOpens present x).sill.acts 7 = look 0 x.sill.acts 7 + 1 ∧ (loopOpens present x).sill.halt = true := by
  have hx : loopOpens present x = actJ3 7 (if present then 2 else 1) (loopRead present x) := by simp [loopOpens, hon, hrun]
  have ha : (loopRead present x).sill.acts = x.sill.acts := by
    rw [loopRead_sill]
    split <;> rfl
  obtain ⟨c, hc⟩ := actJ3_sill 7 (if present then 2 else 1) (loopRead present x)
  refine ⟨?_, by rw [hx, hc]⟩
  rw [hx, hc, ← ha]
  cases present <;> exact noteAct_acts _ _ _

/-- What SF-7 leaves when a loop opens: that loop open, the inlet open, the data plane off, and the function acted while Sill
runs. -/
theorem loopOpens_opensInlet (s : State) (present : Bool) {t : State}
    (ht : t.sys = actDone (openInlet (loopOpens present s.sys))) :
    t.sys.sill.present = (loopRead present s.sys).sill.present ∧
    t.sys.sill.interlock = (loopRead present s.sys).sill.interlock ∧ t.sys.sill.ssd = .opened ∧ t.sys.data.on = false ∧
    getE t.sys Ent.trayOffRequests = getE (loopRead present s.sys) Ent.trayOffRequests ∧
    (s.sys.sill.on = true → s.sys.sill.stopped = false → Acted s t 7) := by
  obtain ⟨⟨c, l, hsill⟩, hoff⟩ := actDone_openInlet (loopOpens present s.sys)
  obtain ⟨hp, hi, hr⟩ := loopOpens_loops present s.sys
  rw [Acted, ht, hsill]
  refine ⟨hp, hi, rfl, hoff, ?_, loopOpens_acts present⟩
  rw [getE_actDone _ (by decide), getE_openInlet _ (by decide), hr]

theorem presentOpens_acts {us : Nat} (h : s.sys.sill.present = true) (hus : 20 < us) :
    ∃ t, exec (.sf7TrayPowerOff true us) s = .next t ∧ t.sys.sill.present = false ∧ t.sys.sill.ssd = .opened ∧
      t.sys.data.on = false ∧ (s.sys.sill.on = true → s.sys.sill.stopped = false → Acted s t 7) := by
  obtain ⟨hp, -, hssd, hoff, -, hact⟩ := loopOpens_opensInlet s true (t := { s with sys := sf7 true us s.sys })
    (sf7_of_present h hus)
  exact ⟨_, exec_sf7TrayPowerOff s true us, by rw [hp, loopRead_sill]; rfl, hssd, hoff, hact⟩

theorem interlockOpens_acts {us : Nat} (h : s.sys.sill.interlock = true) (hus : 1000 < us) :
    ∃ t, exec (.sf7TrayPowerOff false us) s = .next t ∧ t.sys.sill.interlock = false ∧ t.sys.sill.ssd = .opened ∧
      (s.sys.sill.on = true → getE t.sys Ent.trayOffRequests = (getE s.sys Ent.trayOffRequests + 1) % 2 ^ 32) ∧
      (s.sys.sill.on = true → s.sys.sill.stopped = false → Acted s t 7) := by
  obtain ⟨-, hi, hssd, -, hr, hact⟩ := loopOpens_opensInlet s false (t := { s with sys := sf7 false us s.sys })
    (sf7_of_interlock h hus)
  exact ⟨_, exec_sf7TrayPowerOff s false us, by rw [hi, loopRead_sill]; rfl, hssd,
    fun hon => hr.trans (getE_loopRead_false hon), hact⟩

/-- A loop open for no longer than its bound is no trigger (R537). -/
theorem exec_sf7TrayPowerOff_of_brief (s : State) (present : Bool) {us : Nat} (h : us ≤ if present then 20 else 1000) :
    exec (.sf7TrayPowerOff present us) s = .next s := by
  rw [exec_sf7TrayPowerOff, sf7, if_neg]
  cases present <;> simp at h ⊢ <;> omega

theorem trayClosed_closesLoops (h : s.sys.sill.present = false ∨ s.sys.sill.interlock = false) :
    ∃ t, exec .trayClosed s = .next t ∧ t.sys.sill.present = true ∧ t.sys.sill.interlock = true := by
  have hopen : ¬(s.sys.sill.present = true ∧ s.sys.sill.interlock = true) := by
    rintro ⟨hp, hi⟩
    simp [hp, hi] at h
  refine ⟨_, exec_trayClosed s, ?_⟩
  simp only [trayClosed, if_neg hopen]
  split
  · obtain ⟨c, hc⟩ := (beginInlet_sameBut (onSill (fun u => { u with present := true, interlock := true }) s.sys)).sill
    rw [hc]
    exact ⟨rfl, rfl⟩
  · exact ⟨rfl, rfl⟩

/-! ### The timers (R541, R546) -/

theorem inletLocked_of_lockInlet {x : Module} {t : State} (ht : t.sys = lockInlet x) : InletLocked t := by
  obtain ⟨c, hc⟩ := lockInlet_sill x
  rw [InletLocked, ht, hc]
  exact ⟨rfl, rfl⟩

section
variable {since : W64} (h6 : s.sys.sill.sf6At = some since)
include h6

theorem skourSilent_locksInlet (hlong : 10000000000 ≤ sinceSf s.sys since)
    (hsilent : s.sys.sill.lastService.toNat < since.toNat) :
    ∃ t, exec .skourSilentInletOpen s = .next t ∧ InletLocked t := by
  refine ⟨_, exec_skourSilentInletOpen s, inletLocked_of_lockInlet (x := s.sys) ?_⟩
  simp only [skourSilent, h6, hlong, hsilent, and_self, if_true]

theorem exec_skourSilent_of_early
    (h : sinceSf s.sys since < 10000000000 ∨ since.toNat ≤ s.sys.sill.lastService.toNat) :
    exec .skourSilentInletOpen s = .next s := by
  have hn : ¬(10000000000 ≤ sinceSf s.sys since ∧ s.sys.sill.lastService.toNat < since.toNat) := by omega
  simp only [exec_skourSilentInletOpen, skourSilent, h6, if_neg hn]

end

section
variable {since : W64} (hlatch : s.sys.sill.latchAt = some since) (hsafe : s.sys.sill.safeStop = true)
  (hclosed : inletClosed s.sys = true)
include hlatch hsafe hclosed

open Classical in
/-- With the inlet closed under a safe-stop latch, what opens it is a trigger of SF-2 or SF-3 that stands 10 s on (R541). -/
theorem safeStopInlet_of_latched : safeStopInlet s.sys =
    if TriggerStands s ∧ 10000000000 ≤ sinceSf s.sys since then lockInlet s.sys else s.sys := by
  cases hstop : s.sys.sill.watch.stop with
  | none => simp [safeStopInlet, TriggerStands, hlatch, hsafe, hclosed, hstop]
  | some p =>
    obtain ⟨det, u⟩ := p
    simp [safeStopInlet, TriggerStands, hlatch, hsafe, hclosed, hstop, or_assoc]

theorem safeStopInlet_locks (hlong : 10000000000 ≤ sinceSf s.sys since) (htrig : TriggerStands s) :
    ∃ t, exec .safeStopInletOpen s = .next t ∧ InletLocked t :=
  ⟨_, exec_safeStopInletOpen s,
    inletLocked_of_lockInlet ((safeStopInlet_of_latched hlatch hsafe hclosed).trans (if_pos ⟨htrig, hlong⟩))⟩

theorem exec_safeStopInlet_of_early (h : sinceSf s.sys since < 10000000000 ∨ ¬TriggerStands s) :
    exec .safeStopInletOpen s = .next s := by
  have hn : ¬(TriggerStands s ∧ 10000000000 ≤ sinceSf s.sys since) := by
    rintro ⟨htrig, hlong⟩
    exact h.elim (Nat.not_lt.2 hlong) (absurd htrig)
  rw [exec_safeStopInletOpen, safeStopInlet_of_latched hlatch hsafe hclosed, if_neg hn]

end

/-! ### The watchdog and the supervisor (R535, R545) -/

/-- The watchdog's expiry before Skour stops: its count, in Sill and in the dictionary, and its journal entry. -/
def expiryNoted (x : Module) : Module :=
  note 4 6 Ent.watchdogExpiries 0
    (incE Ent.watchdogExpiries (onSill (fun s => { s with expiries := s.expiries + 1 }) x))

theorem expiryNoted_sameBut (x : Module) : (onSill (fun s => { s with expiries := s.expiries + 1 }) x).SameBut
    [Ent.watchdogExpiries] (expiryNoted x) :=
  (incE_sameBut Ent.watchdogExpiries _).trans (note_sameBut ..)

/-- The beat count of the latest snapshot is the joints' (R22). -/
theorem snapCount_congr {m n : Mgmt} (h : m.joints = n.joints) : snapCount m = snapCount n := by
  rw [snapCount, snapCount, h]

theorem watchdogExpiry_resetsSkour (hon : s.sys.sill.on = true) (hwindow : s.sys.sill.longWindow = none)
    (hsf6 : sf6Trigger s.sys = none) (hserved : servedSince s.sys.sill = true)
    (hlong : 62500000 ≤ sinceSf s.sys s.sys.sill.lastService) :
    ∃ t, exec .watchdogExpiry s = .next t ∧ t.sys.mgmt.run = .restart s.sys.ts true (snapCount s.sys.mgmt) ∧
      t.sys.sill.expiries = s.sys.sill.expiries + 1 ∧ t.sys.sill.longWindow = some ⟨true, s.sys.sf⟩ := by
  have hx : watchdogExpiry s.sys = stopSkour true (expiryNoted s.sys) := by
    rw [watchdogExpiry, if_pos ⟨hon, by rw [hwindow]; rfl, hlong, by rw [hsf6]; rfl, hserved⟩, expiryNoted]
  have h := expiryNoted_sameBut s.sys
  obtain ⟨c, hc⟩ := h.sill
  refine ⟨_, exec_watchdogExpiry s, ?_⟩
  simp only [hx, stopSkour, onSill_mgmt, onMgmt_mgmt, onSill_sill, onMgmt_sill, hc, h.ts, h.sf,
    snapCount_congr h.joints, onSill_ts, onSill_sf, and_self]

theorem exec_watchdogExpiry_of_early (h : sinceSf s.sys s.sys.sill.lastService < 62500000) :
    exec .watchdogExpiry s = .next s := by
  have hn : ¬62500000 ≤ sinceSf s.sys s.sys.sill.lastService := Nat.not_le.2 h
  simp only [exec_watchdogExpiry, watchdogExpiry, hn, false_and, and_false, if_false]

theorem supervisor_stopsSill (s : State) : ∃ t, exec .supervisorTimeout s = .next t ∧ t.sys.sill.stopped = true ∧
    t.sys.sill.halt = true ∧ t.sys.sill.tilePwrEn = false ∧ t.sys.sill.ssd = .opened ∧ t.sys.data.on = false := by
  refine ⟨_, exec_supervisorTimeout s, ?_⟩
  rw [State.setSys_sys, supervisor]
  generalize hy : dropTilePower (onSill (fun u => { u with stopped := true }) (assertHalt s.sys.ctrl.haltCause s.sys)) = y
  have h := followSill_sameBut (openInlet y)
  obtain ⟨c, hc⟩ := h.sill
  rw [h.data, hc, openInlet_sill, openInlet_on, ← hy]
  exact ⟨rfl, rfl, rfl, rfl, rfl⟩

/-! ### The service UART (R559) -/

theorem uartLine_length (letter : Nat) (bs : List Byte) : (uartLine letter bs).length = 2 * bs.length + 4 := by
  simp only [uartLine, List.length_append, List.length_flatMap, List.length_cons, List.length_nil, List.map_const',
    List.sum_replicate, smul_eq_mul]
  omega

@[simp] theorem entBytes_length (e : JEnt) : (entBytes e).length = 32 := by
  simp [entBytes]

/-- Command J answers 64 lines of one entry each, and E alone. -/
theorem uartJ_length {u : Sill} (h : u.copy.length ≤ 64) : (uartJ u).length = 64 * 68 + 3 := by
  have hlines : ∀ l : List (List Byte), (∀ b ∈ l, b.length = 32) → (l.flatMap (uartLine 74)).length = l.length * 68 := by
    intro l hl
    induction l with
    | nil => rfl
    | cons b l ih =>
      obtain ⟨hb, hl⟩ := List.forall_mem_cons.1 hl
      rw [List.flatMap_cons, List.length_append, ih hl, uartLine_length, hb, List.length_cons]
      omega
  simp only [uartJ, List.length_append, List.length_cons, List.length_nil]
  rw [hlines]
  · simp only [List.length_append, List.length_map, List.length_replicate]
    omega
  · intro b hb
    rcases List.mem_append.1 hb with hb | hb
    · obtain ⟨e, -, rfl⟩ := List.mem_map.1 hb
      exact entBytes_length e
    · rw [(List.mem_replicate.1 hb).2, List.length_replicate]

theorem answerUart_of_running (f : Module → List Byte) {x : Module} (hon : x.sill.on = true)
    (hrun : x.sill.stopped = false) : (answerUart f x).sill.uart = f x := by
  simp only [answerUart, hon, hrun, Bool.not_false, and_self, if_true, onSill_sill]

theorem answerUart_of_off (f : Module → List Byte) {x : Module} (hoff : x.sill.on = false) : answerUart f x = x := by
  rw [answerUart, if_neg fun h => Bool.false_ne_true (hoff.symm.trans h.1)]

theorem uart_answers (hon : s.sys.sill.on = true) (hrun : s.sys.sill.stopped = false) :
    (∃ t, exec .uartS s = .next t ∧
      t.sys.sill.uart = uartLine 83 (statusBody s.sys ++ natLe 4 (crc32 (statusBody s.sys)).toNat)) ∧
    (s.sys.sill.copy.length ≤ 64 → ∃ t, exec .uartJ s = .next t ∧ t.sys.sill.uart.length = 64 * 68 + 3) ∧
    ∃ t, exec .uartV s = .next t ∧ t.sys.sill.uart = uartLine 86 (natLe 4 (getE s.sys (Ent.fwVersion + 1))) := by
  refine ⟨⟨_, exec_uartS s, answerUart_of_running _ hon hrun⟩, fun h => ⟨_, exec_uartJ s, ?_⟩,
    ⟨_, exec_uartV s, answerUart_of_running _ hon hrun⟩⟩
  rw [State.setSys_sys, answerUart_of_running _ hon hrun]
  exact uartJ_length h

theorem uart_silent (hoff : s.sys.sill.on = false) :
    exec .uartS s = .next s ∧ exec .uartJ s = .next s ∧ exec .uartV s = .next s := by
  simp only [exec_uartS, exec_uartJ, exec_uartV, answerUart_of_off _ hoff, and_self]

/-! ### The loss of all power (R33, R536, R549) -/

theorem auxPowerLoss_keepsRetained (s : State) :
    ∃ t, exec .auxPowerLoss s = .next t ∧ t.sys.sill.on = false ∧ t.sys.data.on = false ∧ t.sys.ctrl.on = false ∧
      t.sys.mgmt.service = 0 ∧ t.sys.ts = 0 ∧ t.sys.sf = 0 ∧ t.sys.sill.safeStop = s.sys.sill.safeStop ∧
      t.sys.sill.leakCut = s.sys.sill.leakCut ∧ t.sys.sill.inletLock = s.sys.sill.inletLock ∧
      t.sys.sill.trayCut = s.sys.sill.trayCut ∧ t.sys.sill.leakOut = s.sys.sill.leakOut ∧
      t.sys.mgmt.journal = s.sys.mgmt.journal ∧ t.sys.mgmt.jNext = s.sys.mgmt.jNext ∧
      t.sys.mgmt.settings = s.sys.mgmt.settings ∧ t.sys.mgmt.records = s.sys.mgmt.records :=
  ⟨_, exec_auxPowerLoss s, rfl, rfl, rfl, rfl, rfl, rfl, rfl, rfl, rfl, rfl, rfl, rfl, rfl, rfl, rfl⟩

/-- Settles O60: the loops by what SF-7 leaves, each timer by whether its time has passed, the UART by whether Sill runs. -/
theorem sillTimersUartAndPowerLoss : Obligations.SillTimersUartAndPowerLoss := by
  unfold Obligations.SillTimersUartAndPowerLoss
  refine ⟨fun s => ⟨?loops, ?closed, ?silent, ?safeStop, ?watchdog, supervisor_stopsSill s⟩,
    fun s => ⟨fun hon hrun => uart_answers hon hrun, uart_silent, auxPowerLoss_keepsRetained s⟩⟩
  case loops =>
    exact fun us => ⟨presentOpens_acts, exec_sf7TrayPowerOff_of_brief s true, interlockOpens_acts,
      exec_sf7TrayPowerOff_of_brief s false⟩
  case closed => exact trayClosed_closesLoops
  case silent => exact fun _ h6 => ⟨skourSilent_locksInlet h6, exec_skourSilent_of_early h6⟩
  case safeStop =>
    exact fun _ hlatch hsafe hclosed =>
      ⟨safeStopInlet_locks hlatch hsafe hclosed, exec_safeStopInlet_of_early hlatch hsafe hclosed⟩
  case watchdog =>
    exact fun hon hwindow hsf6 hserved =>
      ⟨watchdogExpiry_resetsSkour hon hwindow hsf6 hserved, exec_watchdogExpiry_of_early⟩

end Sys2Proof.Machine
end

section
/-!
SUPPORT. The machine as a whole: what a step runs, the state after reset, and the bounds of the control plane (O17 to O22).
-/

namespace Sys2Proof.Machine

/-- Every command keeps the control plane's bounds: each by what the operation it names does to the control plane. -/
theorem exec_bounded {c : Instr} {s t : State} (h : s.sys.ctrl.Bounded) (he : exec c s = .next t) :
    t.sys.ctrl.Bounded := by
  cases c with
  | rdmaWrite => cases he; exact ite_bounded _ _ _ (rdmaWriteAll_bounded _ _ _ _ _ _ h) h
  | sequencerScheduleWrite => cases he; exact ite_bounded _ _ _ (by simp [h]) h
  | hostPortRetrain => cases he; exact ite_bounded _ _ _ h h
  | hostPortOtherFrame => cases he; exact ite_bounded _ _ _ h h
  | _ => cases he; simp [h]

/-- Settles O21: an idle step changes nothing, a command keeps the bounds by its operation. -/
theorem everyStepKeepsTheControlPlaneBounded : Obligations.EveryStepKeepsTheControlPlaneBounded := by
  unfold Obligations.EveryStepKeepsTheControlPlaneBounded
  intro s t h hs
  obtain ⟨-, rfl⟩ | ⟨c, rest, -, he, -⟩ := step_cases s hs
  · exact h
  · exact exec_bounded (s := { s with pending := rest }) h he

/-- Settles O22: at reset the control plane holds nothing. -/
theorem resetIsBounded : Obligations.ResetIsBounded := by
  unfold Obligations.ResetIsBounded
  exact Ctrl.reset_bounded

/-- Settles O20: each part of the reset state, and every tile and field by its map's default. -/
theorem resetIsUnpowered : Obligations.ResetIsUnpowered := by
  unfold Obligations.ResetIsUnpowered
  exact ⟨rfl, rfl, rfl, rfl, rfl, rfl, rfl, rfl, rfl, fun _ => rfl, fun _ => rfl⟩

/-- Settles O17: a command waits, so it runs on the queue's rest. -/
theorem stepRunsTheFrontCommand : Obligations.StepRunsTheFrontCommand := by
  unfold Obligations.StepRunsTheFrontCommand
  exact fun s c rest => step_cons { s with pending := c :: rest } c rest rfl

/-- Settles O18: no command waits. -/
theorem anEmptyQueueIdles : Obligations.AnEmptyQueueIdles := by
  unfold Obligations.AnEmptyQueueIdles
  exact step_nil

/-- Settles O19: a command answers with the module changed and nothing else. -/
theorem everyCommandAnswers : Obligations.EveryCommandAnswers := by
  unfold Obligations.EveryCommandAnswers
  intro c s
  obtain ⟨x, hx⟩ := exec_answers s c
  exact ⟨_, hx, rfl⟩

end Sys2Proof.Machine
end

section
/-!
SUPPORT. The C slot: the bundle that a slot command drives, the values of its operations and the registers they reach; the
bundle that runs nothing (O4, O1, O5).
-/

namespace Sys2Proof.Machine

variable {c : Instr} {s : State} {i : Issue} {b : Bun} {p : Pred}

/-! ### The command of an operation -/

theorem exec_commandC (s : State) (i : Issue) (p : Pred) {o : COp} (h : o ≠ .nop) :
    exec (commandC i p o) s = .next { s with sys := issueC i p o s.sys } := by
  cases o with
  | nop => exact absurd rfl h
  | _ => rfl

theorem exec_commandM (s : State) (i : Issue) (p : Pred) {o : MOp} (h : o ≠ .nop) :
    exec (commandM i p o) s = .next { s with sys := issueM i p o s.sys } := by
  cases o with
  | nop => exact absurd rfl h
  | _ => rfl

theorem exec_commandT (s : State) (i : Issue) (p : Pred) {o : TOp} (h : o ≠ .nop) :
    exec (commandT i p o) s = .next { s with sys := issueT i p o s.sys } := by
  cases o with
  | nop => exact absurd rfl h
  | _ => rfl

theorem exec_commandV (s : State) (i : Issue) (p : Pred) {o : VOp} (h : o ≠ .nop) :
    exec (commandV i p o) s = .next { s with sys := issueV i p o s.sys } := by
  cases o with
  | nop => exact absurd rfl h
  | _ => rfl

/-- Settles O4: the command of an operation issues the bundle whose slot holds that operation under that predicate. -/
theorem slotCommandsIssueTheirBundle : Obligations.SlotCommandsIssueTheirBundle := by
  unfold Obligations.SlotCommandsIssueTheirBundle
  refine fun i p b => ⟨fun o ho hb => ?_, fun o ho hb => ?_, fun o ho hb => ?_, fun o ho hb => ?_⟩
  · exact ⟨fun b => b.c == ⟨p, .op o⟩, by simp [hb], fun s => exec_commandC s i p ho⟩
  · exact ⟨fun b => b.m == ⟨p, .op o⟩, by simp [hb], fun s => exec_commandM s i p ho⟩
  · exact ⟨fun b => b.t == ⟨p, .op o⟩, by simp [hb], fun s => exec_commandT s i p ho⟩
  · exact ⟨fun b => b.v == ⟨p, .op o⟩, by simp [hb], fun s => exec_commandV s i p ho⟩

/-! ### Values of the operations (R106) -/

theorem shiftLeft_eq_ofNat (a : W32) (k : Nat) : a <<< k = BitVec.ofNat 32 (a.toNat * 2 ^ k) := by
  simp [BitVec.toNat_eq, Nat.shiftLeft_eq]

theorem ushiftRight_eq_ofNat (a : W32) (k : Nat) : a >>> k = BitVec.ofNat 32 (a.toNat / 2 ^ k) := by
  have hlt : a.toNat / 2 ^ k < 2 ^ 32 := (Nat.div_le_self _ _).trans_lt a.isLt
  rw [BitVec.toNat_eq, BitVec.toNat_ushiftRight, Nat.shiftRight_eq_div_pow, BitVec.toNat_ofNat, Nat.mod_eq_of_lt hlt]

theorem sshiftRight_eq_ofInt (a : W32) (k : Nat) : a.sshiftRight k = BitVec.ofInt 32 (a.toInt / 2 ^ k) := by
  rw [BitVec.sshiftRight, Int.shiftRight_eq_div_pow]
  norm_cast

theorem add_signExtend (a : W32) {n : Nat} (x : BitVec n) :
    a + x.signExtend 32 = BitVec.ofInt 32 (a.toInt + x.toInt) := by
  rw [BitVec.ofInt_add, BitVec.ofInt_toInt, BitVec.signExtend]

theorem mul_signExtend (a : W32) {n : Nat} (x : BitVec n) :
    a * x.signExtend 32 = BitVec.ofInt 32 (a.toInt * x.toInt) := by
  rw [BitVec.ofInt_mul, BitVec.ofInt_toInt, BitVec.signExtend]

theorem aluOp_eq_aluValue (f : AluFn) (a b : W32) : aluOp f a b = aluValue f a b := by
  cases f with
  | shl => exact shiftLeft_eq_ofNat a _
  | shr => exact ushiftRight_eq_ofNat a _
  | sra => exact sshiftRight_eq_ofInt a _
  | add => simp [aluOp, aluValue, BitVec.ofNat_add]
  | mul => simp [aluOp, aluValue, BitVec.ofNat_mul]
  | sub => exact BitVec.eq_of_toInt_eq (by simp [aluOp, aluValue, BitVec.toInt_sub])
  | min | max => simp [aluOp, aluValue, BitVec.slt]
  | minu | maxu => simp [aluOp, aluValue, BitVec.ult]
  | _ => rfl

theorem condHolds_eq_condValue (c : Cond) (a b : W32) : condHolds c a b = condValue c a b := by
  cases c with
  | eq => exact Bool.beq_eq_decide_eq a b
  | ne => simp [condHolds, condValue, bne, Bool.beq_eq_decide_eq]
  | lt => rfl
  | ltu => rfl
  | ge => simp [condHolds, condValue, BitVec.slt, ← decide_not]
  | geu => simp [condHolds, condValue, BitVec.ult, ← decide_not]

/-! ### The registers of an issuing bundle -/

/-- A C-slot operation that writes one value to a scalar register. -/
theorem writesScalarC_of {o : COp} {sd : BitVec 5} {lat : Nat} {f : Tile → W32}
    (hc : ∀ s, exec c s = .next { s with sys := issueC i p o s.sys })
    (hw : ∀ cx ix t pc, (execC cx ix t pc o).writes = [⟨lat, .s sd.toNat (f t)⟩])
    (hf : ∀ t u, t.regs = u.regs → f t = f u := by simp +contextual) : WritesScalarC c i p o sd f := by
  intro s b h hm
  obtain ⟨t, ht, hr⟩ := h.issues.exec_regs (h.drives hc)
  refine ⟨t, ht, ?_⟩
  rw [hr, readS_setLoops]
  by_cases hz : sd = 0
  · simp [hz]
  · have hn : sd.toNat ≠ 0 := by simpa [BitVec.toNat_eq] using hz
    have hwrites : (cOutOf s i b).writes = [⟨lat, .s sd.toNat (f (tileIn s i.tile))⟩] := by
      rw [cOutOf_eq, h.runC_eq, hw, hf _ _ (tileReady_regs s i), tileIn]
    rw [if_neg hz]
    exact readS_writesOf_c _ hn hm (by simp [hwrites]) (by simp [hwrites])

theorem p_notMem_destsM (o : MOp) (n : Nat) : RegName.p n ∉ destsM o := by
  cases o <;> simp [destsM]

/-- A predicate register that the V slot does not name is written by the C slot alone. -/
theorem cPred_of_mem_writesOf {n : Nat} (hv : RegName.p n ∉ destsV (runV s i b)) {w : TWr} {x : Bool}
    (hw : w ∈ writesOf s i b) (e : w.wr = .p n x) : w ∈ (cOutOf s i b).writes := by
  have hn : wrName w.wr = .p n := by rw [e]; rfl
  obtain ⟨hc | hmw | hvw, -⟩ := (mem_writesOf w).mp hw
  · exact hc
  · exact absurd (hn ▸ execM_names hmw) (p_notMem_destsM _ _)
  · exact absurd (hn ▸ execV_names hvw) hv

/-- A C-slot operation that writes one value to a predicate register. -/
theorem writesPredC_of {o : COp} {pd : BitVec 3} {lat : Nat} {f : Tile → Bool}
    (hc : ∀ s, exec c s = .next { s with sys := issueC i p o s.sys })
    (hw : ∀ cx ix t pc, (execC cx ix t pc o).writes = [⟨lat, .p pd.toNat (f t)⟩])
    (hf : ∀ t u, t.regs = u.regs → f t = f u := by simp +contextual) : WritesPredC c i p o pd f := by
  intro s b h hv
  obtain ⟨t, ht, hr⟩ := h.issues.exec_regs (h.drives hc)
  refine ⟨t, ht, ?_⟩
  rw [hr]
  change readP (applyWrs _ _) _ = _
  by_cases hz : pd = 0
  · simp [hz]
  · have hn : pd.toNat ≠ 0 := by simpa [BitVec.toNat_eq] using hz
    have hwrites : (cOutOf s i b).writes = [⟨lat, .p pd.toNat (f (tileIn s i.tile))⟩] := by
      rw [cOutOf_eq, h.runC_eq, hw, hf _ _ (tileReady_regs s i), tileIn]
    rw [if_neg hz]
    refine readP_applyWrs hn ⟨⟨lat, .p pd.toNat _⟩, ?_, rfl⟩ fun w hwm x e => ?_
    · exact (mem_writesOf _).mpr ⟨.inl (by rw [hwrites]; exact List.mem_singleton_self _), rfl⟩
    · have hmem := cPred_of_mem_writesOf hv hwm e
      rw [hwrites, List.mem_singleton] at hmem
      subst hmem
      injection e with _ hx
      exact hx.symm

theorem append_lowHalf (imm : BitVec 16) (a : W32) :
    imm ++ a.extractLsb' 0 16 = BitVec.ofNat 32 (imm.toNat * 2 ^ 16 + a.toNat % 2 ^ 16) := by
  have hi := imm.isLt
  have hl := Nat.mod_lt a.toNat (show 0 < 2 ^ 16 by decide)
  refine BitVec.eq_of_toNat_eq ?_
  rw [BitVec.toNat_append, BitVec.extractLsb'_toNat, Nat.shiftRight_zero, ← Nat.shiftLeft_add_eq_or_of_lt hl,
    Nat.shiftLeft_eq, BitVec.toNat_ofNat]
  omega

/-- Settles O1: each operation writes one value to its register; the value is that of the table by the equations above. -/
theorem scalarOpsAndComparesWriteTheirResult : Obligations.ScalarOpsAndComparesWriteTheirResult := by
  unfold Obligations.ScalarOpsAndComparesWriteTheirResult
  refine ⟨fun i p sd sa sb => ⟨fun f => ?alu, fun imm => ⟨?addi, ?andi, ?ori, ?xori, ?muli⟩, fun k => ⟨?shli, ?shri, ?srai⟩,
    fun imm => ⟨?movl, ?movh⟩⟩, fun i p pd pa pb sa sb imm => ⟨fun c => ?cmp, fun c => ?cmpi, ?and, ?or, ?xor, ?andn⟩⟩
  case alu =>
    exact writesScalarC_of (exec_alu · i p sd sa sb f) (fun _ _ t _ => by rw [← aluOp_eq_aluValue]; rfl)
  case addi =>
    exact writesScalarC_of (exec_addi · i p sd sa imm) (fun _ _ t _ => by rw [← add_signExtend]; rfl)
  case andi =>
    exact writesScalarC_of (exec_andi · i p sd sa imm) (fun _ _ _ _ => by rw [BitVec.ofNat_toNat]; rfl)
  case ori =>
    exact writesScalarC_of (exec_ori · i p sd sa imm) (fun _ _ _ _ => by rw [BitVec.ofNat_toNat]; rfl)
  case xori =>
    exact writesScalarC_of (exec_xori · i p sd sa imm) (fun _ _ _ _ => by rw [BitVec.ofNat_toNat]; rfl)
  case muli =>
    exact writesScalarC_of (exec_muli · i p sd sa imm) (fun _ _ t _ => by rw [← mul_signExtend]; rfl)
  case shli =>
    exact writesScalarC_of (exec_shli · i p sd sa k) (fun _ _ t _ => by rw [← shiftLeft_eq_ofNat]; rfl)
  case shri =>
    exact writesScalarC_of (exec_shri · i p sd sa k) (fun _ _ t _ => by rw [← ushiftRight_eq_ofNat]; rfl)
  case srai =>
    exact writesScalarC_of (exec_srai · i p sd sa k) (fun _ _ t _ => by rw [← sshiftRight_eq_ofInt]; rfl)
  case movl =>
    exact writesScalarC_of (exec_movl · i p sd imm) (fun _ _ _ _ => by rw [BitVec.ofNat_toNat]; rfl)
  case movh =>
    exact writesScalarC_of (exec_movh · i p sd imm) (fun _ _ t _ => by rw [← append_lowHalf]; rfl)
  case cmp =>
    exact writesPredC_of (exec_cmp · i p pd sa sb c) (fun _ _ t _ => by rw [← condHolds_eq_condValue]; rfl)
  case cmpi =>
    exact writesPredC_of (exec_cmpi · i p pd sa c imm) (fun _ _ t _ => by rw [← condHolds_eq_condValue]; rfl)
  case and => exact writesPredC_of (exec_plog · i p pd pa pb .and) (fun _ _ _ _ => rfl)
  case or => exact writesPredC_of (exec_plog · i p pd pa pb .or) (fun _ _ _ _ => rfl)
  case xor =>
    exact writesPredC_of (exec_plog · i p pd pa pb .xor) fun _ _ _ _ => by rw [decide_not, ← Bool.beq_eq_decide_eq]; rfl
  case andn => exact writesPredC_of (exec_plog · i p pd pa pb .andn) (fun _ _ _ _ => rfl)

end Sys2Proof.Machine
end

section
/-!
SUPPORT. The whole bundle: what an issue that runs nothing leaves, the fault of a reserved encoding, and the frame of an
issue in registers, store and planes (O5, O6, O7).
-/

namespace Sys2Proof.Machine

variable {c : Instr} {s : State} {i : Issue} {b : Bun} {f : Bun → Bool}

/-! ### A bundle that runs nothing (R95, R100) -/

theorem work_trussOf {t u : Tile} (h : t.work = u.work) (one : Bool) : trussOf t one = trussOf u one := by
  cases one
  · exact Tile.work_truss0 h
  · exact Tile.work_truss1 h

/-- The trusses an issuing bundle leaves are those its M and T slots leave. -/
theorem issueWhen_truss (h : Issues s i b) (hf : f b = true) (one : Bool) :
    trussOf (tileOf (issueWhen i f s.sys).data i.tile) one = trussOf (unitsOf s i b) one :=
  (work_trussOf (issueWhen_work h hf) one).trans (by cases one <;> rfl)

theorem seenOf_work (s : State) (i : Issue) (b : Bun) : (seenOf s i b).work = (tileActed s i).work :=
  issueSeen_work ..

/-- The M and T slots act on the tile by the operations that run in them. -/
theorem unitsOf_eq : unitsOf s i b =
    execT (tileReady s i) (execM (ctxOf (envOf s.sys) s.sys.data i.tile) (tileReady s i) (seenOf s i b) i.cycle
      (runM s i b)).1 i.cycle (runT s i b) := by
  simp only [unitsOf, runM, runT, opOr_tileReady]

theorem RunsNothing.unitsOf_eq (h : RunsNothing s i b) : unitsOf s i b = seenOf s i b := by
  obtain ⟨-, hm, ht, -⟩ := h
  rw [Sys2Proof.Machine.unitsOf_eq, hm, ht]
  rfl

theorem RunsNothing.writesOf_eq (h : RunsNothing s i b) : writesOf s i b = [] := by
  obtain ⟨hc, hm, -, hv⟩ := h
  refine List.eq_nil_iff_forall_not_mem.mpr fun w hw => ?_
  obtain ⟨hc' | hm' | hv', -⟩ := (mem_writesOf w).mp hw
  · rw [cOutOf_eq, hc] at hc'
    cases hc'
  · rw [hm] at hm'
    cases hm'
  · rw [hv] at hv'
    cases hv'

theorem RunsNothing.nextOf_eq (h : RunsNothing s i b)
    (hn : NoLoopEnd (tileIn s i.tile).seq.pc (tileIn s i.tile).regs.loops.head?.toList) :
    nextOf (cOutOf s i b) (tileIn s i.tile).seq.pc =
      ((tileIn s i.tile).seq.pc + 1, (tileIn s i.tile).regs.loops, false) := by
  obtain ⟨hc, -⟩ := h
  rw [cOutOf_eq, hc, nextOf_goesOn rfl, tileReady_loops]
  exact nextAddr_noLoopEnd hn

/-- A bundle that runs nothing goes on to the next address, with registers, store and trusses as they stood. -/
theorem issueWhen_runsNothing (h : Issues s i b) (hf : f b = true) (hr : RunsNothing s i b)
    (hn : NoLoopEnd (tileIn s i.tile).seq.pc (tileIn s i.tile).regs.loops.head?.toList) :
    let t := tileOf (issueWhen i f s.sys).data i.tile
    t.seq.pc = (tileIn s i.tile).seq.pc + 1 ∧ t.regs = (tileIn s i.tile).regs ∧ t.store = (tileIn s i.tile).store ∧
      t.truss0 = (tileActed s i).truss0 ∧ t.truss1 = (tileActed s i).truss1 := by
  have hwork := seenOf_work s i b
  have hnext := hr.nextOf_eq hn
  rw [tileIn] at hnext
  refine ⟨?pc, ?regs, ?store, (issueWhen_truss h hf false).trans ?t0, (issueWhen_truss h hf true).trans ?t1⟩
  case pc => rw [issueWhen_pc h hf, hnext, tileIn]
  case regs => rw [issueWhen_regs h hf, hnext, hr.writesOf_eq]; rfl
  case store => rw [issueWhen_store h hf, hr.unitsOf_eq, (seenOf_same s i b).2.2.2, tileIn]
  case t0 => rw [hr.unitsOf_eq, work_trussOf hwork]; rfl
  case t1 => rw [hr.unitsOf_eq, work_trussOf hwork]; rfl

/-- A tile that issues has a bundle to fetch. -/
theorem Issues.fetches (h : Issues s i b) : ∃ w, fetched (tileOf s.sys.data i.tile) = some w := by
  obtain ⟨-, -, -, hd, -⟩ := h
  rw [tileReady, chunksRead_fetched, Option.map_eq_some_iff] at hd
  obtain ⟨w, hw, -⟩ := hd
  exact ⟨w, hw⟩

/-- The NOP command of a slot issues the bundle in which that slot is empty. -/
theorem Issues.issueNop_eq (h : Issues s i b) (slot : SlotId) :
    issueNop i slot s.sys = issueWhen i (emptySlot slot) s.sys := by
  obtain ⟨w, hw⟩ := h.fetches
  rw [issueNop, hw]

/-- Settles O5: a bundle that runs nothing, driven by a slot command or by NOP. -/
theorem nopAndSuppressedSlotsWriteNothing : Obligations.NopAndSuppressedSlotsWriteNothing := by
  unfold Obligations.NopAndSuppressedSlotsWriteNothing
  refine ⟨fun s i b c hd h hr hn => ?_, fun s i b slot h he hr hn => ?_⟩
  · obtain ⟨f, hf, hx⟩ := hd
    exact ⟨_, hx s, issueWhen_runsNothing h hf hr hn⟩
  · obtain ⟨hpc, hregs, -⟩ := issueWhen_runsNothing h he hr hn
    exact ⟨{ s with sys := issueWhen i (emptySlot slot) s.sys }, by rw [exec_nop, h.issueNop_eq], hpc, hregs⟩

/-! ### Reserved encodings (R60, R96, R100) -/

/-- A tile whose sequencer may issue, at a bundle that is illegal, takes fault cause 0x03. -/
theorem issueBundle_illegal {cx : Ctx} {ix : Nat} {t : Tile} {w : Bundle}
    (h : mayIssue (chunksRead cx i t) = true) (hf : fetched (chunksRead cx i t) = some w) (he : i.err.imemUncorr = false)
    (hi : bundleIllegal cx (chunksRead cx i t) (chunksRead cx i t).seq.pc (decodeBundle w) = true) :
    (issueBundle cx ix i t).1 = faultTile cx i.cycle 3 (chunksRead cx i t).seq.pc (tileNow cx i (chunksRead cx i t)) := by
  simp [issueBundle, tileNow, h, hf, he, hi]

theorem slotIllegal_of_reserved {α : Type} {r : Regs} {x : Slot α} (h : ReservedSlot r x) : slotIllegal r x = true := by
  obtain h | ⟨h, he⟩ := h
  · simp [slotIllegal, h]
  · simp [slotIllegal, h, he]

theorem passTo_flagSet {n : Nat} {t : Tile} (cyc : Nat) (h : t.flagSet n) : (passTo cyc t).flagSet n := by
  unfold passTo
  split
  · exact h
  · exact bumpFor_flagSet _ _ _ (bumpFor_flagSet _ _ _ h)

/-- A running tile that takes a fatal fault stops: its cause and address are captured, its int_status bit set (R60). -/
theorem faultTile_stops {t : Tile} (cx : Ctx) (cyc pc : Nat) {cause : Nat} (hc : 15 + cause < 64) (hf : t.tstate ≠ .fault)
    (ho : t.tstate ≠ .off) :
    (faultTile cx cyc cause pc t).tstate = .fault ∧
      (faultTile cx cyc cause pc t).csr.faultCause = BitVec.ofNat 8 cause ∧
      (faultTile cx cyc cause pc t).csr.faultPc = BitVec.ofNat 14 pc ∧
      (faultTile cx cyc cause pc t).flagSet (15 + cause) := by
  have hflag := passTo_flagSet cyc (setInt_flagSet_self t hc)
  simp only [faultTile, hf, ho, or_self, if_false]
  exact ⟨trivial, trivial, trivial, hflag⟩

/-- A tile whose sequencer may issue is in ISSUE after the chunks of its cycle, unless one of them faulted. -/
theorem tileActed_tstate (hm : mayIssue (tileReady s i) = true) (hr : ChunksRead s i) : (tileActed s i).tstate = .issue := by
  simp only [mayIssue, Bool.and_eq_true, decide_eq_true_eq] at hm
  obtain ⟨hissue, -⟩ := hm
  rcases chunksNow_tstate (ctxOf (envOf s.sys) s.sys.data i.tile) i
    (countImem i (tileReady s i).seq.pc (tileReady s i)) with e | e
  · exact e.trans ((Tile.work_tstate (countImem_work ..)).trans hissue)
  · exact absurd e hr

/-- Settles O6: the bundle is illegal, so the tile takes cause 0x03 before any slot acts. -/
theorem reservedEncodingsFault : Obligations.ReservedEncodingsFault := by
  unfold Obligations.ReservedEncodingsFault
  intro s i b c hd hon hm he hdec hread hres
  obtain ⟨f, hf, hx⟩ := hd
  obtain ⟨w, hw, rfl⟩ := Option.map_eq_some_iff.mp hdec
  have hill : bundleIllegal (ctxOf (envOf s.sys) s.sys.data i.tile) (tileReady s i) (tileReady s i).seq.pc
      (decodeBundle w) = true := by
    rw [tileIn, ← tileReady_regs s i] at hres
    rcases hres with h | h | h | h <;> simp [bundleIllegal, slotIllegal_of_reserved h]
  have hfetch : fetched (tileOf s.sys.data i.tile) = some w := by
    rw [← hw]
    exact (chunksRead_fetched ..).symm
  have htile : tileOf (issueWhen i f s.sys).data i.tile =
      faultTile (ctxOf (envOf s.sys) s.sys.data i.tile) i.cycle 3 (tileReady s i).seq.pc (tileActed s i) := by
    simp only [issueWhen, hfetch, hf, if_true, tileStep, hon, onData_data, tileOf_onTile]
    exact issueBundle_illegal hm hw he hill
  have hstate := tileActed_tstate hm hread
  obtain ⟨hfault, hcause, hpc, hflag⟩ := faultTile_stops (ctxOf (envOf s.sys) s.sys.data i.tile) i.cycle
    (tileReady s i).seq.pc (cause := 3) (by decide) (t := tileActed s i) (by simp [hstate]) (by simp [hstate])
  obtain ⟨hregs, -, -, hstore⟩ := ((faultTile_same (ctxOf (envOf s.sys) s.sys.data i.tile) i.cycle 3
    (tileReady s i).seq.pc (tileActed s i)).trans (tileNow_same ..)).trans (tileReady_same s i)
  refine ⟨_, hx s, ?_⟩
  simp only [tileIn]
  rw [htile]
  refine ⟨hfault, hcause, ?_, hflag, hregs, hstore⟩
  rw [hpc, BitVec.toNat_ofNat, tileReady_pc]

/-! ### The frame of an issue -/

theorem tileStep_eq_onData (ix : TileIx) (g : Ctx → Tile → Tile × Eff) (x : Module) :
    ∃ h, tileStep ix g x = onData h x := by
  unfold tileStep
  split
  · exact ⟨_, rfl⟩
  · exact ⟨id, rfl⟩

/-- A slot command acts on the data plane alone. -/
theorem issueWhen_eq_onData (i : Issue) (f : Bun → Bool) (x : Module) : ∃ h, issueWhen i f x = onData h x := by
  unfold issueWhen
  split
  · split
    · exact tileStep_eq_onData ..
    · exact ⟨id, rfl⟩
  · exact ⟨id, rfl⟩

theorem mem_destsOf_of_mem_writesOf {w : TWr} (h : w ∈ writesOf s i b) : wrName w.wr ∈ destsOf s i b := by
  obtain ⟨hc | hm | hv, -⟩ := (mem_writesOf w).mp h
  · rw [cOutOf_eq] at hc
    simp [destsOf, execC_names hc]
  · simp [destsOf, execM_names hm]
  · simp [destsOf, execV_names hv]

/-- An M-slot operation that stores nothing leaves the store. -/
theorem execM_store {cx : Ctx} {t0 t : Tile} {cyc : Nat} {o : MOp} (h : storesM o = false) :
    (execM cx t0 t cyc o).1.store = t.store := by
  cases o with
  | sts | stv => cases h
  | wfill one =>
    simp only [execM]
    split
    · rfl
    · rw [Tile.work_store (bump_work _ _ _)]
      cases one <;> rfl
  | sarm =>
    simp only [execM]
    split
    · rw [Tile.work_store (bump_work _ _ _), Tile.work_store (bump_work _ _ _)]
    · exact show (bump 0x053 1 t).store = t.store from Tile.work_store (bump_work _ _ _)
  | ureq =>
    simp only [execM]
    rw [Tile.work_store (bump_work _ _ _)]
  | xsnd =>
    simp only [execM, exchangeSend]
    split
    · rw [Tile.work_store (bump_work _ _ _)]
    · split <;> rw [Tile.work_store (bump_work _ _ _)] <;> rfl
  | _ => rfl

/-- The store an issuing bundle leaves is the one its M slot leaves. -/
theorem issueWhen_store_execM (h : Issues s i b) (hf : f b = true) :
    (tileOf (issueWhen i f s.sys).data i.tile).store =
      (execM (ctxOf (envOf s.sys) s.sys.data i.tile) (tileReady s i) (seenOf s i b) i.cycle (runM s i b)).1.store := by
  rw [issueWhen_store h hf, unitsOf_eq, execT_store]

theorem seenOf_store (s : State) (i : Issue) (b : Bun) : (seenOf s i b).store = (tileIn s i.tile).store := by
  obtain ⟨-, -, -, h⟩ := seenOf_same s i b
  exact h

theorem wordAddr_congr {t u : Tile} (h : t.regs = u.regs) (aB : BitVec 4) (imm : BitVec 13) :
    wordAddr t aB imm = wordAddr u aB imm := by
  rw [wordAddr, wordAddr, h]

theorem vecAddr_congr {t u : Tile} (h : t.regs = u.regs) (aB : BitVec 4) (imm : BitVec 9) (k : Nat) :
    vecAddr t aB imm k = vecAddr u aB imm k := by
  rw [vecAddr, vecAddr, h]

theorem writeStore_store_of_out (t : Tile) {a n : Nat} {bs : List Byte} (h : n < a ∨ a + bs.length ≤ n) :
    readByte (writeStore t a bs).store n = readByte t.store n :=
  readByte_writeBytes_of_out bs t.store a n h

@[simp] theorem laneBytes_length (xs : List W32) : (laneBytes xs).length = 4 * xs.length := by
  induction xs with
  | nil => rfl
  | cons x xs ih => simp [laneBytes, ih]; omega

@[simp] theorem quarterOf_length (v : VReg) (q : Nat) : (quarterOf v q).length = 128 := by
  simp [quarterOf]

/-- Settles O7: registers by the names of the bundle's writes, the store by its M slot, the rest because an issue acts on
its tile in the data plane alone. -/
theorem slotCommandsChangeOnlyTheirTargets : Obligations.SlotCommandsChangeOnlyTheirTargets := by
  unfold Obligations.SlotCommandsChangeOnlyTheirTargets
  refine ⟨fun s t i b c hd h ht => ?_, fun s t i b c hd h ht => ?_⟩ <;> obtain ⟨f, hf, hx⟩ := hd <;>
    rw [hx s] at ht <;> cases ht
  · have hregs := issueWhen_regs h hf
    obtain ⟨g, hg⟩ := issueWhen_eq_onData i f s.sys
    refine ⟨fun n hn => ?s, fun n hn => ?p, fun n hn => ?a, fun n hn => ?v, fun n hn => issueWhen_other i f s.sys n hn,
      rfl, ?_⟩
    case s =>
      simp only [tileIn, hregs]
      refine readS_applyWrs_keeps fun w hw x e => hn ?_
      have := mem_destsOf_of_mem_writesOf hw
      rwa [e] at this
    case p =>
      simp only [tileIn, hregs]
      refine readP_applyWrs_keeps fun w hw x e => hn ?_
      have := mem_destsOf_of_mem_writesOf hw
      rwa [e] at this
    case a =>
      simp only [tileIn, hregs]
      refine readA_applyWrs_keeps fun w hw x e => hn ?_
      have := mem_destsOf_of_mem_writesOf hw
      rwa [e] at this
    case v =>
      simp only [tileIn, hregs]
      refine readV_applyWrs_keeps fun w hw q x e => hn ?_
      have := mem_destsOf_of_mem_writesOf hw
      rwa [e] at this
    simp [hg]
  · have hstore := issueWhen_store_execM h hf
    have hready := tileReady_regs s i
    refine ⟨fun hs => ?none, fun ss aB imm ho a ha => ?sts, fun vs aB sz imm ho a ha => ?stv⟩
    case none => exact hstore.trans ((execM_store hs).trans (seenOf_store s i b))
    case sts =>
      simp only [tileIn, hstore]
      rw [ho, ← tileIn, ← seenOf_store s i b]
      refine writeStore_store_of_out _ ?_
      rw [wordAddr_congr hready]
      simpa [tileIn] using ha
    case stv =>
      simp only [tileIn, hstore]
      rw [ho, ← tileIn, ← seenOf_store s i b]
      refine List.foldlRecOn (motive := fun u : Tile => readByte u.store a = readByte (seenOf s i b).store a) _ _ rfl
        fun u hu q hq => (writeStore_store_of_out _ ?_).trans hu
      rw [vecAddr_congr hready]
      simpa [tileIn] using ha q hq

end Sys2Proof.Machine
end

section
/-!
SUPPORT. Words of a byte memory, effective addresses, and what the M slot's loads, stores and address operations make of them
(O8).
-/

namespace Sys2Proof.Machine

-- As in the tests: one proof at a time, so that the whole text keeps within the threads that the memory holds.
set_option Elab.async false

/-! ### Words of a byte memory (R2) -/

theorem wordAt_eq_leNat (m : Memory) (a : Nat) : wordAt m a = leNat (readBytes m a 4) := by
  simp only [wordAt, readBytes, leNat, Nat.add_assoc, Nat.reduceAdd]
  omega

theorem readW32_eq_wordAt (m : Memory) (a : Nat) : readW32 m a = BitVec.ofNat 32 (wordAt m a) := by
  rw [readW32, wordAt_eq_leNat]

theorem leNat_natLe (n v : Nat) : leNat (natLe n v) = v % 256 ^ n := by
  induction n generalizing v with
  | zero => simp [natLe, leNat, Nat.mod_one]
  | succ n ih =>
    have h : v % 256 ^ (n + 1) = v % 256 + 256 * (v / 256 % 256 ^ n) := by rw [Nat.pow_succ', Nat.mod_mul]
    rw [natLe, leNat, ih, BitVec.toNat_ofNat, h]

theorem readBytes_add (m : Memory) (a n k : Nat) : readBytes m a (n + k) = readBytes m a n ++ readBytes m (a + n) k := by
  induction n generalizing a with
  | zero => simp [readBytes]
  | succ n ih => rw [Nat.succ_add, readBytes, readBytes, ih, List.cons_append, Nat.add_assoc, Nat.add_comm 1 n]

theorem writeBytes_append (bs cs : List Byte) (m : Memory) (a : Nat) :
    writeBytes m a (bs ++ cs) = writeBytes (writeBytes m a bs) (a + bs.length) cs := by
  induction bs generalizing m a with
  | nil => rfl
  | cons b bs ih => simp only [List.cons_append, writeBytes, ih, List.length_cons, Nat.add_assoc, Nat.add_comm 1]

/-- A word outside a byte string that is written reads as before. -/
theorem wordAt_writeBytes_of_out (bs : List Byte) (m : Memory) {a k : Nat} (h : k + 4 ≤ a ∨ a + bs.length ≤ k) :
    wordAt (writeBytes m a bs) k = wordAt m k := by
  simp only [wordAt]
  rw [readByte_writeBytes_of_out _ _ _ _ (by omega), readByte_writeBytes_of_out _ _ _ _ (by omega),
    readByte_writeBytes_of_out _ _ _ _ (by omega), readByte_writeBytes_of_out _ _ _ _ (by omega)]

theorem wordAt_writeBytes_natLe (m : Memory) (a : Nat) (w : W32) : wordAt (writeBytes m a (natLe 4 w.toNat)) a = w.toNat := by
  have h := readBytes_writeBytes (natLe 4 w.toNat) m a
  rw [natLe_length] at h
  rw [wordAt_eq_leNat, h, leNat_natLe]
  exact Nat.mod_eq_of_lt w.isLt

/-- Lanes written to memory stand there word by word (R118). -/
theorem wordAt_writeBytes_laneBytes (xs : List W32) (m : Memory) (a : Nat) {l : Nat} (h : l < xs.length) :
    wordAt (writeBytes m a (laneBytes xs)) (a + 4 * l) = (lane xs l).toNat := by
  induction xs generalizing m a l with
  | nil => simp at h
  | cons x xs ih =>
    rw [laneBytes, writeBytes_append, natLe_length]
    cases l with
    | zero =>
      rw [wordAt_writeBytes_of_out _ _ (by omega)]
      exact wordAt_writeBytes_natLe m a x
    | succ l =>
      rw [show a + 4 * (l + 1) = a + 4 + 4 * l by omega]
      exact ih _ _ (by simpa using h)

/-- Lanes read from memory are its words (R118). -/
theorem lane_bytesLanes (m : Memory) (a : Nat) {n l : Nat} (h : l < n) :
    lane (bytesLanes n (readBytes m a (4 * n))) l = BitVec.ofNat 32 (wordAt m (a + 4 * l)) := by
  induction n generalizing a l with
  | zero => omega
  | succ n ih =>
    have hread : readBytes m a (4 * (n + 1)) = readBytes m a 4 ++ readBytes m (a + 4) (4 * n) := by
      rw [Nat.mul_succ, Nat.add_comm, readBytes_add]
    have htake := List.take_left' (l₂ := readBytes m (a + 4) (4 * n)) (readBytes_length m a 4)
    have hdrop := List.drop_left' (l₂ := readBytes m (a + 4) (4 * n)) (readBytes_length m a 4)
    simp only [hread, bytesLanes, htake, hdrop]
    cases l with
    | zero =>
      rw [wordAt_eq_leNat]
      rfl
    | succ l =>
      rw [show a + 4 * (l + 1) = a + 4 + 4 * l by omega]
      exact ih (a + 4) (by omega)

/-! ### Effective addresses (R116) -/

theorem alignDown_eq (a n : Nat) : alignDown a n = a / 2 ^ n * 2 ^ n := by
  have := Nat.div_add_mod a (2 ^ n)
  rw [alignDown, Nat.mul_comm]
  omega

theorem effAddr_eq_ofInt (base : Addr) {n : Nat} (imm : BitVec n) (k : Nat) :
    effAddr base imm k = BitVec.ofInt 48 (base.toNat + k * imm.toInt) := by
  rw [effAddr, BitVec.ofInt_add, BitVec.ofInt_mul, BitVec.signExtend, mul_comm]
  simp

theorem alignedAt_effAddr (r : Regs) (aB : BitVec 4) {m : Nat} (imm : BitVec m) (k n : Nat) :
    alignDown (effAddr (readA r aB.toNat) imm k).toNat n = alignedAt r aB (k * imm.toInt) n := by
  rw [alignDown_eq, effAddr_eq_ofInt, BitVec.toNat_ofInt]
  rfl

theorem alignedAt_zero (r : Regs) (aB : BitVec 4) (n : Nat) : alignedAt r aB 0 n = alignDown (readA r aB.toNat).toNat n := by
  have h : (((readA r aB.toNat).toNat : Int) + 0) % 2 ^ 48 = ((readA r aB.toNat).toNat : Int) := by
    have := (readA r aB.toNat).isLt
    omega
  rw [alignDown_eq, alignedAt, h]
  rfl

theorem wordAddr_eq (t : Tile) (aB : BitVec 4) (imm : BitVec 13) : wordAddr t aB imm = alignedAt t.regs aB (4 * imm.toInt) 2 :=
  alignedAt_effAddr t.regs aB imm 4 2

theorem vecAddr_eq (t : Tile) (aB : BitVec 4) (imm : BitVec 9) (k : Nat) :
    vecAddr t aB imm k = (alignedAt t.regs aB (512 * imm.toInt) 6 + 512 * k) % 2 ^ 48 := by
  rw [vecAddr, alignedAt_effAddr]
  rfl

theorem alignedAt_lt (r : Regs) (aB : BitVec 4) (off : Int) (n : Nat) : alignedAt r aB off n < 2 ^ 48 := by
  have h := Int.emod_lt_of_pos ((readA r aB.toNat).toNat + off) (show (0 : Int) < 2 ^ 48 by decide)
  have hle := Nat.div_mul_le_self (((readA r aB.toNat).toNat + off) % 2 ^ 48).toNat (2 ^ n)
  simp only [alignedAt]
  omega

/-! ### What an issuing M slot keeps to -/

variable {c : Instr} {s : State} {i : Issue} {b : Bun} {p : Pred}

theorem IssuesM.issues {o : MOp} (h : IssuesM s i b p o) : Issues s i b := by
  obtain ⟨hi, -, -⟩ := h
  exact hi

theorem IssuesM.drives {o : MOp} (h : IssuesM s i b p o)
    (hc : ∀ s, exec c s = .next { s with sys := issueM i p o s.sys }) : Drives c i b := by
  obtain ⟨-, hb, -⟩ := h
  exact ⟨fun b => b.m == ⟨p, .op o⟩, by simp [hb], hc⟩

theorem IssuesM.runM_eq {o : MOp} (h : IssuesM s i b p o) : runM s i b = o := by
  obtain ⟨-, hb, hp⟩ := h
  rw [runM, hb, opOr_op hp]

/-- The store ranges of an issuing bundle's M slot lie in the tile's store (R117). -/
theorem Issues.inStore (h : Issues s i b) {a n : Nat} {rd : Bool} (hx : (a, n, rd) ∈ mRanges (tileReady s i) (runM s i b)) :
    a + n ≤ 2 ^ 24 := by
  obtain ⟨-, -, -, -, -, -, hu, -⟩ := h
  have hm : opOr .nop (tileReady s i).regs b.m = runM s i b := opOr_tileReady _ _
  have hok : addrFaultM (ctxOf (envOf s.sys) s.sys.data i.tile) (tileReady s i) (runM s i b) = false := by
    by_contra hbad
    rw [Bool.not_eq_false] at hbad
    simp [issueFault, hm, hbad] at hu
  simp only [addrFaultM, Bool.or_eq_false_iff, List.any_eq_false] at hok
  obtain ⟨hr, -⟩ := hok
  simpa [Machine.inStore] using hr _ hx

/-- A bundle's slots read the registers and the store as they stood. -/
theorem regs_tileReady : (tileReady s i).regs = (tileIn s i.tile).regs := tileReady_regs s i

theorem store_tileReady : (tileReady s i).store = (tileIn s i.tile).store := tileReady_store s i

theorem a_notMem_destsC (o : COp) (n : Nat) : RegName.a n ∉ destsC o := by
  cases o <;> simp [destsC]

theorem a_notMem_destsV (o : VOp) (n : Nat) : RegName.a n ∉ destsV o := by
  cases o <;> simp [destsV]

/-- The register writes of the M slot. -/
def mWrites (s : State) (i : Issue) (b : Bun) : List TWr :=
  (execM (ctxOf (envOf s.sys) s.sys.data i.tile) (tileReady s i) (tileReady s i) i.cycle (runM s i b)).2.1

/-- A write of a register that neither the C nor the V slot names is the M slot's. -/
theorem mem_mWrites {w : TWr} (hc : wrName w.wr ∉ destsC (runC s i b)) (hv : wrName w.wr ∉ destsV (runV s i b))
    (hw : w ∈ writesOf s i b) : w ∈ mWrites s i b := by
  obtain ⟨hcw | hmw | hvw, -⟩ := (mem_writesOf w).mp hw
  · rw [cOutOf_eq] at hcw
    exact absurd (execC_names hcw) hc
  · exact hmw
  · exact absurd (execV_names hvw) hv

/-- An M-slot operation that writes one value to a scalar register. -/
theorem writesScalarM_of {o : MOp} {sd : BitVec 5} {lat : Nat} {f : Tile → W32}
    (hc : ∀ s, exec c s = .next { s with sys := issueM i p o s.sys })
    (hw : ∀ cx t0 t cyc, (execM cx t0 t cyc o).2.1 = [⟨lat, .s sd.toNat (f t0)⟩])
    (hf : ∀ t u, t.regs = u.regs → t.store = u.store → f t = f u := by simp +contextual) :
    WritesScalarM c i p o sd f := by
  intro s b h hn
  obtain ⟨t, ht, hr⟩ := h.issues.exec_regs (h.drives hc)
  refine ⟨t, ht, ?_⟩
  rw [hr, readS_setLoops]
  by_cases hz : sd = 0
  · simp [hz]
  · have hsd : sd.toNat ≠ 0 := by simpa [BitVec.toNat_eq] using hz
    have hwrites : mWrites s i b = [⟨lat, .s sd.toNat (f (tileIn s i.tile))⟩] := by
      rw [mWrites, h.runM_eq, hw, hf _ _ regs_tileReady store_tileReady]
    rw [if_neg hz]
    refine readS_applyWrs hsd ⟨⟨lat, .s sd.toNat _⟩, ?_, rfl⟩ fun w hwm x e => ?_
    · exact (mem_writesOf _).mpr ⟨.inr (.inl (show _ ∈ mWrites s i b by simp [hwrites])), rfl⟩
    · have hname : wrName w.wr = .s sd.toNat := by rw [e]; rfl
      have hmem := mem_mWrites (hname ▸ hn) (hname ▸ s_notMem_destsV _ _) hwm
      rw [hwrites, List.mem_singleton] at hmem
      subst hmem
      injection e with _ hx
      exact hx.symm

/-- An M-slot operation that writes one value to an address register. -/
theorem writesAddrM_of {o : MOp} {ad : BitVec 4} {lat : Nat} {f : Regs → Int}
    (hc : ∀ s, exec c s = .next { s with sys := issueM i p o s.sys })
    (hw : ∀ cx t0 t cyc, (execM cx t0 t cyc o).2.1 = [⟨lat, .a ad.toNat (BitVec.ofInt 48 (f t0.regs))⟩]) :
    WritesAddrM c i p o ad f := by
  intro s b h
  obtain ⟨t, ht, hr⟩ := h.issues.exec_regs (h.drives hc)
  refine ⟨t, ht, ?_⟩
  rw [hr]
  change readA (applyWrs _ _) _ = _
  have hwrites : mWrites s i b = [⟨lat, .a ad.toNat (BitVec.ofInt 48 (f (tileIn s i.tile).regs))⟩] := by
    rw [mWrites, h.runM_eq, hw, regs_tileReady]
  refine readA_applyWrs ⟨⟨lat, .a ad.toNat _⟩, ?_, rfl⟩ fun w hwm x e => ?_
  · exact (mem_writesOf _).mpr ⟨.inr (.inl (show _ ∈ mWrites s i b by simp [hwrites])), rfl⟩
  · have hname : wrName w.wr = .a ad.toNat := by rw [e]; rfl
    have hmem := mem_mWrites (hname ▸ a_notMem_destsC _ _) (hname ▸ a_notMem_destsV _ _) hwm
    rw [hwrites, List.mem_singleton] at hmem
    subst hmem
    injection e with _ hx
    exact hx.symm

/-! ### Vector loads (R116, R118) -/

/-- The latency of an LDV (R54). -/
def ldvLat (sz : Sz) : Nat := if sz = .full then 8 else 5

theorem mem_mWrites_ldv {vd : BitVec 6} {aB : BitVec 4} {sz : Sz} {imm : BitVec 9} (h : IssuesM s i b p (.ldv vd aB sz imm))
    {w : TWr} : w ∈ mWrites s i b ↔ ∃ q ∈ szQuarters sz, w = ⟨ldvLat sz, .vq vd.toNat q.1
      (bytesLanes 128 (readBytes (tileIn s i.tile).store (vecAddr (tileIn s i.tile) aB imm q.2) 512))⟩ := by
  simp only [mWrites, h.runM_eq, execM, List.mem_map, store_tileReady, vecAddr_congr regs_tileReady, eq_comm (a := w)]
  rfl

/-- A write of an LDV's register is the one that its size makes of a quarter, and meets no drain. -/
theorem ldv_write {vd : BitVec 6} {aB : BitVec 4} {sz : Sz} {imm : BitVec 9} (h : IssuesM s i b p (.ldv vd aB sz imm))
    (hv : RegName.v vd.toNat ∉ destsV (runV s i b)) {w : TWr} (hw : w ∈ writesOf s i b) {q : Nat} {xs : List W32}
    (e : w.wr = .vq vd.toNat q xs) :
    ∃ k, (q, k) ∈ szQuarters sz ∧ MeetsDrain s i (ldvLat sz) vd.toNat q = false ∧
      xs = bytesLanes 128 (readBytes (tileIn s i.tile).store (vecAddr (tileIn s i.tile) aB imm k) 512) := by
  have hname : wrName w.wr = .v vd.toNat := by rw [e]; rfl
  obtain ⟨-, hd⟩ := (mem_writesOf w).mp hw
  obtain ⟨⟨q', k⟩, hq, rfl⟩ := (mem_mWrites_ldv h).mp
    (mem_mWrites (hname ▸ v_notMem_destsC _ _) (hname ▸ hv) hw)
  injection e with _ hqq hx
  subst hqq
  exact ⟨k, hq, hd, hx.symm⟩

theorem szQuarters_lt {sz : Sz} {q k : Nat} (h : (q, k) ∈ szQuarters sz) : q < 4 := by
  cases sz with
  | quarter x =>
    have := x.isLt
    simp [szQuarters] at h
    omega
  | full =>
    simp [szQuarters] at h
    omega

/-- Each lane of an LDV's register: the word of its quarter's range where the quarter is loaded and meets no drain, and as it
was elsewhere. -/
theorem ldv_lanes {vd : BitVec 6} {aB : BitVec 4} {sz : Sz} {imm : BitVec 9} (h : IssuesM s i b p (.ldv vd aB sz imm))
    (hv : RegName.v vd.toNat ∉ destsV (runV s i b)) :
    ∃ t, exec (.ldv i p vd aB sz imm) s = .next t ∧ ∀ l < 512,
      ((∀ k, (l / 128, k) ∉ szQuarters sz) ∨ MeetsDrain s i (ldvLat sz) vd.toNat (l / 128) = true →
        lane (readV (tileIn t i.tile).regs vd.toNat) l = lane (readV (tileIn s i.tile).regs vd.toNat) l) ∧
      ∀ k, (∀ k', (l / 128, k') ∈ szQuarters sz ↔ k' = k) → MeetsDrain s i (ldvLat sz) vd.toNat (l / 128) = false →
        lane (readV (tileIn t i.tile).regs vd.toNat) l = BitVec.ofNat 32 (wordAt (tileIn s i.tile).store
          (vecAddr (tileIn s i.tile) aB imm k + 4 * (l % 128))) := by
  obtain ⟨t, ht, hr⟩ := h.issues.exec_regs (h.drives (exec_ldv · i p vd aB sz imm))
  refine ⟨t, ht, fun l hl => ⟨fun hk => ?_, fun k hk hm => ?_⟩⟩ <;> rw [hr, readV_setLoops]
  · refine lane_applyWrs_keeps hl fun w hw q xs e => ?_
    obtain ⟨k, hq, hfree, -⟩ := ldv_write h hv hw e
    refine ⟨szQuarters_lt hq, ?_⟩
    rintro rfl
    rcases hk with hk | hk
    · exact hk k hq
    · exact Bool.false_ne_true (hfree.symm.trans hk)
  · refine lane_applyWrs hl (fun w hw q xs e => ?_) ?_ fun w hw xs e => ?_
    · obtain ⟨k, hq, -⟩ := ldv_write h hv hw e
      exact szQuarters_lt hq
    · exact ⟨⟨ldvLat sz, .vq vd.toNat (l / 128) _⟩,
        (mem_writesOf _).mpr ⟨.inr (.inl ((mem_mWrites_ldv h).mpr ⟨_, (hk k).mpr rfl, rfl⟩)), hm⟩, _, rfl⟩
    · obtain ⟨k', hq, -, rfl⟩ := ldv_write h hv hw e
      obtain rfl := (hk k').mp hq
      exact lane_bytesLanes _ _ (Nat.mod_lt _ (by decide))

theorem vecAddr_zero (t : Tile) (aB : BitVec 4) (imm : BitVec 9) :
    vecAddr t aB imm 0 = alignedAt t.regs aB (512 * imm.toInt) 6 := by
  rw [vecAddr_eq]
  exact Nat.mod_eq_of_lt (alignedAt_lt ..)

/-- A full access that stays in the store does not wrap: its quarters follow one another. -/
theorem Issues.vecAddr_full {aB : BitVec 4} {imm : BitVec 9} (h : Issues s i b)
    (hx : ∃ rd, (vecAddr (tileReady s i) aB imm 0, 512, rd) ∈ mRanges (tileReady s i) (runM s i b)) {k : Nat} (hk : k < 4) :
    vecAddr (tileIn s i.tile) aB imm k = alignedAt (tileIn s i.tile).regs aB (512 * imm.toInt) 6 + 512 * k := by
  obtain ⟨rd, hx⟩ := hx
  have hlt := h.inStore hx
  rw [vecAddr_zero, regs_tileReady] at hlt
  rw [vecAddr_eq]
  omega

theorem ldv_quarter {vd : BitVec 6} {aB : BitVec 4} {imm : BitVec 9} {q : BitVec 2}
    (h : IssuesM s i b p (.ldv vd aB (.quarter q) imm)) (hv : RegName.v vd.toNat ∉ destsV (runV s i b)) :
    ∃ t, exec (.ldv i p vd aB (.quarter q) imm) s = .next t ∧ ∀ l < 512,
      lane (readV (tileIn t i.tile).regs vd.toNat) l =
        if l / 128 = q.toNat ∧ MeetsDrain s i 5 vd.toNat q.toNat = false then BitVec.ofNat 32 (wordAt (tileIn s i.tile).store
          (alignedAt (tileIn s i.tile).regs aB (512 * imm.toInt) 6 + 4 * (l % 128)))
        else lane (readV (tileIn s i.tile).regs vd.toNat) l := by
  obtain ⟨t, ht, hlanes⟩ := ldv_lanes h hv
  refine ⟨t, ht, fun l hl => ?_⟩
  obtain ⟨hkeep, hload⟩ := hlanes l hl
  rw [← vecAddr_zero]
  split
  case isTrue hq =>
    obtain ⟨hq, hm⟩ := hq
    exact hload 0 (by simp [szQuarters, hq]) (by rw [hq]; exact hm)
  case isFalse hq =>
    refine hkeep ?_
    by_cases hl : l / 128 = q.toNat
    · exact .inr (by simpa [hl, ldvLat] using hq)
    · exact .inl (by simp [szQuarters, hl])

theorem mem_szQuarters_full (q k : Nat) : (q, k) ∈ szQuarters .full ↔ k = q ∧ q < 4 := by
  simp [szQuarters]
  omega

theorem ldv_full {vd : BitVec 6} {aB : BitVec 4} {imm : BitVec 9} (h : IssuesM s i b p (.ldv vd aB .full imm))
    (hv : RegName.v vd.toNat ∉ destsV (runV s i b)) :
    ∃ t, exec (.ldv i p vd aB .full imm) s = .next t ∧ ∀ l < 512,
      lane (readV (tileIn t i.tile).regs vd.toNat) l =
        if MeetsDrain s i 8 vd.toNat (l / 128) = false then BitVec.ofNat 32 (wordAt (tileIn s i.tile).store
          (alignedAt (tileIn s i.tile).regs aB (512 * imm.toInt) 6 + 4 * l))
        else lane (readV (tileIn s i.tile).regs vd.toNat) l := by
  obtain ⟨t, ht, hlanes⟩ := ldv_lanes h hv
  refine ⟨t, ht, fun l hl => ?_⟩
  obtain ⟨hkeep, hload⟩ := hlanes l hl
  split
  case isTrue hm =>
    have hq : l / 128 < 4 := by omega
    rw [hload (l / 128) (fun k => by rw [mem_szQuarters_full]; omega) hm,
      h.issues.vecAddr_full ⟨true, by simp [h.runM_eq, mRanges, szQuarters]⟩ hq]
    congr 2
    omega
  case isFalse hm => exact hkeep (.inr (by simpa [ldvLat] using hm))

/-! ### Stores (R116, R118) -/

/-- The store an M-slot command leaves is the one its operation makes. -/
theorem IssuesM.exec_store {o : MOp} (h : IssuesM s i b p o)
    (hc : ∀ s, exec c s = .next { s with sys := issueM i p o s.sys }) :
    ∃ t, exec c s = .next t ∧ (tileIn t i.tile).store =
      (execM (ctxOf (envOf s.sys) s.sys.data i.tile) (tileReady s i) (seenOf s i b) i.cycle o).1.store := by
  obtain ⟨f, hf, he⟩ := h.drives hc
  exact ⟨_, he s, h.runM_eq ▸ issueWhen_store_execM h.issues hf⟩

theorem sts_stores {ss : BitVec 5} {aB : BitVec 4} {imm : BitVec 13} (h : IssuesM s i b p (.sts ss aB imm)) :
    ∃ t, exec (.sts i p ss aB imm) s = .next t ∧
      wordAt (tileIn t i.tile).store (alignedAt (tileIn s i.tile).regs aB (4 * imm.toInt) 2) =
        (readS (tileIn s i.tile).regs ss.toNat).toNat := by
  obtain ⟨t, ht, hs⟩ := h.exec_store (exec_sts · i p ss aB imm)
  refine ⟨t, ht, ?_⟩
  rw [hs, ← wordAddr_eq, ← wordAddr_congr regs_tileReady, ← readS_tileReady]
  exact wordAt_writeBytes_natLe ..

theorem stv_quarter {vs : BitVec 6} {aB : BitVec 4} {imm : BitVec 9} {q : BitVec 2}
    (h : IssuesM s i b p (.stv vs aB (.quarter q) imm)) :
    ∃ t, exec (.stv i p vs aB (.quarter q) imm) s = .next t ∧ ∀ l < 128,
      wordAt (tileIn t i.tile).store (alignedAt (tileIn s i.tile).regs aB (512 * imm.toInt) 6 + 4 * l) =
        (lane (readV (tileIn s i.tile).regs vs.toNat) (128 * q.toNat + l)).toNat := by
  obtain ⟨t, ht, hs⟩ := h.exec_store (exec_stv · i p vs aB (.quarter q) imm)
  refine ⟨t, ht, fun l hl => ?_⟩
  rw [hs, ← vecAddr_zero, ← vecAddr_congr regs_tileReady, ← lane_quarterOf _ _ _ hl, ← regs_tileReady]
  exact wordAt_writeBytes_laneBytes _ _ _ (by simpa using hl)

/-- Quarters laid one after another: a word of quarter `q` is untouched by the quarters after it. -/
theorem wordAt_quarters (m : Memory) (a : Nat) (v : VReg) {l : Nat} (hl : l < 512) :
    wordAt ([0, 1, 2, 3].foldl (fun m q => writeBytes m (a + 512 * q) (laneBytes (quarterOf v q))) m) (a + 4 * l) =
      (lane v l).toNat := by
  have hin (m : Memory) (q : Nat) (h : l / 128 = q) :
      wordAt (writeBytes m (a + 512 * q) (laneBytes (quarterOf v q))) (a + 4 * l) = (lane v l).toNat := by
    rw [show a + 4 * l = a + 512 * q + 4 * (l % 128) by omega,
      wordAt_writeBytes_laneBytes _ _ _ (by simp [Nat.mod_lt]), lane_quarterOf _ _ _ (Nat.mod_lt _ (by decide)), ← h,
      Nat.div_add_mod]
  have hout (m : Memory) (q : Nat) (h : l / 128 < q) :
      wordAt (writeBytes m (a + 512 * q) (laneBytes (quarterOf v q))) (a + 4 * l) = wordAt m (a + 4 * l) :=
    wordAt_writeBytes_of_out _ _ (by omega)
  obtain h | h | h | h : l / 128 = 0 ∨ l / 128 = 1 ∨ l / 128 = 2 ∨ l / 128 = 3 := by omega
  all_goals simp only [List.foldl_cons, List.foldl_nil]
  · rw [hout _ 3 (by omega), hout _ 2 (by omega), hout _ 1 (by omega), hin _ 0 h]
  · rw [hout _ 3 (by omega), hout _ 2 (by omega), hin _ 1 h]
  · rw [hout _ 3 (by omega), hin _ 2 h]
  · exact hin _ 3 h

theorem stv_full {vs : BitVec 6} {aB : BitVec 4} {imm : BitVec 9} (h : IssuesM s i b p (.stv vs aB .full imm)) :
    ∃ t, exec (.stv i p vs aB .full imm) s = .next t ∧ ∀ l < 512,
      wordAt (tileIn t i.tile).store (alignedAt (tileIn s i.tile).regs aB (512 * imm.toInt) 6 + 4 * l) =
        (lane (readV (tileIn s i.tile).regs vs.toNat) l).toNat := by
  have ha {k : Nat} (hk : k < 4) := h.issues.vecAddr_full (aB := aB) (imm := imm)
    ⟨false, by simp [h.runM_eq, mRanges, szQuarters]⟩ hk
  obtain ⟨t, ht, hs⟩ := h.exec_store (exec_stv · i p vs aB .full imm)
  refine ⟨t, ht, fun l hl => ?_⟩
  rw [hs, ← wordAt_quarters (seenOf s i b).store (alignedAt (tileIn s i.tile).regs aB (512 * imm.toInt) 6) _ hl]
  simp only [execM, regs_tileReady, szQuarters, List.foldl_cons, List.foldl_nil, writeStore, vecAddr_congr regs_tileReady,
    ha (show 0 < 4 by decide), ha (show 1 < 4 by decide), ha (show 2 < 4 by decide), ha (show 3 < 4 by decide)]

/-! ### The commands -/

theorem twoPow_eq_ofInt (w k : Nat) : BitVec.twoPow w k = BitVec.ofInt w (2 ^ k) := by
  have h : (2 : Int) ^ k = ((2 ^ k : Nat) : Int) := by norm_cast
  rw [h, BitVec.ofInt_natCast]
  exact BitVec.eq_of_toNat_eq (by rw [BitVec.toNat_twoPow, BitVec.toNat_ofNat])

theorem append_half (a : W32) (x : W32) :
    (a.extractLsb' 0 16 ++ x : BitVec 48) = BitVec.ofInt 48 (a.toNat % 2 ^ 16 * 2 ^ 32 + x.toNat : Nat) := by
  have hx := x.isLt
  refine BitVec.eq_of_toNat_eq ?_
  rw [BitVec.toNat_append, BitVec.extractLsb'_toNat, Nat.shiftRight_zero, ← Nat.shiftLeft_add_eq_or_of_lt hx,
    Nat.shiftLeft_eq, BitVec.ofInt_natCast, BitVec.toNat_ofNat]
  omega

/-- Settles O8: each operation of the M slot by its own lemma. -/
theorem loadsStoresAndAddressOps : Obligations.LoadsStoresAndAddressOps := by
  unfold Obligations.LoadsStoresAndAddressOps
  refine ⟨fun i p => ⟨fun sd aB imm => ?lds, fun sd aS hi => ?aget, fun sd vs l => ?vext, fun ad aS imm => ?aaddi,
    fun ad aS ss sh => ?aadd, fun ad sl sh => ?amov⟩, fun s i b p => ⟨fun _ _ _ _ => ldv_quarter, fun _ _ _ => ldv_full,
    fun _ _ _ _ => stv_quarter, fun _ _ _ => stv_full, fun _ _ _ => sts_stores⟩⟩
  case lds =>
    exact writesScalarM_of (exec_lds · i p sd aB imm) (fun _ _ _ _ => by rw [← readW32_eq_wordAt, ← wordAddr_eq]; rfl)
  case aget =>
    refine writesScalarM_of (lat := 1) (exec_aget · i p sd aS hi) (fun _ t _ _ => ?_)
    have := (readA t.regs aS.toNat).isLt
    cases hi <;> simp [execM, BitVec.toNat_eq, Nat.shiftRight_eq_div_pow]
    omega
  case vext => exact writesScalarM_of (exec_vext · i p sd vs l) (fun _ _ _ _ => rfl)
  case aaddi =>
    refine writesAddrM_of (lat := 1) (exec_aaddi · i p ad aS imm) (fun _ _ _ _ => ?_)
    simp [execM, effAddr_eq_ofInt]
  case aadd =>
    refine writesAddrM_of (lat := 1) (exec_aadd · i p ad aS ss sh) (fun _ _ _ _ => ?_)
    simp only [execM]
    rw [BitVec.ofInt_add, BitVec.ofInt_mul, BitVec.signExtend, BitVec.shiftLeft_eq_mul_twoPow, twoPow_eq_ofInt,
      BitVec.ofInt_natCast, BitVec.ofNat_toNat, BitVec.setWidth_eq]
  case amov =>
    exact writesAddrM_of (lat := 1) (exec_amov · i p ad sl sh) (fun _ t _ _ =>
      congrArg (fun a => [(⟨1, .a ad.toNat a⟩ : TWr)]) (append_half (readS t.regs sh.toNat) (readS t.regs sl.toNat)))

end Sys2Proof.Machine
end

section
/-!
SUPPORT. What the chunks of a cycle and the T slot leave of trusses and transfers, and what an issue does beyond its tile.
Then fills, transfers and exchange records (O9, O10, O11).
-/

namespace Sys2Proof.Machine

-- As in the tests: one proof at a time, so that the whole text keeps within the threads that the memory holds.
set_option Elab.async false

variable {c : Instr} {s : State} {i : Issue} {b : Bun} {p : Pred} {f : Bun → Bool}

/-! ### Trusses under chunk reads -/

@[simp] theorem trussOf_setTruss_self (t : Tile) (one : Bool) (u : Truss) : trussOf (setTruss t one u) one = u := by
  cases one <;> rfl

@[simp] theorem trussOf_setTruss_not (t : Tile) (one : Bool) (u : Truss) :
    trussOf (setTruss t one u) (!one) = trussOf t (!one) := by
  cases one <;> rfl

/-- What a chunk read leaves of a truss: all but the batches, the row being read and the rows in flight. -/
def Truss.kept (u : Truss) : Truss := { u with active := none, row := none, pending := none, inflight := [] }

theorem readChunk_kept (store : Memory) (u : Truss) : (readChunk store u).kept = u.kept := by
  unfold readChunk
  split
  · rfl
  · split
    · rfl
    · dsimp only
      split
      · rfl
      · split <;> rfl

/-- A reading of a tile's truss as a truss that a chunk read changes, or does not. -/
theorem countedChunk_truss (store : Memory) (one x : Bool) (t : Tile) :
    trussOf (countedChunk store one t) x =
      if x = one ∧ (trussOf t one).active ≠ none ∧ (trussOf t one).blocked = false then readChunk store (trussOf t one)
      else trussOf t x := by
  unfold countedChunk
  dsimp only
  by_cases h : (trussOf t one).active.isNone = true ∨ (trussOf t one).blocked = true
  · rw [if_pos h, if_neg]
    rintro ⟨-, ha, hb⟩
    rcases h with h | h
    · exact ha (by simpa using h)
    · simp [hb] at h
  · rw [if_neg h, work_trussOf (bump_work _ _ _)]
    simp only [not_or, Option.isNone_iff_eq_none, Bool.not_eq_true] at h
    obtain ⟨ha, hb⟩ := h
    cases one <;> cases x <;> simp [ha, hb] <;> rfl

@[simp] theorem passTo_trussOf (cyc : Nat) (t : Tile) (x : Bool) : trussOf (passTo cyc t) x = trussOf t x := by
  unfold passTo
  split
  · rfl
  · have h := work_trussOf ((bumpFor_work (cyc - t.seq.cycle) 0x052 t.xfer.ureqs.length _).trans
      (bumpFor_work (cyc - t.seq.cycle) 0x001 1 t)) x
    cases x <;> exact h

@[simp] theorem faultTile_trussOf (cx : Ctx) (cyc cause pc : Nat) (t : Tile) (x : Bool) :
    trussOf (faultTile cx cyc cause pc t) x = trussOf t x := by
  unfold faultTile
  dsimp only
  split
  · rfl
  · have h := passTo_trussOf cyc (setInt t (15 + cause)) x
    cases x <;> exact h

theorem chunkOrFault_kept (cx : Ctx) (cyc : Nat) (one x : Bool) (t : Tile) :
    (trussOf (chunkOrFault cx cyc one t) x).kept = (trussOf t x).kept := by
  unfold chunkOrFault
  split
  · rw [faultTile_trussOf]
  · rw [countedChunk_truss]
    split
    · rename_i h
      obtain ⟨rfl, -⟩ := h
      exact readChunk_kept _ _
    · rfl

theorem chunksRead_kept (cx : Ctx) (i : Issue) (t : Tile) (x : Bool) :
    (trussOf (chunksRead cx i t) x).kept = (trussOf t x).kept := by
  have h (one : Bool) := repeatN_keeps (fun u => (trussOf u x).kept) (f := fun _ u => chunkOrFault cx i.cycle one u)
    fun _ u => chunkOrFault_kept cx i.cycle one x u
  rw [chunksRead, h, h, passTo_trussOf]

theorem chunksNow_kept (cx : Ctx) (i : Issue) (t : Tile) (x : Bool) :
    (trussOf (chunksNow cx i t) x).kept = (trussOf t x).kept := by
  have h (n one : Bool) (u : Tile) :
      (trussOf (if n then chunkOrFault cx i.cycle one u else u) x).kept = (trussOf u x).kept := by
    split
    · exact chunkOrFault_kept cx i.cycle one x u
    · rfl
  exact (h i.now1 true _).trans (h i.now0 false t)

theorem tileActed_kept (s : State) (i : Issue) (x : Bool) :
    (trussOf (tileActed s i) x).kept = (trussOf (tileReady s i) x).kept :=
  (chunksNow_kept ..).trans (congrArg Truss.kept (work_trussOf (countImem_work ..) x))

theorem seenOf_truss (s : State) (i : Issue) (b : Bun) (x : Bool) :
    trussOf (seenOf s i b) x = trussOf (tileActed s i) x :=
  work_trussOf (seenOf_work s i b) x

/-! ### Transfers under chunk reads and T-slot operations -/

@[simp] theorem setTruss_xfer (t : Tile) (one : Bool) (u : Truss) : (setTruss t one u).xfer = t.xfer := by
  cases one <;> rfl

@[simp] theorem countedChunk_xfer (store : Memory) (one : Bool) (t : Tile) : (countedChunk store one t).xfer = t.xfer := by
  unfold countedChunk
  dsimp only
  split
  · rfl
  · exact (Tile.work_xfer (bump_work _ _ _)).trans (setTruss_xfer t one _)

@[simp] theorem passTo_xfer (cyc : Nat) (t : Tile) : (passTo cyc t).xfer = t.xfer := by
  unfold passTo
  split
  · rfl
  · have h := Tile.work_xfer ((bumpFor_work (cyc - t.seq.cycle) 0x052 t.xfer.ureqs.length _).trans
      (bumpFor_work (cyc - t.seq.cycle) 0x001 1 t))
    exact h

@[simp] theorem faultTile_xfer (cx : Ctx) (cyc cause pc : Nat) (t : Tile) :
    (faultTile cx cyc cause pc t).xfer = t.xfer := by
  unfold faultTile
  dsimp only
  split
  · rfl
  · exact passTo_xfer cyc (setInt t (15 + cause))

@[simp] theorem chunkOrFault_xfer (cx : Ctx) (cyc : Nat) (one : Bool) (t : Tile) :
    (chunkOrFault cx cyc one t).xfer = t.xfer := by
  unfold chunkOrFault
  split <;> simp

theorem chunksNow_xfer (cx : Ctx) (i : Issue) (t : Tile) : (chunksNow cx i t).xfer = t.xfer := by
  have h (n one : Bool) (u : Tile) : (if n then chunkOrFault cx i.cycle one u else u).xfer = u.xfer := by
    split <;> simp
  exact (h i.now1 true _).trans (h i.now0 false t)

theorem seenOf_xfer (s : State) (i : Issue) (b : Bun) : (seenOf s i b).xfer = (tileReady s i).xfer :=
  (Tile.work_xfer (seenOf_work s i b)).trans ((chunksNow_xfer ..).trans (Tile.work_xfer (countImem_work ..)))

@[simp] theorem execT_xfer (t0 t : Tile) (cyc : Nat) (o : TOp) : (execT t0 t cyc o).xfer = t.xfer := by
  cases o <;> simp only [execT, takeBatch]
  case trow =>
    split
    · simp
    · split <;> simp
  case tswp => exact (Tile.work_xfer (bump_work _ _ _)).trans (setTruss_xfer ..)
  all_goals simp

/-- The transfers an issuing bundle leaves are those its M slot leaves. -/
theorem issueWhen_xfer (h : Issues s i b) (hf : f b = true) :
    (tileOf (issueWhen i f s.sys).data i.tile).xfer =
      (execM (ctxOf (envOf s.sys) s.sys.data i.tile) (tileReady s i) (seenOf s i b) i.cycle (runM s i b)).1.xfer := by
  rw [(Tile.work_xfer (issueWhen_work h hf) :)]
  change (unitsOf s i b).xfer = _
  rw [unitsOf_eq, execT_xfer]

/-! ### Fills (R132, R45) -/

/-- What a fill changes of a truss: the weight buffers and the fill in progress. -/
def Truss.filled (u : Truss) : WBuf × WBuf × Bool := (u.bufA, u.bufB, u.filling)

theorem Truss.filled_of_kept {u v : Truss} (h : u.kept = v.kept) : u.filled = v.filled := by
  injection h with hA hB _ _ _ _ _ _ _ _ _ hf
  rw [Truss.filled, Truss.filled, hA, hB, hf]

theorem countedChunk_filled (store : Memory) (one x : Bool) (t : Tile) :
    (trussOf (countedChunk store one t) x).filled = (trussOf t x).filled := by
  rw [countedChunk_truss]
  split
  · rename_i h
    obtain ⟨rfl, -⟩ := h
    exact Truss.filled_of_kept (readChunk_kept _ _)
  · rfl

theorem setTruss_filled {t : Tile} {one : Bool} {u : Truss} (h : u.filled = (trussOf t one).filled) (x : Bool) :
    (trussOf (setTruss t one u) x).filled = (trussOf t x).filled := by
  by_cases hx : x = one
  · subst hx
    rw [trussOf_setTruss_self, h]
  · obtain rfl : x = !one := by cases x <;> cases one <;> simp_all
    rw [trussOf_setTruss_not]

/-- A T-slot operation fills no weight buffer. -/
theorem execT_filled (t0 t : Tile) (cyc : Nat) (o : TOp) (x : Bool) :
    (trussOf (execT t0 t cyc o) x).filled = (trussOf t x).filled := by
  cases o <;> simp only [execT, takeBatch]
  case trow =>
    split
    · exact (countedChunk_filled ..).trans (setTruss_filled (by rfl) x)
    · split <;> exact setTruss_filled (by rfl) x
  case tswp => exact (congrArg Truss.filled (work_trussOf (bump_work _ _ _) x)).trans (setTruss_filled (by rfl) x)
  all_goals exact setTruss_filled (by rfl) x

theorem fillTarget_fillBuf (k : FillKind) (w : WBuf) (a : Nat) (bs : List Byte) :
    fillTarget k (fillBuf w k a bs) = writeBytes (fillTarget k w) a bs := by
  cases k <;> rfl

/-- The truss after a fill of its inactive buffer began. -/
def fillingWith (u : Truss) (k : FillKind) (so : Nat) (bs : List Byte) : Truss :=
  { setInactive u (fillBuf (inactiveBuf u) k (512 * so) bs) with filling := true }

theorem fillingWith_idle (u : Truss) (k : FillKind) (so : Nat) (bs : List Byte) :
    idleBuf u (fillingWith u k so bs) = fillBuf (inactiveBuf u) k (512 * so) bs := by
  unfold idleBuf fillingWith setInactive inactiveBuf
  cases u.activeB <;> rfl

theorem idleBuf_of_filled {old u v : Truss} (h : u.filled = v.filled) : idleBuf old u = idleBuf old v := by
  injection h with hA h
  injection h with hB hf
  rw [idleBuf, idleBuf, hA, hB]

/-- The truss of a WFILL's bundle is filled as its M slot leaves it. -/
theorem IssuesM.exec_filled {o : MOp} (h : IssuesM s i b p o)
    (hc : ∀ s, exec c s = .next { s with sys := issueM i p o s.sys }) (x : Bool) :
    ∃ t, exec c s = .next t ∧ (trussOf (tileIn t i.tile) x).filled =
      (trussOf (execM (ctxOf (envOf s.sys) s.sys.data i.tile) (tileReady s i) (seenOf s i b) i.cycle o).1 x).filled := by
  obtain ⟨f, hf, he⟩ := h.drives hc
  refine ⟨_, he s, ?_⟩
  simp only [tileIn]
  rw [issueWhen_truss h.issues hf, unitsOf_eq, execT_filled, h.runM_eq]

theorem fillSpan_eq (u : W32) : fillSpan u = (u.toNat % 2 ^ 9, u.toNat / 2 ^ 16 % 2 ^ 10) := by
  simp [fillSpan, Nat.shiftRight_eq_div_pow]

theorem execM_wfill_none {cx : Ctx} {t0 t : Tile} {cyc : Nat} {one : Bool} {k : FillKind} {aS : BitVec 4} {sU : BitVec 5}
    (h : (fillSpan (readS t0.regs sU.toNat)).2 = 0) : (execM cx t0 t cyc (.wfill one k aS sU)).1 = t := by
  simp only [execM, h, if_true]

theorem execM_wfill_truss {cx : Ctx} {t0 t : Tile} {cyc : Nat} {one : Bool} {k : FillKind} {aS : BitVec 4} {sU : BitVec 5}
    (h : (fillSpan (readS t0.regs sU.toNat)).2 ≠ 0) :
    trussOf (execM cx t0 t cyc (.wfill one k aS sU)).1 one =
      fillingWith (trussOf t one) k (fillSpan (readS t0.regs sU.toNat)).1
        (readBytes t0.store (alignDown (readA t0.regs aS.toNat).toNat 6) (512 * (fillSpan (readS t0.regs sU.toNat)).2)) := by
  simp only [execM, h, if_false]
  rw [work_trussOf (bump_work _ _ _), trussOf_setTruss_self]
  rfl

theorem wfill_fills {one : Bool} {k : FillKind} {aS : BitVec 4} {sU : BitVec 5}
    (h : IssuesM s i b p (.wfill one k aS sU)) :
    let so := (readS (tileIn s i.tile).regs sU.toNat).toNat % 2 ^ 9
    let sn := (readS (tileIn s i.tile).regs sU.toNat).toNat / 2 ^ 16 % 2 ^ 10
    let old := trussOf (tileActed s i) one
    ∃ t, exec (.wfill i p one k aS sU) s = .next t ∧
      (sn = 0 → (trussOf (tileIn t i.tile) one).filling = old.filling ∧
        (trussOf (tileIn t i.tile) one).bufA = old.bufA ∧ (trussOf (tileIn t i.tile) one).bufB = old.bufB) ∧
      (sn ≠ 0 → (trussOf (tileIn t i.tile) one).filling = true ∧
        ∀ n < 512 * sn, readByte (fillTarget k (idleBuf old (trussOf (tileIn t i.tile) one))) (512 * so + n) =
          readByte (tileIn s i.tile).store (alignedAt (tileIn s i.tile).regs aS 0 6 + n)) := by
  intro so sn old
  obtain ⟨t, ht, hu⟩ := h.exec_filled (exec_wfill · i p one k aS sU) one
  have hspan : fillSpan (readS (tileReady s i).regs sU.toNat) = (so, sn) := by rw [fillSpan_eq, regs_tileReady]
  refine ⟨t, ht, fun hn => ?_, fun hn => ?_⟩
  · rw [execM_wfill_none (by rw [hspan]; exact hn), seenOf_truss] at hu
    injection hu with hA hu
    injection hu with hB hf
    exact ⟨hf, hA, hB⟩
  · rw [execM_wfill_truss (by rw [hspan]; exact hn), seenOf_truss, hspan, ← alignedAt_zero, regs_tileReady,
      store_tileReady] at hu
    have hidle := idleBuf_of_filled (old := old) hu
    injection hu with hA hu
    injection hu with hB hf
    refine ⟨hf, fun n hlt => ?_⟩
    rw [hidle, fillingWith_idle, fillTarget_fillBuf, readByte_writeBytes _ _ _ _ (by simpa using hlt), readBytes_getElem]

/-- Settles O9: WFILL by its count; WFILL_DONE ends the fill of its truss. -/
theorem fillsWriteTheInactiveBuffer : Obligations.FillsWriteTheInactiveBuffer := by
  unfold Obligations.FillsWriteTheInactiveBuffer
  refine fun s i b p one => ⟨fun k aS sU => wfill_fills, fun ix hon => ⟨_, exec_wfillDone s ix one, ?_⟩⟩
  simp only [tileIn, tileStep, hon, if_true, onData_data, tileOf_onTile, fillDone, trussOf_setTruss_self]

end Sys2Proof.Machine
end

section
/-!
SUPPORT. What an issue does beyond its tile, and the sticky flags it leaves set. Then arms, transfers and exchange records
(O10, O11).
-/

namespace Sys2Proof.Machine

-- As in the tests: one proof at a time, so that the whole text keeps within the threads that the memory holds.
set_option Elab.async false

variable {c : Instr} {s : State} {i : Issue} {b : Bun} {p : Pred} {f : Bun → Bool}

/-! ### Beyond the tile -/

@[simp] theorem setTile_mesh (e : Env) (ix : Nat) (t : Tile) (d : Data) : (setTile e ix t d).mesh = d.mesh := by
  simp only [setTile]
  split <;> rfl

@[simp] theorem setTile_beat (e : Env) (ix : Nat) (t : Tile) (d : Data) : (setTile e ix t d).beat = d.beat := by
  simp only [setTile]
  split <;> rfl

@[simp] theorem setField_mesh (e : Env) (n : Nat) (g : Field) (d : Data) : (setField e n g d).mesh = d.mesh := by
  simp only [setField]
  split <;> rfl

@[simp] theorem setField_beat (e : Env) (n : Nat) (g : Field) (d : Data) : (setField e n g d).beat = d.beat := by
  simp only [setField]
  split <;> rfl

/-- What the M slot of an issuing bundle does beyond its tile. -/
def effOf (s : State) (i : Issue) (b : Bun) : Eff :=
  (execM (ctxOf (envOf s.sys) s.sys.data i.tile) (tileReady s i) (seenOf s i b) i.cycle (runM s i b)).2.2

/-- The data plane an issuing bundle leaves: its tile in place, and what its M slot does beyond it. -/
theorem issueWhen_data (h : Issues s i b) (hf : f b = true) :
    ∃ t x, (issueWhen i f s.sys).data =
        applyEff (envOf s.sys) i.tile (tileOf s.sys.data i.tile) t x (setTile (envOf s.sys) i.tile t s.sys.data) ∧
      x.carried = (effOf s i b).carried ∧ x.lateArms = (effOf s i b).lateArms := by
  obtain ⟨hon, hm, he, hd, hi, hh, hu, hn⟩ := h
  obtain ⟨w, hw, rfl⟩ := Option.map_eq_some_iff.mp hd
  have hw' : fetched (tileOf s.sys.data i.tile) = some w := hw ▸ (chunksRead_fetched ..).symm
  simp only [issueWhen, hw', hf, if_true, tileStep, hon, onData_data, onTile]
  rw [issueBundle_issues hm hw he hi hh hu hn]
  refine ⟨_, _, rfl, ?_, ?_⟩ <;> rw [effOf, runM, ← opOr_tileReady] <;> rfl

theorem applyEff_xrecs (e : Env) (ix : Nat) (old new : Tile) (x : Eff) (d : Data) :
    (applyEff e ix old new x d).mesh.xrecs =
      d.mesh.xrecs ++ x.carried.map fun c => ⟨ix, d.beat.count, c.record, c.rank, c.index⟩ := by
  simp only [applyEff]
  split
  · rfl
  · rw [setField_mesh]

theorem onRtr_intStatus (g : Rtr → Rtr) (ix : Nat) (x : Field) : (onRtr g ix x).intStatus = x.intStatus := rfl

/-- An arm that came late sets late_arm in its tile's field (R120). -/
theorem applyEff_lateArm {e : Env} {ix : Nat} {old new : Tile} {x : Eff} {d : Data} (h : x.lateArms ≠ 0) :
    (fieldOf (applyEff e ix old new x d) (tileField ix)).intStatus.getLsbD fbitLateArm = true := by
  simp only [applyEff, h, false_and, if_false, fieldOf, setField_fields, look_put_self]
  split
  · exact fieldInt_getLsbD_self _ (by decide)
  · rw [onRtr_intStatus]
    exact fieldInt_getLsbD_self _ (by decide)

/-! ### Arms (R119, R120) -/

/-- The transfers an M-slot command leaves are those its operation makes. -/
theorem IssuesM.exec_xfer {o : MOp} (h : IssuesM s i b p o)
    (hc : ∀ s, exec c s = .next { s with sys := issueM i p o s.sys }) :
    ∃ f, f b = true ∧ exec c s = .next { s with sys := issueWhen i f s.sys } ∧
      (tileOf (issueWhen i f s.sys).data i.tile).xfer =
        (execM (ctxOf (envOf s.sys) s.sys.data i.tile) (tileReady s i) (seenOf s i b) i.cycle o).1.xfer := by
  obtain ⟨f, hf, he⟩ := h.drives hc
  exact ⟨f, hf, he s, h.runM_eq ▸ issueWhen_xfer h.issues hf⟩

theorem sarmStack_eq (t : Tile) (aR : BitVec 4) : sarmStack t aR = alignedAt t.regs aR 0 6 :=
  (alignedAt_zero ..).symm

theorem execM_sarm_inTime {cx : Ctx} {t0 t : Tile} {cyc : Nat} {aL : BitVec 4} {tag : BitVec 12} {ur : Bool}
    {aR : BitVec 4} (h : cyc + 1 < schedSlot (look 0 t0.xfer.sched tag.toNat)) :
    look none (execM cx t0 t cyc (.sarm aL tag ur aR)).1.xfer.armed tag.toNat =
      some ⟨readA t0.regs aL.toNat, if ur then some (sarmStack t0 aR - stackBase) else none, 0⟩ := by
  simp only [execM, Nat.not_le.mpr h, if_false, look_put_self]

theorem execM_sarm_late {cx : Ctx} {t0 t : Tile} {cyc : Nat} {aL : BitVec 4} {tag : BitVec 12} {ur : Bool}
    {aR : BitVec 4} (h : schedSlot (look 0 t0.xfer.sched tag.toNat) ≤ cyc + 1) :
    (execM cx t0 t cyc (.sarm aL tag ur aR)).1.xfer = t.xfer ∧
      (execM cx t0 t cyc (.sarm aL tag ur aR)).2.2.lateArms = 1 := by
  simp only [execM, h, if_true, and_true]
  exact Tile.work_xfer ((bump_work _ _ _).trans (bump_work _ _ _))

theorem sarm_arms {aL : BitVec 4} {tag : BitVec 12} {ur : Bool} {aR : BitVec 4}
    (h : IssuesM s i b p (.sarm aL tag ur aR)) :
    ∃ t, exec (.sarm i p aL tag ur aR) s = .next t ∧
      (i.cycle + 1 < schedSlot (look 0 (tileReady s i).xfer.sched tag.toNat) →
        look none (tileIn t i.tile).xfer.armed tag.toNat =
          some ⟨readA (tileIn s i.tile).regs aL.toNat,
            if ur then some (alignedAt (tileIn s i.tile).regs aR 0 6 - 0x1000000000) else none, 0⟩) ∧
      (schedSlot (look 0 (tileReady s i).xfer.sched tag.toNat) ≤ i.cycle + 1 →
        (tileIn t i.tile).xfer.armed = (tileReady s i).xfer.armed ∧
        (fieldOf t.sys.data (tileField i.tile)).intStatus.getLsbD 2 = true) := by
  obtain ⟨f, hf, he, hx⟩ := h.exec_xfer (exec_sarm · i p aL tag ur aR)
  refine ⟨_, he, fun hin => ?_, fun hlate => ?_⟩
  · change look none (tileOf (issueWhen i f s.sys).data i.tile).xfer.armed tag.toNat = _
    rw [hx, execM_sarm_inTime hin, sarmStack_eq, regs_tileReady, stackBase]
  · obtain ⟨hxfer, heff⟩ := execM_sarm_late (cx := ctxOf (envOf s.sys) s.sys.data i.tile) (t := seenOf s i b)
      (aL := aL) (ur := ur) (aR := aR) hlate
    obtain ⟨t, x, hd, -, hl⟩ := issueWhen_data h.issues hf
    refine ⟨?_, ?_⟩
    · simp only [tileIn]
      rw [hx, hxfer, seenOf_xfer]
    · change (fieldOf (issueWhen i f s.sys).data (tileField i.tile)).intStatus.getLsbD fbitLateArm = true
      rw [hd]
      refine applyEff_lateArm ?_
      rw [hl, effOf, h.runM_eq, heff]
      decide

/-! ### Transfers (R122, R123) -/

theorem leNat_append (xs ys : List Byte) : leNat (xs ++ ys) = leNat xs + 256 ^ xs.length * leNat ys := by
  induction xs with
  | nil => simp [leNat]
  | cons x xs ih =>
    rw [List.cons_append, leNat, leNat, ih, List.length_cons, Nat.pow_succ']
    ring

theorem leNat_lt (xs : List Byte) : leNat xs < 256 ^ xs.length := by
  induction xs with
  | nil => simp [leNat]
  | cons x xs ih =>
    have := x.isLt
    rw [leNat, List.length_cons, Nat.pow_succ']
    omega

/-- The bytes from `k` on of a little-endian number are its digits from `k` on (R2). -/
theorem leNat_readBytes_slice (m : Memory) (a k j n : Nat) :
    leNat (readBytes m a (k + (j + n))) / 256 ^ k % 256 ^ j = leNat (readBytes m (a + k) j) := by
  have hk := leNat_lt (readBytes m a k)
  have hj := leNat_lt (readBytes m (a + k) j)
  rw [readBytes_length] at hk hj
  rw [readBytes_add, readBytes_add, leNat_append, leNat_append, readBytes_length, readBytes_length,
    Nat.add_mul_div_left _ _ (Nat.pow_pos (by decide)), Nat.div_eq_of_lt hk, Nat.zero_add, Nat.add_mul_mod_self_left,
    Nat.mod_eq_of_lt hj]

theorem leNat_readBytes_one (m : Memory) (a : Nat) : leNat (readBytes m a 1) = (readByte m a).toNat := by
  simp [readBytes, leNat]

/-- The transfer a 32 B descriptor asks for, read byte by byte (R123). -/
theorem ureqOf_descriptor (cx : Ctx) (id : Nat) (m : Memory) (a : Nat) :
    let u := ureqOf cx id (leNat (readBytes m a 32))
    u.id = id ∧ u.moved = 0 ∧ u.remote.toNat = wordAt m a + 2 ^ 32 * wordAt m (a + 4) ∧ u.kind = readByte m (a + 15) ∧
      u.len = 64 * ((readByte m (a + 12)).toNat + 2 ^ 8 * (readByte m (a + 13)).toNat + 1) ∧
      u.cvalue = BitVec.ofNat 32 (wordAt m (a + 28)) := by
  have hremote : bits 63 0 (leNat (readBytes m a 32)) = wordAt m a + 2 ^ 32 * wordAt m (a + 4) := by
    have h := leNat_readBytes_slice m a 0 8 24
    rw [show readBytes m (a + 0) 8 = _ from readBytes_add m (a + 0) 4 4, leNat_append, readBytes_length] at h
    rw [wordAt_eq_leNat, wordAt_eq_leNat]
    exact h
  have hkind : bits 127 120 (leNat (readBytes m a 32)) = (readByte m (a + 15)).toNat := by
    rw [← leNat_readBytes_one]
    exact leNat_readBytes_slice m a 15 1 16
  have hlen : bits 111 96 (leNat (readBytes m a 32)) =
      (readByte m (a + 12)).toNat + 2 ^ 8 * (readByte m (a + 13)).toNat := by
    have h := leNat_readBytes_slice m a 12 2 18
    simp only [readBytes, leNat, Nat.mul_zero, Nat.add_zero] at h
    exact h
  have hvalue : bits 255 224 (leNat (readBytes m a 32)) = wordAt m (a + 28) := by
    rw [wordAt_eq_leNat]
    exact leNat_readBytes_slice m a 28 4 0
  have hw0 := leNat_lt (readBytes m a 4)
  have hw4 := leNat_lt (readBytes m (a + 4) 4)
  rw [readBytes_length, ← wordAt_eq_leNat] at hw0 hw4
  refine ⟨rfl, rfl, ?_, ?_, ?_, ?_⟩ <;> simp only [ureqOf]
  · rw [hremote, BitVec.toNat_ofNat]
    omega
  · rw [hkind, BitVec.ofNat_toNat, BitVec.setWidth_eq]
  · rw [hlen]
  · rw [hvalue]

/-- With fewer than 16 transfers the free number is the smallest that none of them has. -/
theorem freeUreqId_free {us : List Ureq} (h : us.length < 16) :
    (∀ v ∈ us, v.id ≠ freeUreqId us) ∧ ∀ n < freeUreqId us, ∃ v ∈ us, v.id = n := by
  unfold freeUreqId
  cases hf : (List.range 17).find? fun n => us.all fun u => u.id ≠ n with
  | none =>
    rw [List.find?_eq_none] at hf
    have hsub : Finset.range 17 ⊆ (us.map Ureq.id).toFinset := by
      intro n hn
      have := hf n (by simpa using hn)
      simpa using this
    have hcard := (Finset.card_le_card hsub).trans (List.toFinset_card_le _)
    simp at hcard
    omega
  | some k =>
    rw [List.find?_range_eq_some] at hf
    obtain ⟨hk, -, hmin⟩ := hf
    rw [Option.getD_some]
    refine ⟨by simpa using hk, fun n hn => ?_⟩
    simpa using hmin n hn

theorem hold_ite_eq_none {q : Prop} [Decidable q] {w : Hold} {x : Option Hold} :
    (if q then some w else x) = none ↔ ¬q ∧ x = none := by
  split <;> simp [*]

/-- A UREQ that issues finds a free transfer number (R122). -/
theorem IssuesM.ureqs_lt {aD : BitVec 4} (h : IssuesM s i b p (.ureq aD)) : (tileReady s i).xfer.ureqs.length < 16 := by
  have hm : opOr .nop (tileReady s i).regs b.m = .ureq aD := (opOr_tileReady _ _).trans h.runM_eq
  obtain ⟨-, -, -, -, -, hh, -⟩ := h.issues
  rw [bundleHold] at hh
  simp only [hm, hold_ite_eq_none] at hh
  obtain ⟨-, -, -, -, -, -, -, -, hfull, -⟩ := hh
  exact Nat.not_le.mp fun hle => hfull ⟨trivial, hle⟩

theorem ureq_takes {aD : BitVec 4} (h : IssuesM s i b p (.ureq aD)) :
    ∃ t u, exec (.ureq i p aD) s = .next t ∧ (tileIn t i.tile).xfer.ureqs = (tileReady s i).xfer.ureqs ++ [u] ∧
      (∀ v ∈ (tileReady s i).xfer.ureqs, v.id ≠ u.id) ∧ (∀ n < u.id, ∃ v ∈ (tileReady s i).xfer.ureqs, v.id = n) ∧
      u.moved = 0 ∧
      let a := alignedAt (tileIn s i.tile).regs aD 0 5
      let m := (tileIn s i.tile).store
      u.remote.toNat = wordAt m a + 2 ^ 32 * wordAt m (a + 4) ∧ u.kind = readByte m (a + 15) ∧
      u.len = 64 * ((readByte m (a + 12)).toNat + 2 ^ 8 * (readByte m (a + 13)).toNat + 1) ∧
      u.cvalue = BitVec.ofNat 32 (wordAt m (a + 28)) := by
  obtain ⟨hnew, hmin⟩ := freeUreqId_free h.ureqs_lt
  obtain ⟨f, -, he, hx⟩ := h.exec_xfer (exec_ureq · i p aD)
  obtain ⟨hid, hmoved, hdesc⟩ := ureqOf_descriptor (ctxOf (envOf s.sys) s.sys.data i.tile)
    (freeUreqId (tileReady s i).xfer.ureqs) (tileIn s i.tile).store (alignedAt (tileIn s i.tile).regs aD 0 5)
  refine ⟨_, _, he, ?_, hid ▸ hnew, hid ▸ hmin, hmoved, hdesc⟩
  change (tileOf (issueWhen i f s.sys).data i.tile).xfer.ureqs = _
  rw [hx]
  simp only [execM]
  rw [Tile.work_xfer (bump_work _ _ _), seenOf_xfer, store_tileReady, ← alignedAt_zero, regs_tileReady]

/-- The words of a completion word: the status and the value (R123). -/
theorem wordAt_completion (m : Memory) (a : Nat) (status : BitVec 16) (value : W32) :
    wordAt (writeBytes m a (natLe 8 (status.toNat + 2 ^ 32 * value.toNat))) a = status.toNat ∧
      wordAt (writeBytes m a (natLe 8 (status.toNat + 2 ^ 32 * value.toNat))) (a + 4) = value.toNat := by
  have hs := status.isLt
  have hv := value.isLt
  have hread : readBytes (writeBytes m a (natLe 8 (status.toNat + 2 ^ 32 * value.toNat))) a 8 =
      natLe 8 (status.toNat + 2 ^ 32 * value.toNat) := by
    have h := readBytes_writeBytes (natLe 8 (status.toNat + 2 ^ 32 * value.toNat)) m a
    rwa [natLe_length] at h
  have hlow := leNat_readBytes_slice (writeBytes m a (natLe 8 (status.toNat + 2 ^ 32 * value.toNat))) a 0 4 4
  have hhigh := leNat_readBytes_slice (writeBytes m a (natLe 8 (status.toNat + 2 ^ 32 * value.toNat))) a 4 4 0
  simp only [Nat.zero_add, Nat.add_zero, Nat.reduceAdd] at hlow hhigh
  rw [hread, leNat_natLe] at hlow hhigh
  rw [wordAt_eq_leNat, wordAt_eq_leNat, ← hlow, ← hhigh]
  omega

theorem ureqCompletion_ends {ix : TileIx} {id : Fin 16} {u : Ureq}
    (hu : (tileIn s ix).xfer.ureqs.find? (fun v => v.id = id.val) = some u) (hd : u.len ≤ u.moved ∨ u.status = 1)
    (hp : ∀ q ∈ s.sys.data.mesh.packets, q.data = none → q.tile = ix.val → q.id ≠ id.val) :
    ∃ t, exec (.ureqCompletion ix id) s = .next t ∧
      wordAt (tileIn t ix).store u.coff.toNat = u.status.toNat ∧
      wordAt (tileIn t ix).store (u.coff.toNat + 4) = u.cvalue.toNat ∧
      (∀ v ∈ (tileIn t ix).xfer.ureqs, v.id ≠ id.val) ∧
      ∀ a, (a < u.coff.toNat ∨ u.coff.toNat + 8 ≤ a) →
        readByte (tileIn t ix).store a = readByte (tileIn s ix).store a := by
  have hflight : (s.sys.data.mesh.packets.any fun q => q.data.isNone && q.tile == ix.val && q.id == id.val) = false := by
    simpa [List.any_eq_false] using fun q hq hn ht => hp q hq hn ht
  have hnot : ¬((u.moved < u.len ∧ u.status ≠ 1) ∨ False) := by
    rcases hd with h | h
    · simp [Nat.not_lt.mpr h]
    · simp [h]
  rw [tileIn] at hu
  refine ⟨_, exec_ureqCompletion s ix id, ?_⟩
  simp only [tileIn, onData_data, ureqComplete, hu, hflight, Bool.false_eq_true, if_neg hnot, tileOf_editTile, if_true]
  have hwork (t : Tile) : (setIntIf u.escaped (bump 0x051 1 t) bitEscape).work = t.work :=
    (setIntIf_work _ _ _).trans (bump_work _ _ _)
  rw [Tile.work_store (hwork _), Tile.work_xfer (hwork _)]
  obtain ⟨hstatus, hvalue⟩ := wordAt_completion (tileOf s.sys.data ix).store u.coff.toNat u.status u.cvalue
  refine ⟨hstatus, hvalue, fun v hv => ?_, fun a ha => ?_⟩
  · simpa using (List.mem_filter.mp hv).2
  · exact writeStore_store_of_out _ (by simpa using ha)

/-- Settles O10: SARM by its slot cycle, UREQ by its descriptor, a completed transfer by its completion word. -/
theorem transfersAreArmedTakenAndCompleted : Obligations.TransfersAreArmedTakenAndCompleted := by
  unfold Obligations.TransfersAreArmedTakenAndCompleted
  exact ⟨fun s i b p aL tag ur aR => sarm_arms, fun s i b p aD => ureq_takes,
    fun s ix id u => ureqCompletion_ends⟩

/-! ### Sticky flags that an issue leaves set -/

variable {n : Nat} {t : Tile}

theorem setTruss_flagSet (one : Bool) (u : Truss) (h : t.flagSet n) : (setTruss t one u).flagSet n := by
  cases one <;> exact h

theorem countedChunk_flagSet (store : Memory) (one : Bool) (h : t.flagSet n) : (countedChunk store one t).flagSet n := by
  unfold countedChunk
  dsimp only
  split
  · exact h
  · exact bump_flagSet _ _ (setTruss_flagSet one _ h)

theorem execT_flagSet (t0 : Tile) (cyc : Nat) (o : TOp) (h : t.flagSet n) : (execT t0 t cyc o).flagSet n := by
  cases o <;> simp only [execT, takeBatch]
  case nop => exact h
  case trow =>
    split
    · exact countedChunk_flagSet _ _ (setTruss_flagSet _ _ h)
    · split <;> exact setTruss_flagSet _ _ h
  case tswp => exact bump_flagSet _ _ (setTruss_flagSet _ _ h)
  all_goals exact setTruss_flagSet _ _ h

theorem forceInt_flagSet (mask : W64) (h : t.flagSet n) : (forceInt t mask).flagSet n := by
  unfold Tile.flagSet at h
  simp [Tile.flagSet, forceInt, h]

/-- A CSR write clears a sticky flag only at the offset of int_status (R62). -/
theorem csrWrite_flagSet (cx : Ctx) {off : Nat} (v : W64) (ho : off ≠ 0x0040) (h : t.flagSet n) :
    (csrWrite cx t off v).flagSet n := by
  have hsamp : (writeSampCtrl t v).flagSet n := by
    simp only [writeSampCtrl]
    split <;> exact h
  have hbw : (writeBwCtrl t v).flagSet n := by
    simp only [writeBwCtrl]
    split
    · exact h
    · split <;> exact h
  have hite {q : Prop} [Decidable q] {u w : Tile} (hu : u.flagSet n) (hw : w.flagSet n) : (if q then u else w).flagSet n := by
    split
    · exact hu
    · exact hw
  rw [csrWrite, if_neg ho]
  exact hite (hite h h) <| hite h <| hite (forceInt_flagSet v h) <| hite (hite h h) <| hite (hite h h) <| hite h <|
    hite h <| hite h <| hite hsamp <| hite h <| hite h <| hite hbw h

theorem csrwRest_flagSet (cx : Ctx) (t0 : Tile) (w : Option (Nat × W64)) (h : t.flagSet n) :
    (csrwRest cx t0 t w).flagSet n := by
  unfold csrwRest
  split
  · exact h
  · dsimp only
    split
    · exact h
    · rename_i ho
      split <;> exact csrWrite_flagSet cx _ ho h

/-- A flag that the M slot leaves set stands when its bundle has issued. -/
theorem issueNow_flagSet {cx : Ctx} {ix : Nat} {w : Bundle} {pc : Nat} {t0 tn : Tile}
    (h : (execM cx t0 (issueSeen pc i (execC cx ix t0 pc (opOr .nop t0.regs b.c)).csrw t0 tn) i.cycle
      (opOr .nop t0.regs b.m)).1.flagSet n) : (issueNow cx ix i w b pc t0 tn).1.flagSet n := by
  unfold issueNow
  dsimp only
  refine csrwRest_flagSet _ _ _ (sampleIssue_flagSet _ _ _ _ _ _ _ _ _ (countStore_flagSet _ (countIssue_flagSet _ _ _ _ _
    (setIntIf_flagSet _ _ (setIntIf_flagSet _ _ (setIntIf_flagSet _ _ ?_))))))
  exact execT_flagSet t0 i.cycle (opOr .nop t0.regs b.t) h

theorem issueWhen_flagSet (h : Issues s i b) (hf : f b = true)
    (hn : (execM (ctxOf (envOf s.sys) s.sys.data i.tile) (tileReady s i) (seenOf s i b) i.cycle (runM s i b)).1.flagSet n) :
    (tileOf (issueWhen i f s.sys).data i.tile).flagSet n := by
  obtain ⟨w, -, e⟩ := issueWhen_tile h hf
  rw [e]
  rw [runM, ← opOr_tileReady] at hn
  exact issueNow_flagSet hn

/-! ### Exchange records (R215, R216) -/

theorem exchangeSend_issued (t : Tile) (x : XRecord) :
    look 0 (exchangeSend t x).1.xfer.issuedX x.cls.toNat = look 0 t.xfer.issuedX x.cls.toNat + 1 := by
  simp only [exchangeSend]
  split
  · rw [Tile.work_xfer (bump_work _ _ _), look_put_self]
  · have hput := look_put_self 0 t.xfer.issuedX x.cls.toNat (look 0 t.xfer.issuedX x.cls.toNat + 1)
    split <;> rw [Tile.work_xfer (bump_work _ _ _)] <;> simp only [setInt, hput]

/-- A record below its class's capacity is carried with its sender's rank and its index. -/
theorem exchangeSend_carried {t : Tile} {x : XRecord}
    (h : look 0 t.xfer.issuedX x.cls.toNat < (xclassOf t x.cls.toNat).cap) :
    (exchangeSend t x).2.1 = some ⟨x, (xclassOf t x.cls.toNat).rank, look 0 t.xfer.issuedX x.cls.toNat⟩ ∧
      (exchangeSend t x).1.xfer.deferred = t.xfer.deferred := by
  simp only [exchangeSend, h, if_true, true_and]
  rw [Tile.work_xfer (bump_work _ _ _)]

/-- A record above it is carried nowhere: it is deferred where its class defers and a place is free, and xchg_limit is set. -/
theorem exchangeSend_limited {t : Tile} {x : XRecord}
    (h : (xclassOf t x.cls.toNat).cap ≤ look 0 t.xfer.issuedX x.cls.toNat) :
    (exchangeSend t x).2.1 = none ∧ (exchangeSend t x).1.flagSet bitXlimit ∧
      (exchangeSend t x).1.xfer.deferred =
        if (xclassOf t x.cls.toNat).defer ∧ t.xfer.deferred.length < 64 then t.xfer.deferred ++ [x] else t.xfer.deferred := by
  simp only [exchangeSend, if_neg (Nat.not_lt.mpr h)]
  split
  · rename_i hd
    have hd : (xclassOf t x.cls.toNat).defer = true ∧ t.xfer.deferred.length < 64 := hd
    refine ⟨rfl, bump_flagSet _ _ (setInt_flagSet_self _ (by decide)), ?_⟩
    rw [Tile.work_xfer (bump_work _ _ _), if_pos hd]
    rfl
  · rename_i hd
    have hd : ¬((xclassOf t x.cls.toNat).defer = true ∧ t.xfer.deferred.length < 64) := hd
    refine ⟨rfl, bump_flagSet _ _ (setInt_flagSet_self _ (by decide)), ?_⟩
    rw [Tile.work_xfer (bump_work _ _ _), if_neg hd]
    rfl

theorem xclassOf_congr {t u : Tile} (h : t.xfer = u.xfer) (k : Nat) : xclassOf t k = xclassOf u k := by
  rw [xclassOf, xclassOf, h]

/-- The record that an XSND sends (R125). -/
def sentRecord (t : Tile) (aS : BitVec 4) (sD : BitVec 5) (cls : BitVec 4) (len : BitVec 2) : XRecord :=
  let d := readS t.regs sD.toNat
  ⟨d.extractLsb' 10 8, d.extractLsb' 5 5, d.extractLsb' 0 5, cls,
    readBytes t.store (alignedAt t.regs aS 0 6) (64 * 2 ^ len.toNat)⟩

theorem sentRecord_congr {t u : Tile} (hr : t.regs = u.regs) (hs : t.store = u.store) (aS : BitVec 4) (sD : BitVec 5)
    (cls : BitVec 4) (len : BitVec 2) : sentRecord t aS sD cls len = sentRecord u aS sD cls len := by
  rw [sentRecord, sentRecord, hr, hs]

theorem execM_xsnd (cx : Ctx) (t0 t : Tile) (cyc : Nat) (aS : BitVec 4) (sD : BitVec 5) (cls : BitVec 4) (len : BitVec 2) :
    (execM cx t0 t cyc (.xsnd aS sD cls len)).1 = (exchangeSend t (sentRecord t0 aS sD cls len)).1 ∧
      (execM cx t0 t cyc (.xsnd aS sD cls len)).2.2.carried =
        (exchangeSend t (sentRecord t0 aS sD cls len)).2.1.toList := by
  simp only [execM, sentRecord, alignedAt_zero, and_self]

theorem xsnd_sends {aS : BitVec 4} {sD : BitVec 5} {cls : BitVec 4} {len : BitVec 2}
    (h : IssuesM s i b p (.xsnd aS sD cls len)) :
    let x := xclassOf (tileReady s i) cls.toNat
    let n := look 0 (tileReady s i).xfer.issuedX cls.toNat
    ∃ t r, exec (.xsnd i p aS sD cls len) s = .next t ∧ look 0 (tileIn t i.tile).xfer.issuedX cls.toNat = n + 1 ∧
      r.cls = cls ∧ r.data = readBytes (tileIn s i.tile).store (alignedAt (tileIn s i.tile).regs aS 0 6)
        (64 * 2 ^ len.toNat) ∧
      (n < x.cap → (tileIn t i.tile).xfer.deferred = (tileReady s i).xfer.deferred ∧
        ∃ f, t.sys.data.mesh.xrecs = s.sys.data.mesh.xrecs ++ [f] ∧ f.record = r ∧ f.rank = x.rank ∧ f.index = n) ∧
      (x.cap ≤ n → t.sys.data.mesh.xrecs = s.sys.data.mesh.xrecs ∧ (tileIn t i.tile).csr.intStatus.getLsbD 7 = true ∧
        (tileIn t i.tile).xfer.deferred =
          if x.defer ∧ (tileReady s i).xfer.deferred.length < 64 then (tileReady s i).xfer.deferred ++ [r]
          else (tileReady s i).xfer.deferred) := by
  intro x n
  let r := sentRecord (tileIn s i.tile) aS sD cls len
  obtain ⟨hm1, hm2⟩ := execM_xsnd (ctxOf (envOf s.sys) s.sys.data i.tile) (tileReady s i) (seenOf s i b) i.cycle aS sD cls len
  rw [sentRecord_congr regs_tileReady store_tileReady] at hm1 hm2
  have hxfer := seenOf_xfer s i b
  have hclass : xclassOf (seenOf s i b) r.cls.toNat = x := xclassOf_congr hxfer _
  have hcount : look 0 (seenOf s i b).xfer.issuedX r.cls.toNat = n := by rw [hxfer]; rfl
  obtain ⟨f, hf, he, hx⟩ := h.exec_xfer (exec_xsnd · i p aS sD cls len)
  rw [hm1] at hx
  obtain ⟨t, e, hd, hcarried, -⟩ := issueWhen_data h.issues hf
  rw [effOf, h.runM_eq, hm2] at hcarried
  have hxrecs : (issueWhen i f s.sys).data.mesh.xrecs = s.sys.data.mesh.xrecs ++
      (exchangeSend (seenOf s i b) r).2.1.toList.map fun c =>
        ⟨i.tile, s.sys.data.beat.count, c.record, c.rank, c.index⟩ := by
    rw [hd, applyEff_xrecs, setTile_mesh, setTile_beat, hcarried]
  refine ⟨_, r, he, ?_, rfl, rfl, fun hlt => ?_, fun hle => ?_⟩
  · change look 0 (tileOf (issueWhen i f s.sys).data i.tile).xfer.issuedX cls.toNat = _
    rw [hx]
    exact (exchangeSend_issued _ r).trans (congrArg (· + 1) hcount)
  · obtain ⟨hc, hdef⟩ := exchangeSend_carried (t := seenOf s i b) (x := r) (by rw [hclass, hcount]; exact hlt)
    refine ⟨?_, ?_⟩
    · change (tileOf (issueWhen i f s.sys).data i.tile).xfer.deferred = _
      rw [hx, hdef, hxfer]
    · rw [hc, hclass, hcount] at hxrecs
      exact ⟨⟨i.tile, s.sys.data.beat.count, r, x.rank, n⟩, hxrecs, rfl, rfl, rfl⟩
  · obtain ⟨hc, hflag, hdef⟩ := exchangeSend_limited (t := seenOf s i b) (x := r) (by rw [hclass, hcount]; exact hle)
    refine ⟨?_, ?_, ?_⟩
    · rw [hc] at hxrecs
      exact hxrecs.trans (List.append_nil _)
    · refine issueWhen_flagSet h.issues hf ?_
      rw [h.runM_eq, hm1]
      exact hflag
    · change (tileOf (issueWhen i f s.sys).data i.tile).xfer.deferred = _
      rw [hx, hdef, hclass, hxfer]

/-- Settles O11: a record below its class's capacity is carried; one above it is limited. -/
theorem exchangeSendsAreBoundedByCapacity : Obligations.ExchangeSendsAreBoundedByCapacity := by
  unfold Obligations.ExchangeSendsAreBoundedByCapacity
  exact fun s i b p aS sD cls len => xsnd_sends

end Sys2Proof.Machine
end

section
/-!
SUPPORT. Commands that edit one tile or one field: what the edited one reads afterwards, and what the edit leaves. Then sticky
flags, CSR and instruction memory writes, training, and the frames of the tiles' and fields' commands (O23, O25, O26, O30, O31).
-/

namespace Sys2Proof.Machine

-- As in the tests: one proof at a time, so that the whole text keeps within the threads that the memory holds.
set_option Elab.async false

variable {s t : State} {ix : TileIx} {f : FieldIx}

/-! ### Edits of one tile -/

/-- A command that edits a powered tile, read in that tile; the edit may read the tile's surroundings. -/
theorem exec_editsIn {c : Instr} {g : Ctx → Tile → Tile} (hon : tileOn s.sys.data ix = true)
    (he : exec c s = .next { s with sys := tileEdit ix g s.sys }) :
    ∃ t, exec c s = .next t ∧ tileIn t ix = g (ctxOf (envOf s.sys) s.sys.data ix) (tileIn s ix) := by
  refine ⟨_, he, ?_⟩
  simp only [tileIn, tileEdit, hon, if_true, onData_data, tileOf_editTile]

/-- A command that lets a powered tile take a step, read in that tile. -/
theorem exec_steps {c : Instr} {g : Ctx → Tile → Tile × Eff} (hon : tileOn s.sys.data ix = true)
    (he : exec c s = .next { s with sys := tileStep ix g s.sys }) :
    ∃ t, exec c s = .next t ∧ tileIn t ix = (g (ctxOf (envOf s.sys) s.sys.data ix) (tileIn s ix)).1 := by
  refine ⟨_, he, ?_⟩
  simp only [tileIn, tileStep, hon, if_true, onData_data, tileOf_onTile]

/-- A command that edits a powered field, read in that field. -/
theorem exec_editsField {c : Instr} {g : Field → Field} (hon : (fieldIn s f).on = true)
    (he : exec c s = .next { s with sys := fieldEdit f g s.sys }) :
    ∃ t, exec c s = .next t ∧ fieldIn t f = g (fieldIn s f) := by
  refine ⟨_, he, ?_⟩
  rw [fieldIn] at hon
  simp only [fieldIn, fieldEdit, hon, if_true, onData_data, fieldOf_editField]

/-! ### Sticky flags (R62, R63) -/

theorem intMask_getLsbD {n : Nat} (h : n < 64) : intMask.getLsbD n = decide (n < 22 ∧ n ≠ 15) := by
  have all : ∀ n : Fin 64, intMask.getLsbD n = decide (n.val < 22 ∧ n.val ≠ 15) := by decide
  exact all ⟨n, h⟩

theorem fieldIntMask_getLsbD {n : Nat} (h : n < 64) : fieldIntMask.getLsbD n = decide (n < 9) := by
  have all : ∀ n : Fin 64, fieldIntMask.getLsbD n = decide (n.val < 9) := by decide
  exact all ⟨n, h⟩

/-- A clear bit by bit: what the hardware sets stays set. -/
theorem w1c_getLsbD (old clear hw : W64) {n : Nat} (h : n < 64) :
    (w1c old clear hw).getLsbD n = ((old.getLsbD n && !clear.getLsbD n) || hw.getLsbD n) := by
  simp [w1c, h]

/-- Settles O23: every flag command edits one register bit by bit. -/
theorem stickyFlagsSetWins : Obligations.StickyFlagsSetWins := by
  intro s mask hw
  refine ⟨fun ix hon => ⟨?clear, ?force⟩, fun f hon => ⟨?fieldClear, ?fieldForce, ?starve⟩⟩
  case clear =>
    obtain ⟨t, e, ht⟩ := exec_edits hon (exec_intStatusClear s ix mask hw)
    refine ⟨t, e, fun n hn => ?_⟩
    rw [ht, clearInt, w1c_getLsbD _ _ _ hn, BitVec.getLsbD_and, intMask_getLsbD hn]
  case force =>
    obtain ⟨t, e, ht⟩ := exec_edits hon (exec_intForceSet s ix mask)
    refine ⟨t, e, fun n hn => ?_⟩
    rw [ht, forceInt, BitVec.getLsbD_or, BitVec.getLsbD_and, intMask_getLsbD hn]
  case fieldClear =>
    obtain ⟨t, e, ht⟩ := exec_editsField hon (exec_fieldIntStatusClear s f mask hw)
    refine ⟨t, e, fun n hn => ?_⟩
    change (fieldIn t f).intStatus.getLsbD n = _
    rw [ht, w1c_getLsbD _ _ _ hn, BitVec.getLsbD_and, fieldIntMask_getLsbD hn]
    rfl
  case fieldForce =>
    obtain ⟨t, e, ht⟩ := exec_editsField hon (exec_fieldIntForceSet s f mask)
    refine ⟨t, e, fun n hn => ?_⟩
    change (fieldIn t f).intStatus.getLsbD n = _
    simp only [ht, fieldCsrWrite, reduceCtorEq, if_true, if_false, BitVec.getLsbD_or, BitVec.getLsbD_and,
      fieldIntMask_getLsbD hn, Nat.reduceEqDiff]
    rfl
  case starve =>
    obtain ⟨t, e, ht⟩ := exec_editsField hon (exec_arbStarveClear s f mask)
    refine ⟨t, e, fun n hn => ?_⟩
    change (fieldIn t f).arb.starve.getLsbD n = _
    rw [ht]
    change (w1c _ _ _).getLsbD n = _
    rw [w1c_getLsbD _ _ _ hn]
    simp [fieldIn]

/-! ### CSRs and instruction memory (R38, R41, R65, R67) -/

/-- A tile's CSRs but the sticky flags, which event counts may set. -/
def Tile.quietCsr (t : Tile) : TileCsr := { t.csr with intStatus := 0 }

@[simp] theorem setInt_quietCsr (t : Tile) (n : Nat) : (setInt t n).quietCsr = t.quietCsr := rfl

@[simp] theorem bumpOne_quietCsr (t : Tile) (n k : Nat) : (bumpOne t n k).quietCsr = t.quietCsr := by
  simp only [bumpOne]
  split <;> rfl

@[simp] theorem selectStep_quietCsr (t : Tile) (cycles k : Nat) : (selectStep t cycles k).quietCsr = t.quietCsr := by
  simp only [selectStep]
  split <;> rfl

@[simp] theorem bumpFor_quietCsr (cycles ev k : Nat) (t : Tile) : (bumpFor cycles ev k t).quietCsr = t.quietCsr := by
  have h : ∀ n u, (if counts u n ev then bumpOne u n (cycles * k) else u).quietCsr = u.quietCsr := by
    intro n u
    split <;> simp
  simp only [bumpFor]
  split
  · rfl
  · split <;> simp [repeatN_keeps Tile.quietCsr h]

@[simp] theorem bump_quietCsr (ev k : Nat) (t : Tile) : (bump ev k t).quietCsr = t.quietCsr := bumpFor_quietCsr 1 ev k t

/-- A write of an aligned tile CSR of a powered tile. -/
theorem exec_csrWrite_tile (hon : tileOn s.sys.data ix = true) {off : BitVec 16} (ha : off.toNat % 8 = 0) (v : W64) :
    ∃ t, exec (.csrWrite (.tile ix) off v) s = .next t ∧
      tileIn t ix = csrWrite (ctxOf (envOf s.sys) s.sys.data ix) (tileIn s ix) off.toNat v :=
  exec_editsIn (g := fun cx t => csrWrite cx t off.toNat v) hon
    (by rw [exec_csrWrite, plainCsrWrite, if_neg (by simpa using ha)])

/-- A write that is not aligned is discarded. -/
theorem exec_csrWrite_unaligned {off : BitVec 16} (ha : off.toNat % 8 ≠ 0) (v : W64) :
    ∃ t, exec (.csrWrite (.tile ix) off v) s = .next t ∧ tileIn t ix = tileIn s ix := by
  refine ⟨_, exec_csrWrite .., ?_⟩
  simp only [plainCsrWrite, if_pos ha]
  split <;> rfl

theorem mailboxOffset_toNat (n : Fin 8) : (BitVec.ofNat 16 (0x100 + 8 * n.val)).toNat = 0x100 + 8 * n.val := by
  rw [BitVec.toNat_ofNat]
  omega

/-- A mailbox write changes its mailbox alone. -/
theorem csrWrite_mailboxes (cx : Ctx) (t : Tile) (n : Fin 8) (v : W64) :
    (csrWrite cx t (0x100 + 8 * n.val) v).csr.mailbox = put 0 t.csr.mailbox n v := by
  have hlow (k : Nat) (h : k < 0x100) : 0x100 + 8 * n.val ≠ k := by omega
  have hin : 0x100 ≤ 0x100 + 8 * n.val ∧ 0x100 + 8 * n.val ≤ 0x138 := by omega
  have hn : (0x100 + 8 * n.val - 0x100) / 8 = n.val := by omega
  simp only [csrWrite, hlow 0x10 (by decide), hlow 0x40 (by decide), hlow 0x48 (by decide), hlow 0x50 (by decide),
    hlow 0x70 (by decide), hlow 0x78 (by decide), if_false, if_pos hin, hn]

/-- A read-only register ignores a write. -/
theorem csrWrite_readOnly (cx : Ctx) (t : Tile) (v : W64) {off : BitVec 16}
    (h : off ∈ [0x0000#16, 0x0008#16, 0x0018#16, 0x0020#16, 0x0028#16, 0x0030#16, 0x0038#16, 0x0058#16, 0x0060#16, 0x0068#16,
      0x0400#16, 0x0608#16]) : off.toNat % 8 = 0 ∧ csrWrite cx t off.toNat v = t := by
  fin_cases h <;> exact ⟨rfl, rfl⟩

theorem csrWrites_followTheirAccess (v : W64) (hon : tileOn s.sys.data ix = true) :
    (∀ n : Fin 8, ∃ t, exec (.csrWrite (.tile ix) (BitVec.ofNat 16 (0x100 + 8 * n.val)) v) s = .next t ∧
      look 0 (tileIn t ix).csr.mailbox n = v ∧
      ∀ m, m ≠ n.val → look 0 (tileIn t ix).csr.mailbox m = look 0 (tileIn s ix).csr.mailbox m) ∧
    (∃ t, exec (.csrWrite (.tile ix) 0x0070#16 v) s = .next t ∧
      (tileIn t ix).csr.srKey = if s.sys.mgmt.module = .running then (tileIn s ix).csr.srKey else v) ∧
    (∃ t, exec (.csrWrite (.tile ix) 0x0078#16 v) s = .next t ∧
      (s.sys.mgmt.module = .running → (tileIn t ix).csr.vfpCtrl = (tileIn s ix).csr.vfpCtrl) ∧
      (s.sys.mgmt.module ≠ .running → (tileIn t ix).csr.vfpCtrl.toNat = v.toNat % 4)) ∧
    ∃ t, exec (.csrWrite (.tile ix) 0x0048#16 v) s = .next t ∧ ∀ n < 64, (tileIn t ix).csr.intEnable.getLsbD n =
      (v.getLsbD n && decide (n < 22 ∧ n ≠ 15)) := by
  have hrun : (ctxOf (envOf s.sys) s.sys.data ix).running = (s.sys.mgmt.module == .running) := rfl
  refine ⟨fun n => ?mailbox, ?key, ?vfp, ?enable⟩
  case mailbox =>
    obtain ⟨t, e, ht⟩ := exec_csrWrite_tile hon (off := BitVec.ofNat 16 (0x100 + 8 * n.val))
      (by rw [mailboxOffset_toNat]; omega) v
    rw [mailboxOffset_toNat] at ht
    refine ⟨t, e, ?_, fun m hm => ?_⟩ <;> rw [ht, csrWrite_mailboxes]
    · exact look_put_self ..
    · exact look_put_of_ne _ _ _ _ hm
  case key =>
    obtain ⟨t, e, ht⟩ := exec_csrWrite_tile hon (off := 0x0070#16) rfl v
    refine ⟨t, e, ?_⟩
    rw [ht]
    by_cases h : s.sys.mgmt.module = .running <;> simp [csrWrite, hrun, h]
  case vfp =>
    obtain ⟨t, e, ht⟩ := exec_csrWrite_tile hon (off := 0x0078#16) rfl v
    refine ⟨t, e, fun h => ?_, fun h => ?_⟩
    · simp [ht, csrWrite, hrun, h]
    · have hand : (v &&& 3#64).toNat = v.toNat % 4 := by
        rw [BitVec.toNat_and]
        exact Nat.and_two_pow_sub_one_eq_mod v.toNat 2
      simp [ht, csrWrite, hrun, h, hand]
  case enable =>
    obtain ⟨t, e, ht⟩ := exec_csrWrite_tile hon (off := 0x0048#16) rfl v
    refine ⟨t, e, fun n hn => ?_⟩
    rw [ht]
    change (v &&& intMask).getLsbD n = _
    rw [BitVec.getLsbD_and, intMask_getLsbD hn]

@[simp] theorem tileOf_answer (m : Option Msg) (status : Nat) (bs : List Byte) (d : Data) (n : Nat) :
    tileOf (answer m status bs d) n = tileOf d n := rfl

/-- Instruction memory takes a write in RESET or IDLE and blocks it otherwise. -/
theorem instructionMemoryWrite_stores (n : BitVec 14) (w : Bundle) (hon : tileOn s.sys.data ix = true) :
    ∃ t, exec (.instructionMemoryWrite ix n w) s = .next t ∧
      ((tileIn s ix).tstate = .reset ∨ (tileIn s ix).tstate = .idle → look 0 (tileIn t ix).imem n.toNat = w ∧
        ∀ m, m ≠ n.toNat → look 0 (tileIn t ix).imem m = look 0 (tileIn s ix).imem m) ∧
      ((tileIn s ix).tstate ≠ .reset → (tileIn s ix).tstate ≠ .idle → (tileIn t ix).imem = (tileIn s ix).imem ∧
        (tileIn t ix).csr.intStatus.getLsbD 14 = true) := by
  obtain ⟨t, e, ht⟩ : ∃ t, exec (.instructionMemoryWrite ix n w) s = .next t ∧
      tileIn t ix = imemWrite n.toNat w (tileIn s ix) := by
    refine ⟨_, exec_instructionMemoryWrite .., ?_⟩
    simp only [tileIn, imemStore, tileEdit, hon, if_true, true_and]
    split <;> simp only [onData_data, tileOf_answer, tileOf_editTile, if_true]
  refine ⟨t, e, fun h => ?_, fun hr hi => ?_⟩ <;> rw [ht]
  · have hopen : imemOpen (tileIn s ix) = true := by simpa [imemOpen] using h
    rw [imemWrite, if_pos hopen]
    exact ⟨look_put_self .., fun m hm => look_put_of_ne _ _ _ _ hm⟩
  · have hopen : imemOpen (tileIn s ix) = false := by simp [imemOpen, hr, hi]
    simp only [imemWrite, hopen, Bool.false_eq_true, if_false]
    exact ⟨rfl, setInt_flagSet_self _ (by decide)⟩

/-- The scrubber counts a corrected word and faults on an uncorrectable one. -/
theorem scrubRead_counts (line : BitVec 18) (o : BitVec 24) (hon : tileOn s.sys.data ix = true)
    (hscrub : (tileIn s ix).csr.ctrl.getLsbD 7 = true) (hp : (tileIn s ix).poison = []) :
    (∃ t, exec (.scrubRead ix line (.corrected o)) s = .next t ∧
      (tileIn t ix).csr.storeCorrected.toNat = min ((tileIn s ix).csr.storeCorrected.toNat + 1) (2 ^ 32 - 1) ∧
      (tileIn t ix).csr.storeLast = o ∧ (tileIn t ix).csr.intStatus.getLsbD 1 = true ∧
      (tileIn t ix).store = (tileIn s ix).store) ∧
    ((tileIn s ix).tstate ≠ .fault → ∃ t, exec (.scrubRead ix line .uncorrectable) s = .next t ∧
      (tileIn t ix).tstate = .fault ∧ (tileIn t ix).csr.faultCause = 2) := by
  have hclean : poisonedIn (tileIn s ix) (64 * line.toNat) 64 = false := by simp [poisonedIn, hp]
  refine ⟨?_, fun hf => ?_⟩
  · obtain ⟨t, e, ht⟩ := exec_steps hon (exec_scrubRead s ix line (.corrected o))
    simp only [scrubRead, hscrub, hclean, Bool.not_true, Bool.false_eq_true, reduceCtorEq, or_self, if_false] at ht
    have hcsr : (tileIn t ix).quietCsr = { (tileIn s ix).csr with
        storeCorrected := satInc (tileIn s ix).csr.storeCorrected 1, storeLast := o, intStatus := 0 } := by
      rw [ht, setInt_quietCsr, bump_quietCsr]
      rfl
    have hwork : (tileIn t ix).work = (tileIn s ix).work := by
      rw [ht, setInt_work, bump_work]
      rfl
    refine ⟨t, e, ?_, ?_, ?_, Tile.work_store hwork⟩
    · exact (congrArg (fun c : TileCsr => c.storeCorrected.toNat) hcsr).trans (satInc_toNat _ _)
    · exact (congrArg TileCsr.storeLast hcsr :)
    · rw [ht]
      exact setInt_flagSet_self _ (by decide)
  · obtain ⟨t, e, ht⟩ := exec_steps hon (exec_scrubRead s ix line .uncorrectable)
    simp only [scrubRead, hscrub, Bool.not_true, Bool.false_eq_true, or_true, if_true, if_false] at ht
    obtain ⟨hstate, hcause, -, -⟩ := faultTile_stops (ctxOf (envOf s.sys) s.sys.data ix) (tileIn s ix).seq.cycle
      (tileIn s ix).seq.lastPc.toNat (cause := 2) (by decide) hf (tstate_ne_off_of_tileOn hon)
    exact ⟨t, e, by rw [ht]; exact hstate, by rw [ht]; exact hcause⟩

theorem tileResetEnd_idles (hon : tileOn s.sys.data ix = true) (hr : (tileIn s ix).tstate = .reset) :
    ∃ t, exec (.tileResetEnd ix) s = .next t ∧ (tileIn t ix).tstate = .idle ∧ (tileIn t ix).regs = (tileIn s ix).regs := by
  obtain ⟨t, e, ht⟩ : ∃ t, exec (.tileResetEnd ix) s = .next t ∧ tileIn t ix = endReset (tileIn s ix) := by
    refine ⟨_, exec_tileResetEnd .., ?_⟩
    simp only [tileIn, finishReset, tileEdit, hon, if_true, onData_data, tileOf, followPresent_tiles]
    exact (tileOf_editTile ..).trans (if_pos rfl)
  refine ⟨t, e, ?_⟩
  rw [ht, endReset, if_pos hr]
  exact ⟨rfl, rfl⟩

/-- Settles O25, by the access of each register. -/
theorem csrAndInstructionMemoryWritesFollowTheirAccess : Obligations.CsrAndInstructionMemoryWritesFollowTheirAccess := by
  refine ⟨fun s ix v hon => ?_, fun s ix hon => ⟨fun n w => instructionMemoryWrite_stores n w hon,
    fun line o hscrub hp => scrubRead_counts line o hon hscrub hp, tileResetEnd_idles hon⟩⟩
  obtain ⟨hmail, hkey, hvfp, henable⟩ := csrWrites_followTheirAccess v hon
  refine ⟨hmail, fun off hoff => ?_, hkey, hvfp, fun off ha => exec_csrWrite_unaligned ha v, henable⟩
  obtain ⟨ha, hsame⟩ := csrWrite_readOnly (ctxOf (envOf s.sys) s.sys.data ix) (tileIn s ix) v hoff
  obtain ⟨t, e, ht⟩ := exec_csrWrite_tile hon ha v
  exact ⟨t, e, ht.trans hsame⟩

/-! ### The frames of the tiles' and the fields' commands -/

/-- A powered tile in reset, in a field whose stack domain is on. -/
def resetInPoweredField : State :=
  ⟨[], onData (fun d => { d with
    on := true
    tiles := [(0, { Tile.off with tstate := .reset })]
    fields := [(0, { Field.off with on := true })] }) Module.reset⟩

/-- Refutes O26: as the reset of tile 0 ends, the PRESENT sideband of its requester rises in its field (R212). -/
theorem not_tileCommandFrame : ¬Obligations.TileCommandFrame := by
  intro h
  obtain ⟨-, hfields, -⟩ := h resetInPoweredField _ 0 (.tileResetEnd 0) (by simp) (exec_tileResetEnd ..)
  have before : isPresent (fieldIn resetInPoweredField 0).arb 0 = false := by decide +kernel
  have after : isPresent (fieldOf (finishReset 0 resetInPoweredField.sys).data 0).arb 0 = true := by decide +kernel
  rw [fieldOf, hfields] at after
  exact absurd (after.symm.trans before) (by decide)

/-! ### A field's own commands -/

/-- An edit of a field changes that field and the ring of events. -/
theorem fieldEdit_eq (f : FieldIx) (g : Field → Field) (x : Module) :
    ∃ fields ring, fieldEdit f g x = onData (fun d => { d with fields := fields, ring := ring }) x ∧
      ∀ n, n ≠ f.val → look Field.off fields n = fieldOf x.data n := by
  have hself : ∃ fields ring, x = onData (fun d => { d with fields := fields, ring := ring }) x ∧
      ∀ n, n ≠ f.val → look Field.off fields n = fieldOf x.data n := ⟨x.data.fields, x.data.ring, rfl, fun _ _ => rfl⟩
  unfold fieldEdit
  split
  · unfold onData editField setField
    dsimp only
    split
    · exact ⟨_, _, rfl, fun n hn => look_put_of_ne _ _ _ _ hn⟩
    · exact ⟨_, _, rfl, fun n hn => look_put_of_ne _ _ _ _ hn⟩
  · exact hself

/-- A command that edits one field, and not its stack, leaves all else. -/
theorem fieldEdit_frame {c : Instr} {g : Field → Field} (hg : ∀ x, (g x).mem = x.mem)
    (he : exec c s = .next { s with sys := fieldEdit f g s.sys }) (ht : exec c s = .next t) :
    (∀ n, n ≠ f.val → fieldIn t n = fieldIn s n) ∧ t.sys.data.tiles = s.sys.data.tiles ∧
      (fieldIn t f).mem = (fieldIn s f).mem ∧ t.pending = s.pending ∧ t.sys.ts = s.sys.ts ∧ t.sys.sf = s.sys.sf ∧
      t.sys.ctrl = s.sys.ctrl ∧ t.sys.mgmt = s.sys.mgmt ∧ t.sys.sill = s.sys.sill := by
  rw [he] at ht
  cases ht
  have hmem : (fieldOf (fieldEdit f g s.sys).data f).mem = (fieldOf s.sys.data f).mem := by
    unfold fieldEdit
    split
    · simp [fieldOf_editField, hg]
    · rfl
  obtain ⟨fields, ring, e, hne⟩ := fieldEdit_eq f g s.sys
  refine ⟨fun n hn => ?_, ?_, hmem, rfl, ?_⟩
  · rw [fieldIn, e]
    exact hne n hn
  · rw [e]
    rfl
  · rw [e]
    exact ⟨rfl, rfl, rfl, rfl, rfl⟩

theorem arbStarve_mem (q : Nat) (x : Field) : (arbStarve q x).mem = x.mem := by
  simp only [arbStarve]
  split <;> rfl

theorem arbMask_mem (q : Nat) (x : Field) : (arbMask q x).mem = x.mem := by
  simp only [arbMask]
  split <;> rfl

theorem arbUnmask_mem (n q : Nat) (x : Field) : (arbUnmask n q x).mem = x.mem := by
  simp only [arbUnmask]
  split <;> rfl

theorem stackTrainDone_mem (failed : List Nat) (x : Field) : (stackTrainDone failed x).mem = x.mem := by
  simp only [stackTrainDone]
  split
  · rfl
  · split
    all_goals first | rfl | skip
    split <;> rfl

/-- Settles O31: each of these commands edits its field. -/
theorem fieldCommandFrame : Obligations.FieldCommandFrame := by
  rintro s t f c (⟨a, b, rfl⟩ | ⟨a, rfl⟩ | ⟨a, rfl⟩ | ⟨q, rfl⟩ | ⟨q, rfl⟩ | ⟨q, rfl⟩ | ⟨a, rfl⟩ | rfl)
  · exact fieldEdit_frame (by intro; rfl) (exec_fieldIntStatusClear ..)
  · exact fieldEdit_frame (by intro; rfl) (exec_fieldIntForceSet ..)
  · exact fieldEdit_frame (by intro; rfl) (exec_arbStarveClear ..)
  · exact fieldEdit_frame (arbStarve_mem q) (exec_arbStarve ..)
  · exact fieldEdit_frame (arbMask_mem q) (exec_arbRequesterMask ..)
  · exact fieldEdit_frame (arbUnmask_mem f q) (exec_arbRequesterUnmask ..)
  · exact fieldEdit_frame (stackTrainDone_mem a) (exec_stackTrainStateDone ..)
  · exact fieldEdit_frame (by intro; rfl) (exec_stackRefreshWindow ..)

/-! ### Training (R201, R202) -/

/-- A powered field's training command, read in its field. -/
theorem stackTrainStateDone_field (failed : List Nat) (hon : (fieldIn s f).on = true) :
    ∃ t, exec (.stackTrainStateDone f failed) s = .next t ∧ fieldIn t f = stackTrainDone failed (fieldIn s f) :=
  exec_editsField hon (exec_stackTrainStateDone ..)

theorem eraseDups_nodup (l : List Nat) : l.eraseDups.Nodup := by
  induction hn : l.length using Nat.strong_induction_on generalizing l with
  | _ n ih =>
    subst hn
    cases l with
    | nil => exact List.nodup_nil
    | cons a l =>
      rw [List.eraseDups_cons, List.nodup_cons]
      refine ⟨by simp, ih _ ?_ _ rfl⟩
      exact Nat.lt_succ_of_le (List.length_filter_le _ _)

/-- The channels of a stack that failed its test, each once. -/
theorem mem_failedChannels {failed : List Nat} {c : Nat} :
    c ∈ (failed.filter fun c => decide (c < 66)).eraseDups ↔ c ∈ failed ∧ c < 66 := by
  simp

/-- Settles O30, by the state in which the training stands. -/
theorem stackTraining : Obligations.StackTraining := by
  intro s f failed hon
  obtain ⟨t, e, ht⟩ := stackTrainStateDone_field failed hon
  refine ⟨fun a b hab htrain => ⟨t, e, ?early⟩, fun htest => ⟨fun hpass => ⟨t, e, ?pass⟩, fun hwarm hfail => ⟨t, e, ?anew⟩⟩,
    fun hmap => ⟨t, e, ?map⟩⟩
  case early =>
    simp only [List.mem_cons, Prod.mk.injEq, List.not_mem_nil, or_false] at hab
    rw [ht]
    rcases hab with ⟨rfl, rfl⟩ | ⟨rfl, rfl⟩ | ⟨rfl, rfl⟩ <;> simp [stackTrainDone, hon, htrain]
  case pass =>
    have hnot : ((fieldIn s f).warm && !((failed.filter fun c => decide (c < 66)).eraseDups).isEmpty) = false := by
      rcases hpass with hcold | hnone
      · simp [hcold]
      · have hempty : (failed.filter fun c => decide (c < 66)) = [] := by simpa using hnone
        simp [hempty]
    simp only [ht, stackTrainDone, hon, htest, hnot, Bool.not_true, Bool.false_eq_true, if_false]
    exact ⟨trivial, eraseDups_nodup _, fun c => mem_failedChannels⟩
  case anew =>
    obtain ⟨c, hc, hlt⟩ := hfail
    have hsome : ((failed.filter fun c => decide (c < 66)).eraseDups).isEmpty = false := by
      rw [List.isEmpty_eq_false_iff]
      exact List.ne_nil_of_mem (mem_failedChannels.mpr ⟨hc, hlt⟩)
    simp [ht, stackTrainDone, hon, htest, hwarm, hsome]
  case map =>
    simp only [ht, stackTrainDone, hon, hmap, Bool.not_true, Bool.false_eq_true, if_false, modeFor]
    refine ⟨fun h => ?_, fun h h' => ?_, fun h => ?_⟩
    · simp [h, stackCap]
    · simp [Nat.not_le.mpr h, h', stackCap]
    · simp [Nat.not_le.mpr h, Nat.not_le.mpr (Nat.lt_trans (by decide : 2 < 34) h), stackCap]

end Sys2Proof.Machine
end

section
/-!
SUPPORT. What router counts leave of the tiles, and what the end of a packet and of an exchange record does to its tile and to
the mesh. Then unscheduled packets and exchange records (O28).
-/

namespace Sys2Proof.Machine

-- As in the tests: one proof at a time, so that the whole text keeps within the threads that the memory holds.
set_option Elab.async false

variable {s t : State} {d : Data} {e : Env}

/-! ### Router counts -/

theorem countPort_work (p n : Nat) (sched : Bool) (t : Tile) : (countPort p n sched t).work = t.work := by
  unfold countPort
  split
  · rfl
  · split <;> rfl

/-- Router counts change tiles alone, and of a tile its instruments alone. -/
theorem countPath_eq (n : Nat) (sched : Bool) (a : Nat) (path : List Nat) (d : Data) :
    ∃ ts, countPath n sched a path d = { d with tiles := ts } ∧ ∀ j, (look Tile.off ts j).work = (tileOf d j).work := by
  have hport (a p : Nat) (d : Data) : ∀ j, (tileOf (portAt d a p n sched) j).work = (tileOf d j).work := by
    intro j
    simp only [tileOf, portAt, look_put]
    split
    · rename_i h
      rw [h, countPort_work]
    · rfl
  induction path generalizing a d with
  | nil => exact ⟨d.tiles, rfl, fun _ => rfl⟩
  | cons b r ih =>
    obtain ⟨ts, hd, hw⟩ := ih b (portAt (portAt d a (hopPorts a b).1 n sched) b (hopPorts a b).2 n sched)
    exact ⟨ts, hd, fun j => (hw j).trans ((hport _ _ _ j).trans (hport _ _ _ j))⟩

/-- An output that serves a path remembers the port, and nothing else changes. -/
theorem served_of_wins {a b : Nat} {path : List Nat} {ch : Channel} {response : Bool} {others : List Contender}
    (h : winsOver (look 0 d.mesh.served b) ⟨inPort a path, ch, response⟩ others = true) :
    ∃ p, served d a path b ch response others = some { d with mesh := { d.mesh with served := p } } := by
  rw [served, if_pos h]
  exact ⟨_, rfl⟩

/-! ### Packets (R194, R195, R198) -/

/-- A transfer of a tile after a change that keeps its number. -/
theorem onUreq_find {t : Tile} {id : Nat} {u : Ureq} {g : Ureq → Ureq} (hg : ∀ v, (g v).id = v.id)
    (hu : t.xfer.ureqs.find? (fun v => v.id = id) = some u) :
    (onUreq id g t).xfer.ureqs.find? (fun v => v.id = id) = some (g u) := by
  have hid : u.id = id := by simpa using List.find?_some hu
  have hsame : ((fun v : Ureq => decide (v.id = id)) ∘ fun v => if v.id = id then g v else v) = fun v => decide (v.id = id) := by
    funext v
    simp only [Function.comp]
    split <;> simp [hg]
  rw [onUreq, List.find?_map, hsame, hu, Option.map_some, if_pos hid]

/-- A packet's end in its transfer: its bytes counted, and the first status that is not 0. -/
theorem packetDone_ureq {p : Packet} {u : Ureq} (st : BitVec 16)
    (hu : (tileOf d p.tile).xfer.ureqs.find? (fun v => v.id = p.id) = some u) :
    ∃ v, (tileOf (packetDone e p st d) p.tile).xfer.ureqs.find? (fun v => v.id = p.id) = some v ∧ v.moved = u.moved + p.len ∧
      v.status = if u.status = 0 then st else u.status := by
  let g (u : Ureq) : Ureq := { u with moved := u.moved + p.len, status := if u.status = 0 then st else u.status }
  refine ⟨g u, ?_, rfl, rfl⟩
  rw [packetDone, tileOf_editTile, if_pos rfl]
  exact onUreq_find (g := g) (fun _ => rfl) hu

/-- The acknowledgement of packet `p` from router `ix`. -/
def ackOf (d : Data) (p : Packet) (ix : Nat) (st : BitVec 16) : Packet :=
  { p with start := ix, ack := some st, escaped := injected (fieldOf d (tileField ix)) ix }

theorem acknowledge_of_own {p : Packet} (hdata : p.data = none) (ix : Nat) (st : BitVec 16) (d : Data) :
    acknowledge p ix st d = { d with mesh := { d.mesh with packets := d.mesh.packets ++ [ackOf d p ix st] } } := by
  simp [acknowledge, hdata, ackOf]

section
variable {n : Nat} {p : Packet} {u : Ureq} {hops : List Hop} {others : List Contender}

/-- What a put's packet meets on its way within the module: a transfer that has not failed, and clean data. -/
structure PutUnder (d : Data) (p : Packet) (u : Ureq) : Prop where
  data : p.data = none
  found : (tileOf d p.tile).xfer.ureqs.find? (fun v => v.id = p.id) = some u
  running : u.status = 0
  clean : (tileOf d p.tile).poison = []
  own : physModule d p.module.toNat = (ownModule d).toNat

/-- The data plane once the `n`-th packet is in flight no more. -/
def withoutPacket (n : Nat) (d : Data) : Data := { d with mesh := { d.mesh with packets := removeAt d.mesh.packets n } }

/-- A packet for an unmapped tile is answered by its own router, whose field shows it. -/
theorem requestArrive_unmapped (h : PutUnder d p u) (hmap : physTile d p.row p.col = none) :
    requestArrive e n p hops others d = acknowledge p p.start 2
      (editField e (tileField p.start) (fieldInt · fbitDestUnmapped) (withoutPacket n d)) := by
  simp [requestArrive, h.data, h.found, h.running, h.clean, h.own, hmap, poisonedIn, withoutPacket]

/-- A packet that takes a route of its channel is written at its end. -/
theorem requestArrive_mapped (h : PutUnder d p u) {ix : Nat} {path : List Nat} (hmap : physTile d p.row p.col = some ix)
    (hpath : packetPath p.start ix p.escaped hops = some path)
    (hw : winsOver (look 0 d.mesh.served ix) ⟨inPort p.start path, if p.escaped.isSome then .escape else .adaptive, false⟩
      others = true) :
    ∃ d1, requestArrive e n p hops others d =
        packetWrite e p ix (readBytes (tileOf d p.tile).store (p.source % 2 ^ 24) p.len) d1 ∧
      d1.mesh.packets = removeAt d.mesh.packets n ∧ ∀ j, (tileOf d1 j).work = (tileOf d j).work := by
  obtain ⟨sv, hsv⟩ := served_of_wins (d := withoutPacket n d) hw
  obtain ⟨ts, hts, hwork⟩ := countPath_eq (units64 (readBytes (tileOf d p.tile).store (p.source % 2 ^ 24) p.len).length) false
    p.start path { withoutPacket n d with mesh := { (withoutPacket n d).mesh with served := sv } }
  refine ⟨{ withoutPacket n d with mesh := { (withoutPacket n d).mesh with served := sv }, tiles := ts }, ?_, rfl, hwork⟩
  rw [withoutPacket] at hsv hts
  simp only [requestArrive, h.data, h.found, h.running, h.clean, h.own, hmap, hpath, poisonedIn, hsv, hts, Option.isNone_none,
    Option.isSome_none, ne_eq, not_true_eq_false, decide_false, Bool.and_false, Bool.false_eq_true, if_false, List.any_nil,
    and_false, withoutPacket]

/-- What a packet written at tile `ix` leaves: its acknowledgement, and its bytes where the tile runs. -/
theorem packetWrite_writes (hdata : p.data = none) (ix : Nat) (bs : List Byte) (d : Data) :
    ∃ a, (packetWrite e p ix bs d).mesh.packets = d.mesh.packets ++ [a] ∧ a.tile = p.tile ∧ a.id = p.id ∧ a.len = p.len ∧
      a.start = ix ∧
      ((tileOf d ix).tstate = .off ∨ (tileOf d ix).tstate = .reset →
        a.ack = some 3 ∧ (tileOf (packetWrite e p ix bs d) ix).store = (tileOf d ix).store) ∧
      ((tileOf d ix).tstate ≠ .off → (tileOf d ix).tstate ≠ .reset → a.ack = some 0 ∧
        ∀ k < bs.length, readByte (tileOf (packetWrite e p ix bs d) ix).store (p.offset % 2 ^ 24 + k) = bs.getD k 0) := by
  by_cases h : (tileOf d ix).tstate = .off ∨ (tileOf d ix).tstate = .reset
  · rw [packetWrite, if_pos h, acknowledge_of_own hdata]
    refine ⟨ackOf d p ix 3, rfl, rfl, rfl, rfl, rfl, fun _ => ⟨rfl, rfl⟩, fun ho hr => absurd h (by simp [ho, hr])⟩
  · rw [packetWrite, if_neg h, acknowledge_of_own hdata]
    refine ⟨ackOf _ p ix 0, by rw [editTile_mesh], rfl, rfl, rfl, rfl, fun h' => absurd h' h, fun _ _ => ⟨rfl, fun k hk => ?_⟩⟩
    change readByte (tileOf (editTile e ix _ d) ix).store _ = _
    rw [tileOf_editTile, if_pos rfl, Tile.work_store (bump_work _ _ _)]
    exact readByte_writeStore _ _ _ hk

end

/-! ### The escape channel (R196, R197) -/

theorem getElem?_modifyAt {α : Type} (f : α → α) (l : List α) (n : Nat) : (modifyAt f l n)[n]? = l[n]?.map f := by
  induction l generalizing n with
  | nil => simp [modifyAt]
  | cons x l ih =>
    cases n with
    | zero => rfl
    | succ n => exact ih n

section
variable {n router waited : Nat} {p : Packet}

theorem escapeMove_early (hp : d.mesh.packets[n]? = some p) (h : waited ≤ escapeAfter (fieldOf d (tileField router))) :
    escapeMove e n router waited d = d := by
  simp [escapeMove, hp, h]

theorem escapeMove_escaped (hp : d.mesh.packets[n]? = some p) (h : p.escaped.isSome = true) :
    escapeMove e n router waited d = d := by
  simp [escapeMove, hp, h]

/-- A packet that has waited past the threshold moves to the escape channel, and is counted once. -/
theorem escapeMove_moves (hp : d.mesh.packets[n]? = some p) (hesc : p.escaped = none) (haway : p.away = false)
    (h : escapeAfter (fieldOf d (tileField router)) < waited) :
    (escapeMove e n router waited d).mesh.packets[n]? = some { p with escaped := some router } ∧
      (escapeMove e n router waited d).sum.escapes = d.sum.escapes + 1 := by
  have hmoved : (modifyAt (fun p => { p with escaped := some router }) d.mesh.packets n)[n]? =
      some { p with escaped := some router } := by
    rw [getElem?_modifyAt, hp]
    rfl
  have hno : ¬(p.escaped.isSome = true ∨ p.away = true ∨ waited ≤ escapeAfter (fieldOf d (tileField router))) := by
    simp [hesc, haway, h]
  simp only [escapeMove, hp, if_neg hno]
  split
  · rw [editField_mesh, editField_sum]
    exact ⟨hmoved, rfl⟩
  · rw [editTile_mesh, editTile_sum, editField_mesh, editField_sum]
    exact ⟨hmoved, rfl⟩

end

/-! ### Exchange records (R217, R218) -/

/-- A record's slot, map bit and count, written in that order where the map stands below the slot and the count below the map. -/
theorem recordWrites (m : Memory) {slot map cnt : Nat} (data : List Byte) (bit : Byte) (hmap : map < slot) (hcnt : cnt + 4 ≤ map) :
    let m1 := writeBytes m slot data
    let m2 := writeBytes m1 map [readByte m1 map ||| bit]
    let m3 := writeBytes m2 cnt (natLe 4 ((readW32 m2 cnt).toNat + 1))
    (∀ k < data.length, readByte m3 (slot + k) = data.getD k 0) ∧ readByte m3 map = readByte m map ||| bit ∧
      wordAt m3 cnt = (wordAt m cnt + 1) % 2 ^ 32 := by
  intro m1 m2 m3
  have hword : wordAt m2 cnt = wordAt m cnt :=
    (wordAt_writeBytes_of_out _ _ (.inl hcnt)).trans (wordAt_writeBytes_of_out _ _ (.inl (by omega)))
  refine ⟨fun k hk => ?_, ?_, ?_⟩
  · rw [readByte_writeBytes_of_out _ _ _ _ (by simp only [natLe_length]; omega),
      readByte_writeBytes_of_out _ _ _ _ (by simp only [List.length_singleton]; omega), readByte_writeBytes _ _ _ _ hk]
    exact List.getElem_eq_getD 0
  · rw [readByte_writeBytes_of_out _ _ _ _ (by simp only [natLe_length]; omega)]
    refine (readByte_writeBytes [_] m1 map 0 (by simp)).trans ?_
    exact congrArg (· ||| bit) (readByte_writeBytes_of_out _ _ _ _ (.inl hmap))
  · have hread := readBytes_writeBytes (natLe 4 ((readW32 m2 cnt).toNat + 1)) m2 cnt
    rw [natLe_length] at hread
    rw [wordAt_eq_leNat, hread, leNat_natLe, readW32_eq_wordAt, BitVec.toNat_ofNat, hword]
    omega

theorem placeRecord_store (x : XFlight) (b : W64) (t : Tile) :
    let c := xclassOf t x.record.cls.toNat
    let bit := x.rank * c.cap + x.index
    let slot := (c.base + b.toNat % 2 * c.senders * c.cap * c.slot + bit * c.slot) % 2 ^ 24
    let map := (c.map + b.toNat % 2 * (ceilDiv (c.senders * c.cap) 512 * 64) + bit / 8) % 2 ^ 24
    let cnt := (c.map - 8 + 4 * (b.toNat % 2)) % 2 ^ 24
    let m1 := writeBytes t.store slot x.record.data
    let m2 := writeBytes m1 map [readByte m1 map ||| BitVec.ofNat 8 (2 ^ (bit % 8))]
    (placeRecord x b t).store = writeBytes m2 cnt (natLe 4 ((readW32 m2 cnt).toNat + 1)) :=
  Tile.work_store (bump_work _ _ _)

/-- A record for a powered tile of its module, served at its router, is placed; past cycle 1,999 its field shows it. -/
theorem recordLand_placed {n cyc ix : Nat} {x : XFlight} {others : List Contender} (hx : d.mesh.xrecs[n]? = some x)
    (hb : x.beat = d.beat.count) (hown : physModule d x.record.module.toNat = (ownModule d).toNat)
    (hmap : physTile d x.record.row.toNat x.record.col.toNat = some ix) (hon : tileOn d ix = true)
    (hw : winsOver (look 0 d.mesh.served ix) ⟨inPort x.router (dimPath x.router ix), .record, false⟩ others = true) :
    ∃ d2, (recordLand e n cyc others d =
        if 1999 < cyc then editField e (tileField ix) (fieldInt · fbitXchgLate)
          (editTile e ix (fun _ u => placeRecord x x.beat u) d2)
        else editTile e ix (fun _ u => placeRecord x x.beat u) d2) ∧
      d2.mesh.xrecs = removeAt d.mesh.xrecs n ∧ ∀ j, (tileOf d2 j).work = (tileOf d j).work := by
  obtain ⟨sv, hsv⟩ := served_of_wins (d := { d with mesh := { d.mesh with xrecs := removeAt d.mesh.xrecs n } }) hw
  obtain ⟨ts, hts, hwork⟩ := countPath_eq (units64 x.record.data.length) false x.router (dimPath x.router ix)
    { d with mesh := { d.mesh with xrecs := removeAt d.mesh.xrecs n, served := sv } }
  have hpowered : ¬(tileOf d ix).tstate = .off := tstate_ne_off_of_tileOn hon
  have hnow : d.beat.count.ult d.beat.count = false := by simp [BitVec.ult]
  refine ⟨{ d with mesh := { d.mesh with xrecs := removeAt d.mesh.xrecs n, served := sv }, tiles := ts }, ?_, rfl, hwork⟩
  simp only [recordLand, hx, hb, hnow, hown, hmap, hsv, hts, hpowered, ne_eq, not_true_eq_false, decide_false,
    Bool.or_false, if_false, decide_eq_true_eq, Bool.false_eq_true]

/-! ### The commands -/

section
variable {n : Nat} {p : Packet} {u : Ureq} {hops : List Hop} {others : List Contender} {far : FarAnswer}

theorem packetArrive_request (hp : d.mesh.packets[n]? = some p) (haway : p.away = false) (hack : p.ack = none) :
    packetArrive e n hops others far d = requestArrive e n p hops others d := by
  simp [packetArrive, hp, haway, hack]

/-- A put's packet at its destination (R198). -/
theorem packetArrive_put {ix : Nat} {path : List Nat} (hp : s.sys.data.mesh.packets[n]? = some p) (haway : p.away = false)
    (hack : p.ack = none) (h : PutUnder s.sys.data p u) (hmap : physTile s.sys.data p.row p.col = some ix)
    (hpath : packetPath p.start ix p.escaped hops = some path)
    (hw : OutputServes s p.start path ix (if p.escaped.isSome then .escape else .adaptive) false others) :
    ∃ t a, exec (.unscheduledPacketArrive n hops others far) s = .next t ∧
      t.sys.data.mesh.packets = removeAt s.sys.data.mesh.packets n ++ [a] ∧
      a.tile = p.tile ∧ a.id = p.id ∧ a.len = p.len ∧ a.start = ix ∧
      ((tileIn s ix).tstate = .off ∨ (tileIn s ix).tstate = .reset →
        a.ack = some 3 ∧ (tileIn t ix).store = (tileIn s ix).store) ∧
      ((tileIn s ix).tstate ≠ .off → (tileIn s ix).tstate ≠ .reset → a.ack = some 0 ∧
        ∀ k < p.len, readByte (tileIn t ix).store (p.offset % 2 ^ 24 + k) =
          readByte (tileIn s p.tile).store (p.source % 2 ^ 24 + k)) := by
  obtain ⟨d1, hd, hpackets, hwork⟩ := requestArrive_mapped (e := envOf s.sys) (n := n) h hmap hpath hw
  obtain ⟨a, hq, htile, hid, hlen, hstart, hoff, hrun⟩ := packetWrite_writes (e := envOf s.sys) h.data ix
    (readBytes (tileOf s.sys.data p.tile).store (p.source % 2 ^ 24) p.len) d1
  rw [Tile.work_tstate (hwork ix)] at hoff hrun
  rw [Tile.work_store (hwork ix)] at hoff
  obtain ⟨t, ht, e⟩ : ∃ t, exec (.unscheduledPacketArrive n hops others far) s = .next t ∧ t.sys.data =
      packetWrite (envOf s.sys) p ix (readBytes (tileOf s.sys.data p.tile).store (p.source % 2 ^ 24) p.len) d1 :=
    ⟨_, exec_unscheduledPacketArrive .., (packetArrive_request hp haway hack).trans hd⟩
  refine ⟨t, a, ht, by rw [e, hq, hpackets], htile, hid, hlen, hstart, fun hn => ?_, fun ho hr => ?_⟩
  · rw [tileIn, e]
    exact hoff hn
  · obtain ⟨hack0, hbytes⟩ := hrun ho hr
    refine ⟨hack0, fun k hk => ?_⟩
    rw [tileIn, e, hbytes k (by simpa using hk), List.getD_eq_getElem _ _ (by simpa using hk), readBytes_getElem]
    rfl

theorem packetArrive_unmapped (hp : s.sys.data.mesh.packets[n]? = some p) (haway : p.away = false)
    (hack : p.ack = none) (h : PutUnder s.sys.data p u) (hmap : physTile s.sys.data p.row p.col = none) :
    ∃ t a, exec (.unscheduledPacketArrive n hops others far) s = .next t ∧
      (fieldIn t (tileField p.start)).intStatus.getLsbD 0 = true ∧
      t.sys.data.mesh.packets = removeAt s.sys.data.mesh.packets n ++ [a] ∧ a.tile = p.tile ∧ a.id = p.id ∧
      a.ack = some 2 := by
  obtain ⟨t, ht, e⟩ : ∃ t, exec (.unscheduledPacketArrive n hops others far) s = .next t ∧ t.sys.data =
      acknowledge p p.start 2 (editField (envOf s.sys) (tileField p.start) (fieldInt · fbitDestUnmapped)
        (withoutPacket n s.sys.data)) :=
    ⟨_, exec_unscheduledPacketArrive .., (packetArrive_request hp haway hack).trans (requestArrive_unmapped h hmap)⟩
  rw [acknowledge_of_own h.data] at e
  refine ⟨t, ackOf (editField (envOf s.sys) (tileField p.start) (fieldInt · fbitDestUnmapped) (withoutPacket n s.sys.data)) p
    p.start 2, ht, ?_, ?_, rfl, rfl, rfl⟩
  · rw [fieldIn, e]
    change (fieldOf (editField _ _ _ _) _).intStatus.getLsbD 0 = true
    rw [fieldOf_editField, if_pos rfl]
    exact fieldInt_getLsbD_self _ (by decide)
  · rw [e]
    change (editField _ _ _ _).mesh.packets ++ _ = _
    rw [editField_mesh]
    rfl

/-- An acknowledgement that takes a route to its transfer's engine ends its packet there (R198). -/
theorem packetArrive_acknowledged {st : BitVec 16} {path : List Nat} (hp : s.sys.data.mesh.packets[n]? = some p)
    (hu : (tileIn s p.tile).xfer.ureqs.find? (fun v => v.id = p.id) = some u) (haway : p.away = false) (hack : p.ack = some st)
    (hpath : packetPath p.start p.tile p.escaped hops = some path)
    (hw : OutputServes s p.start path p.tile (if p.escaped.isSome then .escape else .adaptive) true others) :
    ∃ t v, exec (.unscheduledPacketArrive n hops others far) s = .next t ∧
      t.sys.data.mesh.packets = removeAt s.sys.data.mesh.packets n ∧
      (tileIn t p.tile).xfer.ureqs.find? (fun v => v.id = p.id) = some v ∧ v.moved = u.moved + p.len ∧
      v.status = if u.status = 0 then st else u.status := by
  obtain ⟨sv, hsv⟩ := served_of_wins (d := withoutPacket n s.sys.data) hw
  obtain ⟨v, hv, hmoved, hstatus⟩ := packetDone_ureq (e := envOf s.sys) (p := p) (u := u)
    (d := { withoutPacket n s.sys.data with mesh := { (withoutPacket n s.sys.data).mesh with served := sv } }) st hu
  have hd : packetArrive (envOf s.sys) n hops others far s.sys.data = packetDone (envOf s.sys) p st
      { withoutPacket n s.sys.data with mesh := { (withoutPacket n s.sys.data).mesh with served := sv } } := by
    rw [withoutPacket] at hsv
    simp only [packetArrive, hp, haway, hack, hpath, hsv, Bool.false_eq_true, if_false, withoutPacket]
  refine ⟨_, v, exec_unscheduledPacketArrive .., ?_, ?_, hmoved, hstatus⟩
  · rw [State.setSys_sys, onData_data, hd, packetDone, editTile_mesh]
    rfl
  · rw [tileIn, State.setSys_sys, onData_data, hd]
    exact hv

theorem packetArrive_away (hp : s.sys.data.mesh.packets[n]? = some p)
    (hu : (tileIn s p.tile).xfer.ureqs.find? (fun v => v.id = p.id) = some u) (haway : p.away = true) :
    ∃ t v, exec (.unscheduledPacketArrive n hops others far) s = .next t ∧
      (tileIn t p.tile).xfer.ureqs.find? (fun v => v.id = p.id) = some v ∧ v.moved = u.moved + p.len ∧
      v.status = if u.status = 0 then far.status else u.status := by
  obtain ⟨v, hv, hends⟩ := packetDone_ureq (e := envOf s.sys) (p := p) (u := u) (d := withoutPacket n s.sys.data) far.status hu
  refine ⟨_, v, exec_unscheduledPacketArrive .., ?_, hends⟩
  have hd : packetArrive (envOf s.sys) n hops others far s.sys.data =
      packetDone (envOf s.sys) p far.status (withoutPacket n s.sys.data) := by
    simp only [packetArrive, hp, haway, if_true, withoutPacket]
  rw [tileIn, State.setSys_sys, onData_data, hd]
  exact hv

theorem escapeThreshold_eq (f : Field) : escapeAfter f = max 256 (f.routerCfg.toNat / 2 ^ 16 % 2 ^ 16) := by
  rw [escapeAfter, BitVec.extractLsb'_toNat, Nat.shiftRight_eq_div_pow]

theorem escapeMove_leavesAdaptive (router : TileIx) (waited : Nat) (hp : s.sys.data.mesh.packets[n]? = some p)
    (hesc : p.escaped = none) (haway : p.away = false) :
    let past := max 256 ((fieldIn s (tileField router)).routerCfg.toNat / 2 ^ 16 % 2 ^ 16)
    (past < waited → ∃ t, exec (.escapeMove n router waited) s = .next t ∧
      t.sys.data.mesh.packets[n]? = some { p with escaped := some router.val } ∧
      t.sys.data.sum.escapes = s.sys.data.sum.escapes + 1 ∧ exec (.escapeMove n router waited) t = .next t) ∧
    (waited ≤ past → exec (.escapeMove n router waited) s = .next s) := by
  intro past
  have hpast : escapeAfter (fieldOf s.sys.data (tileField router)) = past := escapeThreshold_eq _
  refine ⟨fun h => ?_, fun h => ?_⟩
  · obtain ⟨hmoved, hcount⟩ := escapeMove_moves (e := envOf s.sys) hp hesc haway (by rw [hpast]; exact h)
    obtain ⟨t, ht, e⟩ : ∃ t, exec (.escapeMove n router waited) s = .next t ∧
      t.sys.data = escapeMove (envOf s.sys) n router waited s.sys.data := ⟨_, exec_escapeMove .., rfl⟩
    rw [← e] at hmoved hcount
    refine ⟨t, ht, hmoved, hcount, ?_⟩
    rw [exec_escapeMove, onData_of_fixed (escapeMove_escaped hmoved rfl)]
  · rw [exec_escapeMove, onData_of_fixed (escapeMove_early hp (by rw [hpast]; exact h))]

end

theorem exchangeRecordLand_places {n cycle ix : Nat} {x : XFlight} {others : List Contender}
    (hx : s.sys.data.mesh.xrecs[n]? = some x) (hb : x.beat = s.sys.data.beat.count)
    (hown : physModule s.sys.data x.record.module.toNat = (ownModule s.sys.data).toNat)
    (hmap : physTile s.sys.data x.record.row.toNat x.record.col.toNat = some ix) (hon : tileOn s.sys.data ix = true)
    (hw : OutputServes s x.router (dimPath x.router ix) ix .record false others) :
    let c := xclassOf (tileIn s ix) x.record.cls.toNat
    let par := x.beat.toNat % 2
    let at_ := (c.base + par * c.senders * c.cap * c.slot + (x.rank * c.cap + x.index) * c.slot) % 2 ^ 24
    let map := (c.map + par * (ceilDiv (c.senders * c.cap) 512 * 64) + (x.rank * c.cap + x.index) / 8) % 2 ^ 24
    let cnt := (c.map - 8 + 4 * par) % 2 ^ 24
    map < at_ → cnt + 4 ≤ map →
    ∃ t, exec (.exchangeRecordLand n cycle others) s = .next t ∧
      t.sys.data.mesh.xrecs = removeAt s.sys.data.mesh.xrecs n ∧
      (∀ k < x.record.data.length, readByte (tileIn t ix).store (at_ + k) = x.record.data.getD k 0) ∧
      (readByte (tileIn t ix).store map).getLsbD ((x.rank * c.cap + x.index) % 8) = true ∧
      wordAt (tileIn t ix).store cnt = (wordAt (tileIn s ix).store cnt + 1) % 2 ^ 32 ∧
      (1999 < cycle → (fieldIn t (tileField ix)).intStatus.getLsbD 4 = true) := by
  intro c par at_ map cnt hmapAt hcntAt
  obtain ⟨d2, hd, hrecs, hwork⟩ := recordLand_placed (e := envOf s.sys) (cyc := cycle) hx hb hown hmap hon hw
  obtain ⟨t, ht, e⟩ : ∃ t, exec (.exchangeRecordLand n cycle others) s = .next t ∧ t.sys.data = _ :=
    ⟨_, exec_exchangeRecordLand .., hd⟩
  have htile : tileIn t ix = placeRecord x x.beat (tileOf d2 ix) := by
    rw [tileIn, e]
    split <;> simp only [tileOf, editField_tiles] <;> exact (tileOf_editTile ..).trans (if_pos rfl)
  have hclass : xclassOf (tileOf d2 ix) x.record.cls.toNat = c := xclassOf_congr (Tile.work_xfer (hwork ix)) _
  have hstore := placeRecord_store x x.beat (tileOf d2 ix)
  rw [hclass, Tile.work_store (hwork ix)] at hstore
  obtain ⟨hslot, hbit, hcount⟩ := recordWrites (tileOf s.sys.data ix).store x.record.data
    (BitVec.ofNat 8 (2 ^ ((x.rank * c.cap + x.index) % 8))) hmapAt hcntAt
  refine ⟨t, ht, ?_, ?_, ?_, ?_, fun hlate => ?_⟩
  · rw [e]
    split <;> simp only [editField_mesh, editTile_mesh, hrecs]
  · rw [htile, hstore]
    exact hslot
  · rw [htile, hstore, hbit, BitVec.getLsbD_or, BitVec.getLsbD_ofNat, Nat.testBit_two_pow_self]
    simp [Nat.mod_lt]
  · rw [htile, hstore]
    exact hcount
  · rw [fieldIn, e, if_pos hlate, fieldOf_editField, if_pos rfl]
    exact fieldInt_getLsbD_self _ (by decide)

/-- Settles O28: a packet by where it stands on its way, a record by the slot of its rank and index. -/
theorem packetsAndExchangeRecordsLand : Obligations.PacketsAndExchangeRecordsLand := by
  refine ⟨?packets, fun s n x cycle ix others hx hb hown hmap hon hw => exchangeRecordLand_places hx hb hown hmap hon hw⟩
  intro s n p u hops others far hp hu ch
  refine ⟨fun haway hack hdata hstatus hpoison hown => ?put, ?ack, ?away, ?escape⟩
  case put =>
    have h : PutUnder s.sys.data p u := ⟨hdata, hu, hstatus, hpoison, hown⟩
    exact ⟨fun ix path hmap hpath hw => packetArrive_put hp haway hack h hmap hpath hw,
      packetArrive_unmapped hp haway hack h⟩
  case ack => exact fun st path haway hack hpath hw => packetArrive_acknowledged hp hu haway hack hpath hw
  case away => exact packetArrive_away hp hu
  case escape => exact fun router waited hesc haway => escapeMove_leavesAdaptive router waited hp hesc haway

end Sys2Proof.Machine
end

section
/-!
SUPPORT. One offered cycle of a field's arbiter, and what the burst it grants leaves of the arbiter. Then requests, masks,
starvation and grants (O29).
-/

namespace Sys2Proof.Machine

-- As in the tests: one proof at a time, so that the whole text keeps within the threads that the memory holds.
set_option Elab.async false

variable {s t : State} {d : Data} {e : Env} {f : FieldIx}

/-! ### One offered cycle (R208) -/

theorem find?_eq_some_of_unique {α : Type} {l : List α} {p : α → Bool} {a : α} (ha : a ∈ l) (hp : p a = true)
    (hu : ∀ x, p x = true → x = a) : l.find? p = some a := by
  cases h : l.find? p with
  | none => exact absurd hp (by simpa using List.find?_eq_none.mp h a ha)
  | some x => rw [hu x (List.find?_some h)]

/-- A pass over the requesters' waits gives each the count it computes; nothing else changes. -/
def setWaits (w : Nat → Arb → Nat) (n : Nat) (a : Arb) : Arb :=
  repeatN (fun q x => { x with wait := put 0 x.wait q (BitVec.ofNat 32 (w q x)) }) n a

theorem setWaits_eq (w : Nat → Arb → Nat) (n : Nat) (a : Arb) : ∃ ws, setWaits w n a = { a with wait := ws } := by
  unfold setWaits
  induction n with
  | zero => exact ⟨a.wait, rfl⟩
  | succ n ih =>
    obtain ⟨ws, h⟩ := ih
    rw [repeatN, h]
    exact ⟨_, rfl⟩

theorem setWaits_zero {w : Nat → Arb → Nat} {k : Nat} (hw : ∀ x, w k x = 0) {n : Nat} (hk : k < n) (a : Arb) :
    look 0 (setWaits w n a).wait k = 0 := by
  induction n with
  | zero => exact absurd hk (by omega)
  | succ n ih =>
    rw [setWaits, repeatN]
    dsimp only
    rw [look_put]
    split
    · rename_i h
      rw [← h, hw]
      rfl
    · exact ih (by omega)

/-- An arbiter with one pending request, of a requester that is present and has credit left in its round (R208). -/
structure OneRequest (a : Arb) (r : StackReq) : Prop where
  pending : a.pending = [r]
  known : r.q < 24
  present : isPresent a r.q = true
  credit : 0 < look 0 a.credit r.q

theorem OneRequest.roundOver {a : Arb} {r : StackReq} (h : OneRequest a r) (hr : a.roundCycles < 1024) : roundOver a = false := by
  have hany : ((List.range 24).any fun q =>
      isPresent a q && decide (0 < look 0 a.credit q) && a.pending.any fun r => r.q == q) = true :=
    List.any_eq_true.mpr ⟨r.q, List.mem_range.mpr h.known, by simp [h.present, h.credit, h.pending]⟩
  have hround : (a.roundCycles == 1024) = false := by simpa using Nat.ne_of_lt hr
  rw [Machine.roundOver, hany, hround]
  rfl

/-- The class of the one request grants its requester, the others nobody. -/
theorem OneRequest.pickIn {a : Arb} {r : StackReq} (h : OneRequest a r) (cls : Nat) :
    pickIn a cls = if cls = reqClass a r then some r.q else none := by
  have hmem : r.q ∈ (List.range 24).map fun i => (look 0 a.ptr cls + i) % 24 := by
    refine List.mem_map.mpr ⟨(r.q + 24 - look 0 a.ptr cls % 24) % 24, List.mem_range.mpr (Nat.mod_lt _ (by decide)), ?_⟩
    have hq := h.known
    omega
  unfold Machine.pickIn
  split
  · rename_i hc
    exact find?_eq_some_of_unique hmem (by simp [h.present, h.credit, h.pending, hc])
      (fun q hq => by simp [h.pending] at hq; exact hq.2.1.symm)
  · rename_i hc
    refine List.find?_eq_none.mpr fun q _ hq => hc ?_
    simp [h.pending] at hq
    exact hq.2.2.symm

theorem OneRequest.pick {a : Arb} {r : StackReq} (h : OneRequest a r) : pick a = some (reqClass a r, r.q) := by
  have hcls : reqClass a r ≤ 2 := Nat.min_le_right ..
  have hcases : reqClass a r = 0 ∨ reqClass a r = 1 ∨ reqClass a r = 2 := by omega
  rw [Machine.pick]
  rcases hcases with hc | hc | hc <;> simp [List.findSome?, h.pickIn, hc]

/-- The arbiter once `r` is granted, before the waits move. -/
def Arb.paid (a : Arb) (r : StackReq) : Arb :=
  { a with
    roundCycles := a.roundCycles + 1
    credit := put 0 a.credit r.q (look 0 a.credit r.q - 1)
    ptr := put 0 a.ptr (reqClass a r) (if look 0 a.credit r.q - 1 = 0 then (r.q + 1) % 24 else r.q)
    pending := removeFirst (fun x => decide (x = r)) a.pending
    grants := upd 0 a.grants r.q (· + 1) }

/-- A requester's wait after a cycle that granted requester `g`. -/
def waitAfter (a : Arb) (g q : Nat) (x : Arb) : Nat :=
  if !(isPresent a q && a.pending.any fun r => r.q == q) || g == q then 0
  else if ((arbReq x q).extractLsb' 32 32).toNat ≠ 0 ∧ ((arbReq x q).extractLsb' 32 32).toNat ≤ (look 0 x.wait q).toNat + 1 then
    ((arbReq x q).extractLsb' 32 32).toNat
  else (look 0 x.wait q).toNat + 1

theorem OneRequest.arbCycle {a : Arb} {r : StackReq} (h : OneRequest a r) (hr : a.roundCycles < 1024) :
    arbCycle a = (setWaits (waitAfter a r.q) 24 (a.paid r), some r) := by
  have hnext : OneRequest { a with roundCycles := a.roundCycles + 1 } r := ⟨h.pending, h.known, h.present, h.credit⟩
  have hfound : a.pending.find? (fun x => x.q == r.q && reqClass { a with roundCycles := a.roundCycles + 1 } x ==
      reqClass { a with roundCycles := a.roundCycles + 1 } r) = some r := by simp [h.pending]
  simp only [Machine.arbCycle, h.roundOver hr, hnext.pick, hfound, Bool.false_eq_true, if_false, Option.map_some]
  rfl

/-- The offered cycle grants the one request: its requester pays a credit, is counted, and waits no longer. -/
theorem OneRequest.granted {a : Arb} {r : StackReq} (h : OneRequest a r) (hr : a.roundCycles < 1024) :
    (Machine.arbCycle a).2 = some r ∧ (Machine.arbCycle a).1.pending = [] ∧
      look 0 (Machine.arbCycle a).1.grants r.q = look 0 a.grants r.q + 1 ∧
      look 0 (Machine.arbCycle a).1.credit r.q + 1 = look 0 a.credit r.q ∧ look 0 (Machine.arbCycle a).1.wait r.q = 0 := by
  have hwait := setWaits_zero (w := waitAfter a r.q) (k := r.q) (fun x => by simp [waitAfter]) h.known (a.paid r)
  obtain ⟨ws, hws⟩ := setWaits_eq (waitAfter a r.q) 24 (a.paid r)
  rw [h.arbCycle hr]
  refine ⟨rfl, ?_, ?_, ?_, hwait⟩ <;> rw [hws]
  · simp [Arb.paid, h.pending, removeFirst]
  · exact look_upd_self 0 a.grants r.q (· + 1)
  · have hcredit := h.credit
    simp only [Arb.paid, look_put_self]
    omega

/-! ### The burst moves -/

theorem countChannel_arb (ch : Nat) (g : Field) : (countChannel ch g).arb = g.arb := rfl

theorem countStackRead_arb (found : StackFound) (x : Nat) (g : Field) : (countStackRead found x g).arb = g.arb := by
  have hfold (l : List Nat) (g : Field) : (l.foldl (fun g ch => countChannel ch g) g).arb = g.arb := by
    induction l generalizing g with
    | nil => rfl
    | cons ch l ih => exact ih _
  simp only [countStackRead]
  split <;> split <;> first | rfl | exact hfold _ _

@[simp] theorem fieldOf_editTile (e : Env) (ix n : Nat) (g : Ctx → Tile → Tile) (d : Data) :
    fieldOf (editTile e ix g d) n = fieldOf d n := by
  simp only [fieldOf, editTile_fields]

/-- A granted burst moves its data and leaves the arbiter, but for the data handed to a reader. -/
theorem moveBurst_arb (e : Env) (f : Nat) (r : StackReq) (found : StackFound) (d : Data) :
    ∃ out, (fieldOf (moveBurst e f r found d) f).arb = { (fieldOf d f).arb with out := out } ∧
      (∀ bs, r.what = .put bs → (fieldOf (moveBurst e f r found d) f).mem = writeBytes (fieldOf d f).mem r.addr bs) ∧
      (r.what = .get → out = some (r.q, readBytes (fieldOf d f).mem r.addr r.len)) := by
  have hstack (n : Nat) (d : Data) : fieldOf (countStack f n d) f = fieldOf d f := rfl
  have hport (ix p n : Nat) (sched : Bool) (d : Data) : fieldOf (portAt d ix p n sched) f = fieldOf d f := rfl
  have hsum (d : Data) (m : Summary) : fieldOf { d with sum := m } f = fieldOf d f := rfl
  unfold moveBurst
  cases hwhat : r.what with
  | put bs =>
    refine ⟨(fieldOf d f).arb.out, ?_, fun bs' h => ?_, fun h => by simp at h⟩
    · simp only [fieldOf_editField, if_true, hstack]
    · cases h
      simp only [fieldOf_editField, if_true, hstack]
  | get =>
    refine ⟨some (r.q, readBytes (fieldOf d f).mem r.addr r.len), ?_, fun bs' h => by simp at h, fun _ => rfl⟩
    rw [hsum, fieldOf_editField, if_pos rfl, countStackRead_arb, hstack]
  | tileXfer ix id off =>
    refine ⟨(fieldOf d f).arb.out, ?_, fun bs' h => by simp at h, fun h => by simp at h⟩
    dsimp only
    split
    · rfl
    · split
      · split
        · simp only [fieldOf_editTile, hport, hstack]
        · simp only [fieldOf_editTile, fieldOf_editField, if_true, hport, hstack]
      · rw [fieldOf_editTile, hsum, fieldOf_editField, if_pos rfl, countStackRead_arb, hport, hstack]

/-! ### The commands -/

/-- In a cycle that may be offered, the one request is granted and moves (R203, R208). -/
theorem stackBurstGrant_grants {r : StackReq} {cycle : Nat} {found : StackFound} (h : OneRequest (fieldIn s f).arb r)
    (hcycle : cycle < 1920 ∨ 2000 ≤ cycle) (hrefresh : (fieldIn s f).arb.refresh = false)
    (htrain : (fieldIn s f).train = .ready) (hround : (fieldIn s f).arb.roundCycles < 1024) :
    ∃ t, exec (.stackBurstGrant f cycle found) s = .next t ∧ (fieldIn t f).arb.pending = [] ∧
      look 0 (fieldIn t f).arb.grants r.q = look 0 (fieldIn s f).arb.grants r.q + 1 ∧
      look 0 (fieldIn t f).arb.credit r.q + 1 = look 0 (fieldIn s f).arb.credit r.q ∧
      look 0 (fieldIn t f).arb.wait r.q = 0 ∧
      (∀ bs, r.what = .put bs → ∀ k < bs.length, readByte (fieldIn t f).mem (r.addr + k) = bs.getD k 0) ∧
      (r.what = .get → (fieldIn t f).arb.out = some (r.q, readBytes (fieldIn s f).mem r.addr r.len)) := by
  rw [fieldIn] at h hrefresh htrain hround
  obtain ⟨hg, hpending, hgrants, hcredit, hwait⟩ := h.granted hround
  have hoffered : ¬(refreshing cycle = true ∨ ((fieldOf s.sys.data f).arb.refresh = true ∧ cycle < 2000) ∨
      (fieldOf s.sys.data f).train ≠ .ready) := by
    simp only [refreshing, Bool.and_eq_true, decide_eq_true_eq, hrefresh, htrain, Bool.false_eq_true, false_and, ne_eq,
      not_true_eq_false, or_false]
    omega
  let d1 := editField (envOf s.sys) f (fun x => { x with arb := (arbCycle (fieldOf s.sys.data f).arb).1 }) s.sys.data
  have hfield : fieldOf d1 f = { fieldOf s.sys.data f with arb := (arbCycle (fieldOf s.sys.data f).arb).1 } := by
    rw [fieldOf_editField, if_pos rfl]
  obtain ⟨t, ht, e⟩ : ∃ t, exec (.stackBurstGrant f cycle found) s = .next t ∧
      t.sys.data = moveBurst (envOf s.sys) f r found d1 := by
    refine ⟨_, exec_stackBurstGrant .., ?_⟩
    simp only [onData_data, stackGrant, if_neg hoffered, hg]
    rfl
  obtain ⟨out, harb, hput, hget⟩ := moveBurst_arb (envOf s.sys) f r found d1
  rw [← e, hfield] at harb hput
  rw [hfield] at hget
  refine ⟨t, ht, ?_, ?_, ?_, ?_, fun bs hbs k hk => ?_, fun hr => ?_⟩
  · rw [fieldIn, harb]
    exact hpending
  · rw [fieldIn, harb]
    exact hgrants
  · rw [fieldIn, harb]
    exact hcredit
  · rw [fieldIn, harb]
    exact hwait
  · rw [fieldIn, hput bs hbs, readByte_writeBytes _ _ _ _ hk]
    exact List.getElem_eq_getD 0
  · rw [fieldIn, harb]
    exact hget hr

/-- Nothing is granted in the refresh cycles, in the refresh window, or before training ends. -/
theorem exec_stackBurstGrant_of_closed {cycle : Nat} {found : StackFound}
    (h : (1920 ≤ cycle ∧ cycle ≤ 1999) ∨ ((fieldIn s f).arb.refresh = true ∧ cycle < 2000) ∨ (fieldIn s f).train ≠ .ready) :
    exec (.stackBurstGrant f cycle found) s = .next s := by
  rw [exec_stackBurstGrant, onData_of_fixed]
  rw [fieldIn] at h
  exact if_pos (by simpa [refreshing] using h)

theorem arbThreshold_eq (a : Arb) (q : Nat) : ((arbReq a q).extractLsb' 32 32).toNat = (arbReq a q).toNat / 2 ^ 32 := by
  rw [BitVec.extractLsb'_toNat, Nat.shiftRight_eq_div_pow]
  exact Nat.mod_eq_of_lt (Nat.div_lt_of_lt_mul (arbReq a q).isLt)

/-- A requester that is not present is not marked. -/
theorem arbStarve_absent {q : Nat} {g : Field} (h : isPresent g.arb q = false) : arbStarve q g = g := by
  simp [arbStarve, h]

theorem fieldInt_arb (g : Field) (i : Nat) : (fieldInt g i).arb = g.arb := rfl

/-- A masked requester is present no more, waits for nothing, and its field shows the discard. -/
theorem arbMask_masks {q : Nat} {g : Field} (hq : q < 64) (h : isPresent g.arb q = true) :
    isPresent (arbMask q g).arb q = false ∧ (∀ r ∈ (arbMask q g).arb.pending, r.q ≠ q) ∧
      (arbMask q g).intStatus.getLsbD 5 = true ∧ look 0 (arbMask q g).arb.wait q = 0 ∧ (arbMask q g).on = g.on := by
  simp only [arbMask, h, Bool.not_true, Bool.false_eq_true, if_false]
  refine ⟨?_, fun r hr => ?_, fieldInt_getLsbD_self _ (by decide), ?_, rfl⟩
  · simp [fieldInt_arb, isPresent, bit64, hq]
  · simpa using (List.mem_filter.mp hr).2
  · rw [fieldInt_arb]
    exact look_put_self 0 g.arb.wait q 0

theorem arbRequesterMask_masks (q : Fin 24) (hon : (fieldIn s f).on = true) (h : isPresent (fieldIn s f).arb q = true) :
    ∃ t, exec (.arbRequesterMask f q) s = .next t ∧ isPresent (fieldIn t f).arb q = false ∧
      (∀ r ∈ (fieldIn t f).arb.pending, r.q ≠ q.val) ∧ (fieldIn t f).intStatus.getLsbD 5 = true ∧
      look 0 (fieldIn t f).arb.wait q = 0 ∧ ∃ u, exec (.arbStarve f q) t = .next u ∧ fieldIn u f = fieldIn t f := by
  obtain ⟨t, ht, e⟩ := exec_editsField hon (exec_arbRequesterMask s f q)
  obtain ⟨habsent, hpending, hflag, hwait, hstays⟩ := arbMask_masks (by omega : q.val < 64) h
  rw [← e] at habsent hpending hflag hwait hstays
  obtain ⟨u, hu, eu⟩ := exec_editsField (hstays.trans hon) (exec_arbStarve t f q)
  exact ⟨t, ht, habsent, hpending, hflag, hwait, u, hu, eu.trans (arbStarve_absent habsent)⟩

theorem arbStarve_marks (q : Fin 24) (hon : (fieldIn s f).on = true) (h : isPresent (fieldIn s f).arb q = true)
    (hth : 0 < (arbReq (fieldIn s f).arb q).toNat / 2 ^ 32)
    (hw : (arbReq (fieldIn s f).arb q).toNat / 2 ^ 32 ≤ (look 0 (fieldIn s f).arb.wait q).toNat) :
    ∃ t, exec (.arbStarve f q) s = .next t ∧ (fieldIn t f).arb.starve.getLsbD q = true ∧
      (fieldIn t f).intStatus.getLsbD 6 = true := by
  obtain ⟨t, ht, e⟩ := exec_editsField hon (exec_arbStarve s f q)
  rw [arbStarve, arbThreshold_eq, if_pos ⟨h, Nat.ne_of_gt hth, hw⟩] at e
  refine ⟨t, ht, ?_, ?_⟩ <;> rw [e]
  · simp [fieldInt_arb, bit64, (by omega : q.val < 64)]
  · exact fieldInt_getLsbD_self _ (by decide)

theorem arbRequesterUnmask_presents (q : Fin 24) (hon : (fieldIn s f).on = true) (h : isPresent (fieldIn s f).arb q = false)
    (hedge : q.val ≠ 23 ∨ isEdgeField f = true) :
    ∃ t, exec (.arbRequesterUnmask f q) s = .next t ∧ isPresent (fieldIn t f).arb q = true := by
  obtain ⟨t, ht, e⟩ := exec_editsField hon (exec_arbRequesterUnmask s f q)
  have hmay : ¬((!(fieldIn s f).on) = true ∨ 24 ≤ q.val ∨ (q.val = 23 ∧ (!isEdgeField f) = true) ∨
      isPresent (fieldIn s f).arb q = true) := by
    rw [hon, h]
    rcases hedge with hne | hedge
    · simp [hne, q.isLt]
    · simp [hedge, q.isLt]
  rw [arbUnmask, if_neg hmay] at e
  refine ⟨t, ht, ?_⟩
  rw [e]
  simp [isPresent, bit64, (by omega : q.val < 64)]

theorem stackRequest_other {r : StackReq} (hon : (fieldIn s f).on = true) (hp : isPresent (fieldIn s f).arb r.q = true)
    (hb : burstOk (fieldIn s f) r = true) :
    ∃ t, exec (.stackRequest (.other f r)) s = .next t ∧ (fieldIn t f).arb.pending = (fieldIn s f).arb.pending ++ [r] := by
  refine ⟨_, exec_stackRequest .., ?_⟩
  rw [fieldIn] at hon hp hb
  simp only [fieldIn, askStack, hon, hp, and_self, if_true, onData_data, otherRequest, hb, fieldOf_editField]

/-- The next burst of a stack transfer that is not done: within one 2 KiB block, and within what is left (R208). -/
theorem nextBurst_of_asking {u : Ureq} (ix : Nat) (hk : u.kind = 1 ∨ u.kind = 2) (hst : u.status ≠ 1) (hlen : u.asked < u.len) :
    ∃ r, nextBurst ix u = some r ∧ r.q = tileLocal ix ∧ r.cls = u.cls.toNat ∧ (r.write = true ↔ u.kind = 2) ∧ 0 < r.len ∧
      r.len ≤ u.len - u.asked ∧ r.addr % 2048 + r.len ≤ 2048 := by
  have hgo : ¬(u.status = 1 ∨ u.len ≤ u.asked ∨ (u.kind.toNat ≠ 1 ∧ u.kind.toNat ≠ 2)) := by
    have hkind : ¬(u.kind.toNat ≠ 1 ∧ u.kind.toNat ≠ 2) := by rcases hk with h | h <;> simp [h]
    rintro (h | h | h)
    · exact hst h
    · omega
    · exact hkind h
  rw [nextBurst, if_neg hgo]
  refine ⟨_, rfl, rfl, rfl, ?_, ?_, ?_, ?_⟩
  · rcases hk with h | h <;> simp [h]
  all_goals dsimp only; omega

theorem stackRequest_tile {ix : TileIx} {id : Fin 16} {u : Ureq} (hon : tileOn s.sys.data ix = true)
    (hu : (tileIn s ix).xfer.ureqs.find? (fun v => v.id = id.val) = some u) (hk : u.kind = 1 ∨ u.kind = 2)
    (hst : u.status ≠ 1) (hlen : u.asked < u.len)
    (hp : isPresent (fieldIn s (tileField ix)).arb (tileLocal ix) = true) :
    ∃ t r, exec (.stackRequest (.tile ix id)) s = .next t ∧
      (fieldIn t (tileField ix)).arb.pending = (fieldIn s (tileField ix)).arb.pending ++ [r] ∧ r.q = tileLocal ix ∧
      r.cls = u.cls.toNat ∧ (r.write = true ↔ u.kind = 2) ∧ 0 < r.len ∧ r.len ≤ u.len - u.asked ∧
      r.addr % 2048 + r.len ≤ 2048 ∧
      ∃ v, (tileIn t ix).xfer.ureqs.find? (fun v => v.id = id.val) = some v ∧ v.asked = u.asked + r.len := by
  obtain ⟨r, hr, hq, hcls, hwrite, hpos, hle, hblock⟩ := nextBurst_of_asking ix hk hst hlen
  let g (u : Ureq) : Ureq := { u with asked := u.asked + r.len }
  rw [tileIn] at hu
  rw [fieldIn] at hp
  obtain ⟨t, ht, e⟩ : ∃ t, exec (.stackRequest (.tile ix id)) s = .next t ∧
      t.sys.data = editField (envOf s.sys) (tileField ix)
        (fun f => { f with arb := { f.arb with pending := f.arb.pending ++ [r] } })
        (editTile (envOf s.sys) ix (fun _ t => onUreq id g t) s.sys.data) := by
    refine ⟨_, exec_stackRequest .., ?_⟩
    rw [isPresent] at hp
    simp only [askStack, hon, if_true, onData_data, tileRequest, hu, hr, hp, Bool.not_true, Bool.false_eq_true, if_false]
    rfl
  refine ⟨t, r, ht, ?_, hq, hcls, hwrite, hpos, hle, hblock, g u, ?_, rfl⟩
  · rw [fieldIn, e, fieldOf_editField, if_pos rfl, fieldOf_editTile]
    rfl
  · rw [tileIn, e, tileOf, editField_tiles]
    change (tileOf (editTile _ _ _ _) ix).xfer.ureqs.find? _ = _
    rw [tileOf_editTile, if_pos rfl]
    exact onUreq_find (g := g) (fun _ => rfl) hu

/-- Settles O29: requests wait, masked requesters lose them, and an offered cycle grants the one that stands. -/
theorem arbiterServesItsRequests : Obligations.ArbiterServesItsRequests := by
  refine ⟨⟨fun s ix id u hon hu hk hst hlen hp => stackRequest_tile hon hu hk hst hlen hp, fun s f hon => ⟨?other, ?mask, ?unmask⟩⟩,
    fun s f cycle found => ⟨?grant, exec_stackBurstGrant_of_closed, ?refresh⟩⟩
  case other => exact fun r hp hb => stackRequest_other hon hp hb
  case mask => exact fun q hp => ⟨arbRequesterMask_masks q hon hp, arbStarve_marks q hon hp⟩
  case unmask => exact fun q hp hedge => arbRequesterUnmask_presents q hon hp hedge
  case grant =>
    exact fun r hpend hq hp hcycle hrefresh htrain hcredit hround =>
      stackBurstGrant_grants ⟨hpend, hq, hp, hcredit⟩ hcycle hrefresh htrain hround
  case refresh =>
    intro hon
    obtain ⟨t, ht, e⟩ := exec_editsField hon (exec_stackRefreshWindow s f)
    exact ⟨t, ht, by rw [e]; rfl⟩

end Sys2Proof.Machine
end

section
/-!
SUPPORT. What a boundary's parts leave of the beat generator's clock: the tick, the cumulative stretch, the beat count and the
declared fault. Then boundaries and step switches, and the joints J1 and J4 (O32, O33).
-/

namespace Sys2Proof.Machine

-- As in the tests: one proof at a time, so that the whole text keeps within the threads that the memory holds.
set_option Elab.async false

variable {s t : State} {d : Data} {e : Env}

/-! ### The clock of the beat generator -/

/-- The tick, the cumulative stretch, the beat count and the declared fault, with the system's description. -/
def Data.clock (d : Data) : W64 × W32 × W64 × Option (BitVec 8) × Option SysDesc :=
  (d.beat.tick, d.beat.cstretch, d.beat.count, d.beat.fault, d.desc)

theorem inSystem_congr {x y : Data} (h : x.clock = y.clock) : inSystem x = inSystem y := by
  have hdesc : x.desc = y.desc := congrArg (fun c => c.2.2.2.2) h
  rw [inSystem, inSystem, sysSize, sysSize, hdesc]

/-- The beat generator whole, with the system's description: what tiles, fields and events leave. -/
def Data.beating (d : Data) : BeatGen × Option SysDesc := (d.beat, d.desc)

theorem clock_of_beating {x y : Data} (h : x.beating = y.beating) : x.clock = y.clock := by
  obtain ⟨hb, hd⟩ := Prod.mk.injEq .. ▸ h
  rw [Data.clock, Data.clock, hb, hd]

@[simp] theorem setTile_beating (e : Env) (ix : Nat) (t : Tile) (d : Data) : (setTile e ix t d).beating = d.beating := by
  simp only [setTile]
  split <;> rfl

@[simp] theorem setField_beating (e : Env) (n : Nat) (g : Field) (d : Data) : (setField e n g d).beating = d.beating := by
  simp only [setField]
  split <;> rfl

@[simp] theorem editTile_beating (e : Env) (ix : Nat) (g : Ctx → Tile → Tile) (d : Data) :
    (editTile e ix g d).beating = d.beating := setTile_beating ..

@[simp] theorem applyEff_beating (e : Env) (ix : Nat) (old new : Tile) (x : Eff) (d : Data) :
    (applyEff e ix old new x d).beating = d.beating := by
  simp only [applyEff]
  split
  · rfl
  · exact setField_beating ..

@[simp] theorem onTile_beating (e : Env) (ix : Nat) (g : Ctx → Tile → Tile × Eff) (d : Data) :
    (onTile e ix g d).beating = d.beating := by
  simp [onTile]

theorem foldl_beating {α : Type} {f : Data → α → Data} (hf : ∀ x a, (f x a).beating = x.beating) (l : List α) (d : Data) :
    (l.foldl f d).beating = d.beating := by
  induction l generalizing d with
  | nil => rfl
  | cons a l ih => exact (ih _).trans (hf _ _)

@[simp] theorem editTiles_beating (e : Env) (g : Nat → Ctx → Tile → Tile) (d : Data) :
    (editTiles e g d).beating = d.beating := foldl_beating (fun _ _ => editTile_beating ..) _ _

@[simp] theorem followAll_beating (e : Env) (d : Data) : (followAll e d).beating = d.beating := by
  refine foldl_beating (fun x p => ?_) _ _
  unfold followPresent
  split
  · rfl
  · exact setField_beating ..

@[simp] theorem tilesNext_beating (e : Env) (adv : Bool) (d : Data) : (tilesNext e adv d).beating = d.beating := by
  unfold tilesNext
  split
  · refine (foldl_beating (fun x p => ?_) _ _).trans (editTiles_beating ..)
    split
    · exact onTile_beating ..
    · rfl
  · exact editTiles_beating ..

/-! ### What the parts of a boundary leave -/

theorem stopRun_clock (e : Env) (d : Data) : (stopRun e d).clock = d.clock :=
  clock_of_beating (x := followAll e _) ((followAll_beating ..).trans (editTiles_beating ..))

theorem actOrder_clock (e : Env) (d : Data) : (actOrder e d).clock = d.clock := by
  unfold actOrder
  dsimp only
  split
  · exact stopRun_clock ..
  · repeat' split
    all_goals rfl

theorem raiseMismatch_clock (e : Env) (d : Data) : (raiseMismatch e d).clock = d.clock := by
  unfold raiseMismatch
  repeat' split
  all_goals rfl

theorem orders_clock (e : Env) (t : Nat) (d : Data) : (orders e t d).clock = d.clock := by
  unfold orders
  split
  · exact actOrder_clock ..
  · exact raiseMismatch_clock ..

theorem turnPoint_clock (e : Env) (executed : Bool) (d : Data) : (turnPoint e executed d).clock = d.clock := by
  unfold turnPoint
  repeat' split
  all_goals rfl

/-- The beats resolved: the clock stands, and with a fault declared beats do not advance. -/
theorem resolveBeats_clock (e : Env) (executed : Bool) (t : Nat) (d : Data) :
    (resolveBeats e executed t d).clock = d.clock ∧
      (d.beat.fault.isSome = true → (resolveBeats e executed t d).beat.advancing = false) := by
  have hnext (adv : Bool) (x : Data) : (tilesNext e adv x).beat = x.beat := congrArg Prod.fst (tilesNext_beating e adv x)
  unfold resolveBeats
  refine ⟨?_, fun hf => ?_⟩
  · refine (clock_of_beating (tilesNext_beating ..)).trans ?_
    repeat' split
    all_goals rfl
  · have hnone : d.beat.fault.isNone = false := by simpa using hf
    rw [hnext]
    repeat' split
    all_goals simp [evHoldEnd, evHoldStart, raiseData, hnone]

theorem stepSchedule_keeps (t want : Nat) (g : BeatGen) :
    (stepSchedule t want g).tick = g.tick ∧ (stepSchedule t want g).cstretch = g.cstretch ∧
      (stepSchedule t want g).count = g.count ∧ (stepSchedule t want g).fault = g.fault ∧
      (stepSchedule t want g).advancing = g.advancing := by
  unfold stepSchedule
  dsimp only
  repeat' split
  all_goals exact ⟨rfl, rfl, rfl, rfl, rfl⟩

theorem evalSteps_clock (e : Env) (t : Nat) (d : Data) :
    (evalSteps e t d).clock = d.clock ∧ (evalSteps e t d).beat.advancing = d.beat.advancing := by
  unfold evalSteps
  split
  · exact ⟨rfl, rfl⟩
  · rename_i want m _
    obtain ⟨htick, hstretch, hcount, hfault, hadv⟩ := stepSchedule_keeps t want d.beat
    dsimp only
    split <;> simp [Data.clock, evGovernor, raiseData, htick, hstretch, hcount, hfault, hadv]

theorem stampJ1_clock (t : W64) (d : Data) : (stampJ1 t d).clock = d.clock := by
  unfold stampJ1 knowOwn
  repeat' split
  all_goals rfl

theorem closeTick_clock (e : Env) (k : Nat) (d : Data) :
    (closeTick e k d).clock = (d.beat.tick + 1, d.beat.cstretch + BitVec.ofNat 32 k,
      (if d.beat.advancing then d.beat.count + 1 else d.beat.count), d.beat.fault, d.desc) := by
  have hbeating := editTiles_beating e (fun _ _ t =>
    let t1 := windowBoundary (d.beat.tick + 1) (tileClose d.beat.advancing (2000 + k) t)
    let t2 := { t1 with seq := { t1.seq with cycle := 0 } }
    if d.beat.advancing then tileBeatEnd t2 else t2) (sumClose (2000 + k) d)
  have hfault := congrArg (fun x : BeatGen × Option SysDesc => x.1.fault) hbeating
  have hdesc := congrArg (fun x : BeatGen × Option SysDesc => x.2) hbeating
  have hcount : d.beat.count + BitVec.ofNat 64 (b2n d.beat.advancing) =
      if d.beat.advancing then d.beat.count + 1 else d.beat.count := by cases d.beat.advancing <;> simp [b2n]
  simp only [Data.clock, closeTick, Prod.mk.injEq, hcount, true_and]
  exact ⟨hfault, hdesc⟩

/-- Without markers no engine is upstream: the tick neither moves nor is steered. -/
theorem upstream_of_noMarkers (hm : d.plumb.markers = []) (t : W64) : upstream d t = none := by
  have hnone (l : List Nat) : l.foldl (fun b i =>
      match look none d.plumb.markers i with
      | some m =>
        if m.at_ = t ∧ m.hop < 31 ∧ (engineOf d i).state = .up ∧ some m.root = d.plumb.root then
          match b with
          | some (_, x) => if m.hop < x.hop then some (i, m) else b
          | none => some (i, m)
        else b
      | none => b) (none : Option (Nat × MarkerIn)) = none := by
    induction l with
    | nil => rfl
    | cons i l ih => simp [hm]
  exact hnone _

theorem steer_of_noMarkers (hm : d.plumb.markers = []) (ovr : Bool) : steer e ovr (syncTick d) = d := by
  have hsync : syncTick d = d := by
    simp only [syncTick, upstream_of_noMarkers hm]
    split <;> rfl
  simp only [hsync, steer, upstream_of_noMarkers hm]

/-- The data plane once the tick has closed and a due fault is declared. -/
def faultsDeclared (e : Env) (ovr : Bool) (k : Nat) (d : Data) : Data :=
  let d1 := stampJ1 d.beat.tick (closeTick e k d)
  match faultDue ovr d with
  | some c => if c = 2 ∧ !d1.beat.run then clearReports d1 else declareFault e c d.beat.tick (clearReports d1)
  | none => d1

/-- The clock after the tick has closed; a fault is declared over none. -/
theorem faultsDeclared_clock (e : Env) (ovr : Bool) (k : Nat) (d : Data) :
    ∃ fault, (faultsDeclared e ovr k d).clock = (d.beat.tick + 1, d.beat.cstretch + BitVec.ofNat 32 k,
      (if d.beat.advancing then d.beat.count + 1 else d.beat.count), fault, d.desc) ∧
      ∀ c, faultDue ovr d = some c → c ≠ 2 → d.beat.fault = none → fault = some c := by
  have hclosed := (stampJ1_clock d.beat.tick (closeTick e k d)).trans (closeTick_clock e k d)
  have hfault : (stampJ1 d.beat.tick (closeTick e k d)).beat.fault = d.beat.fault := congrArg (fun c => c.2.2.2.1) hclosed
  unfold faultsDeclared
  dsimp only
  split
  · rename_i c hdue
    split
    · rename_i h2
      exact ⟨_, hclosed, fun c' hc hne => absurd (Option.some.inj (hdue.symm.trans hc) ▸ h2.1) hne⟩
    · unfold declareFault
      split
      · rename_i hsome
        refine ⟨_, hclosed, fun c' _ _ hnone => ?_⟩
        have hsome : (stampJ1 d.beat.tick (closeTick e k d)).beat.fault.isSome = true := hsome
        rw [hfault, hnone] at hsome
        cases hsome
      · refine ⟨some c, ?_, fun c' hc _ _ => hdue.symm.trans hc⟩
        have hrest := congrArg (fun c : W64 × W32 × W64 × Option (BitVec 8) × Option SysDesc => (c.1, c.2.1, c.2.2.1, c.2.2.2.2)) hclosed
        simp only [Data.clock, Prod.mk.injEq] at hrest ⊢
        obtain ⟨ht, hk, hc, hd⟩ := hrest
        exact ⟨ht, hk, hc, rfl, hd⟩
  · rename_i hdue
    exact ⟨_, hclosed, fun c hc => absurd (hdue.symm.trans hc) (by simp)⟩

/-- The boundary once faults are declared: other members' faults, orders, turn points, beats, election and steps. -/
def boundaryGoesOn (e : Env) (t : W64) (ex : Bool) (d2 : Data) : Data :=
  let d3 := match remoteFault d2 t.toNat with
    | some w => if d2.beat.faultShown then d2 else
        evBeatFault e w.origin w.cause w.stamp { d2 with beat := { d2.beat with faultShown := true, advancing := false } }
    | none => d2
  let d6 := resolveBeats e ex t.toNat (turnPoint e ex (orders e t.toNat d3))
  let d7 := elect e d6
  if electionDue d6 then sendMarkers (if d7.plumb.synced then -1 else t) d7
  else if inSystem d7 ∧ d7.plumb.assembled ∧ !d7.plumb.synced then sendMarkers t d7
  else evalSteps e t.toNat (sendMarkers t d7)

theorem boundary_of_noMarkers (ovr : Bool) (k : Nat) (hm : d.plumb.markers = []) :
    boundary e ovr k d = boundaryGoesOn e d.beat.tick d.beat.advancing (faultsDeclared e ovr k d) := by
  unfold boundary
  rw [steer_of_noMarkers hm]
  rfl

/-- A module alone hears no other member, elects no root and sends no marker. -/
theorem boundaryGoesOn_alone (t : W64) (ex : Bool) (hs : inSystem d = false) :
    boundaryGoesOn e t ex d = evalSteps e t.toNat (resolveBeats e ex t.toNat (turnPoint e ex (orders e t.toNat d))) := by
  have hremote : remoteFault d t.toNat = none := by simp [remoteFault, hs]
  have hs6 : inSystem (resolveBeats e ex t.toNat (turnPoint e ex (orders e t.toNat d))) = false :=
    (inSystem_congr ((resolveBeats_clock ..).1.trans ((turnPoint_clock ..).trans (orders_clock ..)))).trans hs
  simp only [boundaryGoesOn, hremote, electionDue, elect, sendMarkers, hs6, Bool.false_and, Bool.false_eq_true, Bool.not_false,
    true_or, if_true, if_false, false_and]

/-- The clock after a boundary of a module alone, without markers; a fault declared there keeps beats from advancing. -/
theorem boundary_clock (ovr : Bool) (k : Nat) (hs : inSystem d = false) (hm : d.plumb.markers = []) :
    (boundary e ovr k d).beat.tick = d.beat.tick + 1 ∧
      (boundary e ovr k d).beat.cstretch = d.beat.cstretch + BitVec.ofNat 32 k ∧
      (boundary e ovr k d).beat.count = (if d.beat.advancing then d.beat.count + 1 else d.beat.count) ∧
      ∀ c, faultDue ovr d = some c → c ≠ 2 → d.beat.fault = none →
        (boundary e ovr k d).beat.fault = some c ∧ (boundary e ovr k d).beat.advancing = false := by
  obtain ⟨fault, hclock, hdeclared⟩ := faultsDeclared_clock e ovr k d
  have hs2 : inSystem (faultsDeclared e ovr k d) = false := by
    have hdesc : (faultsDeclared e ovr k d).desc = d.desc := congrArg (fun c => c.2.2.2.2) hclock
    rw [inSystem, sysSize, hdesc]
    exact hs
  have hpoint := (turnPoint_clock e d.beat.advancing _).trans (orders_clock e d.beat.tick.toNat (faultsDeclared e ovr k d))
  obtain ⟨hbeats, hstill⟩ := resolveBeats_clock e d.beat.advancing d.beat.tick.toNat
    (turnPoint e d.beat.advancing (orders e d.beat.tick.toNat (faultsDeclared e ovr k d)))
  obtain ⟨hsteps, hadv⟩ := evalSteps_clock e d.beat.tick.toNat (resolveBeats e d.beat.advancing d.beat.tick.toNat
    (turnPoint e d.beat.advancing (orders e d.beat.tick.toNat (faultsDeclared e ovr k d))))
  have hall := hsteps.trans (hbeats.trans (hpoint.trans hclock))
  rw [boundary_of_noMarkers ovr k hm, boundaryGoesOn_alone _ _ hs2]
  refine ⟨congrArg Prod.fst hall, congrArg (fun c => c.2.1) hall, congrArg (fun c => c.2.2.1) hall, fun c hdue hne hnone => ?_⟩
  have hfault := hdeclared c hdue hne hnone
  refine ⟨(congrArg (fun c => c.2.2.2.1) hall).trans hfault, hadv.trans (hstill ?_)⟩
  have hturn : (turnPoint e d.beat.advancing (orders e d.beat.tick.toNat (faultsDeclared e ovr k d))).beat.fault = fault :=
    congrArg (fun c => c.2.2.2.1) (hpoint.trans hclock)
  rw [hturn, hfault]
  rfl

/-! ### Boundaries and step switches -/

theorem beatBoundary_closes {k : Nat} (hs : Alone s) (hm : s.sys.data.plumb.markers = []) (hon : s.sys.data.on = true)
    (hmark : s.sys.data.beat.marking = true) (hk : stretchOf s.sys.data = some k) :
    ∃ t, exec .beatBoundary s = .next t ∧ t.sys.data.beat.tick = s.sys.data.beat.tick + 1 ∧
      t.sys.data.beat.cstretch = s.sys.data.beat.cstretch + BitVec.ofNat 32 k ∧
      t.sys.data.beat.count = if s.sys.data.beat.advancing then s.sys.data.beat.count + 1 else s.sys.data.beat.count := by
  obtain ⟨htick, hstretch, hcount, -⟩ := boundary_clock (e := envOf s.sys) false k hs hm
  refine ⟨_, exec_beatBoundary s, ?_⟩
  simp only [onData_data, beatBoundary, hon, hmark, and_self, if_true, hk]
  exact ⟨htick, hstretch, hcount⟩

theorem beatOverrun_faults (hs : Alone s) (hm : s.sys.data.plumb.markers = []) (hon : s.sys.data.on = true)
    (hmark : s.sys.data.beat.marking = true) (hk : stretchOf s.sys.data = none) :
    ∃ t, exec .beatOverrun s = .next t ∧ t.sys.data.beat.tick = s.sys.data.beat.tick + 1 ∧
      t.sys.data.beat.cstretch = s.sys.data.beat.cstretch + 256 ∧
      (s.sys.data.beat.fault = none → s.sys.data.beat.pendFault = none → (∀ e ∈ s.sys.data.tiles, e.2.report = none) →
        t.sys.data.beat.fault = some 1 ∧ t.sys.data.beat.advancing = false) := by
  obtain ⟨htick, hstretch, -, hfault⟩ := boundary_clock (e := envOf s.sys) true 256 hs hm
  refine ⟨_, exec_beatOverrun s, ?_⟩
  simp only [onData_data, beatOverrun, hon, hmark, hk, Option.isNone_none, and_self, if_true]
  refine ⟨htick, hstretch, fun hnone hpend hreports => hfault 1 ?_ (by decide) hnone⟩
  simp only [faultDue, hpend]
  rw [if_neg]
  · rfl
  · rw [Bool.not_eq_true, List.any_eq_false]
    intro p hp
    simp [hreports p hp]

theorem exec_beatBoundary_of_unfinished (hk : stretchOf s.sys.data = none) : exec .beatBoundary s = .next s := by
  rw [exec_beatBoundary, onData_of_fixed]
  simp only [beatBoundary, hk, ite_self]

/-- Settles O32: a boundary by what its parts leave of the clock, a step switch by its tick. -/
theorem boundariesCloseTicksAndSwitchSteps : Obligations.BoundariesCloseTicksAndSwitchSteps := by
  refine ⟨fun s hs hm hon hmark => ⟨fun k hk => beatBoundary_closes hs hm hon hmark hk, fun hk =>
    ⟨exec_beatBoundary_of_unfinished hk, beatOverrun_faults hs hm hon hmark hk⟩⟩, fun s p pt hp hmark => ⟨fun h => ?due, fun h => ?early⟩⟩
  case due =>
    refine ⟨_, exec_stepSwitch s, ?_⟩
    simp only [onData_data, stepSwitch, hp, hmark, h, and_self, if_true]
    exact ⟨rfl, rfl, rfl, rfl⟩
  case early =>
    rw [exec_stepSwitch, onData_of_fixed]
    simp only [stepSwitch, hp, Nat.not_le.mpr h, and_false, if_false]

/-! ### J1 and J4 -/

theorem skourUp_of_run (h : s.sys.mgmt.run = .up) : skourUp s.sys = true := by
  rw [skourUp, h]
  rfl

theorem latchOrder_latches {w : BitVec 16} (hon : d.on = true) (hseq : orderSeq d.j1.order ≠ orderSeq w) :
    (latchOrder w d).j1.order = w ∧ (d.beat.halted = true → (latchOrder w d).j1.acted = orderSeq w) ∧
      (d.beat.halted = false → (latchOrder w d).j1.acted = d.j1.acted) := by
  simp only [latchOrder, hon, hseq, Bool.not_true, Bool.false_eq_true, or_self, if_false, true_and]
  exact ⟨fun h => if_pos h, fun h => by simp [h]⟩

theorem j1OrderWrite_presents (w : BitVec 16) (h : s.sys.mgmt.run = .up) : ∃ t, exec (.j1OrderWrite w) s = .next t ∧
    t.sys.mgmt.joints.order = w ∧
    (s.sys.data.on = true → orderSeq s.sys.data.j1.order ≠ orderSeq w → t.sys.data.j1.order = w ∧
      (s.sys.data.beat.halted = true → t.sys.data.j1.acted = orderSeq w) ∧
      (s.sys.data.beat.halted = false → t.sys.data.j1.acted = s.sys.data.j1.acted)) ∧
    (orderSeq s.sys.data.j1.order = orderSeq w → t.sys.data = s.sys.data) := by
  refine ⟨_, exec_j1OrderWrite s w, ?_⟩
  simp only [writeOrderWord, skourUp_of_run h, if_true, presentOrder, onData_data, onData_mgmt, editJoints_data, editJoints_joints,
    true_and]
  exact ⟨latchOrder_latches, fun hseq => if_pos (.inr hseq)⟩

theorem latchLevels_latches {v : J1Levels} (hon : d.on = true) :
    (latchLevels v d).j1.stepReq = v.stepReq ∧ (latchLevels v d).j1.hold = v.hold ∧
      (latchLevels v d).j1.throttle = v.throttle := by
  unfold latchLevels
  split
  · rename_i h
    simpa [hon] using h
  · exact ⟨rfl, rfl, rfl⟩

theorem j1LevelWrite_presents (k : Fin 16) (hold throttle : Bool) (h : s.sys.mgmt.run = .up) (hon : s.sys.data.on = true) :
    ∃ t, exec (.j1LevelWrite k hold throttle) s = .next t ∧
      t.sys.data.j1.stepReq = min 12 (max k.val s.sys.mgmt.joints.minStep) ∧
      t.sys.data.j1.hold = hold ∧ t.sys.data.j1.throttle = throttle := by
  refine ⟨_, exec_j1LevelWrite .., ?_⟩
  simp only [writeLevels, presentLevels, skourUp_of_run h, if_true, onData_data, editJoints_data]
  exact latchLevels_latches hon

theorem dataPlanePowerUp_acted (hoff : s.sys.data.on = false) (hmod : s.sys.mgmt.module.dataOn = true) :
    ∃ t, exec .dataPlanePowerUp s = .next t ∧ t.sys.data.on = true ∧ t.sys.data.j1.acted = orderSeq t.sys.data.j1.order ∧
      t.sys.data.j1.order = s.sys.mgmt.joints.order := by
  refine ⟨_, exec_dataPlanePowerUp s, ?_⟩
  simp only [powerUpData, hmod, if_true, dataOn, hoff, Bool.false_eq_true, if_false]
  exact ⟨rfl, rfl, rfl⟩

theorem flatMap_length_const {α β : Type} {f : α → List β} {n : Nat} (h : ∀ a, (f a).length = n) (l : List α) :
    (l.flatMap f).length = l.length * n := by
  induction l with
  | nil => simp
  | cons a l ih =>
    rw [List.flatMap_cons, List.length_append, h, ih, List.length_cons]
    ring

@[simp] theorem clipLe_length (n v : Nat) : (clipLe n v).length = n := natLe_length ..

theorem summaryBytes_length (m : Summary) : (summaryBytes m).length = 512 := by
  simp only [summaryBytes, List.length_append, clipLe_length, natLe_length, List.length_range,
    flatMap_length_const (fun c => natLe_length 8 (look 0 m.stalls (c + 1))),
    flatMap_length_const (fun c => natLe_length 8 (look 0 m.scarf c)),
    flatMap_length_const (fun c => clipLe_length 4 (look 0 m.stack c))]

/-- The snapshot from its byte 24 to the droop readings at byte 48 (R529). -/
def snapshotStretch (d : Data) : List Byte :=
  clipLe 4 d.beat.frameStretched ++ clipLe 4 d.beat.frameOverrun ++ (List.range 16).flatMap fun z => natLe 1 (zoneActivity d z)

theorem snapshotStretch_length (d : Data) : (snapshotStretch d).length = 24 := by
  simp only [snapshotStretch, List.length_append, clipLe_length, List.length_range,
    flatMap_length_const (fun z => natLe_length 1 (zoneActivity d z))]

/-- The snapshot's bytes 16 to 23 (R529). -/
def snapshotFlags (d : Data) : List Byte :=
  natLe 1 d.beat.step ++
    natLe 1 (b2n d.beat.advancing + 2 * b2n (d.beat.run && !d.beat.advancing) + 4 * b2n d.beat.faultShown +
      8 * b2n d.beat.gated + 16 * b2n d.plumb.locked) ++
    natLe 1 (d.beat.fault.getD 0).toNat ++ natLe 1 d.j1.acted.toNat ++
    natLe 1 (if inSystem d then d.beat.governor.toNat else 0xFF) ++ natLe 1 (d.plumb.root.getD 0xFF).toNat ++
    natLe 1 (d.plumb.backup.getD 0xFF).toNat ++ natLe 1 0

theorem snapshotFlags_length (d : Data) : (snapshotFlags d).length = 8 := by
  simp only [snapshotFlags, List.length_append, natLe_length]

/-- What follows the readings of the field rails in a snapshot. -/
def snapshotTail (e : Env) (d : Data) : List Byte := natLe 8 e.ts.toNat ++ List.replicate 392 0 ++ summaryBytes d.sum

theorem snapshotTail_length (e : Env) (d : Data) : (snapshotTail e d).length = 912 := by
  simp only [snapshotTail, List.length_append, natLe_length, List.length_replicate, summaryBytes_length]

/-- A snapshot's bytes: the beat count and the tick first, the readings of the field rails from byte 48. -/
theorem snapshotBytes_layout (e : Env) (droop : Nat → Byte) (d : Data) :
    snapshotBytes e droop d = natLe 8 d.beat.count.toNat ++ (natLe 8 d.beat.tick.toNat ++ (snapshotFlags d ++
      (snapshotStretch d ++ ((List.range 64).map droop ++ snapshotTail e d)))) := by
  simp only [snapshotBytes, snapshotFlags, snapshotStretch, snapshotTail, List.append_assoc]

theorem snapshotBytes_length (e : Env) (droop : Nat → Byte) (d : Data) : (snapshotBytes e droop d).length = 1024 := by
  simp only [snapshotBytes_layout, List.length_append, natLe_length, snapshotFlags_length, snapshotStretch_length,
    snapshotTail_length, List.length_map, List.length_range]

theorem snapshotBytes_count (e : Env) (droop : Nat → Byte) (d : Data) :
    (snapshotBytes e droop d).take 8 = natLe 8 d.beat.count.toNat := by
  rw [snapshotBytes_layout, List.take_left' (natLe_length 8 _)]

theorem snapshotBytes_tick (e : Env) (droop : Nat → Byte) (d : Data) :
    ((snapshotBytes e droop d).drop 8).take 8 = natLe 8 d.beat.tick.toNat := by
  rw [snapshotBytes_layout, List.drop_left' (natLe_length 8 _), List.take_left' (natLe_length 8 _)]

theorem snapshotBytes_droop (e : Env) (droop : Nat → Byte) (d : Data) :
    ((snapshotBytes e droop d).drop 48).take 64 = (List.range 64).map droop := by
  rw [snapshotBytes_layout, ← List.append_assoc, ← List.append_assoc, ← List.append_assoc, List.drop_left', List.take_left']
  · rw [List.length_map, List.length_range]
  · simp only [List.length_append, natLe_length, snapshotFlags_length, snapshotStretch_length]

theorem range_map_getD {l : List Byte} {n : Nat} (h : l.length = n) : (List.range n).map (fun i => l.getD i 0) = l := by
  refine List.ext_getElem (by rw [List.length_map, List.length_range, h]) fun i hi _ => ?_
  rw [List.getElem_map, List.getElem_range]
  exact List.getD_eq_getElem ..

theorem learnSnapshot_keeps (j : Joints) :
    (learnSnapshot j).snapshot = j.snapshot ∧ (learnSnapshot j).snapFrame = j.snapFrame := by
  simp only [learnSnapshot]
  split
  · split <;> exact ⟨rfl, rfl⟩
  · exact ⟨rfl, rfl⟩

theorem takeSnapshot_takes {x : Module} (droop : Nat → Byte) (hon : x.data.on = true)
    (hf : x.mgmt.joints.snapFrame ≠ some x.mgmt.frame) :
    (takeSnapshot droop x).mgmt.joints.snapFrame = some x.mgmt.frame ∧
      (takeSnapshot droop x).mgmt.joints.snapshot = snapshotBytes (envOf x) droop x.data ∧
      (takeSnapshot droop x).data = snapshotTaken x.data := by
  have h : ¬ ((!x.data.on) = true ∨ x.mgmt.joints.snapFrame = some x.mgmt.frame) := by simp [hon, hf]
  rw [takeSnapshot, if_neg h]
  exact ⟨(learnSnapshot_keeps _).2, (learnSnapshot_keeps _).1, rfl⟩

/-- The J4 snapshot of a frame that has none yet (R529). -/
theorem exec_j4Snapshot_takes {droop : List Byte} (hl : droop.length = 64) (hon : s.sys.data.on = true)
    (hf : s.sys.mgmt.joints.snapFrame ≠ some s.sys.mgmt.frame) :
    ∃ t, exec (.j4Snapshot droop) s = .next t ∧ t.sys.mgmt.joints.snapFrame = some s.sys.mgmt.frame ∧
      t.sys.mgmt.joints.snapshot.length = 1024 ∧
      t.sys.mgmt.joints.snapshot.take 8 = natLe 8 s.sys.data.beat.count.toNat ∧
      (t.sys.mgmt.joints.snapshot.drop 8).take 8 = natLe 8 s.sys.data.beat.tick.toNat ∧
      (t.sys.mgmt.joints.snapshot.drop 48).take 64 = droop ∧
      t.sys.data.sum = Summary.zero ∧ t.sys.data.beat.tick = s.sys.data.beat.tick := by
  obtain ⟨hframe, hbytes, hdata⟩ := takeSnapshot_takes (fun f => droop.getD f 0) hon hf
  refine ⟨_, exec_j4Snapshot s droop, hframe, ?_⟩
  dsimp only
  rw [hbytes, hdata]
  exact ⟨snapshotBytes_length .., snapshotBytes_count .., snapshotBytes_tick ..,
    (snapshotBytes_droop ..).trans (range_map_getD hl), rfl, rfl⟩

theorem exec_j4Snapshot_taken (droop : List Byte) (h : s.sys.mgmt.joints.snapFrame = some s.sys.mgmt.frame) :
    exec (.j4Snapshot droop) s = .next s := by
  rw [exec_j4Snapshot, takeSnapshot, if_pos (.inr h)]

theorem takePlacement_records (x : Module) :
    (takePlacement x).mgmt.joints.placement = placementRecord x.data ∧ (takePlacement x).data = x.data := by
  rw [takePlacement]
  split
  · rw [incE_joints, setE_joints]
    exact ⟨rfl, rfl⟩
  · exact ⟨rfl, rfl⟩

theorem exec_j4PlacementRecord_records :
    ∃ t, exec .j4PlacementRecord s = .next t ∧ t.sys.mgmt.joints.placement.turnState = s.sys.data.place.turnState ∧
      t.sys.mgmt.joints.placement.code = s.sys.data.place.code ∧
      t.sys.mgmt.joints.placement.loadCheck = s.sys.data.place.loadCheck ∧ t.sys.data = s.sys.data := by
  obtain ⟨hrec, hdata⟩ := takePlacement_records s.sys
  refine ⟨_, exec_j4PlacementRecord s, ?_⟩
  dsimp only
  rw [hrec]
  exact ⟨rfl, rfl, rfl, hdata⟩

theorem exec_dataPlanePowerUp_off (h : s.sys.mgmt.module.dataOn = false) : exec .dataPlanePowerUp s = .next s := by
  rw [exec_dataPlanePowerUp, powerUpData, h, if_neg Bool.false_ne_true]

/-- Settles O33: what J1's writes present and the data plane latches, and what J4 carries of the data plane's state. -/
theorem jointsLatchOrdersAndReport : Obligations.JointsLatchOrdersAndReport :=
  ⟨⟨fun _ w h => j1OrderWrite_presents w h, fun _ k hold throttle h hon => j1LevelWrite_presents k hold throttle h hon,
    fun _ hoff hmod => dataPlanePowerUp_acted hoff hmod, fun _ h => exec_dataPlanePowerUp_off h⟩,
   fun _ => ⟨fun _ hl hon hf => exec_j4Snapshot_takes hl hon hf, fun droop h => exec_j4Snapshot_taken droop h,
    exec_j4PlacementRecord_records⟩⟩

end Sys2Proof.Machine
end

section
/-!
SUPPORT. What a training state's end makes of its engine, the cell an engine sends next, and the part of an engine that an
accepted cell's units leave alone. Then scarf training and the order of cells (O36).
-/

namespace Sys2Proof.Machine

-- As in the tests: one proof at a time, so that the whole text keeps within the threads that the memory holds.
set_option Elab.async false

variable {s : State} {d : Data} {e : Env} {i : Nat} {en : EngineIx} {g : Engine}

/-! ### Training (R233 to R236) -/

theorem scarfTrainDone_engine {x : TrainFound} (h : trainNext d i x (engineOf d i) = some g) :
    engineOf (scarfTrainDone e i x d) i = g := by
  rw [scarfTrainDone, h]
  dsimp only
  split <;> split <;> exact engineOf_editEngine_self i (fun _ => g) d

/-- SCARF_TRAIN_STATE_DONE with a finding of the engine's state. -/
theorem scarfTrainStateDone_trains {x : TrainFound} (h : trainNext s.sys.data en x (engineIn s en) = some g) :
    ∃ t, exec (.scarfTrainStateDone en x) s = .next t ∧ engineIn t en = g :=
  ⟨_, exec_scarfTrainStateDone s en x, scarfTrainDone_engine h⟩

theorem trainsTo_of_next {x : TrainFound} {st : ScfState} (h : trainNext s.sys.data en x (engineIn s en) = some g)
    (hg : g.state = st) : TrainsTo s en x st := by
  obtain ⟨t, ht, rfl⟩ := scarfTrainStateDone_trains h
  exact ⟨t, ht, hg⟩

theorem trainFails_of_next {x : TrainFound} {k : Nat} {cause : BitVec 4}
    (h : trainNext s.sys.data en x (engineIn s en) = some (trainFail k g)) (hk : BitVec.ofNat 4 k = cause) :
    TrainFails s en x cause := by
  obtain ⟨t, ht, hg⟩ := scarfTrainStateDone_trains h
  rw [TrainFails]
  exact ⟨t, ht, hg ▸ rfl, hg ▸ hk⟩

/-- SCF_LANE with at least 8 lanes that pass: the first 8 carry, the ninth is the spare (R234). -/
theorem trainNext_lanes (rx tx : List Nat) (hst : (engineOf d i).state = .lane) (hp : 8 ≤ (passing rx).length) :
    ∃ g, trainNext d i (.lanes rx tx) (engineOf d i) = some g ∧ g.state = .id ∧ g.lanes = (passing rx).take 8 ∧
      g.spareLane = (passing rx).getD 8 15 ∧ g.txLanes = (passing tx).take 8 ∧ g.ident = some (ownIdent d i) := by
  simp only [trainNext, hst]
  rw [if_neg (by omega)]
  exact ⟨_, rfl, rfl, rfl, rfl, rfl, rfl⟩

theorem scarfTrainStateDone_lanes (rx tx : List Nat) (hst : (engineIn s en).state = .lane) :
    (8 ≤ (passing rx).length → ∃ t, exec (.scarfTrainStateDone en (.lanes rx tx)) s = .next t ∧
        (engineIn t en).state = .id ∧ (engineIn t en).lanes = (passing rx).take 8 ∧
        (engineIn t en).spareLane = (passing rx).getD 8 15 ∧ (engineIn t en).txLanes = (passing tx).take 8 ∧
        (engineIn t en).ident = some (ownIdent s.sys.data en)) ∧
      ((passing rx).length < 8 → TrainFails s en (.lanes rx tx) 3) := by
  refine ⟨fun hp => ?_, fun hp => trainFails_of_next (k := 3) (g := { engineIn s en with lanesGood := laneMask (passing rx) }) ?_ rfl⟩
  · obtain ⟨g, hg, hrest⟩ := trainNext_lanes rx tx hst hp
    obtain ⟨t, ht, rfl⟩ := scarfTrainStateDone_trains hg
    exact ⟨t, ht, hrest⟩
  · simp only [trainNext, hst, hp, if_true]

theorem scarfTrainStateDone_calibrated :
    ((engineIn s en).state = .bias → TrainsTo s en (.calibrated true) .adapt ∧ TrainFails s en (.calibrated false) 1) ∧
    ((engineIn s en).state = .adapt → TrainsTo s en (.calibrated true) .lane ∧ TrainFails s en (.calibrated false) 2) := by
  refine ⟨fun hst => ⟨trainsTo_of_next (g := { engineIn s en with state := .adapt }) ?_ rfl,
      trainFails_of_next (k := 1) (g := engineIn s en) ?_ rfl⟩,
    fun hst => ⟨trainsTo_of_next (g := { engineIn s en with state := .lane }) ?_ rfl,
      trainFails_of_next (k := 2) (g := engineIn s en) ?_ rfl⟩⟩
  all_goals simp [trainNext, hst]

theorem scarfTrainStateDone_peer (p : ScfIdent) (hst : (engineIn s en).state = .id) :
    let want := peerIdent s.sys.data en
    (p.module ≠ want.module ∨ p.side ≠ want.side ∨ p.index ≠ want.index → TrainFails s en (.peer p) 4) ∧
    (p.module = want.module → p.side = want.side → p.index = want.index →
      (p.digest ≠ want.digest → TrainFails s en (.peer p) 5) ∧ (p.digest = want.digest → TrainsTo s en (.peer p) .lat)) := by
  intro want
  have hfail (k : Nat) (cause : BitVec 4) := trainFails_of_next (s := s) (en := en) (x := .peer p) (k := k) (cause := cause)
    (g := { engineIn s en with peerModule := p.module })
  refine ⟨fun h => hfail 4 4 ?_ rfl, fun hm hs hi => ⟨fun h => hfail 5 5 ?_ rfl, fun h => trainsTo_of_next
    (g := { engineIn s en with peerModule := p.module, state := .lat }) ?_ rfl⟩⟩
  · simp only [trainNext, hst]
    rw [if_pos h]
  · simp only [trainNext, hst]
    rw [if_neg (by simp [hm, hs, hi, want]), if_pos h]
  · simp only [trainNext, hst]
    rw [if_neg (by simp [hm, hs, hi, want]), if_neg (not_not.2 h)]

theorem scarfTrainStateDone_latency (ns : Nat) (hst : (engineIn s en).state = .lat) :
    (ns ≤ 270 → TrainsTo s en (.latency ns) .up) ∧ (270 < ns → TrainFails s en (.latency ns) 6) := by
  refine ⟨fun h => ?_, fun h => trainFails_of_next (k := 6)
    (g := { engineIn s en with latency := BitVec.ofNat 10 (min ns 1023) }) ?_ rfl⟩
  · obtain ⟨g, hg, hup⟩ : ∃ g, trainNext s.sys.data en (.latency ns) (engineIn s en) = some g ∧ g.state = .up := by
      simp only [trainNext, hst]
      rw [if_neg (by omega)]
      exact ⟨_, rfl, rfl⟩
    exact trainsTo_of_next hg hup
  · simp only [trainNext, hst, h, if_true]

/-! ### The cell an engine sends (R226 to R231) -/

/-- What the control unit takes from its engine as the cell goes out. -/
structure Controlled (g : Engine) (phase : W32) (c : Cell) : Prop where
  ack : c.ack = g.rxAck
  nack : c.nack = g.nackDue
  marker : c.marker = g.markerDue
  phase : c.phase = if g.markerDue.isSome then phase else 0
  good : cellGood c [] = true

theorem controlBytes_of_crc (c : Cell) (x : W32) : controlBytes { c with crc := x } = controlBytes c := rfl

theorem cellGood_sealCell (c : Cell) : cellGood (sealCell c) [] = true := by
  have hline : (List.range 8).all (laneDecodes []) = true := by decide
  have hcrc : (sealCell c).crc = controlCrc (sealCell c) := by
    rw [controlCrc, sealCell, controlBytes_of_crc, controlCrc]
  simp only [cellGood, hline, ← hcrc, decide_true, Bool.and_self]

theorem withControl_controlled (free : List Nat) (phase : W32) (g : Engine) (c : Cell) :
    Controlled g phase (withControl free phase g c) where
  ack := rfl
  nack := rfl
  marker := rfl
  phase := rfl
  good := cellGood_sealCell _

theorem takeUnits_length (n : Nat) (q : List TxFlit) (cr : List Nat) : (takeUnits n q cr).1.length ≤ n := by
  fun_induction takeUnits n q cr with
  | case1 | case2 => exact Nat.zero_le _
  | case3 n f q cr hno r ih => exact ih
  | case4 n f q cr hcr cr1 r ih => exact Nat.succ_le_succ ih

/-- The plumb units of a new cell leave room for the flits it takes: 19 units at most. -/
theorem nextCell_of_room (ts : W64) (free : List Nat) (phase : W32) (hr : g.replay = []) (hl : g.retry.length < 16) :
    ∃ c g', nextCell ts free phase g = (c, g') ∧ Controlled g phase c ∧ c.seq = g.txSeq + 1 ∧ c.units.length ≤ 19 ∧
      g'.sent = some c ∧ g'.retry = g.retry ++ [c] ∧ g'.nackDue = false := by
  rw [nextCell]
  simp only [hr]
  rw [if_neg (by omega)]
  refine ⟨_, _, rfl, withControl_controlled .., rfl, ?_, rfl, rfl, rfl⟩
  have htake := takeUnits_length (19 - min 19 (ceilDiv (g.words.length - 8) 32)) (fillOrder g.txQueue) g.credits
  simp only [withControl, sealCell, List.length_append, List.length_map, List.length_range]
  omega

theorem nextCell_of_full (ts : W64) (free : List Nat) (phase : W32) {c0 : Cell} {rest : List Cell} (hr : g.replay = [])
    (hl : 16 ≤ g.retry.length) (h0 : g.retry = c0 :: rest) :
    ∃ c g', nextCell ts free phase g = (c, g') ∧ g'.sent = some c ∧ c.units = [] ∧ c.words = [] ∧ c.seq = c0.seq - 1 ∧
      g'.retry = g.retry ∧ g'.words = g.words ∧ g'.txQueue = g.txQueue := by
  rw [nextCell]
  simp only [hr]
  rw [if_pos hl]
  exact ⟨_, _, rfl, rfl, rfl, rfl, by rw [h0]; rfl, rfl, rfl, rfl⟩

theorem nextCell_of_replay (ts : W64) (free : List Nat) (phase : W32) {c0 : Cell} {rest : List Cell}
    (hr : g.replay = c0 :: rest) :
    ∃ c g', nextCell ts free phase g = (c, g') ∧ Controlled g phase c ∧ g'.replay = rest ∧ g'.sent = some c ∧
      c.seq = c0.seq ∧ c.units = c0.units ∧ c.words = c0.words := by
  rw [nextCell]
  simp only [hr]
  refine ⟨_, _, rfl, ?_, rfl, rfl, rfl, rfl, rfl⟩
  exact withControl_controlled free phase g c0

/-- SCARF_CELL_SEND on an engine that is up leaves what the next cell leaves. -/
theorem scarfCellSend_sends (phase : W32) {c : Cell} {g' : Engine} (hup : (engineIn s en).state = .up)
    (h : nextCell (envOf s.sys).ts (freeCredits s.sys.data en) phase (engineIn s en) = (c, g')) :
    ∃ t, exec (.scarfCellSend en phase) s = .next t ∧ engineIn t en = g' := by
  refine ⟨_, exec_scarfCellSend s en phase, ?_⟩
  rw [engineIn] at hup h ⊢
  rw [onData_data, cellSend, if_pos hup, engineOf_editEngine_self, h]

theorem scarfCellSend_orders (phase : W32) (hup : (engineIn s en).state = .up) :
    ((engineIn s en).replay = [] → (engineIn s en).retry.length < 16 →
      ∃ t c, exec (.scarfCellSend en phase) s = .next t ∧ (engineIn t en).sent = some c ∧
        c.seq = (engineIn s en).txSeq + 1 ∧ c.ack = (engineIn s en).rxAck ∧ c.nack = (engineIn s en).nackDue ∧
        c.marker = (engineIn s en).markerDue ∧ c.phase = (if (engineIn s en).markerDue.isSome then phase else 0) ∧
        c.units.length ≤ 19 ∧ cellGood c [] = true ∧ (engineIn t en).retry = (engineIn s en).retry ++ [c] ∧
        (engineIn t en).nackDue = false) ∧
    (∀ c0 rest, (engineIn s en).replay = [] → 16 ≤ (engineIn s en).retry.length → (engineIn s en).retry = c0 :: rest →
      ∃ t c, exec (.scarfCellSend en phase) s = .next t ∧ (engineIn t en).sent = some c ∧ c.units = [] ∧ c.words = [] ∧
        c.seq = c0.seq - 1 ∧ (engineIn t en).retry = (engineIn s en).retry ∧
        (engineIn t en).words = (engineIn s en).words ∧ (engineIn t en).txQueue = (engineIn s en).txQueue) ∧
    (∀ c0 rest, (engineIn s en).replay = c0 :: rest →
      ∃ t c, exec (.scarfCellSend en phase) s = .next t ∧ (engineIn t en).replay = rest ∧ (engineIn t en).sent = some c ∧
        c.seq = c0.seq ∧ c.units = c0.units ∧ c.words = c0.words ∧ c.ack = (engineIn s en).rxAck ∧
        c.nack = (engineIn s en).nackDue ∧ cellGood c [] = true) := by
  refine ⟨fun hr hl => ?_, fun c0 rest hr hl h0 => ?_, fun c0 rest hr => ?_⟩
  · obtain ⟨c, g', hnext, hc, hseq, hunits, hsent, hretry, hnack⟩ := nextCell_of_room _ _ phase hr hl
    obtain ⟨t, ht, rfl⟩ := scarfCellSend_sends phase hup hnext
    exact ⟨t, c, ht, hsent, hseq, hc.ack, hc.nack, hc.marker, hc.phase, hunits, hc.good, hretry, hnack⟩
  · obtain ⟨c, g', hnext, hrest⟩ := nextCell_of_full _ _ phase hr hl h0
    obtain ⟨t, ht, rfl⟩ := scarfCellSend_sends phase hup hnext
    exact ⟨t, c, ht, hrest⟩
  · obtain ⟨c, g', hnext, hc, hreplay, hsent, hseq, hunits, hwords⟩ := nextCell_of_replay _ _ phase hr
    obtain ⟨t, ht, rfl⟩ := scarfCellSend_sends phase hup hnext
    exact ⟨t, c, ht, hreplay, hsent, hseq, hunits, hwords, hc.ack, hc.nack, hc.good⟩

/-! ### The cells an engine receives (R229 to R232) -/

/-- What the order of received cells stands at: the last in order, whether a replay is awaited, the failures and the cells not
acknowledged. -/
def Engine.rxOrder (g : Engine) : BitVec 24 × Bool × Bool × BitVec 16 × Nat × List Cell :=
  (g.rxAck, g.nackDue, g.rejecting, g.retries, g.fails, g.retry)

/-- A part of an engine that neither its queues nor the words and flits it took have a share in. -/
def TrafficFree {α : Type} (rd : Engine → α) : Prop :=
  ∀ g q h w, rd { g with txQueue := q, held := h, wordsIn := w } = rd g

theorem TrafficFree.queueFree {α : Type} {rd : Engine → α} (h : TrafficFree rd) : QueueFree rd :=
  fun g q => h g q g.held g.wordsIn

/-- A unit of an accepted cell changes engines only in their queues, held flits and words. -/
theorem takeUnit_keeps {α : Type} {rd : Engine → α} (hrd : TrafficFree rd) (i j : Nat) (f : TxFlit) (d : Data) :
    rd (engineOf (takeUnit i f d) j) = rd (engineOf d j) := by
  have hheld (l : HeldFlit) (x : Data) : rd (engineOf (editEngine i (fun g =>
      if holdDepth ≤ g.held.length then g else { g with held := g.held ++ [l] }) x) j) = rd (engineOf x j) :=
    editEngine_keeps rd (fun g => by split; exacts [rfl, hrd g g.txQueue (g.held ++ [l]) g.wordsIn]) i j x
  unfold takeUnit
  dsimp only
  split
  · exact hheld _ _
  · split
    · exact editEngine_keeps rd (fun g => hrd g g.txQueue g.held (g.wordsIn ++ unitWords 32 f.data)) i j d
    · split
      · split
        · rw [engineOf, arriveFlit_engines]
          rfl
        · unfold transitFlit
          dsimp only
          split
          · rfl
          · split
            · rfl
            · exact queueFlit_keeps hrd.queueFree _ j _ _
      · rfl

/-- A part of an engine that the counts of its lines have no share in. -/
theorem countLines_keeps {α : Type} (rd : Engine → α) (hrd : ∀ g a b c, rd { g with corrected := a, laneCorr := b, laneBad := c } = rd g)
    (es : List LineError) (g : Engine) : rd (countLines es g) = rd g := by
  unfold countLines
  split
  · rfl
  · exact repeatN_keeps rd (by intro _ u; exact hrd u _ _ _) 8 g

theorem countLines_rxOrder (es : List LineError) (g : Engine) : (countLines es g).rxOrder = g.rxOrder :=
  countLines_keeps Engine.rxOrder (by intros; rfl) es g

theorem cellReceive_of_bad {c : Cell} {errs : List LineError} (arrival : Int) (hup : (engineOf d i).state = .up)
    (hbad : cellGood c errs = false) :
    engineOf (cellReceive e i c arrival errs d) i = rejectCell c (countLines errs (engineOf d i)) := by
  simp only [cellReceive, hup, hbad, ne_eq, not_true_eq_false, Bool.not_false, if_true, if_false]
  rw [engineOf_editEngine_self, engineOf_editEngine_self]

/-- A bad cell is asked for again unless the replay of an earlier one is awaited already (R230, R232). -/
theorem rejectCell_rxOrder {c : Cell} :
    (g.rejecting = false ∨ c.seq = g.rxAck + 1 → (rejectCell c g).rxOrder =
      (g.rxAck, true, true, satInc g.retries 1, g.fails + (if c.seq = g.rxAck + 1 then 1 else 0), g.retry)) ∧
    (g.rejecting = true → c.seq ≠ g.rxAck + 1 → rejectCell c g = g) := by
  refine ⟨fun h => ?_, fun hrej hne => ?_⟩
  · have hno : ¬ ((g.rejecting && !(c.seq == g.rxAck + 1)) = true) := by
      rcases h with h | h <;> simp only [h, beq_self_eq_true, Bool.not_true, Bool.and_false, Bool.false_and,
        Bool.false_eq_true, not_false_eq_true]
    simp only [rejectCell, if_neg hno, Engine.rxOrder, beq_iff_eq]
    split <;> rfl
  · simp only [rejectCell, hrej, beq_false_of_ne hne, Bool.not_false, Bool.and_self, if_true]

theorem cellReceive_of_later {c : Cell} {errs : List LineError} (arrival : Int) (hup : (engineOf d i).state = .up)
    (hgood : cellGood c errs = true) (hseq : c.seq ≠ (engineOf d i).rxAck + 1) (hrej : (engineOf d i).rejecting = true) :
    engineOf (cellReceive e i c arrival errs d) i = countLines errs (engineOf d i) := by
  simp only [cellReceive, hup, hgood, ne_eq, not_true_eq_false, Bool.not_true, Bool.false_eq_true, if_false, hseq, hrej,
    false_and]
  exact engineOf_editEngine_self ..

theorem acceptCell_rxOrder (ts : W64) (arrival : Int) (c : Cell) (g : Engine) :
    (acceptCell ts arrival c g).rxOrder =
      (c.seq, g.nackDue, false, g.retries, 0, g.retry.filter fun x => !ackCovers c.ack x.seq) := rfl

theorem cellReceive_rxOrder {c : Cell} {errs : List LineError} (arrival : Int) (hup : (engineOf d i).state = .up)
    (hgood : cellGood c errs = true) (hseq : c.seq = (engineOf d i).rxAck + 1) :
    (engineOf (cellReceive e i c arrival errs d) i).rxOrder = (c.seq, (engineOf d i).nackDue, false, (engineOf d i).retries, 0,
      (engineOf d i).retry.filter fun x => !ackCovers c.ack x.seq) := by
  have hcount := countLines_rxOrder errs (engineOf d i)
  simp only [Engine.rxOrder, Prod.mk.injEq] at hcount
  obtain ⟨-, hnack, -, hretries, -, hretry⟩ := hcount
  rw [cellReceive_of_next arrival hup hgood hseq]
  refine List.foldlRecOn (motive := fun x => (engineOf x i).rxOrder = _) _ _ ?_ fun x hx u _ =>
    (takeUnit_keeps (rd := Engine.rxOrder) (by intros _ _ _ _; rfl) i i u x).trans hx
  rw [engineOf_editEngine_self, engineOf_editEngine_self, acceptCell_rxOrder, hnack, hretries, hretry]

/-- SCARF_CELL_RECEIVE by whether the cell is good, is the next in order, and finds a replay awaited. -/
theorem scarfCellReceive_orders (c : Cell) (arrival : Int) (errs : List LineError) (hup : (engineIn s en).state = .up) :
    (cellGood c errs = false → ((engineIn s en).rejecting = false ∨ c.seq = (engineIn s en).rxAck + 1) →
      ∃ t, exec (.scarfCellReceive en c arrival errs) s = .next t ∧ (engineIn t en).rxAck = (engineIn s en).rxAck ∧
        (engineIn t en).nackDue = true ∧ (engineIn t en).rejecting = true ∧
        (engineIn t en).retries = satInc (engineIn s en).retries 1 ∧
        (engineIn t en).fails = (engineIn s en).fails + if c.seq = (engineIn s en).rxAck + 1 then 1 else 0) ∧
    (cellGood c errs = false → (engineIn s en).rejecting = true → c.seq ≠ (engineIn s en).rxAck + 1 →
      ∃ t, exec (.scarfCellReceive en c arrival errs) s = .next t ∧ (engineIn t en).rxAck = (engineIn s en).rxAck ∧
        (engineIn t en).nackDue = (engineIn s en).nackDue ∧ (engineIn t en).retries = (engineIn s en).retries ∧
        (engineIn t en).fails = (engineIn s en).fails) ∧
    (cellGood c errs = true → c.seq = (engineIn s en).rxAck + 1 →
      ∃ t, exec (.scarfCellReceive en c arrival errs) s = .next t ∧ (engineIn t en).rxAck = c.seq ∧
        (engineIn t en).rejecting = false ∧ (engineIn t en).fails = 0 ∧
        ∀ x ∈ (engineIn t en).retry, ackCovers c.ack x.seq = false) ∧
    (cellGood c errs = true → c.seq ≠ (engineIn s en).rxAck + 1 → (engineIn s en).rejecting = true →
      ∃ t, exec (.scarfCellReceive en c arrival errs) s = .next t ∧ (engineIn t en).rxAck = (engineIn s en).rxAck ∧
        (engineIn t en).wordsIn = (engineIn s en).wordsIn ∧ (engineIn t en).held = (engineIn s en).held) := by
  have hex := exec_scarfCellReceive s en c arrival errs
  have hcount := countLines_rxOrder errs (engineIn s en)
  have hcount' := hcount
  simp only [Engine.rxOrder, Prod.mk.injEq] at hcount'
  obtain ⟨hack, hnack, hrej, hretries, hfails, hretry⟩ := hcount'
  refine ⟨fun hbad h => ?_, fun hbad hrej' hne => ?_, fun hgood hseq => ?_, fun hgood hne hrej' => ?_⟩
  · refine ⟨_, hex, ?_⟩
    have hout := (rejectCell_rxOrder (c := c) (g := countLines errs (engineIn s en))).1 (by rwa [hack, hrej])
    rw [hack, hretries, hfails, hretry, engineIn, ← cellReceive_of_bad (e := envOf s.sys) arrival hup hbad] at hout
    simp only [Engine.rxOrder, Prod.mk.injEq] at hout
    obtain ⟨hack', hnack', hrej', hretries', hfails', -⟩ := hout
    exact ⟨hack', hnack', hrej', hretries', hfails'⟩
  · refine ⟨_, hex, ?_⟩
    have hout := (rejectCell_rxOrder (c := c) (g := countLines errs (engineIn s en))).2 (by rwa [hrej]) (by rwa [hack])
    rw [engineIn, onData_data, cellReceive_of_bad arrival hup hbad, ← engineIn, hout]
    exact ⟨hack, hnack, hretries, hfails⟩
  · refine ⟨_, hex, ?_⟩
    have hout := cellReceive_rxOrder (e := envOf s.sys) arrival hup hgood hseq
    simp only [Engine.rxOrder, Prod.mk.injEq] at hout
    obtain ⟨hack', -, hrej', -, hfails', hretry'⟩ := hout
    refine ⟨hack', hrej', hfails', fun x hx => ?_⟩
    rw [engineIn, onData_data, hretry', List.mem_filter] at hx
    simpa using hx.2
  · refine ⟨_, hex, ?_⟩
    have htaken := countLines_keeps (fun g => (g.wordsIn, g.held)) (by intros; rfl) errs (engineIn s en)
    simp only [Prod.mk.injEq] at htaken
    rw [engineIn, onData_data, cellReceive_of_later arrival hup hgood hne hrej', ← engineIn]
    exact ⟨hack, htaken⟩

/-- Settles O36: training by the state that ends, a sent cell by the replay and the retry buffer, a received cell by its check
and its number. -/
theorem scarfTrainsAndCarriesCells : Obligations.ScarfTrainsAndCarriesCells :=
  ⟨fun _ _ => ⟨scarfTrainStateDone_calibrated.1, scarfTrainStateDone_calibrated.2,
    fun hst rx tx => scarfTrainStateDone_lanes rx tx hst, fun hst p => scarfTrainStateDone_peer p hst,
    fun hst ns => scarfTrainStateDone_latency ns hst⟩,
   fun _ _ hup => ⟨fun phase => scarfCellSend_orders phase hup,
    fun c arrival errs => scarfCellReceive_orders c arrival errs hup⟩⟩

end Sys2Proof.Machine
end

section
/-!
SUPPORT. How run control judges a command of the control session: the checks of R304 under the state word, and what an accepted
or a refused command leaves of the control plane. Then run control's acceptances and refusals (O39).
-/

namespace Sys2Proof.Machine

-- As in the tests: one proof at a time, so that the whole text keeps within the threads that the memory holds.
set_option Elab.async false

variable {s t : State} {m : Msg} {c : Ctrl} {e : CEnv} {w : J2Word} {cmd : RunCmd} {fits ok : Bool} {rep : Repair}

/-! ### A command of the control session is judged at once (R300, R303) -/

/-- The command as it arrives now, under the state word that stands. -/
def arriving (s : State) (m : Msg) (cmd : RunCmd) : Waiting := ⟨m, cmd, s.sys.ts, s.sys.ctrl.word⟩

/-- The control plane with the arrival of `m` on its session. -/
def stamped (s : State) (m : Msg) : Ctrl := editSession m.session (fun x => { x with lastMsg := s.sys.ts }) s.sys.ctrl

/-- The code of the checks of R304 on the command. -/
def codeOf (s : State) (cmd : RunCmd) : Nat :=
  checkCmd s.sys.ctrl.word (restoreFitsNow s.sys.data) (settled s.sys.data) (repairOf s.sys.ctrl.repair) cmd s.sys.ctrl

theorem judge_of_role {x : Waiting} (h : c.control = some x.msg.session) :
    judge e fits ok rep x c =
      if checkCmd x.word fits ok rep x.cmd c = 0 then acceptCmd e x c
      else (finishCmd x (checkCmd x.word fits ok rep x.cmd c) [] c, .nothing) := by
  simp only [judge, h, ne_eq, not_true_eq_false, if_false]

theorem hostCommand_judges (h : FromControl s m) : hostCommand m cmd s.sys =
    applyCarry (if codeOf s cmd = 0 then acceptCmd (cenvOf s.sys) (arriving s m cmd) (stamped s m)
      else (finishCmd (arriving s m cmd) (codeOf s cmd) [] (stamped s m), .nothing)) s.sys := by
  obtain ⟨⟨hon, x, hx, hnew⟩, hrole, hcur, hq, -⟩ := h
  have hwaits : ((stamped s m).current.isSome || !(stamped s m).queue.isEmpty) = false := by
    show (s.sys.ctrl.current.isSome || !s.sys.ctrl.queue.isEmpty) = false
    rw [hcur, hq]
    rfl
  have harrive : arrive (cenvOf s.sys) (restoreFitsNow s.sys.data) (settled s.sys.data) (repairOf s.sys.ctrl.repair) m cmd
      s.sys.ctrl = judge (cenvOf s.sys) (restoreFitsNow s.sys.data) (settled s.sys.data) (repairOf s.sys.ctrl.repair)
        (arriving s m cmd) (stamped s m) := by
    simp only [arrive, hon, hx, hnew, Bool.not_true, Bool.false_eq_true, if_false]
    exact if_neg fun hw => Bool.false_ne_true (hwaits.symm.trans hw)
  rw [hostCommand, harrive, judge_of_role hrole]
  rfl

theorem journalFull_of_fromControl (h : FromControl s m) : journalFull s.sys.ctrl = false := by
  obtain ⟨-, -, hcur, -, hlen⟩ := h
  rw [journalFull, hcur, decide_eq_false_iff_not]
  exact Nat.not_le.2 hlen

/-! ### The checks of R304 -/

/-- START, RESUME and LOAD_BEGIN need a rack order of ready. -/
def needsReady : RunCmd → Bool
  | .start => true | .resume => true | .loadBegin .. => true | _ => false

/-- HOST_CAP and SYS_DESC in STANDBY go without a powered module. -/
def needsPower (w : J2Word) : RunCmd → Bool
  | .hostCap _ => false | .sysDesc _ => w.module != .standby | _ => true

/-- The checks in their order, with what each command needs. -/
theorem checkCmd_eq : checkCmd w fits ok rep cmd c =
    if journalFull c then 0x0419
    else if !(w.module == .ready || w.module == .running || w.module == .held) ∧ needsPower w cmd then 0x0410
    else if needsReady cmd ∧ w.order ≠ 2 then 0x041A
    else ownChecks w fits ok rep cmd c := by
  have hstandby : (!(w.module == .standby)) = (w.module != .standby) := rfl
  cases cmd with
  | sysDesc p =>
    simp only [checkCmd, needsPower, hstandby]
    rfl
  | _ => rfl

theorem codeOf_of_runs (h : FromControl s m) (hw : WordRuns s) :
    codeOf s cmd = if needsReady cmd = true ∧ s.sys.ctrl.word.order ≠ 2 then 0x041A
      else ownChecks s.sys.ctrl.word (restoreFitsNow s.sys.data) (settled s.sys.data) (repairOf s.sys.ctrl.repair) cmd
        s.sys.ctrl := by
  have hpow : (s.sys.ctrl.word.module == .ready || s.sys.ctrl.word.module == .running || s.sys.ctrl.word.module == .held) =
      true := by
    rcases hw with h | h | h <;> rw [h] <;> rfl
  rw [codeOf, checkCmd_eq, journalFull_of_fromControl h, if_neg Bool.false_ne_true, hpow, if_neg]
  exact fun hno => Bool.false_ne_true hno.1

theorem codeOf_of_ready (h : FromControl s m) (hw : WordRuns s) (hready : needsReady cmd = false ∨ s.sys.ctrl.word.order = 2) :
    codeOf s cmd = ownChecks s.sys.ctrl.word (restoreFitsNow s.sys.data) (settled s.sys.data) (repairOf s.sys.ctrl.repair) cmd
      s.sys.ctrl := by
  rw [codeOf_of_runs h hw, if_neg]
  rintro ⟨hn, ho⟩
  rcases hready with h' | h'
  · exact Bool.false_ne_true (h'.symm.trans hn)
  · exact ho h'

theorem codeOf_of_notRuns (h : FromControl s m) (hw : ¬ WordRuns s) (hp : needsPower s.sys.ctrl.word cmd = true) :
    codeOf s cmd = 0x0410 := by
  simp only [WordRuns, not_or] at hw
  obtain ⟨hready, hrunning, hheld⟩ := hw
  rw [codeOf, checkCmd_eq, journalFull_of_fromControl h, if_neg Bool.false_ne_true, beq_false_of_ne hready,
    beq_false_of_ne hrunning, beq_false_of_ne hheld, if_pos ⟨rfl, hp⟩]

/-! ### Accepted and refused commands (R304 to R307) -/

/-- A command that Skour judges goes out as an order request once its checks pass. -/
theorem requests_of_accepted {ins : Instr} {op turn : Nat}
    (hex : exec ins s = .next { s with sys := hostCommand m cmd s.sys }) (h : FromControl s m) (hcode : codeOf s cmd = 0)
    (hop : cmdOp cmd = some op) (hturn : (match cmd with | .turn g => g | _ => 0) = turn) : Requests ins s m op turn := by
  refine ⟨_, arriving s m cmd, hex, ?_⟩
  dsimp only
  rw [hostCommand_judges h, if_pos hcode, acceptCmd]
  simp only [arriving, hop, applyCarry, and_true]
  rw [← hturn]
  cases cmd <;> rfl

theorem journal_of_room {typ : Nat} {time value : W64} {result : Nat} (h : journalFull c = false) :
    (journal m typ time value result c).journal =
      c.journal ++ [⟨time, 0x10 + m.engine, 4, 3, 0x7002, typ, value, BitVec.ofNat 16 result⟩] := by
  rw [journal, h, if_neg Bool.false_ne_true]

/-- A journal record leaves the rest of the control plane. -/
theorem journal_keeps {α : Type} (rd : Ctrl → α) (h : ∀ c j, rd { c with journal := j } = rd c) (typ : Nat) (time value : W64)
    (result : Nat) (c : Ctrl) : rd (journal m typ time value result c) = rd c := by
  unfold journal
  split
  · rfl
  · exact h c _

theorem refusedWith_of_code {ins : Instr} {typ : Nat} {status : BitVec 16}
    (hex : exec ins s = .next { s with sys := hostCommand m cmd s.sys }) (h : FromControl s m)
    (hcode : codeOf s cmd = status.toNat) (hne : status ≠ 0) (htyp : cmdType cmd = typ) : RefusedWith ins s m typ status := by
  have hbad : codeOf s cmd ≠ 0 := fun h0 => hne (BitVec.eq_of_toNat_eq (hcode.symm.trans h0))
  have hfull : journalFull (respond m status.toNat [] { stamped s m with lastCmd := m.cmdId }) = false :=
    journalFull_of_fromControl h
  refine ⟨_, ⟨s.sys.ts, 0x10 + m.engine, 4, 3, 0x7002, typ, m.cmdId, status⟩, hex, ?_⟩
  dsimp only
  rw [hostCommand_judges h, if_neg hbad, hcode, ← htyp]
  have hstatus : BitVec.ofNat 16 status.toNat = status := by rw [BitVec.ofNat_toNat, BitVec.setWidth_eq]
  refine ⟨.of_reply (engine := m.engine) (bs := []) (resent := false) ?_, ?_, ?_, ?_, rfl, rfl, rfl⟩
  · refine (journal_keeps Ctrl.reply (by intros; rfl) ..).trans ?_
    rw [respond_reply, hstatus]
    rfl
  · exact journal_keeps Ctrl.orderReq (by intros; rfl) ..
  · exact journal_keeps Ctrl.rc (by intros; rfl) ..
  · refine (journal_of_room hfull).trans ?_
    rw [hstatus]
    rfl

theorem voidRefusal_of_ne (h : c.rc ≠ .void) : voidRefusal c = none := if_neg h

theorem hasRun_of_exists (h : RunExists s) : hasRun s.sys.ctrl.rc = true := by
  rcases h with h | h | h <;> rw [h] <;> rfl

theorem ne_of_runExists (h : RunExists s) {r : RcState} (hr : hasRun r = false) : s.sys.ctrl.rc ≠ r := by
  rintro rfl
  exact Bool.false_ne_true (hr.symm.trans (hasRun_of_exists h))

theorem ownChecks_start {h0 : ImgHeader} (hi : c.image = some h0) (hrc : c.rc = .loaded ∨ c.rc = .held) :
    ownChecks w fits ok rep .start c = 0 := by
  rcases hrc with hrc | hrc <;> simp [ownChecks, hi, voidRefusal, hrc]

theorem ownChecks_resume (hrc : c.rc = .held) (hset : ok = true) :
    ownChecks w fits ok rep .resume c = if c.restart then 0x0416 else 0 := by
  simp [ownChecks, voidRefusal, hrc, hset]

theorem ownChecks_checkpoint {h0 : ImgHeader} (hi : c.image = some h0) (hp : h0.tpPeriod ≠ 0) (ht : c.rc ≠ .turning)
    (hr : hasRun c.rc = true) : ownChecks w fits ok rep .checkpoint c = 0 := by
  simp [ownChecks, hi, hp, ht, hr]

theorem ownChecks_turn {h0 : ImgHeader} {g : Nat} (hi : c.image = some h0) (hp : h0.tpPeriod ≠ 0) (ht : c.rc ≠ .turning)
    (hst : pwTurnState c.placement ≠ 2) (hr : hasRun c.rc = true)
    (hlegal : codeLegal h0 rep (h0.sizeX + 1, h0.sizeY + 1) (compose (pwCode c.placement) g) = true)
    (hok : pwTurnOk c.placement (compose (pwCode c.placement) g) = true) : ownChecks w fits ok rep (.turn g) c = 0 := by
  simp [ownChecks, hi, hp, ht, hst, hr, hlegal, hok]

theorem ownChecks_stop :
    ownChecks w fits ok rep .stop c = if c.rc = .noImage ∨ c.rc = .loaded then 0x041D else if c.rc = .loading then 0x041E else 0 :=
  rfl

/-- The commands that pass every check. -/
theorem runControl_accepts (h : FromControl s m) (hw : WordRuns s) :
    Requests (.hostHold m) s m 0x10 0 ∧
    (RunExists s → Requests (.hostStop m) s m 3 0) ∧
    (s.sys.ctrl.word.order = 2 → s.sys.ctrl.image.isSome = true → s.sys.ctrl.rc = .loaded ∨ s.sys.ctrl.rc = .held →
      Requests (.hostStart m) s m 1 0) ∧
    (s.sys.ctrl.word.order = 2 → s.sys.ctrl.rc = .held → s.sys.ctrl.restart = false → settled s.sys.data = true →
      Requests (.hostResume m) s m 2 0) ∧
    (∀ h, s.sys.ctrl.image = some h → h.tpPeriod ≠ 0 → RunExists s →
      Requests (.hostCheckpoint m) s m 4 0 ∧
      ∀ g : Fin 256, pwTurnState s.sys.ctrl.placement ≠ 2 →
        codeLegal h (repairOf s.sys.ctrl.repair) (h.sizeX + 1, h.sizeY + 1) (compose (pwCode s.sys.ctrl.placement) g) = true →
        pwTurnOk s.sys.ctrl.placement (compose (pwCode s.sys.ctrl.placement) g) = true →
        Requests (.hostTurn m g) s m 5 g) ∧
    ∀ v : F32, Requests (.hostCap m v) s m 0x11 0 := by
  refine ⟨?hold, fun hr => ?stop, fun ho hi hrc => ?start, fun ho hrc hres hset => ?resume, fun h0 hi hp hr =>
    ⟨?checkpoint, fun g hst hlegal hok => ?turn⟩, fun v => ?cap⟩
  case hold => exact requests_of_accepted (exec_hostHold s m) h (codeOf_of_ready h hw (.inl rfl)) rfl rfl
  case stop =>
    refine requests_of_accepted (exec_hostStop s m) h ?_ rfl rfl
    rw [codeOf_of_ready h hw (.inl rfl), ownChecks_stop, if_neg (not_or.2 ⟨ne_of_runExists hr rfl, ne_of_runExists hr rfl⟩),
      if_neg (ne_of_runExists hr rfl)]
  case start =>
    obtain ⟨h0, hi⟩ := Option.isSome_iff_exists.1 hi
    exact requests_of_accepted (exec_hostStart s m) h ((codeOf_of_ready h hw (.inr ho)).trans (ownChecks_start hi hrc)) rfl rfl
  case resume =>
    refine requests_of_accepted (exec_hostResume s m) h ?_ rfl rfl
    rw [codeOf_of_ready h hw (.inr ho), ownChecks_resume hrc hset, hres, if_neg Bool.false_ne_true]
  case checkpoint =>
    exact requests_of_accepted (exec_hostCheckpoint s m) h ((codeOf_of_ready h hw (.inl rfl)).trans
      (ownChecks_checkpoint hi hp (ne_of_runExists hr rfl) (hasRun_of_exists hr))) rfl rfl
  case turn =>
    exact requests_of_accepted (exec_hostTurn s m g) h ((codeOf_of_ready h hw (.inl rfl)).trans
      (ownChecks_turn hi hp (ne_of_runExists hr rfl) hst (hasRun_of_exists hr) hlegal hok)) rfl rfl
  case cap => exact requests_of_accepted (exec_hostCap s m v) h (codeOf_of_ready h hw (.inl rfl)) rfl rfl

/-- The refusals, by the check that fails first. -/
theorem runControl_refuses (h : FromControl s m) :
    (¬ WordRuns s → RefusedWith (.hostStart m) s m 0x20 0x0410 ∧ RefusedWith (.hostHold m) s m 0x21 0x0410 ∧
      RefusedWith (.hostResume m) s m 0x22 0x0410 ∧ RefusedWith (.hostCheckpoint m) s m 0x23 0x0410 ∧
      RefusedWith (.hostStop m) s m 0x25 0x0410) ∧
    (WordRuns s → s.sys.ctrl.word.order ≠ 2 →
      RefusedWith (.hostStart m) s m 0x20 0x041A ∧ RefusedWith (.hostResume m) s m 0x22 0x041A) ∧
    (WordRuns s → s.sys.ctrl.image = none → RefusedWith (.hostCheckpoint m) s m 0x23 0x0412) ∧
    (WordRuns s → s.sys.ctrl.rc = .noImage ∨ s.sys.ctrl.rc = .loaded → RefusedWith (.hostStop m) s m 0x25 0x041D) ∧
    (WordRuns s → s.sys.ctrl.rc = .loading → RefusedWith (.hostStop m) s m 0x25 0x041E) ∧
    (WordRuns s → s.sys.ctrl.word.order = 2 → s.sys.ctrl.rc = .held → s.sys.ctrl.restart = true →
      RefusedWith (.hostResume m) s m 0x22 0x0416) := by
  refine ⟨fun hw => ?away, fun hw ho => ?order, fun hw hi => ?image, fun hw hrc => ?stop, fun hw hrc => ?loading,
    fun hw ho hrc hres => ?restart⟩
  case away =>
    exact ⟨refusedWith_of_code (exec_hostStart s m) h (codeOf_of_notRuns h hw rfl) (by decide) rfl,
      refusedWith_of_code (exec_hostHold s m) h (codeOf_of_notRuns h hw rfl) (by decide) rfl,
      refusedWith_of_code (exec_hostResume s m) h (codeOf_of_notRuns h hw rfl) (by decide) rfl,
      refusedWith_of_code (exec_hostCheckpoint s m) h (codeOf_of_notRuns h hw rfl) (by decide) rfl,
      refusedWith_of_code (exec_hostStop s m) h (codeOf_of_notRuns h hw rfl) (by decide) rfl⟩
  case order =>
    exact ⟨refusedWith_of_code (exec_hostStart s m) h ((codeOf_of_runs h hw).trans (if_pos ⟨rfl, ho⟩)) (by decide) rfl,
      refusedWith_of_code (exec_hostResume s m) h ((codeOf_of_runs h hw).trans (if_pos ⟨rfl, ho⟩)) (by decide) rfl⟩
  case image =>
    refine refusedWith_of_code (exec_hostCheckpoint s m) h ((codeOf_of_ready h hw (.inl rfl)).trans ?_) (by decide) rfl
    rw [ownChecks, hi]
    rfl
  case stop =>
    exact refusedWith_of_code (exec_hostStop s m) h ((codeOf_of_ready h hw (.inl rfl)).trans (if_pos hrc)) (by decide) rfl
  case loading =>
    refine refusedWith_of_code (exec_hostStop s m) h ((codeOf_of_ready h hw (.inl rfl)).trans ?_) (by decide) rfl
    rw [ownChecks_stop, hrc]
    rfl
  case restart =>
    refine refusedWith_of_code (exec_hostResume s m) h ((codeOf_of_ready h hw (.inr ho)).trans ?_) (by decide) rfl
    simp [ownChecks, voidRefusal, hrc, hres]

/-- Settles O39: each command of the control session by the code of its checks. -/
theorem runControlAcceptsOrRefuses : Obligations.RunControlAcceptsOrRefuses :=
  ⟨fun _ _ h hw => runControl_accepts h hw, fun _ _ h => runControl_refuses h⟩

end Sys2Proof.Machine
end

section
/-!
SUPPORT. What records leave: a reader of the management plane or of Sill that looks at no journal, queue or stored entry reads
the same after a journal entry, an event, an alarm, a write of J1 or a move of the state register. Then Skour's verdicts on order
requests (O40).
-/

namespace Sys2Proof.Machine

-- As in the tests: one proof at a time, so that the whole text keeps within the threads that the memory holds.
set_option Elab.async false

variable {s t : State} {x : Module} {k : Nat}

/-! ### Readers that records leave alone -/

/-- The management plane without its journal, its events and the queues toward Skour. -/
def Mgmt.kept (m : Mgmt) : Mgmt :=
  { m with
    dict := [], settingsDirty := false, recordsDirty := false, journal := [], jNext := 0, jHeld := 0, eventSeq := 0
    act := { m.act with queue := [], lost := 0 }
    bus := { m.bus with events := [] } }

theorem dset_kept (k v : Nat) (m : Mgmt) : (dset k v m).kept = m.kept := by
  obtain ⟨_, _, _, h⟩ := dset_cases k v m
  rw [h]
  rfl

theorem enqueue_kept (e : JEnt) (detail : List Byte) (x : Module) : (enqueue e detail x).mgmt.kept = x.mgmt.kept := by
  rw [enqueue, editAct, onMgmt_mgmt]
  split <;> rfl

theorem note_kept (source kind key value : Nat) (x : Module) : (note source kind key value x).mgmt.kept = x.mgmt.kept := by
  unfold note
  dsimp only
  split
  · rfl
  · split
    · rfl
    · exact enqueue_kept ..

theorem recordEvent_kept (obj : Nat) (at_ : W64) (detail : List Byte) (x : Module) :
    (recordEvent obj at_ detail x).mgmt.kept = x.mgmt.kept := by
  rw [recordEvent]
  obtain ⟨_, _, _, h⟩ := dset_cases (k := obj) (v := _) (m := _)
  unfold setE
  simp only [editBus, onMgmt_mgmt]
  rw [h]
  rfl

theorem raiseEvent_kept (obj : Nat) (detail : List Byte) (x : Module) :
    (raiseEvent obj detail x).mgmt.kept = x.mgmt.kept := by
  unfold raiseEvent
  split
  · exact recordEvent_kept ..
  · exact enqueue_kept ..

/-- A reader of the management plane that looks at nothing records change. -/
def RecordFree {α : Type} (rd : Mgmt → α) : Prop := ∀ m, rd m.kept = rd m

theorem RecordFree.reads {α : Type} {rd : Mgmt → α} (h : RecordFree rd) {m n : Mgmt} (hk : m.kept = n.kept) : rd m = rd n := by
  rw [← h m, hk, h n]

theorem setE_reads {α : Type} (rd : Mgmt → α) (k v : Nat) (x : Module) (h : RecordFree rd := by intro _; rfl) :
    rd (setE k v x).mgmt = rd x.mgmt := h.reads (dset_kept k v x.mgmt)

theorem note_reads {α : Type} (rd : Mgmt → α) (source kind key value : Nat) (x : Module)
    (h : RecordFree rd := by intro _; rfl) : rd (note source kind key value x).mgmt = rd x.mgmt :=
  h.reads (note_kept ..)

theorem raiseEvent_reads {α : Type} (rd : Mgmt → α) (obj : Nat) (detail : List Byte) (x : Module)
    (h : RecordFree rd := by intro _; rfl) : rd (raiseEvent obj detail x).mgmt = rd x.mgmt :=
  h.reads (raiseEvent_kept ..)

theorem commitEnt_reads {α : Type} (rd : Mgmt → α) (e : JEnt) (x : Module) (h : RecordFree rd := by intro _; rfl) :
    rd (commitEnt e x).mgmt = rd x.mgmt :=
  h.reads (m := (commitEnt e x).mgmt) rfl

/-- A reader of Sill that does not look at its copy of the journal. -/
def CopyFree {α : Type} (rd : Sill → α) : Prop := ∀ (s : Sill) c, rd { s with copy := c } = rd s

theorem Module.SameBut.reads {α : Type} {ks : List Nat} {x y : Module} (h : x.SameBut ks y) (rd : Sill → α)
    (hrd : CopyFree rd := by intro _ _; rfl) : rd y.sill = rd x.sill := by
  obtain ⟨c, hc⟩ := h.sill
  rw [hc, hrd]

@[simp] theorem note_data (source kind key value : Nat) (x : Module) : (note source kind key value x).data = x.data :=
  (note_sameBut source kind key value x).data

@[simp] theorem note_ts (source kind key value : Nat) (x : Module) : (note source kind key value x).ts = x.ts :=
  (note_sameBut source kind key value x).ts

@[simp] theorem getE_note (source kind key value : Nat) (x : Module) : getE (note source kind key value x) k = getE x k :=
  (note_sameBut source kind key value x).entries k List.not_mem_nil

@[simp] theorem raiseEvent_data (obj : Nat) (detail : List Byte) (x : Module) : (raiseEvent obj detail x).data = x.data :=
  (raiseEvent_sameBut obj detail x).data

@[simp] theorem raiseEvent_ts (obj : Nat) (detail : List Byte) (x : Module) : (raiseEvent obj detail x).ts = x.ts :=
  (raiseEvent_sameBut obj detail x).ts

theorem getE_raiseEvent {obj : Nat} (detail : List Byte) (x : Module) (h : k ≠ obj) :
    getE (raiseEvent obj detail x) k = getE x k :=
  (raiseEvent_sameBut obj detail x).entries k (by simpa using h)

/-! ### J1 and the state register -/

/-- A reader of the management plane that does not look at the levels last written on J1. -/
def OutFree {α : Type} (rd : Mgmt → α) : Prop := ∀ m v, rd { m with joints := { m.joints with out := v } } = rd m

theorem presentLevels_reads {α : Type} (rd : Mgmt → α) (v : J1Levels) (x : Module) (h : OutFree rd := by intro _ _; rfl) :
    rd (presentLevels v x).mgmt = rd x.mgmt := by
  unfold presentLevels
  split
  · exact h x.mgmt v
  · rfl

theorem writeJ1_reads {α : Type} (rd : Mgmt → α) (x : Module) (h : OutFree rd := by intro _ _; rfl) :
    rd (writeJ1 x).mgmt = rd x.mgmt := presentLevels_reads rd _ x h

@[simp] theorem writeJ1_sill (x : Module) : (writeJ1 x).sill = x.sill := presentLevels_sill ..

@[simp] theorem writeJ1_on (x : Module) : (writeJ1 x).data.on = x.data.on := presentLevels_on ..

@[simp] theorem getE_writeJ1 (x : Module) : getE (writeJ1 x) k = getE x k := getE_presentLevels ..

@[simp] theorem presentLevels_ts (v : J1Levels) (x : Module) : (presentLevels v x).ts = x.ts := by
  unfold presentLevels
  split <;> rfl

@[simp] theorem writeJ1_ts (x : Module) : (writeJ1 x).ts = x.ts := presentLevels_ts ..

theorem setThrottle_reads {α : Type} (rd : Mgmt → α) (f : Throttles → Throttles) (x : Module)
    (h : OutFree rd := by intro _ _; rfl) : rd (setThrottle f x).mgmt =
      rd { x.mgmt with power := { x.mgmt.power with throttles := f x.mgmt.power.throttles } } :=
  writeJ1_reads rd _ h

@[simp] theorem toState_module (t : ModState) (x : Module) : (toState t x).mgmt.module = t := by
  unfold toState
  dsimp only
  split
  · assumption
  · exact (note_reads Mgmt.module ..)

/-- A reader of the management plane that a move of the state register leaves alone. -/
def StateFree {α : Type} (rd : Mgmt → α) : Prop :=
  ∀ m st due cap, rd { m.kept with module := st, power := { m.power with forecastDue := due, hostCap := cap } } = rd m

theorem toState_reads {α : Type} (rd : Mgmt → α) (t : ModState) (x : Module) (h : StateFree rd := by intro _ _ _ _; rfl) :
    rd (toState t x).mgmt = rd x.mgmt := by
  have hfree : RecordFree rd := fun m => (h m.kept m.module m.power.forecastDue m.power.hostCap).symm.trans
    (h m m.module m.power.forecastDue m.power.hostCap)
  unfold toState
  dsimp only
  split
  · rfl
  · rw [note_reads rd _ _ _ _ _ hfree]
    refine Eq.trans ?_ (hfree.reads (dset_kept Ent.stateTime x.ts.toNat x.mgmt))
    exact Eq.trans (hfree _).symm (h (dset Ent.stateTime x.ts.toNat x.mgmt) t true _)

@[simp] theorem toState_data (t : ModState) (x : Module) : (toState t x).data = x.data := (toState_sameBut t x).data

@[simp] theorem toState_ts (t : ModState) (x : Module) : (toState t x).ts = x.ts := (toState_sameBut t x).ts

@[simp] theorem toState_joints (t : ModState) (x : Module) : (toState t x).mgmt.joints = x.mgmt.joints :=
  (toState_sameBut t x).joints

/-! ### Verdicts on order requests (R305, R306, R358) -/

theorem giveVerdict_joints (code : Nat) (x : Module) : (giveVerdict code x).mgmt.joints =
    { x.mgmt.joints with verdict := BitVec.ofNat 16 code, verdictCount := x.mgmt.joints.verdictCount + 1 } := rfl

theorem giveVerdict_mgmt {α : Type} (rd : Mgmt → α) (code : Nat) (x : Module)
    (h : ∀ m j, rd { m with joints := j } = rd m := by intro _ _; rfl) : rd (giveVerdict code x).mgmt = rd x.mgmt := h x.mgmt _

/-- Skour has given its verdict on the order request, and the order word on J1 is `order`. -/
structure Judged (s t : State) (verdict : BitVec 16) (order : BitVec 16) : Prop where
  taken : t.sys.ctrl.orderReq = none
  verdict : t.sys.mgmt.joints.verdict = verdict
  count : t.sys.mgmt.joints.verdictCount = s.sys.mgmt.joints.verdictCount + 1
  order : t.sys.mgmt.joints.order = order

section
variable {r : OrderReq} (hr : s.sys.ctrl.orderReq = some r) (hup : skourUp s.sys = true)
include hr hup

theorem orderRequest_stale (hold : 20000000 < (s.sys.ts - r.stamp).toNat) :
    ∃ t, exec .orderRequest s = .next t ∧ t.sys.ctrl.orderReq = none ∧ t.sys.mgmt = s.sys.mgmt := by
  have hx : orderRequest s.sys = onCtrl (fun c => { c with orderReq := none }) s.sys := by
    simp only [orderRequest, hr, hup, Bool.not_true, Bool.false_eq_true, if_false]
    exact if_pos hold
  refine ⟨_, exec_orderRequest s, ?_⟩
  rw [hx]
  exact ⟨rfl, rfl⟩

variable (hfresh : (s.sys.ts - r.stamp).toNat ≤ 20000000)
include hfresh

theorem orderRequest_of_fresh : orderRequest s.sys =
    if leftSince s.sys then giveVerdict 0x0410 s.sys
    else if orderSince s.sys then giveVerdict 0x041A s.sys else actOnRequest r s.sys := by
  simp only [orderRequest, hr, hup, Bool.not_true, Bool.false_eq_true, if_false]
  exact if_neg hfresh.not_gt

theorem orderRequest_left (hleft : leftSince s.sys = true) :
    ∃ t, exec .orderRequest s = .next t ∧ t.sys.mgmt.joints.verdict = 0x0410 ∧
      t.sys.mgmt.joints.verdictCount = s.sys.mgmt.joints.verdictCount + 1 ∧
      t.sys.mgmt.module = s.sys.mgmt.module ∧ t.sys.mgmt.joints.order = s.sys.mgmt.joints.order := by
  refine ⟨_, exec_orderRequest s, ?_⟩
  rw [orderRequest_of_fresh hr hup hfresh, if_pos hleft]
  exact ⟨rfl, rfl, rfl, rfl⟩

variable (hstays : leftSince s.sys = false) (hord : orderSince s.sys = false)
include hstays hord

theorem exec_orderRequest_acts : exec .orderRequest s = .next { s with sys := actOnRequest r s.sys } := by
  rw [exec_orderRequest, orderRequest_of_fresh hr hup hfresh, hstays, hord]
  rfl

/-- An order of run control goes out on J1; START and RESUME move the state register to RUNNING, RESUME ends the host's hold. -/
theorem orderRequest_orders (hlo : 1 ≤ r.op) (hhi : r.op ≤ 5) :
    ∃ t, exec .orderRequest s = .next t ∧ t.sys.ctrl.orderReq = none ∧ t.sys.mgmt.joints.verdict = 0 ∧
      t.sys.mgmt.joints.verdictCount = s.sys.mgmt.joints.verdictCount + 1 ∧
      t.sys.mgmt.joints.order = nextOrder s.sys.mgmt r.op (if r.op = 5 then r.turn else 0) ∧
      (r.op ≤ 2 → t.sys.mgmt.module = .running) ∧ (r.op = 2 → t.sys.mgmt.joints.hostHold = false) := by
  refine ⟨_, exec_orderRequest_acts hr hup hfresh hstays hord, ?_⟩
  obtain ⟨id, stamp, turn, op⟩ := r
  dsimp only at hlo hhi ⊢
  obtain rfl | rfl | rfl | rfl | rfl : op = 1 ∨ op = 2 ∨ op = 3 ∨ op = 4 ∨ op = 5 := by omega
  all_goals simp [actOnRequest, giveVerdict, writeOrder, presentOrder, nextOrder, writeJ1_reads (fun m => m.joints.order),
    writeJ1_reads (fun m => m.joints.verdictCount), writeJ1_reads (fun m => m.joints.hostHold), writeJ1_reads Mgmt.module]

theorem orderRequest_holds (hop : r.op = 0x10) :
    ∃ t, exec .orderRequest s = .next t ∧ t.sys.mgmt.joints.verdict = 0 ∧ t.sys.mgmt.joints.hostHold = true ∧
      t.sys.mgmt.module = s.sys.mgmt.module := by
  refine ⟨_, exec_orderRequest_acts hr hup hfresh hstays hord, ?_⟩
  simp only [actOnRequest, hop, giveVerdict_joints, giveVerdict_mgmt Mgmt.module, writeJ1_reads (fun m => m.joints.hostHold),
    writeJ1_reads Mgmt.module]
  exact ⟨rfl, rfl, rfl⟩

theorem orderRequest_caps (hop : r.op = 0x11) :
    ∃ t, exec .orderRequest s = .next t ∧ t.sys.ctrl.orderReq = none ∧
      (∀ v, judgeHostCap (rackCap s.sys) s.sys.ctrl.hostCap = .ok v →
        t.sys.mgmt.joints.verdict = 0 ∧ t.sys.mgmt.power.hostCap = v) ∧
      ∀ code, judgeHostCap (rackCap s.sys) s.sys.ctrl.hostCap = .error code →
        t.sys.mgmt.joints.verdict = BitVec.ofNat 16 code ∧ t.sys.mgmt.power.hostCap = s.sys.mgmt.power.hostCap := by
  refine ⟨_, exec_orderRequest_acts hr hup hfresh hstays hord, ?_⟩
  simp only [actOnRequest, hop]
  cases judgeHostCap (rackCap s.sys) s.sys.ctrl.hostCap with
  | ok v => exact ⟨rfl, fun w hw => ⟨rfl, by injection hw⟩, nofun⟩
  | error code => exact ⟨rfl, nofun, fun w hw => ⟨by injection hw with hw; rw [← hw]; rfl, rfl⟩⟩

end

/-! ### The time-out of a verdict (R306) -/

theorem repeatN_of_fixed {α : Type} {f : Nat → α → α} {x : α} (h : ∀ n, f n x = x) (n : Nat) : repeatN f n x = x :=
  repeatN_induct (P := fun y => y = x) (fun k y hy => by rw [hy, h k]) n rfl

/-- Nothing is judged while a verdict is awaited or no command waits. -/
theorem judgeQueue_of_idle (h : x.ctrl.current.isSome = true ∨ x.ctrl.queue = []) : judgeQueue x = x := by
  refine repeatN_of_fixed (fun _ => ?_) 64
  rw [judgeWaiting]
  unfold judgeNext
  rcases h with h | h
  · obtain ⟨w, hw⟩ := Option.isSome_iff_exists.1 h
    simp only [hw]
    rfl
  · rw [h]
    cases x.ctrl.current <;> rfl

theorem exec_orderVerdictTimeout_of_time {w : Waiting} (hw : s.sys.ctrl.current = some w)
    (hearly : (s.sys.ts - w.stamp).toNat < 20000000) : exec .orderVerdictTimeout s = .next s := by
  have hkeep : verdictTimeout (cenvOf s.sys) s.sys.ctrl = s.sys.ctrl := by
    rw [verdictTimeout, hw]
    exact if_neg hearly.not_ge
  rw [exec_orderVerdictTimeout, verdictOverdue, onCtrl_of_fixed hkeep, judgeQueue_of_idle (.inl (by rw [hw]; rfl))]

theorem orderVerdictTimeout_refuses {w : Waiting} (hw : s.sys.ctrl.current = some w)
    (hlate : 20000000 ≤ (s.sys.ts - w.stamp).toNat) (hq : s.sys.ctrl.queue = []) :
    ∃ t, exec .orderVerdictTimeout s = .next t ∧ t.sys.ctrl.current = none ∧ t.sys.ctrl.orderReq = none ∧
      Answered t w.msg 0x0420 ∧ t.sys.ctrl.rc = s.sys.ctrl.rc := by
  have hend : verdictTimeout (cenvOf s.sys) s.sys.ctrl =
      finishCmd w 0x0420 [] { s.sys.ctrl with current := none, orderReq := none } := by
    rw [verdictTimeout, hw]
    refine (if_pos hlate).trans ?_
    rw [verdictIn, hw]
    rfl
  have hx : verdictOverdue s.sys = onCtrl (verdictTimeout (cenvOf s.sys)) s.sys := by
    refine judgeQueue_of_idle (.inr ?_)
    rw [onCtrl, hend]
    exact (journal_keeps Ctrl.queue (by intros; rfl) ..).trans hq
  refine ⟨_, exec_orderVerdictTimeout s, ?_⟩
  dsimp only
  rw [hx, onCtrl, hend]
  refine ⟨journal_keeps Ctrl.current (by intros; rfl) .., journal_keeps Ctrl.orderReq (by intros; rfl) ..,
    .of_reply (engine := w.msg.engine) (bs := []) (resent := false) ?_, journal_keeps Ctrl.rc (by intros; rfl) ..⟩
  exact journal_keeps Ctrl.reply (by intros; rfl) ..

/-- Settles O40: an order request by its age, by what Skour finds of the module, and by its op code; the time-out by its 20 ms. -/
theorem skourJudgesOrderRequests : Obligations.SkourJudgesOrderRequests := by
  unfold Obligations.SkourJudgesOrderRequests
  refine fun s => ⟨fun r hr hup => ⟨orderRequest_stale hr hup, orderRequest_left hr hup, fun hfresh hstays hord =>
    ⟨orderRequest_orders hr hup hfresh hstays hord, orderRequest_holds hr hup hfresh hstays hord,
      orderRequest_caps hr hup hfresh hstays hord⟩⟩, fun w hw =>
    ⟨fun hlate hq => orderVerdictTimeout_refuses hw hlate hq, exec_orderVerdictTimeout_of_time hw⟩⟩

end Sys2Proof.Machine
end

section
/-!
SUPPORT. What a judged command, a move of rc_state and the followed state word leave of the control plane; what a load takes and
how it ends; the placement check. Then J2, loads, restores and system descriptions (O41).
-/

namespace Sys2Proof.Machine

-- As in the tests: one proof at a time, so that the whole text keeps within the threads that the memory holds.
set_option Elab.async false

variable {s t : State} {x : Module} {c : Ctrl} {d : Data} {ce : CEnv} {e : Env} {m : Msg} {k : Nat}

/-! ### What rc_state's moves and answers leave of the control plane -/

@[simp] theorem setRc_rc (ce : CEnv) (r : RcState) (cmd : W64) (c : Ctrl) : (setRc ce r cmd c).rc = r := by
  unfold setRc
  split
  · assumption
  · rfl

/-- A reader that rc_state and the ring of run events have no share in. -/
def RcFree {α : Type} (rd : Ctrl → α) : Prop := ∀ c r g, rd { c with rc := r, ring := g } = rd c

theorem setRc_reads {α : Type} (rd : Ctrl → α) (ce : CEnv) (r : RcState) (cmd : W64) (c : Ctrl)
    (h : RcFree rd := by intro _ _ _; rfl) : rd (setRc ce r cmd c) = rd c := by
  unfold setRc
  split
  · rfl
  · exact h c r _

/-- A reader that an answered command, with its journal record, has no share in. -/
def AnswerFree {α : Type} (rd : Ctrl → α) : Prop :=
  ∀ c l ss r j, rd { c with lastCmd := l, sessions := ss, reply := r, journal := j } = rd c

theorem finishCmd_reads {α : Type} (rd : Ctrl → α) (w : Waiting) (status : Nat) (bs : List Byte) (c : Ctrl)
    (h : AnswerFree rd := by intro _ _ _ _ _; rfl) : rd (finishCmd w status bs c) = rd c := by
  have hj (c : Ctrl) (j : List JournalRec) : rd { c with journal := j } = rd c := h c c.lastCmd c.sessions c.reply j
  rw [finishCmd, journal_keeps rd hj]
  exact h c _ _ _ c.journal

theorem finishCmd_reply (w : Waiting) (status : Nat) (bs : List Byte) (c : Ctrl) : (finishCmd w status bs c).reply =
    some ⟨w.msg.engine, w.msg.session, ⟨w.msg.seq, w.msg.cmdId, BitVec.ofNat 16 status, bs⟩, false⟩ :=
  journal_keeps Ctrl.reply (by intros; rfl) ..

/-- What J2 brought last: the state word and the placement word. -/
def Ctrl.words (c : Ctrl) : J2Word × W32 := (c.word, c.placement)

theorem acceptCmd_words (ce : CEnv) (w : Waiting) (c : Ctrl) : (acceptCmd ce w c).1.words = c.words := by
  obtain ⟨msg, cmd, stamp, word⟩ := w
  cases cmd with
  | loadBegin len rep => exact (setRc_reads Ctrl.words ..).trans (finishCmd_reads Ctrl.words ..)
  | restore => exact (setRc_reads Ctrl.words ..).trans (finishCmd_reads Ctrl.words ..)
  | sysDesc p => exact finishCmd_reads Ctrl.words ..
  | _ => rfl

theorem judge_words (ce : CEnv) (fits ok : Bool) (rep : Repair) (w : Waiting) (c : Ctrl) :
    (judge ce fits ok rep w c).1.words = c.words := by
  rw [judge]
  generalize (if c.control ≠ some w.msg.session then 0x0501 else checkCmd w.word fits ok rep w.cmd c) = code
  split
  · exact acceptCmd_words ..
  · exact finishCmd_reads Ctrl.words ..

theorem judgeNext_words (ce : CEnv) (fits ok : Bool) (rep : Repair) (c : Ctrl) :
    (judgeNext ce fits ok rep c).1.words = c.words := by
  unfold judgeNext
  split
  · split
    · rfl
    · exact judge_words ..
  · rfl

@[simp] theorem applyCarry_mgmt (r : Ctrl × Carry) (x : Module) : (applyCarry r x).mgmt = x.mgmt := by
  unfold applyCarry
  dsimp only
  split
  · rfl
  · rfl
  · rfl
  · split <;> rfl

@[simp] theorem applyCarry_ctrl_eq (r : Ctrl × Carry) (x : Module) : (applyCarry r x).ctrl = r.1 := by
  unfold applyCarry
  dsimp only
  split
  · rfl
  · rfl
  · rfl
  · split <;> rfl

/-- Judging the waiting commands leaves the management plane and the words of J2. -/
theorem judgeQueue_keeps (x : Module) :
    (judgeQueue x).mgmt = x.mgmt ∧ (judgeQueue x).ctrl.words = x.ctrl.words :=
  ⟨repeatN_keeps Module.mgmt (f := fun _ y => judgeWaiting y) (fun _ y => applyCarry_mgmt _ y) 64 x,
    repeatN_keeps (fun y : Module => y.ctrl.words) (f := fun _ y => judgeWaiting y)
      (fun _ y => (congrArg Ctrl.words (applyCarry_ctrl_eq _ y)).trans (judgeNext_words ..)) 64 x⟩

/-! ### The state word on J2 (R17, R24) -/

/-- A reader that following the state word has no share in. -/
def FollowFree {α : Type} (rd : Ctrl → α) : Prop :=
  RcFree rd ∧ ∀ c l i r v, rd { c with load := l, image := i, restart := r, voidCode := v } = rd c

theorem followWord_reads {α : Type} (rd : Ctrl → α) (ce : CEnv) (c : Ctrl)
    (h : FollowFree rd := by exact ⟨by intro _ _ _; rfl, by intro _ _ _ _ _; rfl⟩) : rd (followWord ce c) = rd c := by
  obtain ⟨hrc, hrest⟩ := h
  have hmoves (r : RcState) (l i rs v) :
      rd (setRc ce r 0 { c with load := l, image := i, restart := rs, voidCode := v }) = rd c :=
    (setRc_reads rd ce r 0 _ hrc).trans (hrest c l i rs v)
  unfold followWord abandon
  dsimp only
  split
  · exact hmoves .noImage none none false c.voidCode
  split
  · exact hmoves .void c.load c.image c.restart 0x0417
  split
  · exact hmoves .turning c.load c.image c.restart c.voidCode
  split
  · exact hmoves .held c.load c.image true c.voidCode
  split
  · exact hmoves .void c.load c.image c.restart 0x0415
  split
  · exact hmoves .running c.load c.image c.restart c.voidCode
  split
  · exact hmoves .held c.load c.image c.restart c.voidCode
  · rfl

/-- A verdict on the command awaited moves at most rc_state beyond answering it. -/
theorem verdictIn_reads {α : Type} (rd : Ctrl → α) {w : Waiting} (code : Nat) (hw : c.current = some w) (hrc : RcFree rd)
    (hres : ∀ c r, rd { c with restart := r } = rd c) :
    rd (verdictIn ce code c) = rd (finishCmd w code [] { c with current := none, orderReq := none }) := by
  simp only [verdictIn, hw]
  split
  · rfl
  · split
    · exact (setRc_reads rd ce .armed _ _ hrc).trans (hres _ _)
    · exact setRc_reads rd ce .armed _ _ hrc
    · exact setRc_reads rd ce .stopping _ _ hrc
    · rfl

theorem verdictIn_words (code : Nat) : (verdictIn ce code c).words = c.words := by
  cases hw : c.current with
  | none => rw [verdictIn, hw]
  | some w =>
    rw [verdictIn_reads Ctrl.words code hw (by intro _ _ _; rfl) (by intros; rfl), finishCmd_reads Ctrl.words]
    rfl

theorem takeWord_words (w : J2Word) (p : W32) (c : Ctrl) : (takeWord ce w p c).words = (w, p) := by
  unfold takeWord
  split
  · rfl
  · dsimp only
    rw [followWord_reads Ctrl.words]
    split
    · exact verdictIn_words _
    · rfl

/-- A new verdict count on J2 brings the verdict on the command awaited, which is answered with it (R306). -/
theorem takeWord_verdict {w : J2Word} {p : W32} {wt : Waiting} (hon : c.on = true) (hw : c.current = some wt)
    (hnew : w.verdictCount ≠ c.word.verdictCount) :
    (takeWord ce w p c).current = none ∧ (takeWord ce w p c).queue = c.queue ∧ (takeWord ce w p c).reply =
      some ⟨wt.msg.engine, wt.msg.session, ⟨wt.msg.seq, wt.msg.cmdId, w.verdict, []⟩, false⟩ := by
  have hfresh : (w.verdictCount != c.word.verdictCount) = true := bne_iff_ne.2 hnew
  have hstatus : BitVec.ofNat 16 w.verdict.toNat = w.verdict := by rw [BitVec.ofNat_toNat, BitVec.setWidth_eq]
  have hend : ((takeWord ce w p c).current, (takeWord ce w p c).queue, (takeWord ce w p c).reply) =
      (fun y : Ctrl => (y.current, y.queue, y.reply))
        (finishCmd wt w.verdict.toNat [] { c with word := w, placement := p, current := none, orderReq := none }) := by
    rw [takeWord, if_neg (by rw [hon]; decide)]
    dsimp only
    rw [hfresh, if_pos rfl]
    refine (followWord_reads (fun y : Ctrl => (y.current, y.queue, y.reply)) ce _).trans ?_
    exact verdictIn_reads (c := { c with word := w, placement := p }) (fun y : Ctrl => (y.current, y.queue, y.reply))
      w.verdict.toNat hw (by intro _ _ _; rfl) (by intros; rfl)
  simp only [Prod.mk.injEq] at hend
  obtain ⟨hcur, hq, hreply⟩ := hend
  rw [hcur, hq, hreply, finishCmd_reads Ctrl.current, finishCmd_reads Ctrl.queue, finishCmd_reply, hstatus]
  exact ⟨rfl, rfl, rfl⟩

theorem j2StateWordUpdate_updates (hup : skourUp s.sys = true) :
    ∃ t, exec .j2StateWordUpdate s = .next t ∧ t.sys.mgmt.joints.word = stateWordOf s.sys ∧
      t.sys.ctrl.word = stateWordOf s.sys ∧ t.sys.ctrl.placement = placementWordOf s.sys.mgmt.joints.placement ∧
      (∀ x, s.sys.ctrl.on = true → s.sys.ctrl.queue = [] → s.sys.ctrl.current = some x →
        s.sys.mgmt.joints.verdictCount ≠ s.sys.ctrl.word.verdictCount →
        t.sys.ctrl.current = none ∧ Answered t x.msg s.sys.mgmt.joints.verdict) := by
  refine ⟨_, exec_j2StateWordUpdate s, ?_⟩
  simp only [updateWord, hup, Bool.not_true, Bool.false_eq_true, if_false]
  obtain ⟨hmgmt, hwords⟩ := judgeQueue_keeps (onCtrl (takeWord (cenvOf s.sys) (stateWordOf s.sys)
    (placementWordOf s.sys.mgmt.joints.placement)) (editJoints (fun j => { j with
      word := stateWordOf s.sys, placeWord := placementWordOf s.sys.mgmt.joints.placement }) s.sys))
  rw [onCtrl_ctrl, takeWord_words] at hwords
  simp only [Ctrl.words, Prod.mk.injEq] at hwords
  refine ⟨by rw [hmgmt]; rfl, hwords.1, hwords.2, fun w hon hq hw hnew => ?_⟩
  obtain ⟨hcur, hqueue, hreply⟩ := takeWord_verdict (ce := cenvOf s.sys) (w := stateWordOf s.sys)
    (p := placementWordOf s.sys.mgmt.joints.placement) hon hw hnew
  rw [judgeQueue_of_idle (.inr (hqueue.trans hq))]
  exact ⟨hcur, .of_reply hreply⟩

/-! ### The profile, the journal records and the end of a stop -/

theorem requestStep_reads {α : Type} (rd : Mgmt → α) (x : Module) (h : RecordFree rd := by intro _; rfl)
    (hj : ∀ m v r, rd { m with joints := { m.joints with out := v, stepReq := r } } = rd m := by intro _ _ _; rfl) :
    rd (requestStep x).mgmt = rd x.mgmt := by
  have hstep : rd (writeStep x).mgmt = rd x.mgmt := by
    rw [writeStep, writeJ1_reads rd _ (fun m v => hj m v m.joints.stepReq)]
    exact hj x.mgmt x.mgmt.joints.out _
  unfold requestStep
  dsimp only
  split
  · exact hstep
  · rw [setE_reads rd _ _ _ h, hstep]

theorem getE_requestStep (x : Module) (hk : k ≠ Ent.capReason) : getE (requestStep x) k = getE x k := by
  have hstep : getE (writeStep x) k = getE x k := by
    rw [writeStep, getE_writeJ1]
    rfl
  unfold requestStep
  dsimp only
  split
  · exact hstep
  · rw [getE_setE_of_ne _ _ hk, hstep]

theorem presentLevels_ctrl_eq (v : J1Levels) (x : Module) : (presentLevels v x).ctrl = x.ctrl := by
  unfold presentLevels
  split <;> rfl

theorem j2Profile_takes (hup : skourUp s.sys = true) (hdue : s.sys.ctrl.profileDue = true) :
    ∃ t, exec .j2Profile s = .next t ∧
      t.sys.ctrl.profileDue = false ∧ t.sys.mgmt.power.profile = s.sys.ctrl.profile.bind readProfile ∧
      t.sys.mgmt.joints.minStep = s.sys.ctrl.stepExpected ∧
      getE t.sys Ent.profileState = (if (s.sys.ctrl.profile.bind readProfile).isSome then 1 else 2) := by
  refine ⟨_, exec_j2Profile s, ?_⟩
  have hgo : ¬ ((!skourUp s.sys) = true ∨ (!s.sys.ctrl.profileDue) = true) := by simp [hup, hdue]
  rw [takeProfile, if_neg hgo]
  dsimp only
  rw [requestStep_reads Mgmt.power, requestStep_reads (fun m => m.joints.minStep), getE_requestStep _ (by decide),
    getE_setE_of_ne _ _ (by decide)]
  refine ⟨?_, ?_, ?_, ?_⟩
  · simp
  · rw [setE_power]
    rfl
  · rw [setE_joints]
    rfl
  · exact getE_setE_self ..

theorem find?_insertKey {α : Type} (l : SMap α) (k : Nat) (v : α) :
    (insertKey l k v).find? (fun p => p.1 == k) = some (k, v) := by
  induction l with
  | nil => simp [insertKey]
  | cons y l ih =>
    unfold insertKey
    split
    · simp
    · split
      · simp
      · rename_i hne _
        rw [List.find?_cons_of_neg (by simpa using Ne.symm hne), ih]

theorem j2JournalRecord_takes {r : JournalRec} {rest : List JournalRec} (hj : s.sys.ctrl.journal = r :: rest)
    (hup : skourUp s.sys = true) : ∃ t e, exec .j2JournalRecord s = .next t ∧
      t.sys.ctrl.journal = rest ∧ t.sys.mgmt.journal.find? (fun p => p.1 == s.sys.mgmt.jNext % 65536) = some e ∧
      e.2.time = r.time ∧ e.2.source = r.source ∧ e.2.kind = r.kind ∧ e.2.value = r.value ∧ e.2.result = r.result ∧
      e.2.sequence = s.sys.mgmt.jNext := by
  refine ⟨_, (s.sys.mgmt.jNext % 65536, ⟨s.sys.mgmt.jNext, r.time, snapBeat s.sys.mgmt, r.source, r.authority, r.index, r.sub,
    r.kind, r.value, r.result⟩), exec_j2JournalRecord s, ?_⟩
  have htake : takeRecord s.sys = commitEnt ⟨0, r.time, snapBeat s.sys.mgmt, r.source, r.authority, r.index, r.sub, r.kind, r.value,
      r.result⟩ (onCtrl (fun c => { c with journal := rest }) s.sys) := by
    simp only [takeRecord, hj, hup, Bool.not_true, Bool.false_eq_true, if_false]
  rw [htake]
  exact ⟨rfl, find?_insertKey .., rfl, rfl, rfl, rfl, rfl, rfl⟩

theorem stopComplete_ends (hrc : s.sys.ctrl.rc = .stopping) (hrun : s.sys.data.beat.run = false)
    (hq : quiescent s.sys.data = true) (hover : stopResetsOver s.sys.data = true) :
    ∃ t, exec .stopComplete s = .next t ∧ t.sys.ctrl.rc = .noImage ∧ t.sys.ctrl.image = none ∧
      t.sys.mgmt.joints.hostHold = false ∧
      (s.sys.mgmt.module = .running ∨ s.sys.mgmt.module = .held → t.sys.mgmt.module = .ready) := by
  refine ⟨_, exec_stopComplete s, ?_⟩
  rw [stopComplete, if_pos ⟨hrc, by rw [hrun]; rfl, hq, hover⟩]
  have himage (cmd : W64) (c : Ctrl) : (setRc (cenvOf s.sys) .noImage cmd c).image = c.image := setRc_reads Ctrl.image ..
  dsimp only
  split
  case isTrue hm =>
    rw [toState_ctrl, toState_module, toState_joints, writeJ1_reads (fun m => m.joints.hostHold)]
    simp [raiseRun, himage]
  case isFalse hm =>
    rw [writeJ1_reads (fun m => m.joints.hostHold)]
    refine ⟨?_, ?_, by simp, fun h => absurd h hm⟩
    · simp [raiseRun]
    · simp [raiseRun, himage]

/-! ### What LOAD_BEGIN, RESTORE and SYS_DESC begin -/

/-- A command that run control carries out itself, once its checks pass. -/
theorem exec_hostCommand_accepted {ins : Instr} {cmd : RunCmd}
    (hex : exec ins s = .next { s with sys := hostCommand m cmd s.sys }) (h : FromControl s m) (hcode : codeOf s cmd = 0) :
    exec ins s = .next { s with sys := applyCarry (acceptCmd (cenvOf s.sys) (arriving s m cmd) (stamped s m)) s.sys } := by
  rw [hex, hostCommand_judges h, if_pos hcode]

theorem wordRuns_of_ready (h : s.sys.ctrl.word.module = .ready) : WordRuns s := .inl h

theorem loadBegin_begins (h : FromControl s m) (hready : s.sys.ctrl.word.module = .ready) (ho : s.sys.ctrl.word.order = 2)
    (len : Nat) (rep : List Byte) :
    ∃ t j, exec (.loadBegin m len rep) s = .next t ∧ Answered t m 0 ∧ t.sys.ctrl.rc = .loading ∧
      t.sys.ctrl.image = none ∧ t.sys.ctrl.load = some j ∧ j.len = len ∧ j.repair = rep ∧ j.bytes = [] ∧
      t.sys.data.place.image = none ∧ t.sys.data.place.loadCheck = 0xFFFF := by
  have hcode : codeOf s (.loadBegin len rep) = 0 := by
    rw [codeOf_of_ready h (wordRuns_of_ready hready) (.inr ho), ownChecks]
    exact if_pos (decide_eq_true hready)
  refine ⟨_, ⟨len, rep, [], [], s.sys.ts, false⟩, exec_hostCommand_accepted (exec_loadBegin s m len rep) h hcode,
    .of_reply (engine := m.engine) (bs := []) (resent := false) ?_, setRc_rc .., ?_, ?_, rfl, rfl, rfl, rfl, rfl⟩
  · exact (setRc_reads Ctrl.reply ..).trans (finishCmd_reply ..)
  · exact (setRc_reads Ctrl.image ..).trans (finishCmd_reads Ctrl.image ..)
  · exact (setRc_reads Ctrl.load ..).trans (finishCmd_reads Ctrl.load ..)

theorem hostRestore_restores (h : FromControl s m) (hready : s.sys.ctrl.word.module = .ready)
    (himage : s.sys.ctrl.image.isSome = true) (hno : s.sys.ctrl.rc ≠ .noImage) (hstop : s.sys.ctrl.rc ≠ .stopping)
    (hvoid : s.sys.ctrl.rc ≠ .void) (hfits : restoreFitsNow s.sys.data = true) :
    ∃ t, exec (.hostRestore m) s = .next t ∧ Answered t m 0 ∧ t.sys.ctrl.rc = .held ∧ t.sys.ctrl.restart = true ∧
      ∀ i, s.sys.data.place.image = some i → t.sys.data.beat.count = BitVec.ofNat 64 (restoreBeat i s.sys.data) := by
  have hcode : codeOf s .restore = 0 := by
    obtain ⟨i, hi⟩ := Option.isSome_iff_exists.1 himage
    rw [codeOf_of_ready h (wordRuns_of_ready hready) (.inl rfl)]
    simp [ownChecks, hready, hi, hno, hstop, voidRefusal_of_ne hvoid, hfits]
  refine ⟨_, exec_hostCommand_accepted (exec_hostRestore s m) h hcode, ?_⟩
  dsimp only
  refine ⟨.of_reply (engine := m.engine) (bs := []) (resent := false) ?_, ?_, ?_, fun i hi => ?_⟩
  · rw [applyCarry_ctrl_eq]
    exact (setRc_reads Ctrl.reply ..).trans (finishCmd_reply ..)
  · rw [applyCarry_ctrl_eq]
    exact setRc_rc ..
  · rw [applyCarry_ctrl_eq]
    exact (setRc_reads Ctrl.restart ..).trans (finishCmd_reads Ctrl.restart ..)
  · simp only [applyCarry, acceptCmd, arriving, cmdOp, hi]
    rfl

theorem repeatN_editEngine_keeps {α : Type} (rd : Data → α) (p : Data → Nat → Bool) (g : Engine → Engine)
    (hrd : ∀ x gs, rd { x with engines := gs } = rd x) (n : Nat) (d : Data) :
    rd (repeatN (fun i y => if p y i then editEngine i g y else y) n d) = rd d := by
  refine repeatN_keeps rd (fun i y => ?_) n d
  split
  · exact hrd y _
  · rfl

/-- The description and whether the system is assembled. -/
def Data.assembly (d : Data) : Option SysDesc × Bool := (d.desc, d.plumb.assembled)

theorem assembleOne_assembly (d : Data) : (assembleOne e d).assembly = d.assembly := by
  have hknow (y : Data) : (knowOwn y).assembly = y.assembly := by
    unfold knowOwn
    split <;> rfl
  unfold assembleOne
  split
  · rfl
  · exact (hknow _).trans rfl

/-- The data plane has a new description, and its assembly begins anew (R241). -/
theorem adoptDesc_assembly (s : SysDesc) (d : Data) : (adoptDesc e s d).assembly = (some s, false) := by
  have hoff : (repeatN (fun i y => if uncabled y (engineSide i) then editEngine i (fun _ => Engine.off) y else y) 48
      { d with desc := some s }).desc = some s :=
    repeatN_editEngine_keeps Data.desc (fun y i => uncabled y (engineSide i)) (fun _ => Engine.off) (by intros; rfl) 48 _
  rw [adoptDesc]
  generalize repeatN (fun i y => if uncabled y (engineSide i) then editEngine i (fun _ => Engine.off) y else y) 48
    { d with desc := some s } = d1 at hoff ⊢
  dsimp only
  split
  · rw [assembleOne_assembly]
    exact Prod.ext hoff rfl
  · exact Prod.ext hoff rfl

theorem codeOf_sysDesc (h : FromControl s m) (hmod : s.sys.ctrl.word.module = .ready ∨ s.sys.ctrl.word.module = .standby)
    (payload : List Byte) : codeOf s (.sysDesc payload) = if descValid payload then 0 else 0x0101 := by
  have hpower : ¬ ((!(s.sys.ctrl.word.module == .ready || s.sys.ctrl.word.module == .running || s.sys.ctrl.word.module == .held)) =
      true ∧ needsPower s.sys.ctrl.word (.sysDesc payload) = true) := by
    rcases hmod with hm | hm <;> rw [needsPower, hm] <;> decide
  have hrun : ¬ (s.sys.ctrl.word.module = .running ∨ s.sys.ctrl.word.module = .held) := by
    rcases hmod with hm | hm <;> rw [hm] <;> decide
  rw [codeOf, checkCmd_eq, journalFull_of_fromControl h, if_neg Bool.false_ne_true, if_neg hpower,
    if_neg fun hno => Bool.false_ne_true hno.1]
  exact if_neg hrun

theorem sysDesc_describes (h : FromControl s m)
    (hmod : s.sys.ctrl.word.module = .ready ∨ s.sys.ctrl.word.module = .standby) (payload : List Byte) :
    (descValid payload = true → ∃ t, exec (.sysDesc m payload) s = .next t ∧ Answered t m 0 ∧
      t.sys.ctrl.desc = some (descOf (payload.headD 0) (payload.drop 1)) ∧
      t.sys.data.desc = some (descOf (payload.headD 0) (payload.drop 1)) ∧ t.sys.data.plumb.assembled = false) ∧
    (descValid payload = false → RefusedWith (.sysDesc m payload) s m 0x13 0x0101) := by
  have hcode := codeOf_sysDesc h hmod payload
  refine ⟨fun hv => ?_, fun hv => ?_⟩
  · rw [hv, if_pos rfl] at hcode
    have hadopt := adoptDesc_assembly (e := envOf s.sys) (descOf (payload.headD 0) (payload.drop 1)) s.sys.data
    refine ⟨_, exec_hostCommand_accepted (exec_sysDesc s m payload) h hcode,
      .of_reply (engine := m.engine) (bs := []) (resent := false) (finishCmd_reply ..), finishCmd_reads Ctrl.desc ..,
      congrArg Prod.fst hadopt, congrArg Prod.snd hadopt⟩
  · rw [hv, if_neg Bool.false_ne_true] at hcode
    exact refusedWith_of_code (exec_sysDesc s m payload) h hcode (by decide) rfl

/-! ### The data of a load and its end (R308) -/

theorem takeBytes_read (ce : CEnv) (off : Nat) (bs : List Byte) (j : LoadJob) (a : Nat) :
    readByte (takeBytes ce off bs j).bytes (off + a) =
      if a < min bs.length (j.len - off) then bs.getD a 0 else readByte j.bytes (off + a) := by
  have hlen : (bs.take (j.len - off)).length = min bs.length (j.len - off) := by rw [List.length_take, Nat.min_comm]
  rw [takeBytes]
  split
  case isTrue ha =>
    have ha' : a < (bs.take (j.len - off)).length := hlen ▸ ha
    rw [readByte_writeBytes _ _ _ _ ha', List.getElem_take]
    exact (List.getD_eq_getElem ..).symm
  case isFalse ha => exact readByte_writeBytes_of_out _ _ _ _ (.inr (by rw [hlen]; omega))

theorem judgeIfFull_of_part {j : LoadJob} (hload : x.ctrl.load = some j)
    (hfull : loadFull (ownModule x.data).toNat j = false) : judgeIfFull x = x := by
  simp only [judgeIfFull, hload, hfull, Bool.not_false, or_true, if_true]

/-- Bytes that leave the load incomplete are stored, and nothing is judged yet. -/
theorem takeLoadBytes_of_part {j : LoadJob} {off : Nat} {bs : List Byte} (hload : x.ctrl.load = some j) (hj : j.judged = false)
    (hfull : loadFull (ownModule x.data).toNat (takeBytes (cenvOf x) off bs j) = false) :
    takeLoadBytes off bs x = onData (storeIncoming off (bs.take (j.len - off)))
      (onCtrl (fun c => { c with load := some (takeBytes (cenvOf x) off bs j) }) x) := by
  rw [takeLoadBytes, hload]
  dsimp only
  rw [hj, if_neg Bool.false_ne_true]
  exact judgeIfFull_of_part rfl hfull

/-- LOAD_DATA of the control session goes on to the load, if there is one. -/
theorem loadData_of_control (hnew : NewMessage s m) (hrole : s.sys.ctrl.control = some m.session) (off : Nat) (bs : List Byte) :
    loadData m off bs s.sys = match s.sys.ctrl.load with
      | none => onCtrl (respond m 0x0421 []) (onCtrl (fun _ => stamped s m) s.sys)
      | some _ => takeLoadBytes off bs (onCtrl (respond m 0 []) (onCtrl (fun _ => stamped s m) s.sys)) := by
  obtain ⟨hon, x, hx, hans⟩ := hnew
  simp only [loadData, hon, hx, hans, hrole, Bool.not_true, Bool.false_eq_true, if_false, ne_eq, not_true_eq_false]
  cases s.sys.ctrl.load <;> rfl

theorem loadData_unasked (hnew : NewMessage s m) (hrole : s.sys.ctrl.control = some m.session) (off : Nat) (bs : List Byte)
    (hload : s.sys.ctrl.load = none) :
    ∃ t, exec (.loadData m off bs) s = .next t ∧ Answered t m 0x0421 ∧ t.sys.data = s.sys.data := by
  refine ⟨_, exec_loadData s m off bs, ?_⟩
  dsimp only
  rw [loadData_of_control hnew hrole, hload]
  exact ⟨.of_reply rfl, rfl⟩

theorem loadData_takes (hnew : NewMessage s m) (hrole : s.sys.ctrl.control = some m.session) (off : Nat) (bs : List Byte)
    {j : LoadJob} (hload : s.sys.ctrl.load = some j) (hj : j.judged = false)
    (hfull : loadFull (ownModule s.sys.data).toNat (takeBytes (cenvOf s.sys) off bs j) = false) :
    ∃ t k, exec (.loadData m off bs) s = .next t ∧ Answered t m 0 ∧ t.sys.ctrl.load = some k ∧ k.last = s.sys.ts ∧
      (∀ a, readByte k.bytes (off + a) = if a < min bs.length (j.len - off) then bs.getD a 0
        else readByte j.bytes (off + a)) ∧ t.sys.ctrl.journal = s.sys.ctrl.journal := by
  have htake : loadData m off bs s.sys = onData (storeIncoming off (bs.take (j.len - off)))
      (onCtrl (fun c => { c with load := some (takeBytes (cenvOf s.sys) off bs j) })
        (onCtrl (respond m 0 []) (onCtrl (fun _ => stamped s m) s.sys))) := by
    rw [loadData_of_control hnew hrole, hload]
    exact takeLoadBytes_of_part hload hj hfull
  refine ⟨_, takeBytes (cenvOf s.sys) off bs j, exec_loadData s m off bs, ?_⟩
  dsimp only
  rw [htake]
  exact ⟨.of_reply rfl, rfl, rfl, fun a => takeBytes_read _ off bs j a, rfl⟩

/-- A load ends with rc_state as its result says, and without a load in progress. -/
theorem endLoad_ends (r : LoadReport) (c : Ctrl) : (endLoad ce r c).load = none ∧
    (r.result = 0 → (endLoad ce r c).rc = .loaded ∧ (endLoad ce r c).image = c.image) ∧
    (r.result ≠ 0 → (endLoad ce r c).rc = .noImage ∧ (endLoad ce r c).image = none) := by
  rw [endLoad]
  split
  case isTrue h =>
    exact ⟨setRc_reads Ctrl.load .., fun _ => ⟨setRc_rc .., setRc_reads Ctrl.image ..⟩, fun hn => absurd h hn⟩
  case isFalse h =>
    exact ⟨setRc_reads Ctrl.load .., fun hz => absurd hz h, fun _ => ⟨setRc_rc .., setRc_reads Ctrl.image ..⟩⟩

section
variable {j : LoadJob} (hload : s.sys.ctrl.load = some j)
include hload

theorem loadComplete_of_judged (ce : CEnv) (hj : j.judged = true) (hdue : s.sys.ctrl.profileDue = false)
    (hknown : pwLoadCheck s.sys.ctrl.placement ≠ 0xFFFF) : loadComplete ce s.sys.ctrl =
      if pwLoadCheck s.sys.ctrl.placement = 0 then
        (some .ok, endLoad ce .ok { s.sys.ctrl with image := some (readHeader j.bytes), repair := j.repair })
      else (some (.plain (pwLoadCheck s.sys.ctrl.placement)),
        endLoad ce (.plain (pwLoadCheck s.sys.ctrl.placement)) s.sys.ctrl) := by
  simp only [loadComplete, hload, hj, hdue, hknown, Bool.not_true, Bool.false_eq_true, or_self, if_false]

theorem loadComplete_loads (hj : j.judged = true) (hdue : s.sys.ctrl.profileDue = false)
    (hok : pwLoadCheck s.sys.ctrl.placement = 0) : ∃ t, exec .loadComplete s = .next t ∧ t.sys.ctrl.rc = .loaded ∧
      t.sys.ctrl.load = none ∧ t.sys.ctrl.image = some (readHeader j.bytes) ∧ t.sys.data = s.sys.data := by
  obtain ⟨hnone, hfine, -⟩ := endLoad_ends (ce := cenvOf s.sys) .ok
    { s.sys.ctrl with image := some (readHeader j.bytes), repair := j.repair }
  refine ⟨_, exec_loadComplete s, ?_⟩
  rw [loadDone, loadComplete_of_judged hload _ hj hdue (by rw [hok]; decide), if_pos hok]
  exact ⟨(hfine rfl).1, hnone, (hfine rfl).2, rfl⟩

theorem loadComplete_refuses (hj : j.judged = true) (hdue : s.sys.ctrl.profileDue = false)
    (hbad : pwLoadCheck s.sys.ctrl.placement = 0x0314) : ∃ t, exec .loadComplete s = .next t ∧ t.sys.ctrl.rc = .noImage ∧
      t.sys.ctrl.load = none ∧ t.sys.ctrl.image = none ∧ t.sys.data.place.image = none := by
  obtain ⟨hnone, -, hrefused⟩ := endLoad_ends (ce := cenvOf s.sys) (.plain 0x0314) s.sys.ctrl
  have hne : (LoadReport.plain 0x0314).result ≠ 0 := by decide
  refine ⟨_, exec_loadComplete s, ?_⟩
  rw [loadDone, loadComplete_of_judged hload _ hj hdue (by rw [hbad]; decide), hbad, if_neg (by decide)]
  dsimp only
  rw [if_neg hne]
  exact ⟨(hrefused hne).1, hnone, (hrefused hne).2, rfl⟩

theorem exec_loadComplete_of_due (hdue : s.sys.ctrl.profileDue = true) : exec .loadComplete s = .next s := by
  have hwait : loadComplete (cenvOf s.sys) s.sys.ctrl = (none, s.sys.ctrl) := by
    simp only [loadComplete, hload, hdue, true_or, or_true, if_true]
  rw [exec_loadComplete, loadDone, hwait]

theorem loadTimeout_ends (hj : j.judged = false) (hsilent : 10000000000 ≤ (s.sys.ts - j.last).toNat) :
    ∃ t, exec .loadTimeout s = .next t ∧ t.sys.ctrl.rc = .noImage ∧ t.sys.ctrl.load = none := by
  have hout : loadTimedOut (cenvOf s.sys) s.sys.ctrl = true := by
    simp only [loadTimedOut, hload, hj, Bool.not_false, Bool.true_and, decide_eq_true_eq]
    exact hsilent
  obtain ⟨hnone, -, hrefused⟩ := endLoad_ends (ce := cenvOf s.sys) (.plain 0x0111) s.sys.ctrl
  refine ⟨_, exec_loadTimeout s, ?_⟩
  rw [loadTimeout, if_pos hout]
  exact ⟨(hrefused (by decide)).1, hnone⟩

theorem exec_loadTimeout_of_heard (hheard : (s.sys.ts - j.last).toNat < 10000000000) : exec .loadTimeout s = .next s := by
  have hin : ¬ loadTimedOut (cenvOf s.sys) s.sys.ctrl = true := by
    simp only [loadTimedOut, hload, Bool.and_eq_true, decide_eq_true_eq, not_and]
    exact fun _ => hheard.not_ge
  rw [exec_loadTimeout, loadTimeout, if_neg hin]

end

/-! ### The placement check (R274) -/

theorem placementCheck_again {i : Image} (hi : s.sys.data.place.image = some i) :
    ∃ t, exec .placementCheck s = .next t ∧
      t.sys.data.place.turnOk = turnOkOf s.sys.data i.header s.sys.data.place.repair (logicalModule s.sys.data)
        (heldTables s.sys.data) ∧
      (scheduleOk s.sys.data i.header s.sys.data.place.repair 0 (logicalModule s.sys.data) (heldTables s.sys.data) = true →
        t.sys.data.place.loadCheck = 0) ∧
      (scheduleOk s.sys.data i.header s.sys.data.place.repair 0 (logicalModule s.sys.data) (heldTables s.sys.data) = false →
        t.sys.data.place.loadCheck = 0x0314) := by
  refine ⟨_, exec_placementCheck s, ?_⟩
  simp only [onData_data, placementCheck, hi, true_and]
  exact ⟨fun h => if_pos h, fun h => if_neg (by rw [h]; decide)⟩

theorem placementCheck_loads (hi : s.sys.data.place.image = none) (harr : s.sys.data.place.arrived = true)
    (hready : tilesReady s.sys.data = true) :
    ∃ t, exec .placementCheck s = .next t ∧
      (scheduleOk s.sys.data (readImage s.sys.data.place.incoming).header s.sys.data.place.repair 0 (logicalModule s.sys.data)
          (schedOf (readImage s.sys.data.place.incoming) (logicalModule s.sys.data)) = true →
        t.sys.data.place.image = some (readImage s.sys.data.place.incoming) ∧ t.sys.data.place.loadCheck = 0) ∧
      (scheduleOk s.sys.data (readImage s.sys.data.place.incoming).header s.sys.data.place.repair 0 (logicalModule s.sys.data)
          (schedOf (readImage s.sys.data.place.incoming) (logicalModule s.sys.data)) = false →
        t.sys.data.place.image = none ∧ t.sys.data.place.loadCheck = 0x0314) := by
  refine ⟨_, exec_placementCheck s, ?_⟩
  simp only [onData_data, placementCheck, hi, harr, hready, Bool.not_true, Bool.false_eq_true, or_self, if_false]
  refine ⟨fun h => ?_, fun h => ?_⟩
  · rw [if_pos h]
    exact ⟨rfl, rfl⟩
  · rw [if_neg (by rw [h]; decide)]
    exact ⟨rfl, rfl⟩

/-- Settles O41: what crosses J2 by each command's one effect; a load by the message that begins it, its data, its verdict and its
silence; the placement check by whether an image is loaded. -/
theorem jointTwoAndLoads : Obligations.JointTwoAndLoads := by
  unfold Obligations.JointTwoAndLoads
  refine ⟨fun s => ⟨j2StateWordUpdate_updates, j2Profile_takes, fun _ _ hj hup => j2JournalRecord_takes hj hup,
    stopComplete_ends⟩, fun s m => ⟨fun h hready ho len rep => loadBegin_begins h hready ho len rep, hostRestore_restores,
    fun h hmod payload => sysDesc_describes h hmod payload, ?data, ?complete, ?timeout, ?check⟩⟩
  case data =>
    exact fun hnew hrole off bs => ⟨loadData_unasked hnew hrole off bs,
      fun _ hload hj hfull => loadData_takes hnew hrole off bs hload hj hfull⟩
  case complete =>
    exact fun _ hload hj => ⟨loadComplete_loads hload hj, loadComplete_refuses hload hj, exec_loadComplete_of_due hload⟩
  case timeout => exact fun _ hload hj => ⟨loadTimeout_ends hload hj, exec_loadTimeout_of_heard hload⟩
  case check => exact ⟨fun _ => placementCheck_again, placementCheck_loads⟩

end Sys2Proof.Machine
end

section
/-!
SUPPORT. Turns and checkpoints: the one branch of each command that its phase and its conditions take (O42). Host ports: what a
write at a bulk place leaves of a store, and which queue pair numbers are free (O43).
-/

namespace Sys2Proof.Machine

-- As in the tests: one proof at a time, so that the whole text keeps within the threads that the memory holds.
set_option Elab.async false

variable {s : State} {d : Data} {e : Env} {j : TurnJob} {i : Image}

@[simp] theorem raiseData_place (e : Env) (code : Nat) (detail : List Byte) (d : Data) :
    (raiseData e code detail d).place = d.place := rfl

/-- A phase whose conditions hold is carried out, and the job stands at the next one (R279). -/
theorem turnPhaseDone_job (arrived : List Arrived) (hj : d.place.job = some j) (hi : d.place.image = some i)
    (hserved : copyServed d = true) (h0 : j.phase = 0 → quiescent d = true) (hturn : j.phase ≠ 0 → j.checkpoint = false)
    (h2 : j.phase = 2 → quiescent d = true)
    (h3 : j.phase = 3 → tilesReady d = true ∧ shadowsHold i j.target d = true) (hle : j.phase ≤ 3) :
    (turnPhaseDone e arrived d).place.job = some { j with phase := j.phase + 1 } := by
  simp only [turnPhaseDone, hj, hi, hserved, Bool.not_true, Bool.false_eq_true, if_false]
  by_cases hp0 : j.phase = 0
  · rw [if_pos hp0, if_pos (h0 hp0)]
  rw [if_neg hp0, hturn hp0, if_neg Bool.false_ne_true]
  by_cases hp1 : j.phase = 1
  · rw [if_pos hp1]
  rw [if_neg hp1]
  by_cases hp2 : j.phase = 2
  · rw [if_pos hp2, if_pos (h2 hp2)]
  have hp3 : j.phase = 3 := by omega
  obtain ⟨hready, hshadows⟩ := h3 hp3
  rw [if_neg hp2, if_pos hp3, hready, hshadows, if_pos (by rfl)]

theorem turnFailed_timesOut (hj : s.sys.data.place.job = some j) (hi : s.sys.data.place.image = some i)
    (hturn : j.checkpoint = false)
    (hlate : 1000000 * max 1000 (4 * i.header.turnMs.getD j.target 0) < (s.sys.ts - j.since).toNat) :
    ∃ t, exec (.turnFailed .timeout) s = .next t ∧ t.sys.data.place.turnState = 4 ∧ t.sys.data.place.job = none ∧
      t.sys.data.place.code = s.sys.data.place.code := by
  have hholds : (!j.checkpoint && turnFaultHolds (envOf s.sys) .timeout i j s.sys.data) = true := by
    rw [hturn, turnFaultHolds, Bool.not_false, Bool.true_and, decide_eq_true_eq]
    exact hlate
  refine ⟨_, exec_turnFailed s .timeout, ?_⟩
  simp only [onData_data, turnFailed, hj, hi, hholds, if_true]
  exact ⟨rfl, rfl, rfl⟩

theorem turnComplete_completes (hj : s.sys.data.place.job = some j) (hturn : j.checkpoint = false) (hp : j.phase = 4) :
    ∃ t, exec .turnComplete s = .next t ∧ t.sys.data.place.turnState = 3 ∧ t.sys.data.place.code = j.target ∧
      t.sys.data.place.job = none := by
  refine ⟨_, exec_turnComplete s, ?_⟩
  simp only [onData_data, turnComplete, hj, hturn, hp, Bool.false_eq_true, ne_eq, not_true_eq_false, or_self, if_false]
  exact ⟨rfl, rfl, rfl⟩

theorem checkpointCaptured_ends (hj : s.sys.data.place.job = some j) (hcp : j.checkpoint = true) (hp : j.phase = 1) :
    ∃ t, exec .checkpointCaptured s = .next t ∧ t.sys.data.place.job = none ∧
      t.sys.data.place.turnState = s.sys.data.place.turnState := by
  refine ⟨_, exec_checkpointCaptured s, ?_⟩
  simp only [onData_data, checkpointCaptured, hj, hcp, hp, and_self, if_true]
  exact ⟨rfl, rfl⟩

theorem turnDue_of_reported {x : Module} (h : getE x Ent.turnDue = 1) : turnDue x = x := by
  rw [turnDue]
  refine if_neg ?_
  rintro ⟨-, -, hz, -⟩
  exact Nat.one_ne_zero (h.symm.trans hz)

/-- A due turn is reported, and once it has been it is not reported again (R286). -/
theorem turnDue_reports (hup : skourUp s.sys = true) (hn : getE s.sys Ent.turnInterval ≠ 0) (hz : getE s.sys Ent.turnDue = 0)
    (hrun : getE s.sys Ent.turnInterval * 1000 ≤ s.sys.mgmt.joints.runFrames) :
    ∃ t, exec .turnDue s = .next t ∧ getE t.sys Ent.turnDue = 1 ∧ exec .turnDue t = .next t := by
  have hone : getE (turnDue s.sys) Ent.turnDue = 1 := by
    rw [turnDue, if_pos ⟨hup, hn, hz, hrun⟩, getE_raiseEvent _ _ (by decide), getE_setE_self]
  exact ⟨_, exec_turnDue s, hone, by rw [exec_turnDue, turnDue_of_reported hone]⟩

/-- Settles O42: a phase by its number and what it waits for; a turn's end and a checkpoint's by the job; a due turn by the entry
that says it was reported. -/
theorem turnsGoThroughTheirPhases : Obligations.TurnsGoThroughTheirPhases := by
  unfold Obligations.TurnsGoThroughTheirPhases
  refine fun s => ⟨fun j i hj hi => ⟨fun arrived hserved h0 hturn h2 h3 hle => ?_, turnFailed_timesOut hj hi⟩,
    fun j hj => ⟨turnComplete_completes hj, checkpointCaptured_ends hj⟩, turnDue_reports⟩
  exact ⟨_, exec_turnPhaseDone s arrived, turnPhaseDone_job arrived hj hi hserved h0 hturn h2 h3 hle⟩

/-! ### CSR access (R312) -/

theorem fieldOf_answer (m : Option Msg) (status : Nat) (bs : List Byte) (d : Data) (n : Nat) :
    fieldOf (answer m status bs d) n = fieldOf d n := rfl

theorem hostOf_answer (m : Option Msg) (status : Nat) (bs : List Byte) (d : Data) (n : Nat) :
    hostOf (answer m status bs d) n = hostOf d n := rfl

theorem hostOf_editHost_self (n : Nat) (f : HostEngine → HostEngine) (d : Data) :
    hostOf (editHost n f d) n = f (hostOf d n) := look_upd_self ..

section
variable {m : Msg} {a : W64} {phys : BitVec 16} (hon : s.sys.data.on = true)
include hon

theorem tcsrRead_reads :
    (∀ k, csrPlace s.sys.data a phys.toNat = .refused k → ∃ t, exec (.tcsrRead m a phys) s = .next t ∧
      t.sys.data.reply = some ⟨some m, BitVec.ofNat 16 k, List.replicate 8 (if k = 2 then 0xFF else 0)⟩) ∧
    (∀ ix off, csrPlace s.sys.data a phys.toNat = .tile ix off → ∃ t, exec (.tcsrRead m a phys) s = .next t ∧
      t.sys.data.reply =
        some ⟨some m, 0, natLe 8 (csrRead (ctxOf (envOf s.sys) s.sys.data ix) ix (tileIn s ix) off).toNat⟩ ∧
      tileIn t ix = tileIn s ix) ∧
    (∀ f off, csrPlace s.sys.data a phys.toNat = .field f off → ∃ t, exec (.tcsrRead m a phys) s = .next t ∧
      t.sys.data.reply =
        some ⟨some m, 0, natLe 8 (fieldCsrRead (quiescent s.sys.data) f (fieldIn s f) off).toNat⟩ ∧
      t.sys.data.fields = s.sys.data.fields) := by
  have hex := exec_tcsrRead s m a phys
  rw [whenData_of_on hon] at hex
  refine ⟨fun k hk => ⟨_, hex, ?_⟩, fun ix off hk => ⟨_, hex, ?_⟩, fun f off hk => ⟨_, hex, ?_⟩⟩
  · rw [onData_data, tcsrRead, hk]
    rfl
  · rw [tileIn, tileIn, onData_data, tcsrRead, hk]
    exact ⟨rfl, rfl⟩
  · rw [onData_data, tcsrRead, hk]
    exact ⟨rfl, rfl⟩

theorem tcsrWrite_writes :
    (∀ (v : W64) k, csrPlace s.sys.data a phys.toNat = .refused k → ∃ t, exec (.tcsrWrite m a phys v) s = .next t ∧
      t.sys.data.reply = some ⟨some m, BitVec.ofNat 16 k, []⟩ ∧ t.sys.data.tiles = s.sys.data.tiles) ∧
    (∀ (v : W64) ix off, csrPlace s.sys.data a phys.toNat = .tile ix off →
      ∃ t, exec (.tcsrWrite m a phys v) s = .next t ∧ t.sys.data.reply = some ⟨some m, 0, []⟩ ∧
        (tileIn t ix).csr = (csrWrite (ctxOf (envOf s.sys) s.sys.data ix) (tileIn s ix) off v).csr) ∧
    ∀ (v : W64) f off, csrPlace s.sys.data a phys.toNat = .field f off →
      ∃ t, exec (.tcsrWrite m a phys v) s = .next t ∧ t.sys.data.reply = some ⟨some m, 0, []⟩ ∧
        (fieldIn t f).routerCfg = (fieldCsrWrite (envOf s.sys).running (fieldIn s f) off v).routerCfg := by
  have hex (v : W64) := exec_tcsrWrite s m a phys v
  simp only [whenData_of_on hon] at hex
  refine ⟨fun v k hk => ⟨_, hex v, ?_⟩, fun v ix off hk => ⟨_, hex v, ?_⟩, fun v f off hk => ⟨_, hex v, ?_⟩⟩
  · rw [onData_data, tcsrWrite, hk]
    exact ⟨rfl, rfl⟩
  · rw [tileIn, onData_data, tcsrWrite, hk]
    dsimp only
    rw [tileOf_answer, tileOf_editTile, if_pos rfl]
    exact ⟨rfl, rfl⟩
  · rw [fieldIn, onData_data, tcsrWrite, hk]
    dsimp only
    rw [fieldOf_answer, fieldOf_editField, if_pos rfl]
    exact ⟨rfl, rfl⟩

end

/-! ### Bulk transfers (R309 to R311) -/

theorem readByte_writeStore_of_out (t : Tile) (a : Nat) (bs : List Byte) {k : Nat} (h : k < a ∨ a + bs.length ≤ k) :
    readByte (writeStore t a bs).store k = readByte t.store k := readByte_writeBytes_of_out bs t.store a k h

/-- A store after a write of bytes in it. -/
theorem readByte_writeStore_eq (t : Tile) (a : Nat) (bs : List Byte) (k : Nat) :
    readByte (writeStore t a bs).store k = if a ≤ k ∧ k < a + bs.length then bs.getD (k - a) 0 else readByte t.store k := by
  split
  case isTrue h =>
    obtain ⟨hlo, hhi⟩ := h
    have hk := readByte_writeStore t a bs (k := k - a) (by omega)
    rwa [Nat.add_sub_cancel' hlo] at hk
  case isFalse h => exact readByte_writeStore_of_out t a bs (by omega)

/-- Bytes written at a place of a tile's store (R311). -/
theorem bulkWrite_store (engine q ix off : Nat) (bs : List Byte) (d : Data) (k : Nat) :
    readByte (tileOf (bulkWrite e engine q (.store ix off) bs d) ix).store k =
      if off ≤ k ∧ k < off + bs.length then bs.getD (k - off) 0 else readByte (tileOf d ix).store k := by
  obtain ⟨ts, hd, hw⟩ := countPath_eq (units64 bs.length) false (hostTile engine) (dimPath (hostTile engine) ix) d
  rw [bulkWrite, tileOf_editTile, if_pos rfl, Tile.work_store (bump_work ..), readByte_writeStore_eq, hd]
  congr 2
  exact Tile.work_store (hw ix)

section
variable {m : Msg} {a : W64} (hon : s.sys.data.on = true)
include hon

theorem tstreamPut_refused {bs : List Byte}
    (h : isLoadAddr a = true ∨ 8152 < bs.length ∨ bulkPlace s.sys.data a bs.length = none) :
    ∃ t, exec (.tstreamPut m a bs) s = .next t ∧ t.sys.data.reply = some ⟨some m, 1, []⟩ ∧
      t.sys.data.tiles = s.sys.data.tiles ∧ t.sys.data.fields = s.sys.data.fields := by
  have hput : tstreamPut (envOf s.sys) m a bs s.sys.data = answer (some m) 1 [] s.sys.data := by
    rw [tstreamPut]
    split
    · rfl
    · rename_i hno
      rw [(or_assoc.2 h).resolve_left hno]
  refine ⟨_, exec_tstreamPut s m a bs, ?_⟩
  rw [whenData_of_on hon, onData_data, hput]
  exact ⟨rfl, rfl, rfl⟩

theorem tstreamPut_writes {bs : List Byte} {ix off : Nat} (ha : isLoadAddr a = false) (hl : bs.length ≤ 8152)
    (hp : bulkPlace s.sys.data a bs.length = some (.store ix off)) :
    ∃ t, exec (.tstreamPut m a bs) s = .next t ∧ t.sys.data.reply = some ⟨some m, 0, []⟩ ∧
      ∀ k, readByte (tileIn t ix).store k =
        if off ≤ k ∧ k < off + bs.length then bs.getD (k - off) 0 else readByte (tileIn s ix).store k := by
  have hgo : ¬ (isLoadAddr a = true ∨ 8152 < bs.length) := by
    rw [ha, not_or]
    exact ⟨Bool.false_ne_true, hl.not_gt⟩
  refine ⟨_, exec_tstreamPut s m a bs, ?_⟩
  rw [whenData_of_on hon, tileIn, onData_data, tstreamPut, if_neg hgo, hp]
  exact ⟨rfl, fun k => bulkWrite_store m.engine (dmaOf m.engine) ix off bs s.sys.data k⟩

theorem rdmaWrite_writes {bs : List Byte} {ix off : Nat} (en : Fin 4) (qpn key : W32) (ha : isLoadAddr a = false)
    (hp : bulkPlace s.sys.data a bs.length = some (.store ix off)) (hq : qpAdmits s.sys.data en qpn key = true) :
    ∃ t, exec (.rdmaWrite en qpn key a bs) s = .next t ∧ t.sys.data.reply = some ⟨none, 0, []⟩ ∧
      ∀ k, readByte (tileIn t ix).store k =
        if off ≤ k ∧ k < off + bs.length then bs.getD (k - off) 0 else readByte (tileIn s ix).store k := by
  have hwrite : rdmaWriteAll en qpn key a bs s.sys = onData (rdmaWrite (envOf s.sys) en qpn key a bs) s.sys :=
    if_neg fun h => Bool.false_ne_true (ha.symm.trans h.1)
  refine ⟨_, exec_rdmaWrite s en qpn key a bs, ?_⟩
  rw [if_pos hon, hwrite, tileIn, onData_data, rdmaWrite, hq, if_neg (by decide), hp]
  exact ⟨rfl, fun k => bulkWrite_store en (dmaOf qpn.toNat) ix off bs s.sys.data k⟩

theorem tstreamGet_reads {n : Nat} {found : StackFound} {p : BulkPlace} (ha : isLoadAddr a = false)
    (hp : bulkPlace s.sys.data a n = some p) (hn : n ≤ 8160) (hserved : bulkServed s.sys.data (dmaOf m.engine) p = true) :
    ∃ t, exec (.tstreamGet m a n found) s = .next t ∧
      t.sys.data.reply = some ⟨some m, 0, bulkRead s.sys.data p n⟩ := by
  have hgo : ¬ (isLoadAddr a = true ∨ 8160 < n) := by
    rw [ha, not_or]
    exact ⟨Bool.false_ne_true, hn.not_gt⟩
  refine ⟨_, exec_tstreamGet s m a n found, ?_⟩
  rw [whenData_of_on hon, onData_data, tstreamGet, if_neg hgo, hp]
  dsimp only
  rw [if_pos hserved]
  rfl

theorem rdmaRead_reads {n : Nat} {found : StackFound} {p : BulkPlace} (en : Fin 4) (qpn key : W32) (ha : isLoadAddr a = false)
    (hp : bulkPlace s.sys.data a n = some p) (hq : qpAdmits s.sys.data en qpn key = true)
    (hserved : bulkServed s.sys.data (dmaOf qpn.toNat) p = true) :
    ∃ t, exec (.rdmaRead en qpn key a n found) s = .next t ∧
      t.sys.data.reply = some ⟨none, 0, bulkRead s.sys.data p n⟩ := by
  refine ⟨_, exec_rdmaRead s en qpn key a n found, ?_⟩
  rw [whenData_of_on hon, onData_data, rdmaRead, hq, ha, if_neg (by decide), hp]
  dsimp only
  rw [if_pos hserved]
  rfl

theorem rdmaRead_refused {n : Nat} {found : StackFound} (en : Fin 4) (qpn key : W32)
    (hq : qpAdmits s.sys.data en qpn key = false) :
    ∃ t, exec (.rdmaRead en qpn key a n found) s = .next t ∧ t.sys.data.reply = some ⟨none, 1, []⟩ ∧
      ∀ q ∈ (hostOf t.sys.data en).qps, q.qpn = qpn → q.error = true := by
  refine ⟨_, exec_rdmaRead s en qpn key a n found, ?_⟩
  rw [whenData_of_on hon, onData_data, rdmaRead, hq, if_pos (.inl rfl)]
  refine ⟨rfl, fun q hqs hn => ?_⟩
  rw [qpError, hostOf_answer, hostOf_editHost_self, List.mem_map] at hqs
  obtain ⟨y, -, rfl⟩ := hqs
  by_cases hy : y.qpn = qpn
  · rw [if_pos hy]
  · rw [if_neg hy] at hn
    exact absurd hn hy

end

/-! ### Queue pairs (R309) -/

/-- Among fewer than 1,024 queue pairs a number is free, and the lowest free one is none of theirs. -/
theorem freeQpn_free {qs : List QueuePair} (hl : qs.length < 1024) {q : QueuePair} (hq : q ∈ qs) :
    q.qpn ≠ BitVec.ofNat 32 (freeQpn qs) := by
  have hfree : ∃ n ∈ List.range 1025, (qs.all fun q => q.qpn.toNat ≠ n) = true := by
    by_contra hno
    have hsub : List.range 1025 ⊆ qs.map fun q => q.qpn.toNat := by
      intro n hn
      by_contra hmem
      refine hno ⟨n, hn, ?_⟩
      simp only [List.all_eq_true, decide_eq_true_eq]
      rintro x hx rfl
      exact hmem (List.mem_map_of_mem hx)
    have hcard := (List.nodup_range.subperm hsub).length_le
    rw [List.length_range, List.length_map] at hcard
    omega
  obtain ⟨n, hn⟩ := Option.isSome_iff_exists.1 (List.find?_isSome.2 hfree)
  have hlt : n < 1025 := List.mem_range.1 (List.mem_of_find?_eq_some hn)
  have hall := List.find?_some hn
  simp only [List.all_eq_true, decide_eq_true_eq] at hall
  rw [freeQpn, hn, Option.getD_some]
  rintro h
  refine hall q hq ?_
  rw [h, BitVec.toNat_ofNat, Nat.mod_eq_of_lt (by omega)]

section
variable {m : Msg} {qpn psn : W32} (hon : s.sys.data.on = true)
include hon

theorem qpOpen_opens (cls : Nat) (hl : (hostOf s.sys.data m.engine).qps.length < 1024) :
    ∃ t q, exec (.qpOpen m qpn psn cls) s = .next t ∧
      (hostOf t.sys.data m.engine).qps = (hostOf s.sys.data m.engine).qps ++ [q] ∧ q.hostQpn = qpn ∧ q.hostPsn = psn ∧
      q.cls = cls ∧ q.error = false ∧ ∀ x ∈ (hostOf s.sys.data m.engine).qps, x.qpn ≠ q.qpn := by
  let q : QueuePair := ⟨BitVec.ofNat 32 (freeQpn (hostOf s.sys.data m.engine).qps),
    ((Config.freeValue s.sys.data.free).setWidth 24).setWidth 32, (Config.freeValue (s.sys.data.free + 1)).setWidth 32,
    qpn, psn, cls, false⟩
  refine ⟨_, q, exec_qpOpen s m qpn psn cls, ?_, rfl, rfl, rfl, rfl, fun x hx => freeQpn_free hl hx⟩
  rw [whenData_of_on hon, onData_data, qpOpen]
  dsimp only
  rw [if_neg hl.not_ge, hostOf_answer, hostOf_editHost_self]
  rfl

theorem qpOpen_refused (cls : Nat) (hl : 1024 ≤ (hostOf s.sys.data m.engine).qps.length) :
    ∃ t, exec (.qpOpen m qpn psn cls) s = .next t ∧ t.sys.data.reply = some ⟨some m, 1, []⟩ ∧
      t.sys.data.hosts = s.sys.data.hosts := by
  refine ⟨_, exec_qpOpen s m qpn psn cls, ?_⟩
  rw [whenData_of_on hon, onData_data, qpOpen]
  dsimp only
  rw [if_pos hl]
  exact ⟨rfl, rfl⟩

theorem qpClose_closes {x : QueuePair} (hx : x ∈ (hostOf s.sys.data m.engine).qps) (hn : x.qpn = qpn) :
    ∃ t, exec (.qpClose m qpn) s = .next t ∧ t.sys.data.reply = some ⟨some m, 0, []⟩ ∧
      ∀ y ∈ (hostOf t.sys.data m.engine).qps, y.qpn ≠ qpn := by
  have hany : ((hostOf s.sys.data m.engine).qps.any fun q => q.qpn == qpn) = true :=
    List.any_eq_true.2 ⟨x, hx, beq_iff_eq.2 hn⟩
  refine ⟨_, exec_qpClose s m qpn, ?_⟩
  rw [whenData_of_on hon, onData_data, qpClose, if_pos hany]
  refine ⟨rfl, fun y hy => ?_⟩
  rw [hostOf_answer, hostOf_editHost_self, List.mem_filter] at hy
  exact of_decide_eq_true hy.2

end

/-! ### Ports (R292, R293) -/

theorem hostPort_takes {en : Fin 4} (hon : (hostOf s.sys.data en).on = true) :
    (∃ t, exec (.hostPortOtherFrame en .ipv4) s = .next t ∧
      (hostOf t.sys.data en).discarded = (hostOf s.sys.data en).discarded + 1) ∧
    (∃ t, exec (.hostPortOtherFrame en .echo) s = .next t ∧ (hostOf t.sys.data en) = hostOf s.sys.data en) ∧
    ∀ lane : Fin 8, (hostOf s.sys.data en).sparedLane = none →
      ∃ t, exec (.hostPortRetrain en (some lane)) s = .next t ∧ (hostOf t.sys.data en).sparedLane = some lane.val ∧
        (hostOf t.sys.data en).pfc = getE s.sys Ent.hostPfcPriority := by
  refine ⟨⟨_, exec_hostPortOtherFrame s en .ipv4, ?_⟩, ⟨_, exec_hostPortOtherFrame s en .echo, ?_⟩,
    fun lane hl => ⟨_, exec_hostPortRetrain s en (some lane), ?_⟩⟩
  · rw [if_pos hon, onData_data, otherFrame, hostOf_editHost_self]
  · rw [if_pos hon]
    rfl
  · rw [if_pos hon, onData_data, portRetrain, hostOf_editHost_self]
    dsimp only
    rw [hl]
    exact ⟨rfl, rfl⟩

/-- Settles O43: a CSR access and a bulk transfer by the place the address names, a queue pair by its number, a port's frame by
its kind. The status of a refused queue pair is the model's choice, log 32. -/
theorem hostPortsReadAndWrite : Obligations.HostPortsReadAndWrite := by
  unfold Obligations.HostPortsReadAndWrite
  intro s hon
  refine ⟨fun m a phys => ?csr, fun m a bs => ?writes, fun m e a n found p ha hp => ?reads, fun m qpn psn cls => ?pairs,
    fun e => hostPort_takes⟩
  case csr =>
    obtain ⟨hr, ht, hf⟩ := tcsrRead_reads (m := m) (a := a) (phys := phys) hon
    exact ⟨hr, ht, hf, tcsrWrite_writes hon⟩
  case writes =>
    exact ⟨tstreamPut_refused hon, fun ix off ha hl hp => ⟨tstreamPut_writes hon ha hl hp,
      fun e qpn key => rdmaWrite_writes hon e qpn key ha hp⟩⟩
  case reads =>
    exact ⟨fun hn => tstreamGet_reads hon ha hp hn, fun qpn key => rdmaRead_reads hon e qpn key ha hp,
      fun qpn key => rdmaRead_refused hon e qpn key⟩
  case pairs =>
    exact ⟨qpOpen_opens hon cls, qpOpen_refused hon cls, fun x hx hn => qpClose_closes hon hx hn⟩

end Sys2Proof.Machine
end

section
/-!
SUPPORT. The inlet, the converter blocks and the bus: what no latch of Sill holds, what a move of the inlet leaves of the entries,
and the bytes of the working phases. Then the inlet, the blocks and the bus (O44).
-/

namespace Sys2Proof.Machine

-- As in the tests: one proof at a time, so that the whole text keeps within the threads that the memory holds.
set_option Elab.async false

variable {s t : State} {x : Module} {m : Mgmt} {k : Nat}

/-! ### What Sill forces -/

/-- No latch of Sill stands, and nothing interrupts it. -/
def Sill.unlatched (l : Sill) : Prop :=
  l.leakCut = false ∧ ¬ (l.inletLock = true ∨ (!l.interlock) = true ∨ (!l.present) = true ∨ l.stopped = true ∨ l.fault = true) ∧
    l.safeStop = false

theorem forcedState_eq_none : forcedState x = none ↔ x.sill.unlatched := by
  rw [Sill.unlatched, forcedState]
  split
  case isTrue h => exact ⟨nofun, fun h' => absurd (h'.1.symm.trans h) Bool.false_ne_true⟩
  case isFalse hl =>
    split
    case isTrue h => exact ⟨nofun, fun h' => absurd h h'.2.1⟩
    case isFalse hi =>
      split
      case isTrue h => exact ⟨nofun, fun h' => absurd (h'.2.2.symm.trans h) Bool.false_ne_true⟩
      case isFalse hs => exact ⟨fun _ => ⟨eq_false_of_ne_true hl, hi, eq_false_of_ne_true hs⟩, fun _ => rfl⟩

theorem openInlet_unlatched (h : x.sill.unlatched) : (openInlet x).sill.unlatched := by
  rw [openInlet_sill]
  exact h

/-! ### Flags and entries -/

theorem dbit_dsetBits {mask i : Nat} (h : mask.testBit i = true) : dbit (dsetBits k mask m) k i = true := by
  rw [dbit, dsetBits, dget_dset_self, Nat.testBit_or, h, Bool.or_true]

theorem dbit_eq (m n : Mgmt) (h : dget m k = dget n k) (i : Nat) : dbit m k i = dbit n k i := by
  rw [dbit, h, ← dbit]

theorem dbit_setE {j v i : Nat} (x : Module) (h : k ≠ j) : dbit (setE j v x).mgmt k i = dbit x.mgmt k i :=
  dbit_eq _ _ (getE_setE_of_ne v x h) i

theorem dbit_onMgmt_dsetBits {mask i : Nat} (x : Module) (h : mask.testBit i = true) :
    dbit (onMgmt (dsetBits k mask) x).mgmt k i = true := dbit_dsetBits h

@[simp] theorem getE_setThrottle (f : Throttles → Throttles) (x : Module) : getE (setThrottle f x) k = getE x k := by
  rw [setThrottle, getE_writeJ1]
  rfl

@[simp] theorem getE_blockThrottle (x : Module) : getE (blockThrottle x) k = getE x k := by
  unfold blockThrottle
  dsimp only
  split
  · split
    · exact getE_setThrottle ..
    · rfl
  · split
    · exact getE_setThrottle ..
    · rfl

/-- The blocks' change writes the bus voltage and the valves held alone. -/
theorem getE_blocksChanged (x : Module) (hb : k ≠ Ent.busVoltage) (hv : k ≠ Ent.valvesHeld) :
    getE (blocksChanged x) k = getE x k := by
  unfold blocksChanged
  dsimp only
  split
  · rw [getE_dataOff, getE_groupOneOff _ hv, getE_setE_of_ne _ _ hb]
    rfl
  · exact getE_blockThrottle _

theorem getE_toState (t : ModState) (x : Module) (h : k ≠ Ent.stateTime) : getE (toState t x) k = getE x k :=
  (toState_sameBut t x).entries k (by simpa using h)

theorem getE_beginAlarm (code cause : Nat) (x : Module) (h : k ≠ Ent.alarmSeq) :
    getE (beginAlarm code cause x) k = getE x k := (beginAlarm_sameBut code cause x).entries k (by simpa using h)

/-! ### Alarms -/

theorem alarmOn_beginAlarm (code cause : Nat) (x : Module) :
    ∃ a ∈ (beginAlarm code cause x).mgmt.bus.alarms, a.code = code := by
  rw [beginAlarm]
  exact ⟨_, List.mem_append_right _ (List.mem_singleton_self _), rfl⟩

theorem no_alarm_endAlarm (code : Nat) (x : Module) : ¬ ∃ a ∈ (endAlarm code x).mgmt.bus.alarms, a.code = code := by
  rintro ⟨a, ha, hc⟩
  exact of_decide_eq_true (List.mem_filter.1 ha).2 hc

/-! ### The inlet (R335 to R338) -/

theorem beginStep_begins (cold : Bool) (step : Nat) (began : W64) (x : Module) :
    ∃ j, (beginStep cold step began x).mgmt.start = some j ∧ j.step = step := ⟨_, note_reads Mgmt.start .., rfl⟩

section
variable {behind inlet reached : Nat} (hc : closing s.sys = true) (hon : s.sys.sill.on = true) (hf : forcedState s.sys = none)
  (ho : s.sys.sill.ssd = .opened) (hlo : 680 ≤ inlet) (hhi : inlet ≤ 880)
include hc hon hf ho hlo hhi

theorem inletClose_of_ready : inletClose behind inlet reached s.sys =
    if 50 ≤ behind then
      setE Ent.startFault (4 * 256 + 1) (onMgmt (fun m => dsetBits Ent.inletFlags 2 { m with start := none }) s.sys)
    else if inlet ≤ reached + 20 ∧ reached ≤ inlet + 20 then inletOn (onSill (fun l => { l with inletV := inlet }) s.sys)
    else setE Ent.inletState 1 (onSill (fun l => { l with contactor := true, ssd := .precharging })
      (onSill (fun l => { l with inletV := inlet }) s.sys)) := by
  rw [inletClose, if_neg]
  simp [hc, hon, hf, ho, hlo.not_gt, hhi.not_gt]

theorem inletClose_held (hb : 50 ≤ behind) : ∃ t, exec (.inletClose behind inlet reached) s = .next t ∧
    dbit t.sys.mgmt Ent.inletFlags 1 = true ∧ t.sys.sill = s.sys.sill ∧ getE t.sys Ent.startFault = 4 * 256 + 1 ∧
    t.sys.mgmt.start = none := by
  refine ⟨_, exec_inletClose s behind inlet reached, ?_⟩
  rw [inletClose_of_ready hc hon hf ho hlo hhi, if_pos hb]
  refine ⟨?_, rfl, getE_setE_self .., ?_⟩
  · refine (dbit_eq _ _ (getE_setE_of_ne _ _ (by decide)) 1).trans ?_
    exact dbit_dsetBits (by decide)
  · rw [setE_start, onMgmt_mgmt, dsetBits, dset_start]

theorem inletClose_closes (hb : behind < 50) (h1 : inlet ≤ reached + 20) (h2 : reached ≤ inlet + 20) :
    ∃ t j, exec (.inletClose behind inlet reached) s = .next t ∧ t.sys.sill.ssd = .closed ∧
      t.sys.sill.contactor = true ∧ t.sys.sill.halt = false ∧ t.sys.mgmt.module = .standby ∧
      getE t.sys Ent.inletState = 2 ∧ t.sys.mgmt.start = some j ∧ j.step = 5 := by
  have hclose : inletClose behind inlet reached s.sys = inletOn (onSill (fun l => { l with inletV := inlet }) s.sys) := by
    rw [inletClose_of_ready hc hon hf ho hlo hhi, if_neg hb.not_ge, if_pos ⟨h1, h2⟩]
  rw [exec_inletClose, hclose, inletOn]
  have hsill {α : Type} (rd : Sill → α) (h : CopyFree rd) (y : Module) :
      rd (beginStep true 5 s.sys.ts (toState .standby y)).sill = rd y.sill :=
    ((note_sameBut ..).reads rd h).trans ((toState_sameBut .standby y).reads rd h)
  obtain ⟨j, hj, hstep⟩ := beginStep_begins true 5 s.sys.ts (toState .standby (setE Ent.inletState 2
    (onSill (fun l => { l with ssd := .closed, contactor := true, halt := false, halted := false, tilePwrEn := true })
      (onSill (fun l => { l with inletV := inlet }) s.sys))))
  refine ⟨_, j, rfl, hsill Sill.ssd (by intro _ _; rfl) _, hsill Sill.contactor (by intro _ _; rfl) _,
    hsill Sill.halt (by intro _ _; rfl) _, ?_, ?_, hj, hstep⟩
  · exact (note_reads Mgmt.module ..).trans (toState_module ..)
  · rw [beginStep, getE_note]
    exact (getE_toState _ _ (by decide)).trans (getE_setE_self ..)

theorem inletClose_precharges (hb : behind < 50) (h : reached + 20 < inlet) :
    ∃ t, exec (.inletClose behind inlet reached) s = .next t ∧ t.sys.sill.ssd = .precharging ∧
      t.sys.sill.contactor = true ∧ getE t.sys Ent.inletState = 1 := by
  refine ⟨_, exec_inletClose s behind inlet reached, ?_⟩
  rw [inletClose_of_ready hc hon hf ho hlo hhi, if_neg hb.not_ge, if_neg fun h' => h'.1.not_gt h]
  exact ⟨rfl, rfl, getE_setE_self ..⟩

end

theorem prechargeTimeout_opens (h : s.sys.sill.ssd = .precharging) : ∃ t, exec .prechargeTimeout s = .next t ∧
    t.sys.sill.ssd = .opened ∧ t.sys.sill.contactor = false ∧ dbit t.sys.mgmt Ent.inletFlags 2 = true ∧
    getE t.sys Ent.startFault = 4 * 256 + 2 ∧ t.sys.mgmt.start = none := by
  have hsill := openInlet_sill s.sys
  rw [exec_prechargeTimeout, prechargeTimeout, if_neg (by rw [h]; decide)]
  generalize openInlet s.sys = y at hsill ⊢
  refine ⟨_, rfl, by rw [setE_sill]; simp [hsill], by rw [setE_sill]; simp [hsill], ?_, getE_setE_self .., by simp⟩
  rw [dbit_setE _ (by decide)]
  exact (dbit_eq _ _ rfl 2).trans (dbit_onMgmt_dsetBits y (by decide))

theorem inletOpen_opens (h : s.sys.sill.ssd ≠ .opened) (hf : forcedState s.sys = none) : ∃ t, exec .inletOpen s = .next t ∧
    t.sys.sill.ssd = .opened ∧ t.sys.sill.contactor = false ∧ t.sys.mgmt.module = .off ∧ t.sys.data.on = false := by
  have hnone : forcedState (openInlet s.sys) = none := forcedState_eq_none.2 (openInlet_unlatched (forcedState_eq_none.1 hf))
  refine ⟨_, exec_inletOpen s, ?_⟩
  simp only [inletOpen, h, if_false, hnone, Option.isSome_none, Bool.false_eq_true]
  have hrec := toState_sameBut .off (openInlet s.sys)
  refine ⟨(hrec.reads Sill.ssd).trans ?_, (hrec.reads Sill.contactor).trans ?_, toState_module .., ?_⟩
  · rw [openInlet_sill]
  · rw [openInlet_sill]
  · exact (congrArg Data.on (toState_data ..)).trans (openInlet_on ..)

theorem inputOutOfRange_tells (hw : 100 < s.sys.mgmt.power.warnFrames) (hz : dbit s.sys.mgmt Ent.inletFlags 0 = false) :
    ∃ t, exec .inputOutOfRange s = .next t ∧ dbit t.sys.mgmt Ent.inletFlags 0 = true := by
  refine ⟨_, exec_inputOutOfRange s, ?_⟩
  rw [inputOutOfRange, if_neg (by simp [hw, hz])]
  exact (dbit_eq _ _ (getE_raiseEvent _ _ (by decide)) 0).trans (dbit_dsetBits (m := s.sys.mgmt) (by decide))

theorem exec_inputOutOfRange_of_early (hw : s.sys.mgmt.power.warnFrames ≤ 100) : exec .inputOutOfRange s = .next s := by
  rw [exec_inputOutOfRange, inputOutOfRange, if_pos (.inl hw)]

/-- The inlet's loss: it is open, the module OFF, the alarm begun and the fault counted. -/
theorem inputLossPath_opens (cause : Nat) (hf : forcedState x = none) :
    (inputLossPath cause x).sill.ssd = .opened ∧ (inputLossPath cause x).mgmt.power.inletLost = true ∧
      (inputLossPath cause x).mgmt.module = .off ∧ (∃ a ∈ (inputLossPath cause x).mgmt.bus.alarms, a.code = 4) ∧
      getE (inputLossPath cause x) Ent.inputFaults = (getE x Ent.inputFaults + 1) % 2 ^ 32 := by
  have hunl : (note 0 9 Ent.inputFaults cause (incE Ent.inputFaults x)).sill.unlatched :=
    ((note_sameBut ..).reads Sill.unlatched).mpr (forcedState_eq_none.1 hf)
  have hopen := openInlet_unlatched hunl
  have hsill := openInlet_sill (note 0 9 Ent.inputFaults cause (incE Ent.inputFaults x))
  have hcount : getE (openInlet (note 0 9 Ent.inputFaults cause (incE Ent.inputFaults x))) Ent.inputFaults =
      (getE x Ent.inputFaults + 1) % 2 ^ 32 := by
    rw [getE_openInlet _ (by decide), getE_note, getE_incE_self]
  rw [inputLossPath]
  generalize openInlet (note 0 9 Ent.inputFaults cause (incE Ent.inputFaults x)) = y at hopen hsill hcount ⊢
  have hnone : forcedState (editPower (fun p => { p with inletLost := true }) y) = none := forcedState_eq_none.2 hopen
  simp only [hnone, Option.isSome_none, Bool.false_eq_true, if_false]
  refine ⟨?_, ?_, ?_, alarmOn_beginAlarm .., ?_⟩
  · rw [(beginAlarm_sameBut ..).reads Sill.ssd, (toState_sameBut ..).reads Sill.ssd, editPower_sill, hsill]
  · simp [beginAlarm, toState_reads (fun m => m.power.inletLost)]
  · simp [beginAlarm]
  · rw [getE_beginAlarm _ _ _ (by decide), getE_toState _ _ (by decide)]
    exact hcount

/-- What the inlet measures lies outside its range for as long as R337 allows (R337). -/
def InletMeas.lost : InletMeas → Prop
  | .volts v us => 920 < v ∧ 50 ≤ us ∨ v < 640 ∧ 2000 < us
  | .amps a us => 120 < a ∧ 2 ≤ us

theorem inputLoss_of_lost {q : InletMeas} (hc : inletClosed x = true) (h : q.lost) :
    ∃ cause, inputLoss q x = inputLossPath cause x := by
  unfold inputLoss
  rw [if_neg (by simp [hc])]
  cases q with
  | volts v us =>
    dsimp only
    by_cases hhi : 920 < v ∧ 50 ≤ us
    · exact ⟨1, if_pos hhi⟩
    · exact ⟨2, by rw [if_neg hhi, if_pos (h.resolve_left hhi)]⟩
  | amps a us => exact ⟨3, if_pos h⟩

theorem exec_inputLoss_of_range {q : InletMeas} (h : ¬ q.lost) : exec (.inputLoss q) s = .next s := by
  have hkeep : inputLoss q s.sys = s.sys := by
    unfold inputLoss
    split
    · rfl
    · cases q with
      | volts v us =>
        obtain ⟨hhi, hlo⟩ := not_or.1 h
        dsimp only
        rw [if_neg hhi, if_neg hlo]
      | amps a us => exact if_neg h
  rw [exec_inputLoss, hkeep]

theorem inputLoss_opens (hc : inletClosed s.sys = true) (hf : forcedState s.sys = none) (q : InletMeas) (h : q.lost) :
    ∃ t, exec (.inputLoss q) s = .next t ∧ t.sys.sill.ssd = .opened ∧ t.sys.mgmt.power.inletLost = true ∧
      t.sys.mgmt.module = .off ∧ AlarmOn t 4 ∧
      getE t.sys Ent.inputFaults = (getE s.sys Ent.inputFaults + 1) % 2 ^ 32 := by
  obtain ⟨cause, hx⟩ := inputLoss_of_lost hc h
  rw [exec_inputLoss, hx]
  exact ⟨_, rfl, inputLossPath_opens cause hf⟩

/-- The inlet in range again: its loss and its alarm are past, and step 4 of a start may begin (R338). -/
theorem inletRecovered_recovers (hl : s.sys.mgmt.power.inletLost = true) (hup : skourUp s.sys = true) :
    ∃ t, exec .inletRecovered s = .next t ∧ t.sys.mgmt.power.inletLost = false ∧ ¬ AlarmOn t 4 ∧
      (s.sys.mgmt.module = .off → 1 ≤ getE s.sys Ent.powerOrder → s.sys.mgmt.orderAt = none →
        forcedState s.sys = none → s.sys.mgmt.start = none → ∃ j, t.sys.mgmt.start = some j ∧ j.step = 4) := by
  rw [exec_inletRecovered, inletRecovered, if_pos ⟨hl, hup⟩]
  have hfields : ∀ y : Module, (beginInlet y).mgmt.power = y.mgmt.power ∧ (beginInlet y).mgmt.bus.alarms = y.mgmt.bus.alarms := by
    intro y
    unfold beginInlet
    split
    · exact ⟨note_reads Mgmt.power .., note_reads (fun m => m.bus.alarms) ..⟩
    · exact ⟨rfl, rfl⟩
  obtain ⟨hpower, halarms⟩ := hfields (endAlarm 4 (editPower (fun p => { p with inletLost := false }) s.sys))
  refine ⟨_, rfl, by rw [hpower]; rfl, ?_, fun hm ho hnone hf hstart => ?_⟩
  · rw [AlarmOn, halarms]
    exact no_alarm_endAlarm 4 _
  · dsimp only
    rw [beginInlet, if_pos]
    · exact beginStep_begins ..
    · have hfree : forcedState (endAlarm 4 (editPower (fun p => { p with inletLost := false }) s.sys)) = none := hf
      exact ⟨hm, ho, Option.isNone_iff_eq_none.2 hnone, Option.isNone_iff_eq_none.2 hfree, rfl,
        Option.isNone_iff_eq_none.2 hstart⟩

/-! ### Converter blocks and the bus (R341, R342) -/

theorem converterFault_isolates (n : Fin 4) (h : getE s.sys (Ent.convState + n) = 1) :
    ∃ t, exec (.converterFault n) s = .next t ∧ getE t.sys (Ent.convState + n) =
      if 2 ≤ ((look [] s.sys.mgmt.power.convFaults n).filter fun a => decide (sinceT s.sys a < 86400000000000)).length
      then 3 else 2 := by
  have hb : Ent.convState + n.val ≠ Ent.busVoltage := by unfold Ent.convState Ent.busVoltage; omega
  have hv : Ent.convState + n.val ≠ Ent.valvesHeld := by unfold Ent.convState Ent.valvesHeld; omega
  refine ⟨_, exec_converterFault s n, ?_⟩
  dsimp only
  rw [converterFault, if_neg (not_not.2 h)]
  dsimp only
  rw [getE_blocksChanged _ hb hv, List.length_cons]
  have hiff (c : Nat) : decide (3 ≤ c + 1) = decide (2 ≤ c) := by simp
  rw [hiff]
  by_cases hr : 2 ≤ ((look [] s.sys.mgmt.power.convFaults n).filter fun a => decide (sinceT s.sys a < 86400000000000)).length
  · rw [decide_eq_true hr, onlyIf, if_pos rfl, if_pos rfl, if_pos hr, getE_note, getE_setE_self]
  · rw [decide_eq_false hr, onlyIf, if_neg Bool.false_ne_true, if_neg Bool.false_ne_true, if_neg hr, getE_setE_self]

theorem converterRestart_restarts (n : Fin 4) (h : getE s.sys (Ent.convState + n) = 2) (hc : inletClosed s.sys = true)
    (hup : skourUp s.sys = true) :
    (10000000000 ≤ sinceT s.sys (look 0 s.sys.mgmt.power.convRestart n) →
      ∃ t, exec (.converterRestart n) s = .next t ∧ getE t.sys (Ent.convState + n) = 1) ∧
    (sinceT s.sys (look 0 s.sys.mgmt.power.convRestart n) < 10000000000 → exec (.converterRestart n) s = .next s) := by
  have hb : Ent.convState + n.val ≠ Ent.busVoltage := by unfold Ent.convState Ent.busVoltage; omega
  have hv : Ent.convState + n.val ≠ Ent.valvesHeld := by unfold Ent.convState Ent.valvesHeld; omega
  refine ⟨fun hlong => ⟨_, exec_converterRestart s n, ?_⟩, fun hshort => ?_⟩
  · dsimp only
    rw [converterRestart, if_pos ⟨h, hc, hup, hlong⟩, getE_blocksChanged _ hb hv, getE_setE_self]
  · rw [exec_converterRestart, converterRestart, if_neg fun h' => h'.2.2.2.not_gt hshort]

/-- Throttle on J1 while Skour runs and the data plane is powered. -/
theorem setThrottle_throttle (f : Throttles → Throttles) (hup : skourUp x = true) (hon : x.data.on = true) :
    (setThrottle f x).data.j1.throttle = throttleOn (f x.mgmt.power.throttles) := by
  have hup' : skourUp (editPower (fun p => { p with throttles := f p.throttles }) x) = true := hup
  rw [setThrottle, writeJ1, presentLevels, if_pos hup']
  exact (latchLevels_latches hon).2.2

theorem busUndervoltage_throttles (hc : inletClosed s.sys = true) (hup : skourUp s.sys = true) (mv us : Nat) :
    (mv < 48000 → 100 < us → ∃ t, exec (.busUndervoltage mv us) s = .next t ∧
      t.sys.mgmt.power.throttles.busUv = true ∧ (s.sys.data.on = true → t.sys.data.j1.throttle = true)) ∧
    (48000 ≤ mv ∨ us ≤ 100 → exec (.busUndervoltage mv us) s = .next s) := by
  refine ⟨fun hlow hlong => ⟨_, exec_busUndervoltage s mv us, ?_⟩, fun h => ?_⟩
  · rw [busUndervoltage, if_neg (by simp [hc, hup, hlow, hlong])]
    refine ⟨?_, fun hon => ?_⟩
    · exact (raiseEvent_reads (fun m => m.power.throttles.busUv) ..).trans
        (setThrottle_reads (fun m => m.power.throttles.busUv) ..)
    · rw [raiseEvent_data, setThrottle_throttle]
      · rfl
      · simpa [skourUp] using hup
      · simpa using hon
  · rw [exec_busUndervoltage, busUndervoltage, if_pos (.inr (.inr h))]

theorem busUndervoltageClear_clears (hb : s.sys.mgmt.power.throttles.busUv = true) (hup : skourUp s.sys = true) :
    (1000 ≤ s.sys.mgmt.power.busOkFrames → ∃ t, exec .busUndervoltageClear s = .next t ∧
      t.sys.mgmt.power.throttles.busUv = false) ∧
    (s.sys.mgmt.power.busOkFrames < 1000 → exec .busUndervoltageClear s = .next s) := by
  refine ⟨fun h => ⟨_, exec_busUndervoltageClear s, ?_⟩, fun h => ?_⟩
  · rw [busUndervoltageClear, if_pos ⟨hb, h, hup⟩]
    exact setThrottle_reads (fun m => m.power.throttles.busUv) ..
  · rw [exec_busUndervoltageClear, busUndervoltageClear, if_neg fun h' => h'.2.1.not_gt h]

/-! ### Phases (R344) -/

/-- A byte of a little-endian number. -/
theorem leNat_byte (bs : List Byte) (i : Nat) : leNat bs / 256 ^ i % 256 = (bs.getD i 0).toNat := by
  induction bs generalizing i with
  | nil => simp [leNat]
  | cons b bs ih =>
    have hb : b.toNat < 256 := b.isLt
    cases i with
    | zero =>
      rw [leNat, Nat.pow_zero, Nat.div_one, Nat.add_mul_mod_self_left, Nat.mod_eq_of_lt hb]
      rfl
    | succ i =>
      have hdiv : (b.toNat + 256 * leNat bs) / 256 = leNat bs := by omega
      rw [leNat, Nat.pow_succ', ← Nat.div_div_eq_div_mul, hdiv, ih i, List.getD_cons_succ]

theorem phasesOf_syncPhases (m : Mgmt) {f : Nat} (hf : f < 64) :
    phasesOf (syncPhases m) f = min 16 (18 - (look [] m.power.phasesOut f).length) := by
  have hpow : 2 ^ (8 * f) = 256 ^ f := by rw [Nat.pow_mul]
  have hlen : 8 * f + 7 + 1 - 8 * f = 8 := by omega
  rw [phasesOf, syncPhases]
  rw [dget_dset_of_ne _ _ (by decide), dget_dset_self, bits, hpow, hlen, show 2 ^ 8 = 256 from rfl, leNat_byte,
    List.getD_eq_getElem _ _ (by simpa using hf), List.getElem_map, List.getElem_range, BitVec.toNat_ofNat, Nat.mod_eq_of_lt]
  omega

/-- The disabled phases and the working ones, as the entries have them. -/
def phaseView (x : Module) : SMap (List Nat) × Nat := (x.mgmt.power.phasesOut, getE x Ent.phasesWorking)

theorem markTile_phaseView (ix : Nat) (bad : Bool) (x : Module) : phaseView (markTile ix bad x) = phaseView x := by
  unfold markTile
  dsimp only
  split
  · rfl
  · refine Prod.ext ?_ ?_
    · refine (note_reads (fun m => m.power.phasesOut) ..).trans ?_
      simp [syncCapacity, phaseView]
    · refine (getE_note ..).trans ?_
      simp only [getE, onMgmt_mgmt, syncCapacity]
      rw [dget_dset_of_ne _ _ (by decide), dget_dset_of_ne _ _ (by decide), dget_dset_of_ne _ _ (by decide)]
      exact getE_setE_of_ne _ _ (by decide)

theorem loseField_phaseView (f : Nat) (x : Module) : phaseView (loseField f x) = phaseView x :=
  List.foldlRecOn (motive := fun y => phaseView y = phaseView x) _ _ rfl
    fun y hy ix _ => (markTile_phaseView ix true y).trans hy

theorem phaseDisable_counts (f : FieldIx) (p : Fin 18) (h : (look [] s.sys.mgmt.power.phasesOut f).contains p.val = false) :
    ∃ t, exec (.phaseDisable f p) s = .next t ∧
      look [] t.sys.mgmt.power.phasesOut f = p.val :: look [] s.sys.mgmt.power.phasesOut f ∧
      phasesOf t.sys.mgmt f = min 16 (17 - (look [] s.sys.mgmt.power.phasesOut f).length) := by
  have hview : phaseView (phaseDisable f p s.sys) = phaseView (onMgmt syncPhases (editPower (fun w => { w with
      phasesOut := put [] w.phasesOut f (p.val :: look [] s.sys.mgmt.power.phasesOut f), forecastDue := true }) s.sys)) := by
    rw [phaseDisable, h, if_neg Bool.false_ne_true]
    dsimp only
    split
    · exact loseField_phaseView ..
    · rfl
  obtain ⟨hout, hwork⟩ := Prod.mk.injEq .. ▸ hview
  refine ⟨_, exec_phaseDisable s f p, ?_, ?_⟩
  · dsimp only
    rw [hout]
    simp [syncPhases]
  · calc phasesOf (phaseDisable f p s.sys).mgmt f
      _ = bits (8 * f + 7) (8 * f) (getE (phaseDisable f p s.sys) Ent.phasesWorking) := rfl
      _ = phasesOf (syncPhases (editPower (fun w => { w with
            phasesOut := put [] w.phasesOut f (p.val :: look [] s.sys.mgmt.power.phasesOut f), forecastDue := true })
            s.sys).mgmt) f := by rw [hwork]; rfl
      _ = min 16 (17 - (look [] s.sys.mgmt.power.phasesOut f).length) := by
        rw [phasesOf_syncPhases _ f.isLt]
        change min 16 (18 - (look [] (put [] _ f (p.val :: _)) f).length) = _
        rw [look_put_self, List.length_cons]
        omega

/-- Settles O44: the inlet, the converter blocks, the bus and the phases, one lemma a command. -/
theorem inletBlocksAndBus : Obligations.InletBlocksAndBus := by
  unfold Obligations.InletBlocksAndBus
  refine ⟨fun s => ⟨?close, ?precharge, ?open_, ?warn, ?calm, ?loss, ?recover⟩,
    fun s => ⟨?fault, ?restart, ?under, ?clear, ?phase⟩⟩
  case close =>
    intro behind inlet reached hc hon hf ho hlo hhi
    exact ⟨inletClose_held hc hon hf ho hlo hhi, inletClose_closes hc hon hf ho hlo hhi,
      inletClose_precharges hc hon hf ho hlo hhi⟩
  case precharge => exact prechargeTimeout_opens
  case open_ => exact inletOpen_opens
  case warn => exact inputOutOfRange_tells
  case calm => exact exec_inputOutOfRange_of_early
  case loss =>
    intro hc hf
    refine ⟨fun q hq => inputLoss_opens hc hf q ?_, fun v us hlo hhi => exec_inputLoss_of_range ?_,
      fun a us ha => exec_inputLoss_of_range fun h => ha.not_gt h.1⟩
    · rcases hq with ⟨v, us, rfl, h⟩ | ⟨a, us, rfl, h⟩
      · exact h
      · exact h
    · rintro (h | h)
      · exact hhi.not_gt h.1
      · exact hlo.not_gt h.1
  case recover => exact inletRecovered_recovers
  case fault => exact converterFault_isolates
  case restart => exact converterRestart_restarts
  case under => exact fun hc hup => busUndervoltage_throttles hc hup
  case clear => exact busUndervoltageClear_clears
  case phase => exact phaseDisable_counts

end Sys2Proof.Machine
end

section
/-!
SUPPORT. What a power path takes down of the management plane, and what stands apart from it. Then the domains and the power
orders (O45).
-/

namespace Sys2Proof.Machine

-- As in the tests: one proof at a time, so that the whole text keeps within the threads that the memory holds.
set_option Elab.async false

variable {s t : State} {x : Module} {m : Mgmt} {k : Nat}

/-! ### What a power path leaves of the management plane -/

/-- The management plane apart from its records and from what the loss of the bus takes down. -/
def Mgmt.apart (m : Mgmt) : Mgmt :=
  { m.kept with
    start := none, startDue := none, service := 0, joints := Joints.reset, power := Power.reset, cool := Cool.reset
    act := Act.reset }

/-- A reader of the management plane that looks at nothing a power path takes down. -/
def PathFree {α : Type} (rd : Mgmt → α) : Prop := ∀ m, rd m.apart = rd m

theorem PathFree.reads {α : Type} {rd : Mgmt → α} (h : PathFree rd) {m n : Mgmt} (hk : m.apart = n.apart) : rd m = rd n := by
  rw [← h m, hk, h n]

theorem apart_of_kept {m n : Mgmt} (h : m.kept = n.kept) : m.apart = n.apart :=
  congrArg (fun y : Mgmt => { y with
    start := none, startDue := none, service := 0, joints := Joints.reset, power := Power.reset, cool := Cool.reset
    act := Act.reset }) h

theorem dset_apart (k v : Nat) (m : Mgmt) : (dset k v m).apart = m.apart := apart_of_kept (dset_kept k v m)

theorem setE_apart (k v : Nat) (x : Module) : (setE k v x).mgmt.apart = x.mgmt.apart := dset_apart k v x.mgmt

theorem writeJ1_apart (x : Module) : (writeJ1 x).mgmt.apart = x.mgmt.apart := writeJ1_reads Mgmt.apart x

theorem dataOff_apart (x : Module) : (dataOff x).mgmt.apart = x.mgmt.apart := by
  rw [dataOff, writeJ1_apart, setThrottle, writeJ1_apart]
  rfl

theorem groupOneOff_apart (x : Module) : (groupOneOff x).mgmt.apart = x.mgmt.apart := by
  rw [groupOneOff, onCtrl, setE_apart]
  rfl

theorem busDown_apart (x : Module) : (busDown x).mgmt.apart = x.mgmt.apart := by
  have hblocks : (repeatN (fun i m => if dget m (Ent.convState + i) = 1 then dset (Ent.convState + i) 0 m else m) 4
      x.mgmt).apart = x.mgmt.apart := by
    refine repeatN_induct (P := fun m : Mgmt => m.apart = x.mgmt.apart) (fun i m hm => ?_) 4 rfl
    split
    · exact (dset_apart ..).trans hm
    · exact hm
  rw [busDown, dataOff_apart, groupOneOff_apart]
  dsimp only
  generalize repeatN _ 4 x.mgmt = m at hblocks ⊢
  rw [dset_apart]
  exact hblocks

theorem openInlet_reads {α : Type} (rd : Mgmt → α) (x : Module) (h : PathFree rd := by intro _; rfl) :
    rd (openInlet x).mgmt = rd x.mgmt := by
  refine h.reads ?_
  rw [openInlet, setE_apart, busDown_apart]
  rfl

theorem dataOff_reads {α : Type} (rd : Mgmt → α) (x : Module) (h : PathFree rd := by intro _; rfl) :
    rd (dataOff x).mgmt = rd x.mgmt := h.reads (dataOff_apart x)

theorem abandonStart_reads {α : Type} (rd : Mgmt → α) (x : Module) (h : PathFree rd := by intro _; rfl) :
    rd (abandonStart x).mgmt = rd x.mgmt := by
  refine h.reads ?_
  unfold abandonStart
  split
  · rw [setE_apart]
    rfl
  · rfl

/-! ### The data plane goes to STANDBY (R355) -/

@[simp] theorem goStandby_module (x : Module) : (goStandby x).mgmt.module = .standby := toState_module ..

@[simp] theorem goStandby_on (x : Module) : (goStandby x).data.on = false := by
  rw [goStandby, toState_data, editCool_data, dataOff_on]

theorem goStandby_orderAt (x : Module) : (goStandby x).mgmt.orderAt = x.mgmt.orderAt := by
  rw [goStandby, toState_reads Mgmt.orderAt, editCool_orderAt, dataOff_reads Mgmt.orderAt, onlyIf]
  split
  · exact abandonStart_reads Mgmt.orderAt x
  · exact abandonStart_reads Mgmt.orderAt x

/-! ### Power orders (R353 to R355) -/

theorem actOnOrder_zero (x : Module) : actOnOrder 0 x =
    if x.mgmt.module = .off ∧ x.mgmt.start.isNone then x
    else toState .off (openInlet
      (if x.mgmt.module = .off ∨ x.mgmt.module = .standby then abandonStart x else goStandby x)) := rfl

theorem actOnOrder_one (x : Module) : actOnOrder 1 x =
    if x.mgmt.module = .off then beginInlet x
    else if x.mgmt.module = .standby then onMgmt (fun y => { y with startDue := none }) x else goStandby x := rfl

theorem actOnOrder_two (x : Module) : actOnOrder 2 x =
    if x.mgmt.module = .off then beginInlet x
    else if x.mgmt.module = .standby ∧ x.mgmt.start.isNone then
      onMgmt (fun y => { y with startDue := some (nextIsCold x) }) x
    else x := rfl

theorem actOnOrder_other {o : Nat} (h1 : o ≠ 1) (h2 : o ≠ 2) (x : Module) : actOnOrder o x = actOnOrder 0 x := by
  unfold actOnOrder
  split <;> first | rfl | contradiction

/-- Power order off (R354): the inlet is open and the module OFF. -/
theorem actOnOrder_off (hm : x.mgmt.module ≠ .off) : (actOnOrder 0 x).mgmt.module = .off ∧
    (actOnOrder 0 x).sill.ssd = .opened ∧ (actOnOrder 0 x).data.on = false := by
  rw [actOnOrder_zero, if_neg fun h => hm h.1]
  refine ⟨toState_module .., ((toState_sameBut ..).reads Sill.ssd).trans ?_, ?_⟩
  · rw [openInlet_sill]
  · rw [toState_data, openInlet_on]

/-- Power order standby (R355): the module is in STANDBY, its data plane off unless it stood there. -/
theorem actOnOrder_standby (hm : x.mgmt.module ≠ .off) : (actOnOrder 1 x).mgmt.module = .standby ∧
    (x.mgmt.module ≠ .standby → (actOnOrder 1 x).data.on = false) := by
  rw [actOnOrder_one, if_neg hm]
  split
  case isTrue hs => exact ⟨hs, fun h => absurd hs h⟩
  case isFalse => exact ⟨goStandby_module x, fun _ => goStandby_on x⟩

/-- Power order ready (R355): a start is due in STANDBY. -/
theorem actOnOrder_ready (hm : x.mgmt.module = .standby) (hs : x.mgmt.start = none) :
    ∃ cold, (actOnOrder 2 x).mgmt.startDue = some cold := by
  refine ⟨nextIsCold x, ?_⟩
  rw [actOnOrder_two, if_neg (by rw [hm]; decide), if_pos ⟨hm, by rw [hs]; rfl⟩]
  rfl

theorem actOnOrder_orderAt (o : Nat) (hm : x.mgmt.module ≠ .off) : (actOnOrder o x).mgmt.orderAt = x.mgmt.orderAt := by
  by_cases h1 : o = 1
  · rw [h1, actOnOrder_one, if_neg hm]
    split
    · rfl
    · exact goStandby_orderAt x
  by_cases h2 : o = 2
  · rw [h2, actOnOrder_two, if_neg hm]
    split <;> rfl
  rw [actOnOrder_other h1 h2, actOnOrder_zero, if_neg fun h => hm h.1, toState_reads Mgmt.orderAt,
    openInlet_reads Mgmt.orderAt]
  split
  · exact abandonStart_reads Mgmt.orderAt x
  · exact goStandby_orderAt x

section
variable {at_ : W64} (ho : s.sys.mgmt.orderAt = some at_)
include ho

theorem exec_powerOrderAct_of_held (h : sinceT s.sys at_ < getE s.sys Ent.orderDelay * 1000000000 ∨
    s.sys.mgmt.module = .safeStop ∨ s.sys.mgmt.module = .leakCut) : exec .powerOrderAct s = .next s := by
  have hkeep : powerOrderAct s.sys = s.sys := by
    rw [powerOrderAct, ho]
    refine if_pos ?_
    rcases h with h | h | h
    · exact .inr (.inr (.inr h))
    · exact .inr (.inl h)
    · exact .inr (.inr (.inl h))
  rw [exec_powerOrderAct, hkeep]

variable (hup : skourUp s.sys = true) (hlong : getE s.sys Ent.orderDelay * 1000000000 ≤ sinceT s.sys at_)
  (hss : s.sys.mgmt.module ≠ .safeStop) (hlc : s.sys.mgmt.module ≠ .leakCut)
include hup hlong hss hlc

theorem powerOrderAct_of_due : powerOrderAct s.sys = editPower (fun p => { p with forecastDue := true })
    (actOnOrder (getE s.sys Ent.powerOrder) (note 0 0xB Ent.powerOrder (getE s.sys Ent.powerOrder)
      (onMgmt (fun m => { m with orderAt := none }) s.sys))) := by
  rw [powerOrderAct, ho]
  exact if_neg (by simp [hup, hss, hlc, hlong])

theorem powerOrderAct_acts (hoff : s.sys.mgmt.module ≠ .off) : ∃ t, exec .powerOrderAct s = .next t ∧
    t.sys.mgmt.orderAt = none ∧
    (getE s.sys Ent.powerOrder = 0 → t.sys.mgmt.module = .off ∧ t.sys.sill.ssd = .opened ∧ t.sys.data.on = false) ∧
    (getE s.sys Ent.powerOrder = 1 → t.sys.mgmt.module = .standby ∧
      (s.sys.mgmt.module ≠ .standby → t.sys.data.on = false)) ∧
    (getE s.sys Ent.powerOrder = 2 → s.sys.mgmt.module = .standby → s.sys.mgmt.start = none →
      ∃ cold, t.sys.mgmt.startDue = some cold) := by
  refine ⟨_, exec_powerOrderAct s, ?_⟩
  rw [powerOrderAct_of_due ho hup hlong hss hlc]
  generalize getE s.sys Ent.powerOrder = o
  have hmodule := note_reads Mgmt.module 0 0xB Ent.powerOrder o (onMgmt (fun m => { m with orderAt := none }) s.sys)
  have hstart := note_reads Mgmt.start 0 0xB Ent.powerOrder o (onMgmt (fun m => { m with orderAt := none }) s.sys)
  have hgone := note_reads Mgmt.orderAt 0 0xB Ent.powerOrder o (onMgmt (fun m => { m with orderAt := none }) s.sys)
  generalize note 0 0xB Ent.powerOrder o (onMgmt (fun m => { m with orderAt := none }) s.sys) = y at hmodule hstart hgone
  rw [onMgmt_mgmt] at hmodule hstart hgone
  have hy : y.mgmt.module ≠ .off := hmodule ▸ hoff
  refine ⟨(actOnOrder_orderAt o hy).trans hgone, ?_, ?_, ?_⟩
  · rintro rfl
    exact actOnOrder_off hy
  · rintro rfl
    exact hmodule ▸ actOnOrder_standby hy
  · rintro rfl hm hs
    exact actOnOrder_ready (hmodule.trans hm) (hstart.trans hs)

end

/-! ### Who is present follows the domains -/

theorem fieldInt_on (f : Field) (b : Nat) : (fieldInt f b).on = f.on := rfl

theorem arbMask_on (q : Nat) (f : Field) : (arbMask q f).on = f.on := by
  unfold arbMask
  split <;> rfl

theorem arbUnmask_on (n q : Nat) (f : Field) : (arbUnmask n q f).on = f.on := by
  unfold arbUnmask
  split <;> rfl

theorem followPresent_on (e : Env) (f n : Nat) (d : Data) :
    (fieldOf (followPresent e f d) n).on = (fieldOf d n).on := by
  unfold followPresent
  split
  · rfl
  · rw [fieldOf_editField]
    split
    case isTrue h =>
      rw [h]
      refine repeatN_keeps Field.on (fun q g => ?_) 24 _
      split
      · exact arbUnmask_on ..
      · exact arbMask_on ..
    case isFalse => rfl

@[simp] theorem setField_engines (e : Env) (n : Nat) (f : Field) (d : Data) : (setField e n f d).engines = d.engines := by
  simp only [setField]
  split <;> rfl

@[simp] theorem followPresent_engines (e : Env) (f : Nat) (d : Data) : (followPresent e f d).engines = d.engines := by
  unfold followPresent
  split
  · rfl
  · exact setField_engines ..

/-! ### A domain comes up (R347, R348, R445) -/

theorem exec_domainEnable_of_held {d : Fin 1404} (h : s.sys.mgmt.module = .service ∨ groupsOn s.sys < groupsBefore d) :
    exec (.domainEnable d) s = .next s := by
  rw [exec_domainEnable, domainEnable, if_pos h]

section
variable {d : Fin 1404} (hm : s.sys.mgmt.module ≠ .service) (hg : groupsBefore d ≤ groupsOn s.sys)
include hm hg

theorem exec_domainEnable_of_free : exec (.domainEnable d) s =
    .next { s with sys := domainOn (decide (s.sys.mgmt.module = .warmStart)) d s.sys } := by
  rw [exec_domainEnable, domainEnable, if_neg (not_or.2 ⟨hm, hg.not_gt⟩)]

theorem domainEnable_tile {ix : Nat} (hd : domainOf d = .tile ix) (hon : s.sys.data.on = true)
    (hp : s.sys.data.tilePwrEn = true) (ht : tileOn s.sys.data ix = false) :
    ((getE s.sys Ent.repairMap).testBit ix = false → tileInService s.sys ix = true →
      ∃ t, exec (.domainEnable d) s = .next t ∧ tileOn t.sys.data ix = true ∧ (tileIn t ix).tstate = .reset) ∧
    ((getE s.sys Ent.repairMap).testBit ix = true ∨ tileInService s.sys ix = false →
      exec (.domainEnable d) s = .next s) := by
  rw [exec_domainEnable_of_free hm hg, domainOn, hd]
  refine ⟨fun hmark hserv => ⟨_, rfl, ?_⟩, fun h => ?_⟩
  · dsimp only
    rw [if_neg (by simp [hon, hp, ht, hmark, hserv])]
    have htile : tileOf (setTile (envOf s.sys) ix powerUpReset s.sys.data) ix = powerUpReset := by
      rw [tileOf, setTile_tiles, look_put_self]
    constructor
    · rw [onData_data, tileOn, htile]
      rfl
    · rw [tileIn, onData_data, htile]
      rfl
  · dsimp only
    rw [if_pos (.inr (.inr (.inr (by simpa using h))))]

theorem domainEnable_stack {f : Nat} (hd : domainOf d = .stack f) (hon : s.sys.data.on = true)
    (hf : (fieldOf s.sys.data f).on = false) :
    ∃ t, exec (.domainEnable d) s = .next t ∧ (fieldOf t.sys.data f).on = true := by
  rw [exec_domainEnable_of_free hm hg, domainOn, hd]
  refine ⟨_, rfl, ?_⟩
  dsimp only
  rw [if_neg (by simp [hon, hf]), onData_data, followPresent_on, fieldOf_editField, if_pos rfl]
  rfl

theorem domainEnable_scarf {i : Nat} (hd : domainOf d = .scarf i) (hon : s.sys.data.on = true)
    (hi : (engineOf s.sys.data i).on = false) (hk : keptOff s.sys.data i = false) (hw : s.sys.mgmt.module ≠ .warmStart) :
    ∃ t, exec (.domainEnable d) s = .next t ∧ (engineOf t.sys.data i).state = .bias := by
  rw [exec_domainEnable_of_free hm hg, domainOn, hd, decide_eq_false hw]
  refine ⟨_, rfl, ?_⟩
  dsimp only
  rw [if_neg (by simp [hon, hi]), onData_data, engineOf, followPresent_engines, engineOn, hk, if_neg Bool.false_ne_true,
    ← engineOf, engineOf_editEngine_self]
  rfl

theorem domainEnable_host {i : Nat} (hd : domainOf d = .host i) (hon : s.sys.data.on = true)
    (hi : (hostOf s.sys.data i).on = false) :
    ∃ t, exec (.domainEnable d) s = .next t ∧ (hostOf t.sys.data i).on = true := by
  rw [exec_domainEnable_of_free hm hg, domainOn, hd]
  refine ⟨_, rfl, ?_⟩
  dsimp only
  rw [if_neg (by simp [hon, hi]), onData_data, hostOf_editHost_self]

theorem domainEnable_service {n : Nat} (hd : domainOf d = .service n) :
    (serviceFed n s.sys = true → ∃ t, exec (.domainEnable d) s = .next t ∧
      t.sys.mgmt.service = s.sys.mgmt.service ||| 2 ^ n ∧ (n = 7 → t.sys.ctrl.on = true)) ∧
    (serviceFed n s.sys = false → exec (.domainEnable d) s = .next s) := by
  rw [exec_domainEnable_of_free hm hg, domainOn, hd]
  refine ⟨fun hs => ⟨_, rfl, ?_⟩, fun hs => ?_⟩
  · dsimp only
    rw [hs, if_neg (by decide)]
    constructor
    · split <;> rfl
    · rintro rfl
      rw [if_pos rfl, onCtrl_ctrl]
      split
      · assumption
      · rfl
  · dsimp only
    rw [hs]
    rfl

end

/-! ### A domain that misses its rail (R349) -/

theorem markTile_data (ix : Nat) (bad : Bool) (x : Module) : (markTile ix bad x).data = x.data := by
  unfold markTile
  dsimp only
  split
  · rfl
  · exact note_data ..

theorem getE_syncCapacity (x : Module) (h : k ≠ Ent.capColumns ∧ k ≠ Ent.capWidths ∧ k ≠ Ent.failedTiles) :
    getE (onMgmt syncCapacity x) k = getE x k := by
  obtain ⟨hc, hw, hf⟩ := h
  simp only [getE, onMgmt_mgmt, syncCapacity]
  rw [dget_dset_of_ne _ _ hc, dget_dset_of_ne _ _ hw, dget_dset_of_ne _ _ hf]

theorem getE_markTile (ix : Nat) (bad : Bool) (x : Module)
    (h : k ≠ Ent.repairMap ∧ k ≠ Ent.capColumns ∧ k ≠ Ent.capWidths ∧ k ≠ Ent.failedTiles) :
    getE (markTile ix bad x) k = getE x k := by
  unfold markTile
  dsimp only
  split
  · rfl
  · rw [getE_note, getE_syncCapacity _ h.2, getE_setE_of_ne _ _ h.1]

/-- The tile's mark in repair_map is what was asked. -/
theorem testBit_repairMap_markTile (ix : Nat) (bad : Bool) (x : Module) :
    (getE (markTile ix bad x) Ent.repairMap).testBit ix = bad := by
  unfold markTile
  dsimp only
  split
  case isTrue h => exact h
  case isFalse h =>
    rw [getE_note, getE_syncCapacity _ (by decide), getE_setE_self]
    cases bad with
    | true =>
      have hclear : (getE x Ent.repairMap).testBit ix = false := eq_false_of_ne_true h
      rw [if_pos rfl, Nat.add_comm, Nat.testBit_two_pow_add_eq, hclear]
      rfl
    | false =>
      have hset : (getE x Ent.repairMap).testBit ix = true := eq_true_of_ne_false h
      have hsum := Nat.testBit_two_pow_add_eq (getE x Ent.repairMap - 2 ^ ix) ix
      rw [Nat.add_sub_cancel' (Nat.ge_two_pow_of_testBit hset), hset] at hsum
      rw [if_neg Bool.false_ne_true]
      simpa using hsum.symm

theorem tileOff_off (ix : Nat) (x : Module) : tileOn (tileOff ix x).data ix = false := by
  rw [tileOff, onData_data, tileOn, tileOf, followPresent_tiles, setTile_tiles, look_put_self]
  rfl

theorem domainFault_marks (d : Fin 1404) : ∃ t, exec (.domainFault d) s = .next t ∧
    getE t.sys Ent.lastDomainFault = d.val ∧
    (∀ ix, domainOf d = .tile ix → tileOn t.sys.data ix = false ∧ (getE t.sys Ent.repairMap).testBit ix = true) ∧
    (∀ f, domainOf d = .stack f → (fieldOf t.sys.data f).mode = .failed) ∧
    ∀ i, domainOf d = .scarf i → (engineOf t.sys.data i).state = .fail := by
  refine ⟨_, exec_domainFault s d, ?_⟩
  dsimp only
  rw [domainFault]
  cases hd : domainOf d with
  | tile ix =>
    refine ⟨?_, ?_, nofun, nofun⟩
    · rw [getE_markTile _ _ _ (by decide), getE_setE_self]
    · rintro _ ⟨⟩
      refine ⟨?_, testBit_repairMap_markTile ..⟩
      rw [markTile_data, domainOff, hd]
      exact tileOff_off ix s.sys
  | stack f =>
    refine ⟨getE_setE_self .., nofun, ?_, nofun⟩
    rintro _ ⟨⟩
    rw [onData_data, fieldOf_editField, if_pos rfl]
  | scarf i =>
    refine ⟨getE_setE_self .., nofun, nofun, ?_⟩
    rintro _ ⟨⟩
    rw [onData_data, engineOf_editEngine_self]
    rfl
  | host i => exact ⟨getE_setE_self .., nofun, nofun, nofun⟩
  | service n => exact ⟨getE_setE_self .., nofun, nofun, nofun⟩

/-- Settles O45: a domain by its kind, a power order by its delay and what it asks. -/
theorem domainsAndPowerOrders : Obligations.DomainsAndPowerOrders := by
  unfold Obligations.DomainsAndPowerOrders
  refine ⟨fun s d => ⟨fun hm hg => ⟨?tile, ?stack, ?scarf, ?host, ?service⟩, exec_domainEnable_of_held, domainFault_marks d⟩,
    fun s at_ ho hup => ⟨exec_powerOrderAct_of_held ho, powerOrderAct_acts ho hup⟩⟩
  case tile => exact fun ix hd hon hp ht => domainEnable_tile hm hg hd hon hp ht
  case stack => exact fun f hd hon hf => domainEnable_stack hm hg hd hon hf
  case scarf => exact fun i hd hon hi hk hw => domainEnable_scarf hm hg hd hon hi hk hw
  case host => exact fun i hd hon hi => domainEnable_host hm hg hd hon hi
  case service => exact fun n hd => domainEnable_service hm hg hd

end Sys2Proof.Machine
end

section
/-!
SUPPORT. What a frame measures: the clocks, the frames' count and powers, the energy and power_1s. No work of Skour's and no window
of the rack bus changes it, so that a frame leaves what it metered. Then the frames, the forecast and the retained store (O46).
-/

namespace Sys2Proof.Machine

-- As in the tests: one proof at a time, so that the whole text keeps within the threads that the memory holds.
set_option Elab.async false

variable {s t : State} {x : Module} {m : Mgmt} {k : Nat}

/-! ### What a frame measures -/

/-- What a frame measures in the management plane: its count, its powers, the energy's part and power_1s. -/
def Mgmt.measured (m : Mgmt) : Nat × List Nat × Nat × Nat :=
  (m.frame, m.power.frames, m.power.energyPart, dget m Ent.power1s)

/-- What a frame measures: TSCLK, Sill's time and what the management plane meters. -/
def Module.metered (x : Module) : W64 × W64 × Nat × List Nat × Nat × Nat := (x.ts, x.sf, x.mgmt.measured)

theorem Mgmt.measured_ext {m n : Mgmt} (hf : m.frame = n.frame) (hp : m.power = n.power)
    (hd : dget m Ent.power1s = dget n Ent.power1s) : m.measured = n.measured := by
  rw [Mgmt.measured, hf, hp, hd, ← Mgmt.measured]

theorem Module.metered_ext {x y : Module} (ht : x.ts = y.ts) (hs : x.sf = y.sf) (hm : x.mgmt.measured = y.mgmt.measured) :
    x.metered = y.metered := by
  rw [Module.metered, ht, hs, hm, ← Module.metered]

/-- An edit of the management plane that leaves what a frame measures. -/
theorem onMgmt_metered {f : Mgmt → Mgmt} (x : Module) (h : ∀ m, (f m).measured = m.measured) :
    (onMgmt f x).metered = x.metered := Module.metered_ext rfl rfl (h x.mgmt)

theorem dset_measured (v : Nat) (m : Mgmt) (h : k ≠ Ent.power1s) : (dset k v m).measured = m.measured :=
  Mgmt.measured_ext (dset_frame ..) (dset_power ..) (dget_dset_of_ne v m h.symm)

theorem setE_metered (v : Nat) (x : Module) (h : k ≠ Ent.power1s) : (setE k v x).metered = x.metered :=
  onMgmt_metered x fun m => dset_measured v m h

theorem incE_metered (x : Module) (h : k ≠ Ent.power1s) : (incE k x).metered = x.metered :=
  onMgmt_metered x fun m => dset_measured _ m h

theorem editPower_metered {f : Power → Power} (x : Module) (hf : ∀ p, (f p).frames = p.frames)
    (he : ∀ p, (f p).energyPart = p.energyPart) : (editPower f x).metered = x.metered := by
  refine onMgmt_metered x fun m => ?_
  rw [Mgmt.measured, hf, he]
  rfl

@[simp] theorem editJoints_metered (f : Joints → Joints) (x : Module) : (editJoints f x).metered = x.metered := rfl
@[simp] theorem editCool_metered (f : Cool → Cool) (x : Module) : (editCool f x).metered = x.metered := rfl
@[simp] theorem editAct_metered (f : Act → Act) (x : Module) : (editAct f x).metered = x.metered := rfl
@[simp] theorem editBus_metered (f : Bus → Bus) (x : Module) : (editBus f x).metered = x.metered := rfl
@[simp] theorem onData_metered (f : Data → Data) (x : Module) : (onData f x).metered = x.metered := rfl
@[simp] theorem onSill_metered (f : Sill → Sill) (x : Module) : (onSill f x).metered = x.metered := rfl

theorem onlyIf_metered (c : Bool) {f : Module → Module} (x : Module) (h : (f x).metered = x.metered) :
    (onlyIf c f x).metered = x.metered := by
  unfold onlyIf
  split
  · exact h
  · rfl

theorem ite_metered (c : Prop) [Decidable c] {y z : Module} (hy : y.metered = x.metered) (hz : z.metered = x.metered) :
    (if c then y else z).metered = x.metered := by
  split
  · exact hy
  · exact hz

theorem foldl_metered {α : Type} {f : Module → α → Module} (h : ∀ y a, (f y a).metered = y.metered) (l : List α) (x : Module) :
    (l.foldl f x).metered = x.metered :=
  List.foldlRecOn (motive := fun y => y.metered = x.metered) l f rfl fun y hy a _ => (h y a).trans hy

theorem repeatN_metered {f : Nat → Module → Module} (n : Nat) (h : ∀ i < n, ∀ y, (f i y).metered = y.metered) (x : Module) :
    (repeatN f n x).metered = x.metered := by
  induction n with
  | zero => rfl
  | succ n ih => exact (h n n.lt_succ_self _).trans (ih fun i hi => h i (hi.trans n.lt_succ_self))

/-! ### Records -/

/-- What changes nothing but entries and records keeps what a frame measures. -/
theorem Module.SameBut.metered {ks : List Nat} {y : Module} (h : x.SameBut ks y) (hf : y.mgmt.frame = x.mgmt.frame)
    (hp : y.mgmt.power = x.mgmt.power) (hk : Ent.power1s ∉ ks) : y.metered = x.metered :=
  Module.metered_ext h.ts h.sf (Mgmt.measured_ext hf hp (h.entries _ hk))

@[simp] theorem note_metered (source kind key value : Nat) (x : Module) :
    (note source kind key value x).metered = x.metered :=
  (note_sameBut ..).metered (note_reads Mgmt.frame ..) (note_reads Mgmt.power ..) List.not_mem_nil

theorem raiseEvent_metered {obj : Nat} (detail : List Byte) (x : Module) (h : Ent.power1s ≠ obj) :
    (raiseEvent obj detail x).metered = x.metered :=
  (raiseEvent_sameBut ..).metered (raiseEvent_reads Mgmt.frame ..) (raiseEvent_reads Mgmt.power ..)
    (fun hm => h (List.mem_singleton.1 hm))

@[simp] theorem beginAlarm_metered (code cause : Nat) (x : Module) : (beginAlarm code cause x).metered = x.metered := by
  rw [beginAlarm, editBus_metered, setE_metered _ _ (by decide)]

/-! ### J1 and the state register -/

@[simp] theorem presentLevels_metered (v : J1Levels) (x : Module) : (presentLevels v x).metered = x.metered := by
  unfold presentLevels
  split
  · rw [onData_metered, editJoints_metered]
  · rfl

@[simp] theorem setThrottle_metered (f : Throttles → Throttles) (x : Module) : (setThrottle f x).metered = x.metered := by
  rw [setThrottle, writeJ1, presentLevels_metered]
  exact editPower_metered x (fun _ => rfl) fun _ => rfl

@[simp] theorem toState_metered (t : ModState) (x : Module) : (toState t x).metered = x.metered := by
  unfold toState
  dsimp only
  split
  · rfl
  · rw [note_metered, editPower_metered, onMgmt_metered, setE_metered _ _ (by decide)]
    · exact fun _ => rfl
    · exact fun _ => rfl
    · exact fun _ => rfl

/-! ### The rack bus -/

theorem sendQueued_metered (c : Nat) (go stay : List QMsg) (x : Module) : (sendQueued c go stay x).metered = x.metered := by
  rw [sendQueued, foldl_metered, editChannel, editBus_metered]
  exact fun _ _ => editBus_metered ..

theorem sendUrgent_metered (c : Nat) (x : Module) : (sendUrgent c x).metered = x.metered := sendQueued_metered ..

theorem drainWindow_metered (c win : Nat) (x : Module) : (drainWindow c win x).metered = x.metered := by
  unfold drainWindow
  dsimp only
  split
  · exact sendUrgent_metered c x
  · rw [sendQueued_metered, sendUrgent_metered]

theorem frameWindows_metered (t : W64) (x : Module) : (frameWindows t x).metered = x.metered := by
  refine foldl_metered (fun y n => ?_) _ x
  split
  · exact repeatN_metered 2 (fun _ _ _ => drainWindow_metered ..) y
  · rfl

theorem takeAddress_metered (x : Module) : (takeAddress x).metered = x.metered := by
  unfold takeAddress
  dsimp only
  split
  · rw [raiseEvent_metered _ _ (by decide), repeatN_metered, setE_metered _ _ (by decide)]
    intro n _ y
    split <;> rfl
  · rw [repeatN_metered, setE_metered _ _ (by decide)]
    intro n _ y
    split <;> rfl

theorem cycleStart_metered (x : Module) : (cycleStart x).metered = x.metered := by
  have haddress : (if x.mgmt.bus.addressDue then takeAddress (editBus (fun b => { b with addressDue := false }) x)
      else x).metered = x.metered := by
    split
    · exact takeAddress_metered _
    · rfl
  unfold cycleStart
  dsimp only
  split
  · generalize (if x.mgmt.bus.addressDue then takeAddress (editBus (fun b => { b with addressDue := false }) x) else x) = y
      at haddress ⊢
    rw [editBus_metered]
    split
    · rw [setE_metered _ _ (by decide)]
      split
      · rw [setE_metered _ _ (by decide)]
        exact haddress
      · exact haddress
    · split
      · rw [setE_metered _ _ (by decide)]
        exact haddress
      · exact haddress
  · rw [editBus_metered]
    exact haddress

theorem frameStart_metered (f : FrameMeas) (x : Module) : (frameStart f x).metered =
    (meterStep f (decide (minuteOf (advanceClock f.sill x).ts ≠ minuteOf x.ts)) (advanceClock f.sill x)).metered := by
  rw [frameStart, onlyIf_metered _ _ (cycleStart_metered _), frameWindows_metered]

/-! ### Valves and pumps -/

@[simp] theorem editChan_metered (c : Nat) (f : Chan → Chan) (x : Module) : (editChan c f x).metered = x.metered := rfl
@[simp] theorem editUnit_metered (u : Nat) (f : DriveUnit → DriveUnit) (x : Module) :
    (editUnit u f x).metered = x.metered := rfl
@[simp] theorem beginPull_metered (c : Nat) (x : Module) : (beginPull c x).metered = x.metered := rfl
@[simp] theorem leaveQueue_metered (c : Nat) (x : Module) : (leaveQueue c x).metered = x.metered := rfl

@[simp] theorem startNext_metered (b : Nat) (x : Module) : (startNext b x).metered = x.metered := by
  unfold startNext
  split
  · split <;> rfl
  · rfl

theorem requestPull_metered (c : Nat) (x : Module) : (requestPull c x).metered = x.metered := by
  unfold requestPull
  dsimp only
  split
  · rfl
  · split
    · rw [editAct_metered, editChan_metered, onMgmt_metered]
      exact fun m => (dset_measured _ _ (by decide)).trans (dset_measured _ m (by decide))
    · exact beginPull_metered c x

theorem turnOff_metered (check : Bool) (c : Nat) (x : Module) : (turnOff check c x).metered = x.metered := by
  unfold turnOff
  dsimp only
  split
  · rfl
  · split
    · rfl
    · rfl
    · exact startNext_metered ..
    · exact startNext_metered ..
    · rfl

theorem commandValve_metered (c : Nat) (openIt : Bool) (x : Module) : (commandValve c openIt x).metered = x.metered := by
  unfold commandValve
  dsimp only
  split
  · split
    · rfl
    · split
      · exact requestPull_metered ..
      · rfl
  · split
    · rfl
    · rw [turnOff_metered]
      exact onlyIf_metered _ _ (setE_metered _ _ (by decide))

theorem forceZone_metered (z : Nat) (x : Module) : (forceZone z x).metered = x.metered := by
  unfold forceZone
  dsimp only
  split
  · exact requestPull_metered ..
  · exact requestPull_metered ..
  · rfl

theorem unitFlags_ne (u : Nat) : unitFlags u ≠ Ent.power1s := by
  unfold unitFlags Ent.pumpFlags Ent.fanFlags Ent.power1s
  split <;> omega

theorem setTarget_metered (u pct : Nat) (x : Module) : (setTarget u pct x).metered = x.metered :=
  onlyIf_metered _ _ (onMgmt_metered _ fun m => dset_measured _ m (unitFlags_ne u))

theorem setPump_metered (pct : Nat) (x : Module) : (setPump pct x).metered = x.metered := by
  unfold setPump
  split
  · rw [editAct_metered, setTarget_metered, setTarget_metered]
  · rfl

theorem emergencyPump_metered (x : Module) : (emergencyPump x).metered = x.metered := by
  unfold emergencyPump
  split
  · dsimp only
    split
    · rw [editAct_metered, setTarget_metered, setTarget_metered]
    · exact setPump_metered ..
  · exact setPump_metered ..

theorem primeDrive_metered (since : W64) (x : Module) : (primeDrive since x).metered = x.metered := by
  unfold primeDrive
  dsimp only
  generalize (if profile1 x = true then [19, 17, 16] else [17, 16] : List Nat) = valves
  have hvalves : ((valves.take (sinceT x since / 200000000 + 1)).foldl (fun y c => commandValve c true y) x).metered =
      x.metered := foldl_metered (fun _ _ => commandValve_metered ..) _ x
  split
  · exact hvalves
  · rw [editCool_metered, editAct_metered, setTarget_metered]
    split
    · rw [forceZone_metered, forceZone_metered]
      exact hvalves
    · rw [commandValve_metered]
      exact hvalves

theorem primeFrame_metered (x : Module) : (primeFrame x).metered = x.metered := by
  unfold primeFrame
  split
  · split
    · exact primeDrive_metered ..
    · rfl
  · rfl

/-! ### The power policy (R356 to R368) -/

theorem requestStep_metered (x : Module) : (requestStep x).metered = x.metered := by
  unfold requestStep
  dsimp only
  split
  · rw [writeStep, writeJ1, presentLevels_metered, editJoints_metered]
  · rw [setE_metered _ _ (by decide), writeStep, writeJ1, presentLevels_metered, editJoints_metered]

theorem takeCapStep_metered (n : Nat) (x : Module) : (takeCapStep n x).metered = x.metered := by
  rw [takeCapStep, requestStep_metered, setE_metered _ _ (by decide)]
  exact editPower_metered x (fun _ => rfl) fun _ => rfl

theorem fastLoop_metered (x : Module) : (fastLoop x).metered = x.metered := by
  unfold fastLoop
  split
  · rw [takeCapStep_metered]
    exact editPower_metered x (fun _ => rfl) fun _ => rfl
  · dsimp only
    split
    · exact takeCapStep_metered ..
    · rw [raiseEvent_metered _ _ (by decide), setThrottle_metered, takeCapStep_metered]

theorem blockThrottle_metered (x : Module) : (blockThrottle x).metered = x.metered := by
  unfold blockThrottle
  dsimp only
  split
  · split
    · exact setThrottle_metered ..
    · rfl
  · split
    · exact setThrottle_metered ..
    · rfl

theorem clearCapUnmet_metered (x : Module) : (clearCapUnmet x).metered = x.metered := by
  unfold clearCapUnmet
  split
  · exact setThrottle_metered ..
  · rfl

theorem updateK_metered (mw : Nat) (x : Module) : (updateK mw x).metered = x.metered :=
  editPower_metered x (fun _ => rfl) fun _ => rfl

theorem noteLowering_metered (x : Module) : (noteLowering x).metered = x.metered :=
  editPower_metered x (fun _ => rfl) fun _ => rfl

theorem judgeFrame_metered (mw : Nat) (x : Module) : (judgeFrame mw x).metered = x.metered := by
  unfold judgeFrame
  extract_lets p cap w ratio overCap exc x1 x2 x3 judged fb above x4 broken
  have h1 : x1.metered = x.metered := ite_metered _ (incE_metered x (by decide)) rfl
  have h2 : x2.metered = x.metered := ite_metered _ ((setE_metered _ x1 (by decide)).trans h1) h1
  have h3 : x3.metered = x.metered := ite_metered _ ((setE_metered _ x2 (by decide)).trans h2) h2
  have h4 : x4.metered = x.metered := by
    clear_value x3 exc above
    exact (editPower_metered x3 (fun _ => rfl) fun _ => rfl).trans h3
  clear_value x4
  have hbreach (b : Option Breach) : (editPower (fun p => { p with breach := b }) x4).metered = x.metered :=
    (editPower_metered x4 (fun _ => rfl) fun _ => rfl).trans h4
  split
  · exact ite_metered _ ((incE_metered _ (by decide)).trans (hbreach _)) h4
  · exact ite_metered _ (hbreach _) ((raiseEvent_metered _ _ (by decide)).trans (hbreach _))

theorem powerFrame_metered (mw : Nat) (x : Module) : (powerFrame mw x).metered = x.metered := by
  unfold powerFrame
  dsimp only
  split
  · rw [fastLoop_metered, clearCapUnmet_metered, blockThrottle_metered, editPower_metered, updateK_metered,
      judgeFrame_metered, noteLowering_metered]
    · exact fun _ => rfl
    · exact fun _ => rfl
  · rw [takeCapStep_metered, clearCapUnmet_metered, blockThrottle_metered, editPower_metered, updateK_metered,
      judgeFrame_metered, noteLowering_metered]
    · exact fun _ => rfl
    · exact fun _ => rfl

/-! ### What Skour follows at a frame -/

theorem convPower_ne {n : Nat} (h : n < 4) : Ent.convPower + n ≠ Ent.power1s := by
  unfold Ent.convPower Ent.power1s
  omega

theorem takeMeters_metered (f : FrameMeas) (x : Module) : (takeMeters f x).metered = x.metered := by
  unfold takeMeters
  dsimp only
  rw [editPower_metered, onSill_metered, repeatN_metered, repeatN_metered, setE_metered _ _ (by decide),
    setE_metered _ _ (by decide), setE_metered _ _ (by decide), setE_metered _ _ (by decide), setE_metered _ _ (by decide),
    setE_metered _ _ (by decide)]
  · exact fun n hn y => setE_metered _ y (convPower_ne hn)
  · exact fun _ _ _ => rfl
  · exact fun _ => rfl
  · exact fun _ => rfl

theorem digestsDiffer_metered (x : Module) : (digestsDiffer x).metered = x.metered := by
  unfold digestsDiffer
  dsimp only
  split
  · unfold setPair
    split
    · rfl
    · rw [note_metered]
      exact onMgmt_metered x fun _ => rfl
  · rfl

theorem followSill_metered (x : Module) : (followSill x).metered = x.metered := by
  have hmove (c : ModState) :
      (toState c (onMgmt (fun m => { m with start := none, startDue := none }) x)).metered = x.metered := by
    rw [toState_metered]
    exact onMgmt_metered x fun _ => rfl
  unfold followSill
  split
  · rfl
  · dsimp only
    split
    · rfl
    · split
      · rw [beginAlarm_metered, hmove]
      · rw [beginAlarm_metered, hmove]
      · exact hmove _

theorem syncAutonomy_metered (x : Module) : (syncAutonomy x).metered = x.metered := by
  unfold syncAutonomy
  dsimp only
  split
  · rfl
  · rw [raiseEvent_metered _ _ (by decide)]
    split
    · rw [incE_metered _ (by decide), setE_metered _ _ (by decide)]
    · rw [setE_metered _ _ (by decide)]

theorem followHost_metered (x : Module) : (followHost x).metered = x.metered := by
  unfold followHost
  extract_lets v x1 hold x2
  have h1 : x1.metered = x.metered :=
    ite_metered _ rfl ((raiseEvent_metered _ _ (by decide)).trans (setE_metered _ _ (by decide)))
  have h2 : x2.metered = x.metered :=
    ite_metered _ h1 ((raiseEvent_metered _ _ (by decide)).trans ((setE_metered _ _ (by decide)).trans h1))
  rw [syncAutonomy_metered, h2]

theorem followBeats_metered (x : Module) : (followBeats x).metered = x.metered := by
  unfold followBeats
  dsimp only
  split
  · exact toState_metered ..
  · rfl

theorem followImage_metered (x : Module) : (followImage x).metered = x.metered := by
  unfold followImage
  split
  · rfl
  · rw [setE_metered _ _ (by decide), editJoints_metered]
    exact editPower_metered x (fun _ => rfl) fun _ => rfl

theorem syncValveThrottle_metered (x : Module) : (syncValveThrottle x).metered = x.metered := by
  unfold syncValveThrottle
  dsimp only
  split
  · rfl
  · exact setThrottle_metered ..

theorem pairFrame_measured (ix : Nat) (m : Mgmt) : (pairFrame ix m).measured = m.measured := by
  unfold pairFrame
  split <;> rfl

theorem coolFrame_metered (x : Module) : (coolFrame x).metered = x.metered := by
  rw [coolFrame, onMgmt_metered, editCool_metered, noteHot, editCool_metered, syncFlowStop]
  · exact onlyIf_metered _ _ (setThrottle_metered ..)
  · exact fun m => List.foldlRecOn (motive := fun n => n.measured = m.measured) _ _ rfl
      fun n hn ix _ => (pairFrame_measured ix n).trans hn

theorem skourFrame_metered (f : FrameMeas) (x : Module) : (skourFrame f x).metered = x.metered := by
  rw [skourFrame, coolFrame_metered, powerFrame_metered, primeFrame_metered, editJoints_metered, syncValveThrottle_metered,
    followImage_metered, followBeats_metered, followHost_metered, followSill_metered,
    onlyIf_metered _ _ (digestsDiffer_metered _), takeMeters_metered, serviceWatchdog, onSill_metered]

/-- A powered frame measures what its clock and its meter say (R7, R27, R351, R371). -/
theorem frameBoundary_metered (f : FrameMeas) (h : unpowered x = false) : (frameBoundary f x).metered =
    (meterStep f (decide (minuteOf (advanceClock f.sill x).ts ≠ minuteOf x.ts)) (advanceClock f.sill x)).metered := by
  rw [frameBoundary, h, if_neg Bool.false_ne_true]
  dsimp only
  split
  · rw [takeStatus, editBus_metered, skourFrame_metered, frameStart_metered]
  · exact frameStart_metered f x

theorem meterStep_metered (f : FrameMeas) (minute : Bool) (x : Module) : (meterStep f minute x).metered =
    (x.ts, x.sf, x.mgmt.frame + 1, (f.power :: x.mgmt.power.frames).take 1000, (x.mgmt.power.energyPart + f.power) % 1000,
      ratF32 (meanPower ((f.power :: x.mgmt.power.frames).take 1000))) := by
  have hentry (v : Nat) (y : Module) : dget (setE Ent.power1s v y).mgmt Ent.power1s = v := dget_dset_self ..
  rw [meterStep, editPower_metered]
  · unfold meterFrame
    dsimp only
    rw [Module.metered, Mgmt.measured, hentry]
    cases minute with
    | true => simp
    | false => simp
  · exact fun _ => rfl
  · exact fun _ => rfl

theorem exec_frameBoundary_of_unpowered {f : FrameMeas} (h : s.sys.mgmt.service = 0) : exec (.frameBoundary f) s = .next s := by
  rw [exec_frameBoundary, frameBoundary, if_pos (by rw [unpowered, h]; rfl)]

theorem frameBoundary_passes (f : FrameMeas) (h : s.sys.mgmt.service ≠ 0) : ∃ t, exec (.frameBoundary f) s = .next t ∧
    (s.sys.mgmt.bus.slew = 0 → t.sys.ts = s.sys.ts + 1000000) ∧
    t.sys.sf = s.sys.sf + BitVec.ofNat 64 f.sill ∧ t.sys.mgmt.frame = s.sys.mgmt.frame + 1 ∧
    t.sys.mgmt.power.frames = (f.power :: s.sys.mgmt.power.frames).take 1000 ∧
    getE t.sys Ent.power1s = ratF32 (meanPower ((f.power :: s.sys.mgmt.power.frames).take 1000)) ∧
    t.sys.mgmt.power.energyPart = (s.sys.mgmt.power.energyPart + f.power) % 1000 := by
  have hmeter := frameBoundary_metered f (x := s.sys) (by simpa [unpowered] using h)
  rw [meterStep_metered] at hmeter
  simp only [Module.metered, Mgmt.measured, Prod.mk.injEq] at hmeter
  obtain ⟨hts, hsf, hframe, hframes, hpart, hpower⟩ := hmeter
  refine ⟨_, exec_frameBoundary s f, fun hslew => ?_, hsf, hframe, hframes, hpower, hpart⟩
  rw [hts, advanceClock, hslew]
  rfl

theorem forecastRecompute_forecasts : ∃ t, exec .forecastRecompute s = .next t ∧ t.sys.mgmt.power.forecastDue = false ∧
    getE t.sys Ent.forecast = leNat (natLe 4 (minuteOf s.sys.ts) ++ (List.range 60).flatMap (forecastEntry s.sys)) := by
  refine ⟨_, exec_forecastRecompute s, rfl, ?_⟩
  exact getE_setE_self ..

/-! ### The retained store (R458) -/

theorem newest_pair (a b : StoreCopy) : newest [a, b] = none ∨ newest [a, b] = some 0 ∨ newest [a, b] = some 1 := by
  unfold newest
  dsimp only
  split
  · split
    · exact .inr (.inr rfl)
    · exact .inr (.inl rfl)
  · split
    · exact .inr (.inr rfl)
    · exact .inl rfl

/-- The older of two copies takes the image; the newest stays. -/
theorem writeCopy_writes (values : SMap Nat) {cs : List StoreCopy} (h : cs.length = 2) :
    ImageWritten cs (writeCopy values cs).1 values (writeCopy values cs).2 := by
  obtain ⟨a, b, rfl⟩ := List.length_eq_two.1 h
  unfold writeCopy
  rcases newest_pair a b with hk | hk | hk
  · rw [hk]
    refine ⟨⟨_, List.mem_cons_self, rfl, rfl, rfl⟩, fun k h => ?_⟩
    rw [hk] at h
    cases h
  · rw [hk]
    refine ⟨⟨_, List.mem_cons_of_mem _ (List.mem_singleton_self _), rfl, rfl, rfl⟩, fun k h => ?_⟩
    rw [hk] at h
    cases h
    rfl
  · rw [hk]
    refine ⟨⟨_, List.mem_cons_self, rfl, rfl, rfl⟩, fun k h => ?_⟩
    rw [hk] at h
    cases h
    rfl

theorem writeImage_true (x : Module) : (writeImage true x).mgmt.records = (writeCopy (imageOf true x.mgmt) x.mgmt.records).1 ∧
    getE (writeImage true x) Ent.recordsGen = (writeCopy (imageOf true x.mgmt) x.mgmt.records).2 :=
  ⟨setE_records .., getE_setE_self ..⟩

theorem writeImage_false (x : Module) :
    (writeImage false x).mgmt.settings = (writeCopy (imageOf false x.mgmt) x.mgmt.settings).1 ∧
    getE (writeImage false x) Ent.settingsGen = (writeCopy (imageOf false x.mgmt) x.mgmt.settings).2 :=
  ⟨setE_settings .., getE_setE_self ..⟩

theorem writeImage_records (h : s.sys.mgmt.records.length = 2) {sys : Module} (hx : sys = writeImage true s.sys) :
    ImageWritten s.sys.mgmt.records sys.mgmt.records (imageOf true s.sys.mgmt) (getE sys Ent.recordsGen) := by
  obtain ⟨hrecords, hgen⟩ := writeImage_true s.sys
  rw [hx, hrecords, hgen]
  exact writeCopy_writes _ h

theorem writeImage_settings (h : s.sys.mgmt.settings.length = 2) {sys : Module} (hx : sys = writeImage false s.sys) :
    ImageWritten s.sys.mgmt.settings sys.mgmt.settings (imageOf false s.sys.mgmt) (getE sys Ent.settingsGen) := by
  obtain ⟨hsettings, hgen⟩ := writeImage_false s.sys
  rw [hx, hsettings, hgen]
  exact writeCopy_writes _ h

/-- Settles O46: what a frame metered stands through all it sets off; an image goes to the older copy. -/
theorem framesMetersAndRetainedImages : Obligations.FramesMetersAndRetainedImages := by
  unfold Obligations.FramesMetersAndRetainedImages
  refine fun s => ⟨fun f => ⟨exec_frameBoundary_of_unpowered, frameBoundary_passes f⟩, forecastRecompute_forecasts,
    fun hup hrecords hsettings => ⟨?energy, fun hdirty => ?records, fun hdirty => ?settings, fun hclean => ?clean⟩⟩
  case energy => exact ⟨_, exec_energyWrite s, writeImage_records hrecords (if_pos hup)⟩
  case records => exact ⟨_, exec_retainedWrite s true, writeImage_records hrecords (if_pos ⟨hup, hdirty⟩)⟩
  case settings => exact ⟨_, exec_retainedWrite s false, writeImage_settings hsettings (if_pos ⟨hup, hdirty⟩)⟩
  case clean => rw [exec_retainedWrite, retainedWrite, if_neg (by simp [hclean])]

end Sys2Proof.Machine
end

section
/-!
SUPPORT. What the orders to valves and units change: the channels, the banks' waiting lists, the units, the zones' duties and a few
flags, and nothing else. Then the flow, the coolant periods and the thermal policy (O47).
-/

namespace Sys2Proof.Machine

-- As in the tests: one proof at a time, so that the whole text keeps within the threads that the memory holds.
set_option Elab.async false

variable {s t : State} {x y z : Module} {m : Mgmt} {k : Nat}

/-! ### Orders to valves and units -/

/-- The management plane apart from its records and from what an order to a valve or a unit moves. -/
def Mgmt.still (m : Mgmt) : Mgmt :=
  { m.kept with
    act := { m.kept.act with chans := [], waiting := [], units := [], running := none }
    cool := { m.cool with duty := [] } }

/-- Only orders to valves and units stand between `x` and `y`. -/
structure Module.Driven (x y : Module) : Prop where
  ts : y.ts = x.ts
  sf : y.sf = x.sf
  data : y.data = x.data
  ctrl : y.ctrl = x.ctrl
  sill : y.sill = x.sill
  still : y.mgmt.still = x.mgmt.still
  entries : ∀ k < Ent.deferredFlags, getE y k = getE x k

theorem Module.Driven.refl (x : Module) : x.Driven x := ⟨rfl, rfl, rfl, rfl, rfl, rfl, fun _ _ => rfl⟩

theorem Module.Driven.trans (h : x.Driven y) (g : y.Driven z) : x.Driven z where
  ts := g.ts.trans h.ts
  sf := g.sf.trans h.sf
  data := g.data.trans h.data
  ctrl := g.ctrl.trans h.ctrl
  sill := g.sill.trans h.sill
  still := g.still.trans h.still
  entries k hk := (g.entries k hk).trans (h.entries k hk)

/-- A reader of the management plane that looks at nothing an order to a valve or a unit moves. -/
def DriveFree {α : Type} (rd : Mgmt → α) : Prop := ∀ m, rd m.still = rd m

theorem Module.Driven.reads (h : x.Driven y) {α : Type} (rd : Mgmt → α) (hrd : DriveFree rd := by intro _; rfl) :
    rd y.mgmt = rd x.mgmt := by
  rw [← hrd y.mgmt, h.still, hrd]

theorem editAct_driven {f : Act → Act} (x : Module)
    (h : ∀ a, { f a with chans := [], waiting := [], units := [], running := none, queue := [], lost := 0 } =
      { a with chans := [], waiting := [], units := [], running := none, queue := [], lost := 0 }) :
    x.Driven (editAct f x) :=
  ⟨rfl, rfl, rfl, rfl, rfl, congrArg (fun a => { x.mgmt.still with act := a }) (h x.mgmt.act), fun _ _ => rfl⟩

theorem setE_driven (v : Nat) (x : Module) (h : Ent.deferredFlags ≤ k) : x.Driven (setE k v x) where
  ts := rfl
  sf := rfl
  data := rfl
  ctrl := rfl
  sill := rfl
  still := by
    have hk := dset_kept k v x.mgmt
    have hc : (setE k v x).mgmt.cool = x.mgmt.cool := setE_cool ..
    rw [Mgmt.still, Mgmt.still, hc, show (setE k v x).mgmt.kept = x.mgmt.kept from hk]
  entries j hj := getE_setE_of_ne v x (Nat.ne_of_lt (hj.trans_le h))

theorem onlyIf_driven (c : Bool) {f : Module → Module} (h : x.Driven (f x)) : x.Driven (onlyIf c f x) := by
  unfold onlyIf
  split
  · exact h
  · exact .refl x

theorem ite_driven (c : Prop) [Decidable c] (hy : x.Driven y) (hz : x.Driven z) : x.Driven (if c then y else z) := by
  split
  · exact hy
  · exact hz

theorem foldl_driven {α : Type} {f : Module → α → Module} (h : ∀ (y : Module) a, y.Driven (f y a)) (l : List α) (x : Module) :
    x.Driven (l.foldl f x) :=
  List.foldlRecOn (motive := fun y => x.Driven y) l f (.refl x) fun y hy a _ => hy.trans (h y a)

theorem editChan_driven (c : Nat) (f : Chan → Chan) (x : Module) : x.Driven (editChan c f x) := editAct_driven x fun _ => rfl

theorem editUnit_driven (u : Nat) (f : DriveUnit → DriveUnit) (x : Module) : x.Driven (editUnit u f x) :=
  editAct_driven x fun _ => rfl

theorem beginPull_driven (c : Nat) (x : Module) : x.Driven (beginPull c x) := editChan_driven ..

theorem leaveQueue_driven (c : Nat) (x : Module) : x.Driven (leaveQueue c x) := editAct_driven x fun _ => rfl

theorem startNext_driven (b : Nat) (x : Module) : x.Driven (startNext b x) := by
  unfold startNext
  split
  · refine ite_driven _ (.refl x) (.trans (editAct_driven x ?_) (beginPull_driven ..))
    exact fun _ => rfl
  · exact .refl x

theorem requestPull_driven (c : Nat) (x : Module) : x.Driven (requestPull c x) := by
  unfold requestPull
  dsimp only
  refine ite_driven _ (.refl x) (ite_driven _ ?_ (beginPull_driven c x))
  refine .trans (.trans (y := setE Ent.deferrals _ (setE Ent.deferredFlags _ x)) ?_ (editChan_driven ..))
    (editAct_driven _ fun _ => rfl)
  exact (setE_driven _ x (by decide)).trans (setE_driven _ _ (by decide))

theorem turnOff_driven (check : Bool) (c : Nat) (x : Module) : x.Driven (turnOff check c x) := by
  unfold turnOff
  dsimp only
  refine ite_driven _ (editChan_driven ..) ?_
  split
  · exact (editChan_driven ..).trans (leaveQueue_driven ..)
  · exact editChan_driven ..
  · exact (editChan_driven ..).trans (startNext_driven ..)
  · exact (editChan_driven ..).trans (startNext_driven ..)
  · exact editChan_driven ..

theorem commandValve_driven (c : Nat) (openIt : Bool) (x : Module) : x.Driven (commandValve c openIt x) := by
  unfold commandValve
  dsimp only
  refine ite_driven _ (ite_driven _ (.refl x) ?_) (ite_driven _ (.refl x) ?_)
  · split
    · exact (editChan_driven ..).trans (requestPull_driven ..)
    · exact editChan_driven ..
  · exact (onlyIf_driven _ (setE_driven _ x (by decide))).trans (turnOff_driven ..)

theorem forceZone_driven (n : Nat) (x : Module) : x.Driven (forceZone n x) := by
  have hforce : x.Driven (editCool (fun c => { c with duty := put 0 c.duty n 100 })
      (editChan n (fun k => { k with force := true }) x)) :=
    ⟨rfl, rfl, rfl, rfl, rfl, rfl, fun _ _ => rfl⟩
  unfold forceZone
  dsimp only
  split
  · exact hforce.trans (requestPull_driven ..)
  · exact hforce.trans (requestPull_driven ..)
  · exact hforce

theorem le_unitFlags (u : Nat) : Ent.deferredFlags ≤ unitFlags u := by
  unfold unitFlags Ent.deferredFlags Ent.pumpFlags Ent.fanFlags
  split <;> omega

theorem setTarget_driven (u pct : Nat) (x : Module) : x.Driven (setTarget u pct x) :=
  (editUnit_driven u (DriveUnit.retarget u pct) x).trans (onlyIf_driven _ (setE_driven _ _ (le_unitFlags u)))

theorem setFan_driven (n pct : Nat) (x : Module) : x.Driven (setFan n pct x) := setTarget_driven ..

theorem setPump_driven (pct : Nat) (x : Module) : x.Driven (setPump pct x) := by
  unfold setPump
  split
  · exact ((setTarget_driven ..).trans (setTarget_driven ..)).trans (editAct_driven _ fun _ => rfl)
  · exact editAct_driven x fun _ => rfl

theorem emergencyPump_driven (x : Module) : x.Driven (emergencyPump x) := by
  unfold emergencyPump
  split
  · exact ite_driven _ (((setTarget_driven ..).trans (setTarget_driven ..)).trans (editAct_driven _ fun _ => rfl))
      (setPump_driven ..)
  · exact setPump_driven ..

theorem repeatN_forceZone_driven (n : Nat) (x : Module) : x.Driven (repeatN (fun z y => forceZone z y) n x) :=
  repeatN_induct (P := x.Driven) (fun _ y hy => hy.trans (forceZone_driven _ y)) n (.refl x)

/-! ### Channels -/

theorem chanOf_editChan_self (c : Nat) (f : Chan → Chan) (x : Module) : chanOf (editChan c f x) c = f (chanOf x c) :=
  look_upd_self ..

theorem chanOf_editChan_of_ne {n c : Nat} (f : Chan → Chan) (x : Module) (h : n ≠ c) :
    chanOf (editChan c f x) n = chanOf x n := look_upd_of_ne _ _ _ h

/-- An edit of a channel that leaves what `rd` reads of it. -/
theorem chanOf_editChan_reads {α : Type} {rd : Chan → α} {f : Chan → Chan} (h : ∀ k, rd (f k) = rd k) (c n : Nat) (x : Module) :
    rd (chanOf (editChan c f x) n) = rd (chanOf x n) := by
  by_cases hn : n = c
  · rw [hn, chanOf_editChan_self, h]
  · rw [chanOf_editChan_of_ne f x hn]

theorem chanOf_congr (h : y.mgmt.act.chans = x.mgmt.act.chans) (n : Nat) : chanOf y n = chanOf x n := by
  rw [chanOf, h, ← chanOf]

@[simp] theorem chanOf_leaveQueue (c n : Nat) (x : Module) : chanOf (leaveQueue c x) n = chanOf x n := rfl

@[simp] theorem chanOf_editWaiting (f : Act → SMap (List Nat)) (n : Nat) (x : Module) :
    chanOf (editAct (fun a => { a with waiting := f a }) x) n = chanOf x n := rfl

theorem beginPull_force (c n : Nat) (x : Module) : (chanOf (beginPull c x) n).force = (chanOf x n).force := by
  refine chanOf_editChan_reads (rd := Chan.force) ?_ c n x
  exact fun _ => rfl

theorem startNext_force (b n : Nat) (x : Module) : (chanOf (startNext b x) n).force = (chanOf x n).force := by
  unfold startNext
  split
  · split
    · rfl
    · exact beginPull_force ..
  · rfl

theorem requestPull_force (c n : Nat) (x : Module) : (chanOf (requestPull c x) n).force = (chanOf x n).force := by
  unfold requestPull
  dsimp only
  split
  · rfl
  · split
    · rw [chanOf_editWaiting, chanOf_editChan_reads (rd := Chan.force)]
      · exact congrArg Chan.force (chanOf_congr (by simp [dinc, dsetBits]) n)
      · exact fun _ => rfl
    · exact beginPull_force ..

theorem turnOff_force_of_ne {c n : Nat} (h : n ≠ c) (check : Bool) (x : Module) :
    (chanOf (turnOff check c x) n).force = (chanOf x n).force := by
  unfold turnOff
  dsimp only
  split
  · rw [chanOf_editChan_of_ne _ _ h]
  · split
    · rw [chanOf_leaveQueue, chanOf_editChan_of_ne _ _ h]
    · rw [chanOf_editChan_of_ne _ _ h]
    · rw [startNext_force, chanOf_editChan_of_ne _ _ h]
    · rw [startNext_force, chanOf_editChan_of_ne _ _ h]
    · rw [chanOf_editChan_of_ne _ _ h]

theorem commandValve_force_of_ne {c n : Nat} (h : n ≠ c) (openIt : Bool) (x : Module) :
    (chanOf (commandValve c openIt x) n).force = (chanOf x n).force := by
  unfold commandValve
  dsimp only
  split
  · split
    · rfl
    · split
      · rw [requestPull_force, chanOf_editChan_of_ne _ _ h]
      · rw [chanOf_editChan_of_ne _ _ h]
  · split
    · rfl
    · rw [turnOff_force_of_ne h, onlyIf]
      split
      · exact congrArg Chan.force (chanOf_congr (by rw [setE_act]) n)
      · rfl

/-- The channels after a zone has been forced, before its pull-in. -/
theorem forceZone_force (n c : Nat) (x : Module) :
    (chanOf (forceZone n x) c).force = if c = n then true else (chanOf x c).force := by
  have hforce : (chanOf (editCool (fun c => { c with duty := put 0 c.duty n 100 })
      (editChan n (fun k => { k with force := true }) x)) c).force = if c = n then true else (chanOf x c).force := by
    by_cases h : c = n
    · rw [if_pos h, h]
      exact congrArg Chan.force (chanOf_editChan_self n _ x)
    · rw [if_neg h]
      exact congrArg Chan.force (chanOf_editChan_of_ne _ x h)
  unfold forceZone
  dsimp only
  split
  · rw [requestPull_force, hforce]
  · rw [requestPull_force, hforce]
  · exact hforce

theorem repeatN_forceZone_force {n c : Nat} (h : c < n) (x : Module) :
    (chanOf (repeatN (fun z y => forceZone z y) n x) c).force = true := by
  induction n with
  | zero => exact absurd h c.not_lt_zero
  | succ n ih =>
    rw [repeatN, forceZone_force]
    split
    · rfl
    · exact ih (by omega)

theorem setTarget_chans (u pct : Nat) (x : Module) : (setTarget u pct x).mgmt.act.chans = x.mgmt.act.chans := by
  rw [setTarget, onlyIf]
  split
  · rw [onMgmt_mgmt, dclearBits, dset_act]
    rfl
  · rfl

theorem setPump_chans (pct : Nat) (x : Module) : (setPump pct x).mgmt.act.chans = x.mgmt.act.chans := by
  unfold setPump
  split
  · exact (setTarget_chans ..).trans (setTarget_chans ..)
  · rfl

theorem emergencyPump_chans (x : Module) : (emergencyPump x).mgmt.act.chans = x.mgmt.act.chans := by
  unfold emergencyPump
  split
  · dsimp only
    split
    · exact (setTarget_chans ..).trans (setTarget_chans ..)
    · exact setPump_chans ..
  · exact setPump_chans ..

/-! ### The coolant period (R381, R430, R447) -/

theorem writeSchedule_driven (c : Schedule) (x : Module) :
    (editAct (fun a => { a with schedule := c }) x).Driven (writeSchedule c x) := by
  unfold writeSchedule
  dsimp only
  refine ite_driven _ (.refl _) ?_
  exact ((foldl_driven (fun y i => commandValve_driven ..) _ _).trans (setPump_driven ..)).trans
    (foldl_driven (fun y n => setFan_driven ..) _ _)

theorem writeSchedule_schedule (c : Schedule) (x : Module) : (writeSchedule c x).mgmt.act.schedule = c :=
  (writeSchedule_driven c x).reads (fun m => m.act.schedule)

theorem writeSchedule_frames (c : Schedule) (x : Module) : (writeSchedule c x).mgmt.cool.frames = x.mgmt.cool.frames :=
  (writeSchedule_driven c x).reads (fun m => m.cool.frames)

theorem writeSchedule_demand (c : Schedule) (x : Module) : (writeSchedule c x).mgmt.cool.demand = x.mgmt.cool.demand :=
  (writeSchedule_driven c x).reads (fun m => m.cool.demand)

/-- A map filled from 0 on reads what was put at each place. -/
theorem look_foldl_put (v : Nat → Rat) {n i : Nat} (h : i < n) :
    look 0 ((List.range n).foldl (fun (m : SMap Rat) z => put 0 m z (v z)) []) i = v i := by
  induction n with
  | zero => exact absurd h i.not_lt_zero
  | succ n ih =>
    rw [List.range_succ, List.foldl_append, List.foldl_cons, List.foldl_nil, look_put]
    split
    · rename_i hi
      rw [hi]
    · exact ih (by omega)

theorem coolantPeriodStart_primed (hup : skourUp s.sys = true) (hp : primed s.sys = true) :
    ∃ t, exec .coolantPeriodStart s = .next t ∧ t.sys.mgmt.act.schedule = s.sys.mgmt.act.schedule ∧
      t.sys.mgmt.cool.frames = 0 := by
  refine ⟨_, exec_coolantPeriodStart s, ?_⟩
  rw [periodStart, hup, hp]
  exact ⟨rfl, rfl⟩

theorem coolantPeriodStart_schedules (hup : skourUp s.sys = true) (hp : primed s.sys = false) :
    ∃ t, exec .coolantPeriodStart s = .next t ∧
      t.sys.mgmt.act.schedule = periodSchedule s.sys ((List.range 16).map (zoneDemand s.sys)) ∧
      t.sys.mgmt.cool.frames = 0 ∧ ∀ z : ZoneIx, look 0 t.sys.mgmt.cool.demand z = zoneDemand s.sys z := by
  refine ⟨_, exec_coolantPeriodStart s, ?_⟩
  rw [periodStart, hup, hp, if_neg (by decide), if_neg Bool.false_ne_true]
  refine ⟨writeSchedule_schedule .., writeSchedule_frames .., fun z => ?_⟩
  rw [writeSchedule_demand]
  refine (look_foldl_put (fun n => ((List.range 16).map (zoneDemand s.sys)).getD n 0) z.isLt).trans ?_
  rw [List.getD_eq_getElem _ _ (by simp), List.getElem_map, List.getElem_range]

/-! ### The flow margin (R386, R387) -/

/-- What two branches agree on. -/
theorem ite_reads {α : Type} (rd : Module → α) {v : α} (c : Prop) [Decidable c] (hy : rd y = v) (hz : rd z = v) :
    rd (if c then y else z) = v := by
  split
  · exact hy
  · exact hz

/-- The throttle of the flow's term changes the throttles and its event alone. -/
theorem termThrottle_keeps (c d : Prop) [Decidable c] [Decidable d] (detail : List Byte) (x : Module) :
    (if c then raiseEvent 0x51FF02 detail (setThrottle (fun t => { t with flowTerm := true }) x)
      else if d then setThrottle (fun t => { t with flowTerm := false }) x else x).mgmt.cool = x.mgmt.cool ∧
    ∀ k ≠ 0x51FF02, getE (if c then raiseEvent 0x51FF02 detail (setThrottle (fun t => { t with flowTerm := true }) x)
      else if d then setThrottle (fun t => { t with flowTerm := false }) x else x) k = getE x k := by
  constructor
  · exact ite_reads (fun y => y.mgmt.cool) _ ((raiseEvent_reads Mgmt.cool ..).trans (setThrottle_reads Mgmt.cool ..))
      (ite_reads (fun y => y.mgmt.cool) _ (setThrottle_reads Mgmt.cool ..) rfl)
  · exact fun k hk => ite_reads (fun y => getE y k) _ ((getE_raiseEvent _ _ hk).trans (getE_setThrottle ..))
      (ite_reads (fun y => getE y k) _ (getE_setThrottle ..) rfl)

/-- A low margin caps the power by what flows, and the flag stands. -/
theorem flowMarginEval_margins (hup : skourUp s.sys = true) (hc : 1000 ≤ s.sys.mgmt.cool.qCount) :
    ∃ t, exec .flowMarginEval s = .next t ∧
      t.sys.mgmt.cool.qCount = 0 ∧ t.sys.mgmt.cool.qWins = (s.sys.mgmt.cool.qSum :: s.sys.mgmt.cool.qWins).take 60 ∧
      (let q := qMean ((s.sys.mgmt.cool.qSum :: s.sys.mgmt.cool.qWins).take 60)
       let need := coldCap s.sys / mkRat 6967 10
       getE t.sys Ent.qAvail = ratF32 q ∧
        (need ≠ 0 → q / need - 1 < mkRat 15 100 → t.sys.mgmt.cool.flowTerm = mkRat 6967 10 * q / mkRat 115 100 ∧
          dbit t.sys.mgmt Ent.coolantFlags 0 = true) ∧
        (need ≠ 0 → mkRat 15 100 ≤ q / need - 1 → t.sys.mgmt.cool.flowTerm = 30000)) := by
  refine ⟨_, exec_flowMarginEval s, ?_⟩
  dsimp only
  unfold flowMarginEval
  rw [if_neg (by simp [hup, hc])]
  extract_lets ws q need m low term ok x1 x2 was x3 x4 stands
  have hcool3 : x3.mgmt.cool = x1.mgmt.cool := by
    refine ite_reads (fun y => y.mgmt.cool) _ ((raiseEvent_reads Mgmt.cool ..).trans ?_)
      (ite_reads (fun y => y.mgmt.cool) _ ?_ ?_)
    all_goals simp [x2, dsetBits, dclearBits]
  have hq3 : getE x3 Ent.qAvail = ratF32 q := by
    have hq : getE x2 Ent.qAvail = ratF32 q := by
      rw [getE_setE_of_ne _ _ (by decide), getE_setE_self]
    have hflags (v : Nat) : getE (setE Ent.coolantFlags v x2) Ent.qAvail = ratF32 q := by
      rw [getE_setE_of_ne _ _ (by decide), hq]
    exact ite_reads (fun y => getE y Ent.qAvail) _ ((getE_raiseEvent _ _ (by decide)).trans (hflags _))
      (ite_reads (fun y => getE y Ent.qAvail) _ (hflags _) hq)
  have hflag3 : low = true → dbit x3.mgmt Ent.coolantFlags 0 = true := by
    intro hlow
    cases hwas : was with
    | false =>
      have hx3 : x3 = raiseEvent 0x40FF01 _ (onMgmt (dsetBits Ent.coolantFlags 1) x2) := if_pos ⟨hlow, by rw [hwas]; rfl⟩
      rw [hx3, dbit_eq _ _ (getE_raiseEvent _ _ (by decide))]
      exact dbit_onMgmt_dsetBits x2 (by decide)
    | true =>
      have hok : ok = 0 := by
        have hlt : m < mkRat 15 100 := of_decide_eq_true (Bool.and_eq_true_iff.1 hlow).2
        exact if_neg (hlt.trans (by decide)).not_ge
      have hx3 : x3 = x2 := by
        refine (if_neg fun h => ?_).trans (if_neg fun h => ?_)
        · rw [hwas] at h
          exact absurd h.2 (by decide)
        · rw [hok] at h
          exact absurd h.2 (by decide)
      rw [hx3, dbit_setE _ (by decide), dbit_setE _ (by decide)]
      exact hwas
  obtain ⟨hcool, hentry⟩ := termThrottle_keeps (term < 11000 ∧ (!stands) = true) (stands = true ∧ 12100 ≤ term) (natLe 1 0) x4
  have hm (hneed : need ≠ 0) : m = q / need - 1 := if_neg hneed
  rw [hcool, show x4.mgmt.cool = x1.mgmt.cool from hcool3]
  refine ⟨rfl, rfl, (hentry _ (by decide)).trans hq3, fun hneed hlow => ?_, fun hneed hfine => ?_⟩
  · have hlow' : low = true := Bool.and_eq_true_iff.2 ⟨decide_eq_true hneed, decide_eq_true ((hm hneed).trans_lt hlow)⟩
    refine ⟨if_pos hlow', ?_⟩
    rw [dbit_eq _ _ (hentry Ent.coolantFlags (by decide))]
    exact hflag3 hlow'
  · refine if_neg fun h => ?_
    exact (hfine.trans_eq (hm hneed).symm).not_gt (of_decide_eq_true (Bool.and_eq_true_iff.1 h).2)

theorem exec_flowMarginEval_of_early (hc : s.sys.mgmt.cool.qCount < 1000) : exec .flowMarginEval s = .next s := by
  rw [exec_flowMarginEval, flowMarginEval, if_pos (.inr hc)]

/-! ### The flow stop (R388 to R391) -/

theorem dbit_incE {j i : Nat} (x : Module) (h : k ≠ j) : dbit (incE j x).mgmt k i = dbit x.mgmt k i := dbit_setE x h

/-- A flow stop begins: its watch, its flag, its count, its event and its alarm (R388). -/
def stopBegun (det : Nat) (x : Module) : Module :=
  beginAlarm 3 0 (raiseEvent 0x40FF02 (natLe 1 det) (incE Ent.flowStops (onMgmt (dsetBits Ent.coolantFlags 2)
    (editCool (fun c => { c with watch := { c.watch with stop := some (det, x.ts), clear := 0 } }) x))))

/-- What a flow stop orders while a tile is on: the throttle, the zones, the tray valve and the pump (R389). -/
def stopOrders (tray : Bool) (x : Module) : Module :=
  let y := repeatN (fun z y => forceZone z y) 16 (setThrottle (fun t => { t with flowStop := true }) x)
  emergencyPump (commandValve 18 tray (editCool (fun c => { c with bypass := false }) y))

theorem flowStop_of_watching (hup : skourUp x = true) (hstop : x.mgmt.cool.watch.stop = none) : flowStop x =
    if 10 < x.mgmt.cool.watch.meterLow ∧ crossPasses x = true then
      raiseEvent 0x40FF04 [] (editCool (fun c => { c with watch := { c.watch with meterLow := 0 } })
        (onMgmt (fun m => dsetBits Ent.coolantFlags 4 (dsetBits Ent.otherSensorFaults (2 ^ 56) m)) x))
    else if 10 < x.mgmt.cool.watch.meterLow ∨ 10 < x.mgmt.cool.watch.dpLow then
      if anyTileOn x.data = true then
        stopOrders (profile1 x && (chanOf x 18).window) (stopBegun (if 10 < x.mgmt.cool.watch.meterLow then 0 else 1) x)
      else stopBegun (if 10 < x.mgmt.cool.watch.meterLow then 0 else 1) x
    else x := by
  unfold flowStop
  dsimp only
  rw [if_neg (by simp [hup, hstop])]
  refine if_congr Iff.rfl rfl (if_congr Iff.rfl ?_ rfl)
  cases anyTileOn x.data with
  | true => exact (if_neg (by decide)).trans (if_pos rfl).symm
  | false => exact (if_pos rfl).trans (if_neg Bool.false_ne_true).symm

theorem stopBegun_stops (det : Nat) (x : Module) : (stopBegun det x).mgmt.cool.watch.stop = some (det, x.ts) ∧
    dbit (stopBegun det x).mgmt Ent.coolantFlags 1 = true ∧ ∃ a ∈ (stopBegun det x).mgmt.bus.alarms, a.code = 3 := by
  refine ⟨?_, ?_, alarmOn_beginAlarm ..⟩
  · rw [stopBegun, beginAlarm, editBus_cool, setE_cool, raiseEvent_reads Mgmt.cool, incE_cool, onMgmt_mgmt, dsetBits, dset_cool]
    rfl
  · rw [stopBegun, dbit_eq _ _ (getE_beginAlarm _ _ _ (by decide)), dbit_eq _ _ (getE_raiseEvent _ _ (by decide)),
      dbit_incE _ (by decide)]
    exact dbit_onMgmt_dsetBits _ (by decide)

/-- The zones' forces come first, then the tray valve and the pump. -/
theorem stopOrders_driven (tray : Bool) (x : Module) : ∃ y,
    (setThrottle (fun t => { t with flowStop := true }) x).Driven y ∧ (∀ n < 16, (chanOf y n).force = true) ∧
    stopOrders tray x = emergencyPump (commandValve 18 tray (editCool (fun c => { c with bypass := false }) y)) :=
  ⟨_, repeatN_forceZone_driven 16 _, fun _ hn => repeatN_forceZone_force hn _, rfl⟩

theorem stopOrders_reads {α : Type} (rd : Mgmt → α) (tray : Bool) (x : Module)
    (hd : DriveFree rd := by intro _; rfl)
    (hb : ∀ m b, rd { m with cool := { m.cool with bypass := b } } = rd m := by intro _ _; rfl) :
    rd (stopOrders tray x).mgmt = rd (setThrottle (fun t => { t with flowStop := true }) x).mgmt := by
  obtain ⟨y, hy, -, hx⟩ := stopOrders_driven tray x
  rw [hx, (emergencyPump_driven _).reads rd hd, (commandValve_driven ..).reads rd hd, ← hy.reads rd hd]
  exact hb y.mgmt false

theorem getE_stopOrders (tray : Bool) (x : Module) (h : k < Ent.deferredFlags) : getE (stopOrders tray x) k = getE x k := by
  obtain ⟨y, hy, -, hx⟩ := stopOrders_driven tray x
  rw [hx, (emergencyPump_driven _).entries k h, (commandValve_driven ..).entries k h]
  exact (hy.entries k h).trans (getE_setThrottle ..)

/-- Every zone is forced (R389). -/
theorem stopOrders_force (tray : Bool) (x : Module) {n : Nat} (h : n < 16) :
    (chanOf (stopOrders tray x) n).force = true := by
  obtain ⟨y, -, hy, hx⟩ := stopOrders_driven tray x
  rw [hx, chanOf_congr (emergencyPump_chans _), commandValve_force_of_ne (by omega)]
  exact hy n h

theorem meterUsable_of_fault (h : dbit x.mgmt Ent.otherSensorFaults 56 = true) : meterUsable x = false := by
  have hfault : dbit x.mgmt (faultEntry .meter) (otherBit .meter) = true := h
  unfold meterUsable usable
  rw [hfault]
  rfl

section
variable (hup : skourUp s.sys = true) (hstop : s.sys.mgmt.cool.watch.stop = none)
include hup hstop

theorem flowStop_stops (hlow : 10 < s.sys.mgmt.cool.watch.meterLow) (hcross : crossPasses s.sys = false) :
    ∃ t, exec .flowStop s = .next t ∧ t.sys.mgmt.cool.watch.stop = some (0, s.sys.ts) ∧
      dbit t.sys.mgmt Ent.coolantFlags 1 = true ∧ AlarmOn t 3 ∧
      (anyTileOn s.sys.data = true → t.sys.mgmt.power.throttles.flowStop = true ∧
        ∀ z : ZoneIx, (chanOf t.sys z).force = true) := by
  obtain ⟨hwatch, hflag, halarm⟩ := stopBegun_stops 0 s.sys
  refine ⟨_, exec_flowStop s, ?_⟩
  rw [flowStop_of_watching hup hstop, if_neg (by simp [hcross]), if_pos (.inl hlow), if_pos hlow]
  split
  case isTrue hany =>
    refine ⟨?_, ?_, ?_, fun _ => ⟨?_, fun n => stopOrders_force _ _ n.isLt⟩⟩
    · rw [stopOrders_reads (fun m => m.cool.watch.stop), setThrottle_reads (fun m => m.cool.watch.stop)]
      exact hwatch
    · rw [dbit_eq _ _ (getE_stopOrders _ _ (by decide))]
      exact hflag
    · rw [AlarmOn, stopOrders_reads (fun m => m.bus.alarms), setThrottle_reads (fun m => m.bus.alarms)]
      exact halarm
    · rw [stopOrders_reads (fun m => m.power.throttles.flowStop), setThrottle_reads (fun m => m.power.throttles.flowStop)]
  case isFalse hnone => exact ⟨hwatch, hflag, halarm, fun hany => absurd hany hnone⟩

theorem flowStop_doubtsMeter (hlow : 10 < s.sys.mgmt.cool.watch.meterLow) (hcross : crossPasses s.sys = true) :
    ∃ t, exec .flowStop s = .next t ∧ t.sys.mgmt.cool.watch.stop = none ∧ meterUsable t.sys = false := by
  refine ⟨_, exec_flowStop s, ?_⟩
  rw [flowStop_of_watching hup hstop, if_pos ⟨hlow, hcross⟩]
  constructor
  · rw [raiseEvent_reads Mgmt.cool]
    simpa [dsetBits] using hstop
  · have hset : dbit (raiseEvent 0x40FF04 [] (editCool (fun c => { c with watch := { c.watch with meterLow := 0 } })
        (onMgmt (fun m => dsetBits Ent.coolantFlags 4 (dsetBits Ent.otherSensorFaults (2 ^ 56) m)) s.sys))).mgmt
        Ent.otherSensorFaults 56 = true := by
      rw [dbit_eq _ _ (getE_raiseEvent _ _ (by decide))]
      refine (dbit_eq _ _ (dget_dset_of_ne _ _ (by decide)) 56).trans ?_
      exact dbit_dsetBits (by decide)
    exact meterUsable_of_fault hset

theorem exec_flowStop_of_flow (hm : s.sys.mgmt.cool.watch.meterLow ≤ 10) (hd : s.sys.mgmt.cool.watch.dpLow ≤ 10) :
    exec .flowStop s = .next s := by
  rw [exec_flowStop, flowStop_of_watching hup hstop, if_neg fun h => hm.not_gt h.1,
    if_neg (not_or.2 ⟨hm.not_gt, hd.not_gt⟩)]

end

theorem testBit_sub_and (v mask i : Nat) : (v - (v &&& mask)).testBit i = (v.testBit i && !mask.testBit i) := by
  have hle : v &&& mask ≤ v := Nat.and_le_left
  have hodd : (v &&& mask) % 2 = 1 ↔ v % 2 = 1 ∧ mask % 2 = 1 := Nat.and_mod_two_eq_one
  induction i generalizing v mask with
  | zero =>
    rw [Nat.testBit_zero, Nat.testBit_zero, Nat.testBit_zero, Bool.eq_iff_iff]
    simp only [decide_eq_true_eq, Bool.and_eq_true, Bool.not_eq_true', decide_eq_false_iff_not]
    omega
  | succ i ih =>
    have hhalf : (v - (v &&& mask)) / 2 = v / 2 - (v / 2 &&& mask / 2) := by
      rw [← Nat.and_div_two]
      omega
    rw [Nat.testBit_add_one, Nat.testBit_add_one, Nat.testBit_add_one, hhalf]
    exact ih (v / 2) (mask / 2) Nat.and_le_left Nat.and_mod_two_eq_one

theorem dbit_dclearBits {mask i : Nat} (m : Mgmt) (h : mask.testBit i = true) : dbit (dclearBits k mask m) k i = false := by
  rw [dbit, dclearBits, dget_dset_self, testBit_sub_and, h]
  simp

theorem flowRestored_tells (hup : skourUp s.sys = true) {p : Nat × W64} (hp : s.sys.mgmt.cool.watch.stop = some p) :
    (100 < s.sys.mgmt.cool.watch.clear → ∃ t, exec .flowRestored s = .next t ∧ t.sys.mgmt.cool.watch.stop = none ∧
      t.sys.mgmt.power.throttles.flowStop = false ∧ dbit t.sys.mgmt Ent.coolantFlags 1 = false ∧ ¬ AlarmOn t 3) ∧
    (s.sys.mgmt.cool.watch.clear ≤ 100 → exec .flowRestored s = .next s) := by
  obtain ⟨det, began⟩ := p
  refine ⟨fun hclear => ⟨_, exec_flowRestored s, ?_⟩, fun hclear => ?_⟩
  · simp only [flowRestored, hp]
    rw [if_neg (by simp [hup, hclear])]
    refine ⟨?_, ?_, ?_, ?_⟩
    · rw [raiseEvent_reads Mgmt.cool, setThrottle_reads Mgmt.cool]
      simp [endAlarm, dclearBits]
    · rw [raiseEvent_reads (fun m => m.power.throttles.flowStop), setThrottle_reads (fun m => m.power.throttles.flowStop)]
    · rw [dbit_eq _ _ (getE_raiseEvent _ _ (by decide)), dbit_eq _ _ (getE_setThrottle ..)]
      exact dbit_dclearBits _ (by decide)
    · rw [AlarmOn, raiseEvent_reads (fun m => m.bus.alarms), setThrottle_reads (fun m => m.bus.alarms)]
      exact no_alarm_endAlarm 3 _
  · rw [exec_flowRestored, flowRestored, hp]
    dsimp only
    rw [if_pos (.inr hclear)]

/-! ### The thermal policy (R393 to R397) -/

theorem requestStep_cool (x : Module) : (requestStep x).mgmt.cool = x.mgmt.cool := requestStep_reads Mgmt.cool x

theorem setThermal_thermalStep (n : Nat) (x : Module) : (setThermal n x).mgmt.cool.thermalStep = min 12 n := by
  rw [setThermal, requestStep_cool, setE_cool]
  rfl

section
variable (hup : skourUp s.sys = true)
include hup

theorem thermalStep_rises {n m : Nat} (h : s.sys.mgmt.cool.clamp = some (n, m)) :
    (50 ≤ n → ∃ t, exec .thermalStepRise s = .next t ∧
      t.sys.mgmt.cool.thermalStep = min 12 (s.sys.mgmt.cool.thermalStep + 1)) ∧
    (n < 50 → exec .thermalStepRise s = .next s) := by
  refine ⟨fun hn => ⟨_, exec_thermalStepRise s, ?_⟩, fun hn => ?_⟩
  · simp only [thermalRise, h]
    rw [if_pos ⟨hn, hup⟩, setThermal_thermalStep]
  · rw [exec_thermalStepRise, thermalRise, h]
    dsimp only
    rw [if_neg fun h' => hn.not_ge h'.1]

theorem thermalThrottle_throttles {n m : Nat} (h : s.sys.mgmt.cool.clamp = some (n, m)) :
    (s.sys.mgmt.cool.thermalStep = 12 → 1000 < m → s.sys.mgmt.power.throttles.clamp = false →
      ∃ t, exec .thermalThrottle s = .next t ∧ t.sys.mgmt.power.throttles.clamp = true ∧
        (s.sys.data.on = true → t.sys.data.j1.throttle = true)) ∧
    (m ≤ 1000 → exec .thermalThrottle s = .next s) := by
  refine ⟨fun hstep hm hc => ⟨_, exec_thermalThrottle s, ?_⟩, fun hm => ?_⟩
  · simp only [thermalThrottle, h]
    rw [if_pos ⟨hstep, hm, by rw [hc]; rfl, hup⟩]
    refine ⟨?_, fun hon => ?_⟩
    · rw [raiseEvent_reads (fun m => m.power.throttles.clamp), setThrottle_reads (fun m => m.power.throttles.clamp)]
    · rw [raiseEvent_data, setThrottle_throttle _ hup hon]
      simp [throttleOn]
  · rw [exec_thermalThrottle, thermalThrottle, h]
    dsimp only
    rw [if_neg fun h' => hm.not_gt h'.2.1]

theorem thermalStep_lowers (h0 : 0 < s.sys.mgmt.cool.thermalStep) (h12 : s.sys.mgmt.cool.thermalStep ≤ 12)
    (hcool : 1000 < s.sys.mgmt.cool.coolFrames) :
    ∃ t, exec .thermalStepLower s = .next t ∧
      t.sys.mgmt.cool.thermalStep + 1 = s.sys.mgmt.cool.thermalStep ∧ t.sys.mgmt.power.throttles.clamp = false := by
  refine ⟨_, exec_thermalStepLower s, ?_⟩
  dsimp only
  rw [thermalLower, if_pos ⟨h0, hcool, hup⟩]
  refine ⟨?_, setThrottle_reads (fun m => m.power.throttles.clamp) ..⟩
  rw [setThrottle_reads (fun m => m.cool.thermalStep)]
  refine (congrArg (· + 1) (setThermal_thermalStep ..)).trans ?_
  omega

end

theorem converterOvertemp_faults {b : Fin 4} (h : getE s.sys (Ent.convState + b) = 1) :
    (10 < look 0 s.sys.mgmt.cool.convHot b → ∃ t, exec (.converterOvertemp b) s = .next t ∧
      getE t.sys (Ent.convState + b) ≠ 1) ∧
    (look 0 s.sys.mgmt.cool.convHot b ≤ 10 → exec (.converterOvertemp b) s = .next s) := by
  refine ⟨fun hhot => ?_, fun hcold => ?_⟩
  · obtain ⟨t, ht, hstate⟩ := converterFault_isolates b h
    refine ⟨t, ?_, ?_⟩
    · rw [exec_converterOvertemp, converterOvertemp, if_pos hhot, ← exec_converterFault, ht]
    · rw [hstate]
      split <;> decide
  · rw [exec_converterOvertemp, converterOvertemp, if_neg hcold.not_gt]

theorem dbit_inletOut {mask i : Nat} (told : Bool) (x : Module) (h : mask.testBit i = true) :
    dbit (inletOut mask told x).mgmt Ent.coolantFlags i = true := by
  rw [inletOut]
  dsimp only
  split
  · exact dbit_onMgmt_dsetBits x h
  · rw [dbit_eq _ _ (getE_raiseEvent _ _ (by decide))]
    exact dbit_onMgmt_dsetBits x h

/-- Flags that stand stand after others are set. -/
theorem dbit_inletOut_of_set {mask i : Nat} (told : Bool) (x : Module) (h : dbit x.mgmt Ent.coolantFlags i = true) :
    dbit (inletOut mask told x).mgmt Ent.coolantFlags i = true := by
  have hset : dbit (onMgmt (dsetBits Ent.coolantFlags mask) x).mgmt Ent.coolantFlags i = true := by
    rw [onMgmt_mgmt, dbit, dsetBits, dget_dset_self, Nat.testBit_or, ← dbit, h, Bool.true_or]
  rw [inletOut]
  dsimp only
  split
  · exact hset
  · rw [dbit_eq _ _ (getE_raiseEvent _ _ (by decide))]
    exact hset

theorem inletTemp_tells : (1000 < s.sys.mgmt.cool.inletHot → ∃ t, exec .inletTempOutOfRange s = .next t ∧
      dbit t.sys.mgmt Ent.coolantFlags 3 = true) ∧
    (1000 < s.sys.mgmt.cool.inletCold → ∃ t, exec .inletTempOutOfRange s = .next t ∧
      dbit t.sys.mgmt Ent.coolantFlags 4 = true) := by
  refine ⟨fun hhot => ⟨_, exec_inletTempOutOfRange s, ?_⟩, fun hcold => ⟨_, exec_inletTempOutOfRange s, ?_⟩⟩
  · rw [inletTemp, if_pos hhot]
    dsimp only
    split
    · exact dbit_inletOut_of_set _ _ (dbit_inletOut (mask := 8) (i := 3) _ s.sys (by decide))
    · exact dbit_inletOut (mask := 8) (i := 3) _ s.sys (by decide)
  · rw [inletTemp, if_pos hcold]
    dsimp only
    exact dbit_inletOut (mask := 16) (i := 4) _ _ (by decide)

/-- Settles O47: the coolant period, the flow's margin and stop, and the thermal policy, one lemma a command. -/
theorem flowSchedulesAndTemperatures : Obligations.FlowSchedulesAndTemperatures := by
  unfold Obligations.FlowSchedulesAndTemperatures
  refine ⟨fun s hup => ⟨coolantPeriodStart_primed hup, coolantPeriodStart_schedules hup, flowMarginEval_margins hup,
    exec_flowMarginEval_of_early, fun hstop => ⟨flowStop_stops hup hstop, flowStop_doubtsMeter hup hstop,
      exec_flowStop_of_flow hup hstop⟩, fun p hp => flowRestored_tells hup hp⟩,
    fun s hup => ⟨fun n m h => ?clamp, thermalStep_lowers hup, fun b hb => converterOvertemp_faults hb, inletTemp_tells⟩⟩
  case clamp =>
    obtain ⟨hrise, hstay⟩ := thermalStep_rises hup h
    obtain ⟨hthrottle, hcalm⟩ := thermalThrottle_throttles hup h
    exact ⟨hrise, hstay, hthrottle, hcalm⟩

end Sys2Proof.Machine
end

section
/-!
SUPPORT. What a conversion stores and what follows it leaves of the readings. Then the sensors, the pairs and the leak channels
(O48).
-/

namespace Sys2Proof.Machine

-- As in the tests: one proof at a time, so that the whole text keeps within the threads that the memory holds.
set_option Elab.async false

variable {s t : State} {x y : Module} {m : Mgmt} {k : Nat}

/-! ### What follows a conversion -/

/-- The readings as they stand, and their fault flags. -/
def Module.sensed (x : Module) : SMap Int × Nat × Nat := (x.mgmt.cool.tileRaw, x.mgmt.cool.flow, getE x Ent.tileSensorFaults)

theorem Module.sensed_ext (hc : y.mgmt.cool.tileRaw = x.mgmt.cool.tileRaw) (hf : y.mgmt.cool.flow = x.mgmt.cool.flow)
    (he : getE y Ent.tileSensorFaults = getE x Ent.tileSensorFaults) : y.sensed = x.sensed := by
  rw [sensed, hc, hf, he, ← sensed]

theorem Module.Driven.sensed (h : x.Driven y) : y.sensed = x.sensed :=
  Module.sensed_ext (h.reads (fun m => m.cool.tileRaw)) (h.reads (fun m => m.cool.flow)) (h.entries _ (by decide))

theorem raiseEvent_sensed {obj : Nat} (detail : List Byte) (x : Module) (h : Ent.tileSensorFaults ≠ obj) :
    (raiseEvent obj detail x).sensed = x.sensed :=
  Module.sensed_ext (raiseEvent_reads (fun m => m.cool.tileRaw) ..) (raiseEvent_reads (fun m => m.cool.flow) ..)
    (getE_raiseEvent detail x h)

theorem setE_sensed (v : Nat) (x : Module) (h : Ent.tileSensorFaults ≠ k) : (setE k v x).sensed = x.sensed :=
  Module.sensed_ext (by rw [setE_cool]) (by rw [setE_cool]) (getE_setE_of_ne v x h)

theorem markTile_sensed (ix : Nat) (bad : Bool) (x : Module) : (markTile ix bad x).sensed = x.sensed := by
  refine Module.sensed_ext ?_ ?_ (getE_markTile _ _ _ (by decide))
  all_goals
    unfold markTile
    dsimp only
    split
    · rfl
    · simp [note_reads Mgmt.cool, syncCapacity]

theorem noteUnobserved_sensed (x : Module) : (noteUnobserved x).sensed = x.sensed := by
  refine List.foldlRecOn (motive := fun y : Module => y.sensed = x.sensed) _ _ rfl fun y hy ix _ => ?_
  split
  · rw [raiseEvent_sensed _ _ (by decide), markTile_sensed]
    exact (setE_sensed (k := Ent.tileUnobserved) _ y (by decide)).trans hy
  · exact hy

theorem setThermal_sensed (n : Nat) (x : Module) : (setThermal n x).sensed = x.sensed := by
  rw [setThermal]
  refine Eq.trans ?_ (setE_sensed (k := Ent.thermalStep) (min 12 n) x (by decide))
  exact Module.sensed_ext ((requestStep_reads (fun m => m.cool.tileRaw) _).trans (by rw [setE_cool, setE_cool]; rfl))
    ((requestStep_reads (fun m => m.cool.flow) _).trans (by rw [setE_cool, setE_cool]; rfl))
    ((getE_requestStep _ (by decide)).trans (by rw [getE_setE_of_ne _ _ (by decide), getE_setE_of_ne _ _ (by decide)]; rfl))

theorem enterClamp_sensed (kind which : Nat) (reading : Int) (x : Module) :
    (enterClamp kind which reading x).sensed = x.sensed := by
  have hinc (y : Module) : (incE Ent.clampEvents y).sensed = y.sensed := setE_sensed _ y (by decide)
  have hclamp (y : Module) : (editCool (fun c => { c with clamp := some (0, 0) }) y).sensed = y.sensed := rfl
  rw [enterClamp, raiseEvent_sensed _ _ (by decide), hinc, hclamp, setThermal_sensed]

theorem checkClamp_sensed (x : Module) : (checkClamp x).sensed = x.sensed := by
  have hforced : ((hotTiles x).foldl (fun y ix =>
      let z := fieldZone (tileField ix)
      if (chanOf y z).force then y else forceZone z y) x).sensed = x.sensed :=
    (foldl_driven (fun y ix => ite_driven _ (.refl y) (forceZone_driven _ y)) _ x).sensed
  unfold checkClamp
  extract_lets ts ss x1
  have h1 : x1.sensed = x.sensed := hforced
  split
  · exact (enterClamp_sensed ..).trans h1
  · exact (enterClamp_sensed ..).trans h1
  · exact h1
  · exact h1

theorem convert_sensed (rs : List (SensorId × Reading)) (h : x.mgmt.service.testBit 3 = true) : (convert rs x).sensed =
    (onMgmt (fun m => rs.foldl (fun m r => storeReading r.1 r.2 m) m) x).sensed := by
  unfold convert
  rw [if_neg (by simp [h])]
  extract_lets x1 tile stack flow meterBad x2 x3 x4 blind x5
  have h2 : x2.sensed = x1.sensed := by
    refine ite_reads Module.sensed _ ?_ rfl
    exact (raiseEvent_sensed _ _ (by decide)).trans (setE_sensed (k := Ent.coolantFlags) _ x1 (by decide))
  have h3 : x3.sensed = x1.sensed := by
    refine Eq.trans ?_ (ite_reads Module.sensed (tile = true) ((noteUnobserved_sensed x2).trans h2) h2)
    exact ite_reads Module.sensed _ rfl rfl
  have h4 : x4.sensed = x1.sensed := ite_reads Module.sensed _ ((checkClamp_sensed x3).trans h3) h3
  have h5 : x5.sensed = x1.sensed := ite_reads Module.sensed _ h4 h4
  exact ite_reads Module.sensed _ h5 h5

/-! ### A conversion (R377) -/

section
variable (hfed : s.sys.mgmt.service.testBit 3 = true)
include hfed

theorem sensorConversion_storesTile (n : Fin 2560) (v : Int) : ∃ t, exec (.sensorConversion [(.tile n, .ok v)]) s = .next t ∧
    look 0 t.sys.mgmt.cool.tileRaw n = v := by
  have hraw := congrArg Prod.fst (convert_sensed [(.tile n, .ok v)] hfed)
  refine ⟨_, exec_sensorConversion s _, ?_⟩
  exact (congrArg (fun m => look 0 m n.val) hraw).trans (look_put_self ..)

theorem sensorConversion_faultsTile (n : Fin 2560) : ∃ t, exec (.sensorConversion [(.tile n, .bad)]) s = .next t ∧
    dbit t.sys.mgmt Ent.tileSensorFaults n = true ∧ usable t.sys.mgmt (.tile n) = false := by
  have hflags := congrArg (fun p => p.2.2) (convert_sensed [(.tile n, .bad)] hfed)
  have hset : dbit (convert [(.tile n, .bad)] s.sys).mgmt Ent.tileSensorFaults n = true := by
    refine (dbit_eq _ _ hflags n).trans ?_
    exact dbit_dsetBits Nat.testBit_two_pow_self
  refine ⟨_, exec_sensorConversion s _, hset, ?_⟩
  unfold usable
  rw [show dbit _ (faultEntry (.tile n)) (otherBit (.tile n)) = true from hset]
  rfl

theorem sensorConversion_storesFlow (v : Nat) : ∃ t, exec (.sensorConversion [(.meter, .ok v)]) s = .next t ∧
    t.sys.mgmt.cool.flow = v :=
  ⟨_, exec_sensorConversion s _, congrArg (fun p => p.2.1) (convert_sensed [(.meter, .ok v)] hfed)⟩

end

theorem exec_sensorConversion_of_unfed (h : s.sys.mgmt.service.testBit 3 = false) (rs : List (SensorId × Reading)) :
    exec (.sensorConversion rs) s = .next s := by
  rw [exec_sensorConversion, convert, if_pos (by rw [h]; rfl)]

/-! ### Pairs (R379, R380) -/

theorem mem_insertKey_self {α : Type} (m : SMap α) (n : Nat) (v : α) : (n, v) ∈ insertKey m n v := by
  induction m with
  | nil => exact List.mem_singleton_self _
  | cons p m ih =>
    obtain ⟨j, w⟩ := p
    rw [insertKey]
    split
    · exact List.mem_cons_self
    · split
      · exact List.mem_cons_self
      · exact List.mem_cons_of_mem _ ih

theorem pairDisagree_disagrees {ix : TileIx} (hin : ∀ p ∈ s.sys.mgmt.cool.inDis, p.1 ≠ ix.val)
    (hs : dbit s.sys.mgmt Ent.pairSuspect ix = false) :
    (10 < look 0 s.sys.mgmt.cool.apart ix → ∃ t, exec (.pairDisagree ix) s = .next t ∧
      dbit t.sys.mgmt Ent.pairDisagree ix = true ∧ ∃ p ∈ t.sys.mgmt.cool.inDis, p.1 = ix.val) ∧
    (look 0 s.sys.mgmt.cool.apart ix ≤ 10 → exec (.pairDisagree ix) s = .next s) := by
  have hout : inDisagreement s.sys.mgmt ix = false := by
    rw [inDisagreement, hs, Bool.or_false, List.any_eq_false]
    exact fun p hp h => hin p hp (eq_of_beq h)
  refine ⟨fun hfar => ⟨_, exec_pairDisagree s ix, ?_⟩, fun hnear => ?_⟩
  · dsimp only
    rw [pairDisagree, if_neg (by simp [hfar, hout])]
    refine ⟨?_, (ix.val, 0), ?_, rfl⟩
    · rw [dbit_eq _ _ (getE_raiseEvent _ _ (by decide))]
      exact dbit_onMgmt_dsetBits _ Nat.testBit_two_pow_self
    · rw [raiseEvent_reads (fun m => m.cool.inDis), onMgmt_mgmt, dsetBits, dset_cool]
      exact mem_insertKey_self ..
  · rw [exec_pairDisagree, pairDisagree, if_pos (.inl hnear)]

theorem pairSuspect_suspects {ix : TileIx} (hlong : 1000 < look 0 s.sys.mgmt.cool.inDis ix)
    (hs : dbit s.sys.mgmt Ent.pairSuspect ix = false) :
    ∃ t, exec (.pairSuspect ix) s = .next t ∧ dbit t.sys.mgmt Ent.pairSuspect ix = true := by
  refine ⟨_, exec_pairSuspect s ix, ?_⟩
  dsimp only
  rw [pairSuspect, if_neg (by simp [hlong, hs]), dbit_eq _ _ (getE_raiseEvent _ _ (by decide))]
  exact dbit_onMgmt_dsetBits _ Nat.testBit_two_pow_self

theorem pairAgree_agrees {ix : TileIx} (hlong : 1000 < look 0 s.sys.mgmt.cool.agree ix)
    (hs : dbit s.sys.mgmt Ent.pairSuspect ix = false) :
    ∃ t, exec (.pairAgree ix) s = .next t ∧ ∀ p ∈ t.sys.mgmt.cool.inDis, p.1 ≠ ix.val := by
  refine ⟨_, exec_pairAgree s ix, fun p hp => ?_⟩
  dsimp only at hp
  rw [pairAgree, if_neg (by simp [hlong, hs])] at hp
  exact of_decide_eq_true (List.mem_filter.1 hp).2

theorem exec_pairAgree_of_suspect {ix : TileIx} (hs : dbit s.sys.mgmt Ent.pairSuspect ix = true) :
    exec (.pairAgree ix) s = .next s := by
  rw [exec_pairAgree, pairAgree, if_pos (.inr hs)]

/-! ### Leak channels (R398) -/

/-- One of Sill's two leak channels. -/
def leakOf (b : Bool) (l : Sill) : LeakChan := if b then l.leakB else l.leakA

theorem leakSample_leakOf (b : Bool) (g : Nat) (hon : x.sill.on = true) : leakOf b (leakSample b g x).sill =
    leakStep (getSnap 10 x Ent.leakThreshold) g (leakOf b x.sill) := by
  unfold leakSample
  rw [if_neg (by simp [hon])]
  extract_lets c0 c x1 x2 x3
  have h3 : x3.sill = x1.sill := ite_reads Module.sill _ rfl rfl
  rw [setE_sill, h3]
  cases b with
  | true => rfl
  | false => rfl

theorem leakSample_counts (b : Bool) (hon : s.sys.sill.on = true) (g : Nat) : ∃ t, exec (.leakSample b g) s = .next t ∧
    (leakOf b t.sys.sill).g = g ∧
      (getSnap 10 s.sys Ent.leakThreshold ≤ mkRat g 10 → (leakOf b t.sys.sill).high = (leakOf b s.sys.sill).high + 1 ∧
        (9 ≤ (leakOf b s.sys.sill).high → (leakOf b t.sys.sill).confirmed = true)) ∧
      (mkRat g 10 < getSnap 10 s.sys Ent.leakThreshold → (leakOf b t.sys.sill).high = 0 ∧
        (leakOf b t.sys.sill).confirmed = (leakOf b s.sys.sill).confirmed) := by
  refine ⟨_, exec_leakSample s b g, ?_⟩
  dsimp only
  rw [leakSample_leakOf b g hon]
  generalize leakOf b s.sys.sill = c
  refine ⟨rfl, fun hhigh => ?_, fun hlow => ?_⟩
  · simp only [leakStep, if_pos hhigh]
    exact ⟨trivial, fun h9 => by simp [h9]⟩
  · simp only [leakStep, if_neg hlow.not_ge]
    exact ⟨trivial, by simp⟩

theorem leakChannelFault_faults (b : Bool) (hon : s.sys.sill.on = true) (hf : (leakOf b s.sys.sill).faulted = false) :
    (100 < (leakOf b s.sys.sill).low → ∃ t, exec (.leakChannelFault b) s = .next t ∧ (leakOf b t.sys.sill).faulted = true) ∧
    ((leakOf b s.sys.sill).low ≤ 100 → exec (.leakChannelFault b) s = .next s) := by
  refine ⟨fun hlow => ⟨_, exec_leakChannelFault s b, ?_⟩, fun hlow => ?_⟩
  · have hgo : ¬ ((!s.sys.sill.on) = true ∨ (leakOf b s.sys.sill).faulted = true ∨ (leakOf b s.sys.sill).low ≤ 100) := by
      simp [hon, hf, hlow]
    rw [leakFault]
    refine (congrArg (fun y : Module => (leakOf b y.sill).faulted) (if_neg hgo)).trans ?_
    refine ((raiseEvent_sameBut ..).reads (fun l => (leakOf b l).faulted) ?_).trans ?_
    · intro l c
      cases b <;> rfl
    · cases b with
      | true => rfl
      | false => rfl
  · have hstay : (!s.sys.sill.on) = true ∨ (leakOf b s.sys.sill).faulted = true ∨ (leakOf b s.sys.sill).low ≤ 100 :=
      .inr (.inr hlow)
    rw [exec_leakChannelFault, leakFault]
    exact congrArg (fun y => Host.Outcome.next { s with sys := y }) (if_pos hstay)

/-- Settles O48: a conversion leaves what it stored; the pairs and the leak channels by their counts. -/
theorem sensorsPairsAndLeakChannels : Obligations.SensorsPairsAndLeakChannels := by
  unfold Obligations.SensorsPairsAndLeakChannels
  refine ⟨fun s => ⟨fun hfed => ⟨sensorConversion_storesTile hfed, sensorConversion_faultsTile hfed,
    sensorConversion_storesFlow hfed⟩, exec_sensorConversion_of_unfed, fun ix => ⟨pairDisagree_disagrees,
    pairSuspect_suspects, pairAgree_agrees, exec_pairAgree_of_suspect⟩⟩,
    fun s b hon => ⟨leakSample_counts b hon, leakChannelFault_faults b hon⟩⟩

end Sys2Proof.Machine
end

section
/-!
SUPPORT. A pull-in asked for in a bank that is free or busy, what an edit of a channel leaves of its bank, and what a valve fault
leaves. Then the valve channels and the zones (O49).
-/

namespace Sys2Proof.Machine

-- As in the tests: one proof at a time, so that the whole text keeps within the threads that the memory holds.
set_option Elab.async false

variable {s t : State} {x y : Module} {c n : Nat}

/-! ### Banks and channels -/

/-- An edit that leaves the channels' phases leaves the bank's pull-ins. -/
theorem bankBusy_congr (h : ∀ n, (chanOf y n).st = (chanOf x n).st) (b : Nat) : bankBusy y b = bankBusy x b := by
  unfold bankBusy
  simp only [h]

theorem isoDriven_congr (h : ∀ n, (chanOf y n).st = (chanOf x n).st) : isoDriven y = isoDriven x := by
  unfold isoDriven
  simp only [h]

/-- A channel's bank is powered, and nothing holds the tray valve back (R409, R420). -/
def pullAllowed (x : Module) (c : Nat) : Bool := bankOn x (bankOf c) && !(profile1 x && c == 19 && isoDriven x)

theorem pullAllowed_editChan {f : Chan → Chan} (hf : ∀ k, (f k).st = k.st) (c n : Nat) (x : Module) :
    pullAllowed (editChan c f x) n = pullAllowed x n := by
  rw [pullAllowed, isoDriven_congr fun i => chanOf_editChan_reads (rd := Chan.st) hf c i x]
  rfl

theorem bankBusy_editChan {f : Chan → Chan} (hf : ∀ k, (f k).st = k.st) (c b : Nat) (x : Module) :
    bankBusy (editChan c f x) b = bankBusy x b :=
  bankBusy_congr (fun i => chanOf_editChan_reads (rd := Chan.st) hf c i x) b

theorem requestPull_of_allowed (h : pullAllowed x c = true) : requestPull c x =
    if bankBusy x (bankOf c) = true then
      editAct (fun a => { a with waiting := upd [] a.waiting (bankOf c) (· ++ [c]) })
        (editChan c (fun k => { k with st := .deferred })
          (onMgmt (fun m => dinc Ent.deferrals (dsetBits Ent.deferredFlags (2 ^ c) m)) x))
    else beginPull c x := by
  have h' : ¬ ((!bankOn x (bankOf c)) = true ∨ profile1 x = true ∧ c = 19 ∧ isoDriven x = true) := by
    rw [pullAllowed] at h
    rintro (hoff | ⟨hp, rfl, hi⟩)
    · simp_all
    · simp_all
  unfold requestPull
  exact if_neg h'

/-- A pull-in in a free bank starts (R409). -/
theorem requestPull_pulls (h : pullAllowed x c = true) (hb : bankBusy x (bankOf c) = false) :
    ∃ p, chanOf (requestPull c x) c = { chanOf x c with st := .pull, before := p } := by
  rw [requestPull_of_allowed h, hb, if_neg Bool.false_ne_true]
  exact ⟨_, chanOf_editChan_self ..⟩

theorem dbit_deferredFlags (c : Nat) (m : Mgmt) :
    dbit (dinc Ent.deferrals (dsetBits Ent.deferredFlags (2 ^ c) m)) Ent.deferredFlags c = true := by
  rw [dinc, dbit_eq _ _ (dget_dset_of_ne _ _ (by decide))]
  exact dbit_dsetBits Nat.testBit_two_pow_self

/-- A pull-in in a busy bank waits behind those that wait (R409). -/
theorem requestPull_waits (h : pullAllowed x c = true) (hb : bankBusy x (bankOf c) = true) :
    (chanOf (requestPull c x) c).st = .deferred ∧
    look [] (requestPull c x).mgmt.act.waiting (bankOf c) = look [] x.mgmt.act.waiting (bankOf c) ++ [c] ∧
    dbit (requestPull c x).mgmt Ent.deferredFlags c = true := by
  rw [requestPull_of_allowed h, hb, if_pos rfl]
  refine ⟨?_, ?_, ?_⟩
  · rw [chanOf_editWaiting, chanOf_editChan_self]
  · simp [editChan, dinc, dsetBits]
  · have hdict (f : Act → Act) (g : Chan → Chan) (y : Module) :
        dbit (editAct f (editChan c g y)).mgmt Ent.deferredFlags c = dbit y.mgmt Ent.deferredFlags c := rfl
    rw [hdict]
    exact dbit_deferredFlags c x.mgmt

/-! ### Valve faults (R417) -/

theorem syncValveThrottle_reads {α : Type} (rd : Mgmt → α) (x : Module) (h : OutFree rd := by intro _ _; rfl)
    (ht : ∀ m v, rd { m with power := { m.power with throttles := v } } = rd m := by intro _ _; rfl) :
    rd (syncValveThrottle x).mgmt = rd x.mgmt := by
  unfold syncValveThrottle
  dsimp only
  split
  · rfl
  · exact (setThrottle_reads rd _ x h).trans (ht x.mgmt _)

theorem getE_syncValveThrottle {k : Nat} (x : Module) : getE (syncValveThrottle x) k = getE x k := by
  unfold syncValveThrottle
  dsimp only
  split
  · rfl
  · exact getE_setThrottle ..

theorem dbit_setByte {k j b : Nat} (i v : Nat) (m : Mgmt) (h : k ≠ j) : dbit (setByte j i v m) k b = dbit m k b :=
  dbit_eq _ _ (dget_dset_of_ne _ m h) b

/-- A fault of a valve: its channel has failed and waits no more, its flag stands. -/
theorem valveFault_faults (c cause : Nat) (x : Module) : (chanOf (valveFault c cause x) c).st = .faulted ∧
    c ∉ look [] (valveFault c cause x).mgmt.act.waiting (bankOf c) ∧
    dbit (valveFault c cause x).mgmt Ent.valveFaults c = true := by
  unfold valveFault
  extract_lets y dead x1 x2 x3
  have hact3 : x3.mgmt.act = x1.mgmt.act := by
    refine ite_reads (fun z => z.mgmt.act) _ ?_ ?_
    all_goals simp [x2, setByte, dsetBits]
  have hchans := (raiseEvent_reads (fun m => m.act.chans) 0x60FF01 (natLe 1 c ++ natLe 1 cause) (syncValveThrottle x3)).trans
    ((syncValveThrottle_reads (fun m => m.act.chans) x3).trans (congrArg Act.chans hact3))
  have hwaiting := (raiseEvent_reads (fun m => m.act.waiting) 0x60FF01 (natLe 1 c ++ natLe 1 cause) (syncValveThrottle x3)).trans
    ((syncValveThrottle_reads (fun m => m.act.waiting) x3).trans (congrArg Act.waiting hact3))
  refine ⟨?_, ?_, ?_⟩
  · rw [chanOf, hchans]
    exact congrArg Chan.st (chanOf_editChan_self c (fun k => { dead with
      st := .faulted, window := k.window, force := k.force }) y)
  · rw [hwaiting]
    have hleft : look [] x1.mgmt.act.waiting (bankOf c) = (look [] x.mgmt.act.waiting (bankOf c)).filter (· ≠ c) :=
      look_upd_self ..
    rw [hleft]
    exact fun h => of_decide_eq_true (List.mem_filter.1 h).2 rfl
  · rw [dbit_eq _ _ (getE_raiseEvent _ _ (by decide)), dbit_eq _ _ (getE_syncValveThrottle _)]
    have hflag2 : dbit x2.mgmt Ent.valveFaults c = true := by
      refine (dbit_setByte c cause (dsetBits Ent.valveFaults (2 ^ c) x1.mgmt) (by decide)).trans ?_
      exact dbit_dsetBits Nat.testBit_two_pow_self
    exact ite_reads (fun z => dbit z.mgmt Ent.valveFaults c) _ ((dbit_setE _ (by decide)).trans hflag2) hflag2

/-- The bank's next pull-in is not of a channel that does not wait. -/
theorem startNext_chanOf {b : Nat} (h : c ∉ look [] x.mgmt.act.waiting b) : chanOf (startNext b x) c = chanOf x c := by
  unfold startNext
  split
  case h_1 i rest hw =>
    split
    · rfl
    · have hne : c ≠ i := fun he => h (hw ▸ he ▸ List.mem_cons_self)
      exact chanOf_editChan_of_ne _ _ hne
  case h_2 => rfl

theorem getE_startNext {k : Nat} (b : Nat) (x : Module) : getE (startNext b x) k = getE x k := by
  unfold startNext
  split
  · split <;> rfl
  · rfl

/-- A faulted channel whose bank goes on. -/
theorem startNext_valveFault (c cause : Nat) (x : Module) :
    (chanOf (startNext (bankOf c) (valveFault c cause x)) c).st = .faulted ∧
    dbit (startNext (bankOf c) (valveFault c cause x)).mgmt Ent.valveFaults c = true := by
  obtain ⟨hst, hwait, hflag⟩ := valveFault_faults c cause x
  exact ⟨(congrArg Chan.st (startNext_chanOf hwait)).trans hst, (dbit_eq _ _ (getE_startNext ..) c).trans hflag⟩

/-! ### The valve channels (R406 to R411, R419, R420) -/

/-- The channel that a channel's commands are about is its own. -/
theorem chanKey_chanKey (x : Module) (c : Nat) : chanKey x (chanKey x c) = chanKey x c := by
  unfold chanKey
  split
  · rw [if_neg fun h => absurd h.2 (by decide)]
  · rfl

/-- The tray valve's pair has twice the limits of a valve (R419). -/
theorem pairLimit (k lo hi : Nat) : (if profile1 s.sys = true ∧ (k = 18 ∨ k = 19) then hi else lo) =
    if (profile1 s.sys && (k == 18 || k == 19)) = true then hi else lo := by
  congr 1
  simp

section
variable {c : Fin 20} {k : Nat} (hk : chanKey s.sys c = k)
include hk

theorem pullinStart_asks (hst : (chanIn s k).st = .off) (hfree : pullAllowed s.sys k = true) :
    (bankBusy s.sys (bankOf k) = false → ∃ t, exec (.pullinStart c) s = .next t ∧ (chanIn t k).st = .pull) ∧
    (bankBusy s.sys (bankOf k) = true → ∃ t, exec (.pullinStart c) s = .next t ∧ (chanIn t k).st = .deferred ∧
      look [] t.sys.mgmt.act.waiting (bankOf k) = look [] s.sys.mgmt.act.waiting (bankOf k) ++ [k] ∧
      dbit t.sys.mgmt Ent.deferredFlags k = true) := by
  have hx : pullinStart k s.sys = requestPull k
      (editChan k (fun k => { k with window := true, second := false, again := false }) s.sys) := by
    rw [pullinStart, show (chanOf s.sys k).st = .off from hst]
  have hallow := (pullAllowed_editChan (f := fun k => { k with window := true, second := false, again := false })
    (fun _ => rfl) k k s.sys).trans hfree
  have hbusy := bankBusy_editChan (f := fun k => { k with window := true, second := false, again := false })
    (fun _ => rfl) k (bankOf k) s.sys
  rw [exec_pullinStart, hk, hx]
  refine ⟨fun hb => ⟨_, rfl, ?_⟩, fun hb => ⟨_, rfl, ?_⟩⟩
  · obtain ⟨p, hp⟩ := requestPull_pulls hallow (hbusy.trans hb)
    rw [chanIn, hp]
  · exact requestPull_waits hallow (hbusy.trans hb)

theorem pullinRegulationEnd_decays (hst : (chanIn s k).st = .pull) :
    ∃ t, exec (.pullinRegulationEnd c) s = .next t ∧ (chanIn t k).st = .decay true := by
  refine ⟨_, exec_pullinRegulationEnd s c, ?_⟩
  rw [hk, regulationEnd, show (chanOf s.sys k).st = .pull from hst]
  exact congrArg Chan.st (chanOf_editChan_self ..)

theorem openCoilCheck_checks (hst : (chanIn s k).st = .pull) (hre : (chanIn s k).retest = false) (ma : Nat) :
    (ma < (if (profile1 s.sys && (k == 18 || k == 19)) = true then 1000 else 500) →
      ∃ t, exec (.openCoilCheck c ma) s = .next t ∧ (chanIn t k).st = .faulted ∧
        dbit t.sys.mgmt Ent.valveFaults k = true) ∧
    ((if (profile1 s.sys && (k == 18 || k == 19)) = true then 1000 else 500) ≤ ma →
      exec (.openCoilCheck c ma) s = .next s) := by
  have hkey : chanKey s.sys k = k := hk ▸ chanKey_chanKey s.sys c
  have hx : openCoil k ma s.sys = if ma < (if (profile1 s.sys && (k == 18 || k == 19)) = true then 1000 else 500) then
      startNext (bankOf k) (valveFault k 2 s.sys) else s.sys := by
    rw [openCoil, show (chanOf s.sys k).st = .pull from hst, show (chanOf s.sys k).retest = false from hre, hkey,
      pairLimit]
    rfl
  rw [exec_openCoilCheck, hk, hx]
  refine ⟨fun hlow => ⟨_, rfl, ?_⟩, fun hfine => ?_⟩
  · rw [if_pos hlow]
    exact startNext_valveFault k 2 s.sys
  · rw [if_neg hfine.not_gt]

theorem coilShort_checks (hst : (chanIn s k).st = .pull) (hre : (chanIn s k).retest = false) (ma : Nat) :
    ((if (profile1 s.sys && (k == 18 || k == 19)) = true then 12000 else 6000) < ma →
      ∃ t, exec (.coilShort c ma) s = .next t ∧ (chanIn t k).st = .faulted ∧
        dbit t.sys.mgmt Ent.valveFaults k = true) ∧
    (ma ≤ (if (profile1 s.sys && (k == 18 || k == 19)) = true then 12000 else 6000) →
      exec (.coilShort c ma) s = .next s) := by
  have hkey : chanKey s.sys k = k := hk ▸ chanKey_chanKey s.sys c
  have hx : coilShort k ma s.sys = if ma ≤ (if (profile1 s.sys && (k == 18 || k == 19)) = true then 12000 else 6000) then
      s.sys else startNext (bankOf k) (valveFault k 3 s.sys) := by
    rw [coilShort, show (chanOf s.sys k).st = .pull from hst, show (chanOf s.sys k).retest = false from hre, hkey,
      pairLimit]
    simp
  rw [exec_coilShort, hk, hx]
  refine ⟨fun hhigh => ⟨_, rfl, ?_⟩, fun hfine => ?_⟩
  · rw [if_neg hhigh.not_ge]
    exact startNext_valveFault k 3 s.sys
  · rw [if_pos hfine]

theorem fastDecayEnd_holds (hst : (chanIn s k).st = .decay true) (hre : (chanIn s k).retest = false)
    (hw : look [] s.sys.mgmt.act.waiting (bankOf k) = []) (samples : List Nat) :
    (dipSeen s.sys k samples = true → ∃ t, exec (.fastDecayEnd c samples) s = .next t ∧ (chanIn t k).st = .hold) ∧
    (dipSeen s.sys k samples = false → (chanIn s k).second = false →
      ∃ t, exec (.fastDecayEnd c samples) s = .next t ∧ (chanIn t k).st = .decay false ∧ (chanIn t k).again = true) ∧
    (dipSeen s.sys k samples = false → (chanIn s k).second = true → k < 16 →
      ∃ t, exec (.fastDecayEnd c samples) s = .next t ∧ (chanIn t k).st = .hold ∧ (chanIn t k).cross = true) := by
  have hrest (f : Chan → Chan) : startNext (bankOf k) (editChan k f s.sys) = editChan k f s.sys := by
    rw [startNext, show look [] (editChan k f s.sys).mgmt.act.waiting (bankOf k) = [] from hw]
  have hre' : (chanOf s.sys k).retest = false := hre
  have hx : decayEnd k samples s.sys = startNext (bankOf k) (pullEnded k (dipSeen s.sys k samples) s.sys) := by
    rw [decayEnd, show (chanOf s.sys k).st = .decay true from hst]
  rw [exec_fastDecayEnd, hk, hx]
  refine ⟨fun hd => ⟨_, rfl, ?_⟩, fun hd h2 => ⟨_, rfl, ?_⟩, fun hd h2 hz => ⟨_, rfl, ?_⟩⟩
  · rw [pullEnded, hd, hre', if_pos rfl, if_neg Bool.false_ne_true, hrest]
    exact congrArg Chan.st (chanOf_editChan_self ..)
  · rw [pullEnded, hd, hre', show (chanOf s.sys k).second = false from h2, if_neg Bool.false_ne_true,
      if_neg Bool.false_ne_true, if_pos (show (!false) = true from rfl), hrest]
    rw [chanIn, chanOf_editChan_self]
    exact ⟨rfl, rfl⟩
  · rw [pullEnded, hd, hre', show (chanOf s.sys k).second = true from h2, if_neg Bool.false_ne_true,
      if_neg Bool.false_ne_true, if_neg (by decide), if_pos hz, hrest]
    rw [chanIn, chanOf_editChan_self]
    exact ⟨rfl, rfl⟩

theorem fastDecayEnd_ends (hst : (chanIn s k).st = .decay false) (samples : List Nat) :
    ∃ t, exec (.fastDecayEnd c samples) s = .next t ∧ (chanIn t k).st = .off := by
  refine ⟨_, exec_fastDecayEnd s c samples, ?_⟩
  rw [hk, decayEnd, show (chanOf s.sys k).st = .decay false from hst]
  exact congrArg Chan.st (chanOf_editChan_self ..)

theorem movementRetry_pulls (ha : (chanIn s k).again = true) (hst : (chanIn s k).st = .off)
    (hfree : pullAllowed s.sys k = true) (hb : bankBusy s.sys (bankOf k) = false) :
    ∃ t, exec (.movementRetry c) s = .next t ∧ (chanIn t k).st = .pull ∧ (chanIn t k).second = true ∧
      (chanIn t k).again = false := by
  have hallow := (pullAllowed_editChan (f := fun k => { k with again := false, second := true })
    (fun _ => rfl) k k s.sys).trans hfree
  have hbusy := (bankBusy_editChan (f := fun k => { k with again := false, second := true })
    (fun _ => rfl) k (bankOf k) s.sys).trans hb
  obtain ⟨p, hp⟩ := requestPull_pulls hallow hbusy
  refine ⟨_, exec_movementRetry s c, ?_⟩
  rw [hk, movementRetry, if_pos ⟨ha, hst⟩, chanIn, hp, chanOf_editChan_self]
  exact ⟨rfl, rfl, rfl⟩

theorem movementCrossCheck_judges (hc : (chanIn s k).cross = true) (hre : (chanIn s k).retest = false) :
    (dpUsable s.sys k = true → dpOpen s.sys ≤ dpFall s.sys k → ∃ t, exec (.movementCrossCheck c) s = .next t ∧
      (chanIn t k).cross = false ∧ (chanIn t k).st = (chanIn s k).st) ∧
    (dpUsable s.sys k = false ∨ dpFall s.sys k < dpOpen s.sys → ∃ t, exec (.movementCrossCheck c) s = .next t ∧
      (chanIn t k).st = .faulted ∧ dbit t.sys.mgmt Ent.valveFaults k = true) := by
  have hc' : (chanOf s.sys k).cross = true := hc
  have hre' : (chanOf s.sys k).retest = false := hre
  rw [exec_movementCrossCheck, hk]
  unfold crossCheck
  refine ⟨fun hu hfar => ⟨_, rfl, ?_⟩, fun hno => ⟨_, rfl, ?_⟩⟩
  · dsimp only
    rw [if_neg (by simp [hc']), if_pos ⟨hu, hfar⟩, hre', if_neg Bool.false_ne_true, chanIn, chanOf_editChan_self]
    have hsame (detail : List Byte) : chanOf (raiseEvent 0x60FF03 detail (incE Ent.dipMissing s.sys)) k = chanOf s.sys k :=
      chanOf_congr (by rw [raiseEvent_reads (fun m => m.act.chans), incE_act]) k
    rw [hsame]
    exact ⟨rfl, rfl⟩
  · have hnot : ¬ (dpUsable s.sys k = true ∧ dpOpen s.sys ≤ dpFall s.sys k) := by
      rintro ⟨hu, hfar⟩
      rcases hno with h | h
      · exact absurd (hu.symm.trans h) (by decide)
      · exact h.not_ge hfar
    dsimp only
    rw [if_neg (by simp [hc']), if_neg hnot, hre', if_neg Bool.false_ne_true]
    obtain ⟨hst, -, hflag⟩ := valveFault_faults k 1 s.sys
    exact ⟨hst, hflag⟩

end

/-! ### The zones' windows (R412 to R417) -/

section
variable {z : ZoneIx}

theorem pullAllowed_of_zone (h : bankOn s.sys (bankOf z) = true) : pullAllowed s.sys z = true := by
  have hne : z.val ≠ 19 := by omega
  simp [pullAllowed, h, hne]

theorem zoneWindowStart_opens (hon : actOn s.sys = true) (hd : 0 < dutyOf s.sys z) (hst : (chanIn s z).st = .off)
    (hbank : bankOn s.sys (bankOf z) = true) (hb : bankBusy s.sys (bankOf z) = false) :
    ∃ t, exec (.zoneWindowStart z) s = .next t ∧ (chanIn t z).st = .pull ∧
      (chanIn t z).window = true ∧ (chanIn t z).duty = dutyOf s.sys z := by
  have hst' : (chanOf s.sys z).st = .off := hst
  refine ⟨_, exec_zoneWindowStart s z, ?_⟩
  unfold windowStart
  extract_lets k d x1
  rw [if_neg (by simp [hon, k, hst']), if_neg hd.ne', show k.st = .off from hst']
  have hallow : pullAllowed (editChan z (fun k => { k with second := false, again := false }) x1) z = true := by
    rw [pullAllowed_editChan (f := fun k => { k with second := false, again := false }) fun _ => rfl]
    exact (pullAllowed_editChan (f := fun k => { k with window := true, duty := d, check := false }) (fun _ => rfl) z z s.sys).trans
      (pullAllowed_of_zone hbank)
  have hbusy : bankBusy (editChan z (fun k => { k with second := false, again := false }) x1) (bankOf z) = false := by
    rw [bankBusy_editChan (f := fun k => { k with second := false, again := false }) fun _ => rfl]
    exact (bankBusy_editChan (f := fun k => { k with window := true, duty := d, check := false }) (fun _ => rfl) z (bankOf z)
      s.sys).trans hb
  obtain ⟨p, hp⟩ := requestPull_pulls hallow hbusy
  rw [chanIn, hp, chanOf_editChan_self, chanOf_editChan_self]
  exact ⟨rfl, rfl, rfl⟩

theorem zoneWindowEnd_closes (hw : (chanIn s z).window = true) (hf : (chanIn s z).force = false)
    (hre : (chanIn s z).retest = false) (hd : (chanIn s z).duty < 97 ∨ dutyOf s.sys z = 0) (hst : (chanIn s z).st = .hold) :
    ∃ t, exec (.zoneWindowEnd z) s = .next t ∧ (chanIn t z).st = .decay false ∧ (chanIn t z).window = false ∧
      (chanIn t z).check = true := by
  have hends : ¬ ((!(chanOf s.sys z).window) = true ∨ (chanOf s.sys z).force = true ∨
      97 ≤ (chanOf s.sys z).duty ∧ 0 < dutyOf s.sys z) := by
    rw [chanIn] at hw hf hd
    rw [hw, hf]
    rintro (h | h | ⟨h97, hpos⟩)
    · exact absurd h (by decide)
    · exact absurd h (by decide)
    · rcases hd with h | h
      · exact h.not_ge h97
      · exact hpos.ne' h
  refine ⟨_, exec_zoneWindowEnd s z, ?_⟩
  unfold windowEnd
  dsimp only
  rw [if_neg hends, turnOff, show (chanOf s.sys z).retest = false from hre, if_neg Bool.false_ne_true,
    show (chanOf s.sys z).st = .hold from hst, chanIn, chanOf_editChan_self]
  exact ⟨rfl, rfl, rfl⟩

theorem exec_zoneWindowEnd_of_stands (h : (chanIn s z).force = true ∨ 97 ≤ (chanIn s z).duty ∧ 0 < dutyOf s.sys z) :
    exec (.zoneWindowEnd z) s = .next s := by
  rw [exec_zoneWindowEnd, windowEnd]
  rw [if_pos (.inr h)]

theorem stuckOpenCheck_checks (hc : (chanIn s z).check = true) (hst : (chanIn s z).st = .off) :
    ∃ t, exec (.stuckOpenCheck z) s = .next t ∧ (chanIn t z).check = false ∧
      (dpUsable s.sys z = true → dpOpen s.sys < dpFall s.sys z → dbit t.sys.mgmt Ent.stuckOpen z = true) ∧
      (dpUsable s.sys z = false ∨ dpFall s.sys z ≤ dpOpen s.sys →
        dbit t.sys.mgmt Ent.stuckOpen z = dbit s.sys.mgmt Ent.stuckOpen z) := by
  have hgo : ¬ ((!(chanOf s.sys z).check) = true ∨ (chanOf s.sys z).st ≠ .off) := by
    rw [chanIn] at hc hst
    simp [hc, hst]
  refine ⟨_, exec_stuckOpenCheck s z, ?_⟩
  dsimp only
  unfold stuckOpen
  extract_lets k x1
  have hcheck : (chanOf x1 z).check = false := congrArg Chan.check (chanOf_editChan_self ..)
  rw [if_neg hgo]
  split
  case isTrue hopen =>
    refine ⟨?_, fun _ _ => ?_, fun hno => ?_⟩
    · rw [chanIn, chanOf_congr (x := x1) ?_ z]
      · exact hcheck
      · rw [raiseEvent_reads (fun m => m.act.chans)]
        simp [dsetBits]
    · rw [dbit_eq _ _ (getE_raiseEvent _ _ (by decide))]
      exact dbit_onMgmt_dsetBits x1 Nat.testBit_two_pow_self
    · rcases hno with h | h
      · exact absurd (hopen.1.symm.trans h) (by decide)
      · exact absurd hopen.2 h.not_gt
  case isFalse hshut => exact ⟨hcheck, fun hu hfar => absurd ⟨hu, hfar⟩ hshut, fun _ => rfl⟩

theorem zoneForce_forces : ∃ t, exec (.zoneForce z) s = .next t ∧ (chanIn t z).force = true ∧ dutyOf t.sys z = 100 := by
  have hforce : (chanOf (forceZone z s.sys) z).force = true := by rw [forceZone_force, if_pos rfl]
  exact ⟨_, exec_zoneForce s z, hforce, if_pos hforce⟩

theorem valveRetest_retests (hup : skourUp s.sys = true) (hflag : dbit s.sys.mgmt Ent.valveFaults z = true)
    (hst : (chanIn s z).st = .faulted) (hbank : bankOn s.sys (bankOf z) = true) (hb : bankBusy s.sys (bankOf z) = false) :
    ((look (0, 0) s.sys.mgmt.act.retests z).1 < 6 →
      10000000000 ≤ sinceT s.sys (look (0, 0) s.sys.mgmt.act.retests z).2 →
      ∃ t, exec (.valveRetest z) s = .next t ∧ (chanIn t z).st = .pull ∧ (chanIn t z).retest = true ∧
        (look (0, 0) t.sys.mgmt.act.retests z).1 = (look (0, 0) s.sys.mgmt.act.retests z).1 + 1) ∧
    (6 ≤ (look (0, 0) s.sys.mgmt.act.retests z).1 → exec (.valveRetest z) s = .next s) := by
  rw [chanIn] at hst
  refine ⟨fun hn hlong => ⟨_, exec_valveRetest s z, ?_⟩, fun hn => ?_⟩
  · dsimp only
    unfold valveRetest
    extract_lets r x1
    have hgo : ¬ ((!skourUp s.sys) = true ∨ (!dbit s.sys.mgmt Ent.valveFaults z) = true ∨ 6 ≤ r.1 ∨
        (chanOf s.sys z).st ≠ .faulted ∨ (!bankOn s.sys (bankOf z)) = true ∨ sinceT s.sys r.2 < 10000000000) := by
      rw [hup, hflag, hst, hbank]
      rintro (h | h | h | h | h | h)
      · exact absurd h (by decide)
      · exact absurd h (by decide)
      · exact hn.not_ge h
      · exact h rfl
      · exact absurd h (by decide)
      · exact hlong.not_gt h
    rw [if_neg hgo]
    have hallow : pullAllowed (editChan z (fun k => { k with retest := true }) x1) z = true :=
      (pullAllowed_editChan (f := fun k => { k with retest := true }) (fun _ => rfl) z z x1).trans (pullAllowed_of_zone hbank)
    have hbusy : bankBusy (editChan z (fun k => { k with retest := true }) x1) (bankOf z) = false :=
      (bankBusy_editChan (f := fun k => { k with retest := true }) (fun _ => rfl) z (bankOf z) x1).trans hb
    obtain ⟨p, hp⟩ := requestPull_pulls hallow hbusy
    have hretests : (requestPull z (editChan z (fun k => { k with retest := true }) x1)).mgmt.act.retests =
        insertKey s.sys.mgmt.act.retests z (r.1 + 1, s.sys.ts) := (requestPull_driven ..).reads (fun m => m.act.retests)
    rw [chanIn, hp, chanOf_editChan_self]
    refine ⟨rfl, rfl, ?_⟩
    rw [hretests, look_insertKey_self]
  · rw [exec_valveRetest, valveRetest]
    dsimp only
    rw [if_pos (.inr (.inr (.inl hn)))]

end

/-- Settles O49: a valve's pull-in from its request to its verdict, and a zone's window, force and retest. -/
theorem valvesPullHoldAndRetest : Obligations.ValvesPullHoldAndRetest := by
  unfold Obligations.ValvesPullHoldAndRetest
  refine ⟨fun s c => ⟨?start, ?pull, ?decays, fun hst samples => fastDecayEnd_ends rfl hst samples, ?retry, ?cross⟩,
    fun s z => ⟨zoneWindowStart_opens, zoneWindowEnd_closes, exec_zoneWindowEnd_of_stands, stuckOpenCheck_checks,
      zoneForce_forces, valveRetest_retests⟩⟩
  case start => exact fun hst hfree => pullinStart_asks rfl hst hfree
  case pull =>
    refine fun hst => ⟨pullinRegulationEnd_decays rfl hst, fun hre ma => ?_⟩
    obtain ⟨hopen, hclosed⟩ := openCoilCheck_checks rfl hst hre ma
    obtain ⟨hshort, hfine⟩ := coilShort_checks rfl hst hre ma
    exact ⟨hopen, hclosed, hshort, hfine⟩
  case decays => exact fun hst hre hw samples => fastDecayEnd_holds rfl hst hre hw samples
  case retry => exact fun ha hst hfree hb => movementRetry_pulls rfl ha hst hfree hb
  case cross => exact fun hc hre => movementCrossCheck_judges rfl hc hre

end Sys2Proof.Machine
end

section
/-!
SUPPORT. What a valve fault leaves of the other channels and of its bank, and what orders leave of a unit. Then the banks, the pumps
and the fans (O50).
-/

namespace Sys2Proof.Machine

-- As in the tests: one proof at a time, so that the whole text keeps within the threads that the memory holds.
set_option Elab.async false

variable {s t : State} {x y : Module} {c n : Nat}

/-! ### What a valve fault leaves (R417) -/

/-- What a valve fault makes of the sequencers: its channel, its waiting and its retests. -/
def Act.valveFaulted (c : Nat) (ts : W64) (a : Act) : Act :=
  { a with
    chans := upd Chan.off a.chans c fun k => { Chan.off with st := .faulted, window := k.window, force := k.force }
    waiting := upd [] a.waiting (bankOf c) (·.filter (· ≠ c))
    retests := insertKey a.retests c (0, ts) }

/-- A reader of the sequencers that does not look at the events they keep for Skour. -/
def EventFree {α : Type} (rd : Act → α) : Prop := ∀ a q l, rd { a with queue := q, lost := l } = rd a

theorem valveFault_act {α : Type} (rd : Act → α) (c cause : Nat) (x : Module) (h : EventFree rd := by intro _ _ _; rfl) :
    rd (valveFault c cause x).mgmt.act = rd (x.mgmt.act.valveFaulted c x.ts) := by
  unfold valveFault
  extract_lets y dead x1 x2 x3
  have hact3 : x3.mgmt.act = x.mgmt.act.valveFaulted c x.ts := by
    have h2 : x2.mgmt.act = x.mgmt.act.valveFaulted c x.ts := by
      simp only [x2, onMgmt_mgmt, setByte, dsetBits, dset_act]
      rfl
    exact ite_reads (fun z => z.mgmt.act) _ ((setE_act ..).trans h2) h2
  rw [raiseEvent_reads (fun m => rd m.act) _ _ _ fun m => h m.act [] 0, syncValveThrottle_reads (fun m => rd m.act), hact3]

theorem getE_valveFault {k : Nat} (c cause : Nat) (x : Module) (hk : k ≠ 0x60FF01 ∧ k ≠ Ent.valvesHeld ∧
    k ≠ Ent.valveFaultCause ∧ k ≠ Ent.valveFaults) : getE (valveFault c cause x) k = getE x k := by
  obtain ⟨hev, hheld, hcause, hfaults⟩ := hk
  unfold valveFault
  extract_lets y dead x1 x2 x3
  have h2 : getE x2 k = getE x k := by
    rw [getE, onMgmt_mgmt, setByte, dsetBits, dget_dset_of_ne _ _ hcause, dget_dset_of_ne _ _ hfaults]
    rfl
  rw [getE_raiseEvent _ _ hev, getE_syncValveThrottle]
  exact ite_reads (fun z => getE z k) _ ((getE_setE_of_ne _ _ hheld).trans h2) h2

theorem chanOf_valveFault (c cause n : Nat) (x : Module) : chanOf (valveFault c cause x) n =
    if n = c then { Chan.off with st := .faulted, window := (chanOf x c).window, force := (chanOf x c).force }
    else chanOf x n := by
  have hchans := valveFault_act Act.chans c cause x
  rw [chanOf, hchans]
  exact look_put Chan.off x.mgmt.act.chans c n { Chan.off with
    st := .faulted, window := (chanOf x c).window, force := (chanOf x c).force }

/-! ### Bank trips (R405) -/

/-- Faults of a bank's first channels. -/
theorem repeatN_valveFault {j i : Nat} (b : Nat) (x : Module) (h : i < j) :
    (chanOf (repeatN (fun i y => valveFault (4 * b + i) 4 y) j x) (4 * b + i)).st = .faulted := by
  induction j with
  | zero => exact absurd h i.not_lt_zero
  | succ j ih =>
    rw [repeatN, chanOf_valveFault]
    split
    · rfl
    · exact ih (by omega)

theorem repeatN_valveFault_bankOff (b j : Nat) (x : Module) :
    (repeatN (fun i y => valveFault (4 * b + i) 4 y) j x).mgmt.act.bankOff = x.mgmt.act.bankOff :=
  repeatN_keeps (fun y : Module => y.mgmt.act.bankOff) (fun _ y => valveFault_act Act.bankOff _ 4 y) j x

theorem getE_repeatN_valveFault {k : Nat} (b j : Nat) (x : Module) (hk : k ≠ 0x60FF01 ∧ k ≠ Ent.valvesHeld ∧
    k ≠ Ent.valveFaultCause ∧ k ≠ Ent.valveFaults) :
    getE (repeatN (fun i y => valveFault (4 * b + i) 4 y) j x) k = getE x k :=
  repeatN_keeps (fun y : Module => getE y k) (fun _ y => getE_valveFault _ 4 y hk) j x

theorem bankTrip_trips {b : Fin 5} (hon : bankOn s.sys b = true) (us : Nat) :
    (us ≤ 200 → exec (.bankTrip b us false) s = .next s) ∧
    (200 < us → ∃ t, exec (.bankTrip b us false) s = .next t ∧ look false t.sys.mgmt.act.bankOff b = true ∧
      getE t.sys Ent.bankTrips = (getE s.sys Ent.bankTrips + 1) % 2 ^ 32 ∧
      (2 ≤ ((look [] s.sys.mgmt.act.bankTrips b).filter fun a => decide (sinceT s.sys a < 600000000000)).length →
        dbit t.sys.mgmt Ent.bankOff b = true ∧ ∀ i < 4, (chanIn t (4 * b + i)).st = .faulted)) := by
  refine ⟨fun hshort => ?_, fun hlong => ⟨_, exec_bankTrip s b us false, ?_⟩⟩
  · rw [exec_bankTrip, bankTrip, if_pos (.inr ⟨hshort, rfl⟩)]
  dsimp only
  unfold bankTrip
  rw [if_neg (by simp [hon, hlong])]
  extract_lets recent times x1 dead x2 x3
  have hoff2 : look false x2.mgmt.act.bankOff b = true := by
    have h1 : look false x1.mgmt.act.bankOff b = true := look_put_self false s.sys.mgmt.act.bankOff b.val true
    have h1' : look false (onlyIf (b.val == 4) (setE Ent.valvesHeld 0) x1).mgmt.act.bankOff b = true :=
      ite_reads (fun z => look false z.mgmt.act.bankOff b) _ ((congrArg (fun a => look false a b.val)
        (congrArg Act.bankOff (setE_act ..))).trans h1) h1
    refine (congrArg (fun a => look false a b.val) (repeatN_keeps (fun y : Module => y.mgmt.act.bankOff) ?_ 4 _)).trans h1'
    exact fun _ _ => rfl
  have htrips2 : getE x2 Ent.bankTrips = getE s.sys Ent.bankTrips := by
    refine (repeatN_keeps (fun y : Module => getE y Ent.bankTrips) ?_ 4 _).trans ?_
    · exact fun _ _ => rfl
    · exact ite_reads (fun z => getE z Ent.bankTrips) _ (getE_setE_of_ne _ _ (by decide)) rfl
  have hoff3 : look false x3.mgmt.act.bankOff b = true := by
    rw [raiseEvent_reads (fun m => m.act.bankOff), incE_act]
    exact hoff2
  have htrips3 : getE x3 Ent.bankTrips = (getE s.sys Ent.bankTrips + 1) % 2 ^ 32 := by
    rw [getE_raiseEvent _ _ (by decide), getE_incE_self, htrips2]
  split
  case isTrue hfew =>
    refine ⟨hoff3, htrips3, fun hthird => absurd hfew ?_⟩
    rw [List.length_cons]
    exact Nat.not_lt.2 (Nat.succ_le_succ hthird)
  case isFalse =>
    refine ⟨?_, ?_, fun _ => ⟨?_, fun i hi => repeatN_valveFault b _ hi⟩⟩
    · rw [repeatN_valveFault_bankOff, onMgmt_mgmt, dsetBits, dset_act]
      exact hoff3
    · rw [getE_repeatN_valveFault _ _ _ (by decide)]
      exact (getE_setE_of_ne (k := Ent.bankOff) _ x3 (by decide)).trans htrips3
    · rw [dbit_eq _ _ (getE_repeatN_valveFault _ _ _ (by decide))]
      exact dbit_onMgmt_dsetBits x3 Nat.testBit_two_pow_self

theorem bankRetry_retries {b : Fin 5} {a : W64} {rest : List W64} (hon : actOn s.sys = true)
    (hoff : look false s.sys.mgmt.act.bankOff b = true) (hl : dbit s.sys.mgmt Ent.bankOff b = false)
    (ht : look [] s.sys.mgmt.act.bankTrips b = a :: rest) :
    (1000000000 ≤ sinceT s.sys a → ∃ t, exec (.bankRetry b) s = .next t ∧ look false t.sys.mgmt.act.bankOff b = false) ∧
    (sinceT s.sys a < 1000000000 → exec (.bankRetry b) s = .next s) := by
  refine ⟨fun hlong => ⟨_, exec_bankRetry s b, ?_⟩, fun hshort => ?_⟩
  · dsimp only
    unfold bankRetry
    rw [ht]
    extract_lets since x1
    have hgo : ¬ ((!actOn s.sys) = true ∨ (!look false s.sys.mgmt.act.bankOff b) = true ∨
        dbit s.sys.mgmt Ent.bankOff b = true ∨ since < 1000000000) := by
      simp [hon, hoff, hl, since, hlong]
    rw [if_neg hgo]
    have hdriven : x1.Driven ((if b.val = 4 ∧ profile1 s.sys = true then [3, 0, 1] else List.range 4).foldl (fun y i =>
        let k := chanOf y (4 * b.val + i)
        if ((k.window || k.force) && k.st == .off) = true then requestPull (4 * b.val + i) y else y) x1) :=
      foldl_driven (fun y i => ite_driven _ (requestPull_driven _ y) (.refl y)) _ _
    rw [hdriven.reads (fun m => m.act.bankOff)]
    exact look_drop_self ..
  · have hstay : (match look [] s.sys.mgmt.act.bankTrips b with | t :: _ => sinceT s.sys t | [] => 0) < 1000000000 := by
      rw [ht]
      exact hshort
    have hx : bankRetry b s.sys = s.sys := if_pos (Or.inr (Or.inr (Or.inr hstay)))
    rw [exec_bankRetry, hx]

/-! ### Schedules and targets (R422, R424) -/

theorem sequencerScheduleWrite_writes (sch : Schedule) (hup : skourUp s.sys = true) :
    ∃ t, exec (.sequencerScheduleWrite sch) s = .next t ∧ t.sys.mgmt.act.schedule = sch := by
  refine ⟨_, exec_sequencerScheduleWrite s sch, ?_⟩
  rw [hup, if_pos rfl, writeSchedule_schedule]

theorem exec_sequencerScheduleWrite_of_down (sch : Schedule) (h : skourUp s.sys = false) :
    exec (.sequencerScheduleWrite sch) s = .next s := by
  rw [exec_sequencerScheduleWrite, h, if_neg Bool.false_ne_true]

theorem unitOf_editUnit (u n : Nat) (f : DriveUnit → DriveUnit) (x : Module) :
    unitOf (editUnit u f x) n = if n = u then f (unitOf x u) else unitOf x n := look_put ..

theorem unitOf_congr (h : y.mgmt.act.units = x.mgmt.act.units) (n : Nat) : unitOf y n = unitOf x n := by
  rw [unitOf, h, ← unitOf]

theorem unitOf_setTarget (u pct n : Nat) (x : Module) :
    unitOf (setTarget u pct x) n = if n = u then (unitOf x u).retarget u pct else unitOf x n := by
  refine Eq.trans (unitOf_congr (x := editUnit u (DriveUnit.retarget u pct) x) ?_ n) (unitOf_editUnit ..)
  exact ite_reads (fun z => z.mgmt.act.units) _ (congrArg Act.units (setE_act ..)) rfl

/-- From rest a unit starts toward its target (R424). -/
theorem retarget_of_stopped {d : DriveUnit} {u pct : Nat} (hd : d.st = .stopped) (hp : 0 < pct) :
    (d.retarget u pct).st = .starting ∧ (d.retarget u pct).target = pct := by
  unfold DriveUnit.retarget
  dsimp only
  rw [if_neg (by rw [hd]; decide), if_neg hp.ne', if_neg (fun h => h.2 hd), hd]
  exact ⟨rfl, rfl⟩

/-- A faulted unit stays faulted whatever its target (R425). -/
theorem retarget_of_faulted {d : DriveUnit} {u pct : Nat} (hd : d.st = .faulted) : (d.retarget u pct).st = .faulted := by
  unfold DriveUnit.retarget
  dsimp only
  rw [if_pos hd]
  exact hd

theorem targetStep_starts {n : Fin 4} {pct : Fin 101} (hon : actOn s.sys = true)
    (hst : (unitOf s.sys (16 + n)).st = .stopped) (hf : fanFaulted s.sys = false) (hp : 0 < pct.val) :
    ∃ t, exec (.targetStep (.fan n) pct) s = .next t ∧ (unitOf t.sys (16 + n)).st = .starting ∧
      (unitOf t.sys (16 + n)).target = heldTarget s.sys (16 + n) pct.val := by
  have hfan : isPump (16 + n.val) = false := decide_eq_false (by omega)
  have hpos : 0 < heldTarget s.sys (16 + n) pct.val := by
    unfold heldTarget
    split
    · exact hp
    · exact hp.trans_le (Nat.le_max_right ..)
  refine ⟨_, exec_targetStep s (.fan n) pct, ?_⟩
  rw [targetStep, if_neg (by simp [hon]), DriveNo.code, hfan, if_neg Bool.false_ne_true, setFan, hf,
    if_neg Bool.false_ne_true, Nat.add_sub_cancel_left, unitOf_setTarget, if_pos rfl]
  exact retarget_of_stopped hst hpos

/-! ### The loop, the start and the loss of a unit (R424 to R426) -/

theorem driveLoop_turns (rpm : List Nat) (hon : actOn s.sys = true) (n : Fin 2) :
    ∃ t, exec (.driveLoop rpm) s = .next t ∧
      unitOf t.sys n = beginRetry n s.sys.ts (loopStep n (rpm.getD n 0) (unitOf s.sys n)) := by
  refine ⟨_, exec_driveLoop s rpm, ?_⟩
  rw [driveLoop, if_neg (by simp [hon]), show List.range 6 = [0, 1, 2, 3, 4, 5] from rfl]
  obtain rfl | rfl : n = 0 ∨ n = 1 := by omega
  · simp [unitOf_editUnit]
  · simp [unitOf_editUnit]

theorem unitOf_raiseEvent (obj : Nat) (detail : List Byte) (x : Module) (n : Nat) :
    unitOf (raiseEvent obj detail x) n = unitOf x n := unitOf_congr (raiseEvent_reads (fun m => m.act.units) ..) n

theorem unitOf_dsetBits (k mask : Nat) (x : Module) (n : Nat) : unitOf (onMgmt (dsetBits k mask) x) n = unitOf x n :=
  unitOf_congr (congrArg Act.units (dset_act ..)) n

theorem unitOf_dclearBits (k mask : Nat) (x : Module) (n : Nat) : unitOf (onMgmt (dclearBits k mask) x) n = unitOf x n :=
  unitOf_congr (congrArg Act.units (dset_act ..)) n

theorem setTarget_keepsFault {u : Nat} (v pct : Nat) (h : (unitOf x u).st = .faulted) :
    (unitOf (setTarget v pct x) u).st = .faulted := by
  rw [unitOf_setTarget]
  split
  case isTrue hv => exact retarget_of_faulted (hv ▸ h)
  case isFalse => exact h

theorem setPump_keepsFault {u : Nat} (pct : Nat) (h : (unitOf x u).st = .faulted) :
    (unitOf (setPump pct x) u).st = .faulted := by
  unfold setPump
  split
  · exact setTarget_keepsFault _ pct (setTarget_keepsFault _ 0 h)
  · exact h

/-- A unit that has faulted stays so through the orders its fault gives. -/
theorem unitFault_faults (u : Nat) (x : Module) : (unitOf (unitFault u x) u).st = .faulted := by
  unfold unitFault
  extract_lets target x1 x2 x3 x2'
  have h1 : (unitOf x1 u).st = .faulted := by
    have hunits : x1.mgmt.act.units = (editUnit u (fun d => { d with st := .faulted, volts := 0, trim := 0 }) x).mgmt.act.units := by
      simp [x1, dsetBits, dclearBits]
    rw [unitOf_congr hunits, unitOf_editUnit, if_pos rfl]
  split
  · have h2 : (unitOf x2 u).st = .faulted := (congrArg DriveUnit.st (unitOf_raiseEvent ..)).trans h1
    have h3 : (unitOf x3 u).st = .faulted := ite_reads (fun y => (unitOf y u).st) _ (setPump_keepsFault target h2) h2
    exact ite_reads (fun y => (unitOf y u).st) _ ((congrArg DriveUnit.st (unitOf_raiseEvent ..)).trans h3) h3
  · refine repeatN_induct (P := fun y : Module => (unitOf y u).st = .faulted) (fun n y hy => ?_) 4 ?_
    · exact setTarget_keepsFault _ _ hy
    · exact (congrArg DriveUnit.st (unitOf_raiseEvent ..)).trans h1

theorem unitStartCheck_checks {u : DriveNo} (hst : (unitOf s.sys u.code).st = .starting)
    (hr : (unitOf s.sys u.code).retryAt = none) :
    (∃ t, exec (.unitStartCheck u true) s = .next t ∧ (unitOf t.sys u.code).st = .running ∧
      (unitOf t.sys u.code).retries = 0) ∧
    ((unitOf s.sys u.code).retries < 3 → ∃ t, exec (.unitStartCheck u false) s = .next t ∧
      (unitOf t.sys u.code).retries = (unitOf s.sys u.code).retries + 1 ∧
      (unitOf t.sys u.code).volts = 0 ∧ (unitOf t.sys u.code).retryAt = some (s.sys.ts + 500000000)) ∧
    (3 ≤ (unitOf s.sys u.code).retries → ∃ t, exec (.unitStartCheck u false) s = .next t ∧
      (unitOf t.sys u.code).st = .faulted) := by
  have hgo : ¬ ((unitOf s.sys u.code).st ≠ .starting ∨ (unitOf s.sys u.code).retryAt.isSome = true) := by
    simp [hst, hr]
  refine ⟨⟨_, exec_unitStartCheck s u true, ?_⟩, fun hfew => ⟨_, exec_unitStartCheck s u false, ?_⟩,
    fun hmany => ⟨_, exec_unitStartCheck s u false, ?_⟩⟩
  · dsimp only
    unfold unitStartCheck
    dsimp only
    rw [if_neg hgo, if_pos rfl, unitOf_dclearBits, unitOf_editUnit, if_pos rfl]
    exact ⟨rfl, rfl⟩
  · dsimp only
    unfold unitStartCheck
    extract_lets d x1
    have h1 : unitOf x1 u.code = { unitOf s.sys u.code with
        retries := (unitOf s.sys u.code).retries + 1, volts := 0, retryAt := some (s.sys.ts + 500000000) } := by
      rw [unitOf_dsetBits, unitOf_editUnit, if_pos rfl]
    have hx : unitOf (if d.retries = 0 then raiseEvent 0x61FF01 (natLe 1 u.code) x1 else x1) u.code = unitOf x1 u.code :=
      ite_reads (fun y => unitOf y u.code) _ (unitOf_raiseEvent ..) rfl
    rw [if_neg hgo, if_neg Bool.false_ne_true, if_pos hfew, hx, h1]
    exact ⟨rfl, rfl, rfl⟩
  · dsimp only
    unfold unitStartCheck
    dsimp only
    rw [if_neg hgo, if_neg Bool.false_ne_true, if_neg hmany.not_gt]
    exact unitFault_faults u.code s.sys

theorem tachLoss_loses {u : DriveNo} (hst : (unitOf s.sys u.code).st = .running) (ht : 0 < (unitOf s.sys u.code).target)
    (ms : Nat) :
    (200 < ms → ∃ t, exec (.tachLoss u ms) s = .next t ∧ (unitOf t.sys u.code).st = .tachLoss ∧
      (unitOf t.sys u.code).volts = (limitsOf u.code).vMax) ∧
    (ms ≤ 200 → exec (.tachLoss u ms) s = .next s) := by
  refine ⟨fun hlong => ⟨_, exec_tachLoss s u ms, ?_⟩, fun hshort => ?_⟩
  · dsimp only
    rw [tachLoss, if_neg (by simp [hst, ht.ne', hlong]), unitOf_raiseEvent, unitOf_dsetBits, unitOf_editUnit,
      if_pos rfl]
    exact ⟨rfl, rfl⟩
  · rw [exec_tachLoss, tachLoss, if_pos (.inr (.inr hshort))]

theorem tachRecover_recovers {u : DriveNo} (hst : (unitOf s.sys u.code).st = .tachLoss) :
    ∃ t, exec (.tachRecover u) s = .next t ∧ (unitOf t.sys u.code).st = .running := by
  refine ⟨_, exec_tachRecover s u, ?_⟩
  dsimp only
  rw [tachRecover, if_pos hst, unitOf_editUnit, if_pos rfl]

/-- Settles O50: the banks by their trips, the units by what an order or a check makes of each. -/
theorem banksPumpsAndFans : Obligations.BanksPumpsAndFans := by
  unfold Obligations.BanksPumpsAndFans
  refine ⟨fun s b => ⟨bankTrip_trips, fun a rest => bankRetry_retries⟩, fun s => ⟨sequencerScheduleWrite_writes,
    exec_sequencerScheduleWrite_of_down, fun n pct => targetStep_starts, driveLoop_turns, fun u =>
    ⟨unitStartCheck_checks, tachLoss_loses, tachRecover_recovers⟩⟩⟩

end Sys2Proof.Machine
end

section
/-!
SUPPORT. How the management plane stands (its pairs, its state register, its supplies, its strap) and Sill's latches, which records,
entries and the rack bus leave; what a start sets. Then the reference and the starts (O51).
-/

namespace Sys2Proof.Machine

-- As in the tests: one proof at a time, so that the whole text keeps within the threads that the memory holds.
set_option Elab.async false

variable {s t : State} {x y : Module} {k : Nat}

/-! ### How Skour stands -/

/-- How Skour stands: its run, its pairs, its state register, its supplies and its strap. -/
def Mgmt.stands (m : Mgmt) : SkourRun × Nat × List PairSt × ModState × Nat × Nat :=
  (m.run, m.active, m.pairs, m.module, m.service, dget m Ent.strapAddress)

/-- How Skour and Sill stand, but for Sill's copy of the journal. -/
def Module.posture (x : Module) : Sill × SkourRun × Nat × List PairSt × ModState × Nat × Nat :=
  ({ x.sill with copy := [] }, x.mgmt.stands)

theorem onMgmt_posture {f : Mgmt → Mgmt} (x : Module) (h : ∀ m, (f m).stands = m.stands) :
    (onMgmt f x).posture = x.posture := by
  rw [Module.posture, onMgmt_mgmt, h, onMgmt_sill, ← Module.posture]

theorem dset_stands (v : Nat) (m : Mgmt) (h : k ≠ Ent.strapAddress) : (dset k v m).stands = m.stands := by
  simp only [Mgmt.stands, dget_dset_of_ne v m h.symm, dset_run, dset_active, dset_pairs, dset_module, dset_service]

theorem setE_posture (v : Nat) (x : Module) (h : k ≠ Ent.strapAddress) : (setE k v x).posture = x.posture :=
  onMgmt_posture x fun m => dset_stands v m h

@[simp] theorem editBus_posture (f : Bus → Bus) (x : Module) : (editBus f x).posture = x.posture := rfl
@[simp] theorem onData_posture (f : Data → Data) (x : Module) : (onData f x).posture = x.posture := rfl

/-- What changes records and entries alone leaves how Skour and Sill stand. -/
theorem Module.SameBut.posture {ks : List Nat} (h : x.SameBut ks y) (hk : Ent.strapAddress ∉ ks)
    (hm : y.mgmt.kept = x.mgmt.kept) : y.posture = x.posture := by
  have hread {α : Type} (rd : Mgmt → α) (hrd : RecordFree rd) : rd y.mgmt = rd x.mgmt := hrd.reads hm
  have hsill : { y.sill with copy := [] } = { x.sill with copy := [] } := h.reads fun l => { l with copy := [] }
  have hentry : dget y.mgmt Ent.strapAddress = dget x.mgmt Ent.strapAddress := h.entries _ hk
  rw [Module.posture, Mgmt.stands, hsill, hread Mgmt.run fun _ => rfl,
    hread Mgmt.active fun _ => rfl, hread Mgmt.pairs fun _ => rfl, hread Mgmt.module fun _ => rfl,
    hread Mgmt.service fun _ => rfl, hentry]
  rfl

@[simp] theorem note_posture (source kind key value : Nat) (x : Module) :
    (note source kind key value x).posture = x.posture :=
  (note_sameBut ..).posture List.not_mem_nil (note_kept ..)

theorem raiseEvent_posture {obj : Nat} (detail : List Byte) (x : Module) (h : Ent.strapAddress ≠ obj) :
    (raiseEvent obj detail x).posture = x.posture :=
  (raiseEvent_sameBut ..).posture (fun hm => h (List.mem_singleton.1 hm)) (raiseEvent_kept ..)

theorem repeatN_posture {f : Nat → Module → Module} (n : Nat) (h : ∀ i < n, ∀ y, (f i y).posture = y.posture) (x : Module) :
    (repeatN f n x).posture = x.posture := by
  induction n with
  | zero => rfl
  | succ n ih => exact (h n n.lt_succ_self _).trans (ih fun i hi => h i (hi.trans n.lt_succ_self))

theorem takeAddress_posture (x : Module) : (takeAddress x).posture = x.posture := by
  unfold takeAddress
  extract_lets a x1 x2
  have h1 : x1.posture = x.posture := setE_posture _ x (by decide)
  split
  · rw [raiseEvent_posture _ _ (by decide)]
    refine (repeatN_posture 2 (fun c _ y => ?_) x1).trans h1
    split <;> rfl
  · refine (repeatN_posture 2 (fun c _ y => ?_) x1).trans h1
    split <;> rfl

theorem setE_posture_of_lt (v : Nat) (x : Module) (h : Ent.strapAddress < k) : (setE k v x).posture = x.posture :=
  setE_posture v x h.ne'

theorem joinAt_posture (c rate : Nat) (x : Module) : (joinAt c rate x).posture = x.posture := by
  have hchan (k : Nat) (h : Ent.strapAddress < k) : Ent.strapAddress < k + c := h.trans_le (Nat.le_add_right k c)
  unfold joinAt dataRegs
  dsimp only
  rw [editChannel, editBus_posture, setE_posture_of_lt _ _ (hchan _ (by decide)), setE_posture_of_lt _ _ (hchan _ (by decide))]
  refine (setE_posture_of_lt (k := Ent.chanFlags + c) _ _ (hchan _ (by decide))).trans ?_
  rw [setE_posture_of_lt _ _ (hchan _ (by decide)), setE_posture_of_lt _ _ (hchan _ (by decide)),
    setE_posture_of_lt _ _ (hchan _ (by decide))]

theorem joinChan_posture (c : Nat) (x : Module) : (joinChan c x).posture = x.posture := by
  have hflags : (onMgmt (dclearBits (Ent.chanFlags + c) 0x14) x).posture = x.posture :=
    setE_posture_of_lt _ x (by unfold Ent.strapAddress Ent.chanFlags; omega)
  unfold joinChan
  dsimp only
  split
  · exact hflags
  · exact (joinAt_posture ..).trans hflags

theorem writePtpEnable_posture (v : Nat) (x : Module) : (writePtpEnable v x).posture = x.posture := by
  unfold writePtpEnable
  split
  · exact setE_posture _ _ (by decide)
  · split
    · exact setE_posture _ x (by decide)
    · rfl

theorem tellStore_posture (f : StoreFound) (bs : Nat) (x : Module) : (tellStore f bs x).posture = x.posture := by
  unfold tellStore
  split
  · rfl
  · rw [raiseEvent_posture _ _ (by decide), note_posture, setE_posture _ _ (by decide)]

theorem noteSteps_posture (x : Module) : (noteSteps x).posture = x.posture := by
  rw [noteSteps, note_posture, note_posture, note_posture]

/-- Without a latch of Sill's nothing forces the state register. -/
theorem followSill_of_unlatched (h : x.sill.unlatched) : followSill x = x := by
  unfold followSill
  rw [forcedState_eq_none.2 h]

theorem beginInlet_posture (x : Module) : (beginInlet x).posture = x.posture := by
  unfold beginInlet
  split
  · rw [beginStep, note_posture]
    exact onMgmt_posture x fun _ => rfl
  · rfl

/-! ### Power (R447, R449, R459) -/

/-- The retained store loaded, and the strap read: nothing else of how Skour stands has changed. -/
theorem loadStore_posture (f : StoreFound) (gaps : Bool) (v : Nat) (x : Module) :
    (onMgmt syncCapacity (setE Ent.strapAddress v
      (if gaps = true then incE Ent.energyGaps (loadStore f x) else loadStore f x))).posture =
      ({ x.sill with copy := [] }, x.mgmt.run, x.mgmt.active, x.mgmt.pairs, x.mgmt.module, x.mgmt.service, v) := by
  have hload : (loadStore f x).mgmt.run = x.mgmt.run ∧ (loadStore f x).mgmt.active = x.mgmt.active ∧
      (loadStore f x).mgmt.pairs = x.mgmt.pairs ∧ (loadStore f x).mgmt.module = x.mgmt.module ∧
      (loadStore f x).mgmt.service = x.mgmt.service := by
    simp [loadStore, loadOver, dropTrims]
  obtain ⟨hrun, hactive, hpairs, hmodule, hservice⟩ := hload
  have hsync : (onMgmt syncCapacity (setE Ent.strapAddress v
      (if gaps = true then incE Ent.energyGaps (loadStore f x) else loadStore f x))).posture = (setE Ent.strapAddress v
      (if gaps = true then incE Ent.energyGaps (loadStore f x) else loadStore f x)).posture := by
    refine onMgmt_posture _ fun m => ?_
    rw [syncCapacity, dset_stands _ _ (by decide), dset_stands _ _ (by decide), dset_stands _ _ (by decide)]
  have hstrap (y : Module) : dget (setE Ent.strapAddress v y).mgmt Ent.strapAddress = v := dget_dset_self ..
  rw [hsync, Module.posture, Mgmt.stands, hstrap]
  cases gaps with
  | true =>
    simp only [if_pos, setE_run, setE_active, setE_pairs, setE_module, setE_service, incE_run, incE_active, incE_pairs,
      incE_module, incE_service, hrun, hactive, hpairs, hmodule, hservice]
    rfl
  | false =>
    simp only [Bool.false_eq_true, if_false, setE_run, setE_active, setE_pairs, setE_module, setE_service, hrun, hactive,
      hpairs, hmodule, hservice]
    rfl

theorem unlatched_of_copy {l n : Sill} (h : { l with copy := [] } = { n with copy := [] }) (hn : n.unlatched) :
    l.unlatched := by
  have heq : ({ l with copy := [] } : Sill).unlatched = ({ n with copy := [] } : Sill).unlatched := congrArg Sill.unlatched h
  exact heq.mpr hn

/-- Sill's latches are those it had before the power went, but for its own faults (R536). -/
theorem sillOn_unlatched {l : Sill} (sf : W64) (h : l.unlatched) : (sillOn 0 sf l).unlatched := by
  obtain ⟨hleak, hint, hsafe⟩ := h
  refine ⟨hleak, ?_, hsafe⟩
  rintro (h | h | h | h | h)
  · exact hint (.inl h)
  · exact hint (.inr (.inl h))
  · exact hint (.inr (.inr (.inl h)))
  · exact Bool.false_ne_true h
  · exact Bool.false_ne_true h

theorem pairPowered_pass {p : PairSt} (h : p ≠ .retired) : pairPowered p true = .standby := by
  rw [pairPowered, if_neg h, if_pos rfl]

theorem powerApplied_powers (f : PowerFound) (hs : s.sys.mgmt.service = 0) (hpart : f.sillPart = 0) (ha : f.pairA = true)
    (hp : pairAt s.sys.mgmt 0 ≠ .retired) (hf : forcedState s.sys = none) :
    ∃ t, exec (.powerApplied f) s = .next t ∧ t.sys.sill.on = true ∧ t.sys.sill.fault = false ∧
      skourUp t.sys = true ∧ t.sys.mgmt.active = 0 ∧ pairAt t.sys.mgmt 0 = .active ∧ t.sys.mgmt.service = 0x3F ∧
      t.sys.mgmt.module = .off ∧ getE t.sys Ent.strapAddress = f.strap.val := by
  refine ⟨_, exec_powerApplied s f, ?_⟩
  dsimp only
  unfold powerApplied
  rw [if_neg (by simp [unpowered, hs])]
  extract_lets part ever x1 x2 lost was ps
  have hpart0 : part = 0 := by rw [show part = f.sillPart.val from rfl, hpart]; rfl
  have hwas : was 0 ≠ .retired := by
    have hw : was 0 = if lost = true then .standby else pairAt s.sys.mgmt 0 := rfl
    rw [hw]
    split
    · decide
    · exact hp
  have hchoose : chooseActive ps = some 0 := by
    have hps : ps = [.standby, pairPowered (was 1) f.pairB] := by
      rw [show ps = [pairPowered (was 0) f.pairA, pairPowered (was 1) f.pairB] from rfl, ha, pairPowered_pass hwas]
    rw [hps]
    rfl
  rw [hchoose]
  dsimp -zeta only
  extract_lets x3 x4 told x5 x6 x7
  have h4 : x4.posture = ({ sillOn part s.sys.sf s.sys.sill with copy := [] }, .up, 0,
      modifyAt (fun _ => .active) ps 0, .off, 0x3F, f.strap.val) := loadStore_posture ..
  have h6 : x6.posture = x4.posture := by
    rw [repeatN_posture 2 fun c _ y => joinChan_posture c y, takeAddress_posture, tellStore_posture, noteSteps_posture,
      writePtpEnable_posture, setE_posture _ _ (by decide)]
  have hun : x6.sill.unlatched := by
    have hsill : { x6.sill with copy := [] } = { sillOn part s.sys.sf s.sys.sill with copy := [] } :=
      congrArg Prod.fst (h6.trans h4)
    refine unlatched_of_copy hsill ?_
    rw [hpart0]
    exact sillOn_unlatched _ (forcedState_eq_none.1 hf)
  have hx : (if part ≠ 0 then setE Ent.startFault (1 * 256 + 1) x7 else beginInlet x7).posture = x4.posture := by
    rw [if_neg (not_not.2 hpart0), beginInlet_posture, show x7 = x6 from followSill_of_unlatched hun, h6]
  generalize (if part ≠ 0 then setE Ent.startFault (1 * 256 + 1) x7 else beginInlet x7) = y at hx ⊢
  rw [h4] at hx
  simp only [Module.posture, Mgmt.stands, Prod.mk.injEq] at hx
  obtain ⟨hsill, hrun, hactive, hpairs, hmodule, hservice, hstrap⟩ := hx
  refine ⟨?_, ?_, ?_, hactive, ?_, hservice, hmodule, hstrap⟩
  · exact (congrArg Sill.on hsill).trans rfl
  · refine (congrArg Sill.fault hsill).trans ?_
    rw [hpart0]
    rfl
  · rw [skourUp, hrun]
    rfl
  · rw [pairAt, hpairs]
    rfl

theorem exec_powerApplied_of_powered (f : PowerFound) (hs : s.sys.mgmt.service ≠ 0) :
    exec (.powerApplied f) s = .next s := by
  rw [exec_powerApplied, powerApplied, if_pos (by simpa [unpowered] using hs)]

/-! ### The reference (R440 to R443) -/

theorem oscEvent_clocks (x : Module) : (oscEvent x).mgmt.clocks = x.mgmt.clocks :=
  (raiseEvent_reads Mgmt.clocks ..).trans (note_reads Mgmt.clocks ..)

theorem oscTell_clocks (x y : Module) : (oscTell x y).mgmt.clocks = y.mgmt.clocks :=
  ite_reads (fun z => z.mgmt.clocks) _ rfl (oscEvent_clocks y)

theorem moveRef_clocks (n : Nat) (x : Module) : (moveRef n x).mgmt.clocks.source = n ∧
    ∀ b, oscOf (moveRef n x).mgmt.clocks b = oscOf x.mgmt.clocks b := by
  unfold moveRef
  split
  case isTrue h => exact ⟨h, fun _ => rfl⟩
  case isFalse =>
    extract_lets recent x1
    have h1 : x1.mgmt.clocks = { x.mgmt.clocks with source := n, moves := if n = 1 then recent else x.mgmt.clocks.moves } :=
      incE_clocks ..
    have hx : (if n = 1 ∧ 4 ≤ recent.length then onMgmt (dsetBits Ent.oscFlags 16) x1 else x1).mgmt.clocks = x1.mgmt.clocks :=
      ite_reads (fun z => z.mgmt.clocks) _ (dset_clocks ..) rfl
    rw [hx, h1]
    exact ⟨rfl, fun b => by cases b <;> rfl⟩

theorem oscOf_setOsc_self (b : Bool) (c : Clocks) (v : OscCond) : oscOf (setOsc b v c) b = v := by
  cases b <;> rfl

theorem setOsc_source (b : Bool) (c : Clocks) (v : OscCond) : (setOsc b v c).source = c.source := by
  cases b <;> rfl

theorem oscFault_faults {b lost : Bool} (h : oscOf s.sys.mgmt.clocks b = .good) :
    ∃ t, exec (.oscFault b lost) s = .next t ∧ oscOf t.sys.mgmt.clocks b = (if lost then .lost else .deviating) ∧
      (s.sys.mgmt.clocks.source = b2n b → t.sys.mgmt.clocks.source =
        if oscOf s.sys.mgmt.clocks (!b) = .good then 1 - b2n b else 2) ∧
      (s.sys.mgmt.clocks.source ≠ b2n b → t.sys.mgmt.clocks.source = s.sys.mgmt.clocks.source) := by
  refine ⟨_, exec_oscFault s b lost, ?_⟩
  dsimp only
  unfold oscFault
  extract_lets cond x1 other
  have hgood : ¬ oscOf s.sys.mgmt.clocks b = cond := by
    rw [h]
    cases lost <;> decide
  have h1 : x1.mgmt.clocks = setOsc b cond s.sys.mgmt.clocks := rfl
  rw [if_neg hgood, oscTell_clocks]
  split
  case isTrue hsrc =>
    obtain ⟨hs, ho⟩ := moveRef_clocks (if other = .good then 1 - b2n b else 2) x1
    refine ⟨?_, fun _ => hs, fun hne => absurd hsrc hne⟩
    rw [ho b, h1, oscOf_setOsc_self]
  case isFalse hsrc =>
    refine ⟨?_, fun he => absurd he hsrc, fun _ => ?_⟩
    · rw [h1, oscOf_setOsc_self]
    · rw [h1, setOsc_source]

theorem oscGood_returns {b : Bool} (h : oscOf s.sys.mgmt.clocks b ≠ .good) : ∃ t, exec (.oscGood b) s = .next t ∧
    oscOf t.sys.mgmt.clocks b = .good ∧
    t.sys.mgmt.clocks.source = if s.sys.mgmt.clocks.source = 2 then b2n b else s.sys.mgmt.clocks.source := by
  refine ⟨_, exec_oscGood s b, ?_⟩
  dsimp only
  unfold oscGood
  rw [if_neg h]
  extract_lets x1
  have h1 : x1.mgmt.clocks = setOsc b .good s.sys.mgmt.clocks := rfl
  split
  · obtain ⟨hs, ho⟩ := moveRef_clocks (b2n b) x1
    rw [oscEvent_clocks]
    exact ⟨by rw [ho b, h1, oscOf_setOsc_self], hs⟩
  · rw [h1]
    exact ⟨oscOf_setOsc_self .., setOsc_source ..⟩

theorem oscRevert_reverts (hs : s.sys.mgmt.clocks.source = 1) (ha : s.sys.mgmt.clocks.a = .good)
    (hf : dbit s.sys.mgmt Ent.oscFlags 4 = false) (n : Nat) :
    (1048576 ≤ n → ∃ t, exec (.oscRevert n) s = .next t ∧ t.sys.mgmt.clocks.source = 0) ∧
    (n < 1048576 → exec (.oscRevert n) s = .next s) := by
  refine ⟨fun hn => ⟨_, exec_oscRevert s n, ?_⟩, fun hn => ?_⟩
  · dsimp only
    rw [oscRevert, if_pos ⟨hs, ha, hn, by rw [hf]; rfl⟩, oscEvent_clocks]
    exact (moveRef_clocks 0 s.sys).1
  · rw [exec_oscRevert, oscRevert, if_neg fun h => h.2.2.1.not_gt hn]

/-! ### What a start sets (R445, R447 to R451) -/

/-- How the module's start stands: the state register, the start in progress, the start that is due, the next one's mode. -/
def Mgmt.startView (m : Mgmt) : ModState × Option StartJob × Option Bool × Bool :=
  (m.module, m.start, m.startDue, m.coldNext)

theorem setE_startView (k v : Nat) (x : Module) : (setE k v x).mgmt.startView = x.mgmt.startView :=
  setE_reads Mgmt.startView k v x

theorem dset_startView (k v : Nat) (m : Mgmt) : (dset k v m).startView = m.startView :=
  (show RecordFree Mgmt.startView from fun _ => rfl).reads (dset_kept k v m)

theorem editCool_startView (f : Cool → Cool) (x : Module) : (editCool f x).mgmt.startView = x.mgmt.startView := rfl

theorem editAct_startView (f : Act → Act) (x : Module) : (editAct f x).mgmt.startView = x.mgmt.startView := rfl

theorem foldl_startView {α : Type} {f : Module → α → Module}
    (h : ∀ (y : Module) a, (f y a).mgmt.startView = y.mgmt.startView) (l : List α) (x : Module) :
    (l.foldl f x).mgmt.startView = x.mgmt.startView := by
  induction l generalizing x with
  | nil => rfl
  | cons a l ih => exact (ih _).trans (h x a)

theorem repeatN_startView {f : Nat → Module → Module} (h : ∀ i y, (f i y).mgmt.startView = y.mgmt.startView) (n : Nat)
    (x : Module) : (repeatN f n x).mgmt.startView = x.mgmt.startView := by
  induction n with
  | zero => rfl
  | succ n ih => exact (h n _).trans ih

theorem domainOn_startView (warm : Bool) (d : Nat) (x : Module) :
    (domainOn warm d x).mgmt.startView = x.mgmt.startView := by
  have hx (c : Prop) [Decidable c] (g : Data → Data) : (if c then x else onData g x).mgmt.startView = x.mgmt.startView :=
    ite_reads (fun z => z.mgmt.startView) c rfl rfl
  have hservice (c d : Prop) [Decidable c] [Decidable d] (g : Mgmt → Mgmt) (f : Ctrl → Ctrl)
      (hg : (g x.mgmt).startView = x.mgmt.startView) :
      (if c then x else if d then onCtrl f (onMgmt g x) else onMgmt g x).mgmt.startView = x.mgmt.startView :=
    ite_reads (fun z => z.mgmt.startView) c rfl (ite_reads (fun z => z.mgmt.startView) d hg hg)
  unfold domainOn
  dsimp only
  split
  case h_5 n => exact hservice _ _ _ _ rfl
  all_goals exact hx _ _

theorem clearValveFault_startView (c : Nat) (x : Module) : (clearValveFault c x).mgmt.startView = x.mgmt.startView := by
  unfold clearValveFault
  split
  · rfl
  · dsimp only
    rw [syncValveThrottle_reads Mgmt.startView, (editChan_driven ..).reads Mgmt.startView]
    refine Eq.trans ((editAct_driven _ fun _ => rfl).reads Mgmt.startView) ?_
    rw [onMgmt_mgmt, setByte, dset_startView, dclearBits, dset_startView]

theorem clearValveFaults_startView (mask : Nat) (x : Module) :
    (clearValveFaults mask x).mgmt.startView = x.mgmt.startView := by
  refine foldl_startView (fun y c => ?_) _ x
  split
  · exact (clearValveFault_startView ..).trans (dset_startView ..)
  · rfl

theorem clearUnitFaults_startView (mask : Nat) (x : Module) :
    (clearUnitFaults mask x).mgmt.startView = x.mgmt.startView := by
  refine foldl_startView (fun y i => ?_) _ x
  dsimp only
  split
  · exact dset_startView ..
  · rfl

theorem clearBanks_startView (x : Module) : (clearBanks x).mgmt.startView = x.mgmt.startView := by
  refine repeatN_startView (fun b y => ?_) 5 x
  split
  · exact dset_startView ..
  · rfl

theorem freshWritable_startView (x : Module) : (freshWritable x).mgmt.startView = x.mgmt.startView :=
  writeJ1_reads Mgmt.startView _

theorem enableRevert_startView (x : Module) : (enableRevert x).mgmt.startView = x.mgmt.startView := by
  refine ite_reads (fun z => z.mgmt.startView) _ (dset_startView ..) ?_
  rw [oscEvent, raiseEvent_reads Mgmt.startView, note_reads Mgmt.startView]
  exact dset_startView ..

theorem primeDrive_startView (since : W64) (x : Module) : (primeDrive since x).mgmt.startView = x.mgmt.startView := by
  unfold primeDrive
  extract_lets t p1 valves x1
  have h1 : x.Driven x1 := foldl_driven (fun y c => commandValve_driven c true y) _ x
  split
  · exact h1.reads Mgmt.startView
  · rename Module => x2
    rw [editCool_startView, editAct_startView, (setTarget_driven ..).reads Mgmt.startView, ← h1.reads Mgmt.startView]
    unfold x2
    split
    · exact ((forceZone_driven 5 x1).trans (forceZone_driven 10 _)).reads Mgmt.startView
    · exact (commandValve_driven 18 true x1).reads Mgmt.startView

theorem primeFrame_startView (x : Module) : (primeFrame x).mgmt.startView = x.mgmt.startView := by
  unfold primeFrame
  split
  · split
    · exact primeDrive_startView ..
    · rfl
  · rfl

theorem beginPrime_startView (x : Module) : (beginPrime x).mgmt.startView = (x.mgmt.module,
    x.mgmt.start.map (fun j => { j with primed := true }), x.mgmt.startDue, x.mgmt.coldNext) := by
  have h := clearValveFaults_startView 0xFFFFF x
  rw [beginPrime, primeFrame_startView]
  generalize clearValveFaults 0xFFFFF x = y at h ⊢
  rw [editAct_startView, (setTarget_driven ..).reads Mgmt.startView, (setTarget_driven ..).reads Mgmt.startView]
  exact congrArg (fun v : ModState × Option StartJob × Option Bool × Bool =>
    (v.1, v.2.1.map (fun j => { j with primed := true }), v.2.2)) h

/-- The job that a step of a start leaves behind when it begins. -/
theorem beginStep_startView (cold : Bool) (step : Nat) (began : W64) (x : Module) :
    ∃ p, (beginStep cold step began x).mgmt.startView =
      (x.mgmt.module, some ⟨cold, step, x.ts, began, p⟩, x.mgmt.startDue, x.mgmt.coldNext) :=
  ⟨_, note_reads Mgmt.startView ..⟩

theorem enterStep_startView (cold : Bool) (step : Nat) (began : W64) (x : Module) :
    ∃ p, (enterStep cold step began x).mgmt.startView =
      (x.mgmt.module, some ⟨cold, step, x.ts, began, p⟩, x.mgmt.startDue, x.mgmt.coldNext) := by
  obtain ⟨p, hp⟩ := beginStep_startView cold step began x
  have hprime : (beginPrime (beginStep cold step began x)).mgmt.startView =
      (x.mgmt.module, some ⟨cold, step, x.ts, began, true⟩, x.mgmt.startDue, x.mgmt.coldNext) := by
    rw [beginPrime_startView]
    exact congrArg (fun v : ModState × Option StartJob × Option Bool × Bool =>
      (v.1, v.2.1.map (fun j => { j with primed := true }), v.2.2)) hp
  have hgroups (warm : Bool) (y : Module) :
      (repeatN (fun i z => domainOn warm (1344 + i) z) 52 (repeatN (fun f z => domainOn warm (1280 + f) z) 64
        (dataOn y))).mgmt.startView = y.mgmt.startView := by
    rw [repeatN_startView (fun i z => domainOn_startView ..), repeatN_startView (fun i z => domainOn_startView ..)]
    exact ite_reads (fun z => z.mgmt.startView) _ rfl rfl
  have htiles (y : Module) :
      ((startTiles y.mgmt).foldl (fun z ix => domainOn false ix z) y).mgmt.startView = y.mgmt.startView :=
    foldl_startView (fun z ix => domainOn_startView ..) _ y
  unfold enterStep
  extract_lets y groups tiles
  split
  · exact ⟨true, hprime⟩
  · exact ⟨p, (hgroups ..).trans hp⟩
  · exact ⟨p, (htiles y).trans hp⟩
  · split
    · exact ⟨true, hprime⟩
    · exact ⟨p, hp⟩
  · exact ⟨p, (hgroups ..).trans hp⟩
  · exact ⟨p, (htiles y).trans hp⟩
  · exact ⟨p, hp⟩

theorem toState_startView (t : ModState) (x : Module) :
    (toState t x).mgmt.startView = (t, x.mgmt.start, x.mgmt.startDue, x.mgmt.coldNext) :=
  Prod.ext (toState_module t x)
    (toState_reads (fun m => (m.start, m.startDue, m.coldNext)) t x)

/-- A due start begins in its first step, with the fault latches that end with it cleared (R445, R450). -/
theorem runStart_begins {cold : Bool} (hm : x.mgmt.module = .standby) (hup : skourUp x = true)
    (hd : x.mgmt.startDue = some cold) : ∃ j, (runStart cold [] x).mgmt.module = (if cold then .coldStart else .warmStart) ∧
      (runStart cold [] x).mgmt.start = some j ∧ j.cold = cold ∧ j.step = (if cold then 6 else 1) ∧
      (runStart cold [] x).mgmt.startDue = none := by
  unfold runStart
  rw [if_neg (by simp [hd, hm, hup])]
  extract_lets x1 x2 x3
  have h1 : x1.mgmt.startView = (x.mgmt.module, x.mgmt.start, none, x.mgmt.coldNext) := freshWritable_startView _
  have h2 : x2.mgmt.startView = ((if cold then .coldStart else .warmStart), x1.mgmt.start, x1.mgmt.startDue, x1.mgmt.coldNext) := by
    rw [clearBanks_startView, clearUnitFaults_startView, toState_startView]
  have h3 : x3.mgmt.startView = x2.mgmt.startView := by
    refine ite_reads (fun z => z.mgmt.startView) _ ((enableRevert_startView _).trans ?_) rfl
    exact ite_reads (fun z => z.mgmt.startView) _ (setE_startView ..) rfl
  obtain ⟨p, h⟩ := enterStep_startView cold (if cold then 6 else 1) x.ts x3
  rw [List.foldl_nil]
  generalize enterStep cold (if cold then 6 else 1) x.ts x3 = y at h ⊢
  obtain ⟨hmod, hrest⟩ := Prod.mk.inj h
  obtain ⟨hstart, hrest⟩ := Prod.mk.inj hrest
  obtain ⟨hdue, -⟩ := Prod.mk.inj hrest
  obtain ⟨hmod3, hrest⟩ := Prod.mk.inj (h3.trans h2)
  obtain ⟨-, hrest⟩ := Prod.mk.inj hrest
  obtain ⟨hdue3, -⟩ := Prod.mk.inj hrest
  obtain ⟨-, hrest⟩ := Prod.mk.inj h1
  obtain ⟨-, hrest⟩ := Prod.mk.inj hrest
  obtain ⟨hdue1, -⟩ := Prod.mk.inj hrest
  exact ⟨_, hmod.trans hmod3, hstart, rfl, rfl, hdue.trans (hdue3.trans hdue1)⟩

theorem runStart_of_none {cold : Bool} (fs : List StepFound) (hd : x.mgmt.startDue = none) : runStart cold fs x = x := by
  rw [runStart, if_pos (by simp [hd])]

/-! ### The steps of a start (R447, R449, R451) -/

section
variable {j : StartJob} (hj : s.sys.mgmt.start = some j)
include hj

theorem stepDone_of_apart (hs : startStands j s.sys.mgmt.module = false) (f : StepFound) : stepDone f s.sys = s.sys := by
  unfold stepDone
  rw [hj]
  dsimp only
  rw [if_pos (by simp [hs])]

theorem stepFail_of_apart (hs : startStands j s.sys.mgmt.module = false) (timeout : Bool) :
    stepFail timeout s.sys = s.sys := by
  unfold stepFail
  rw [hj]
  dsimp only
  rw [if_neg fun h => absurd h.2.1 (by simp [hs])]

theorem stepFail_of_early (ht : sinceT s.sys j.since ≤ stepLimit j.cold j.step) : stepFail true s.sys = s.sys := by
  unfold stepFail
  rw [hj]
  dsimp only
  rw [if_neg fun h => h.2.2.elim (by simp) (Nat.not_lt.2 ht)]

section
variable (hup : skourUp s.sys = true) (hs : startStands j s.sys.mgmt.module = true)
include hup hs


theorem stepDone_goesOn (hc : j.cold = true) (hk : j.step = 8 ∨ j.step = 9) : ∃ k,
    (stepDone .done s.sys).mgmt.start = some k ∧ k.cold = true ∧ k.step = j.step + 1 ∧ k.began = j.began := by
  have hnext : stepDone .done s.sys = nextStep j s.sys := by
    unfold stepDone
    rw [hj]
    dsimp only
    rw [if_neg (by simp [hup, hs]), hc]
    obtain h | h := hk
    · rw [h]
      rfl
    · rw [h]
      rfl
  obtain ⟨p, hp⟩ := enterStep_startView j.cold (j.step + 1) j.began s.sys
  obtain ⟨-, hrest⟩ := Prod.mk.inj hp
  rw [hnext]
  exact ⟨_, (Prod.mk.inj hrest).1, hc, rfl, rfl⟩

theorem stepDone_ends (hk : j.cold = true ∧ j.step = 11 ∨ j.cold = false ∧ j.step = 6) :
    stepDone .done s.sys = startDone j.cold j.began s.sys := by
  unfold stepDone
  rw [hj]
  dsimp only
  rw [if_neg (by simp [hup, hs])]
  obtain ⟨hc, h⟩ | ⟨hc, h⟩ := hk
  · rw [hc, h]
    rfl
  · rw [hc, h]
    rfl

theorem stepFail_false : stepFail false s.sys = failStart 1 s.sys := by
  unfold stepFail
  rw [hj]
  dsimp only
  rw [if_pos ⟨hup, hs, by simp⟩]
  rfl

end
end

/-- The end of a start: READY, with the start's mode in the report (R445, R447). -/
theorem startDone_ends (cold : Bool) (began : W64) (x : Module) :
    (startDone cold began x).mgmt.start = none ∧ (startDone cold began x).mgmt.module = .ready ∧
      getE (startDone cold began x) Ent.lastStart = (if cold then 1 else 2) ∧
      (cold = true → (startDone cold began x).mgmt.coldNext = false) := by
  unfold startDone
  extract_lets x1 x2 x3
  have h1 : x1.mgmt.start = none ∧ x1.mgmt.coldNext = (if cold then false else x.mgmt.coldNext) := ⟨rfl, rfl⟩
  have h3 : x3.mgmt.startView = x1.mgmt.startView := by
    refine ite_reads (fun z => z.mgmt.startView) _ ((setE_startView ..).trans ?_) ?_
    · exact (setE_startView ..).trans (setE_startView ..)
    · exact (setE_startView ..).trans (setE_startView ..)
  have hl : getE x3 Ent.lastStart = if cold then 1 else 2 := by
    have h2 : getE x2 Ent.lastStart = if cold then 1 else 2 := by
      rw [getE_setE_of_ne _ _ (by decide), getE_setE_self]
    refine ite_reads (fun z => getE z Ent.lastStart) _ ?_ h2
    rw [getE_setE_of_ne _ _ (by decide), h2]
  have hw (y : Module) : (writeTrims y).mgmt.startView = y.mgmt.startView := setE_startView ..
  have hwe (y : Module) : getE (writeTrims y) Ent.lastStart = getE y Ent.lastStart :=
    getE_setE_of_ne _ _ (by decide)
  have hv : (toState .ready (writeTrims (setE Ent.stackUsable (stackUsable x3.data) x3))).mgmt.startView =
      (.ready, x1.mgmt.start, x1.mgmt.startDue, x1.mgmt.coldNext) := by
    have hx := (hw _).trans ((setE_startView Ent.stackUsable (stackUsable x3.data) x3).trans h3)
    rw [toState_startView]
    exact congrArg (fun v : ModState × Option StartJob × Option Bool × Bool => (ModState.ready, v.2)) hx
  obtain ⟨hmod, hrest⟩ := Prod.mk.inj hv
  obtain ⟨hstart, hrest⟩ := Prod.mk.inj hrest
  obtain ⟨-, hcold⟩ := Prod.mk.inj hrest
  refine ⟨hstart.trans h1.1, hmod, ?_, fun hc => ?_⟩
  · rw [getE, onData_mgmt, ← getE, getE_toState _ _ (by decide), hwe, getE_setE_of_ne _ _ (by decide), hl]
  · exact hcold.trans (h1.2.trans (if_pos hc))

theorem dataOff_start (x : Module) : (dataOff x).mgmt.start = x.mgmt.start := by
  rw [dataOff, writeJ1_reads Mgmt.start, setThrottle_reads Mgmt.start]
  rfl

theorem openInlet_start (x : Module) : (openInlet x).mgmt.start = none := by
  rw [openInlet, setE_start, busDown, dataOff_start, groupOneOff, onCtrl, setE_start, editCool_start, editAct_start,
    onMgmt_mgmt]
  dsimp only
  generalize repeatN _ 4 _ = m1
  exact dset_start ..

theorem followSill_start (h : x.mgmt.start = none) : (followSill x).mgmt.start = none := by
  have hmoved (t : ModState) :
      (toState t (onMgmt (fun m => { m with start := none, startDue := none }) x)).mgmt.start = none :=
    toState_reads Mgmt.start t _
  have halarm (n c : Nat) (y : Module) (hy : y.mgmt.start = none) : (beginAlarm n c y).mgmt.start = none := by
    rw [beginAlarm, editBus_start, setE_start, hy]
  unfold followSill
  split
  · exact h
  · split
    · exact h
    · extract_lets x1 c
      split
      · exact halarm _ _ _ (hmoved _)
      · exact halarm _ _ _ (hmoved _)
      · exact hmoved _

/-- A start that fails is over, told with its step (R449). -/
theorem failStart_ends {j : StartJob} (cause : Nat) (hj : x.mgmt.start = some j) :
    (failStart cause x).mgmt.start = none ∧ getE (failStart cause x) Ent.startFault = j.step * 256 + cause ∧
      (x.mgmt.module = .coldStart ∨ x.mgmt.module = .warmStart → (failStart cause x).mgmt.module = .standby ∧
        (failStart cause x).data.on = false) := by
  unfold failStart
  rw [hj]
  dsimp -zeta only
  extract_lets x1 x2
  have h1 : x1.mgmt.start = none ∧ getE x1 Ent.startFault = j.step * 256 + cause := ⟨setE_start .., getE_setE_self ..⟩
  split
  case isTrue hoff =>
    have h2 : x2.mgmt.start = none ∧ getE x2 Ent.startFault = j.step * 256 + cause :=
      ⟨openInlet_start x1, (getE_openInlet x1 (by decide)).trans h1.2⟩
    have hfar : x.mgmt.module = .coldStart ∨ x.mgmt.module = .warmStart → False := by
      rintro (h | h)
      · obtain h' | h' := hoff <;> rw [h] at h' <;> exact absurd h' (by decide)
      · obtain h' | h' := hoff <;> rw [h] at h' <;> exact absurd h' (by decide)
    split
    · exact ⟨followSill_start h2.1, ((followSill_sameBut x2).entries _ (by decide)).trans h2.2, fun h => (hfar h).elim⟩
    · refine ⟨(toState_reads Mgmt.start ..).trans h2.1, (getE_toState _ _ (by decide)).trans h2.2, fun h => (hfar h).elim⟩
  case isFalse =>
    refine ⟨?_, ?_, fun _ => ⟨toState_module .., ?_⟩⟩
    · rw [toState_reads Mgmt.start]
      exact (dataOff_start x1).trans h1.1
    · rw [getE_toState _ _ (by decide)]
      exact (getE_dataOff x1).trans h1.2
    · rw [toState_data, editCool_data, dataOff_on]

/-- Settles O51: the clauses of the reference read what the moved REF leaves, a power-up keeps how Skour stands, and each step
of a start is read off the job it leaves. -/
theorem referenceAndStarts : Obligations.ReferenceAndStarts := by
  refine ⟨fun s => ⟨fun b lost h => oscFault_faults h, fun b h => oscGood_returns h, fun hs ha hf n =>
    oscRevert_reverts hs ha hf n⟩, fun s => ⟨fun f => powerApplied_powers f, fun f => exec_powerApplied_of_powered f,
    fun hm hup => ⟨fun hd => ?_, fun hd => ?_⟩, fun fs hd => ⟨?_, ?_⟩, fun j hj hup hs => ⟨fun hc hk => ?_, fun hc hk => ?_,
    fun hc hk => ?_, ?_, fun ht => ?_⟩, fun j hj hs f => ⟨?_, ?_⟩⟩⟩
  · obtain ⟨j, hmod, hstart, hc, hk, hdue⟩ := runStart_begins hm hup hd
    exact ⟨_, j, exec_coldStart s [], hmod, hstart, hc, hk, hdue⟩
  · obtain ⟨j, hmod, hstart, hc, hk, hdue⟩ := runStart_begins hm hup hd
    exact ⟨_, j, exec_warmStart s [], hmod, hstart, hc, hk, hdue⟩
  · rw [exec_coldStart, runStart_of_none fs hd]
  · rw [exec_warmStart, runStart_of_none fs hd]
  · obtain ⟨k, h⟩ := stepDone_goesOn hj hup hs hc hk
    exact ⟨_, k, exec_startStepDone s .done, h⟩
  · obtain ⟨hstart, hmod, hlast, hcold⟩ := startDone_ends j.cold j.began s.sys
    refine ⟨_, exec_startStepDone s .done, ?_⟩
    dsimp only
    rw [stepDone_ends hj hup hs (.inl ⟨hc, hk⟩)]
    exact ⟨hstart, hmod, hlast.trans (if_pos hc), hcold hc⟩
  · obtain ⟨hstart, hmod, hlast, -⟩ := startDone_ends j.cold j.began s.sys
    refine ⟨_, exec_startStepDone s .done, ?_⟩
    dsimp only
    rw [stepDone_ends hj hup hs (.inr ⟨hc, hk⟩)]
    exact ⟨hstart, hmod, hlast.trans (if_neg (by simp [hc]))⟩
  · refine ⟨_, exec_startStepFail s false, ?_⟩
    dsimp only
    rw [stepFail_false hj hup hs]
    exact failStart_ends 1 hj
  · rw [exec_startStepFail, stepFail_of_early hj ht]
  · rw [exec_startStepDone, stepDone_of_apart hj hs f]
  · rw [exec_startStepFail, stepFail_of_apart hj hs true]

end Sys2Proof.Machine
end

section
/-!
SUPPORT. The pairs' states, and what a restart leaves of the module. Then Skour's pairs, its restarts and the rack manager's
silence (O52).
-/

namespace Sys2Proof.Machine

-- As in the tests: one proof at a time, so that the whole text keeps within the threads that the memory holds.
set_option Elab.async false

variable {s t : State} {x y : Module} {k p : Nat}

/-! ### The pairs (R434 to R438) -/

theorem modifyAt_getD_self {α : Type} (f : α → α) (d : α) {l : List α} {n : Nat} (h : n < l.length) :
    (modifyAt f l n).getD n d = f (l.getD n d) := by
  induction l generalizing n with
  | nil => exact absurd h (Nat.not_lt_zero n)
  | cons a l ih =>
    cases n with
    | zero => rfl
    | succ n => exact ih (Nat.lt_of_succ_lt_succ h)

theorem modifyAt_getD_of_ne {α : Type} (f : α → α) (d : α) (l : List α) {n m : Nat} (h : m ≠ n) :
    (modifyAt f l n).getD m d = l.getD m d := by
  induction l generalizing n m with
  | nil => cases n <;> rfl
  | cons a l ih =>
    cases n with
    | zero => obtain ⟨m, rfl⟩ := Nat.exists_eq_succ_of_ne_zero h; rfl
    | succ n =>
      cases m with
      | zero => rfl
      | succ m => exact ih fun he => h (congrArg Nat.succ he)

theorem modifyAt_length {α : Type} (f : α → α) (l : List α) (n : Nat) : (modifyAt f l n).length = l.length := by
  induction l generalizing n with
  | nil => cases n <;> rfl
  | cons a l ih =>
    cases n with
    | zero => rfl
    | succ n => exact congrArg Nat.succ (ih n)

/-- A pair whose state changes has it, and the other keeps its own. -/
theorem setPair_pairs (p : Nat) (v : PairSt) (x : Module) :
    (p < x.mgmt.pairs.length → pairAt (setPair p v x).mgmt p = v) ∧
    (∀ q, q ≠ p → pairAt (setPair p v x).mgmt q = pairAt x.mgmt q) ∧
    (setPair p v x).mgmt.pairs.length = x.mgmt.pairs.length := by
  unfold setPair
  split
  case isTrue h => exact ⟨fun _ => h, fun _ _ => rfl, rfl⟩
  case isFalse =>
    extract_lets x1 code
    have h : (note 0 8 Ent.pairState (code (pairAt x1.mgmt 0) + 256 * code (pairAt x1.mgmt 1)) x1).mgmt.pairs =
        modifyAt (fun _ => v) x.mgmt.pairs p := note_reads Mgmt.pairs ..
    generalize note 0 8 Ent.pairState (code (pairAt x1.mgmt 0) + 256 * code (pairAt x1.mgmt 1)) x1 = y at h ⊢
    simp only [pairAt, h]
    exact ⟨fun hp => modifyAt_getD_self _ _ hp, fun q hq => modifyAt_getD_of_ne _ _ _ hq, modifyAt_length ..⟩

theorem setPair_reads {α : Type} (rd : Mgmt → α) (p : Nat) (v : PairSt) (x : Module) (h : RecordFree rd := by intro _; rfl)
    (hp : ∀ m ps, rd { m with pairs := ps } = rd m := by intro _ _; rfl) : rd (setPair p v x).mgmt = rd x.mgmt := by
  unfold setPair
  split
  · rfl
  · exact (note_reads rd _ _ _ _ _ h).trans (hp ..)

theorem setPair_ts (p : Nat) (v : PairSt) (x : Module) : (setPair p v x).ts = x.ts := by
  unfold setPair
  split
  · rfl
  · exact note_ts ..

/-- What a mismatched pair becomes: the third mismatch within 24 hours retires it. -/
def afterMismatchState (x : Module) (p : Nat) : PairSt :=
  if 2 ≤ (((x.mgmt.mismatches.getD p []).take 7).filter fun a => decide (sinceT x a < 86400000000000)).length then .retired
  else .selftest

/-- The mismatch told in the pair's history is the newest of it. -/
theorem afterMismatch_of_told (hp : p < x.mgmt.mismatches.length) (hts : y.ts = x.ts)
    (hm : y.mgmt.mismatches = modifyAt (fun l => x.ts :: l.take 7) x.mgmt.mismatches p) :
    afterMismatch p y = setPair p (afterMismatchState x p) y := by
  have hsince : (fun a => decide (sinceT y a < 86400000000000)) = fun a => decide (sinceT x a < 86400000000000) := by
    funext a
    rw [sinceT, hts, ← sinceT]
  have hnow : decide (sinceT x x.ts < 86400000000000) = true := by simp [sinceT]
  rw [afterMismatch, hsince, hm, modifyAt_getD_self _ _ hp, List.filter_cons_of_pos (p := fun a => decide (sinceT x a < 86400000000000)) hnow, List.length_cons,
    afterMismatchState]
  simp only [Nat.succ_le_succ_iff]

section
variable {q : Nat} (hrun : s.sys.mgmt.run ≠ .down) (hact : pairAt s.sys.mgmt p = .active)
  (hlen : p < s.sys.mgmt.mismatches.length)

/-- The active pair's mismatch as it is told. -/
def mismatchTold (p : Nat) (x : Module) : Module :=
  incE Ent.pairMismatches (onMgmt (fun m => { m with mismatches := modifyAt (fun l => x.ts :: l.take 7) m.mismatches p }) x)

theorem mismatchTold_reads {α : Type} (rd : Mgmt → α) (p : Nat) (x : Module) (h : RecordFree rd := by intro _; rfl)
    (hp : ∀ m l, rd { m with mismatches := l } = rd m := by intro _ _; rfl) : rd (mismatchTold p x).mgmt = rd x.mgmt :=
  (setE_reads rd _ _ _ h).trans (hp ..)

theorem mismatchTold_mismatches (p : Nat) (x : Module) :
    (mismatchTold p x).mgmt.mismatches = modifyAt (fun l => x.ts :: l.take 7) x.mgmt.mismatches p := setE_reads Mgmt.mismatches ..

theorem mismatchTold_pairAt (p q : Nat) (x : Module) : pairAt (mismatchTold p x).mgmt q = pairAt x.mgmt q := by
  rw [pairAt, mismatchTold_reads Mgmt.pairs, pairAt]

include hrun hact hlen

theorem lockstepMismatch_switches (hother : pairAt s.sys.mgmt q = .standby) (hq : q = 1 - p)
    (hpairs : s.sys.mgmt.pairs.length = 2) (hp : p < 2) :
    (lockstepMismatch p s.sys).mgmt.active = 1 - p ∧ pairAt (lockstepMismatch p s.sys).mgmt (1 - p) = .active ∧
      pairAt (lockstepMismatch p s.sys).mgmt p = afterMismatchState s.sys p := by
  subst hq
  have hne : 1 - p ≠ p := by omega
  unfold lockstepMismatch
  extract_lets o st x1
  have h1 : x1 = mismatchTold p s.sys := rfl
  have hst : st = .active := hact
  have hstandby : pairAt x1.mgmt o = .standby := by rw [h1, mismatchTold_pairAt]; exact hother
  rw [if_neg (by simp [hrun, hst]), if_neg (by simp [hst]), if_pos hstandby]
  have h2reads {α : Type} (rd : Mgmt → α) (h : RecordFree rd) (ha : ∀ m n, rd { m with active := n } = rd m) :
      rd (incE Ent.switchovers (onMgmt (fun m => { m with active := o }) x1)).mgmt = rd x1.mgmt :=
    (setE_reads rd _ _ _ h).trans (ha ..)
  have hactive : (incE Ent.switchovers (onMgmt (fun m => { m with active := o }) x1)).mgmt.active = o :=
    setE_reads Mgmt.active ..
  have hpairs2 := h2reads Mgmt.pairs (fun _ => rfl) fun _ _ => rfl
  have hmism2 := h2reads Mgmt.mismatches (fun _ => rfl) fun _ _ => rfl
  have hts2 : (incE Ent.switchovers (onMgmt (fun m => { m with active := o }) x1)).ts = s.sys.ts := rfl
  generalize incE Ent.switchovers (onMgmt (fun m => { m with active := o }) x1) = x2 at hactive hpairs2 hmism2 hts2 ⊢
  have hlen2 : x2.mgmt.pairs.length = 2 := by rw [hpairs2, h1, mismatchTold_reads Mgmt.pairs, hpairs]
  obtain ⟨hset, hkeep, hlen3⟩ := setPair_pairs o .active x2
  rw [afterMismatch_of_told (x := s.sys) hlen ((setPair_ts ..).trans hts2)
    ((setPair_reads Mgmt.mismatches ..).trans (hmism2.trans (h1 ▸ mismatchTold_mismatches p s.sys)))]
  obtain ⟨hsetp, hkeepp, -⟩ := setPair_pairs p (afterMismatchState s.sys p) (setPair o .active x2)
  refine ⟨?_, ?_, hsetp (by omega)⟩
  · rw [setPair_reads Mgmt.active, setPair_reads Mgmt.active, hactive]
  · exact (hkeepp o hne).trans (hset (by omega))

theorem lockstepMismatch_restarts (hother : pairAt s.sys.mgmt (1 - p) ≠ .standby) :
    ∃ beats, (lockstepMismatch p s.sys).mgmt.run = .restart s.sys.ts false beats := by
  unfold lockstepMismatch
  extract_lets o st x1
  have h1 : x1 = mismatchTold p s.sys := rfl
  have hst : st = .active := hact
  have hstandby : ¬ pairAt x1.mgmt o = .standby := by rw [h1, mismatchTold_pairAt]; exact hother
  rw [if_neg (by simp [hrun, hst]), if_neg (by simp [hst]), if_neg hstandby,
    afterMismatch_of_told (x := s.sys) (y := x1) hlen rfl (mismatchTold_mismatches p s.sys), stopSkour, onSill_mgmt, onMgmt_mgmt,
    setPair_ts]
  exact ⟨_, rfl⟩

end

theorem pairSelftest_ends (pass : Bool) (hst : pairAt s.sys.mgmt p = .selftest) (hup : skourUp s.sys = true)
    (hp : p < s.sys.mgmt.pairs.length) :
    pairAt (pairSelftest p pass s.sys).mgmt p = if pass then .resync else .retired := by
  rw [pairSelftest, if_pos ⟨hst, hup⟩]
  exact (setPair_pairs ..).1 hp

theorem pairResynced_ends (hst : pairAt s.sys.mgmt p = .resync) (hup : skourUp s.sys = true)
    (hp : p < s.sys.mgmt.pairs.length) : pairAt (pairResynced p s.sys).mgmt p = .standby := by
  rw [pairResynced, if_pos ⟨hst, hup⟩]
  exact (setPair_pairs ..).1 hp

/-! ### A restart of Skour (R454, R455) -/

/-- How the module stands while Skour comes back: the data plane, Sill without its copy of the journal, Skour's run, its
active pair, its state register and its start. -/
def Module.seat (x : Module) : Data × Sill × W64 × SkourRun × Nat × ModState × Option StartJob :=
  (x.data, { x.sill with copy := [] }, x.sf, x.mgmt.run, x.mgmt.active, x.mgmt.module, x.mgmt.start)

theorem Module.SameBut.seat {ks : List Nat} (h : x.SameBut ks y) (hm : y.mgmt.kept = x.mgmt.kept) : y.seat = x.seat := by
  have hread {α : Type} (rd : Mgmt → α) (hrd : RecordFree rd) : rd y.mgmt = rd x.mgmt := hrd.reads hm
  have hsill : { y.sill with copy := [] } = { x.sill with copy := [] } := h.reads fun l => { l with copy := [] }
  rw [Module.seat, h.data, hsill, h.sf, hread Mgmt.run fun _ => rfl, hread Mgmt.active fun _ => rfl,
    hread Mgmt.module fun _ => rfl, hread Mgmt.start fun _ => rfl]
  rfl

theorem note_seat (source kind key value : Nat) (x : Module) : (note source kind key value x).seat = x.seat :=
  (note_sameBut ..).seat (note_kept ..)

theorem raiseEvent_seat (obj : Nat) (detail : List Byte) (x : Module) : (raiseEvent obj detail x).seat = x.seat :=
  (raiseEvent_sameBut ..).seat (raiseEvent_kept ..)

theorem setE_seat (k v : Nat) (x : Module) : (setE k v x).seat = x.seat :=
  (setE_sameBut k v x).seat (dset_kept ..)

theorem incE_seat (k : Nat) (x : Module) : (incE k x).seat = x.seat := setE_seat ..

theorem editJoints_seat (f : Joints → Joints) (x : Module) : (editJoints f x).seat = x.seat := rfl

theorem commitEnt_seat (e : JEnt) (x : Module) : (commitEnt e x).seat = x.seat :=
  (commitEnt_sameBut e x).seat rfl

theorem onMgmt_seat {f : Mgmt → Mgmt} (x : Module) (h : ∀ m, (f m).kept = m.kept) : (onMgmt f x).seat = x.seat := by
  have hread {α : Type} (rd : Mgmt → α) (hrd : RecordFree rd) : rd (onMgmt f x).mgmt = rd x.mgmt := hrd.reads (h x.mgmt)
  rw [Module.seat, hread Mgmt.run fun _ => rfl, hread Mgmt.active fun _ => rfl, hread Mgmt.module fun _ => rfl,
    hread Mgmt.start fun _ => rfl]
  rfl

theorem recordEvent_seat (obj : Nat) (at_ : W64) (detail : List Byte) (x : Module) :
    (recordEvent obj at_ detail x).seat = x.seat := by
  unfold recordEvent
  extract_lets d24 jseq x1 n rec
  have h1 : x1.seat = x.seat := commitEnt_seat ..
  have h2 : (onMgmt (fun m => { m with eventSeq := if n = 0xFFFFFFFF then 1 else n + 1 }) x1).seat = x1.seat :=
    onMgmt_seat x1 fun _ => rfl
  exact (onMgmt_seat _ fun _ => rfl).trans ((setE_seat ..).trans (h2.trans h1))

theorem ite_seat (c : Prop) [Decidable c] (hy : y.seat = x.seat) : (if c then y else x).seat = x.seat :=
  ite_reads Module.seat c hy rfl

theorem onlyIf_seat (c : Bool) {f : Module → Module} (h : (f x).seat = x.seat) : (onlyIf c f x).seat = x.seat :=
  ite_seat _ h

theorem foldl_seat {α : Type} {f : Module → α → Module} (h : ∀ y a, (f y a).seat = y.seat) (l : List α) (x : Module) :
    (l.foldl f x).seat = x.seat := by
  induction l generalizing x with
  | nil => rfl
  | cons a l ih => exact (ih _).trans (h x a)

theorem writeImage_seat (records : Bool) (x : Module) : (writeImage records x).seat = x.seat := by
  cases records <;> exact setE_seat ..

theorem loadOver_seat (kept : SMap Nat) (f : StoreFound) (x : Module) : (loadOver kept f x).seat = x.seat := by
  rw [loadOver, setE_seat, setE_seat]
  rfl

theorem reloadStore_seat (f : StoreFound) (x : Module) : (reloadStore f x).seat = x.seat := by
  unfold reloadStore
  dsimp only
  rw [loadOver_seat, onlyIf_seat _ (writeImage_seat ..), onlyIf_seat _ (writeImage_seat ..)]

theorem syncCapacity_seat (x : Module) : (onMgmt syncCapacity x).seat = x.seat := by
  refine onMgmt_seat x fun m => ?_
  rw [syncCapacity, dset_kept, dset_kept, dset_kept]

theorem tellStore_seat (f : StoreFound) (bs : Nat) (x : Module) : (tellStore f bs x).seat = x.seat := by
  unfold tellStore
  split
  · rfl
  · rw [raiseEvent_seat, note_seat, setE_seat]

theorem readBack_seat (x : Module) : (readBack x).seat = x.seat := ite_seat _ rfl

theorem takeRecord_seat (x : Module) : (takeRecord x).seat = x.seat := by
  unfold takeRecord
  split
  · rfl
  · split
    · rfl
    · exact commitEnt_seat ..

theorem takeRecords_seat (x : Module) : (takeRecords x).seat = x.seat := by
  unfold takeRecords
  exact repeatN_keeps Module.seat (f := fun _ y => takeRecord y) (fun _ y => takeRecord_seat y) _ x

theorem takeQueue_seat (x : Module) : (takeQueue x).seat = x.seat := by
  unfold takeQueue
  extract_lets lost x1 x2 n
  have h2 : x2.seat = x.seat := by
    refine (foldl_seat (fun y q => ?_) _ x1).trans rfl
    exact ite_reads Module.seat _ (recordEvent_seat ..) (commitEnt_seat ..)
  have hn (k : Nat) (y : Module) : (n k y).seat = y.seat := setE_seat ..
  split
  · exact h2
  · rw [recordEvent_seat, note_seat, hn, hn, h2]

theorem assignSill_seat (x : Module) : (assignSill x).seat = x.seat := by
  have hfold (l : List JEnt) (a : List JEnt × Mgmt) :
      (l.foldl (fun (a : List JEnt × Mgmt) e =>
        if e.sequence = 0 then (a.1 ++ [{ e with sequence := a.2.jNext }], journalPut e a.2) else (a.1 ++ [e], a.2)) a).2.kept =
        a.2.kept := by
    induction l generalizing a with
    | nil => rfl
    | cons e l ih =>
      refine (ih _).trans ?_
      dsimp only
      split
      · rfl
      · rfl
  have h := hfold x.sill.copy ([], x.mgmt)
  unfold assignSill
  dsimp only
  generalize List.foldl _ _ x.sill.copy = r at h ⊢
  have hread {α : Type} (rd : Mgmt → α) (hrd : RecordFree rd) : rd r.2 = rd x.mgmt := hrd.reads h
  rw [Module.seat, hread Mgmt.run fun _ => rfl, hread Mgmt.active fun _ => rfl, hread Mgmt.module fun _ => rfl,
    hread Mgmt.start fun _ => rfl]
  rfl

theorem restartPairs_active {m : Mgmt} (h : pairAt m m.active = .active) : (restartPairs m true true).2 = some m.active := by
  unfold restartPairs
  extract_lets ok first c
  have hfirst : first = m.active := if_pos h
  have hok : ok first = true := by
    rw [hfirst]
    simp [ok, h]
  rw [show c = some first from if_pos hok, hfirst]

theorem restartPairs_none (m : Mgmt) : (restartPairs m false false).2 = none := by
  unfold restartPairs
  extract_lets ok first c
  have hok (p : Nat) : ok p = false := by simp [ok]
  rw [show c = none from (if_neg (by simp [hok])).trans (if_neg (by simp [hok]))]

theorem mgmtWarmStart_returns {since : W64} {ordered : Bool} {beats : Nat} (hrun : s.sys.mgmt.run = .restart since ordered beats)
    (hstart : s.sys.mgmt.start = none) (hact : pairAt s.sys.mgmt s.sys.mgmt.active = .active) (hf : forcedState s.sys = none) :
    ∃ l, (mgmtWarmStart true true .fine s.sys).seat = (s.sys.data, l, s.sys.sf, .up, s.sys.mgmt.active, s.sys.mgmt.module, none) ∧
      l.safeStop = s.sys.sill.safeStop ∧ l.leakCut = s.sys.sill.leakCut ∧ l.lastService = s.sys.sf ∧ l.longWindow = none := by
  unfold mgmtWarmStart
  rw [hrun]
  dsimp -zeta only
  extract_lets r
  rw [show r.2 = some s.sys.mgmt.active from restartPairs_active hact, hstart]
  dsimp -zeta only
  extract_lets x1 x3 x4 x5 x6 x7 x8
  have h7 : x7.seat = (s.sys.data, { s.sys.sill with copy := [] }, s.sys.sf, .up, s.sys.mgmt.active, s.sys.mgmt.module, none) := by
    rw [editJoints_seat, note_seat, setE_seat, setE_seat, incE_seat, onlyIf_seat _ rfl, assignSill_seat, takeQueue_seat,
      takeRecords_seat, tellStore_seat, readBack_seat, syncCapacity_seat, reloadStore_seat, ← hstart]
    rfl
  clear_value x7
  simp only [Module.seat, Prod.mk.injEq] at h7
  obtain ⟨hdata, hsill, hsf, hup, hactive, hmodule, hstart7⟩ := h7
  have hun7 : x7.sill.unlatched := unlatched_of_copy hsill (forcedState_eq_none.1 hf)
  have hun : x8.sill.unlatched := hun7
  rw [followSill_of_unlatched hun, Module.seat, show x8.data = x7.data from rfl, show x8.mgmt = x7.mgmt from rfl,
    show x8.sf = x7.sf from rfl, hdata, hsf, hup, hactive, hmodule, hstart7]
  have hsafe : x7.sill.safeStop = s.sys.sill.safeStop := (congrArg Sill.safeStop hsill).trans rfl
  have hleak : x7.sill.leakCut = s.sys.sill.leakCut := (congrArg Sill.leakCut hsill).trans rfl
  exact ⟨_, rfl, hsafe, hleak, hsf, rfl⟩

theorem mgmtWarmStart_downs {since : W64} {ordered : Bool} {beats : Nat} (f : StoreFound)
    (hrun : s.sys.mgmt.run = .restart since ordered beats) : (mgmtWarmStart false false f s.sys).mgmt.run = .down ∧
      (mgmtWarmStart false false f s.sys).data = s.sys.data := by
  unfold mgmtWarmStart
  rw [hrun]
  dsimp -zeta only
  extract_lets r
  rw [show r.2 = none from restartPairs_none _]
  exact ⟨rfl, rfl⟩

/-! ### The rack manager's silence (R461) -/

theorem getE_syncAutonomy (x : Module) (h : k ≠ Ent.autonomous ∧ k ≠ 0x20FF03 ∧ k ≠ Ent.autonomyEvents) :
    getE (syncAutonomy x) k = getE x k := by
  obtain ⟨hauto, hevent, hcount⟩ := h
  unfold syncAutonomy
  dsimp only
  split
  · rfl
  · rw [getE_raiseEvent _ _ hevent]
    refine ite_reads (fun z => getE z k) _ ?_ (getE_setE_of_ne _ _ hauto)
    exact (getE_setE_of_ne _ _ hcount).trans (getE_setE_of_ne _ _ hauto)

theorem setRackAlive_rackAlive (v : Nat) (x : Module) : getE (setRackAlive v x) Ent.rackAlive = v := by
  unfold setRackAlive
  split
  case isTrue h => exact h.symm
  case isFalse => rw [getE_syncAutonomy _ (by decide), getE_raiseEvent _ _ (by decide), getE_setE_self]

theorem rackAliveTimeout_ends {a : W64} (hup : skourUp s.sys = true) (ha : s.sys.mgmt.joints.rackLast = some a) :
    (5000000000 < sinceT s.sys a → ∃ t, exec .rackAliveTimeout s = .next t ∧ getE t.sys Ent.rackAlive = 0) ∧
    (sinceT s.sys a ≤ 5000000000 → exec .rackAliveTimeout s = .next s) := by
  refine ⟨fun h => ⟨_, exec_rackAliveTimeout s, ?_⟩, fun h => ?_⟩
  · dsimp only
    unfold rackAliveTimeout
    rw [ha]
    dsimp only
    rw [if_pos ⟨hup, h⟩, setRackAlive_rackAlive]
  · rw [exec_rackAliveTimeout]
    unfold rackAliveTimeout
    rw [ha]
    dsimp only
    rw [if_neg fun hx => hx.2.not_ge h]

/-- Settles O52: the pairs' clauses by the pairs' list, the restart by what each stage of it leaves of the module's seat. -/
theorem pairsRestartsAndSilence : Obligations.PairsRestartsAndSilence := by
  refine ⟨fun s p hpairs hmism => ?_, fun s => ⟨fun since ordered beats hrun => ⟨fun hstart hact _ hf => ?_, fun f =>
    ⟨_, exec_mgmtWarmStart s false false f, mgmtWarmStart_downs f hrun⟩⟩, fun a hup ha => rackAliveTimeout_ends hup ha⟩⟩
  · have hlen : p.val < s.sys.mgmt.pairs.length := by rw [hpairs]; exact p.isLt
    have hlenm : p.val < s.sys.mgmt.mismatches.length := by rw [hmism]; exact p.isLt
    refine ⟨fun hact hother hrun => ?_, fun hact hother hrun => ?_, fun hst hup => ⟨?_, ?_⟩, fun hst hup => ?_⟩
    · exact ⟨_, exec_lockstepMismatch s p, lockstepMismatch_switches hrun hact hlenm hother rfl hpairs p.isLt⟩
    · exact ⟨_, exec_lockstepMismatch s p, lockstepMismatch_restarts hrun hact hlenm hother⟩
    · exact ⟨_, exec_pairSelftestDone s p true, pairSelftest_ends true hst hup hlen⟩
    · exact ⟨_, exec_pairSelftestDone s p false, pairSelftest_ends false hst hup hlen⟩
    · exact ⟨_, exec_pairResyncDone s p, pairResynced_ends hst hup hlen⟩
  · obtain ⟨l, hseat, hsafe, hleak, hlast, hlong⟩ := mgmtWarmStart_returns hrun hstart hact hf
    simp only [Module.seat, Prod.mk.injEq] at hseat
    obtain ⟨hdata, hsill, -, hup, hactive, hmodule, -⟩ := hseat
    subst hsill
    exact ⟨_, exec_mgmtWarmStart s true true .fine, by rw [skourUp, hup]; rfl, hactive, hmodule, hdata, hsafe, hleak,
      hlast, hlong⟩

end Sys2Proof.Machine
end

section
/-!
SUPPORT. The channels of the rack bus and the frames that leave on them. Then alarms and the other messages (O53).
-/

namespace Sys2Proof.Machine

-- As in the tests: one proof at a time, so that the whole text keeps within the threads that the memory holds.
set_option Elab.async false

variable {s t : State} {x y : Module} {k c : Nat}

/-! ### Channels and what leaves -/

theorem busOf_editChannel_self (c : Nat) (f : BusChan → BusChan) (x : Module) :
    busOf (editChannel c f x) c = f (busOf x c) := look_insertKey_self ..

theorem busOf_editChannel_of_ne {n c : Nat} (f : BusChan → BusChan) (x : Module) (h : n ≠ c) :
    busOf (editChannel c f x) n = busOf x n := look_insertKey_of_ne _ _ _ h

theorem busOf_congr (h : y.mgmt.bus.chans = x.mgmt.bus.chans) (n : Nat) : busOf y n = busOf x n := by
  rw [busOf, h, ← busOf]

theorem emit_sent (m : Sent) (x : Module) : (emit m x).mgmt.bus.sent.getLast? = some m := by
  have h (l : List Sent) : ((l ++ [m]).drop ((l ++ [m]).length - 64)).getLast? = some m := by
    rw [List.drop_append_of_le_length (by simp), List.getLast?_append]
    rfl
  exact h x.mgmt.bus.sent

/-- A frame that leaves changes what was sent alone. -/
theorem emit_reads {α : Type} (rd : Mgmt → α) (m : Sent) (x : Module)
    (h : ∀ m l, rd { m with bus := { m.bus with sent := l } } = rd m := by intro _ _; rfl) : rd (emit m x).mgmt = rd x.mgmt :=
  h ..

theorem measureLoop_reads {α : Type} (rd : Mgmt → α) (c quanta : Nat) (x : Module) (h : RecordFree rd := by intro _; rfl) :
    rd (measureLoop c quanta x).mgmt = rd x.mgmt :=
  ite_reads (fun z => rd z.mgmt) _ rfl (setE_reads rd _ _ x h)

/-- The management plane but for its records, its channels and what was sent. -/
def Mgmt.unsent (m : Mgmt) : Mgmt := { m.kept with bus := { m.kept.bus with sent := [], chans := [] } }

/-- A reader that looks neither at records, nor at channels, nor at what was sent. -/
def SendFree {α : Type} (rd : Mgmt → α) : Prop := ∀ m, rd m.unsent = rd m

theorem SendFree.reads {α : Type} {rd : Mgmt → α} (h : SendFree rd) {m n : Mgmt} (hk : m.unsent = n.unsent) : rd m = rd n := by
  rw [← h m, hk, h n]

theorem unsent_of_kept {m n : Mgmt} (h : m.kept = n.kept) : m.unsent = n.unsent :=
  congrArg (fun l : Mgmt => { l with bus := { l.bus with sent := [], chans := [] } }) h

theorem emit_unsent (m : Sent) (x : Module) : (emit m x).mgmt.unsent = x.mgmt.unsent :=
  emit_reads Mgmt.unsent m x

theorem editChannel_unsent (c : Nat) (f : BusChan → BusChan) (x : Module) :
    (editChannel c f x).mgmt.unsent = x.mgmt.unsent := rfl

theorem setE_unsent (k v : Nat) (x : Module) : (setE k v x).mgmt.unsent = x.mgmt.unsent :=
  unsent_of_kept (dset_kept ..)

theorem incE_unsent (k : Nat) (x : Module) : (incE k x).mgmt.unsent = x.mgmt.unsent := setE_unsent ..

theorem onMgmt_dsetBits_unsent (k mask : Nat) (x : Module) :
    (onMgmt (dsetBits k mask) x).mgmt.unsent = x.mgmt.unsent := unsent_of_kept (dset_kept ..)

theorem raiseEvent_unsent (obj : Nat) (detail : List Byte) (x : Module) :
    (raiseEvent obj detail x).mgmt.unsent = x.mgmt.unsent := unsent_of_kept (raiseEvent_kept ..)

theorem ite_unsent {z : Module} (p : Prop) [Decidable p] (hy : y.mgmt.unsent = x.mgmt.unsent) (hz : z.mgmt.unsent = x.mgmt.unsent) :
    (if p then y else z).mgmt.unsent = x.mgmt.unsent := ite_reads (fun w => w.mgmt.unsent) p hy hz

theorem foldl_unsent {α : Type} {f : Module → α → Module} (h : ∀ y a, (f y a).mgmt.unsent = y.mgmt.unsent) (l : List α)
    (x : Module) : (l.foldl f x).mgmt.unsent = x.mgmt.unsent := by
  induction l generalizing x with
  | nil => rfl
  | cons a l ih => exact (ih _).trans (h x a)

theorem queueMsg_unsent (c : Nat) (m : QMsg) (x : Module) : (queueMsg c m x).mgmt.unsent = x.mgmt.unsent :=
  ite_unsent _ ((onMgmt_dsetBits_unsent ..).trans (incE_unsent ..)) (editChannel_unsent ..)

theorem etherAlarm_unsent (data : List Byte) (x : Module) : (etherAlarm data x).mgmt.unsent = x.mgmt.unsent :=
  foldl_unsent (fun _ _ => emit_unsent ..) _ x

theorem sendQueued_unsent (c : Nat) (go stay : List QMsg) (x : Module) :
    (sendQueued c go stay x).mgmt.unsent = x.mgmt.unsent :=
  (foldl_unsent (fun _ _ => emit_unsent ..) _ _).trans (editChannel_unsent ..)

theorem sendUrgent_unsent (c : Nat) (x : Module) : (sendUrgent c x).mgmt.unsent = x.mgmt.unsent := sendQueued_unsent ..

theorem sendAlarm_unsent (a : Alarm) (x : Module) : (sendAlarm a x).mgmt.unsent = x.mgmt.unsent := by
  have hsends (m : QMsg) : (repeatN (fun c y => if mayCarry y c 0 then emit ⟨c, m.ident, m.data⟩ y
      else if (busOf y c).st = .recovering then queueMsg c m y else y) 2 x).mgmt.unsent = x.mgmt.unsent := by
    refine repeatN_keeps (fun y : Module => y.mgmt.unsent) (fun c y => ?_) 2 x
    split
    · exact emit_unsent ..
    · split
      · exact queueMsg_unsent ..
      · rfl
  unfold sendAlarm
  extract_lets m x1
  have h1 : x1.mgmt.unsent = x.mgmt.unsent := hsends m
  clear_value x1
  split
  · exact (etherAlarm_unsent ..).trans h1
  · exact h1

theorem sendAlarm_reads {α : Type} (rd : Mgmt → α) (a : Alarm) (x : Module) (h : SendFree rd := by intro _; rfl) :
    rd (sendAlarm a x).mgmt = rd x.mgmt := h.reads (sendAlarm_unsent a x)

/-! ### Alarms (R490, R494) -/

/-- An alarm with its sends counted. -/
def Alarm.bump (seq : Nat) (at_ : W64) (a : Alarm) : Alarm :=
  if a.seq = seq then { a with repeats := a.repeats + 1, sentAt := at_ } else a

theorem Alarm.bump_seq (seq : Nat) (at_ : W64) (a : Alarm) : (a.bump seq at_).seq = a.seq := by
  unfold Alarm.bump
  split <;> rfl

theorem Alarm.bump_code (seq : Nat) (at_ : W64) (a : Alarm) : (a.bump seq at_).code = a.code := by
  unfold Alarm.bump
  split <;> rfl

theorem bumpAlarm_sent (seq : Nat) (x : Module) : (bumpAlarm seq x).mgmt.bus.sent = x.mgmt.bus.sent := rfl

theorem bumpAlarm_alarms (seq : Nat) (x : Module) :
    (bumpAlarm seq x).mgmt.bus.alarms = x.mgmt.bus.alarms.map (Alarm.bump seq x.ts) := rfl

theorem bumpAlarm_sendAlarm_alarms (seq : Nat) (a : Alarm) (x : Module) :
    ∃ at_, (bumpAlarm seq (sendAlarm a x)).mgmt.bus.alarms = x.mgmt.bus.alarms.map (Alarm.bump seq at_) :=
  ⟨_, (bumpAlarm_alarms ..).trans (congrArg (List.map _) (sendAlarm_reads (fun m => m.bus.alarms) a x))⟩

/-- One send of each alarm of a list counts each of those once, and keeps every sequence number and code. -/
theorem foldl_bumpAlarm (l : List Alarm) (x : Module) :
    let z := l.foldl (fun y a => bumpAlarm a.seq (sendAlarm a y)) x
    z.mgmt.bus.alarms.map (fun a => (a.seq, a.code, a.repeats)) =
      x.mgmt.bus.alarms.map fun a => (a.seq, a.code, a.repeats + (l.map Alarm.seq).count a.seq) := by
  induction l generalizing x with
  | nil => rfl
  | cons b l ih =>
    obtain ⟨at_, h⟩ := bumpAlarm_sendAlarm_alarms b.seq b x
    refine (ih (bumpAlarm b.seq (sendAlarm b x))).trans ?_
    rw [h, List.map_map]
    refine List.map_congr_left fun a _ => ?_
    rw [Function.comp_apply, Alarm.bump_seq, Alarm.bump_code, List.map_cons, List.count_cons, Alarm.bump]
    by_cases ha : a.seq = b.seq
    · rw [if_pos ha, if_pos (by simp [ha])]
      dsimp only
      rw [Nat.add_assoc, Nat.add_comm 1]
    · rw [if_neg ha, if_neg (by simpa using Ne.symm ha)]
      rfl

theorem alarmsOut_sends (hup : skourUp x = true) (h0 : ∀ a ∈ x.mgmt.bus.alarms, a.repeats = 0)
    (hn : (x.mgmt.bus.alarms.map Alarm.seq).Nodup) : (∀ a ∈ (alarmsOut x).mgmt.bus.alarms, a.repeats = 1) ∧
      (alarmsOut x).mgmt.bus.alarms.map Alarm.code = x.mgmt.bus.alarms.map Alarm.code := by
  have hall : (x.mgmt.bus.alarms.filter fun a => a.repeats == 0) = x.mgmt.bus.alarms :=
    List.filter_eq_self.2 fun a ha => by simp [h0 a ha]
  rw [alarmsOut, if_neg (by simp [hup]), hall]
  have h := foldl_bumpAlarm x.mgmt.bus.alarms x
  dsimp only at h
  generalize x.mgmt.bus.alarms.foldl _ x = z at h ⊢
  have hone : z.mgmt.bus.alarms.map (fun a => (a.seq, a.code, a.repeats)) =
      x.mgmt.bus.alarms.map fun a => (a.seq, a.code, 1) := by
    rw [h]
    refine List.map_congr_left fun a ha => ?_
    rw [h0 a ha, List.count_eq_one_of_mem hn (List.mem_map_of_mem ha)]
  refine ⟨fun a ha => ?_, ?_⟩
  · have hmem : (a.seq, a.code, a.repeats) ∈ x.mgmt.bus.alarms.map fun a => (a.seq, a.code, 1) := by
      rw [← hone]
      exact List.mem_map_of_mem (f := fun a : Alarm => (a.seq, a.code, a.repeats)) ha
    obtain ⟨b, -, hb⟩ := List.mem_map.1 hmem
    exact (congrArg (fun p : Nat × Nat × Nat => p.2.2) hb).symm
  · have hcode (l : List Alarm) (f : Alarm → Nat) :
        (l.map fun a => (a.seq, a.code, f a)).map (fun p : Nat × Nat × Nat => p.2.1) = l.map Alarm.code := List.map_map
    rw [← hcode _ Alarm.repeats, hone, hcode _ fun _ => 1]

theorem busOf_emit (m : Sent) (x : Module) (c : Nat) : busOf (emit m x) c = busOf x c :=
  busOf_congr (emit_reads (fun m => m.bus.chans) m x) c

theorem mayCarry_emit (m : Sent) (x : Module) (c cls : Nat) : mayCarry (emit m x) c cls = mayCarry x c cls := by
  rw [mayCarry, mayCarry, chanUp, chanUp, busOf_emit]

theorem chanUp_of_mayCarry {cls : Nat} (h : mayCarry x c cls = true) : chanUp x c = true :=
  (Bool.and_eq_true_iff.1 h).1

/-- A channel that is up is not bus-off or off. -/
theorem channelFor_of_up (h : chanUp x c = true) : channelFor x c = some c := by
  unfold channelFor
  dsimp only
  rw [if_pos]
  cases hst : (busOf x c).st <;> simp [chanUp, hst] at h ⊢

/-- An alarm that both channels carry leaves on channel 0, then on channel 1 (R494). -/
theorem sendAlarm_of_both (a : Alarm) (h0 : mayCarry x 0 0 = true) (h1 : mayCarry x 1 0 = true) :
    sendAlarm a x = emit ⟨1, identOf 0 (ownAddress x) 0, alarmData a⟩
      (emit ⟨0, identOf 0 (ownAddress x) 0, alarmData a⟩ x) := by
  unfold sendAlarm
  dsimp only
  have hup : ¬ (channelFor x 0).isNone = true := by
    rw [channelFor_of_up (chanUp_of_mayCarry h0)]
    exact Bool.false_ne_true
  rw [if_neg hup, repeatN, repeatN, repeatN, if_pos h0, if_pos ((mayCarry_emit ..).trans h1)]

theorem find?_map_bump (seq : Nat) (at_ : W64) {a : Alarm} {l : List Alarm} (h : l.find? (fun a => a.seq == seq) = some a) :
    (l.map (Alarm.bump seq at_)).find? (fun a => a.seq == seq) = some { a with repeats := a.repeats + 1, sentAt := at_ } := by
  have hcomp : (fun b : Alarm => b.seq == seq) ∘ Alarm.bump seq at_ = fun b => b.seq == seq := by
    funext b
    rw [Function.comp_apply, Alarm.bump_seq]
  have hseq : a.seq = seq := by simpa using List.find?_some h
  rw [List.find?_map, hcomp, h, Option.map_some, Alarm.bump, if_pos hseq]

theorem alarmRepeat_sends {seq : Nat} {a : Alarm} (ha : x.mgmt.bus.alarms.find? (fun a => a.seq == seq) = some a)
    (hup : skourUp x = true) (h1 : 1 ≤ a.repeats) (h10 : a.repeats ≤ 10) (hs : 1000000000 ≤ sinceT x a.sentAt)
    (hc0 : mayCarry x 0 0 = true) (hc1 : mayCarry x 1 0 = true) :
    ∃ b, (alarmRepeat seq x).mgmt.bus.alarms.find? (fun a => a.seq == seq) = some b ∧ b.repeats = a.repeats + 1 ∧
      (alarmRepeat seq x).mgmt.bus.sent.getLast? = some ⟨1, identOf 0 (ownAddress x) 0, alarmData a⟩ := by
  unfold alarmRepeat
  rw [ha]
  dsimp only
  rw [if_pos ⟨hup, h1, h10, hs⟩, sendAlarm_of_both a hc0 hc1]
  rw [bumpAlarm_alarms, bumpAlarm_sent, emit_sent]
  rw [emit_reads (fun m => m.bus.alarms), emit_reads (fun m => m.bus.alarms)]
  exact ⟨_, find?_map_bump seq _ ha, rfl, rfl⟩

theorem alarmRepeat_of_done {seq : Nat} {a : Alarm} (ha : x.mgmt.bus.alarms.find? (fun a => a.seq == seq) = some a)
    (h : 10 < a.repeats ∨ sinceT x a.sentAt < 1000000000) : alarmRepeat seq x = x := by
  unfold alarmRepeat
  rw [ha]
  dsimp only
  rw [if_neg]
  rintro ⟨-, -, h10, hs⟩
  exact h.elim h10.not_gt hs.not_gt

/-- Another module's alarm is kept once for its source and number. -/
theorem alarmIn_keeps {i : BitVec 29} {bs : List Byte} (hc : chanUp x c = true) (hi : ignoredIdent i = false)
    (hcls : bits 25 21 i.toNat = 0) (hlen : bs.length = 16) :
    ∃ r ∈ (alarmIn c i bs x).mgmt.bus.heard, r.take 3 = (natLe 1 (bits 20 13 i.toNat) ++ bs).take 3 ∧
      alarmIn c i bs (alarmIn c i bs x) = alarmIn c i bs x := by
  have hstep (y : Module) (hy : chanUp y c = true) : alarmIn c i bs y =
      if y.mgmt.bus.heard.any fun h => h.take 3 == (natLe 1 (bits 20 13 i.toNat) ++ bs).take 3 then y
      else editBus (fun b => { b with heard := ((natLe 1 (bits 20 13 i.toNat) ++ bs) :: b.heard).take 64 }) y := by
    rw [alarmIn, if_neg (by simp [hi]), if_neg (by simp [hy, hcls, hlen])]
  have hknown {y : Module} (hy : chanUp y c = true) {r : List Byte} (hr : r ∈ y.mgmt.bus.heard)
      (ht : r.take 3 = (natLe 1 (bits 20 13 i.toNat) ++ bs).take 3) : alarmIn c i bs y = y := by
    have hany : (y.mgmt.bus.heard.any fun h => h.take 3 == (natLe 1 (bits 20 13 i.toNat) ++ bs).take 3) = true :=
      List.any_eq_true.2 ⟨r, hr, by rw [ht]; exact beq_self_eq_true _⟩
    rw [hstep y hy, if_pos hany]
  by_cases h : x.mgmt.bus.heard.any fun h => h.take 3 == (natLe 1 (bits 20 13 i.toNat) ++ bs).take 3
  · obtain ⟨r, hr, ht⟩ := List.any_eq_true.1 h
    have ht' := beq_iff_eq.1 ht
    rw [hknown hc hr ht']
    exact ⟨r, hr, ht', hknown hc hr ht'⟩
  · have hx := (hstep x hc).trans (if_neg h)
    have hmem : (natLe 1 (bits 20 13 i.toNat) ++ bs) ∈ (alarmIn c i bs x).mgmt.bus.heard := by
      rw [hx]
      exact List.mem_cons_self
    refine ⟨_, hmem, rfl, hknown ?_ hmem rfl⟩
    rw [hx]
    exact hc

/-! ### Statuses and missed windows (R482, R491) -/

theorem statusSend_sends {w idle : Nat} (loop : Nat) (hw : statusWindow x w = true) (he : exclusiveOk x = true)
    (hi : idle ≤ latestStart x c) (hc : mayCarry x c 4 = true) (hup : skourUp x = true) (hs : x.mgmt.bus.status ≠ []) :
    (statusSend c w idle loop x).mgmt.bus.sent.getLast? = some ⟨c, identOf 4 (ownAddress x) (winSelector (windowNow x w)),
      x.mgmt.bus.status ++ natLe 8 (basicCycle x * 10000000 + 625000 * w)⟩ := by
  rw [statusSend, if_pos ⟨hw, he, hc, hi, hs⟩]
  dsimp only
  rw [if_pos hup, measureLoop_reads (fun m => m.bus.sent), emit_sent]

theorem statusSend_of_apart {w idle : Nat} (loop : Nat) (h : statusWindow x w = false ∨ latestStart x c < idle) :
    statusSend c w idle loop x = x := by
  rw [statusSend, if_neg]
  rintro ⟨hw, -, -, hi, -⟩
  obtain h | h := h
  · exact Bool.false_ne_true (h.symm.trans hw)
  · exact hi.not_gt h

theorem windowMissed_counts {w idle : Nat} (he : exclusiveOk x = true)
    (hw : statusWindow x w = true ∨ (w = 0 ∧ sendsReference x = true)) (hi : latestStart x c < idle)
    (hc : chanUp x c = true) (hkeys : Ent.chanFlags + c ≠ Ent.windowMissed + c) :
    getE (windowMissed c w idle x) (Ent.windowMissed + c) = (getE x (Ent.windowMissed + c) + 1) % 2 ^ 32 ∧
      dbit (windowMissed c w idle x).mgmt (Ent.chanFlags + c) 5 = true := by
  rw [windowMissed, if_pos ⟨hi, hw, he, hc⟩]
  refine ⟨?_, dbit_onMgmt_dsetBits _ (by decide)⟩
  exact (dget_dset_of_ne _ _ hkeys.symm).trans (getE_incE_self ..)

theorem windowMissed_of_early {w idle : Nat} (hi : idle ≤ latestStart x c) : windowMissed c w idle x = x := by
  rw [windowMissed, if_neg fun h => h.1.not_ge hi]

/-! ### Events (R488, R526) -/

theorem queueMsg_events (c : Nat) (m : QMsg) (x : Module) : (queueMsg c m x).mgmt.bus.events = x.mgmt.bus.events := by
  refine ite_reads (fun z => z.mgmt.bus.events) _ ?_ rfl
  exact (congrArg Bus.events (dset_bus ..)).trans (congrArg Bus.events (incE_bus ..))

theorem queueMsg_queue (m : QMsg) (h : (busOf x c).queue.length < 24) :
    (busOf (queueMsg c m x) c).queue = queueIn m (busOf x c).queue := by
  rw [queueMsg, if_neg fun hf => hf.2.not_gt h, busOf_editChannel_self]

theorem eventSend_sends {r : List Byte} {rest : List (List Byte)} (hr : x.mgmt.bus.events = r :: rest) (hup : skourUp x = true)
    (ht : targetsOf x = []) : (eventSend x).mgmt.bus.events = rest ∧
      ∀ c, channelFor x (getE x Ent.eventChannel) = some c → ownAddress x ≠ 0 → (busOf x c).queue.length < 24 →
        (busOf (eventSend x) c).queue = queueIn ⟨identOf 5 (ownAddress x) 0, 5, dlcPad r⟩ (busOf x c).queue := by
  unfold eventSend
  rw [hr]
  dsimp -zeta only
  rw [if_neg (by simp [hup]), ht]
  extract_lets x1 x2
  have hevents : x2.mgmt.bus.events = rest := by
    unfold x2
    split
    · exact ite_reads (fun z => z.mgmt.bus.events) _ rfl (queueMsg_events ..)
    · rfl
  refine ⟨hevents, fun c hc ho hl => ?_⟩
  have h2 : x2 = queueMsg c ⟨identOf 5 (ownAddress x) 0, 5, dlcPad r⟩ x1 := by
    unfold x2
    rw [hc]
    exact if_neg ho
  exact (congrArg (fun z => (busOf z c).queue) h2).trans (queueMsg_queue _ hl)

/-! ### Cancels (R489) -/

theorem cancelMessage_cancels {n : Nat} {m : QMsg} (hm : (busOf x c).queue[n]? = some m) {k : CancelMeets}
    (hk : k ≠ .completed) : (busOf (cancelMessage c n k x) c).queue.length + 1 = (busOf x c).queue.length ∧
      (busOf (cancelMessage c n k x) c).cancelled = some true ∧ (cancelMessage c n k x).mgmt.bus.sent = x.mgmt.bus.sent := by
  obtain ⟨hn, -⟩ := List.getElem?_eq_some_iff.1 hm
  unfold cancelMessage
  rw [hm]
  dsimp only
  rw [if_neg hk, busOf_editChannel_self]
  refine ⟨?_, by simp [hk], rfl⟩
  simp only [removeAt, List.length_append, List.length_take, List.length_drop]
  omega

theorem cancelMessage_late {n : Nat} {m : QMsg} (hm : (busOf x c).queue[n]? = some m) :
    (busOf (cancelMessage c n .completed x) c).cancelled = some false ∧
      (cancelMessage c n .completed x).mgmt.bus.sent.getLast? = some ⟨c, m.ident, m.data⟩ := by
  unfold cancelMessage
  rw [hm]
  dsimp only
  rw [if_pos rfl, busOf_emit, busOf_editChannel_self, emit_sent]
  exact ⟨rfl, rfl⟩

/-! ### The rack manager is heard (R477) -/

theorem setRackAlive_joints (v : Nat) (x : Module) : (setRackAlive v x).mgmt.joints = x.mgmt.joints := by
  have hevent (obj : Nat) (bs : List Byte) (y : Module) : (raiseEvent obj bs y).mgmt.joints = y.mgmt.joints :=
    raiseEvent_reads Mgmt.joints obj bs y
  unfold setRackAlive
  split
  · rfl
  · unfold syncAutonomy
    dsimp only
    refine ite_reads (fun z => z.mgmt.joints) _ ((hevent ..).trans (setE_joints ..)) ?_
    refine (hevent ..).trans ?_
    refine ite_reads (fun z => z.mgmt.joints) _ ?_ ?_
    · exact (incE_joints ..).trans ((setE_joints ..).trans ((hevent ..).trans (setE_joints ..)))
    · exact (setE_joints ..).trans ((hevent ..).trans (setE_joints ..))

theorem rackHeartbeat_hears (hup : skourUp x = true) (hc : chanUp x c = true) :
    getE (rackHeartbeat c 1 x) Ent.rackAlive = 1 ∧ (rackHeartbeat c 1 x).mgmt.joints.rackLast = some x.ts := by
  rw [rackHeartbeat, if_pos ⟨hup, hc, rfl⟩, rackHeard, setRackAlive_rackAlive, setRackAlive_joints]
  exact ⟨rfl, rfl⟩

/-- Settles O53: alarms by the count of their sends, and each message by the frame that leaves last. -/
theorem alarmsAndMessages : Obligations.AlarmsAndMessages := by
  refine ⟨fun s => ⟨fun hup h0 hn => ⟨_, exec_safetyAlarm s .own, alarmsOut_sends hup h0 hn⟩, fun seq a ha hup =>
    ⟨fun h1 h10 hs hc0 hc1 => ?_, fun h => ?_⟩, fun c i bs hc hi hcls hlen => ?_⟩,
    fun s => ⟨fun c w idle loop he => ⟨fun hw hi hc hup hs => ⟨_, exec_statusSend s c w idle loop,
      statusSend_sends loop hw he hi hc hup hs⟩, fun hw hi hc => ⟨_, exec_exclusiveWindowMissed s c w idle,
        windowMissed_counts he (hw.imp_right fun h => ⟨by rw [h.1]; rfl, h.2⟩) hi hc ?_⟩⟩,
      fun c w idle loop => ⟨fun h => ?_, fun hi => ?_⟩, fun r rest hr hup ht => ⟨_, exec_eventMessageSend s,
        eventSend_sends hr hup ht⟩, fun c n m hm => ⟨fun k hk => ⟨_, exec_messageCancel s c n k, cancelMessage_cancels hm hk⟩,
        ⟨_, exec_messageCancel s c n .completed, cancelMessage_late hm⟩⟩, fun i => ⟨fun hi => ?_, fun hi => ?_⟩,
      fun c hup hc => ⟨_, exec_rackHeartbeat s c 1, rackHeartbeat_hears hup hc⟩⟩⟩
  · obtain ⟨b, hb, hr, hsent⟩ := alarmRepeat_sends ha hup h1 h10 hs hc0 hc1
    exact ⟨_, b, exec_alarmRepeat s seq, hb, hr, hsent⟩
  · rw [exec_alarmRepeat, alarmRepeat_of_done ha h]
  · obtain ⟨r, hr, ht, hagain⟩ := alarmIn_keeps hc hi hcls hlen
    refine ⟨_, r, exec_safetyAlarm s (.heard c i bs), hr, ht, ?_⟩
    rw [exec_safetyAlarm]
    exact congrArg (fun y => Host.Outcome.next { s with sys := y }) hagain
  · unfold Ent.chanFlags Ent.windowMissed
    omega
  · rw [exec_statusSend, statusSend_of_apart loop h]
  · rw [exec_exclusiveWindowMissed, windowMissed_of_early hi]
  · refine ⟨_, exec_rackBusFrameIgnored s i, ?_⟩
    dsimp only
    rw [frameIgnored, if_pos hi, getE_incE_self]
  · rw [exec_rackBusFrameIgnored, frameIgnored, if_neg (by simp [hi])]

end Sys2Proof.Machine
end

section
/-!
SUPPORT. Time, and the states of the rack bus channels (O54).
-/

namespace Sys2Proof.Machine

-- As in the tests: one proof at a time, so that the whole text keeps within the threads that the memory holds.
set_option Elab.async false

variable {s t : State} {x y : Module} {k c : Nat}

/-! ### Time (R484 to R487) -/

theorem getE_correctTime (off : Int) (x : Module) : getE (correctTime off x) k = getE x k := by
  unfold correctTime
  split <;> rfl

theorem correctTime_bus (off : Int) (x : Module) : ∃ v, (correctTime off x).mgmt.bus = { x.mgmt.bus with slew := v } := by
  unfold correctTime
  split
  · exact ⟨0, rfl⟩
  · exact ⟨off, rfl⟩

theorem referenceIn_takes (ts tr : W64) (src : Fin 3) (idle : Bool) (hc : chanUp x c = true) :
    (referenceIn c ts tr src idle x).mgmt.bus.refAny = 0 ∧
      getE (referenceIn c ts tr src idle x) Ent.gnomonOffset = ratF32 ((ts - tr).toInt : Rat) ∧
      (src = 0 → idle = true → (referenceIn c ts tr src idle x).mgmt.bus.refUsable = 0 ∧
        (getE x Ent.timeSource = 1 → 100000 < (ts - tr).toInt.natAbs →
          (referenceIn c ts tr src idle x).ts = x.ts + BitVec.ofInt 64 (ts - tr).toInt) ∧
        (getE x Ent.timeSource = 1 → (ts - tr).toInt.natAbs ≤ 100000 →
          (referenceIn c ts tr src idle x).ts = x.ts ∧ (referenceIn c ts tr src idle x).mgmt.bus.slew = (ts - tr).toInt)) ∧
      (src ≠ 0 ∨ idle = false → (referenceIn c ts tr src idle x).ts = x.ts ∧
        (referenceIn c ts tr src idle x).mgmt.bus.refUsable = x.mgmt.bus.refUsable) := by
  unfold referenceIn
  rw [if_neg (by simp [hc])]
  extract_lets off x1 x2
  have h1 : x1.mgmt.bus = { x.mgmt.bus with refAny := 0 } := setE_bus ..
  have h1e : getE x1 Ent.gnomonOffset = ratF32 (off : Rat) := getE_setE_self ..
  have h1ts : x1.ts = x.ts := rfl
  by_cases hs : src.val = 0 ∧ idle = true
  case neg =>
    have hfar (h0 : src = 0) (hi : idle = true) : False := hs ⟨by rw [h0]; rfl, hi⟩
    rw [if_neg hs]
    refine ⟨by rw [h1], h1e, fun h0 hi => (hfar h0 hi).elim, fun _ => ⟨h1ts, by rw [h1]⟩⟩
  case pos =>
    have hnear : ¬ (src ≠ 0 ∨ idle = false) := by
      rintro (h | h)
      · exact h (Fin.ext hs.1)
      · rw [hs.2] at h
        exact Bool.false_ne_true h.symm
    have h2 : x2.mgmt.bus = { x.mgmt.bus with refAny := 0, refUsable := 0 } :=
      congrArg (fun b : Bus => { b with refUsable := 0 }) h1
    have h2e : getE x2 Ent.gnomonOffset = ratF32 (off : Rat) := h1e
    have h2ts : x2.ts = x.ts := rfl
    clear_value x2
    rw [if_pos hs]
    split
    case isFalse hsrc =>
      exact ⟨by rw [h2], h2e, fun _ _ => ⟨by rw [h2], fun h => absurd h hsrc, fun h => absurd h hsrc⟩, fun h => absurd h hnear⟩
    case isTrue =>
      obtain ⟨v, hv⟩ := correctTime_bus off x2
      refine ⟨by rw [hv, h2], (getE_correctTime ..).trans h2e, fun _ _ => ⟨by rw [hv, h2], fun _ hbig => ?_, fun _ hsmall => ?_⟩,
        fun h => absurd h hnear⟩
      · rw [correctTime, if_pos hbig, ← h2ts]
        rfl
      · rw [correctTime, if_neg hsmall.not_gt]
        exact ⟨h2ts, rfl⟩

theorem referenceSend_sends (loop : Nat) (hup : skourUp x = true) (hr : sendsReference x = true) (he : exclusiveOk x = true)
    (hc : mayCarry x c 1 = true) : ∃ d, (referenceSend c loop x).mgmt.bus.sent.getLast? =
      some ⟨c, identOf 1 (ownAddress x) (basicCycle x % 8), d⟩ ∧ d.length = 16 ∧
        d.take 8 = natLe 8 (basicCycle x * 10000000) := by
  unfold referenceSend
  rw [if_pos ⟨hr, he, hc⟩]
  dsimp only
  rw [if_pos hup]
  have hlen (n v : Nat) : (natLe n v).length = n := natLe_length ..
  have hd : (natLe 8 (basicCycle x * 10000000) ++ natLe 1 (basicCycle x % 8) ++ natLe 1 (getE x Ent.timeSource) ++
      List.replicate 6 (0 : Byte)).length = 16 := by
    simp [hlen]
  rw [if_neg fun h => by rw [h] at hd; exact absurd hd (by decide), measureLoop_reads (fun m => m.bus.sent), emit_sent]
  refine ⟨_, rfl, hd, ?_⟩
  rw [List.append_assoc, List.append_assoc, List.take_left' (hlen 8 _)]

theorem timeSourceChange_changes (hup : skourUp x = true) (h : getE x Ent.timeSource ≠ sourceNow x) :
    getE (timeSourceChange x) Ent.timeSource = sourceNow x := by
  unfold timeSourceChange
  dsimp only
  rw [if_neg (by simp [h, hup]), getE_raiseEvent _ _ (by decide), getE_setE_self]

theorem freeRunningTimeout_ends {a : W64} (ha : x.mgmt.bus.freeSince = some a) (hs : getE x Ent.timeSource = 2) :
    (10000000000 ≤ sinceT x a → exclusiveOk (freeRunningTimeout x) = false) ∧
      (sinceT x a < 10000000000 → freeRunningTimeout x = x) := by
  unfold freeRunningTimeout
  rw [ha]
  dsimp only
  refine ⟨fun h => ?_, fun h => if_neg fun hf => hf.2.not_gt h⟩
  rw [if_pos ⟨hs, h⟩]
  rfl

/-! ### Precision time (R524) -/

theorem ptpUncalibrate_state (h : 2 ≤ getE x Ent.ptpState) : getE (ptpUncalibrate x) Ent.ptpState = 2 := by
  rw [ptpUncalibrate]
  rw [if_pos h, getE_setE_self]

theorem ptpUncalibrate_bus (x : Module) : (ptpUncalibrate x).mgmt.bus = { x.mgmt.bus with ptpGood := 0 } :=
  ite_reads (fun z => z.mgmt.bus) _ (setE_bus ..) rfl

theorem getE_ptpUncalibrate (x : Module) (h : k ≠ Ent.ptpState) : getE (ptpUncalibrate x) k = getE x k :=
  ite_reads (fun z => getE z k) _ (getE_setE_of_ne _ _ h) rfl

theorem ptpSync_takes (off : Int) (hen : getE x Ent.ptpEnable = 1) (hst : getE x Ent.ptpState = 2) :
    (ptpSync off x).mgmt.bus.ptpLast = x.ts ∧ getE (ptpSync off x) Ent.ptpOffset = ratF32 (off : Rat) ∧
      (off.natAbs ≤ 1000 → 15 ≤ x.mgmt.bus.ptpGood → getE (ptpSync off x) Ent.ptpState = 3) ∧
      (1000 < off.natAbs → (ptpSync off x).mgmt.bus.ptpGood = 0 ∧ getE (ptpSync off x) Ent.ptpState = 2) := by
  unfold ptpSync
  rw [if_neg (by simp [hen, hst])]
  extract_lets n x1 st x2 x3
  have h2 : x2 = x1 := if_neg (by rw [show st = 2 from hst]; decide)
  have h1 : x1.mgmt.bus = { x.mgmt.bus with ptpGood := n, ptpLast := x.ts } :=
    congrArg (fun b : Bus => { b with ptpGood := n, ptpLast := x.ts }) (setE_bus ..)
  have h1o : getE x1 Ent.ptpOffset = ratF32 (off : Rat) := getE_setE_self ..
  have h1s : getE x1 Ent.ptpState = 2 := (getE_setE_of_ne _ _ (by decide)).trans hst
  have h3 : x3 = if 10000 < off.natAbs then ptpUncalibrate x1 else if 16 ≤ n then setE Ent.ptpState 3 x1 else x1 := by
    rw [← h2]
  obtain ⟨v, hv⟩ := correctTime_bus (-off) x3
  have hlast : x3.mgmt.bus.ptpLast = x.ts := by
    rw [h3]
    refine ite_reads (fun z => z.mgmt.bus.ptpLast) _ ?_ (ite_reads (fun z => z.mgmt.bus.ptpLast) _ ?_ (by rw [h1]))
    · rw [ptpUncalibrate_bus, h1]
    · rw [setE_bus, h1]
  have hoff : getE x3 Ent.ptpOffset = ratF32 (off : Rat) := by
    rw [h3]
    refine ite_reads (fun z => getE z Ent.ptpOffset) _ ?_ (ite_reads (fun z => getE z Ent.ptpOffset) _ ?_ h1o)
    · rw [getE_ptpUncalibrate _ (by decide), h1o]
    · rw [getE_setE_of_ne _ _ (by decide), h1o]
  rw [hv, getE_correctTime, getE_correctTime]
  refine ⟨hlast, hoff, fun hsmall hgood => ?_, fun hbig => ?_⟩
  · have hn : n = x.mgmt.bus.ptpGood + 1 := if_pos hsmall
    rw [h3, if_neg (by omega), if_pos (by omega), getE_setE_self]
  · have hn : n = 0 := if_neg hbig.not_ge
    dsimp only
    rw [h3]
    split
    · exact ⟨by rw [ptpUncalibrate_bus], ptpUncalibrate_state h1s.ge⟩
    · rw [if_neg (by omega), h1]
      exact ⟨hn, h1s⟩

theorem ptpTimeout_ends (hst : getE x Ent.ptpState = 3) :
    (3000000000 ≤ sinceT x x.mgmt.bus.ptpLast → getE (ptpTimeout x) Ent.ptpState = 2) ∧
      (sinceT x x.mgmt.bus.ptpLast < 3000000000 → ptpTimeout x = x) := by
  refine ⟨fun h => ?_, fun h => if_neg fun hf => hf.2.not_gt h⟩
  rw [ptpTimeout, if_pos ⟨hst, h⟩]
  exact ptpUncalibrate_state (by omega)

theorem bestMaster_changes {m : W64} (hst : getE x Ent.ptpState = 3) (hm : getE x Ent.ptpMaster ≠ m.toNat) :
    getE (bestMaster m x) Ent.ptpMaster = m.toNat ∧ getE (bestMaster m x) Ent.ptpState = 2 := by
  unfold bestMaster
  dsimp only
  rw [if_neg (by simp [hst, hm]), if_neg (by simp [hst])]
  have hst1 : getE (setE Ent.ptpMaster m.toNat x) Ent.ptpState = 3 := (getE_setE_of_ne _ _ (by decide)).trans hst
  exact ⟨(getE_ptpUncalibrate _ (by decide)).trans (getE_setE_self ..), ptpUncalibrate_state (by omega)⟩

/-! ### What leaves a channel as it is -/

theorem getE_editChannel (c : Nat) (f : BusChan → BusChan) (x : Module) : getE (editChannel c f x) k = getE x k := rfl

theorem busOf_setE (k v : Nat) (x : Module) (n : Nat) : busOf (setE k v x) n = busOf x n :=
  busOf_congr (congrArg Bus.chans (setE_bus k v x)) n

theorem busOf_incE (k : Nat) (x : Module) (n : Nat) : busOf (incE k x) n = busOf x n := busOf_setE ..

theorem busOf_dsetBits (k mask : Nat) (x : Module) (n : Nat) : busOf (onMgmt (dsetBits k mask) x) n = busOf x n :=
  busOf_setE k _ x n

theorem busOf_dclearBits (k mask : Nat) (x : Module) (n : Nat) : busOf (onMgmt (dclearBits k mask) x) n = busOf x n :=
  busOf_setE k _ x n

theorem busOf_raiseEvent (obj : Nat) (detail : List Byte) (x : Module) (n : Nat) :
    busOf (raiseEvent obj detail x) n = busOf x n := busOf_congr (raiseEvent_reads (fun m => m.bus.chans) obj detail x) n

theorem getE_dsetBits {j : Nat} (mask : Nat) (x : Module) (h : k ≠ j) : getE (onMgmt (dsetBits j mask) x) k = getE x k :=
  getE_setE_of_ne _ x h

theorem getE_dclearBits {j : Nat} (mask : Nat) (x : Module) (h : k ≠ j) :
    getE (onMgmt (dclearBits j mask) x) k = getE x k := getE_setE_of_ne _ x h

/-- An entry of a channel is none of another channel entry's: each has a block of 256 numbers. -/
theorem chanEntry_ne {a b d : Nat} (hc : c < 2) (hd : d < 2) (h : a / 256 ≠ b / 256 := by decide)
    (ha : a % 256 < 250 := by decide) (hb : b % 256 < 250 := by decide) : a + c ≠ b + d := by omega

/-- An entry of a channel is none of another block's. -/
theorem chanEntry_ne_single {a b : Nat} (hc : c < 2) (h : a / 256 ≠ b / 256 := by decide)
    (ha : a % 256 < 250 := by decide) : a + c ≠ b := by omega

/-! ### A channel joins (R470 to R474) -/

/-- The entries that a channel's joining at a rate writes. -/
def joinEntries (c : Nat) : List Nat :=
  [Ent.tec + c, Ent.rec + c, Ent.nbt + c, Ent.dbt + c, Ent.tdc + c, Ent.chanFlags + c]

theorem getE_joinAt (rate : Nat) (x : Module) (h : k ∉ joinEntries c) : getE (joinAt c rate x) k = getE x k := by
  simp only [joinEntries, List.mem_cons, List.not_mem_nil, or_false, not_or] at h
  obtain ⟨htec, hrec, hnbt, hdbt, htdc, hflags⟩ := h
  unfold joinAt dataRegs
  dsimp only
  rw [getE_editChannel, getE_setE_of_ne _ _ hrec, getE_setE_of_ne _ _ htec, getE_dclearBits _ _ hflags,
    getE_setE_of_ne _ _ htdc, getE_setE_of_ne _ _ hdbt, getE_setE_of_ne _ _ hnbt]

theorem busOf_joinAt (c rate : Nat) (x : Module) : busOf (joinAt c rate x) c =
    { busOf x c with st := if ownAddress x = 0 then .listen else .active, dwell := 0, dwells := 0, edges := false } := by
  unfold joinAt dataRegs
  dsimp only
  rw [busOf_editChannel_self, busOf_setE, busOf_setE, busOf_dclearBits, busOf_setE, busOf_setE, busOf_setE]

theorem rateDwell_counts (edges : Bool) (hst : (busOf x c).st = .detecting) :
    (busOf (rateDwell c edges x) c).dwell = ((busOf x c).dwell + 1) % 4 ∧
      (busOf (rateDwell c edges x) c).dwells = (busOf x c).dwells + 1 := by
  rw [rateDwell, if_pos hst, busOf_editChannel_self]
  exact ⟨rfl, rfl⟩

theorem rateFound_joins (fails : Bool) (hst : (busOf x c).st = .detecting) (ho : ownAddress x ≠ 0) (hc : c < 2) :
    (busOf (rateFound c fails x) c).st = .active ∧
      getE (rateFound c fails x) (Ent.nominalRate + c) = rateAt (busOf x c).dwell ∧
      (fails = true → (busOf (rateFound c fails x) c).muted = true ∧
        dbit (rateFound c fails x).mgmt (Ent.chanFlags + c) 7 = true) := by
  unfold rateFound
  rw [if_pos hst]
  extract_lets r x1
  have hown : ownAddress (setE (Ent.nominalRate + c) r x) ≠ 0 := by
    rw [ownAddress, getE_setE_of_ne _ _ (chanEntry_ne_single hc).symm]
    exact ho
  have hjoin : (busOf x1 c).st = .active := by
    rw [show x1 = joinAt c r (setE (Ent.nominalRate + c) r x) from rfl, busOf_joinAt]
    exact if_neg hown
  have hrate : getE x1 (Ent.nominalRate + c) = r := by
    rw [getE_joinAt r _ (by simp [joinEntries])]
    exact getE_setE_self ..
  clear_value x1
  cases fails with
  | false =>
    exact ⟨hjoin, hrate, fun h => absurd h Bool.false_ne_true⟩
  | true =>
    rw [if_pos rfl, busOf_raiseEvent, busOf_editChannel_self, busOf_dsetBits, getE_raiseEvent _ _ (chanEntry_ne_single hc),
      getE_editChannel, getE_dsetBits _ _ (chanEntry_ne hc hc)]
    refine ⟨hjoin, hrate, fun _ => ⟨rfl, ?_⟩⟩
    refine (dbit_eq _ _ (getE_raiseEvent _ _ (chanEntry_ne_single hc)) 7).trans ?_
    exact dbit_onMgmt_dsetBits x1 (by decide)

theorem rateTimeout_of_early (h : (busOf x c).dwells < 20) : rateTimeout c x = x := if_pos (.inr h)

theorem rateTimeout_joins (hst : (busOf x c).st = .detecting) (hd : 20 ≤ (busOf x c).dwells)
    (he : (busOf x c).edges = false) (ho : ownAddress x ≠ 0) : (busOf (rateTimeout c x) c).st = .active := by
  unfold rateTimeout
  dsimp only
  rw [if_neg (by simp [hst, hd.not_gt]), if_pos (by simp [he]), busOf_joinAt]
  exact if_neg ho

theorem rateTimeout_tells (hst : (busOf x c).st = .detecting) (hd : 20 ≤ (busOf x c).dwells)
    (he : (busOf x c).edges = true) (hc : c < 2) : (busOf (rateTimeout c x) c).st = .detecting ∧
      dbit (rateTimeout c x).mgmt (Ent.chanFlags + c) 4 = true := by
  unfold rateTimeout
  dsimp only
  rw [if_neg (by simp [hst, hd.not_gt]), if_neg (by simp [he])]
  split
  case isTrue h => exact ⟨hst, h⟩
  case isFalse =>
    rw [busOf_raiseEvent, busOf_dsetBits]
    exact ⟨hst, (dbit_eq _ _ (getE_raiseEvent _ _ (chanEntry_ne_single hc)) 4).trans (dbit_onMgmt_dsetBits x (by decide))⟩

/-! ### Error confinement (R492 to R495) -/

theorem chanUp_of_active (h : (busOf x c).st = .active) : chanUp x c = true := by
  rw [chanUp, h]
  rfl

/-- The error counters as they are written. -/
theorem errorPassive_writes (low : Bool) (tec r : Nat) (x : Module) (hc : c < 2) :
    let y := setE (Ent.rec + c) r (setE (Ent.tec + c) tec
      (editChannel c (fun b => { b with st := if low then .active else .passive }) x))
    (busOf y c).st = (if low then .active else .passive) ∧ getE y (Ent.tec + c) = tec ∧ getE y (Ent.rec + c) = r := by
  refine ⟨?_, ?_, getE_setE_self ..⟩
  · rw [busOf_setE, busOf_setE, busOf_editChannel_self]
  · rw [getE_setE_of_ne _ _ (chanEntry_ne hc hc), getE_setE_self]

theorem errorPassive_passive {tec r : Nat} (hst : (busOf x c).st = .active) (ht : tec ≤ 255) (hm : 128 ≤ max tec r) (hc : c < 2) :
    (busOf (errorPassive c tec r x) c).st = .passive ∧ getE (errorPassive c tec r x) (Ent.tec + c) = tec ∧
      dbit (errorPassive c tec r x).mgmt (Ent.chanFlags + c) 0 = true := by
  unfold errorPassive
  rw [if_neg (by simp [chanUp_of_active hst, ht.not_gt])]
  extract_lets low x1
  have hlow : low = false := decide_eq_false hm.not_gt
  obtain ⟨h1, h2, -⟩ : (busOf x1 c).st = (if low then .active else .passive) ∧ getE x1 (Ent.tec + c) = tec ∧ _ :=
    errorPassive_writes low tec (min 255 r) x hc
  clear_value x1
  rw [if_neg (by simp [hlow, hst]), busOf_raiseEvent, busOf_dsetBits, getE_raiseEvent _ _ (chanEntry_ne_single hc),
    getE_dsetBits _ _ (chanEntry_ne hc hc)]
  refine ⟨h1.trans (if_neg (by simp [hlow])), h2, ?_⟩
  exact (dbit_eq _ _ (getE_raiseEvent _ _ (chanEntry_ne_single hc)) 0).trans (dbit_onMgmt_dsetBits x1 (by decide))

theorem errorPassive_active {tec r : Nat} (hst : (busOf x c).st = .active) (ht : tec ≤ 255) (hm : max tec r < 128) (hc : c < 2) :
    (busOf (errorPassive c tec r x) c).st = .active ∧ getE (errorPassive c tec r x) (Ent.tec + c) = tec ∧
      getE (errorPassive c tec r x) (Ent.rec + c) = r := by
  unfold errorPassive
  rw [if_neg (by simp [chanUp_of_active hst, ht.not_gt])]
  extract_lets low x1
  have hlow : low = true := decide_eq_true hm
  obtain ⟨h1, h2, h3⟩ : (busOf x1 c).st = (if low then .active else .passive) ∧ getE x1 (Ent.tec + c) = tec ∧ _ :=
    errorPassive_writes low tec (min 255 r) x hc
  rw [if_pos (.inl hlow)]
  refine ⟨h1.trans (if_pos hlow), h2, h3.trans (min_eq_right ?_)⟩
  exact (le_max_right tec r).trans (hm.le.trans (by decide))

/-- What one channel's messages do to another channel: they leave, or wait there. -/
theorem busOf_queueMsg_of_ne {n : Nat} (m : QMsg) (x : Module) (h : n ≠ c) : busOf (queueMsg c m x) n = busOf x n := by
  refine ite_reads (fun z => busOf z n) _ ?_ (busOf_editChannel_of_ne _ _ h)
  rw [busOf_dsetBits, busOf_incE]

theorem busOf_foldl {α : Type} {f : Module → α → Module} {n : Nat} (h : ∀ y a, busOf (f y a) n = busOf y n) (l : List α)
    (x : Module) : busOf (l.foldl f x) n = busOf x n := by
  induction l generalizing x with
  | nil => rfl
  | cons a l ih => exact (ih _).trans (h x a)

theorem busOf_sendQueued_of_ne {n : Nat} (go stay : List QMsg) (x : Module) (h : n ≠ c) :
    busOf (sendQueued c go stay x) n = busOf x n :=
  (busOf_foldl (fun _ _ => busOf_emit ..) _ _).trans (busOf_editChannel_of_ne _ _ h)

theorem busOf_sendQueued_self (go stay : List QMsg) (x : Module) :
    busOf (sendQueued c go stay x) c = { busOf x c with queue := stay } :=
  (busOf_foldl (fun _ _ => busOf_emit ..) _ _).trans (busOf_editChannel_self ..)

theorem busOf_etherAlarm (data : List Byte) (x : Module) (n : Nat) : busOf (etherAlarm data x) n = busOf x n :=
  busOf_foldl (fun _ _ => busOf_emit ..) _ _

theorem getE_foldl {α : Type} {f : Module → α → Module} (h : ∀ y a, getE (f y a) k = getE y k) (l : List α) (x : Module) :
    getE (l.foldl f x) k = getE x k := by
  induction l generalizing x with
  | nil => rfl
  | cons a l ih => exact (ih _).trans (h x a)

theorem getE_emit (m : Sent) (x : Module) : getE (emit m x) k = getE x k :=
  emit_reads (fun m => dget m k) m x

theorem getE_sendQueued (c : Nat) (go stay : List QMsg) (x : Module) : getE (sendQueued c go stay x) k = getE x k :=
  (getE_foldl (fun _ _ => getE_emit ..) _ _).trans (getE_editChannel ..)

theorem getE_etherAlarm (data : List Byte) (x : Module) : getE (etherAlarm data x) k = getE x k :=
  getE_foldl (fun _ _ => getE_emit ..) _ _

theorem getE_queueMsg (m : QMsg) (x : Module) (h : k ≠ Ent.chanFlags + c ∧ k ≠ Ent.eventsDropped) :
    getE (queueMsg c m x) k = getE x k := by
  refine ite_reads (fun z => getE z k) _ ?_ (getE_editChannel ..)
  exact (getE_dsetBits _ _ h.1).trans (getE_setE_of_ne _ _ h.2)

/-- What a bus-off channel would carry goes on the other, or over the Ethernet port: the channel itself, and the count of its
bus-offs, stay (R494, R495). -/
theorem busOff_passesOn (q : List QMsg) (p r : Prop) [Decidable p] [Decidable r] (x : Module) (hc : c < 2) :
    let y := if p then sendUrgent (1 - c) (q.foldl (fun y m => queueMsg (1 - c) m y) x)
      else if r then x else (q.filter fun m => m.cls == 0).foldl (fun y m => etherAlarm m.data y) x
    busOf y c = busOf x c ∧ getE y (Ent.busOffs + c) = getE x (Ent.busOffs + c) := by
  have hne : c ≠ 1 - c := by omega
  refine ⟨ite_reads (fun z => busOf z c) _ ?_ (ite_reads (fun z => busOf z c) _ rfl ?_),
    ite_reads (fun z => getE z _) _ ?_ (ite_reads (fun z => getE z _) _ rfl ?_)⟩
  · exact (busOf_sendQueued_of_ne _ _ _ hne).trans (busOf_foldl (fun _ _ => busOf_queueMsg_of_ne _ _ hne) _ _)
  · exact busOf_foldl (fun _ _ => busOf_etherAlarm ..) _ _
  · exact (getE_sendQueued ..).trans (getE_foldl (fun _ _ => getE_queueMsg _ _ ⟨chanEntry_ne hc (by omega), chanEntry_ne_single hc⟩) _ _)
  · exact getE_foldl (fun _ _ => getE_etherAlarm ..) _ _

theorem closeChannel_closes (x : Module) (hc : c < 2) : busOf (closeChannel c x) c = { busOf x c with st := .closed } ∧
    getE (closeChannel c x) (Ent.busOffs + c) = getE x (Ent.busOffs + c) := by
  unfold closeChannel
  rw [busOf_raiseEvent, busOf_dsetBits, busOf_editChannel_self, getE_raiseEvent _ _ (chanEntry_ne_single hc), getE_dsetBits _ _ (chanEntry_ne hc hc),
    getE_editChannel]
  exact ⟨rfl, rfl⟩

theorem busOff_goes {tec : Nat} (hup : chanUp x c = true) (ht : 255 < tec) (hc : c < 2) :
    getE (busOff c tec x) (Ent.busOffs + c) = (getE x (Ent.busOffs + c) + 1) % 2 ^ 32 ∧
      (busOf (busOff c tec x) c).queue = (busOf x c).queue.filter (fun m => m.cls == 0) ∧
      (busOf (busOff c tec x) c).st =
        if 3 ≤ ((busOf x c).recoveries.filter fun a => decide (sinceT x a < 60000000000)).length ∨
            getE x Ent.autoRecover = 0 then .closed else .recovering := by
  unfold busOff
  rw [if_neg (by simp [hup, ht])]
  extract_lets q x1 recent x2 x3 x4
  have h1 : getE x1 (Ent.busOffs + c) = (getE x (Ent.busOffs + c) + 1) % 2 ^ 32 := by
    rw [getE_incE_self, getE_dsetBits _ _ (chanEntry_ne hc hc), getE_setE_of_ne _ _ (chanEntry_ne hc hc)]
  have h2 : (busOf x2 c).queue = q.filter (fun m => m.cls == 0) ∧ (busOf x2 c).st = .recovering := by
    rw [busOf_editChannel_self]
    exact ⟨rfl, rfl⟩
  have h3 : busOf x3 c = busOf x2 c ∧ getE x3 (Ent.busOffs + c) = getE x2 (Ent.busOffs + c) := busOff_passesOn q _ _ x2 hc
  have h4 : busOf x4 c = busOf x2 c ∧ getE x4 (Ent.busOffs + c) = (getE x (Ent.busOffs + c) + 1) % 2 ^ 32 := by
    refine ⟨(busOf_raiseEvent ..).trans h3.1, (getE_raiseEvent _ _ (chanEntry_ne_single hc)).trans (h3.2.trans h1)⟩
  obtain ⟨hclosed, hcount⟩ := closeChannel_closes x4 hc
  split
  · rw [hclosed, hcount, h4.1]
    exact ⟨h4.2, h2.1, rfl⟩
  · rw [h4.1]
    exact ⟨h4.2, h2.1, h2.2⟩

theorem busRecovered_returns (hst : (busOf x c).st = .recovering) (hc : c < 2) : (busOf (busRecovered c x) c).st = .active ∧
    getE (busRecovered c x) (Ent.tec + c) = 0 ∧ getE (busRecovered c x) (Ent.rec + c) = 0 := by
  unfold busRecovered
  rw [if_neg (not_not.2 hst)]
  extract_lets x1
  unfold sendUrgent
  dsimp only
  rw [busOf_sendQueued_self, getE_sendQueued, getE_sendQueued, getE_editChannel, getE_editChannel, busOf_editChannel_self]
  exact ⟨rfl, (getE_setE_of_ne _ _ (chanEntry_ne hc hc)).trans (getE_setE_self ..), getE_setE_self ..⟩

/-! ### Collisions (R496) -/

/-- What a collision seen does to its channel. -/
theorem addressCollision_counts {by_ : CollisionBy} (hup : chanUp x c = true) (hc : c < 2)
    (hby : (∃ i : BitVec 29, by_ = .foreign i ∧ bits 20 13 i.toNat = ownAddress x ∧ ownAddress x ≠ 0) ∨
      (∃ p : Nat, by_ = .repeated p p)) :
    dbit (addressCollision c by_ x).mgmt (Ent.chanFlags + c) 3 = true ∧
      (busOf (addressCollision c by_ x) c).collisions = (busOf x c).collisions + 1 ∧
      ((busOf x c).collisions = 2 → (busOf (addressCollision c by_ x) c).st = .listen) := by
  unfold addressCollision
  extract_lets own seen n x1 x2
  obtain ⟨i, hi⟩ : ∃ i, seen = some i := by
    obtain ⟨i, rfl, hsrc, ho⟩ | ⟨p, rfl⟩ := hby
    · exact ⟨i, if_pos ⟨hsrc, ho⟩⟩
    · exact ⟨_, if_pos rfl⟩
  rw [hi]
  dsimp -zeta only
  rw [if_neg (by simp [hup])]
  have hflag : dbit x1.mgmt (Ent.chanFlags + c) 3 = true := dbit_onMgmt_dsetBits _ (by decide)
  have h2 : (busOf x2 c).collisions = n ∧ dbit x2.mgmt (Ent.chanFlags + c) 3 = true := by
    refine ⟨?_, hflag⟩
    rw [busOf_editChannel_self]
  clear_value x2
  split
  · rw [busOf_raiseEvent, busOf_editChannel_self]
    refine ⟨?_, h2.1, fun _ => rfl⟩
    exact (dbit_eq _ _ (getE_raiseEvent _ _ (chanEntry_ne_single hc)) 3).trans h2.2
  case isFalse hn =>
    exact ⟨h2.2, h2.1, fun h => absurd (congrArg (· + 1) h) hn⟩

theorem addressCollision_of_apart {p q : Nat} (h : p ≠ q) (c : Nat) (x : Module) :
    addressCollision c (.repeated p q) x = x := by
  unfold addressCollision
  dsimp only
  rw [if_neg h]

/-- Settles O54: time by what each correction leaves of the bus, each channel by the edits of its record and its entries. -/
theorem timeAndChannels : Obligations.TimeAndChannels := by
  refine ⟨fun s => ⟨fun c ts tr src idle hc => ⟨_, exec_reference s c ts tr src idle, referenceIn_takes ts tr src idle hc⟩,
    fun c loop => ⟨fun hup hr he hc => ?_, fun hr => ?_⟩, fun hup h => ⟨_, exec_timeSourceChange s, timeSourceChange_changes hup h⟩,
    fun h => ?_, fun a ha hs => ⟨fun h => ⟨_, exec_freeRunningTimeout s, (freeRunningTimeout_ends ha hs).1 h⟩, fun h => ?_⟩,
    fun off hen hst => ⟨_, exec_ptpSync s off, ptpSync_takes off hen hst⟩, fun hst => ⟨fun h => ⟨_, exec_ptpSyncTimeout s,
      (ptpTimeout_ends hst).1 h⟩, fun h => ?_, fun m hm => ⟨_, exec_bestMasterChange s m, bestMaster_changes hst hm⟩⟩⟩,
    fun s c => ⟨fun hst => ⟨fun edges => ⟨_, exec_rateDetectDwell s c edges, rateDwell_counts edges hst⟩,
      fun fails ho => ⟨_, exec_rateFound s c fails, rateFound_joins fails hst ho c.isLt⟩, fun h => ?_,
      fun hd he ho => ⟨_, exec_rateDetectTimeout s c, rateTimeout_joins hst hd he ho⟩,
      fun hd he => ⟨_, exec_rateDetectTimeout s c, rateTimeout_tells hst hd he c.isLt⟩⟩,
    fun hst tec r ht => ⟨fun hm => ⟨_, exec_errorPassive s c tec r, errorPassive_passive hst ht hm c.isLt⟩,
      fun hm => ⟨_, exec_errorPassive s c tec r, errorPassive_active hst ht hm c.isLt⟩⟩,
    fun hup tec => ⟨fun ht => ⟨_, exec_busOff s c tec, busOff_goes hup ht c.isLt⟩, fun ht => ?_⟩,
    fun hst => ⟨_, exec_busOffRecovery s c, busRecovered_returns hst c.isLt⟩,
    fun by_ hup hby => ⟨_, exec_addressCollision s c by_, addressCollision_counts hup c.isLt hby⟩, fun p q h => ?_⟩⟩
  · obtain ⟨d, h⟩ := referenceSend_sends loop hup hr he hc
    exact ⟨_, d, exec_referenceSend s c loop, h⟩
  · rw [exec_referenceSend, referenceSend, if_neg fun h => Bool.false_ne_true (hr.symm.trans h.1)]
  · rw [exec_timeSourceChange, timeSourceChange]
    rw [if_pos (.inl h)]
  · rw [exec_freeRunningTimeout, (freeRunningTimeout_ends ha hs).2 h]
  · rw [exec_ptpSyncTimeout, (ptpTimeout_ends hst).2 h]
  · rw [exec_rateDetectTimeout, rateTimeout_of_early h]
  · rw [exec_busOff, busOff, if_pos (.inr ht)]
  · rw [exec_addressCollision, addressCollision_of_apart h]

end Sys2Proof.Machine
end

section
/-!
SUPPORT. The state register after an act of a safety function, and what an act with a latch makes of Sill. Then the safety
functions (O59).
-/

namespace Sys2Proof.Machine

-- As in the tests: one proof at a time, so that the whole text keeps within the threads that the memory holds.
set_option Elab.async false

variable {s t : State} {x y : Module} {k fn trig : Nat} {st : ModState}

/-! ### The state register follows Sill (R544, R550) -/

theorem beginAlarm_module (code cause : Nat) (x : Module) : (beginAlarm code cause x).mgmt.module = x.mgmt.module := by
  rw [beginAlarm, editBus_module, setE_module]

theorem followSill_module (h : forcedState x = some st) : (followSill x).mgmt.module = st := by
  unfold followSill
  rw [h]
  dsimp only
  split
  · assumption
  · split
    · rw [beginAlarm_module, toState_module]
    · rw [beginAlarm_module, toState_module]
    · rw [toState_module]

/-- Entering LEAK_CUT begins its alarm. -/
theorem followSill_leakAlarm (h : forcedState x = some .leakCut) (hm : x.mgmt.module ≠ .leakCut) :
    ∃ a ∈ (followSill x).mgmt.bus.alarms, a.code = 1 := by
  unfold followSill
  rw [h]
  dsimp only
  rw [if_neg hm]
  exact alarmOn_beginAlarm ..

theorem showCause_sill (x : Module) : ∃ l, (showCause x).sill = { x.sill with lastCause := l } := by
  unfold showCause
  dsimp only
  split
  · exact ⟨x.sill.lastCause, rfl⟩
  · exact ⟨_, rfl⟩

theorem showCause_module (x : Module) : (showCause x).mgmt.module = x.mgmt.module := by
  unfold showCause
  dsimp only
  split
  · rfl
  · rw [setE_module, setE_module, onSill_mgmt]

theorem forcedState_showCause (x : Module) : forcedState (showCause x) = forcedState x := by
  obtain ⟨l, h⟩ := showCause_sill x
  unfold forcedState inletClosed
  rw [h]

theorem actDone_module (h : forcedState x = some st) : (actDone x).mgmt.module = st :=
  followSill_module ((forcedState_showCause x).trans h)

theorem actDone_leakAlarm (h : forcedState x = some .leakCut) (hm : x.mgmt.module ≠ .leakCut) :
    ∃ a ∈ (actDone x).mgmt.bus.alarms, a.code = 1 :=
  followSill_leakAlarm ((forcedState_showCause x).trans h) (by rwa [showCause_module])

theorem actDone_sill (x : Module) : ∃ c l, (actDone x).sill = { x.sill with lastCause := l, copy := c } := by
  obtain ⟨l, h⟩ := actDone_sameBut x
  obtain ⟨c, hc⟩ := h.sill
  exact ⟨c, l, hc⟩

/-! ### A function acts (R541, R551, R553) -/

theorem cause_fn (trig : Nat) (h : fn < 16) : (BitVec.ofNat 8 (16 * trig + fn)).toNat % 16 = fn := by
  rw [BitVec.toNat_ofNat]
  omega

theorem actJ3_acts (trig : Nat) (x : Module) (h : fn < 16) :
    look 0 (actJ3 fn trig x).sill.acts fn = look 0 x.sill.acts fn + 1 ∧ (actJ3 fn trig x).sill.halt = true := by
  obtain ⟨c, hc⟩ := actJ3_sill fn trig x
  rw [hc]
  have ha := noteAct_acts (BitVec.ofNat 8 (16 * trig + fn)) x.sf x.sill
  rw [cause_fn trig h] at ha
  exact ⟨ha, rfl⟩

theorem withhold_of_none {now : W64} {l : Sill} (h : ∀ p, l.exited = some p → p.1 ≠ now) : withhold now l = l := by
  unfold withhold
  split
  case h_1 v w he => exact if_neg (h (v, w) he)
  case h_2 => rfl

/-- Whether something forces the state register, as an act that withholds nothing leaves it. -/
theorem noteAct_unlatched {cause : Byte} {now : W64} {l : Sill} (h : ∀ p, l.exited = some p → p.1 ≠ now) :
    (noteAct cause now l).unlatched ↔ l.unlatched := by
  unfold noteAct
  rw [withhold_of_none h]
  exact Iff.rfl

theorem withhold_ssd (now : W64) (l : Sill) : (withhold now l).ssd = l.ssd := by
  unfold withhold
  split
  · split <;> rfl
  · rfl

theorem actJ3_inletClosed (fn trig : Nat) (x : Module) : inletClosed (actJ3 fn trig x) = inletClosed x := by
  obtain ⟨c, hc⟩ := actJ3_sill fn trig x
  rw [inletClosed, hc]
  exact congrArg (· == Ssd.closed) (withhold_ssd x.sf x.sill)

/-- The safe-stop latch forces SAFE_STOP, or OFF with the inlet open, where nothing else forces the register. -/
theorem forcedState_of_safeStop (hl : x.sill.leakCut = false)
    (ho : ¬ (x.sill.inletLock = true ∨ (!x.sill.interlock) = true ∨ (!x.sill.present) = true ∨ x.sill.stopped = true ∨
      x.sill.fault = true)) (hs : x.sill.safeStop = true) :
    forcedState x = some (if inletClosed x then .safeStop else .off) := by
  unfold forcedState
  rw [if_neg (by simp [hl]), if_neg ho, if_pos hs]

/-- `x` is `s` at the beginning of an act of Sill: a reading of its inputs may be new. -/
def ActsFrom (s : State) (x : Module) : Prop :=
  x.sf = s.sys.sf ∧ ∃ amps sensing, x.sill = { s.sys.sill with busAmps := amps, sensing := sensing }

theorem ActsFrom.refl (s : State) : ActsFrom s s.sys := ⟨rfl, _, _, rfl⟩

/-- `y` is `x` after an act that sets the safe-stop latch; its own times may be noted. -/
def LatchedFrom (fn trig : Nat) (x y : Module) : Prop :=
  ∃ a b w, y.sill = { (latchSafe fn trig (actJ3 fn trig x)).sill with sf4At := a, sf6At := b, longWindow := w }

theorem LatchedFrom.refl (fn trig : Nat) (x : Module) : LatchedFrom fn trig x (latchSafe fn trig (actJ3 fn trig x)) :=
  ⟨_, _, _, rfl⟩

/-- An act with the safe-stop latch: counted, HALT, and the state that the latch forces. -/
theorem latched_stops (hx : ActsFrom s x) (hy : LatchedFrom fn trig x y) (hf : fn < 16) (ht : t.sys = actDone y) :
    Acted s t fn ∧ SafeStopped s t := by
  obtain ⟨hsf, amps, sensing, hxs⟩ := hx
  obtain ⟨a, b, w, hys⟩ := hy
  obtain ⟨c, l, hdone⟩ := actDone_sill y
  obtain ⟨hacts, hhalt⟩ := actJ3_acts trig x hf
  have hlatch : (latchSafe fn trig (actJ3 fn trig x)).sill.acts = (actJ3 fn trig x).sill.acts := rfl
  refine ⟨⟨?_, ?_⟩, ?_, fun hnone hwith => ?_⟩
  · rw [ht, hdone, hys]
    refine hacts.trans ?_
    rw [hxs]
  · rw [ht, hdone, hys]
    exact hhalt
  · rw [ht, hdone, hys]
    rfl
  · obtain ⟨j, hj⟩ := actJ3_sill fn trig x
    have hfree : ∀ p, x.sill.exited = some p → p.1 ≠ x.sf := by
      rw [hxs, hsf]
      exact hwith
    have hun : x.sill.unlatched := by
      rw [hxs]
      exact forcedState_eq_none.1 hnone
    obtain ⟨hleak, hint, -⟩ := (noteAct_unlatched (cause := BitVec.ofNat 8 (16 * trig + fn)) hfree).2 hun
    have hforced : forcedState y = some (if inletClosed s.sys then .safeStop else .off) := by
      have hinlet : inletClosed y = inletClosed s.sys := by
        have h1 := actJ3_inletClosed fn trig x
        rw [inletClosed, hys]
        refine h1.trans ?_
        rw [inletClosed, hxs, inletClosed]
      rw [← hinlet]
      refine forcedState_of_safeStop ?_ ?_ ?_
      · rw [hys]
        change (actJ3 fn trig x).sill.leakCut = false
        rw [hj]
        exact hleak
      · rw [hys]
        change ¬ ((actJ3 fn trig x).sill.inletLock = true ∨ (!(actJ3 fn trig x).sill.interlock) = true ∨
          (!(actJ3 fn trig x).sill.present) = true ∨ (actJ3 fn trig x).sill.stopped = true ∨
          (actJ3 fn trig x).sill.fault = true)
        rw [hj]
        exact hint
      · rw [hys]
        rfl
    rw [ht]
    exact actDone_module hforced

/-! ### The functions (R392, R395, R399, R537, R546) -/

theorem sf1_acts {b : Bool} (hon : s.sys.sill.on = true) (hc : (if b then s.sys.sill.leakB else s.sys.sill.leakA).confirmed = true)
    (hl : s.sys.sill.leakCut = false) (hi : inletClosed s.sys = true) :
    ∃ t, exec (.sf1LeakCut b) s = .next t ∧ Acted s t 1 ∧ t.sys.sill.leakCut = true ∧ t.sys.sill.trayCut = true ∧
      t.sys.sill.leakOut = true ∧ t.sys.sill.ssd = .opened ∧ t.sys.mgmt.module = .leakCut ∧
      (s.sys.mgmt.module ≠ .leakCut → AlarmOn t 1) := by
  refine ⟨_, exec_sf1LeakCut s b, ?_⟩
  dsimp only [Acted, AlarmOn]
  unfold sf1
  rw [if_neg (by simp [hon, hc, hl, hi])]
  extract_lets x1 x2 g
  have hmod1 : x1.mgmt.module = s.sys.mgmt.module := by
    refine (raiseEvent_reads Mgmt.module ..).trans ((note_reads Mgmt.module ..).trans ?_)
    exact incE_module ..
  have hacts1 : look 0 x1.sill.acts 1 = look 0 s.sys.sill.acts 1 + 1 := by
    obtain ⟨c, hs⟩ := (countAct_sameBut 1 (if b then 2 else 1) s.sys).sill
    have ha := noteAct_acts (BitVec.ofNat 8 (16 * (if b then 2 else 1) + 1)) s.sys.sf s.sys.sill
    rw [cause_fn _ (by decide)] at ha
    rw [show x1.sill = _ from hs]
    exact ha
  obtain ⟨hacts, hhalt, hcut, htray, hout, hmod⟩ : look 0 (assertHalt (shownCause x2.sill) x2).sill.acts 1 =
      look 0 s.sys.sill.acts 1 + 1 ∧ (assertHalt (shownCause x2.sill) x2).sill.halt = true ∧
      (assertHalt (shownCause x2.sill) x2).sill.leakCut = true ∧ (assertHalt (shownCause x2.sill) x2).sill.trayCut = true ∧
      (assertHalt (shownCause x2.sill) x2).sill.leakOut = true ∧
      (assertHalt (shownCause x2.sill) x2).mgmt.module = s.sys.mgmt.module := ⟨hacts1, rfl, rfl, rfl, rfl, hmod1⟩
  generalize assertHalt (shownCause x2.sill) x2 = y at hacts hhalt hcut htray hout hmod ⊢
  obtain ⟨⟨c, l, hdone⟩, -⟩ := actDone_openInlet y
  have hforced : forcedState (openInlet y) = some .leakCut := by
    unfold forcedState
    rw [openInlet_sill]
    exact if_pos hcut
  obtain ⟨e, he⟩ := (raiseEvent_sameBut 0x42FF01 (natLe 1 (b2n b) ++ natLe 4 g) (actDone (openInlet y))).sill
  rw [he, hdone, raiseEvent_reads Mgmt.module, actDone_module hforced, raiseEvent_reads (fun m => m.bus.alarms)]
  refine ⟨⟨hacts, hhalt⟩, hcut, htray, hout, rfl, rfl, fun hm => ?_⟩
  have hstands : (openInlet y).mgmt.module ≠ .leakCut := by
    rw [openInlet_reads Mgmt.module, hmod]
    exact hm
  exact actDone_leakAlarm hforced hstands

theorem sf2_acts {det : Nat} {since : W64} (hon : s.sys.sill.on = true) (hw : s.sys.sill.watch.stop = some (det, since))
    (hlong : 2000000000 ≤ sinceSf s.sys since) (htile : anyTileOn s.sys.data = true)
    (hnew : BitVec.ofNat 8 (16 * (det + 1) + 2) ∉ s.sys.sill.acted) :
    ∃ t, exec .sf2FlowNotRestored s = .next t ∧ Acted s t 2 ∧ SafeStopped s t := by
  refine ⟨_, exec_sf2FlowNotRestored s, latched_stops (trig := det + 1) (.refl s) (.refl ..) (by decide) ?_⟩
  unfold sf2
  rw [hw]
  exact if_pos ⟨hon, hlong, htile, by simpa using hnew⟩

theorem exec_sf2_of_apart {det : Nat} {since : W64} (hw : s.sys.sill.watch.stop = some (det, since))
    (h : sinceSf s.sys since < 2000000000 ∨ anyTileOn s.sys.data = false) : exec .sf2FlowNotRestored s = .next s := by
  rw [exec_sf2FlowNotRestored]
  unfold sf2
  rw [hw]
  dsimp only
  rw [if_neg]
  rintro ⟨-, hlong, htile, -⟩
  exact h.elim hlong.not_gt fun h => Bool.false_ne_true (h.symm.trans htile)

/-- What an act leaves where it was in the cycle of a confirmation: the latches that the exit would have cleared (R553). -/
theorem latched_withholds {l : Latches} (he : s.sys.sill.exited = some (s.sys.sf, l))
    (ht : t.sys = actDone (latchSafe fn trig (actJ3 fn trig s.sys))) :
    t.sys.sill.leakCut = l.leakCut ∧ t.sys.sill.inletLock = l.inletLock ∧ t.sys.sill.exited = none := by
  obtain ⟨c, v, hdone⟩ := actDone_sill (latchSafe fn trig (actJ3 fn trig s.sys))
  obtain ⟨j, hj⟩ := actJ3_sill fn trig s.sys
  have hw : (withhold s.sys.sf s.sys.sill).leakCut = l.leakCut ∧ (withhold s.sys.sf s.sys.sill).inletLock = l.inletLock ∧
      (withhold s.sys.sf s.sys.sill).exited = none := by
    unfold withhold
    rw [he]
    dsimp only
    rw [if_pos rfl]
    exact ⟨rfl, rfl, rfl⟩
  rw [ht, hdone]
  change (actJ3 fn trig s.sys).sill.leakCut = _ ∧ (actJ3 fn trig s.sys).sill.inletLock = _ ∧
    (actJ3 fn trig s.sys).sill.exited = none
  rw [hj]
  exact hw

theorem sf3_acts {stack : Bool} (hon : s.sys.sill.on = true)
    (hn : 2 ≤ if stack then s.sys.sill.hotStack else s.sys.sill.hotTile)
    (hnew : (if stack then 0x23#8 else 0x13#8) ∉ s.sys.sill.acted) :
    ∃ t, exec (.sf3OverTemperature stack) s = .next t ∧ Acted s t 3 ∧ SafeStopped s t ∧
      ∀ l, s.sys.sill.exited = some (s.sys.sf, l) → t.sys.sill.leakCut = l.leakCut ∧
        t.sys.sill.inletLock = l.inletLock ∧ t.sys.sill.exited = none := by
  have hcause : BitVec.ofNat 8 (16 * (if stack then 2 else 1) + 3) ∉ s.sys.sill.acted := by
    cases stack <;> exact hnew
  have hact : sf3 stack s.sys =
      actDone (latchSafe 3 (if stack then 2 else 1) (actJ3 3 (if stack then 2 else 1) s.sys)) :=
    if_pos ⟨hon, hn, by simpa using hcause⟩
  obtain ⟨hacted, hstop⟩ := latched_stops (t := { s with sys := sf3 stack s.sys }) (.refl s) (.refl ..) (by decide) hact
  exact ⟨_, exec_sf3OverTemperature s stack, hacted, hstop, fun l he => latched_withholds he hact⟩

theorem exec_sf3_of_cool {stack : Bool} (hn : (if stack then s.sys.sill.hotStack else s.sys.sill.hotTile) < 2) :
    exec (.sf3OverTemperature stack) s = .next s := by
  rw [exec_sf3OverTemperature, sf3, if_neg fun h => h.2.1.not_gt hn]

theorem sf4_current_acts {amps us : Nat} (hon : s.sys.sill.on = true) (ha : 700 < amps) (hus : 50 < us) :
    ∃ t, exec (.sf4BusProtection false amps us) s = .next t ∧ Acted s t 4 ∧ SafeStopped s t ∧
      t.sys.sill.sf4At = some s.sys.sf := by
  obtain ⟨x1, hx1⟩ : ∃ x1, onSill (fun l => { l with busAmps := amps }) s.sys = x1 := ⟨_, rfl⟩
  obtain ⟨y, hy⟩ : ∃ y, onSill (fun l => { l with sf4At := some s.sys.sf }) (latchSafe 4 1 (actJ3 4 1 x1)) = y := ⟨_, rfl⟩
  have hact : sf4 false amps us s.sys = actDone y := by
    rw [sf4, if_neg (by simp [hon]), if_neg Bool.false_ne_true, if_pos ⟨ha, hus⟩]
    dsimp only
    rw [hx1, hy]
  have hfrom : ActsFrom s x1 := ⟨by rw [← hx1]; rfl, amps, _, by rw [← hx1]; rfl⟩
  have hlatched : LatchedFrom 4 1 x1 y := ⟨some s.sys.sf, _, _, by rw [← hy]; rfl⟩
  obtain ⟨hacted, hstop⟩ := latched_stops (t := { s with sys := sf4 false amps us s.sys }) hfrom hlatched (by decide) hact
  refine ⟨_, exec_sf4BusProtection s false amps us, hacted, hstop, ?_⟩
  obtain ⟨c, l, hdone⟩ := actDone_sill y
  dsimp only
  rw [hact, hdone, ← hy]
  rfl

theorem exec_sf4_of_low (voltage : Bool) {v us : Nat}
    (h : v ≤ (if voltage then 59500 else 700) ∨ us ≤ (if voltage then 10 else 50)) :
    exec (.sf4BusProtection voltage v us) s = .next s := by
  rw [exec_sf4BusProtection, sf4]
  cases voltage with
  | false =>
    change v ≤ 700 ∨ us ≤ 50 at h
    split
    · rfl
    · rw [if_neg Bool.false_ne_true, if_neg (by omega)]
  | true =>
    change v ≤ 59500 ∨ us ≤ 10 at h
    split
    · rfl
    · rw [if_pos rfl, if_neg (by omega)]

/-- What the end of an act leaves of a locked inlet. -/
theorem inletLocked_actDone (hl : y.sill.inletLock = true) (hs : y.sill.ssd = .opened) (ht : t.sys = actDone y) :
    InletLocked t := by
  obtain ⟨c, l, hdone⟩ := actDone_sill y
  rw [InletLocked, ht, hdone]
  exact ⟨hl, hs⟩

theorem sf4_voltage_acts {mv us : Nat} (hon : s.sys.sill.on = true) (hmv : 59500 < mv) (hus : 10 < us) :
    ∃ t, exec (.sf4BusProtection true mv us) s = .next t ∧ Acted s t 4 ∧ InletLocked t := by
  obtain ⟨x1, hx1⟩ : ∃ x1, onSill (fun l => { l with busMv := mv }) s.sys = x1 := ⟨_, rfl⟩
  have hact : sf4 true mv us s.sys = actDone (lockInlet (actJ3 4 2 x1)) := by
    rw [sf4, if_neg (by simp [hon]), if_pos rfl, if_pos ⟨hmv, hus⟩]
    dsimp only
    rw [hx1]
  obtain ⟨c, hlock⟩ := lockInlet_sill (actJ3 4 2 x1)
  obtain ⟨d, l, hdone⟩ := actDone_sill (lockInlet (actJ3 4 2 x1))
  obtain ⟨hacts, hhalt⟩ := actJ3_acts 2 x1 (fn := 4) (by decide)
  refine ⟨_, exec_sf4BusProtection s true mv us, ⟨?_, ?_⟩,
    inletLocked_actDone (by rw [hlock]) (by rw [hlock]) hact⟩
  · dsimp only
    rw [hact, hdone, hlock]
    refine hacts.trans ?_
    rw [← hx1]
    rfl
  · dsimp only
    rw [hact, hdone, hlock]
    exact hhalt

theorem busRecheck_reads {amps : Nat} (h4 : s.sys.sill.sf4At ≠ none) :
    (200 < amps → ∃ t, exec (.busCurrentRecheck amps) s = .next t ∧ InletLocked t) ∧
      (amps ≤ 200 → ∃ t, exec (.busCurrentRecheck amps) s = .next t ∧ t.sys.sill.inletLock = s.sys.sill.inletLock ∧
        t.sys.sill.sf4At = none) := by
  obtain ⟨at_, ha⟩ := Option.ne_none_iff_exists'.1 h4
  have hx : busRecheck amps s.sys =
      if 200 < amps then lockInlet (onSill (fun l => { l with sf4At := none, busAmps := amps }) s.sys)
      else onSill (fun l => { l with sf4At := none, busAmps := amps }) s.sys := by
    unfold busRecheck
    rw [ha]
  refine ⟨fun h => ⟨_, exec_busCurrentRecheck s amps, inletLocked_of_lockInlet (hx.trans (if_pos h))⟩,
    fun h => ⟨_, exec_busCurrentRecheck s amps, ?_⟩⟩
  dsimp only
  rw [hx, if_neg h.not_gt]
  exact ⟨rfl, rfl⟩

/-- The input-loss path opens the inlet and leaves the rest of Sill (R338). -/
theorem inputLossPath_sill (cause : Nat) (x : Module) : ∃ c, (inputLossPath cause x).sill =
    { x.sill with ssd := .opened, contactor := false, copy := c } := by
  unfold inputLossPath
  extract_lets x1 x2 x3
  obtain ⟨c1, h1⟩ := ((incE_sameBut Ent.inputFaults x).trans (note_sameBut 0 9 Ent.inputFaults cause _)).sill
  have h2 : x2.sill = { x.sill with ssd := .opened, contactor := false, copy := c1 } := by
    rw [editPower_sill, openInlet_sill, show x1.sill = _ from h1]
  have h3 : ∃ c, x3.sill = { x.sill with ssd := .opened, contactor := false, copy := c } := by
    unfold x3
    split
    · exact ⟨c1, h2⟩
    · obtain ⟨c, hc⟩ := (toState_sameBut .off x2).sill
      exact ⟨c, by rw [hc, h2]⟩
  obtain ⟨c3, h3⟩ := h3
  obtain ⟨c, hc⟩ := (beginAlarm_sameBut 4 0 x3).sill
  exact ⟨c, by rw [hc, h3]⟩

theorem sf5_current_acts {a us : Nat} (hon : s.sys.sill.on = true) (hi : inletClosed s.sys = true) (ha : 120 < a) (hus : 2 ≤ us) :
    ∃ t, exec (.sf5InletProtection true a us) s = .next t ∧ Acted s t 5 ∧ InletLocked t := by
  obtain ⟨y, hy⟩ : ∃ y, onSill (fun l => { l with inletLock := true, inletA := a }) (actJ3 5 2 s.sys) = y := ⟨_, rfl⟩
  have hact : sf5 true a us s.sys = actDone (inputLossPath 3 y) := by
    rw [sf5, if_neg (by simp [hon, hi]), if_pos rfl, if_pos ⟨ha, hus⟩]
    dsimp only
    rw [hy]
  obtain ⟨c, hloss⟩ := inputLossPath_sill 3 y
  obtain ⟨d, l, hdone⟩ := actDone_sill (inputLossPath 3 y)
  obtain ⟨hacts, hhalt⟩ := actJ3_acts 2 s.sys (fn := 5) (by decide)
  refine ⟨_, exec_sf5InletProtection s true a us, ⟨?_, ?_⟩,
    inletLocked_actDone (by rw [hloss, ← hy]; rfl) (by rw [hloss]) hact⟩
  · dsimp only
    rw [hact, hdone, hloss, ← hy]
    exact hacts
  · dsimp only
    rw [hact, hdone, hloss, ← hy]
    exact hhalt

theorem sf5_voltage_acts {v us : Nat} (hon : s.sys.sill.on = true) (hi : inletClosed s.sys = true) (hv : 920 < v) (hus : 50 ≤ us) :
    ∃ t, exec (.sf5InletProtection false v us) s = .next t ∧ Acted s t 5 ∧ t.sys.sill.ssd = .opened ∧
      (NoneWithheld s → t.sys.sill.inletLock = s.sys.sill.inletLock) := by
  obtain ⟨y, hy⟩ : ∃ y, onSill (fun l => { l with inletV := v }) (actJ3 5 1 s.sys) = y := ⟨_, rfl⟩
  have hact : sf5 false v us s.sys = actDone (inputLossPath 1 y) := by
    rw [sf5, if_neg (by simp [hon, hi]), if_neg Bool.false_ne_true, if_pos ⟨hv, hus⟩, hy]
  obtain ⟨c, hloss⟩ := inputLossPath_sill 1 y
  obtain ⟨d, l, hdone⟩ := actDone_sill (inputLossPath 1 y)
  obtain ⟨hacts, hhalt⟩ := actJ3_acts 1 s.sys (fn := 5) (by decide)
  refine ⟨_, exec_sf5InletProtection s false v us, ?_⟩
  dsimp only [Acted]
  rw [hact, hdone, hloss, ← hy]
  refine ⟨⟨hacts, hhalt⟩, rfl, fun hw => ?_⟩
  obtain ⟨j, hj⟩ := actJ3_sill 5 1 s.sys
  change (actJ3 5 1 s.sys).sill.inletLock = _
  rw [hj, noteAct, withhold_of_none hw]

theorem exec_sf5_of_low (current : Bool) {v us : Nat}
    (h : v ≤ (if current then 120 else 920) ∨ us < (if current then 2 else 50)) :
    exec (.sf5InletProtection current v us) s = .next s := by
  rw [exec_sf5InletProtection, sf5]
  cases current with
  | false =>
    change v ≤ 920 ∨ us < 50 at h
    split
    · rfl
    · rw [if_neg Bool.false_ne_true, if_neg (by omega)]
  | true =>
    change v ≤ 120 ∨ us < 2 at h
    split
    · rfl
    · rw [if_pos rfl, if_neg (by omega)]

theorem sf6_acts (hon : s.sys.sill.on = true) (htrig : sf6Trigger s.sys = some trig) (h6 : s.sys.sill.sf6At = none) :
    ∃ t, exec .sf6SkourSupervision s = .next t ∧ Acted s t 6 ∧ SafeStopped s t ∧ t.sys.sill.sf6At = some s.sys.sf := by
  obtain ⟨y, hy⟩ : ∃ y, onSill (fun l => { l with sf6At := some s.sys.sf, longWindow := none })
      (latchSafe 6 trig (actJ3 6 trig s.sys)) = y := ⟨_, rfl⟩
  have hact : sf6 s.sys = actDone y := by
    unfold sf6
    rw [htrig]
    dsimp only
    rw [if_pos ⟨hon, by rw [h6]; rfl⟩, hy]
  have hlatched : LatchedFrom 6 trig s.sys y := ⟨_, some s.sys.sf, none, by rw [← hy]; rfl⟩
  obtain ⟨hacted, hstop⟩ := latched_stops (t := { s with sys := sf6 s.sys }) (.refl s) hlatched (by decide) hact
  refine ⟨_, exec_sf6SkourSupervision s, hacted, hstop, ?_⟩
  obtain ⟨c, l, hdone⟩ := actDone_sill y
  dsimp only
  rw [hact, hdone, ← hy]
  rfl

theorem sf8_leak_acts (hon : s.sys.sill.on = true) (ha : s.sys.sill.leakA.faulted = true)
    (hb : s.sys.sill.leakB.faulted = true) (hnew : 0x18#8 ∉ s.sys.sill.acted) :
    ∃ t, exec (.sf8SafetySensingLost .leak) s = .next t ∧ Acted s t 8 ∧ SafeStopped s t := by
  refine ⟨_, exec_sf8SafetySensingLost s .leak, latched_stops (trig := 1) (.refl s) (.refl ..) (by decide) ?_⟩
  dsimp only
  rw [sf8, if_neg (by simp [hon])]
  exact if_pos ⟨ha, hb, by simpa using hnew⟩

theorem sf8_flow_acts (hon : s.sys.sill.on = true) (htile : anyTileOn s.sys.data = true) (hnew : 0x28#8 ∉ s.sys.sill.acted)
    (hblind : 10 < s.sys.sill.blind) :
    ∃ t, exec (.sf8SafetySensingLost .flow) s = .next t ∧ Acted s t 8 ∧ SafeStopped s t := by
  refine ⟨_, exec_sf8SafetySensingLost s .flow, latched_stops (trig := 2) (.refl s) (.refl ..) (by decide) ?_⟩
  dsimp only
  rw [sf8, if_neg (by simp [hon])]
  exact if_pos ⟨htile, hblind, by simpa using hnew⟩

theorem sf8_link_acts (hon : s.sys.sill.on = true) (htile : anyTileOn s.sys.data = true) (hnew : 0x28#8 ∉ s.sys.sill.acted) :
    ∃ t, exec (.sf8SafetySensingLost .link) s = .next t ∧ Acted s t 8 ∧ SafeStopped s t ∧ t.sys.sill.sensing = 0 := by
  obtain ⟨x1, hx1⟩ : ∃ x1, onSill (fun l => { l with sensing := 0 }) s.sys = x1 := ⟨_, rfl⟩
  have hact : sf8 .link s.sys = actDone (latchSafe 8 2 (actJ3 8 2 x1)) := by
    rw [sf8, if_neg (by simp [hon]), ← hx1]
    exact if_pos ⟨htile, by simpa using hnew⟩
  have hfrom : ActsFrom s x1 := ⟨by rw [← hx1]; rfl, _, 0, by rw [← hx1]; rfl⟩
  obtain ⟨hacted, hstop⟩ := latched_stops (t := { s with sys := sf8 .link s.sys }) hfrom (.refl ..) (by decide) hact
  refine ⟨_, exec_sf8SafetySensingLost s .link, hacted, hstop, ?_⟩
  obtain ⟨c, l, hdone⟩ := actDone_sill (latchSafe 8 2 (actJ3 8 2 x1))
  obtain ⟨j, hj⟩ := actJ3_sill 8 2 x1
  have hsense (now : W64) (u : Sill) : (withhold now u).sensing = u.sensing := by
    unfold withhold
    split
    · split <;> rfl
    · rfl
  dsimp only
  rw [hact, hdone]
  change (actJ3 8 2 x1).sill.sensing = 0
  rw [hj]
  refine (hsense x1.sf x1.sill).trans ?_
  rw [← hx1]
  rfl

theorem sf8_sill_acts (part : Fin 7) (hon : s.sys.sill.on = true) (hfault : s.sys.sill.fault = false) :
    ∃ t, exec (.sf8SafetySensingLost (.sill part)) s = .next t ∧ Acted s t 8 ∧ t.sys.sill.fault = true ∧ InletLocked t ∧
      t.sys.sill.tilePwrEn = false ∧ getE t.sys Ent.sillSelftest = part.val := by
  obtain ⟨y, hy⟩ : ∃ y, dropTilePower (setE Ent.sillSelftest part.val (onSill (fun l => { l with
      fault := true, selftest := part.val, inletLock := true }) (actJ3 8 3 s.sys))) = y := ⟨_, rfl⟩
  have hact : sf8 (.sill part) s.sys = actDone (openInlet y) := by
    rw [sf8, if_neg (by simp [hon]), ← hy]
    exact if_neg (by simp [hfault])
  obtain ⟨⟨c, l, hdone⟩, -⟩ := actDone_openInlet y
  obtain ⟨hacts, hhalt⟩ := actJ3_acts 3 s.sys (fn := 8) (by decide)
  have hself : getE y Ent.sillSelftest = part.val := by
    rw [← hy]
    exact getE_setE_self ..
  refine ⟨_, exec_sf8SafetySensingLost s (.sill part), ?_⟩
  dsimp only [Acted, InletLocked]
  rw [hact, hdone, getE_actDone _ (by decide), getE_openInlet _ (by decide), hself, ← hy]
  exact ⟨⟨hacts, hhalt⟩, rfl, ⟨rfl, rfl⟩, rfl, rfl⟩

/-- Settles O59: each function by its one act, the latched ones by what the safe-stop latch forces. -/
theorem safetyFunctionsAct : Obligations.SafetyFunctionsAct := by
  intro s hon
  refine ⟨fun b => sf1_acts hon, fun det since hw => ⟨sf2_acts hon hw, exec_sf2_of_apart hw⟩,
    fun stack => ⟨sf3_acts hon, exec_sf3_of_cool⟩,
    fun us amps mv => ⟨sf4_current_acts hon, exec_sf4_of_low false, sf4_voltage_acts hon, exec_sf4_of_low true⟩,
    fun amps h4 => busRecheck_reads h4,
    fun hi us v a => ⟨sf5_current_acts hon hi, sf5_voltage_acts hon hi, exec_sf5_of_low true, exec_sf5_of_low false⟩,
    fun trig htrig h6 => sf6_acts hon htrig h6, fun h => ?_, sf8_leak_acts hon,
    fun htile hnew => ⟨sf8_flow_acts hon htile hnew, sf8_link_acts hon htile hnew⟩, fun part => sf8_sill_acts part hon⟩
  rw [exec_sf6SkourSupervision]
  unfold sf6
  rw [h]

end Sys2Proof.Machine
end

section
/-!
SUPPORT. What an answer, a transfer and a journaled request leave of the module, and what the checks of a request read. Then
reads and segments (O55).
-/

namespace Sys2Proof.Machine

-- As in the tests: one proof at a time, so that the whole text keeps within the threads that the memory holds.
set_option Elab.async false

variable {s t : State} {x y : Module} {k : Nat} {q : DictReq}

/-! ### Answers (R498, R501) -/

/-- The module after a response: what is kept for a repeat, the response, what was sent and the channels' queues are new. -/
def Module.answered (a : List (DictReq × DictReply × W64)) (r : DictReply) (l : List Sent) (c : SMap BusChan) (x : Module) : Module :=
  editBus (fun b => { b with answers := a, reply := some r, sent := l, chans := c }) x

/-- `y` is `x` after the response `r`: nothing but the answer's own state is new, and of a channel its queue alone. -/
def Module.Answers (r : DictReply) (x y : Module) : Prop :=
  ∃ a l c, y = x.answered a r l c ∧ ∀ n, ∃ w, busOf y n = { busOf x n with queue := w }

theorem queueMsg_reply {c : Nat} (i : BitVec 29) (bs : List Byte) (x : Module) :
    queueMsg c ⟨i, 9, bs⟩ x = editChannel c (fun b => { b with queue := queueIn ⟨i, 9, bs⟩ b.queue }) x :=
  if_neg fun h => absurd (show (9 : Nat) = 5 from h.1) (by decide)

theorem sendReply_answers (chan : Nat) (r : DictReply) (x : Module) : Module.Answers r x (sendReply chan r x) := by
  have hsame (n : Nat) : ∃ w, busOf x n = { busOf x n with queue := w } := ⟨_, rfl⟩
  unfold sendReply
  extract_lets x1
  split
  · exact ⟨x.mgmt.bus.answers, _, x.mgmt.bus.chans, rfl, hsame⟩
  · split
    case h_1 c _ =>
      rw [queueMsg_reply]
      refine ⟨x.mgmt.bus.answers, x.mgmt.bus.sent, _, rfl, fun n => ?_⟩
      by_cases hn : n = c
      · rw [hn, busOf_editChannel_self]
        exact ⟨_, rfl⟩
      · rw [busOf_editChannel_of_ne _ _ hn]
        exact hsame n
    case h_2 => exact ⟨x.mgmt.bus.answers, x.mgmt.bus.sent, x.mgmt.bus.chans, rfl, hsame⟩

/-- A response kept and sent answers. -/
theorem keepAnswer_answers (q : DictReq) (r : DictReply) (y : Module) :
    Module.Answers r y (sendReply q.who.chan r (keepAnswer q r y)) := by
  obtain ⟨a, l, c, h, hc⟩ := sendReply_answers q.who.chan r (keepAnswer q r y)
  rw [h] at hc ⊢
  exact ⟨a, l, c, rfl, hc⟩

/-- A request that is heard and no repeat is served, and its response kept and sent. -/
theorem request_answers {target : Nat} (hh : requestHeard target q.who x = true) (hk : keptAnswer x q = none) :
    Module.Answers (serveOp q x).1 (serveOp q x).2 (request target q x) := by
  unfold request
  rw [if_neg (by simp [hh]), hk]
  exact keepAnswer_answers q _ _

theorem Module.Answers.reply {r : DictReply} (h : Module.Answers r x y) : y.mgmt.bus.reply = some r := by
  obtain ⟨a, l, c, rfl, -⟩ := h
  rfl

theorem Module.Answers.getE {r : DictReply} (h : Module.Answers r x y) : Machine.getE y k = Machine.getE x k := by
  obtain ⟨a, l, c, rfl, -⟩ := h
  rfl

theorem Module.Answers.data {r : DictReply} (h : Module.Answers r x y) : y.data = x.data := by
  obtain ⟨a, l, c, rfl, -⟩ := h
  rfl

theorem Module.Answers.sill {r : DictReply} (h : Module.Answers r x y) : y.sill = x.sill := by
  obtain ⟨a, l, c, rfl, -⟩ := h
  rfl

/-- A reader of the management plane that looks at nothing an answer changes. -/
def ReplyFree {α : Type} (rd : Mgmt → α) : Prop :=
  ∀ m a r l c, rd { m with bus := { m.bus with answers := a, reply := r, sent := l, chans := c } } = rd m

theorem Module.Answers.reads {r : DictReply} (h : Module.Answers r x y) {α : Type} (rd : Mgmt → α)
    (hrd : ReplyFree rd := by intro _ _ _ _ _; rfl) : rd y.mgmt = rd x.mgmt := by
  obtain ⟨a, l, c, rfl, -⟩ := h
  exact hrd ..

theorem Module.Answers.channel {r : DictReply} (h : Module.Answers r x y) {α : Type} (rd : BusChan → α)
    (hrd : ∀ b w, rd { b with queue := w } = rd b := by intro _ _; rfl) (n : Nat) : rd (busOf y n) = rd (busOf x n) := by
  obtain ⟨-, -, -, -, hc⟩ := h
  obtain ⟨w, hw⟩ := hc n
  rw [hw, hrd]

/-- A response to a request carries its requester, tag, index and sub-index. -/
theorem Module.Answers.replies {code total : Nat} {bs : List Byte} (h : Module.Answers (replyTo q code total bs) x t.sys) :
    Replies t q code := ⟨_, h.reply, rfl, rfl, rfl, rfl, rfl⟩

/-! ### Transfers (R499, R500) -/

theorem sameWho_self (w : Requester) : sameWho w w = true := by simp [sameWho]

theorem sameWho_symm_trans {a b c : Requester} (h : sameWho a b = true) : sameWho a c = sameWho b c := by
  simp only [sameWho, Bool.and_eq_true, beq_iff_eq] at h
  obtain ⟨⟨h1, h2⟩, h3⟩ := h
  rw [sameWho, sameWho, h1, h2, h3]

theorem transferOf_endTransfer (q : DictReq) (x : Module) : transferOf (endTransfer q x) q = none := by
  refine List.find?_eq_none.2 fun r hr => ?_
  have hr' := (List.mem_filter.1 hr).2
  cases hs : sameWho r.who q.who <;> simp_all

/-- A transfer added for a requester and tag that has none is found. -/
theorem transferOf_addTransfer {r : Transfer} (h : transferOf x q = none) (hw : sameWho r.who q.who = true) (ht : r.tag = q.tag) :
    transferOf (addTransfer r x) q = some r := by
  have hfind : (x.mgmt.bus.transfers ++ [r]).find? (fun t => sameWho t.who q.who && t.tag == q.tag) = some r := by
    rw [List.find?_append, show x.mgmt.bus.transfers.find? _ = none from h, Option.none_or,
      List.find?_cons_of_pos (by simp [hw, ht])]
  exact hfind

theorem transferOf_congr (h : y.mgmt.bus.transfers = x.mgmt.bus.transfers) : transferOf y q = transferOf x q := by
  rw [transferOf, h, ← transferOf]

/-! ### What a transfer's end and a journaled request leave (R500, R502) -/

theorem journalRequest_reads {α : Type} (rd : Mgmt → α) (w : Requester) (kind k : Nat) (bs : List Byte) (code : Nat) (x : Module)
    (h : RecordFree rd := by intro _; rfl) : rd (journalRequest w kind k bs code x).mgmt = rd x.mgmt :=
  commitEnt_reads rd _ x h

/-- A transfer's end hides no value. -/
theorem readEntry_endTransfer (w : Requester) (k : Nat) (q : DictReq) (x : Module) :
    readEntry (endTransfer q x) w k = readEntry x w k := rfl

theorem levelOf_endTransfer (w : Requester) (q : DictReq) (x : Module) : levelOf (endTransfer q x) w = levelOf x w := rfl

/-- What a command of the dictionary makes of a request that is heard and is no repeat. -/
theorem dictionary_answers {op : Nat} {c : DictCall} (hh : requestHeard c.target c.who x = true) (hk : keptAnswer x (reqOf op c) = none) :
    Module.Answers (serveOp (reqOf op c) x).1 (serveOp (reqOf op c) x).2 (dictionary op c x) :=
  request_answers (q := reqOf op c) hh hk

/-- A response to `q` and the module it leaves replies with its code. -/
theorem Module.Answers.replies_of {p : DictReply × Module} {y : Module} {code total : Nat} {bs : List Byte}
    (h : Module.Answers p.1 p.2 y) (hp : p.1 = replyTo q code total bs) (s : State) : Replies { s with sys := y } q code :=
  ⟨_, h.reply, by rw [hp]; exact ⟨rfl, rfl, rfl, rfl, rfl⟩⟩

theorem Module.Answers.transferOf {r : DictReply} (h : Module.Answers r x y) : Machine.transferOf y q = Machine.transferOf x q :=
  transferOf_congr (h.reads fun m => m.bus.transfers)

/-! ### Reads (R499, R504, R508) -/

/-- What a read that finds a free transfer does. -/
theorem serveRead_of_error (hf : transfersFull (endTransfer q x) q = false) (hn : nameEntry q.index q.sub = .error k) :
    serveRead q x = refuseRead q k (endTransfer q x) := by
  unfold serveRead
  rw [if_neg (by simp [hf]), hn]

theorem serveRead_of_hidden {e : DEntry} (hf : transfersFull (endTransfer q x) q = false)
    (hn : nameEntry q.index q.sub = .ok e) (hm : mayRead (levelOf x q.who) (q.index * 256 + q.sub) = false) :
    serveRead q x = refuseRead q 0x0531 (endTransfer q x) := by
  unfold serveRead
  rw [if_neg (by simp [hf]), hn]
  exact if_pos (by rw [levelOf_endTransfer, hm]; rfl)

/-- The module after an answered read: a longer value waits for its segments. -/
def readTransfer (q : DictReq) (e : DEntry) (x : Module) : Module :=
  if e.len ≤ 48 then endTransfer q x
  else addTransfer ⟨q.who, q.tag, 1, q.index, q.sub, e.len, 1, natLe e.len (readEntry x q.who (q.index * 256 + q.sub)), x.ts⟩
    (endTransfer q x)

theorem transferOf_readTransfer {e : DEntry} (h : 48 < e.len) : ∃ r, transferOf (readTransfer q e x) q = some r ∧ r.next = 1 ∧
    r.bytes = natLe e.len (readEntry x q.who (q.index * 256 + q.sub)) := by
  rw [readTransfer, if_neg (Nat.not_le.2 h)]
  exact ⟨_, transferOf_addTransfer (transferOf_endTransfer ..) (sameWho_self _) rfl, rfl, rfl⟩

theorem serveRead_of_seen {e : DEntry} (hf : transfersFull (endTransfer q x) q = false)
    (hn : nameEntry q.index q.sub = .ok e) (hm : mayRead (levelOf x q.who) (q.index * 256 + q.sub) = true) :
    serveRead q x = (replyTo q 0 e.len ((natLe e.len (readEntry x q.who (q.index * 256 + q.sub))).take 48), readTransfer q e x) := by
  unfold serveRead
  rw [if_neg (by simp [hf]), hn]
  dsimp only
  rw [if_neg (by rw [levelOf_endTransfer, hm]; decide), readEntry_endTransfer, readTransfer]
  rfl

/-- A refused read counts, and its answer hides nothing else. -/
theorem getE_readsRefused {r : DictReply} (h : Module.Answers r (incE Ent.readsRefused (endTransfer q x)) y) :
    getE y Ent.readsRefused = (getE x Ent.readsRefused + 1) % 2 ^ 32 := by
  rw [h.getE, getE_incE_self]
  rfl

theorem read_answers {c : DictCall} (hr : Reaches s c.target (reqOf 1 c)) {e : DEntry}
    (he : nameEntry c.index.toNat c.sub.toNat = .ok e)
    (hm : mayRead (levelOf s.sys c.who) (c.index.toNat * 256 + c.sub.toNat) = true) :
    ∃ t y, exec (.dictRead c) s = .next t ∧ Replies t (reqOf 1 c) 0 ∧ t.sys.mgmt.bus.reply = some y ∧ y.total = e.len ∧
      y.value = (natLe e.len (readEntry s.sys c.who (c.index.toNat * 256 + c.sub.toNat))).take 48 ∧
      (48 < e.len → ∃ r, transferOf t.sys (reqOf 1 c) = some r ∧ r.next = 1 ∧
        r.bytes = natLe e.len (readEntry s.sys c.who (c.index.toNat * 256 + c.sub.toNat))) := by
  obtain ⟨hh, hk, hf⟩ := hr
  have ha := dictionary_answers hh hk
  have hs : serveOp (reqOf 1 c) s.sys = _ := serveRead_of_seen hf he hm
  rw [hs] at ha
  refine ⟨_, _, exec_dictRead s c, ha.replies_of rfl s, ha.reply, rfl, rfl, fun hlen => ?_⟩
  obtain ⟨r, hfind, hnext, hbytes⟩ := transferOf_readTransfer (q := reqOf 1 c) (e := e) (x := s.sys) hlen
  exact ⟨r, ha.transferOf.trans hfind, hnext, hbytes⟩

theorem read_refused {c : DictCall} (hr : Reaches s c.target (reqOf 1 c)) {code : Nat}
    (hs : serveRead (reqOf 1 c) s.sys = refuseRead (reqOf 1 c) code (endTransfer (reqOf 1 c) s.sys)) :
    ∃ t, exec (.dictRead c) s = .next t ∧ Replies t (reqOf 1 c) code ∧
      getE t.sys Ent.readsRefused = (getE s.sys Ent.readsRefused + 1) % 2 ^ 32 := by
  obtain ⟨hh, hk, -⟩ := hr
  have ha := dictionary_answers hh hk
  rw [show serveOp (reqOf 1 c) s.sys = _ from hs] at ha
  exact ⟨_, exec_dictRead s c, ha.replies_of rfl s, getE_readsRefused ha⟩

/-! ### Segments (R499, R500, R502) -/

/-- A segment in order continues its transfer. -/
theorem segmentOf_next {r : Transfer} {ops : List Nat} (ht : transferOf x q = some r) (hi : transferIdle x r = false)
    (hn : r.next = q.segment) (hx : r.index = q.index) (hb : r.sub = q.sub) (ho : r.op ∈ ops) :
    segmentOf x q ops = .ok r := by
  unfold segmentOf
  rw [ht]
  dsimp only
  rw [if_neg (by simp [hi]), if_neg (by simp [hn, hx, hb, ho])]

theorem sameWho_of_transferOf {r : Transfer} (ht : transferOf x q = some r) : sameWho r.who q.who = true ∧ r.tag = q.tag := by
  have h := List.find?_some ht
  simpa using h

theorem reqBytes_full {n : Nat} (h : 48 ≤ n) : reqBytes q n = (q.value ++ List.replicate 48 0).take 48 := by
  rw [reqBytes, Nat.min_eq_right h]

theorem reqBytes_full_length {n : Nat} (h : 48 ≤ n) : (reqBytes q n).length = 48 := by
  rw [reqBytes_full h, List.length_take, List.length_append, List.length_replicate]
  omega

theorem serveReadSegment_next {r : Transfer} (h : segmentOf x q [1] = .ok r) :
    (serveReadSegment q x).1 = replyTo q 0 r.total ((r.bytes.drop (48 * q.segment)).take 48) := by
  unfold serveReadSegment
  rw [h]

/-- A write's segment that is not its last is added to what has come. -/
theorem serveWriteSegment_next {r : Transfer} (h : segmentOf x q [2, 3] = .ok r) (hl : r.bytes.length + 48 < r.total) :
    serveWriteSegment q x = (replyTo q 0 r.total [], addTransfer
      { r with next := r.next + 1, bytes := r.bytes ++ (q.value ++ List.replicate 48 0).take 48, last := x.ts } (endTransfer q x)) := by
  have hroom : 48 ≤ r.total - r.bytes.length := by omega
  unfold serveWriteSegment
  rw [h]
  dsimp only
  rw [if_neg (by rw [List.length_append, reqBytes_full_length hroom]; omega), reqBytes_full hroom]

theorem serveAbort_ends {r : Transfer} (h : transferOf x q = some r) :
    (serveAbort q x).1 = replyTo q 0 0 [] ∧ transferOf (serveAbort q x).2 q = none := by
  unfold serveAbort
  rw [h]
  refine ⟨rfl, (transferOf_congr ?_).trans (transferOf_endTransfer q x)⟩
  exact repeatN_induct (P := fun y : Module => y.mgmt.bus.transfers = (endTransfer q x).mgmt.bus.transfers) (fun _ _ hy => hy) 2 rfl

theorem transferTimeout_ends {w : Requester} {tag : Nat} {r : Transfer} (hq : q.who = w ∧ q.tag = tag)
    (ht : transferOf x q = some r) (hu : skourUp x = true) (hi : transferIdle x r = true) :
    transferOf (transferTimeout w tag x) q = none := by
  obtain ⟨rfl, rfl⟩ := hq
  unfold transferTimeout
  dsimp only
  rw [show transferOf x ⟨q.who, q.tag, 7, 0, 0, 0, 0, []⟩ = some r from ht]
  dsimp only
  rw [if_pos ⟨hu, hi⟩]
  split
  · exact transferOf_endTransfer q x
  · exact (transferOf_congr (journalRequest_reads (fun m => m.bus.transfers) ..)).trans (transferOf_endTransfer q x)

theorem transferTimeout_of_busy {w : Requester} {tag : Nat} {r : Transfer} (hq : q.who = w ∧ q.tag = tag)
    (ht : transferOf x q = some r) (hi : transferIdle x r = false) : transferTimeout w tag x = x := by
  obtain ⟨rfl, rfl⟩ := hq
  unfold transferTimeout
  dsimp only
  rw [show transferOf x ⟨q.who, q.tag, 7, 0, 0, 0, 0, []⟩ = some r from ht]
  exact if_neg (by simp [hi])

/-- Settles O55: each request is served by its op; what it answers leaves the module by `Module.Answers`. -/
theorem readsAndSegmentsAnswer : Obligations.ReadsAndSegmentsAnswer := by
  unfold Obligations.ReadsAndSegmentsAnswer
  refine ⟨fun s c => ⟨fun hr => ⟨fun e he => ⟨fun hm => read_answers hr he hm, fun hm => ?_⟩, fun code hc => ?_⟩, fun r hh hk => ?_,
    fun hh => ?_⟩, fun s c r ht => ⟨fun hh hi hn hx hb => ⟨fun ho hk => ?_, fun ho hk hl => ?_⟩, fun hh hk => ?_, ?_⟩⟩
  · exact read_refused hr (serveRead_of_hidden hr.2.2 he hm)
  · exact read_refused hr (serveRead_of_error hr.2.2 hc)
  · refine ⟨_, exec_dictRead s c, ?_⟩
    rw [show dictionary 1 c s.sys = request c.target (reqOf 1 c) s.sys from rfl, request,
      if_neg (by rw [show (reqOf 1 c).who = c.who from rfl, hh]; decide), hk]
    exact (sendReply_answers ..).reply
  · rw [exec_dictRead, show dictionary 1 c s.sys = request c.target (reqOf 1 c) s.sys from rfl, request,
      if_pos (by rw [show (reqOf 1 c).who = c.who from rfl, hh]; rfl)]
  · have ha := dictionary_answers hh hk
    have hs : (serveOp (reqOf 5 c) s.sys).1 = _ := serveReadSegment_next (segmentOf_next ht hi hn hx hb (by simp [ho]))
    exact ⟨_, _, exec_readSegment s c, ha.replies_of hs s, ha.reply, by rw [hs]; rfl, by rw [hs]; rfl⟩
  · have ha := dictionary_answers hh hk
    have hs : serveOp (reqOf 6 c) s.sys = _ := serveWriteSegment_next (segmentOf_next ht hi hn hx hb (by simp [ho])) hl
    obtain ⟨hw, htag⟩ := sameWho_of_transferOf ht
    rw [hs] at ha
    exact ⟨_, _, exec_writeSegment s c, ha.replies_of rfl s,
      ha.transferOf.trans (transferOf_addTransfer (transferOf_endTransfer ..) hw htag), rfl, rfl⟩
  · have ha := dictionary_answers hh hk
    obtain ⟨hs, hend⟩ := serveAbort_ends (q := reqOf 7 c) ht
    exact ⟨_, exec_dictAbort s c, ha.replies_of hs s, ha.transferOf.trans hend⟩
  · rintro w rfl hu
    refine ⟨fun hi => ⟨_, exec_transferIdleTimeout s c.who c.tag, ?_⟩, fun hi => ?_⟩
    · exact transferTimeout_ends (q := reqOf 7 c) ⟨rfl, rfl⟩ ht hu hi
    · rw [exec_transferIdleTimeout,
        transferTimeout_of_busy (q := reqOf 7 c) (w := c.who) (tag := c.tag.toNat) ⟨rfl, rfl⟩ ht hi]
end Sys2Proof.Machine
end

section
/-!
SUPPORT. What plain writes and safety writes of the dictionary answer and leave (O56).
-/

namespace Sys2Proof.Machine

-- As in the tests: one proof at a time, so that the whole text keeps within the threads that the memory holds.
set_option Elab.async false

variable {s t : State} {x y : Module} {k : Nat} {q : DictReq}

/-! ### Pending safety writes (R520) -/

theorem pendingOf_congr {index sub : Nat} (h : y.mgmt.bus.safety = x.mgmt.bus.safety) :
    pendingOf y index sub = pendingOf x index sub := by
  rw [pendingOf, h, ← pendingOf]

theorem pendingOf_endPending (index sub : Nat) (x : Module) : pendingOf (endPending index sub x) index sub = none := by
  refine List.find?_eq_none.2 fun p hp => ?_
  have h := (List.mem_filter.1 hp).2
  cases hi : p.index == index <;> simp_all

theorem foldl_safety {α : Type} {f : Module → α → Module} (h : ∀ y a, (f y a).mgmt.bus.safety = y.mgmt.bus.safety) (l : List α)
    (x : Module) : (l.foldl f x).mgmt.bus.safety = x.mgmt.bus.safety :=
  List.foldlRecOn (motive := fun y : Module => y.mgmt.bus.safety = x.mgmt.bus.safety) l f rfl fun y hy a _ => (h y a).trans hy

theorem repeatN_safety {f : Nat → Module → Module} (h : ∀ n y, (f n y).mgmt.bus.safety = y.mgmt.bus.safety) (n : Nat) (x : Module) :
    (repeatN f n x).mgmt.bus.safety = x.mgmt.bus.safety :=
  repeatN_induct (P := fun y : Module => y.mgmt.bus.safety = x.mgmt.bus.safety) (fun m y hy => (h m y).trans hy) n rfl

@[simp] theorem note_safety (source kind key value : Nat) (x : Module) :
    (note source kind key value x).mgmt.bus.safety = x.mgmt.bus.safety := note_reads (fun m => m.bus.safety) ..

@[simp] theorem journalRequest_safety (w : Requester) (kind k : Nat) (bs : List Byte) (code : Nat) (x : Module) :
    (journalRequest w kind k bs code x).mgmt.bus.safety = x.mgmt.bus.safety := journalRequest_reads (fun m => m.bus.safety) ..

@[simp] theorem toState_safety (m : ModState) (x : Module) : (toState m x).mgmt.bus.safety = x.mgmt.bus.safety :=
  toState_reads (fun m => m.bus.safety) ..

@[simp] theorem dataOff_safety (x : Module) : (dataOff x).mgmt.bus.safety = x.mgmt.bus.safety :=
  dataOff_reads (fun m => m.bus.safety) x

@[simp] theorem setThrottle_safety (f : Throttles → Throttles) (x : Module) :
    (setThrottle f x).mgmt.bus.safety = x.mgmt.bus.safety := setThrottle_reads (fun m => m.bus.safety) f x

@[simp] theorem dclearBits_bus (k mask : Nat) (m : Mgmt) : (dclearBits k mask m).bus = m.bus := dset_bus ..

@[simp] theorem dsetBits_bus (k mask : Nat) (m : Mgmt) : (dsetBits k mask m).bus = m.bus := dset_bus ..

theorem Module.Answers.safety {r : DictReply} (h : Module.Answers r x y) : y.mgmt.bus.safety = x.mgmt.bus.safety :=
  h.reads fun m => m.bus.safety

/-! ### What the confirmed writes set going leaves the pending writes (R521) -/

theorem domainOff_safety (d : Nat) (x : Module) : (domainOff d x).mgmt.bus.safety = x.mgmt.bus.safety := by
  unfold domainOff
  dsimp only
  split
  case h_1 ix => rfl
  case h_5 n => split <;> rfl
  all_goals rfl

@[simp] theorem dataRegs_safety (c : Nat) (x : Module) : (dataRegs c x).mgmt.bus.safety = x.mgmt.bus.safety := by
  simp [dataRegs]

theorem joinChan_safety (c : Nat) (x : Module) : (joinChan c x).mgmt.bus.safety = x.mgmt.bus.safety := by
  unfold joinChan joinAt editChannel
  dsimp only
  split <;> simp

theorem serviceSwitched_safety (d : Nat) (on : Bool) (x : Module) :
    (serviceSwitched d on x).mgmt.bus.safety = x.mgmt.bus.safety := by
  unfold serviceSwitched
  split
  · split
    · exact repeatN_safety joinChan_safety 2 x
    · exact repeatN_safety (fun c y => by simp [editChannel]) 2 x
  · split <;> simp

theorem unforce_safety (x : Module) : (unforce x).mgmt.bus.safety = x.mgmt.bus.safety := by
  refine foldl_safety (fun y d => ?_) _ x
  split
  · rw [serviceSwitched_safety, domainOff_safety]
  · rfl

theorem serviceOrder_safety (v : Nat) (x : Module) : (serviceOrder v x).mgmt.bus.safety = x.mgmt.bus.safety := by
  unfold serviceOrder
  split <;> simp [unforce_safety]

theorem writePtpEnable_safety (v : Nat) (x : Module) : (writePtpEnable v x).mgmt.bus.safety = x.mgmt.bus.safety := by
  unfold writePtpEnable
  split
  · simp
  · split <;> simp

theorem restoreFactory_safety (x : Module) : (restoreFactory x).mgmt.bus.safety = x.mgmt.bus.safety := by
  rw [restoreFactory, writePtpEnable_safety]
  exact repeatN_safety dataRegs_safety 2 _

theorem blockThrottle_safety (x : Module) : (blockThrottle x).mgmt.bus.safety = x.mgmt.bus.safety := by
  unfold blockThrottle
  dsimp only
  split <;> split <;> simp

theorem blocksChanged_safety (x : Module) : (blocksChanged x).mgmt.bus.safety = x.mgmt.bus.safety := by
  unfold blocksChanged
  dsimp only
  split
  · simp [groupOneOff]
  · simp [blockThrottle_safety]

theorem restoreBlock_safety (n : Nat) (x : Module) : (restoreBlock n x).mgmt.bus.safety = x.mgmt.bus.safety := by
  unfold restoreBlock
  split
  · rfl
  · simp [blocksChanged_safety]

theorem maskSensor_safety (v : Nat) (x : Module) : (maskSensor v x).mgmt.bus.safety = x.mgmt.bus.safety := by
  unfold maskSensor
  dsimp only
  split
  · simp
  · split <;> simp

theorem clearValveFault_safety (c : Nat) (x : Module) : (clearValveFault c x).mgmt.bus.safety = x.mgmt.bus.safety := by
  unfold clearValveFault
  split
  · rfl
  · exact (syncValveThrottle_reads (fun m => m.bus.safety) _).trans (by simp [editChan, setByte])

theorem clearValveFaults_safety (mask : Nat) (x : Module) : (clearValveFaults mask x).mgmt.bus.safety = x.mgmt.bus.safety := by
  refine foldl_safety (fun y c => ?_) _ x
  split
  · simp [clearValveFault_safety]
  · rfl

theorem clearUnitFaults_safety (mask : Nat) (x : Module) : (clearUnitFaults mask x).mgmt.bus.safety = x.mgmt.bus.safety := by
  refine foldl_safety (fun y i => ?_) _ x
  dsimp only
  split
  · simp [editUnit]
  · rfl

theorem markTile_safety (ix : Nat) (bad : Bool) (x : Module) : (markTile ix bad x).mgmt.bus.safety = x.mgmt.bus.safety := by
  unfold markTile
  dsimp only
  split
  · rfl
  · simp [syncCapacity]

theorem enableRevert_safety (x : Module) : (enableRevert x).mgmt.bus.safety = x.mgmt.bus.safety := by
  unfold enableRevert oscTell
  split
  · simp
  · rw [oscEvent, raiseEvent_reads fun m => m.bus.safety]
    simp

theorem pairRestore_safety (v : Nat) (x : Module) : (pairRestore v x).mgmt.bus.safety = x.mgmt.bus.safety := by
  refine repeatN_safety (fun p y => ?_) 2 x
  split
  · exact setPair_reads (fun m => m.bus.safety) ..
  · rfl

theorem beginInlet_safety (x : Module) : (beginInlet x).mgmt.bus.safety = x.mgmt.bus.safety := by
  unfold beginInlet
  split
  · simp [beginStep]
  · rfl

theorem safeStopExit_safety (x : Module) : (safeStopExit x).mgmt.bus.safety = x.mgmt.bus.safety := by
  unfold safeStopExit
  dsimp only
  split
  · simp [endAlarm]
  · simp [beginInlet_safety, endAlarm]

theorem leakCutExit_safety (x : Module) : (leakCutExit x).mgmt.bus.safety = x.mgmt.bus.safety := by
  unfold leakCutExit
  simp [beginInlet_safety, endAlarm]

/-- Entries written in two steps (R519). -/
def twoSteps (k : Nat) : Bool := (entryOf k).any fun e => decide (e.acc = .rws)

theorem ne_of_twoSteps {c : Nat} (hk : twoSteps k = true) (hc : twoSteps c = false) : k ≠ c := by
  rintro rfl
  rw [hk] at hc
  exact Bool.noConfusion hc

theorem ite_safety (c : Prop) [Decidable c] {y z : Module} (hy : y.mgmt.bus.safety = x.mgmt.bus.safety)
    (hz : z.mgmt.bus.safety = x.mgmt.bus.safety) : (if c then y else z).mgmt.bus.safety = x.mgmt.bus.safety :=
  ite_reads (fun y => y.mgmt.bus.safety) c hy hz

theorem writeActs_safety (level v : Nat) (x : Module) (hk : twoSteps k = true) :
    (writeActs level k v x).mgmt.bus.safety = x.mgmt.bus.safety := by
  unfold writeActs
  rw [if_neg (ne_of_twoSteps hk (by decide)), if_neg (ne_of_twoSteps hk (by decide)), if_neg (ne_of_twoSteps hk (by decide)),
    if_neg (ne_of_twoSteps hk (by decide)), if_neg (ne_of_twoSteps hk (by decide)), if_neg (ne_of_twoSteps hk (by decide))]
  refine ite_safety _ (serviceOrder_safety v x) ?_
  rw [if_neg (ne_of_twoSteps hk (by decide)), if_neg (ne_of_twoSteps hk (by decide))]
  refine ite_safety _ (restoreFactory_safety x) (ite_safety _ (restoreBlock_safety v x) ?_)
  rw [if_neg (ne_of_twoSteps hk (by decide)), if_neg (ne_of_twoSteps hk (by decide)), if_neg (ne_of_twoSteps hk (by decide))]
  refine ite_safety _ (maskSensor_safety v x) (ite_safety _ (clearValveFaults_safety v x)
    (ite_safety _ (clearUnitFaults_safety v x) (ite_safety _ (markTile_safety v true x)
      (ite_safety _ (markTile_safety v false x) ?_))))
  rw [if_neg (ne_of_twoSteps hk (by decide))]
  exact ite_safety _ (ite_safety _ (enableRevert_safety x) rfl) (ite_safety _ (pairRestore_safety v x)
    (ite_safety _ (safeStopExit_safety x) (ite_safety _ (leakCutExit_safety x) rfl)))

theorem applyWrite_safety (w : Requester) (level v : Nat) (x : Module) (hk : twoSteps k = true) :
    (applyWrite w level k v x).mgmt.bus.safety = x.mgmt.bus.safety := by
  unfold applyWrite
  rw [if_neg (ne_of_twoSteps hk (by decide)), if_neg fun h => ne_of_twoSteps hk (by decide) h.1,
    if_neg (ne_of_twoSteps hk (by decide)), if_neg (ne_of_twoSteps hk (by decide)), if_neg (ne_of_twoSteps hk (by decide)),
    writeActs_safety _ _ _ hk]
  split
  · rfl
  · rw [setE_bus]

/-! ### What the checks of a request read (R506, R514) -/

theorem valueRefusal_endTransfer (k v : Nat) (q : DictReq) (x : Module) :
    valueRefusal (endTransfer q x) k v = valueRefusal x k v := rfl

theorem dset_withBus (k v : Nat) (m : Mgmt) (b : Bus) : dset k v { m with bus := b } = { dset k v m with bus := b } := by
  unfold dset
  rw [show dget { m with bus := b } k = dget m k from rfl]
  split
  · rfl
  · dsimp only
    split
    · split
      · rfl
      · split <;> rfl
    · rfl

theorem maskBlinds_endTransfer (v : Nat) (q : DictReq) (x : Module) : maskBlinds (endTransfer q x) v = maskBlinds x v := by
  unfold maskBlinds dsetBits
  dsimp only
  rw [show (endTransfer q x).mgmt = { x.mgmt with bus := (endTransfer q x).mgmt.bus } from rfl, dset_withBus]
  rfl

theorem safetyRefusal_endTransfer (k v : Nat) (q : DictReq) (x : Module) :
    safetyRefusal (endTransfer q x) k v = safetyRefusal x k v := by
  rw [safetyRefusal, maskBlinds_endTransfer, ← safetyRefusal]

theorem sillAgrees_endTransfer (index sub v : Nat) (challenge : W32) (complement : W64) (q : DictReq) (x : Module) :
    sillAgrees (endTransfer q x) index sub v challenge complement = sillAgrees x index sub v challenge complement := rfl

theorem entryOf_of_nameEntry {i n : Nat} {e : DEntry} (h : nameEntry i n = .ok e) (h0 : n ≠ 0) (hn : n < 256) :
    entryOf (i * 256 + n) = some e := by
  have hi : (i * 256 + n) / 256 = i := by omega
  have hs : (i * 256 + n) % 256 = n := by omega
  rw [entryOf, hi, hs]
  unfold nameEntry at h
  split at h
  · cases h
  · split at h
    case h_1 f hf =>
      cases h
      exact hf
    case h_2 => cases h

theorem lengthWrong_of_len {e : DEntry} (hn : nameEntry q.index q.sub = .ok e) (hl : e.len = q.length) : lengthWrong q = false := by
  unfold lengthWrong
  rw [hn]
  simp [hl]

theorem reqBytes_whole {n : Nat} (h : q.value.length = n) (hn : n ≤ 48) : reqBytes q n = q.value := by
  rw [reqBytes, Nat.min_eq_left hn, List.take_left' h]

/-- A value in one segment is judged at once. -/
theorem serveBegin_whole {e : DEntry} (hf : transfersFull (endTransfer q x) q = false) (hn : nameEntry q.index q.sub = .ok e)
    (hl : e.len = q.length) (h48 : e.len ≤ 48) (hs : q.segment = 0) (hv : q.value.length = e.len) :
    serveBegin q x = serveWhole q q.op q.value (endTransfer q x) := by
  unfold serveBegin
  rw [if_neg (by simp [hf]), if_neg (by simp [lengthWrong_of_len hn hl]), if_neg (by simp [hs]), if_pos (hl ▸ h48),
    reqBytes_whole (hv.trans hl) (hl ▸ h48)]

/-! ### Plain writes (R514 to R517) -/

section
variable {w : Requester} {i n v : Nat} {bs : List Byte} {e : DEntry}

theorem admission_of_ro (hn : nameEntry i n = .ok e) (ha : e.acc = .ro) : admission x w 2 i n v = .error 0x0203 := by
  unfold admission
  rw [hn]
  exact if_pos ⟨rfl, ha⟩

/-- An entry written by this op, which names something to clear if it is flag_clear: its level decides. -/
theorem admission_of_level {op : Nat} (hn : nameEntry i n = .ok e) (hro : op = 2 → e.acc ≠ .ro) (hst : (op = 2) ↔ (e.acc ≠ .rws))
    (hc : i * 256 + n = Ent.flagClear → stickyMask (clearTarget v) ≠ 0) :
    admission x w op i n v = if mayWrite (levelOf x w) (i * 256 + n) then .ok e else .error 0x0530 := by
  unfold admission
  rw [hn]
  dsimp only
  rw [if_neg fun h => hro h.1 h.2, if_neg, if_neg fun h => hc h.1 h.2]
  · cases mayWrite (levelOf x w) (i * 256 + n) <;> rfl
  · by_cases h : op = 2 <;> simp_all

theorem judgeWrite_of_error (h : admission x w 2 i n (leNat bs) = .error k) :
    judgeWrite w i n bs x = (k, journalRequest w 1 (i * 256 + n) bs k x) := by
  unfold judgeWrite
  dsimp only
  rw [h]

/-- The module in which an accepted plain write takes effect: it is journaled but for an entry that is written often. -/
def admitted (w : Requester) (k : Nat) (bs : List Byte) (e : DEntry) (x : Module) : Module :=
  if e.acc = .rw then x else journalRequest w 1 k bs 0 x

theorem judgeWrite_of_ok (h : admission x w 2 i n (leNat bs) = .ok e) (hv : valueRefusal x (i * 256 + n) (leNat bs) = 0) :
    judgeWrite w i n bs x =
      (0, applyWrite w (levelOf x w) (i * 256 + n) (leNat bs) (admitted w (i * 256 + n) bs e x)) := by
  unfold judgeWrite
  dsimp only
  rw [h]
  exact if_neg (fun hne => hne hv)

end

/-- Entries whose accepted value is stored and orders nothing. -/
def quietEntries : List Nat :=
  [Ent.startMode, Ent.coldInterval, Ent.turnInterval, Ent.orderDelay, Ent.dutyFloor, Ent.dtTarget, Ent.forecastEnable,
    Ent.autoRecover, Ent.eventChannel, Ent.gnomonBackup]

theorem applyWrite_quiet (hk : k ∈ quietEntries) (w : Requester) (level v : Nat) (x : Module) :
    applyWrite w level k v x = setE k v x := by
  simp only [quietEntries, List.mem_cons, List.not_mem_nil, or_false] at hk
  rcases hk with rfl | rfl | rfl | rfl | rfl | rfl | rfl | rfl | rfl | rfl <;> rfl

/-- Such an entry has a sub-index, and is written in one step. -/
theorem quiet_oneStep (hk : k ∈ quietEntries) {e : DEntry} (he : entryOf k = some e) : e.acc ≠ .ro ∧ e.acc ≠ .rws := by
  have hall : ∀ j ∈ quietEntries, (entryOf j).all (fun f => decide (f.acc ≠ .ro) && decide (f.acc ≠ .rws)) = true := by decide
  have h := hall k hk
  rw [he] at h
  simpa using h

theorem quiet_sub (hk : k ∈ quietEntries) : k % 256 ≠ 0 ∧ k ≠ Ent.flagClear := by
  revert k
  decide

/-! ### Safety writes (R519 to R522) -/

section
variable {w : Requester} {i n : Nat} {bs : List Byte} {e : DEntry}

/-- The module after an accepted first step: Sill's challenge is issued, and the value waits. -/
def firstStepped (w : Requester) (i n : Nat) (bs : List Byte) (x : Module) : Module :=
  let r := issueChallenge i n (journalRequest w 2 (i * 256 + n) bs 0 (endPending i n x))
  editBus (fun b => { b with safety := b.safety ++ [⟨w, i, n, leNat bs, bs.length, r.1, x.ts⟩] }) r.2

section
variable (ha : admission x w 3 i n (leNat bs) = .ok e) (hv : valueRefusal x (i * 256 + n) (leNat bs) = 0)
  (hp : pendingOf x i n = none) (hs : safetyRefusal x (i * 256 + n) (leNat bs) = 0)
include ha hv hp hs

theorem judgeFirst_of_answer (hl : sillAnswers x = true) : ∃ c : W32, judgeFirst w i n bs x =
    (0, natLe 4 c.toNat ++ natLe 8 (leNat bs) ++ natLe 4 2000, firstStepped w i n bs x) ∧
    (firstStepped w i n bs x).mgmt.bus.safety =
      (endPending i n x).mgmt.bus.safety ++ [⟨w, i, n, leNat bs, bs.length, c, x.ts⟩] ∧
    ∃ d ∈ (firstStepped w i n bs x).sill.challenges, d.index = i ∧ d.sub = n ∧ d.value = c := by
  refine ⟨_, ?_, rfl, _, List.mem_append_right _ (List.mem_singleton_self _), rfl, rfl, rfl⟩
  unfold judgeFirst
  dsimp only
  rw [ha]
  dsimp only
  rw [if_neg (fun h => h hv), hp, if_neg (by simp), if_neg (fun h => h hs), if_neg (by simp [hl])]
  rfl

theorem judgeFirst_of_silence (hl : sillAnswers x = false) :
    judgeFirst w i n bs x = (0x0603, [], journalRequest w 2 (i * 256 + n) bs 0x0603 x) := by
  unfold judgeFirst
  dsimp only
  rw [ha]
  dsimp only
  rw [if_neg (fun h => h hv), hp, if_neg (by simp), if_neg (fun h => h hs), if_pos (by simp [hl])]

end

section
variable {p : SafetyWrite} {challenge : W32} {complement : W64} (hp : pendingOf x i n = some p) (hw : sameWho p.who w = true)
  (ha : admission x w 4 i n p.value = .ok e) (hv : valueRefusal x (i * 256 + n) p.value = 0) (hin : inWindow x p.at_ = true)
include hp hw ha hv hin

theorem judgeConfirm_of_wrong (hc : challenge ≠ p.challenge ∨ complement ≠ ~~~(BitVec.ofNat 64 p.value)) :
    judgeConfirm w i n challenge complement x =
      (0x0601, journalRequest w 1 (i * 256 + n) (natLe p.len p.value) 0x0601 (endPending i n x)) := by
  unfold judgeConfirm
  dsimp only
  rw [hp, Option.filter_some, if_pos hw]
  dsimp only
  rw [ha]
  dsimp only
  rw [if_neg (fun h => h hv), if_neg (by simp [hin]), if_pos hc]

section
variable (hc : challenge = p.challenge) (hm : complement = ~~~(BitVec.ofNat 64 p.value))
  (hs : safetyRefusal x (i * 256 + n) p.value = 0)
include hc hm hs

theorem judgeConfirm_of_right : judgeConfirm w i n challenge complement x =
    if sillAgrees x i n p.value challenge complement then
      (0, applyWrite w (levelOf x w) (i * 256 + n) p.value (journalRequest w 1 (i * 256 + n) (natLe p.len p.value) 0
        (useChallenge i n (endPending i n x))))
    else (0x0603, journalRequest w 1 (i * 256 + n) (natLe p.len p.value) 0x0603 (useChallenge i n (endPending i n x))) := by
  unfold judgeConfirm
  dsimp only
  rw [hp, Option.filter_some, if_pos hw]
  dsimp only
  rw [ha]
  dsimp only
  rw [if_neg (fun h => h hv), if_neg (by simp [hin]), if_neg (by simp [hc, hm]), if_neg (fun h => h hs)]
  cases sillAgrees x i n p.value challenge complement <;> rfl

end

end

end

/-- A confirmation's bytes carry its challenge and complement. -/
theorem serveConfirm_of_bytes {e : DEntry} {challenge : W32} {complement : W64} (hf : transfersFull (endTransfer q x) q = false)
    (hn : nameEntry q.index q.sub = .ok e) (hl : e.len = q.length)
    (hb : q.value = natLe 4 challenge.toNat ++ natLe 8 complement.toNat) :
    serveConfirm q x = (replyTo q (judgeConfirm q.who q.index q.sub challenge complement (endTransfer q x)).1 q.length [],
      (judgeConfirm q.who q.index q.sub challenge complement (endTransfer q x)).2) := by
  have hbytes : reqBytes q 12 = natLe 4 challenge.toNat ++ natLe 8 complement.toNat :=
    (reqBytes_whole (by rw [hb, List.length_append, natLe_length, natLe_length]) (by decide)).trans hb
  have hch : BitVec.ofNat 32 (leNat ((reqBytes q 12).take 4)) = challenge := by
    rw [hbytes, List.take_left' (natLe_length ..), leNat_natLe, Nat.mod_eq_of_lt (show _ < 256 ^ 4 from challenge.isLt),
      BitVec.ofNat_toNat, BitVec.setWidth_eq]
  have hco : BitVec.ofNat 64 (leNat ((reqBytes q 12).drop 4)) = complement := by
    rw [hbytes, List.drop_left' (natLe_length ..), leNat_natLe, Nat.mod_eq_of_lt (show _ < 256 ^ 8 from complement.isLt),
      BitVec.ofNat_toNat, BitVec.setWidth_eq]
  unfold serveConfirm
  rw [if_neg (by simp [hf]), if_neg (by simp [lengthWrong_of_len hn hl])]
  dsimp only
  rw [hch, hco]

theorem journalRequest_data (w : Requester) (kind k : Nat) (bs : List Byte) (code : Nat) (x : Module) :
    (journalRequest w kind k bs code x).data = x.data := rfl

theorem journalRequest_dict (w : Requester) (kind k : Nat) (bs : List Byte) (code : Nat) (x : Module) :
    (journalRequest w kind k bs code x).mgmt.dict = x.mgmt.dict := rfl

/-! ### O56 -/

section
variable {c : DictCall} {e : DEntry} (hr : Reaches s c.target (reqOf 2 c)) (hn : nameEntry c.index.toNat c.sub.toNat = .ok e)
  (hl : e.len = c.total.toNat) (h48 : e.len ≤ 48) (hs : c.segment = 0) (hv : c.value.length = e.len)
include hr hn hl h48 hs hv

/-- A plain write in one segment is answered as it is judged. -/
theorem write_answers : Module.Answers
    (replyTo (reqOf 2 c) (judgeWrite c.who c.index.toNat c.sub.toNat c.value (endTransfer (reqOf 2 c) s.sys)).1 c.value.length [])
    (judgeWrite c.who c.index.toNat c.sub.toNat c.value (endTransfer (reqOf 2 c) s.sys)).2 (dictionary 2 c s.sys) := by
  obtain ⟨hh, hk, hf⟩ := hr
  have hserve : serveOp (reqOf 2 c) s.sys = _ :=
    serveBegin_whole (q := reqOf 2 c) hf hn hl h48 (congrArg BitVec.toNat hs) hv
  have ha := dictionary_answers hh hk
  rwa [hserve] at ha

theorem write_refused {code : Nat}
    (ha : admission (endTransfer (reqOf 2 c) s.sys) c.who 2 c.index.toNat c.sub.toNat (leNat c.value) = .error code) :
    ∃ t, exec (.dictWrite c) s = .next t ∧ Replies t (reqOf 2 c) code ∧
      getE t.sys (c.index.toNat * 256 + c.sub.toNat) = getE s.sys (c.index.toNat * 256 + c.sub.toNat) ∧
      t.sys.mgmt.jNext = seqAfter s.sys.mgmt.jNext := by
  have h := write_answers hr hn hl h48 hs hv
  rw [judgeWrite_of_error ha] at h
  exact ⟨_, exec_dictWrite s c, ⟨_, h.reply, rfl, rfl, rfl, rfl, rfl⟩, h.getE, h.reads Mgmt.jNext⟩

theorem write_stored (hq : c.index.toNat * 256 + c.sub.toNat ∈ quietEntries)
    (hm : mayWrite (levelOf s.sys c.who) (c.index.toNat * 256 + c.sub.toNat) = true)
    (hval : valueRefusal s.sys (c.index.toNat * 256 + c.sub.toNat) (leNat c.value) = 0) :
    ∃ t, exec (.dictWrite c) s = .next t ∧ Replies t (reqOf 2 c) 0 ∧
      getE t.sys (c.index.toNat * 256 + c.sub.toNat) = leNat c.value := by
  have hsub := c.sub.isLt
  obtain ⟨h0, hflag⟩ := quiet_sub hq
  obtain ⟨hro, hrws⟩ := quiet_oneStep hq (entryOf_of_nameEntry hn (by omega) hsub)
  have ha := admission_of_level (x := endTransfer (reqOf 2 c) s.sys) (w := c.who) (v := leNat c.value) hn (fun _ => hro)
    (iff_of_true rfl hrws) (fun h => absurd h hflag)
  rw [levelOf_endTransfer, if_pos hm] at ha
  have h := write_answers hr hn hl h48 hs hv
  rw [judgeWrite_of_ok ha hval, applyWrite_quiet hq] at h
  exact ⟨_, exec_dictWrite s c, ⟨_, h.reply, rfl, rfl, rfl, rfl, rfl⟩, h.getE.trans (getE_setE_self ..)⟩

end

section
variable {c : DictCall} {e : DEntry} (he : entryOf (c.index.toNat * 256 + c.sub.toNat) = some e) (hacc : e.acc = .rws)
  (hn : nameEntry c.index.toNat c.sub.toNat = .ok e) (hl : e.len = c.total.toNat)
  (hm : mayWrite (levelOf s.sys c.who) (c.index.toNat * 256 + c.sub.toNat) = true)
include he hacc hn hl hm

omit hl in
theorem admission_of_twoSteps {op v : Nat} (hop : op ≠ 2) (q : DictReq) :
    admission (endTransfer q s.sys) c.who op c.index.toNat c.sub.toNat v = .ok e := by
  have hflag : c.index.toNat * 256 + c.sub.toNat ≠ Ent.flagClear :=
    ne_of_twoSteps (by rw [twoSteps, he, Option.any_some, hacc]; rfl) (by decide)
  rw [admission_of_level hn (fun h => absurd h hop) (iff_of_false hop fun h => h hacc) (fun h => absurd h hflag),
    levelOf_endTransfer, if_pos hm]

section
variable (h48 : e.len ≤ 48) (hr : Reaches s c.target (reqOf 3 c)) (hs : c.segment = 0) (hv : c.value.length = e.len)
  (hp : pendingOf s.sys c.index.toNat c.sub.toNat = none)
  (hval : valueRefusal s.sys (c.index.toNat * 256 + c.sub.toNat) (leNat c.value) = 0)
  (hsafe : safetyRefusal s.sys (c.index.toNat * 256 + c.sub.toNat) (leNat c.value) = 0)
include h48 hr hs hv

omit he hacc hm in
/-- A first step in one segment is answered as it is judged. -/
theorem first_answers : Module.Answers
    (replyTo (reqOf 3 c) (judgeFirst c.who c.index.toNat c.sub.toNat c.value (endTransfer (reqOf 3 c) s.sys)).1 c.value.length
      (judgeFirst c.who c.index.toNat c.sub.toNat c.value (endTransfer (reqOf 3 c) s.sys)).2.1)
    (judgeFirst c.who c.index.toNat c.sub.toNat c.value (endTransfer (reqOf 3 c) s.sys)).2.2 (dictionary 3 c s.sys) := by
  obtain ⟨hh, hk, hf⟩ := hr
  have hserve : serveOp (reqOf 3 c) s.sys = _ :=
    serveBegin_whole (q := reqOf 3 c) hf hn hl h48 (congrArg BitVec.toNat hs) hv
  have ha := dictionary_answers hh hk
  rwa [hserve] at ha

include hp hval hsafe

theorem first_challenged (hsill : sillAnswers s.sys = true) :
    ∃ t p y, exec (.safetyFirstStep c) s = .next t ∧ Replies t (reqOf 3 c) 0 ∧
      pendingOf t.sys c.index.toNat c.sub.toNat = some p ∧ p.value = leNat c.value ∧ p.at_ = s.sys.ts ∧
      t.sys.mgmt.bus.reply = some y ∧
      y.value = natLe 4 p.challenge.toNat ++ natLe 8 (leNat c.value) ++ natLe 4 2000 ∧
      ∃ d ∈ t.sys.sill.challenges, d.index = c.index.toNat ∧ d.sub = c.sub.toNat ∧ d.value = p.challenge := by
  have h := first_answers hn hl h48 hr hs hv
  obtain ⟨ch, hj, hwaits, d, hd, hdi, hds, hdv⟩ := judgeFirst_of_answer (x := endTransfer (reqOf 3 c) s.sys)
    (admission_of_twoSteps he hacc hn hm (by decide) _) hval hp ((safetyRefusal_endTransfer ..).trans hsafe) hsill
  rw [hj] at h
  refine ⟨_, ⟨c.who, c.index.toNat, c.sub.toNat, leNat c.value, c.value.length, ch, s.sys.ts⟩, _, exec_safetyFirstStep s c,
    ⟨_, h.reply, rfl, rfl, rfl, rfl, rfl⟩, ?_, rfl, rfl, h.reply, rfl, d, ?_, hdi, hds, hdv⟩
  · have hnone := pendingOf_endPending c.index.toNat c.sub.toNat (endTransfer (reqOf 3 c) s.sys)
    rw [pendingOf] at hnone ⊢
    rw [h.safety, hwaits, List.find?_append, hnone, Option.none_or, List.find?_cons_of_pos (by simp)]
    rfl
  · rw [h.sill]
    exact hd

theorem first_unanswered (hsill : sillAnswers s.sys = false) :
    ∃ t, exec (.safetyFirstStep c) s = .next t ∧ Replies t (reqOf 3 c) 0x0603 ∧
      pendingOf t.sys c.index.toNat c.sub.toNat = none := by
  have h := first_answers hn hl h48 hr hs hv
  rw [judgeFirst_of_silence (admission_of_twoSteps he hacc hn hm (by decide) _) hval hp
    ((safetyRefusal_endTransfer ..).trans hsafe) hsill] at h
  exact ⟨_, exec_safetyFirstStep s c, ⟨_, h.reply, rfl, rfl, rfl, rfl, rfl⟩,
    (pendingOf_congr (h.safety.trans (journalRequest_safety ..))).trans hp⟩

end

section
variable {p : SafetyWrite} {challenge : W32} {complement : W64} (hr : Reaches s c.target (reqOf 4 c))
  (hb : c.value = natLe 4 challenge.toNat ++ natLe 8 complement.toNat)
  (hp : pendingOf s.sys c.index.toNat c.sub.toNat = some p) (hw : sameWho p.who c.who = true) (hin : inWindow s.sys p.at_ = true)
  (hval : valueRefusal s.sys (c.index.toNat * 256 + c.sub.toNat) p.value = 0)
include hr hb

omit he hacc hm in
/-- A confirmation is answered as it is judged. -/
theorem confirm_answers : Module.Answers
    (replyTo (reqOf 4 c) (judgeConfirm c.who c.index.toNat c.sub.toNat challenge complement (endTransfer (reqOf 4 c) s.sys)).1
      c.total.toNat [])
    (judgeConfirm c.who c.index.toNat c.sub.toNat challenge complement (endTransfer (reqOf 4 c) s.sys)).2
    (dictionary 4 c s.sys) := by
  obtain ⟨hh, hk, hf⟩ := hr
  have hserve : serveOp (reqOf 4 c) s.sys = _ := serveConfirm_of_bytes (q := reqOf 4 c) hf hn hl hb
  have ha := dictionary_answers hh hk
  rwa [hserve] at ha

include hp hw hin hval

theorem confirm_wrong (hc : challenge ≠ p.challenge ∨ complement ≠ ~~~(BitVec.ofNat 64 p.value)) :
    ∃ t, exec (.safetyConfirm c) s = .next t ∧ Replies t (reqOf 4 c) 0x0601 ∧
      pendingOf t.sys c.index.toNat c.sub.toNat = none ∧ t.sys.data = s.sys.data ∧ t.sys.mgmt.dict = s.sys.mgmt.dict := by
  have h := confirm_answers hn hl hr hb
  rw [judgeConfirm_of_wrong (x := endTransfer (reqOf 4 c) s.sys) hp hw
    (admission_of_twoSteps he hacc hn hm (by decide) _) hval hin hc] at h
  exact ⟨_, exec_safetyConfirm s c, ⟨_, h.reply, rfl, rfl, rfl, rfl, rfl⟩,
    (pendingOf_congr (h.safety.trans (journalRequest_safety ..))).trans (pendingOf_endPending ..),
    h.data.trans (journalRequest_data ..), (h.reads Mgmt.dict).trans (journalRequest_dict ..)⟩

variable (hc : challenge = p.challenge) (hco : complement = ~~~(BitVec.ofNat 64 p.value))
  (hsafe : safetyRefusal s.sys (c.index.toNat * 256 + c.sub.toNat) p.value = 0)
include hc hco hsafe

theorem confirm_agreed (hsill : sillAgrees s.sys c.index.toNat c.sub.toNat p.value challenge complement = true) :
    ∃ t, exec (.safetyConfirm c) s = .next t ∧ Replies t (reqOf 4 c) 0 ∧
      pendingOf t.sys c.index.toNat c.sub.toNat = none := by
  have h := confirm_answers hn hl hr hb
  rw [judgeConfirm_of_right (x := endTransfer (reqOf 4 c) s.sys) hp hw
    (admission_of_twoSteps he hacc hn hm (by decide) _) hval hin hc hco
    ((safetyRefusal_endTransfer ..).trans hsafe), sillAgrees_endTransfer, if_pos hsill] at h
  refine ⟨_, exec_safetyConfirm s c, ⟨_, h.reply, rfl, rfl, rfl, rfl, rfl⟩, (pendingOf_congr ?_).trans
    (pendingOf_endPending c.index.toNat c.sub.toNat (endTransfer (reqOf 4 c) s.sys))⟩
  rw [h.safety, applyWrite_safety _ _ _ _ (by rw [twoSteps, he, Option.any_some, hacc]; rfl), journalRequest_safety]
  rfl

theorem confirm_unagreed (hsill : sillAgrees s.sys c.index.toNat c.sub.toNat p.value challenge complement = false) :
    ∃ t, exec (.safetyConfirm c) s = .next t ∧ Replies t (reqOf 4 c) 0x0603 ∧
      t.sys.data = s.sys.data ∧ t.sys.mgmt.dict = s.sys.mgmt.dict := by
  have h := confirm_answers hn hl hr hb
  rw [judgeConfirm_of_right (x := endTransfer (reqOf 4 c) s.sys) hp hw
    (admission_of_twoSteps he hacc hn hm (by decide) _) hval hin hc hco
    ((safetyRefusal_endTransfer ..).trans hsafe), sillAgrees_endTransfer, if_neg (by simp [hsill])] at h
  exact ⟨_, exec_safetyConfirm s c, ⟨_, h.reply, rfl, rfl, rfl, rfl, rfl⟩,
    h.data.trans (journalRequest_data ..), (h.reads Mgmt.dict).trans (journalRequest_dict ..)⟩

end

end

theorem window_expires {index : BitVec 16} {sub : Byte} {p : SafetyWrite} (hp : pendingOf s.sys index.toNat sub.toNat = some p) :
    (inWindow s.sys p.at_ = false → ∃ t, exec (.safetyWindowExpire index sub) s = .next t ∧
      pendingOf t.sys index.toNat sub.toNat = none) ∧
    (inWindow s.sys p.at_ = true → exec (.safetyWindowExpire index sub) s = .next s) := by
  refine ⟨fun hin => ⟨_, exec_safetyWindowExpire s index sub, ?_⟩, fun hin => ?_⟩
  · rw [safetyExpire, hp, if_pos (by simp [hin])]
    exact pendingOf_endPending ..
  · rw [exec_safetyWindowExpire, safetyExpire, hp, if_neg (by simp [hin])]

/-- Settles O56: the checks of `admission` and of the value decide each request, and `Module.Answers` says what its answer
leaves. -/
theorem writesAreJudgedInOneStepOrTwo : Obligations.WritesAreJudgedInOneStepOrTwo := by
  unfold Obligations.WritesAreJudgedInOneStepOrTwo
  refine ⟨fun s c e hr hn hl h48 hs hv => ⟨fun hro => ?_, fun hro hrws hflag hm => ?_, fun hq hm hval => ?_⟩,
    fun s c e he hacc hn hl h48 hm => ⟨fun hr hs hv hp hval hsafe => ⟨fun hsill => ?_, fun hsill => ?_⟩,
      fun p challenge complement hr hb hp hw hin hval => ⟨fun hc => ?_, fun hc hco hsafe => ⟨fun hsill => ?_, fun hsill => ?_⟩⟩,
      fun p hp => window_expires hp⟩⟩
  · exact write_refused hr hn hl h48 hs hv (admission_of_ro hn hro)
  · refine write_refused hr hn hl h48 hs hv ?_
    rw [admission_of_level hn (fun _ => hro) (iff_of_true rfl hrws) (fun h => absurd h hflag), levelOf_endTransfer,
      if_neg (fun h => Bool.noConfusion (hm.symm.trans h))]
  · exact write_stored hr hn hl h48 hs hv hq hm hval
  · exact first_challenged he hacc hn hl hm h48 hr hs hv hp hval hsafe hsill
  · exact first_unanswered he hacc hn hl hm h48 hr hs hv hp hval hsafe hsill
  · exact confirm_wrong he hacc hn hl hm hr hb hp hw hin hval hc
  · exact confirm_agreed he hacc hn hl hm hr hb hp hw hin hval hc hco hsafe hsill
  · exact confirm_unagreed he hacc hn hl hm hr hb hp hw hin hval hc hco hsafe hsill
end Sys2Proof.Machine
end

section
/-!
SUPPORT. What accepted writes of the dictionary find, and what they leave (O57).
-/

namespace Sys2Proof.Machine

-- As in the tests: one proof at a time, so that the whole text keeps within the threads that the memory holds.
set_option Elab.async false

variable {s t : State} {x y z : Module} {k : Nat} {q : DictReq}

/-! ### The module a judged write finds (R500, R508, R520) -/

/-- The management plane without the journal, the transfers and the pending safety writes. -/
def Mgmt.asked (m : Mgmt) : Mgmt :=
  { m with journal := [], jNext := 0, jHeld := 0, bus := { m.bus with transfers := [], safety := [] } }

/-- Sill without its copy of the journal and its challenges. -/
def Sill.asked (l : Sill) : Sill := { l with copy := [], challenges := [] }

/-- `y` is `x` after a request was judged: the journal, transfers, pending writes and challenges alone may differ. -/
structure Module.Judged (x y : Module) : Prop where
  data : y.data = x.data
  ts : y.ts = x.ts
  sf : y.sf = x.sf
  mgmt : y.mgmt.asked = x.mgmt.asked
  sill : y.sill.asked = x.sill.asked

theorem Module.Judged.trans (h : x.Judged y) (g : y.Judged z) : x.Judged z :=
  ⟨g.data.trans h.data, g.ts.trans h.ts, g.sf.trans h.sf, g.mgmt.trans h.mgmt, g.sill.trans h.sill⟩

theorem endTransfer_judged (q : DictReq) (x : Module) : x.Judged (endTransfer q x) := ⟨rfl, rfl, rfl, rfl, rfl⟩

theorem endPending_judged (index sub : Nat) (x : Module) : x.Judged (endPending index sub x) := ⟨rfl, rfl, rfl, rfl, rfl⟩

theorem useChallenge_judged (index sub : Nat) (x : Module) : x.Judged (useChallenge index sub x) := ⟨rfl, rfl, rfl, rfl, rfl⟩

theorem journalRequest_judged (w : Requester) (kind k : Nat) (bs : List Byte) (code : Nat) (x : Module) :
    x.Judged (journalRequest w kind k bs code x) := by
  refine ⟨rfl, rfl, rfl, rfl, ?_⟩
  unfold journalRequest commitOrder commitEnt
  dsimp only
  split <;> rfl

/-- A reader of the management plane that looks at nothing a judgement changes. -/
def AskFree {α : Type} (rd : Mgmt → α) : Prop := ∀ m, rd m.asked = rd m

theorem Module.Judged.reads {α : Type} (h : x.Judged y) (rd : Mgmt → α) (hrd : AskFree rd := by intro _; rfl) :
    rd y.mgmt = rd x.mgmt := by
  rw [← hrd y.mgmt, h.mgmt, hrd]

theorem Module.Judged.getE (h : x.Judged y) : Machine.getE y k = Machine.getE x k := h.reads fun m => dget m k

theorem Module.Judged.busOf (h : x.Judged y) (n : Nat) : Machine.busOf y n = Machine.busOf x n :=
  busOf_congr (h.reads fun m => m.bus.chans) n

/-- An entry written in one step, by its sub-index. -/
def oneStep (k : Nat) : Bool :=
  decide (k % 256 ≠ 0) && (entryOf k).all fun e => decide (e.acc ≠ .ro) && decide (e.acc ≠ .rws)

theorem nameEntry_of_entryOf {e : DEntry} (he : entryOf k = some e) (hk : k % 256 ≠ 0) : nameEntry (k / 256) (k % 256) = .ok e := by
  have hat : entryAt (k / 256) (k % 256) = some e := he
  have hidx : indexHolds (k / 256) = true := by
    have hfound := List.find?_some hat
    simp only [Bool.and_eq_true] at hfound
    exact List.any_eq_true.2 ⟨e, List.mem_of_find?_eq_some hat, hfound.1.1⟩
  unfold nameEntry
  rw [if_neg (by simp [hidx]), if_neg hk, hat]

section
variable {target : Fin 32} {who : Requester} {tag : BitVec 16} {bs : List Byte}

theorem serveWhole_write {c : Nat} (h : judgeWrite q.who q.index q.sub bs x = (c, y)) :
    serveWhole q 2 bs x = (replyTo q c bs.length [], y) := by
  unfold serveWhole
  rw [if_neg (by decide), h]

theorem admitted_judged (w : Requester) (k : Nat) (bs : List Byte) (e : DEntry) (q : DictReq) (x : Module) :
    x.Judged (admitted w k bs e (endTransfer q x)) := by
  unfold admitted
  split
  · exact endTransfer_judged ..
  · exact (endTransfer_judged ..).trans (journalRequest_judged ..)

/-- A whole write that reaches Skour with its entry's length is judged, and its answer kept and sent. -/
theorem wholeWrite_of_reaches {e : DEntry} (hr : Reaches s target (wholeReq who tag k bs))
    (hn : nameEntry (k / 256) (k % 256) = .ok e) (hl : e.len = bs.length) :
    wholeWrite target who tag.toNat k bs s.sys =
      sendReply who.chan (serveWhole (wholeReq who tag k bs) 2 bs (endTransfer (wholeReq who tag k bs) s.sys)).1
        (keepAnswer (wholeReq who tag k bs) (serveWhole (wholeReq who tag k bs) 2 bs (endTransfer (wholeReq who tag k bs) s.sys)).1
          (serveWhole (wholeReq who tag k bs) 2 bs (endTransfer (wholeReq who tag k bs) s.sys)).2) := by
  obtain ⟨hh, hkept, hf⟩ := hr
  have hheard : requestHeard target who s.sys = true := hh
  unfold wholeWrite
  dsimp only
  rw [← wholeReq, hkept]
  dsimp only
  rw [if_neg (by simp [hheard]), if_neg (by simp [hf]),
    if_neg (by rw [lengthWrong_of_len (q := wholeReq who tag k bs) hn hl]; simp)]

/-- An accepted write of an entry written in one step takes effect, and its answer leaves. -/
theorem accepted_answers (h : WriteAccepted s target who tag k bs) (hk : oneStep k = true)
    (hc : k = Ent.flagClear → stickyMask (clearTarget (leNat bs)) ≠ 0) :
    ∃ r x, s.sys.Judged x ∧
      Module.Answers r (applyWrite who (levelOf s.sys who) k (leNat bs) x) (wholeWrite target who tag.toNat k bs s.sys) := by
  obtain ⟨⟨hh, hkept, hf⟩, ⟨e, he, hlen⟩, hm, hval⟩ := h
  rw [oneStep, Bool.and_eq_true, he, Option.all_some, Bool.and_eq_true] at hk
  obtain ⟨hsub, hro, hrws⟩ := hk
  have hn := nameEntry_of_entryOf he (of_decide_eq_true hsub)
  have hkey : k / 256 * 256 + k % 256 = k := Nat.div_add_mod' k 256
  have hadm : admission (endTransfer (wholeReq who tag k bs) s.sys) who 2 (k / 256) (k % 256) (leNat bs) = .ok e := by
    rw [admission_of_level hn (fun _ => of_decide_eq_true hro) (iff_of_true rfl (of_decide_eq_true hrws)) (by rw [hkey]; exact hc),
      levelOf_endTransfer, hkey, if_pos hm]
  have hjudge := judgeWrite_of_ok hadm (by rw [hkey]; exact hval)
  rw [hkey] at hjudge
  have hserve : serveWhole (wholeReq who tag k bs) 2 bs (endTransfer (wholeReq who tag k bs) s.sys) =
      (replyTo (wholeReq who tag k bs) 0 bs.length [], applyWrite who (levelOf s.sys who) k (leNat bs)
        (admitted who k bs e (endTransfer (wholeReq who tag k bs) s.sys))) := serveWhole_write hjudge
  refine ⟨replyTo (wholeReq who tag k bs) 0 bs.length [], _, admitted_judged who k bs e (wholeReq who tag k bs) _, ?_⟩
  rw [wholeWrite_of_reaches ⟨hh, hkept, hf⟩ hn hlen, hserve]
  exact keepAnswer_answers (wholeReq who tag k bs) _ _

end


/-! ### Flags (R509, R496) -/

theorem getE_forgetCollisions {c : Nat} (x : Module) (h : k ≠ Ent.collisions + c) : getE (forgetCollisions c x) k = getE x k :=
  getE_setE_of_ne _ _ h

/-- An accepted flag_clear clears the sticky bits it names of its entry. -/
theorem testBit_clearFlags {v : Nat} (x : Module) (h : clearTarget v ≠ Ent.sillState) (i : Nat) :
    (getE (clearFlags v x) (clearTarget v)).testBit i =
      ((getE x (clearTarget v)).testBit i && !(clearBits v).testBit i) := by
  have hclear : (getE (onMgmt (dclearBits (clearTarget v) (clearBits v)) x) (clearTarget v)).testBit i =
      ((getE x (clearTarget v)).testBit i && !(clearBits v).testBit i) := by
    rw [getE, onMgmt_mgmt, dclearBits, dget_dset_self, testBit_sub_and, getE]
  unfold clearFlags
  dsimp only
  rw [if_neg h]
  split
  case isTrue hchan =>
    rw [getE_forgetCollisions]
    · exact hclear
    · unfold Ent.chanFlags Ent.collisions at *
      omega
  case isFalse => exact hclear

/-- The value of a flag_clear: the entry, its group and the mask. -/
theorem leNat_flagClear (index : BitVec 16) (sub group : Byte) (mask : W64) :
    leNat (natLe 2 index.toNat ++ natLe 1 sub.toNat ++ natLe 1 group.toNat ++ natLe 8 mask.toNat) =
      index.toNat + 2 ^ 16 * sub.toNat + 2 ^ 24 * group.toNat + 2 ^ 32 * mask.toNat := by
  have hi := index.isLt
  have hs := sub.isLt
  have hg := group.isLt
  have hm := mask.isLt
  simp only [leNat_append, leNat_natLe, List.length_append, natLe_length]
  omega

theorem clearTarget_flagClear (index : BitVec 16) (sub group : Byte) (mask : W64) :
    clearTarget (leNat (natLe 2 index.toNat ++ natLe 1 sub.toNat ++ natLe 1 group.toNat ++ natLe 8 mask.toNat)) =
      index.toNat * 256 + sub.toNat := by
  have hi := index.isLt
  have hs := sub.isLt
  rw [leNat_flagClear, clearTarget, bits, bits]
  omega

theorem clearBits_flagClear (index : BitVec 16) (sub group : Byte) (mask : W64) :
    clearBits (leNat (natLe 2 index.toNat ++ natLe 1 sub.toNat ++ natLe 1 group.toNat ++ natLe 8 mask.toNat)) =
      (mask.toNat * 2 ^ (64 * group.toNat)) &&& stickyMask (index.toNat * 256 + sub.toNat) := by
  have hi := index.isLt
  have hs := sub.isLt
  have hg := group.isLt
  have hm := mask.isLt
  have hgroup : clearGroup (leNat (natLe 2 index.toNat ++ natLe 1 sub.toNat ++ natLe 1 group.toNat ++ natLe 8 mask.toNat)) =
      group.toNat := by
    rw [leNat_flagClear, clearGroup, bits]
    omega
  have hmask : clearMask (leNat (natLe 2 index.toNat ++ natLe 1 sub.toNat ++ natLe 1 group.toNat ++ natLe 8 mask.toNat)) =
      mask.toNat := by
    rw [leNat_flagClear, clearMask, bits]
    omega
  rw [clearBits, hgroup, hmask, clearTarget_flagClear]

/-! ### Channels (R493, R497) -/

theorem joinChan_of_auto {c : Nat} (h : getE x Ent.rateMode = 0) : joinChan c x =
    editChannel c (fun b => { b with st := .detecting, dwell := 0, dwells := 0, edges := false })
      (onMgmt (dclearBits (Ent.chanFlags + c) 0x14) x) := by
  unfold joinChan
  dsimp only
  rw [h]
  rfl

/-- A restart of channel `c` that a value names. -/
def restartStep (v c : Nat) (x : Module) : Module := if v.testBit c ∧ (busOf x c).st ≠ .off then joinChan c x else x

theorem restartChannels_eq (v : Nat) (x : Module) : restartChannels v x = restartStep v 1 (restartStep v 0 x) := rfl

section
variable {c : Nat} (hc : c < 2) (h : getE x Ent.rateMode = 0) (v : Nat)
include hc h

theorem restartStep_rateMode : getE (restartStep v c x) Ent.rateMode = 0 := by
  unfold restartStep
  split
  · rw [joinChan_of_auto h, getE_editChannel, getE_dclearBits _ _ (chanEntry_ne_single hc).symm, h]
  · exact h

omit hc in
theorem restartStep_other {n : Nat} (hn : n ≠ c) : busOf (restartStep v c x) n = busOf x n := by
  unfold restartStep
  split
  · rw [joinChan_of_auto h, busOf_editChannel_of_ne _ _ hn, busOf_dclearBits]
  · rfl

omit hc in
theorem restartStep_detects (hv : v.testBit c = true) (hst : (busOf x c).st ≠ .off) :
    (busOf (restartStep v c x) c).st = .detecting := by
  rw [restartStep, if_pos ⟨hv, hst⟩, joinChan_of_auto h, busOf_editChannel_self]

end

theorem restartChannels_detects {v : Nat} {c : Fin 2} (hv : v.testBit c = true) (hst : (busOf x c).st ≠ .off)
    (h : getE x Ent.rateMode = 0) : (busOf (restartChannels v x) c).st = .detecting := by
  have h0 := restartStep_rateMode (c := 0) (by decide) h v
  rw [restartChannels_eq]
  match c with
  | 0 =>
    rw [restartStep_other h0 v (by decide)]
    exact restartStep_detects h v hv hst
  | 1 => exact restartStep_detects h0 v hv (by rwa [restartStep_other h v (by decide)])

/-- The clearing of channel `c`'s collisions. -/
def clearStep (c : Nat) (x : Module) : Module :=
  editChannel c (fun b => { b with st := if b.st = .listen ∧ ownAddress x ≠ 0 then .active else b.st })
    (forgetCollisions c (onMgmt (dclearBits (Ent.chanFlags + c) 8) x))

theorem clearCollisions_eq (x : Module) : clearCollisions x = clearStep 1 (clearStep 0 x) := rfl

/-- The collision count and flag of a channel. -/
def collisionView (x : Module) (c : Nat) : Nat × Bool := ((busOf x c).collisions, dbit x.mgmt (Ent.chanFlags + c) 3)

theorem getE_clearStep {c : Nat} (x : Module) (hf : k ≠ Ent.chanFlags + c) (hc : k ≠ Ent.collisions + c) :
    getE (clearStep c x) k = getE x k := by
  rw [clearStep, getE_editChannel, getE_forgetCollisions _ hc, getE_dclearBits _ _ hf]

theorem clearStep_clears {c : Nat} (x : Module) : collisionView (clearStep c x) c = (0, false) := by
  have hflag : dbit (clearStep c x).mgmt (Ent.chanFlags + c) 3 = false := by
    have hne : Ent.chanFlags + c ≠ Ent.collisions + c := by
      unfold Ent.chanFlags Ent.collisions
      omega
    have hent : getE (clearStep c x) (Ent.chanFlags + c) =
        getE (onMgmt (dclearBits (Ent.chanFlags + c) 8) x) (Ent.chanFlags + c) := by
      rw [clearStep, getE_editChannel, getE_forgetCollisions _ hne]
    exact (dbit_eq _ _ hent 3).trans (dbit_dclearBits (mask := 8) _ (by decide))
  have hcount : (busOf (clearStep c x) c).collisions = 0 := by
    rw [clearStep, busOf_editChannel_self]
    dsimp only
    rw [forgetCollisions, busOf_setE, busOf_editChannel_self]
  rw [collisionView, hflag, hcount]

theorem clearStep_other {c n : Nat} (x : Module) (hc : c < 2) (hn : n < 2) (h : n ≠ c) :
    collisionView (clearStep c x) n = collisionView x n := by
  have hflag : dbit (clearStep c x).mgmt (Ent.chanFlags + n) 3 = dbit x.mgmt (Ent.chanFlags + n) 3 :=
    dbit_eq _ _ (getE_clearStep x (by omega) (chanEntry_ne hn hc)) 3
  rw [collisionView, hflag, clearStep, busOf_editChannel_of_ne _ _ h, forgetCollisions, busOf_setE,
    busOf_editChannel_of_ne _ _ h, busOf_dclearBits, ← collisionView]

theorem clearCollisions_clears (c : Fin 2) (x : Module) : collisionView (clearCollisions x) c = (0, false) := by
  rw [clearCollisions_eq]
  match c with
  | 0 => exact (clearStep_other _ (by decide) (by decide) (by decide)).trans (clearStep_clears x)
  | 1 => exact clearStep_clears _

theorem getE_clearCollisions (x : Module) (hf : k / 256 ≠ Ent.chanFlags / 256) (hc : k / 256 ≠ Ent.collisions / 256) :
    getE (clearCollisions x) k = getE x k := by
  unfold Ent.chanFlags at hf
  unfold Ent.collisions at hc
  have h (c : Nat) (hc : c < 2) : k ≠ Ent.chanFlags + c ∧ k ≠ Ent.collisions + c := by
    unfold Ent.chanFlags Ent.collisions
    omega
  obtain ⟨hf0, hc0⟩ := h 0 (by decide)
  obtain ⟨hf1, hc1⟩ := h 1 (by decide)
  rw [clearCollisions_eq, getE_clearStep _ hf1 hc1, getE_clearStep _ hf0 hc0]

/-! ### Domains that an order forces (R350) -/

theorem joinChan_service (c : Nat) (x : Module) : (joinChan c x).mgmt.service = x.mgmt.service := by
  unfold joinChan joinAt dataRegs editChannel
  dsimp only
  split <;> simp [dclearBits]

theorem serviceSwitched_service (d : Nat) (on : Bool) (x : Module) : (serviceSwitched d on x).mgmt.service = x.mgmt.service := by
  have hkeep {f : Nat → Module → Module} (hf : ∀ c y, (f c y).mgmt.service = y.mgmt.service) :
      (repeatN f 2 x).mgmt.service = x.mgmt.service :=
    repeatN_induct (P := fun y : Module => y.mgmt.service = x.mgmt.service) (fun c y hy => (hf c y).trans hy) 2 rfl
  unfold serviceSwitched
  split
  · split
    · exact hkeep joinChan_service
    · exact hkeep fun c y => by simp [editChannel, dclearBits]
  · split <;> simp

theorem serviceSwitched_data (d : Nat) (on : Bool) (x : Module) : (serviceSwitched d on x).data = x.data := by
  have hkeep {f : Nat → Module → Module} (hf : ∀ c y, (f c y).data = y.data) : (repeatN f 2 x).data = x.data :=
    repeatN_induct (P := fun y : Module => y.data = x.data) (fun c y hy => (hf c y).trans hy) 2 rfl
  unfold serviceSwitched
  split
  · split
    · refine hkeep fun c y => ?_
      unfold joinChan joinAt dataRegs editChannel
      dsimp only
      split <;> simp
    · exact hkeep fun c y => by simp [editChannel]
  · split <;> simp

theorem domainOf_service {d : Nat} (h : 1396 ≤ d) : domainOf d = .service (d - 1396) := by
  unfold domainOf
  rw [if_neg (by omega), if_neg (by omega), if_neg (by omega), if_neg (by omega)]

/-- A service domain that is forced on comes up where its supply is there. -/
theorem domainOn_service {d n : Nat} (hd : domainOf d = .service n) (x : Module) :
    (domainOn false d x).mgmt.service.testBit n = (x.mgmt.service.testBit n || serviceFed n x) := by
  unfold domainOn
  rw [hd]
  dsimp only
  cases serviceFed n x
  · rw [Bool.or_false]
    rfl
  · rw [if_neg (by decide), Bool.or_true]
    have hbit : (x.mgmt.service ||| 2 ^ n).testBit n = true := by simp
    split <;> exact hbit

theorem domainOff_service {d n : Nat} (hd : domainOf d = .service n) (hn : n < 8) (x : Module) :
    (domainOff d x).mgmt.service.testBit n = false := by
  have hbit : (x.mgmt.service &&& (0xFF - 2 ^ n)).testBit n = false := by
    have hmask : ∀ i < 8, (0xFF - 2 ^ i).testBit i = false := by decide
    rw [Nat.testBit_and, hmask n hn, Bool.and_false]
  unfold domainOff
  rw [hd]
  dsimp only
  split <;> exact hbit

/-- What a force leaves of the service domains is what the domain's switching leaves. -/
theorem domainForce_service {v : Nat} (x : Module) (hd : 1396 ≤ bits 10 0 v) :
    (domainForce v x).mgmt.service =
      if v.testBit 31 then (domainOn false (bits 10 0 v) x).mgmt.service else (domainOff (bits 10 0 v) x).mgmt.service := by
  unfold domainForce
  dsimp only
  rw [if_neg (by omega : ¬ bits 10 0 v < 1396)]
  split
  · split
    · rfl
    · exact serviceSwitched_service ..
  · split
    · exact serviceSwitched_service ..
    · rfl

theorem domainForce_serviceBit {v : Nat} (x : Module) (hd : 1396 ≤ bits 10 0 v) (hn : bits 10 0 v ≤ 1403) :
    (domainForce v x).mgmt.service.testBit (bits 10 0 v - 1396) =
      (v.testBit 31 && (x.mgmt.service.testBit (bits 10 0 v - 1396) || serviceFed (bits 10 0 v - 1396) x)) := by
  have hdom := domainOf_service hd
  rw [domainForce_service x hd]
  cases v.testBit 31
  · exact domainOff_service hdom (by omega) x
  · exact domainOn_service hdom x

theorem domainForce_tile {v : Nat} (x : Module) (hd : bits 10 0 v < 1280) (hv : v.testBit 31 = false) :
    tileOn (domainForce v x).data (bits 10 0 v) = false := by
  have hoff : tileOn (domainOff (bits 10 0 v) x).data (bits 10 0 v) = false := by
    rw [domainOff, domainOf, if_pos hd]
    exact tileOff_off ..
  unfold domainForce
  dsimp only
  rw [if_neg (by simp [hv])]
  split
  · rw [serviceSwitched_data]
    exact hoff
  · exact hoff

/-! ### Levels of J1 (R497) -/

theorem latchLevels_hold {v : J1Levels} {d : Data} (h : d.on = true) : (latchLevels v d).j1.hold = v.hold := by
  unfold latchLevels
  split
  case isTrue hsame =>
    rcases hsame with hoff | ⟨-, hhold, -⟩
    · simp [h] at hoff
    · exact hhold
  case isFalse => rfl

theorem writeJ1_hold (hup : skourUp x = true) (hon : x.data.on = true) :
    (writeJ1 x).data.j1.hold = (x.mgmt.joints.hostHold || decide (getE x Ent.rackHold = 1)) := by
  rw [writeJ1, presentLevels, if_pos hup]
  exact latchLevels_hold hon

/-! ### The rack manager heard (R348) -/

theorem getE_setRackAlive (v : Nat) (x : Module)
    (h : k ≠ Ent.autonomous ∧ k ≠ 0x20FF03 ∧ k ≠ Ent.autonomyEvents ∧ k ≠ 0x20FF01 ∧ k ≠ Ent.rackAlive) :
    getE (setRackAlive v x) k = getE x k := by
  obtain ⟨hauto, hevent, hcount, hobj, halive⟩ := h
  unfold setRackAlive
  split
  · rfl
  · rw [getE_syncAutonomy _ ⟨hauto, hevent, hcount⟩, getE_raiseEvent _ _ hobj, getE_setE_of_ne _ _ halive]

theorem setRackAlive_reads {α : Type} (rd : Mgmt → α) (v : Nat) (x : Module) (h : RecordFree rd := by intro _; rfl) :
    rd (setRackAlive v x).mgmt = rd x.mgmt := by
  have hsync (y : Module) : rd (syncAutonomy y).mgmt = rd y.mgmt := by
    unfold syncAutonomy
    dsimp only
    split
    · rfl
    · rw [raiseEvent_reads rd _ _ _ h]
      split
      · exact (setE_reads rd _ _ _ h).trans (setE_reads rd _ _ _ h)
      · exact setE_reads rd _ _ _ h
  unfold setRackAlive
  split
  · rfl
  · rw [hsync, raiseEvent_reads rd _ _ _ h, setE_reads rd _ _ _ h]

theorem getE_editBus (f : Bus → Bus) (x : Module) : getE (editBus f x) k = getE x k := rfl

/-! ### O57 -/

section
variable {target : Fin 32} {who : Requester} {tag : BitVec 16}

theorem leNat_natLe_toNat {n : Nat} (m : Nat) (v : BitVec n) (h : n = 8 * m) : leNat (natLe m v.toNat) = v.toNat := by
  have hsize : 2 ^ n = 256 ^ m := by rw [h, Nat.pow_mul]
  rw [leNat_natLe, Nat.mod_eq_of_lt (v.isLt.trans_eq hsize)]

theorem serviceFed_congr {n : Nat} (hb : blocksIn y.mgmt = blocksIn x.mgmt) (hs : y.mgmt.service = x.mgmt.service) :
    serviceFed n y = serviceFed n x := by
  rw [serviceFed, hb, hs, ← serviceFed]

theorem blocksIn_setE (v : Nat) (x : Module) (h : k / 256 ≠ Ent.convState / 256) : blocksIn (setE k v x).mgmt = blocksIn x.mgmt := by
  have hent (i : Nat) (hi : i < 4) : dget (setE k v x).mgmt (Ent.convState + i) = dget x.mgmt (Ent.convState + i) :=
    getE_setE_of_ne v x (by unfold Ent.convState at *; omega)
  unfold blocksIn
  simp only [List.range_succ, List.range_zero, List.nil_append, List.foldl_cons, List.foldl_append, List.foldl_nil,
    hent 0 (by decide), hent 1 (by decide), hent 2 (by decide), hent 3 (by decide)]

/-- The domain of an accepted force is no group's and no tile's service. -/
theorem domainForce_range {v : Nat} (h : valueRefusal x Ent.domainForce v = 0) : bits 10 0 v ≤ 1403 := by
  by_contra hbig
  have hrange : rangeRefusal x Ent.domainForce v = 0x0330 := by
    have hdeck : rangeDeck x Ent.domainForce v = 0x0330 := by
      show codeUnless _ _ = _
      rw [codeUnless, if_neg]
      simp
      omega
    unfold rangeRefusal
    rw [hdeck]
    rfl
  unfold valueRefusal at h
  rw [hrange] at h
  cases h

theorem domainForce_acts {v : W32} (h : WriteAccepted s target who tag Ent.domainForce (natLe 4 v.toNat)) :
    ∃ t, exec (.domainForce target who tag v) s = .next t ∧
      (1396 ≤ bits 10 0 v.toNat → t.sys.mgmt.service.testBit (bits 10 0 v.toNat - 1396) =
        (v.toNat.testBit 31 && (s.sys.mgmt.service.testBit (bits 10 0 v.toNat - 1396) ||
          serviceFed (bits 10 0 v.toNat - 1396) s.sys))) ∧
      (bits 10 0 v.toNat < 1280 → v.toNat.testBit 31 = false → tileOn t.sys.data (bits 10 0 v.toNat) = false) := by
  have hrange := domainForce_range h.2.2.2
  obtain ⟨r, x, hx, ha⟩ := accepted_answers h (by decide) (fun hf => absurd hf (by decide))
  rw [leNat_natLe_toNat 4 v rfl] at ha hrange
  rw [show applyWrite who (levelOf s.sys who) Ent.domainForce v.toNat x =
    domainForce v.toNat (setE Ent.domainForce v.toNat x) from rfl] at ha
  have hservice : (setE Ent.domainForce v.toNat x).mgmt.service = s.sys.mgmt.service := (setE_service ..).trans (hx.reads Mgmt.service)
  have hblocks : blocksIn (setE Ent.domainForce v.toNat x).mgmt = blocksIn s.sys.mgmt :=
    (blocksIn_setE _ _ (by decide)).trans (hx.reads blocksIn)
  refine ⟨_, exec_domainForce s target who tag v, fun hd => ?_, fun hd hv => ?_⟩
  · rw [ha.reads Mgmt.service, domainForce_serviceBit _ hd hrange, serviceFed_congr hblocks hservice, hservice]
  · rw [ha.data]
    exact domainForce_tile _ hd hv

theorem powerOrder_acts {v : Byte} (h : WriteAccepted s target who tag Ent.powerOrder (natLe 1 v.toNat)) :
    ∃ t, exec (.powerOrderWrite target who tag v) s = .next t ∧ getE t.sys Ent.powerOrder = v.toNat ∧
      t.sys.mgmt.orderAt = some s.sys.ts := by
  obtain ⟨r, x, hx, ha⟩ := accepted_answers h (by decide) (fun hf => absurd hf (by decide))
  rw [leNat_natLe_toNat 1 v rfl, show applyWrite who (levelOf s.sys who) Ent.powerOrder v.toNat x =
    editPower (fun p => { p with forecastDue := true })
      (onMgmt (fun m => { m with orderAt := some (setE Ent.powerOrder v.toNat x).ts }) (setE Ent.powerOrder v.toNat x)) from rfl] at ha
  refine ⟨_, exec_powerOrderWrite s target who tag v, ?_, ?_⟩
  · rw [ha.getE]
    exact dget_dset_self ..
  · rw [ha.reads Mgmt.orderAt]
    exact congrArg some hx.ts

theorem envelope_acts {v : List Byte} (h : WriteAccepted s target who tag Ent.envelope v) :
    ∃ t, exec (.envelopeWrite target who tag v) s = .next t ∧ getE t.sys Ent.envelope = leNat v ∧
      t.sys.mgmt.power.envelopeAt = s.sys.ts ∧ getE t.sys Ent.rackAlive = 1 := by
  obtain ⟨r, x, hx, ha⟩ := accepted_answers h (by decide) (fun hf => absurd hf (by decide))
  rw [show applyWrite who (levelOf s.sys who) Ent.envelope (leNat v) x = setRackAlive 1 (editJoints _
    (editPower _ (setE Ent.envelope (leNat v) x))) from rfl] at ha
  refine ⟨_, exec_envelopeWrite s target who tag v, ?_, ?_, ?_⟩
  · rw [ha.getE, getE_setRackAlive _ _ (by decide)]
    exact dget_dset_self ..
  · rw [ha.reads fun m => m.power.envelopeAt, setRackAlive_reads fun m => m.power.envelopeAt]
    exact hx.ts
  · rw [ha.getE, setRackAlive_rackAlive]

theorem flagClear_acts {index : BitVec 16} {sub group : Byte} {mask : W64}
    (h : WriteAccepted s target who tag Ent.flagClear
      (natLe 2 index.toNat ++ natLe 1 sub.toNat ++ natLe 1 group.toNat ++ natLe 8 mask.toNat))
    (hsticky : stickyMask (index.toNat * 256 + sub.toNat) ≠ 0) (hsill : index.toNat * 256 + sub.toNat ≠ Ent.sillState) :
    ∃ t, exec (.flagClear target who tag index sub group mask) s = .next t ∧ ∀ i,
      (getE t.sys (index.toNat * 256 + sub.toNat)).testBit i =
        ((getE s.sys (index.toNat * 256 + sub.toNat)).testBit i &&
          !(((mask.toNat * 2 ^ (64 * group.toNat)) &&& stickyMask (index.toNat * 256 + sub.toNat)).testBit i)) := by
  have htarget := clearTarget_flagClear index sub group mask
  have hbits := clearBits_flagClear index sub group mask
  have hne : index.toNat * 256 + sub.toNat ≠ Ent.flagClear := by
    intro heq
    rw [heq] at hsticky
    exact hsticky (by decide)
  obtain ⟨r, x, hx, ha⟩ := accepted_answers h (by decide) (fun _ => by rwa [htarget])
  refine ⟨_, exec_flagClear s target who tag index sub group mask, fun i => ?_⟩
  generalize leNat _ = v at ha htarget hbits
  rw [show applyWrite who (levelOf s.sys who) Ent.flagClear v x = clearFlags v (setE Ent.flagClear v x) from rfl] at ha
  rw [ha.getE, ← htarget, testBit_clearFlags _ (htarget ▸ hsill), hbits, htarget, getE_setE_of_ne _ _ hne, hx.getE]

theorem haltMissing_clears {index : BitVec 16} {sub : Byte} {mask : W64} (hk : index.toNat * 256 + sub.toNat = Ent.sillState)
    (hmask : mask.toNat.testBit 5 = true)
    (h : WriteAccepted s target who tag Ent.flagClear
      (natLe 2 index.toNat ++ natLe 1 sub.toNat ++ natLe 1 (0 : Byte).toNat ++ natLe 8 mask.toNat)) :
    ∃ t, exec (.flagClear target who tag index sub 0 mask) s = .next t ∧ t.sys.sill.haltMissing = false := by
  have htarget := (clearTarget_flagClear index sub 0 mask).trans hk
  have hbits := clearBits_flagClear index sub 0 mask
  rw [hk] at hbits
  obtain ⟨r, x, hx, ha⟩ := accepted_answers h (by decide) (fun _ => by rw [htarget]; decide)
  refine ⟨_, exec_flagClear s target who tag index sub 0 mask, (congrArg Sill.haltMissing ha.sill).trans ?_⟩
  generalize leNat _ = v at htarget hbits
  have hbit : (clearBits v).testBit 5 = true := by
    rw [hbits, show (0 : Byte).toNat = 0 from rfl, Nat.mul_zero, Nat.pow_zero, Nat.mul_one, Nat.testBit_and, hmask]
    decide
  rw [show applyWrite who (levelOf s.sys who) Ent.flagClear v x = clearFlags v (setE Ent.flagClear v x) from rfl]
  unfold clearFlags
  dsimp only
  rw [if_pos htarget, hbit]
  rfl

theorem authorityTable_acts {v : List Byte} (h : WriteAccepted s target who tag Ent.authorityTable v) :
    ∃ t, exec (.authorityTable target who tag v) s = .next t ∧ getE t.sys Ent.authorityTable = leNat v := by
  obtain ⟨r, x, hx, ha⟩ := accepted_answers h (by decide) (fun hf => absurd hf (by decide))
  exact ⟨_, exec_authorityTable s target who tag v, ha.getE.trans (getE_setE_self ..)⟩

theorem channelRestart_acts {v : Byte} (h : WriteAccepted s target who tag Ent.channelRestart (natLe 1 v.toNat)) :
    ∃ t, exec (.channelRestart target who tag v) s = .next t ∧ ∀ c : Fin 2, v.toNat.testBit c = true →
      (busIn s c).st ≠ .off → getE s.sys Ent.rateMode = 0 → (busIn t c).st = .detecting := by
  obtain ⟨r, x, hx, ha⟩ := accepted_answers h (by decide) (fun hf => absurd hf (by decide))
  rw [leNat_natLe_toNat 1 v rfl] at ha
  refine ⟨_, exec_channelRestart s target who tag v, fun c hv hst hmode => ?_⟩
  rw [busIn, ha.channel BusChan.st]
  refine restartChannels_detects (x := x) hv ?_ (hx.getE.trans hmode)
  rw [hx.busOf]
  exact hst

theorem collisionClear_acts {v : Byte} (h : WriteAccepted s target who tag Ent.collisionClear (natLe 1 v.toNat)) (hv : v = 1) :
    ∃ t, exec (.collisionClear target who tag v) s = .next t ∧ ∀ c : Fin 2, (busIn t c).collisions = 0 ∧
      dbit t.sys.mgmt (Ent.chanFlags + c) 3 = false := by
  subst hv
  obtain ⟨r, x, hx, ha⟩ := accepted_answers h (by decide) (fun hf => absurd hf (by decide))
  refine ⟨_, exec_collisionClear s target who tag 1, fun c => ?_⟩
  obtain ⟨hcount, hflag⟩ := Prod.mk.inj (clearCollisions_clears c x)
  exact ⟨(ha.channel BusChan.collisions (n := c)).trans hcount, (dbit_eq _ (clearCollisions x).mgmt ha.getE 3).trans hflag⟩

theorem nodeAddress_acts {v : Byte} (h : WriteAccepted s target who tag Ent.nodeAddress (natLe 1 v.toNat)) :
    ∃ t, exec (.nodeAddress target who tag v) s = .next t ∧ getE t.sys Ent.nodeAddress = v.toNat ∧
      t.sys.mgmt.bus.addressDue = true := by
  obtain ⟨r, x, hx, ha⟩ := accepted_answers h (by decide) (fun hf => absurd hf (by decide))
  rw [leNat_natLe_toNat 1 v rfl, show applyWrite who (levelOf s.sys who) Ent.nodeAddress v.toNat x =
    editBus (fun b => { b with addressDue := true }) (clearCollisions (setE Ent.nodeAddress v.toNat x)) from rfl] at ha
  have hdue : (wholeWrite target who tag.toNat Ent.nodeAddress (natLe 1 v.toNat) s.sys).mgmt.bus.addressDue = true := by
    rw [ha.reads fun m => m.bus.addressDue]
    rfl
  refine ⟨_, exec_nodeAddress s target who tag v, ?_, hdue⟩
  rw [ha.getE, getE_editBus, getE_clearCollisions _ (by decide) (by decide), getE_setE_self]

theorem matrix_acts {v : List Byte} (h : WriteAccepted s target who tag Ent.matrix v) :
    ∃ t, exec (.matrix target who tag v) s = .next t ∧ t.sys.mgmt.bus.matrixDue = some (maskMatrix (leNat v)) ∧
      getE t.sys Ent.matrix = getE s.sys Ent.matrix := by
  obtain ⟨r, x, hx, ha⟩ := accepted_answers h (by decide) (fun hf => absurd hf (by decide))
  rw [show applyWrite who (levelOf s.sys who) Ent.matrix (leNat v) x = writeMatrix (leNat v) x from rfl] at ha
  refine ⟨_, exec_matrix s target who tag v, ?_, ?_⟩
  · rw [ha.reads fun m => m.bus.matrixDue]
    exact congrArg Bus.matrixDue (setE_bus ..)
  · rw [ha.getE]
    exact (getE_setE_of_ne _ _ (by decide)).trans hx.getE

theorem gnomonNode_acts {v : Byte} (h : WriteAccepted s target who tag Ent.gnomonNode (natLe 1 v.toNat)) :
    ∃ t, exec (.gnomonNode target who tag v) s = .next t ∧ t.sys.mgmt.bus.gnomonDue = some v.toNat := by
  obtain ⟨r, x, hx, ha⟩ := accepted_answers h (by decide) (fun hf => absurd hf (by decide))
  rw [leNat_natLe_toNat 1 v rfl, show applyWrite who (levelOf s.sys who) Ent.gnomonNode v.toNat x = writeGnomon v.toNat x from rfl]
    at ha
  refine ⟨_, exec_gnomonNode s target who tag v, ?_⟩
  rw [ha.reads fun m => m.bus.gnomonDue]
  exact congrArg Bus.gnomonDue (setE_bus ..)

theorem mgmtRestart_acts {v : Byte} (h : WriteAccepted s target who tag Ent.mgmtRestart (natLe 1 v.toNat)) (hv : v = 1) :
    ∃ t, exec (.mgmtRestart target who tag v) s = .next t ∧ t.sys.mgmt.run = .restart s.sys.ts false (snapCount s.sys.mgmt) := by
  subst hv
  obtain ⟨r, x, hx, ha⟩ := accepted_answers h (by decide) (fun hf => absurd hf (by decide))
  refine ⟨_, exec_mgmtRestart s target who tag 1, (ha.reads Mgmt.run).trans ?_⟩
  rw [show applyWrite who (levelOf s.sys who) Ent.mgmtRestart (leNat (natLe 1 (1 : Byte).toNat)) x = stopSkour false x from rfl,
    ← hx.ts, ← hx.reads snapCount]
  rfl

theorem retireTile_acts {v : BitVec 16} (h : WriteAccepted s target who tag Ent.retireTile (natLe 2 v.toNat)) :
    ∃ t, exec (.retireTile target who tag v) s = .next t ∧ (getE t.sys Ent.repairMap).testBit v.toNat = true := by
  obtain ⟨r, x, hx, ha⟩ := accepted_answers h (by decide) (fun hf => absurd hf (by decide))
  rw [leNat_natLe_toNat 2 v rfl] at ha
  refine ⟨_, exec_retireTile s target who tag v, ?_⟩
  rw [ha.getE]
  exact testBit_repairMap_markTile ..

theorem rackHold_acts {v : Byte} (h : WriteAccepted s target who tag Ent.rackHold (natLe 1 v.toNat)) :
    ∃ t, exec (.rackHold target who tag v) s = .next t ∧ getE t.sys Ent.rackHold = v.toNat ∧
      (s.sys.data.on = true → t.sys.data.j1.hold = (s.sys.mgmt.joints.hostHold || decide (v = 1))) := by
  have hup : skourUp s.sys = true := (Bool.and_eq_true _ _ ▸ h.1.1).1
  obtain ⟨r, x, hx, ha⟩ := accepted_answers h (by decide) (fun hf => absurd hf (by decide))
  rw [leNat_natLe_toNat 1 v rfl, show applyWrite who (levelOf s.sys who) Ent.rackHold v.toNat x =
    writeJ1 (setE Ent.rackHold v.toNat x) from rfl] at ha
  have hrun : skourUp (setE Ent.rackHold v.toNat x) = true := by
    rw [skourUp, setE_run, hx.reads Mgmt.run]
    exact hup
  refine ⟨_, exec_rackHold s target who tag v, ?_, fun hon => ?_⟩
  · rw [ha.getE, getE, writeJ1_reads fun m => dget m Ent.rackHold]
    exact getE_setE_self ..
  · rw [ha.data, writeJ1_hold hrun (by rw [setE_data, hx.data, hon]), getE_setE_self, setE_joints, hx.reads Mgmt.joints,
      decide_eq_decide.2 (show v.toNat = 1 ↔ v = 1 from BitVec.toNat_inj (y := 1#8))]

theorem mgmtDatagram_judges {addr : BitVec 128} {port : BitVec 16} {bs : List Byte} (hup : skourUp s.sys = true)
    (heth : s.sys.mgmt.service.testBit 5 = true) :
    (bs.length = 80 → leNat (bs.take 2) = 0x4B44 → leNat ((bs.drop 2).take 1) = 1 → leNat ((bs.drop 3).take 1) = 1 →
      exec (.mgmtDatagram addr port bs) s = .next { s with
        sys := request 0 (bodyRequest ⟨2, addr.toNat, port.toNat⟩ (leNat ((bs.drop 4).take 2)) (bs.drop 16)) s.sys }) ∧
    (bs.length < 64 → ∃ t, exec (.mgmtDatagram addr port bs) s = .next t ∧
      getE t.sys Ent.readsRefused = (getE s.sys Ent.readsRefused + 1) % 2 ^ 32) := by
  refine ⟨fun hlen hmagic hversion hkind => ?_, fun hlen => ⟨_, exec_mgmtDatagram s addr port bs, ?_⟩⟩
  · rw [exec_mgmtDatagram]
    unfold mgmtDatagram
    dsimp only
    rw [if_neg (by simp [hup, heth]), if_neg (by simp [hlen, hmagic, hversion, hkind]), if_pos hkind]
  · unfold mgmtDatagram
    dsimp only
    rw [if_neg (by simp [hup, heth]), if_pos, getE_incE_self]
    refine .inl fun heq => ?_
    split at heq <;> omega

end

/-- Settles O57: each accepted write takes effect in the module its judgement left (`accepted_answers`). -/
theorem acceptedWritesTakeEffect : Obligations.AcceptedWritesTakeEffect := by
  unfold Obligations.AcceptedWritesTakeEffect
  exact fun s target who tag => ⟨fun v => domainForce_acts, fun v => powerOrder_acts, fun v => envelope_acts,
    fun index sub group mask => flagClear_acts, fun mask hmask h => haltMissing_clears (by decide) hmask h,
    fun v => authorityTable_acts, fun v => channelRestart_acts, fun v => collisionClear_acts, fun v => nodeAddress_acts,
    fun v => matrix_acts, fun v => gnomonNode_acts, fun v => mgmtRestart_acts, fun v => retireTile_acts, fun v => rackHold_acts,
    fun addr port bs => mgmtDatagram_judges⟩

end Sys2Proof.Machine
end

section
/-!
SUPPORT. What confirmed safety writes of the dictionary leave (O58).
-/

namespace Sys2Proof.Machine

-- As in the tests: one proof at a time, so that the whole text keeps within the threads that the memory holds.
set_option Elab.async false

variable {s t : State} {x y z : Module} {k v : Nat}

/-! ### Confirmations that pass every check (R521, R522) -/

/-- An entry written in two steps, by its sub-index. -/
def twoStep (k : Nat) : Bool := decide (k % 256 ≠ 0) && twoSteps k

/-- The request a confirmation of entry `k` is. -/
def confirmReq (who : Requester) (tag : BitVec 16) (k len : Nat) (c : W32) (m : W64) : DictReq :=
  ⟨who, tag.toNat, 4, k / 256, k % 256, len, 0, natLe 4 c.toNat ++ natLe 8 m.toNat⟩

/-- A confirmation that passes every check carries its value out, and its answer leaves. -/
theorem confirmed_answers {target : Fin 32} {who : Requester} {tag : BitVec 16} {c : W32} {m : W64}
    (h : ConfirmAccepted s target who tag c m k v) (hk : twoStep k = true) :
    ∃ r x, s.sys.Judged x ∧
      Module.Answers r (applyWrite who (levelOf s.sys who) k v x) (confirmWrite target who tag.toNat k c m s.sys) := by
  obtain ⟨p, e, hp, hw, rfl, he, ⟨hh, hkept, hf⟩, hm, hval, hin, hc, hco, hsafe, hsill⟩ := h
  rw [twoStep, Bool.and_eq_true] at hk
  obtain ⟨hsub, htwo⟩ := hk
  have hn := nameEntry_of_entryOf he (of_decide_eq_true hsub)
  have hkey : k / 256 * 256 + k % 256 = k := Nat.div_add_mod' k 256
  have hacc : e.acc = .rws := by
    rw [twoSteps, he, Option.any_some] at htwo
    exact of_decide_eq_true htwo
  have hflag : k ≠ Ent.flagClear := ne_of_twoSteps htwo (by decide)
  let q := confirmReq who tag k e.len c m
  have hadm : admission (endTransfer q s.sys) who 4 (k / 256) (k % 256) p.value = .ok e := by
    rw [admission_of_level hn (fun h4 => absurd h4 (by decide)) (iff_of_false (by decide) fun h => h hacc)
      (by rw [hkey]; exact fun h => absurd h hflag), levelOf_endTransfer, hkey, if_pos hm]
  have hjudge := judgeConfirm_of_right (x := endTransfer q s.sys) hp hw hadm (by rw [hkey]; exact hval) hin hc hco
    (by rw [hkey, safetyRefusal_endTransfer]; exact hsafe)
  rw [sillAgrees_endTransfer, if_pos hsill, hkey] at hjudge
  have hserve : serveOp q s.sys = _ := serveConfirm_of_bytes (q := q) hf hn rfl rfl
  rw [show judgeConfirm q.who q.index q.sub c m (endTransfer q s.sys) = _ from hjudge] at hserve
  have ha := request_answers (q := q) hh hkept
  rw [hserve] at ha
  have hreq : confirmWrite target who tag.toNat k c m s.sys = request target q s.sys := by
    unfold confirmWrite
    rw [he]
    rfl
  exact ⟨replyTo q 0 e.len [], journalRequest who 1 k (natLe p.len p.value) 0
    (useChallenge (k / 256) (k % 256) (endPending (k / 256) (k % 256) (endTransfer q s.sys))),
    (endTransfer_judged q s.sys).trans ((endPending_judged ..).trans ((useChallenge_judged ..).trans (journalRequest_judged ..))),
    hreq ▸ ha⟩

/-! ### Sensors (R380) -/

theorem maskSensor_masks (v : Nat) (x : Module) :
    dbit (maskSensor v x).mgmt Ent.sensorMasks (v % 32768) = decide (v < 32768) := by
  have hset : dbit (onMgmt (dsetBits Ent.sensorMasks (2 ^ (v % 32768))) x).mgmt Ent.sensorMasks (v % 32768) = true :=
    dbit_onMgmt_dsetBits x (by rw [Nat.testBit_two_pow_self])
  unfold maskSensor
  dsimp only
  split
  case isTrue h =>
    rw [decide_eq_false h.not_gt]
    exact dbit_dclearBits _ (by rw [Nat.testBit_two_pow_self])
  case isFalse h =>
    rw [decide_eq_true (not_le.1 h)]
    split
    · generalize onMgmt (dsetBits Ent.sensorMasks (2 ^ (v % 32768))) x = y at hset ⊢
      refine Eq.trans (dbit_eq _ y.mgmt ?_ _) hset
      exact (dget_dset_of_ne _ _ (by decide)).trans (dget_dset_of_ne _ _ (by decide))
    · exact hset

/-! ### Valves (R418) -/

theorem getE_editChan (c : Nat) (f : Chan → Chan) (x : Module) : getE (editChan c f x) k = getE x k := rfl

theorem getE_editAct (f : Act → Act) (x : Module) : getE (editAct f x) k = getE x k := rfl

/-- Clearing one valve's fault clears its bit, and sets none. -/
theorem clearValveFault_bit (c n : Nat) (x : Module) :
    dbit (clearValveFault c x).mgmt Ent.valveFaults n = (dbit x.mgmt Ent.valveFaults n && decide (n ≠ c)) := by
  unfold clearValveFault
  split
  case isTrue h =>
    by_cases hn : n = c
    · subst hn
      simpa using h
    · simp [hn]
  case isFalse =>
    have hent : getE (onMgmt (fun m => setByte Ent.valveFaultCause c 0 (dclearBits Ent.valveFaults (2 ^ c) m)) x) Ent.valveFaults =
        getE x Ent.valveFaults - (getE x Ent.valveFaults &&& 2 ^ c) :=
      (dget_dset_of_ne _ _ (by decide)).trans (dget_dset_self ..)
    rw [dbit, ← getE, getE_syncValveThrottle, getE_editChan, getE_editAct, hent, testBit_sub_and, Nat.testBit_two_pow, dbit, ← getE]
    simp [eq_comm]

/-- One valve's step of an accepted valve_fault_clear. -/
def clearValveStep (mask : Nat) (x : Module) (c : Nat) : Module :=
  if mask.testBit c then
    clearValveFault c (onMgmt (dclearBits Ent.bankOff (2 ^ bankOf c))
      (editAct (fun a => if dbit x.mgmt Ent.bankOff (bankOf c) then { a with bankOff := drop a.bankOff (bankOf c) } else a) x))
  else x

theorem clearValveFaults_eq (mask : Nat) (x : Module) : clearValveFaults mask x = (List.range 20).foldl (clearValveStep mask) x := rfl

theorem clearValveStep_bit (mask c n : Nat) (x : Module) : dbit (clearValveStep mask x c).mgmt Ent.valveFaults n =
    (dbit x.mgmt Ent.valveFaults n && !(mask.testBit c && decide (n = c))) := by
  unfold clearValveStep
  split
  case isTrue h =>
    have hent : getE (onMgmt (dclearBits Ent.bankOff (2 ^ bankOf c)) (editAct (fun a =>
        if dbit x.mgmt Ent.bankOff (bankOf c) then { a with bankOff := drop a.bankOff (bankOf c) } else a) x)) Ent.valveFaults =
        getE x Ent.valveFaults := by
      rw [getE_dclearBits _ _ (by decide), getE_editAct]
    rw [clearValveFault_bit, dbit_eq _ x.mgmt hent, h]
    simp
  case isFalse h => simp [h]

theorem clearValveSteps_bit {mask n : Nat} (hm : mask.testBit n = true) (l : List Nat) (x : Module)
    (h : n ∈ l ∨ dbit x.mgmt Ent.valveFaults n = false) : dbit (l.foldl (clearValveStep mask) x).mgmt Ent.valveFaults n = false := by
  induction l generalizing x with
  | nil => exact h.resolve_left (by simp)
  | cons c l ih =>
    refine ih _ ?_
    rw [clearValveStep_bit]
    rcases h with h | h
    · rcases List.mem_cons.1 h with rfl | h
      · exact .inr (by simp [hm])
      · exact .inl h
    · exact .inr (by simp [h])

/-! ### Drive units (R427) -/

/-- One unit's step of an accepted unit_fault_clear. -/
def clearUnitStep (mask : Nat) (x : Module) (i : Nat) : Module :=
  let u := if i < 2 then i else 14 + i
  if mask.testBit i then
    onMgmt (dclearBits (unitFlags u) 5) (editUnit u (fun d => if d.st = .faulted then DriveUnit.stopped else d) x)
  else x

theorem clearUnitFaults_eq (mask : Nat) (x : Module) : clearUnitFaults mask x = (List.range 6).foldl (clearUnitStep mask) x := rfl

/-- A unit is at rest or as before: a clearing faults none. -/
theorem clearUnitStep_healthy {mask i n : Nat} (x : Module)
    (h : (unitOf x n).st ≠ .faulted ∨ (mask.testBit i = true ∧ n = if i < 2 then i else 14 + i)) :
    (unitOf (clearUnitStep mask x i) n).st ≠ .faulted := by
  have hnew (d : DriveUnit) : (if d.st = .faulted then DriveUnit.stopped else d).st ≠ .faulted := by
    split
    · decide
    · assumption
  unfold clearUnitStep
  dsimp only
  generalize (if i < 2 then i else 14 + i) = u at h ⊢
  split
  case isTrue hm =>
    rw [unitOf_dclearBits, unitOf_editUnit]
    split
    case isTrue => exact hnew _
    case isFalse hn => exact h.resolve_right fun hf => hn hf.2
  case isFalse hm => exact h.resolve_right fun hf => hm hf.1

theorem clearUnitSteps_healthy {mask i n : Nat} (hm : mask.testBit i = true) (hn : n = if i < 2 then i else 14 + i) (l : List Nat)
    (x : Module) (h : i ∈ l ∨ (unitOf x n).st ≠ .faulted) : (unitOf (l.foldl (clearUnitStep mask) x) n).st ≠ .faulted := by
  induction l generalizing x with
  | nil => exact h.resolve_left (by simp)
  | cons c l ih =>
    refine ih _ ?_
    rcases h with h | h
    · rcases List.mem_cons.1 h with rfl | h
      · exact .inr (clearUnitStep_healthy x (.inr ⟨hm, hn⟩))
      · exact .inl h
    · exact .inr (clearUnitStep_healthy x (.inl h))

/-! ### Pairs (R437) -/

/-- One pair's step of an accepted pair_restore. -/
def restorePairStep (v p : Nat) (x : Module) : Module :=
  if v.testBit p ∧ (pairAt x.mgmt p = .retired ∨ pairAt x.mgmt p = .failed) then
    setPair p .resync (onMgmt (fun m => { m with mismatches := modifyAt (fun _ => []) m.mismatches p }) x)
  else x

theorem pairRestore_eq (v : Nat) (x : Module) : pairRestore v x = restorePairStep v 1 (restorePairStep v 0 x) := rfl

theorem restorePairStep_pairs (v p : Nat) (x : Module) :
    (∀ q, q ≠ p → pairAt (restorePairStep v p x).mgmt q = pairAt x.mgmt q) ∧
      (restorePairStep v p x).mgmt.pairs.length = x.mgmt.pairs.length ∧
      (p < x.mgmt.pairs.length → v.testBit p = true → pairAt x.mgmt p = .retired ∨ pairAt x.mgmt p = .failed →
        pairAt (restorePairStep v p x).mgmt p = .resync) := by
  unfold restorePairStep
  split
  case isTrue =>
    obtain ⟨hself, hother, hlen⟩ := setPair_pairs p .resync
      (onMgmt (fun m => { m with mismatches := modifyAt (fun _ => []) m.mismatches p }) x)
    exact ⟨hother, hlen, fun hp _ _ => hself hp⟩
  case isFalse h => exact ⟨fun _ _ => rfl, rfl, fun _ hv hst => absurd ⟨hv, hst⟩ h⟩

theorem pairRestore_resyncs {p : Fin 2} (hl : x.mgmt.pairs.length = 2) (hv : v.testBit p = true)
    (hst : pairAt x.mgmt p = .retired ∨ pairAt x.mgmt p = .failed) : pairAt (pairRestore v x).mgmt p = .resync := by
  obtain ⟨hother0, hlen0, hself0⟩ := restorePairStep_pairs v 0 x
  obtain ⟨hother1, -, hself1⟩ := restorePairStep_pairs v 1 (restorePairStep v 0 x)
  rw [pairRestore_eq]
  match p with
  | 0 => exact (hother1 0 (by decide)).trans (hself0 (by omega) hv hst)
  | 1 => exact hself1 (by rw [hlen0, hl]; decide) hv (by rw [hother0 1 (by decide)]; exact hst)

/-! ### The oscillators (R442) -/

theorem enableRevert_flag (x : Module) : dbit (enableRevert x).mgmt Ent.oscFlags 4 = false := by
  unfold enableRevert oscTell
  have hclear : dbit (onMgmt (fun m => dclearBits Ent.oscFlags 16 { m with clocks := { m.clocks with moves := [] } }) x).mgmt
      Ent.oscFlags 4 = false := dbit_dclearBits _ (by decide)
  split
  · exact hclear
  · generalize onMgmt _ x = y at hclear ⊢
    rw [dbit_eq _ y.mgmt ?_, hclear]
    rw [← getE, oscEvent, getE_raiseEvent _ _ (by decide), getE_note, getE]

/-! ### Service (R445, R460) -/

theorem serviceOrder_data (v : Nat) (x : Module) : (serviceOrder v x).data.on = false := by
  unfold serviceOrder
  split
  · rw [toState_data, dataOff_on]
  · dsimp only
    rw [toState_data, editCool_data, dataOff_on]

theorem serviceOrder_module (v : Nat) (x : Module) : (serviceOrder v x).mgmt.module = if v = 1 then .service else .standby := by
  unfold serviceOrder
  split
  · exact toState_module ..
  · exact toState_module ..

/-! ### Manufactured settings (R460) -/

theorem look_filter_of_key {α : Type} (d : α) (p : Nat → Bool) (m : SMap α) {k : Nat} (h : p k = false) :
    look d (m.filter fun e => p e.1) k = d := by
  refine look_of_unlisted fun hk => ?_
  obtain ⟨e, he, rfl⟩ := List.mem_map.1 hk
  have hp := (List.mem_filter.1 he).2
  rw [h] at hp
  cases hp

/-- An entry whose value a restoring of the manufactured settings takes away. -/
def restorable (k : Nat) : Bool := (entryOf k).any fun e => e.retained && e.acc != .ro

theorem ne_of_restorable {c : Nat} (hk : restorable k = true) (hc : restorable c = false) : k ≠ c := by
  rintro rfl
  rw [hk] at hc
  exact Bool.noConfusion hc

theorem getE_writePtpEnable (v : Nat) (x : Module) (h : k ≠ Ent.ptpState) : getE (writePtpEnable v x) k = getE x k := by
  unfold writePtpEnable
  split
  · exact getE_setE_of_ne _ _ h
  · split
    · exact getE_setE_of_ne _ _ h
    · rfl

theorem getE_dataRegs {c : Nat} (x : Module) (ht : k ≠ Ent.tdc + c) (hd : k ≠ Ent.dbt + c) : getE (dataRegs c x) k = getE x k := by
  rw [dataRegs, getE_setE_of_ne _ _ ht, getE_setE_of_ne _ _ hd]

/-- A stored value that a restoring of the manufactured settings leaves. -/
def outlasts (k : Nat) : Bool := match entryOf k with | some e => !(e.retained && e.acc != .ro) | none => true

theorem outlasts_of_restorable (hk : restorable k = true) : outlasts k = false := by
  unfold restorable at hk
  unfold outlasts
  cases he : entryOf k with
  | none =>
    rw [he] at hk
    cases hk
  | some e =>
    rw [he] at hk
    exact congrArg not hk

theorem restoreFactory_entry (x : Module) (hk : restorable k = true) : getE (restoreFactory x) k = dflt k := by
  unfold restoreFactory
  extract_lets x1 x2
  have h2 : getE x2 k = dflt k := look_filter_of_key (dflt k) outlasts x.mgmt.dict (outlasts_of_restorable hk)
  have hregs (c : Nat) (y : Module) (hc : c < 2) : getE (dataRegs c y) k = getE y k := by
    match c with
    | 0 => exact getE_dataRegs y (ne_of_restorable hk (by decide)) (ne_of_restorable hk (by decide))
    | 1 => exact getE_dataRegs y (ne_of_restorable hk (by decide)) (ne_of_restorable hk (by decide))
  rw [getE_writePtpEnable _ _ (ne_of_restorable hk (by decide)),
    show repeatN dataRegs 2 x2 = dataRegs 1 (dataRegs 0 x2) from rfl, hregs 1 _ (by decide), hregs 0 _ (by decide), h2]

theorem restoreFactory_coldNext (x : Module) : (restoreFactory x).mgmt.coldNext = true := by
  unfold restoreFactory
  extract_lets x1 x2
  have h2 : x2.mgmt.coldNext = true := rfl
  rw [show repeatN dataRegs 2 x2 = dataRegs 1 (dataRegs 0 x2) from rfl]
  unfold writePtpEnable dataRegs
  clear_value x2
  split
  · simp [h2]
  · split <;> simp [h2]

/-! ### The exits (R554, R555) -/

/-- Sill without its copy of the journal. -/
def Module.sillOwn (x : Module) : Sill := { x.sill with copy := [] }

theorem Module.SameBut.sillOwn {ks : List Nat} (h : x.SameBut ks y) : y.sillOwn = x.sillOwn := h.reads fun l => { l with copy := [] }

/-- What is read of Sill but for its copy. -/
theorem sill_of_own {α : Type} (rd : Sill → α) (h : y.sillOwn = x.sillOwn) (hrd : CopyFree rd := by intro _ _; rfl) :
    rd y.sill = rd x.sill := by
  rw [← hrd y.sill [], ← hrd x.sill []]
  exact congrArg rd h

theorem safeStopExit_sill (x : Module) : (safeStopExit x).sill.safeStop = false ∧ (safeStopExit x).sill.inletLock = false ∧
    (safeStopExit x).sill.halt = false ∧ (safeStopExit x).sill.acted = [] := by
  obtain ⟨y, hown, hy⟩ : ∃ y : Module, (safeStopExit x).sillOwn = y.sillOwn ∧
      y.sill.safeStop = false ∧ y.sill.inletLock = false ∧ y.sill.halt = false ∧ y.sill.acted = [] := by
    unfold safeStopExit
    extract_lets cold x1 x2 x3
    refine ⟨x2, ?_, rfl, rfl, rfl, rfl⟩
    split
    · have h3 : x3.sillOwn = _ := (toState_sameBut ..).sillOwn
      refine h3.trans ?_
      rw [Module.sillOwn, editCool_sill, dataOff_sill, ← Module.sillOwn]
    · exact (beginInlet_sameBut ..).sillOwn
  obtain ⟨hstop, hlock, hhalt, hacted⟩ := hy
  exact ⟨(sill_of_own Sill.safeStop hown).trans hstop, (sill_of_own Sill.inletLock hown).trans hlock,
    (sill_of_own Sill.halt hown).trans hhalt, (sill_of_own Sill.acted hown).trans hacted⟩

theorem safeStopExit_module (h : x.mgmt.module = .safeStop) :
    (safeStopExit x).mgmt.module = .standby ∧ (safeStopExit x).data.on = false := by
  unfold safeStopExit
  dsimp only
  rw [if_pos h]
  refine ⟨toState_module .., ?_⟩
  rw [onData_data, toState_data, editCool_data]
  exact dataOff_on _

theorem beginInlet_reads {α : Type} (rd : Mgmt → α) (x : Module) (h : RecordFree rd := by intro _; rfl)
    (hs : ∀ m j, rd { m with start := j } = rd m := by intro _ _; rfl) : rd (beginInlet x).mgmt = rd x.mgmt := by
  unfold beginInlet
  split
  · rw [beginStep, note_reads rd _ _ _ _ _ h]
    exact hs x.mgmt _
  · rfl

/-- The module as an exit from the leak cut leaves it. -/
theorem leakCutExit_leaves (x : Module) : (leakCutExit x).sill.leakCut = false ∧ (leakCutExit x).sill.safeStop = false ∧
    (leakCutExit x).sill.trayCut = false ∧ (leakCutExit x).mgmt.module = .off ∧ (leakCutExit x).mgmt.coldNext = true ∧
    ∀ a ∈ (leakCutExit x).mgmt.bus.alarms, a.code ≠ 1 := by
  unfold leakCutExit
  extract_lets x1 x2 x3
  have h2s : x2.sill.leakCut = false ∧ x2.sill.safeStop = false ∧ x2.sill.trayCut = false := ⟨rfl, rfl, rfl⟩
  have h2c : x2.mgmt.coldNext = true := rfl
  have h2a : ∀ a ∈ x2.mgmt.bus.alarms, a.code ≠ 1 := fun a ha =>
    of_decide_eq_true (List.mem_filter.1 (List.mem_filter.1 ha).1).2
  have hown : (beginInlet (onData (fun d => { d with tilePwrEn := true }) x3)).sillOwn = x2.sillOwn :=
    (beginInlet_sameBut _).sillOwn.trans (toState_sameBut .off (onCtrl (fun c => { c with haltCause := 0 }) x2)).sillOwn
  clear_value x2
  obtain ⟨hcut, hstop, htray⟩ := h2s
  refine ⟨(sill_of_own Sill.leakCut hown).trans hcut, (sill_of_own Sill.safeStop hown).trans hstop,
    (sill_of_own Sill.trayCut hown).trans htray, ?_, ?_, ?_⟩
  · rw [beginInlet_reads Mgmt.module]
    exact toState_module ..
  · rw [beginInlet_reads Mgmt.coldNext, onData_mgmt, show x3.mgmt.coldNext = x2.mgmt.coldNext from toState_reads Mgmt.coldNext ..]
    exact h2c
  · rw [beginInlet_reads fun m => m.bus.alarms, onData_mgmt,
      show x3.mgmt.bus.alarms = x2.mgmt.bus.alarms from toState_reads (fun m => m.bus.alarms) ..]
    exact h2a

/-! ### O58 -/

section
variable {target : Fin 32} {who : Requester} {tag : BitVec 16} {c : W32} {m : W64}

theorem maskSensor_acts (h : ConfirmAccepted s target who tag c m Ent.maskSensor v) :
    ∃ t, exec (.maskSensor target who tag c m) s = .next t ∧
      dbit t.sys.mgmt Ent.sensorMasks (v % 32768) = decide (v < 32768) := by
  obtain ⟨r, x, hx, ha⟩ := confirmed_answers h (by decide)
  exact ⟨_, exec_maskSensor s target who tag c m, (dbit_eq _ _ ha.getE _).trans (maskSensor_masks ..)⟩

theorem valveFaultClear_acts (h : ConfirmAccepted s target who tag c m Ent.valveFaultClear v) :
    ∃ t, exec (.valveFaultClear target who tag c m) s = .next t ∧
      ∀ n : Fin 20, v.testBit n = true → dbit t.sys.mgmt Ent.valveFaults n = false := by
  obtain ⟨r, x, hx, ha⟩ := confirmed_answers h (by decide)
  refine ⟨_, exec_valveFaultClear s target who tag c m, fun n hn => (dbit_eq _ _ ha.getE _).trans ?_⟩
  exact clearValveSteps_bit hn _ (setE Ent.valveFaultClear v x) (.inl (List.mem_range.2 n.isLt))

theorem manifoldProfile_acts (h : ConfirmAccepted s target who tag c m Ent.manifoldProfile v) :
    ∃ t, exec (.manifoldProfile target who tag c m) s = .next t ∧ getE t.sys Ent.manifoldProfile = v := by
  obtain ⟨r, x, hx, ha⟩ := confirmed_answers h (by decide)
  exact ⟨_, exec_manifoldProfile s target who tag c m, ha.getE.trans (getE_setE_self ..)⟩

theorem unitFaultClear_acts (h : ConfirmAccepted s target who tag c m Ent.unitFaultClear v) :
    ∃ t, exec (.unitFaultClear target who tag c m) s = .next t ∧
      (∀ n : Fin 2, v.testBit n = true → (unitOf t.sys n).st ≠ .faulted) ∧
      ∀ n : Fin 4, v.testBit (2 + n) = true → (unitOf t.sys (16 + n)).st ≠ .faulted := by
  obtain ⟨r, x, hx, ha⟩ := confirmed_answers h (by decide)
  have hunit (n : Nat) : unitOf (confirmWrite target who tag.toNat Ent.unitFaultClear c m s.sys) n =
      unitOf (clearUnitFaults v (setE Ent.unitFaultClear v x)) n := unitOf_congr (ha.reads fun m => m.act.units) n
  refine ⟨_, exec_unitFaultClear s target who tag c m, fun n hn => ?_, fun n hn => ?_⟩
  · rw [hunit, clearUnitFaults_eq]
    exact clearUnitSteps_healthy hn (if_pos n.isLt).symm _ _ (.inl (List.mem_range.2 (by omega)))
  · rw [hunit, clearUnitFaults_eq]
    exact clearUnitSteps_healthy hn (by rw [if_neg (by omega)]; omega) _ _ (.inl (List.mem_range.2 (by omega)))

theorem pairRestore_acts (h : ConfirmAccepted s target who tag c m Ent.pairRestore v) (hl : s.sys.mgmt.pairs.length = 2) :
    ∃ t, exec (.pairRestore target who tag c m) s = .next t ∧ ∀ p : Fin 2, v.testBit p = true →
      pairAt s.sys.mgmt p = .retired ∨ pairAt s.sys.mgmt p = .failed → pairAt t.sys.mgmt p = .resync := by
  obtain ⟨r, x, hx, ha⟩ := confirmed_answers h (by decide)
  have hpairs : (setE Ent.pairRestore v x).mgmt.pairs = s.sys.mgmt.pairs := (setE_pairs ..).trans (hx.reads Mgmt.pairs)
  refine ⟨_, exec_pairRestore s target who tag c m, fun p hp hst => ?_⟩
  rw [ha.reads fun m => pairAt m p]
  refine pairRestore_resyncs (x := setE Ent.pairRestore v x) (by rw [hpairs, hl]) hp ?_
  rw [pairAt, hpairs]
  exact hst

theorem oscRevertClear_acts (h : ConfirmAccepted s target who tag c m Ent.oscRevertClear v) (hv : v = 1) :
    ∃ t, exec (.oscRevertClear target who tag c m) s = .next t ∧ dbit t.sys.mgmt Ent.oscFlags 4 = false := by
  subst hv
  obtain ⟨r, x, hx, ha⟩ := confirmed_answers h (by decide)
  exact ⟨_, exec_oscRevertClear s target who tag c m, (dbit_eq _ _ ha.getE _).trans (enableRevert_flag _)⟩

theorem serviceOrder_acts (h : ConfirmAccepted s target who tag c m Ent.serviceOrder v) :
    ∃ t, exec (.serviceOrder target who tag c m) s = .next t ∧ t.sys.data.on = false ∧
      t.sys.mgmt.module = if v = 1 then .service else .standby := by
  obtain ⟨r, x, hx, ha⟩ := confirmed_answers h (by decide)
  rw [show applyWrite who (levelOf s.sys who) Ent.serviceOrder v x = serviceOrder v (setE Ent.serviceOrder v x) from rfl] at ha
  exact ⟨_, exec_serviceOrder s target who tag c m, (congrArg Data.on ha.data).trans (serviceOrder_data ..),
    (ha.reads Mgmt.module).trans (serviceOrder_module ..)⟩

theorem restoreFactory_acts (h : ConfirmAccepted s target who tag c m Ent.restoreFactory v) :
    ∃ t, exec (.restoreFactory target who tag c m) s = .next t ∧ t.sys.mgmt.coldNext = true ∧
      ∀ k e, entryOf k = some e → e.retained = true → e.acc ≠ .ro → getE t.sys k = dflt k := by
  obtain ⟨r, x, hx, ha⟩ := confirmed_answers h (by decide)
  rw [show applyWrite who (levelOf s.sys who) Ent.restoreFactory v x = restoreFactory (setE Ent.restoreFactory v x) from rfl] at ha
  refine ⟨_, exec_restoreFactory s target who tag c m, (ha.reads Mgmt.coldNext).trans (restoreFactory_coldNext _),
    fun k e he hret hacc => ha.getE.trans (restoreFactory_entry _ ?_)⟩
  rw [restorable, he, Option.any_some, hret]
  exact bne_iff_ne.2 hacc

theorem restoreTile_acts (h : ConfirmAccepted s target who tag c m Ent.restoreTile v) :
    ∃ t, exec (.restoreTile target who tag c m) s = .next t ∧ (getE t.sys Ent.repairMap).testBit v = false := by
  obtain ⟨r, x, hx, ha⟩ := confirmed_answers h (by decide)
  refine ⟨_, exec_restoreTile s target who tag c m, ?_⟩
  rw [ha.getE]
  exact testBit_repairMap_markTile ..

theorem safeStopExit_acts (h : ConfirmAccepted s target who tag c m Ent.safeStopExit v) :
    ∃ t, exec (.safeStopExit target who tag c m) s = .next t ∧ t.sys.sill.safeStop = false ∧
      t.sys.sill.inletLock = false ∧ t.sys.sill.halt = false ∧ t.sys.sill.acted = [] ∧
      (s.sys.mgmt.module = .safeStop → t.sys.mgmt.module = .standby ∧ t.sys.data.on = false) := by
  obtain ⟨r, x, hx, ha⟩ := confirmed_answers h (by decide)
  rw [show applyWrite who (levelOf s.sys who) Ent.safeStopExit v x = safeStopExit (setE Ent.safeStopExit v x) from rfl] at ha
  obtain ⟨hstop, hlock, hhalt, hacted⟩ := safeStopExit_sill (setE Ent.safeStopExit v x)
  refine ⟨_, exec_safeStopExit s target who tag c m, ?_⟩
  rw [ha.sill, ha.data, ha.reads Mgmt.module]
  refine ⟨hstop, hlock, hhalt, hacted, fun hm => safeStopExit_module ?_⟩
  rw [setE_module, hx.reads Mgmt.module, hm]

theorem leakCutExit_acts (h : ConfirmAccepted s target who tag c m Ent.leakCutExit v) :
    ∃ t, exec (.leakCutExit target who tag c m) s = .next t ∧ t.sys.sill.leakCut = false ∧
      t.sys.sill.safeStop = false ∧ t.sys.sill.trayCut = false ∧ t.sys.mgmt.module = .off ∧
      t.sys.mgmt.coldNext = true ∧ ¬ AlarmOn t 1 := by
  obtain ⟨r, x, hx, ha⟩ := confirmed_answers h (by decide)
  rw [show applyWrite who (levelOf s.sys who) Ent.leakCutExit v x = leakCutExit (setE Ent.leakCutExit v x) from rfl] at ha
  obtain ⟨hcut, hstop, htray, hmod, hcold, halarm⟩ := leakCutExit_leaves (setE Ent.leakCutExit v x)
  refine ⟨_, exec_leakCutExit s target who tag c m, ?_⟩
  rw [ha.sill, ha.reads Mgmt.module, ha.reads Mgmt.coldNext]
  refine ⟨hcut, hstop, htray, hmod, hcold, fun ⟨a, hmem, hcode⟩ => ?_⟩
  rw [ha.reads fun m => m.bus.alarms] at hmem
  exact halarm a hmem hcode

end

/-- Settles O58: each confirmed write is carried out in the module its judgement left (`confirmed_answers`). -/
theorem confirmedWritesTakeEffect : Obligations.ConfirmedWritesTakeEffect := by
  unfold Obligations.ConfirmedWritesTakeEffect
  exact fun s target who tag c m v => ⟨maskSensor_acts, valveFaultClear_acts, manifoldProfile_acts, unitFaultClear_acts,
    pairRestore_acts, oscRevertClear_acts, serviceOrder_acts, restoreFactory_acts, restoreTile_acts, safeStopExit_acts,
    leakCutExit_acts⟩

end Sys2Proof.Machine
end

section
/-!
SUPPORT. What the T slot does to its truss, and what completed rows and drains do (O12, O13).
-/

namespace Sys2Proof.Machine

-- As in the tests: one proof at a time, so that the whole text keeps within the threads that the memory holds.
set_option Elab.async false

variable {c : Instr} {s : State} {i : Issue} {b : Bun} {p : Pred} {o : TOp} {one : Bool}

/-! ### What an issuing T slot acts on -/

theorem IssuesT.issues (h : IssuesT s i b p o) : Issues s i b := by
  obtain ⟨hi, -, -⟩ := h
  exact hi

theorem IssuesT.drives (h : IssuesT s i b p o)
    (hc : ∀ s, exec c s = .next { s with sys := issueT i p o s.sys }) : Drives c i b := by
  obtain ⟨-, hb, -⟩ := h
  exact ⟨fun b => b.t == ⟨p, .op o⟩, by simp [hb], hc⟩

theorem IssuesT.runT_eq (h : IssuesT s i b p o) : runT s i b = o := by
  obtain ⟨-, hb, hp⟩ := h
  rw [runT, hb, opOr_op hp]

/-- The tile that the T slot acts on. -/
def mActed (s : State) (i : Issue) (b : Bun) : Tile :=
  (execM (ctxOf (envOf s.sys) s.sys.data i.tile) (tileReady s i) (seenOf s i b) i.cycle (runM s i b)).1

/-- The trusses of a T-slot command's bundle are as its T slot leaves them. -/
theorem IssuesT.exec_truss (h : IssuesT s i b p o) (hc : ∀ s, exec c s = .next { s with sys := issueT i p o s.sys }) (x : Bool) :
    ∃ t, exec c s = .next t ∧
      trussOf (tileIn t i.tile) x = trussOf (execT (tileReady s i) (mActed s i b) i.cycle o) x := by
  obtain ⟨f, hf, he⟩ := h.drives hc
  refine ⟨_, he s, ?_⟩
  simp only [tileIn]
  rw [issueWhen_truss h.issues hf, unitsOf_eq, h.runT_eq]
  rfl

/-- A truss without its weight buffers and the fill in progress: all that the M slot leaves. -/
def Truss.unfilled (u : Truss) : Truss := { u with bufA := WBuf.zero, bufB := WBuf.zero, filling := false }

theorem execM_unfilled (cx : Ctx) (t0 t : Tile) (cyc : Nat) (m : MOp) (x : Bool) :
    (trussOf (execM cx t0 t cyc m).1 x).unfilled = (trussOf t x).unfilled := by
  have hxfer (y : Tile) (v : Xfer) : trussOf { y with xfer := v } x = trussOf y x := by cases x <;> rfl
  cases m with
  | sts => cases x <;> rfl
  | stv vs aB sz imm =>
    refine congrArg Truss.unfilled (List.foldlRecOn (motive := fun y => trussOf y x = trussOf t x) (szQuarters sz) _ rfl
      fun y hy q _ => Eq.trans ?_ hy)
    cases x <;> rfl
  | wfill one k aS sU =>
    simp only [execM]
    split
    · rfl
    · rw [work_trussOf (bump_work _ _ _)]
      by_cases hx : x = one
      · rw [hx, trussOf_setTruss_self]
        unfold setInactive
        split <;> rfl
      · obtain rfl : x = !one := by cases x <;> cases one <;> simp_all
        rw [trussOf_setTruss_not]
  | sarm =>
    simp only [execM]
    split
    · rw [work_trussOf (bump_work _ _ _), work_trussOf (bump_work _ _ _)]
    · exact congrArg Truss.unfilled ((hxfer _ _).trans (work_trussOf (bump_work 0x053 1 t) x))
  | ureq => exact congrArg Truss.unfilled ((work_trussOf (bump_work _ _ _) x).trans (hxfer t _))
  | xsnd =>
    simp only [execM, exchangeSend]
    split
    · exact congrArg Truss.unfilled ((work_trussOf (bump_work _ _ _) x).trans (hxfer t _))
    · split <;> rw [work_trussOf (bump_work _ _ _)]
      · exact congrArg Truss.unfilled ((hxfer _ _).trans (work_trussOf (setInt_work _ _) x))
      · exact congrArg Truss.unfilled (work_trussOf (setInt_work _ _) x)
  | _ => rfl

theorem mActed_unfilled (s : State) (i : Issue) (b : Bun) (x : Bool) :
    (trussOf (mActed s i b) x).unfilled = (trussOf (tileActed s i) x).unfilled := by
  rw [mActed, execM_unfilled, seenOf_truss]

/-- What the M slot leaves of a truss is read as before it. -/
theorem Truss.unfilled_reads {α : Type} {u v : Truss} (h : u.unfilled = v.unfilled) (rd : Truss → α)
    (hrd : ∀ w : Truss, rd w.unfilled = rd w := by intro _; rfl) : rd u = rd v := by
  rw [← hrd u, h, hrd]

/-- What chunk reads leave of a truss is read as before them. -/
theorem Truss.kept_reads {α : Type} {u v : Truss} (h : u.kept = v.kept) (rd : Truss → α)
    (hrd : ∀ w : Truss, rd w.kept = rd w := by intro _; rfl) : rd u = rd v := by
  rw [← hrd u, h, hrd]

/-! ### TCFG, TSWP and TDRN (R127, R133, R45) -/

theorem tcfg_sets {sa sb : BitVec 5} (h : IssuesT s i b p (.tcfg one sa sb)) :
    ∃ t, exec (.tcfg i p one sa sb) s = .next t ∧ (trussOf (tileIn t i.tile) one).cfg.toNat =
      (readS (tileIn s i.tile).regs sb.toNat).toNat * 2 ^ 32 + (readS (tileIn s i.tile).regs sa.toNat).toNat := by
  obtain ⟨t, ht, hu⟩ := h.exec_truss (exec_tcfg · i p one sa sb) one
  refine ⟨t, ht, ?_⟩
  rw [hu, execT, trussOf_setTruss_self]
  dsimp only
  rw [tcfgWord, regs_tileReady, BitVec.toNat_append, ← Nat.shiftLeft_add_eq_or_of_lt (BitVec.isLt _), Nat.shiftLeft_eq]

theorem tswp_swaps (h : IssuesT s i b p (.tswp one)) : ∃ t, exec (.tswp i p one) s = .next t ∧
    (trussOf (tileIn t i.tile) one).activeB = !(trussOf (tileIn s i.tile) one).activeB := by
  obtain ⟨t, ht, hu⟩ := h.exec_truss (exec_tswp · i p one) one
  have hready : (trussOf (tileReady s i) one).activeB = (trussOf (tileIn s i.tile) one).activeB :=
    Truss.kept_reads (chunksRead_kept ..) Truss.activeB
  refine ⟨t, ht, ?_⟩
  rw [hu, execT, work_trussOf (bump_work _ _ _), trussOf_setTruss_self, ← hready,
    ← Truss.kept_reads (tileActed_kept s i one) Truss.activeB, ← Truss.unfilled_reads (mActed_unfilled s i b one) Truss.activeB]

theorem tdrn_drains {vd : BitVec 6} {q : BitVec 2} {cnt : BitVec 5} (h : IssuesT s i b p (.tdrn one vd q cnt)) :
    ∃ t, exec (.tdrn i p one vd q cnt) s = .next t ∧ (trussOf (tileIn t i.tile) one).drains.length = cnt.toNat + 1 ∧
      ∀ k ≤ cnt.toNat, (trussOf (tileIn t i.tile) one).drains[k]? =
        some ⟨(vd.toNat + (q.toNat + k) / 4) % 64, (q.toNat + k) % 4, i.cycle + k⟩ := by
  obtain ⟨t, ht, hu⟩ := h.exec_truss (exec_tdrn · i p one vd q cnt) one
  have hdrains : (trussOf (tileIn t i.tile) one).drains = drainList i.cycle vd.toNat q.toNat cnt.toNat := by
    rw [hu, execT, trussOf_setTruss_self]
  refine ⟨t, ht, ?_, fun k hk => ?_⟩
  · rw [hdrains, drainList, List.length_map, List.length_range]
  · rw [hdrains, drainList, List.getElem?_map, List.getElem?_range (by omega)]
    rfl

/-! ### TROW (R128, R129) -/

/-- A row's operation issues only when its truss is not stopped by a full queue (R49). -/
theorem trow_unblocked {aA aS : BitVec 4} {sS : BitVec 5} {cnt : BitVec 8} (h : IssuesT s i b p (.trow one aA aS sS cnt)) :
    (trussOf (mActed s i b) one).blocked = false := by
  have ho : opOr .nop (tileReady s i).regs b.t = .trow one aA aS sS cnt := (opOr_tileReady _ _).trans h.runT_eq
  obtain ⟨-, -, -, -, -, hh, -⟩ := h.issues
  rw [bundleHold] at hh
  simp only [ho, hold_ite_eq_none] at hh
  obtain ⟨-, -, -, hblocked, -⟩ := hh
  have hready : (trussOf (tileReady s i) one).blocked = false := by simpa [tTruss] using hblocked
  rw [Truss.unfilled_reads (mActed_unfilled s i b one) Truss.blocked, Truss.kept_reads (tileActed_kept s i one) Truss.blocked, hready]

/-- A truss without an active batch reads no chunk. -/
theorem chunkOrFault_idle {t : Tile} {x : Bool} (cx : Ctx) (cyc : Nat) (y : Bool) (h : (trussOf t x).active = none) :
    trussOf (chunkOrFault cx cyc y t) x = trussOf t x := by
  unfold chunkOrFault
  split
  · exact faultTile_trussOf ..
  · rw [countedChunk_truss, if_neg]
    rintro ⟨rfl, hact, -⟩
    exact hact h

theorem tileActed_idle {x : Bool} (h : (trussOf (tileReady s i) x).active = none) :
    trussOf (tileActed s i) x = trussOf (tileReady s i) x := by
  have hstep (n y : Bool) {t : Tile} (ht : (trussOf t x).active = none) :
      trussOf (if n then chunkOrFault (ctxOf (envOf s.sys) s.sys.data i.tile) i.cycle y t else t) x = trussOf t x := by
    split
    · exact chunkOrFault_idle _ _ _ ht
    · rfl
  have hcount : trussOf (countImem i (tileReady s i).seq.pc (tileReady s i)) x = trussOf (tileReady s i) x :=
    work_trussOf (countImem_work ..) x
  have h0 := hstep i.now0 false (hcount ▸ h)
  exact (hstep i.now1 true (by rw [h0, hcount, h])).trans (h0.trans hcount)

/-- The truss after it read a chunk of a batch of which no row was started. -/
theorem readChunk_first {store : Memory} {u : Truss} {k : Batch} {n m : Nat} (ha : u.active = some k)
    (hcls : classOf k.cfg ≠ none) (hk : k.started = 0) (hn : (rowNow u).chunks.length = n) (hm : u.inflight.length = m) :
    (n + 1 < rowChunks k.cfg → (readChunk store u).active = some k ∧
      ∃ r, (readChunk store u).row = some r ∧ r.chunks.length = n + 1) ∧
    (rowChunks k.cfg ≤ n + 1 → (readChunk store u).inflight.length = m + 1 ∧
      (1 < k.rows → (readChunk store u).active = some { k with started := 1 })) := by
  obtain ⟨cl, hcl⟩ := Option.ne_none_iff_exists'.1 hcls
  subst hn hm
  unfold readChunk
  rw [ha]
  dsimp only
  rw [hcl]
  dsimp only
  rw [List.length_append, List.length_singleton]
  refine ⟨fun hlt => ?_, fun hle => ?_⟩
  · rw [if_pos hlt]
    exact ⟨rfl, _, rfl, by rw [List.length_append, List.length_singleton]⟩
  · rw [if_neg (Nat.not_lt.2 hle)]
    refine ⟨?_, fun hrows => ?_⟩
    · split <;> simp
    · rw [if_neg (by omega), hk]

section
variable {aA aS : BitVec 4} {sS : BitVec 5} {cnt : BitVec 8} {t : State} (h : IssuesT s i b p (.trow one aA aS sS cnt))
  (ht : trussOf (tileIn t i.tile) one =
    trussOf (execT (tileReady s i) (mActed s i b) i.cycle (.trow one aA aS sS cnt)) one)

/-- The batch that a TROW latches. -/
def rowBatch (s : State) (i : Issue) (one : Bool) (aA aS : BitVec 4) (sS : BitVec 5) (cnt : BitVec 8) : Batch :=
  batchOf (tileReady s i) one aA aS sS cnt

include h ht

theorem trow_idle (hidle : (trussOf (tileReady s i) one).active = none) : trussOf (tileIn t i.tile) one =
    readChunk (tileReady s i).store { trussOf (mActed s i b) one with active := some (rowBatch s i one aA aS sS cnt) } := by
  rw [ht]
  simp only [execT, takeBatch, hidle, Option.isNone_none, if_true]
  rw [countedChunk_truss, trussOf_setTruss_self, if_pos ⟨rfl, by simp, trow_unblocked h⟩]
  rfl

omit h in
theorem trow_busy (hbusy : (trussOf (tileReady s i) one).active ≠ none) : trussOf (tileIn t i.tile) one =
    if (trussOf (mActed s i b) one).active.isNone then
      { trussOf (mActed s i b) one with active := some (rowBatch s i one aA aS sS cnt) }
    else { trussOf (mActed s i b) one with pending := some (rowBatch s i one aA aS sS cnt) } := by
  rw [ht]
  simp only [execT, takeBatch, Option.isNone_eq_false_iff.2 (Option.isSome_iff_ne_none.2 hbusy), Bool.false_eq_true, if_false]
  split
  · exact trussOf_setTruss_self ..
  · exact trussOf_setTruss_self ..

omit h ht in
/-- The latched batch, with the addresses and the seed that the registers hold (R128). -/
theorem rowBatch_eq : rowBatch s i one aA aS sS cnt =
    ⟨(trussOf (tileReady s i) one).cfg, readA (tileIn s i.tile).regs aA.toNat, readA (tileIn s i.tile).regs aS.toNat,
      readS (tileIn s i.tile).regs sS.toNat, if cnt = 0 then 256 else cnt.toNat, 0⟩ := by
  have hcnt : (cnt.toNat = 0) = (cnt = 0) := propext ⟨fun h => BitVec.eq_of_toNat_eq h, fun h => h ▸ rfl⟩
  simp only [rowBatch, batchOf, regs_tileReady, hcnt]

/-- On an idle truss the batch's first chunk is read at once (R128). -/
theorem trow_reads_first (hidle : (trussOf (tileReady s i) one).active = none)
    (hcls : classOf (trussOf (tileReady s i) one).cfg ≠ none) {batch : Batch} (hb : rowBatch s i one aA aS sS cnt = batch) :
    ((rowNow (trussOf (tileReady s i) one)).chunks.length + 1 < rowChunks (trussOf (tileReady s i) one).cfg →
      (trussOf (tileIn t i.tile) one).active = some batch ∧ ∃ r, (trussOf (tileIn t i.tile) one).row = some r ∧
        r.chunks.length = (rowNow (trussOf (tileReady s i) one)).chunks.length + 1) ∧
    (rowChunks (trussOf (tileReady s i) one).cfg ≤ (rowNow (trussOf (tileReady s i) one)).chunks.length + 1 →
      (trussOf (tileIn t i.tile) one).inflight.length = (trussOf (tileReady s i) one).inflight.length + 1 ∧
      (1 < batch.rows → (trussOf (tileIn t i.tile) one).active = some { batch with started := 1 })) := by
  have hu := mActed_unfilled s i b one
  rw [tileActed_idle hidle] at hu
  have hchunks (v w : Truss) (hvw : v.row = w.row) : (rowNow v).chunks.length = (rowNow w).chunks.length := by
    rw [rowNow, rowNow, hvw]
    cases w.row <;> rfl
  have hcfg : batch.cfg = (trussOf (tileReady s i) one).cfg := hb ▸ rfl
  rw [trow_idle h ht hidle, hb, ← hcfg]
  exact readChunk_first rfl (hcfg ▸ hcls) (hb ▸ rfl) (hchunks _ _ (Truss.unfilled_reads hu Truss.row))
    (congrArg List.length (Truss.unfilled_reads hu Truss.inflight))

omit h in
/-- On a busy truss the batch waits until the active one has read its last chunk (R129). -/
theorem trow_waits (hbusy : (trussOf (tileReady s i) one).active ≠ none) {batch : Batch}
    (hb : rowBatch s i one aA aS sS cnt = batch) :
    ((trussOf (tileActed s i) one).active = none → (trussOf (tileIn t i.tile) one).active = some batch) ∧
    ((trussOf (tileActed s i) one).active ≠ none → (trussOf (tileIn t i.tile) one).pending = some batch ∧
      (trussOf (tileIn t i.tile) one).active = (trussOf (tileActed s i) one).active) := by
  have hact : (trussOf (mActed s i b) one).active = (trussOf (tileActed s i) one).active :=
    Truss.unfilled_reads (mActed_unfilled s i b one) Truss.active
  rw [trow_busy (b := b) ht hbusy, hb, hact]
  refine ⟨fun hnow => ?_, fun hnow => ?_⟩
  · rw [if_pos (by rw [hnow]; rfl)]
  · rw [if_neg (by simpa using hnow)]
    exact ⟨rfl, hact⟩

end

/-- Settles O12, operation by operation: what the T slot leaves of its truss does not depend on the M slot's. -/
theorem trussCommands : Obligations.TrussCommands := by
  intro s i b p one
  refine ⟨fun sa sb => tcfg_sets, fun aA aS sS cnt h => ?_, tswp_swaps, fun vd q cnt => tdrn_drains⟩
  obtain ⟨t, ht, hu⟩ := h.exec_truss (exec_trow · i p one aA aS sS cnt) one
  exact ⟨t, ht, fun hidle hcls => trow_reads_first h hu hidle hcls rowBatch_eq,
    fun hbusy => trow_waits (b := b) hu hbusy rowBatch_eq⟩

/-! ### Completed rows and drains (R47 to R50, R52) -/

section
variable {ix : TileIx} {cycle : Nat}

/-- What completes a row, at a truss with a row in flight. -/
theorem rowComplete_of_inflight {row : List W32} {rest : List (List W32)} (cx : Ctx) {t : Tile}
    (h : (trussOf t one).inflight = row :: rest) :
    (8 ≤ (trussOf t one).queue.length →
      trussOf (rowComplete cx cycle one t).1 one = { trussOf t one with blocked := true }) ∧
    ((trussOf t one).queue.length < 8 → trussOf (rowComplete cx cycle one t).1 one =
      { trussOf t one with inflight := rest, queue := (trussOf t one).queue ++ [row] }) := by
  have hnone : (trussOf t one).inflight.isEmpty = false := by rw [h]; rfl
  unfold rowComplete
  simp only [hnone, Bool.false_eq_true, if_false]
  simp only [h]
  refine ⟨fun hfull => ?_, fun hroom => ?_⟩
  · rw [if_pos hfull]
    exact trussOf_setTruss_self ..
  · rw [if_neg (by omega), work_trussOf (setIntIf_work _ _ _), work_trussOf (bump_work _ _ _),
      work_trussOf (bump_work _ _ _), trussOf_setTruss_self]

theorem trussRowComplete_queues {row : List W32} {rest : List (List W32)} (hon : tileOn s.sys.data ix = true)
    (h : (trussOf (tileIn s ix) one).inflight = row :: rest) :
    ∃ t, exec (.trussRowComplete ix one cycle) s = .next t ∧
      ((trussOf (tileIn s ix) one).queue.length < 8 →
        (trussOf (tileIn t ix) one).queue = (trussOf (tileIn s ix) one).queue ++ [row] ∧
        (trussOf (tileIn t ix) one).inflight = rest) ∧
      (8 ≤ (trussOf (tileIn s ix) one).queue.length → (trussOf (tileIn t ix) one).blocked = true ∧
        (trussOf (tileIn t ix) one).queue = (trussOf (tileIn s ix) one).queue) := by
  obtain ⟨t, e, ht⟩ := exec_steps hon (exec_trussRowComplete s ix one cycle)
  obtain ⟨hfull, hroom⟩ := rowComplete_of_inflight (cycle := cycle) (ctxOf (envOf s.sys) s.sys.data ix) h
  refine ⟨t, e, fun hlt => ?_, fun hle => ?_⟩
  · rw [ht, hroom hlt]
    exact ⟨rfl, rfl⟩
  · rw [ht, hfull hle]
    exact ⟨rfl, rfl⟩

theorem setTruss_regs (t : Tile) (x : Bool) (u : Truss) : (setTruss t x u).regs = t.regs := by cases x <;> rfl

/-- The tile after a drain moved a row, before its counters: a slot's write that completes later stands (R103). -/
def drained (cycle : Nat) (one : Bool) (d : Drain) (ds : List Drain) (row : List W32) (rest : List (List W32)) (t : Tile) :
    Tile :=
  let g := RegId.q d.reg d.quarter
  let t1 := setTruss t one { trussOf t one with queue := rest, drains := drainsAfter cycle ds, blocked := false }
  let v := setQuarter (readV t1.regs d.reg) d.quarter row
  let t2 := if slotPends t g (cycle + 2 < ·) then t1 else { t1 with regs := writeV t1.regs d.reg v }
  { t2 with seq := { t2.seq with board := t2.seq.board ++ [⟨g, cycle + 2, true⟩] } }

theorem drainOne_of_row {d : Drain} {ds : List Drain} {row : List W32} {rest : List (List W32)} (cx : Ctx) {t : Tile}
    (hd : (trussOf t one).drains = d :: ds) (hq : (trussOf t one).queue = row :: rest) (hdue : d.start ≤ cycle) :
    drainOne cx cycle one t = setIntIf (slotPends t (.q d.reg d.quarter) (· = cycle + 2))
      (bump 0x023 1 (drained cycle one d ds row rest t)) bitVregClash := by
  unfold drainOne
  simp only [hd, hq, Nat.not_lt.2 hdue, if_false]
  rfl

section
variable (d : Drain) (ds : List Drain) (row : List W32) (rest : List (List W32)) (t : Tile)

theorem drained_truss : trussOf (drained cycle one d ds row rest t) one =
    { trussOf t one with queue := rest, drains := drainsAfter cycle ds, blocked := false } := by
  have hregs (y : Tile) (v : Regs) : trussOf { y with regs := v } one = trussOf y one := by cases one <;> rfl
  have hseq (y : Tile) (v : Seq) : trussOf { y with seq := v } one = trussOf y one := by cases one <;> rfl
  refine (hseq _ _).trans (Eq.trans ?_ (trussOf_setTruss_self t one _))
  split
  · rfl
  · exact hregs _ _

theorem drained_regs : (drained cycle one d ds row rest t).regs =
    if slotPends t (.q d.reg d.quarter) (cycle + 2 < ·) then t.regs
    else writeV t.regs d.reg (setQuarter (readV t.regs d.reg) d.quarter row) := by
  simp only [drained]
  split
  · exact setTruss_regs ..
  · simp only [setTruss_regs]

/-- The drained quarter takes the row's lanes unless a later write stands there; every other lane is kept. -/
theorem lane_drained {l : Nat} (hquarter : d.quarter < 4) (hl : l < 512) :
    lane (readV (drained cycle one d ds row rest t).regs d.reg) l =
      if l / 128 = d.quarter ∧ slotPends t (.q d.reg d.quarter) (cycle + 2 < ·) = false then lane row (l % 128)
      else lane (readV t.regs d.reg) l := by
  rw [drained_regs]
  split
  · next hstands => rw [if_neg (by simp [hstands])]
  · next hstands => simp only [readV_writeV, if_true, lane_setQuarter _ _ _ _ hquarter hl, hstands, and_true]

theorem readV_drained_of_ne {n : Nat} (hn : n ≠ d.reg) :
    readV (drained cycle one d ds row rest t).regs n = readV t.regs n := by
  rw [drained_regs]
  split
  · rfl
  · rw [readV_writeV, if_neg hn]

end

theorem length_drainsAfter (cyc : Nat) (ds : List Drain) : (drainsAfter cyc ds).length = ds.length := by cases ds <;> rfl

theorem trussDrain_moves {d : Drain} {ds : List Drain} {row : List W32} {rest : List (List W32)}
    (hon : tileOn s.sys.data ix = true) (hd : (trussOf (tileIn s ix) one).drains = d :: ds)
    (hq : (trussOf (tileIn s ix) one).queue = row :: rest) (hquarter : d.quarter < 4) (hdue : d.start ≤ cycle) :
    ∃ t, exec (.trussDrain ix one cycle) s = .next t ∧
      (trussOf (tileIn t ix) one).queue = rest ∧ (trussOf (tileIn t ix) one).drains.length = ds.length ∧
      (∀ l < 512, lane (readV (tileIn t ix).regs d.reg) l =
        if l / 128 = d.quarter ∧ slotPends (tileIn s ix) (.q d.reg d.quarter) (cycle + 2 < ·) = false then
          lane row (l % 128)
        else lane (readV (tileIn s ix).regs d.reg) l) ∧
      (∀ n, n ≠ d.reg → readV (tileIn t ix).regs n = readV (tileIn s ix).regs n) ∧
      (slotPends (tileIn s ix) (.q d.reg d.quarter) (· = cycle + 2) = true →
        (tileIn t ix).csr.intStatus.getLsbD 2 = true) := by
  obtain ⟨t, e, ht⟩ := exec_steps hon (exec_trussDrain s ix one cycle)
  simp only [drainOne_of_row _ hd hq hdue] at ht
  have hwork : (tileIn t ix).work = (drained cycle one d ds row rest (tileIn s ix)).work := by
    rw [ht, setIntIf_work, bump_work]
  refine ⟨t, e, ?_⟩
  rw [work_trussOf hwork, drained_truss, Tile.work_regs hwork]
  refine ⟨rfl, length_drainsAfter .., fun l => lane_drained _ _ _ _ _ hquarter,
    fun n => readV_drained_of_ne _ _ _ _ _, fun hclash => ?_⟩
  rw [ht]
  exact setIntIf_flagSet_self _ (by decide) hclash

theorem trussDrain_waits {d : Drain} {ds : List Drain} (hon : tileOn s.sys.data ix = true)
    (hd : (trussOf (tileIn s ix) one).drains = d :: ds) (hearly : cycle < d.start) :
    ∃ t, exec (.trussDrain ix one cycle) s = .next t ∧ tileIn t ix = tileIn s ix := by
  obtain ⟨t, e, ht⟩ := exec_steps hon (exec_trussDrain s ix one cycle)
  refine ⟨t, e, ht.trans ?_⟩
  simp only [drainOne, hd, hearly, if_true]

theorem trussDrain_faults {d : Drain} {ds : List Drain} (hon : tileOn s.sys.data ix = true)
    (hd : (trussOf (tileIn s ix) one).drains = d :: ds) (hdue : d.start ≤ cycle)
    (hq : (trussOf (tileIn s ix) one).queue = []) (hrows : rowsInFlight (trussOf (tileIn s ix) one) = false)
    (hf : (tileIn s ix).tstate ≠ .fault) :
    ∃ t, exec (.trussDrain ix one cycle) s = .next t ∧ (tileIn t ix).tstate = .fault ∧ (tileIn t ix).csr.faultCause = 5 := by
  obtain ⟨t, e, ht⟩ := exec_steps hon (exec_trussDrain s ix one cycle)
  obtain ⟨hstate, hcause, -, -⟩ := faultTile_stops (ctxOf (envOf s.sys) s.sys.data ix) cycle
    (tileIn s ix).seq.lastPc.toNat (cause := 5) (by decide) hf (tstate_ne_off_of_tileOn hon)
  simp only [drainOne, hd, Nat.not_lt.2 hdue, if_false, hq, hrows, Bool.false_eq_true] at ht
  exact ⟨t, e, by rw [ht]; exact hstate, by rw [ht]; exact hcause⟩

end

/-- Settles O13, by what the truss holds: a row in flight, a due drain with and without a row, a drain that is not due. -/
theorem rowsAndDrains : Obligations.RowsAndDrains := by
  intro s ix one cycle hon
  exact ⟨fun _ _ h => trussRowComplete_queues hon h,
    fun _ _ _ _ hd hq hquarter hdue => trussDrain_moves hon hd hq hquarter hdue,
    fun _ _ hd hearly => trussDrain_waits hon hd hearly,
    fun _ _ hd hdue hq hrows hf => trussDrain_faults hon hd hdue hq hrows hf⟩

end Sys2Proof.Machine
end

section
/-!
SUPPORT. The lanes of vector arithmetic, selects and compares, and the bits of packs and unpacks (O14).
-/

namespace Sys2Proof.Machine

-- As in the tests: one proof at a time, so that the whole text keeps within the threads that the memory holds.
set_option Elab.async false

variable {c : Instr} {s : State} {i : Issue} {b : Bun} {p : Pred}

/-! ### Lanes of vector arithmetic (R134, R135) -/

theorem lane_map1 (f : W32 → W32) (a : VReg) {l : Nat} (hl : l < 512) : lane (map1 f a) l = f (lane a l) := by
  rw [map1, lane_map_range _ hl]

theorem lane_map2 (f : W32 → W32 → W32) (a b : VReg) {l : Nat} (hl : l < 512) :
    lane (map2 f a b) l = f (lane a l) (lane b l) := by
  rw [map2, lane_map_range _ hl]

theorem lane_map3 (f : W32 → W32 → W32 → W32) (a b d : VReg) {l : Nat} (hl : l < 512) :
    lane (map3 f a b d) l = f (lane a l) (lane b l) (lane d l) := by
  rw [map3, lane_map_range _ hl]

theorem lane_vfpOp (m : RMode) (f : VfpFn) (a b d : VReg) {l : Nat} (hl : l < 512) :
    lane (vfpOp m f a b d).1 l = vfpLane m f (lane a l) (lane b l) (lane d l) := by
  cases f with
  | iadd =>
    simp only [vfpOp, lane_map2 _ _ _ hl]
    exact aluOp_eq_aluValue .add _ _
  | isub =>
    simp only [vfpOp, lane_map2 _ _ _ hl]
    exact aluOp_eq_aluValue .sub _ _
  | shl =>
    simp only [vfpOp, lane_map2 _ _ _ hl]
    exact shiftLeft_eq_ofNat _ _
  | shr =>
    simp only [vfpOp, lane_map2 _ _ _ hl]
    exact ushiftRight_eq_ofNat _ _
  | _ => simp only [vfpOp, fpRes, lane_map2 _ _ _ hl, lane_map3 _ _ _ _ hl, vfpLane]

theorem and_signMask (x : W32) : x &&& 0x7FFFFFFF#32 = BitVec.ofNat 32 (x.toNat % 2 ^ 31) := by
  refine BitVec.eq_of_toNat_eq ?_
  have hmask : (0x7FFFFFFF#32).toNat = 2 ^ 31 - 1 := by decide
  rw [BitVec.toNat_and, hmask, Nat.and_two_pow_sub_one_eq_mod, BitVec.toNat_ofNat]
  omega

theorem xor_signBit (x : W32) : x ^^^ 0x80000000#32 = BitVec.ofNat 32 (x.toNat + 2 ^ 31) := by
  have hbit : (0x80000000#32).toNat = 2 ^ 31 := by decide
  refine BitVec.eq_of_toNat_eq (Nat.eq_of_testBit_eq fun j => ?_)
  rw [BitVec.toNat_xor, hbit, Nat.testBit_xor, Nat.testBit_two_pow, BitVec.toNat_ofNat, Nat.testBit_mod_two_pow, Nat.add_comm]
  rcases Nat.lt_trichotomy j 31 with h | rfl | h
  · rw [Nat.testBit_two_pow_add_gt h]
    simp [show j < 32 by omega, show 31 ≠ j by omega]
  · rw [Nat.testBit_two_pow_add_eq]
    simp
  · have hx : x.toNat.testBit j = false :=
      Nat.testBit_lt_two_pow (x.isLt.trans_le (Nat.pow_le_pow_right (by decide) (by omega)))
    simp [hx, show ¬j < 32 by omega, show 31 ≠ j by omega]

/-! ### Compares (R135) -/

theorem vCondHolds_eq (c : VCond) (x y : W32) : vCondHolds c x y = vCondValue c x y := by
  cases c with
  | ieq => exact Bool.beq_eq_decide_eq x y
  | ne => simp [vCondHolds, vCondValue]
  | _ => rfl

theorem vcmppOp_iff (c : VCond) (all : Bool) (a b : VReg) : vcmppOp c all a b = true ↔
    if all then ∀ l < 512, vCondValue c (lane a l) (lane b l) = true
    else ∃ l < 512, vCondValue c (lane a l) (lane b l) = true := by
  cases all <;> simp [vcmppOp, vCondHolds_eq]

/-- A predicate register that the C slot does not name is written by the V slot alone. -/
theorem vPred_of_mem_writesOf {n : Nat} (hc : RegName.p n ∉ destsC (runC s i b)) {w : TWr} {x : Bool}
    (hw : w ∈ writesOf s i b) (e : w.wr = .p n x) : w ∈ (execV (tileReady s i) (runV s i b)).writes := by
  have hn : wrName w.wr = .p n := by rw [e]; rfl
  obtain ⟨hcw | hmw | hvw, -⟩ := (mem_writesOf w).mp hw
  · have hnames := execC_names hcw
    rw [hn, opOr_tileReady] at hnames
    exact absurd hnames hc
  · exact absurd (hn ▸ execM_names hmw) (p_notMem_destsM _ _)
  · exact hvw

theorem vcmpp_writes {pd : BitVec 3} {va vb : BitVec 6} {cond : VCond} {all : Bool}
    (h : IssuesV s i b p (.vcmpp pd va vb cond all)) (hz : pd ≠ 0) (hn : RegName.p pd.toNat ∉ destsC (runC s i b)) :
    ∃ t, exec (.vcmpp i p pd va vb cond all) s = .next t ∧ (readP (tileIn t i.tile).regs pd.toNat = true ↔
      if all then ∀ l < 512, vCondValue cond (laneOf (tileIn s i.tile) va l) (laneOf (tileIn s i.tile) vb l) = true
      else ∃ l < 512, vCondValue cond (laneOf (tileIn s i.tile) va l) (laneOf (tileIn s i.tile) vb l) = true) := by
  obtain ⟨t, ht, hr⟩ := h.issues.exec_regs (h.drives (exec_vcmpp · i p pd va vb cond all))
  have hv : (execV (tileReady s i) (runV s i b)).writes = [⟨2, .p pd.toNat
      (vcmppOp cond all (readV (tileIn s i.tile).regs va.toNat) (readV (tileIn s i.tile).regs vb.toNat))⟩] := by
    rw [h.runV_eq, execV_tileReady]
    rfl
  have hp : readP (tileIn t i.tile).regs pd.toNat =
      vcmppOp cond all (readV (tileIn s i.tile).regs va.toNat) (readV (tileIn s i.tile).regs vb.toNat) := by
    rw [hr]
    refine readP_applyWrs (r := (tileIn s i.tile).regs) (by simpa [BitVec.toNat_eq] using hz)
      ⟨⟨2, .p pd.toNat _⟩, (mem_writesOf _).mpr ⟨.inr (.inr ?_), rfl⟩, rfl⟩ fun w hwm x e => ?_
    · rw [hv]
      exact List.mem_singleton_self _
    · have hmem := vPred_of_mem_writesOf hn hwm e
      rw [hv, List.mem_singleton] at hmem
      subst hmem
      injection e with _ hx
      exact hx.symm
  refine ⟨t, ht, ?_⟩
  rw [hp]
  exact vcmppOp_iff ..

/-! ### Bit strings (R70, R136) -/

theorem testBit_packBits {w : Nat} (hw : 0 < w) (xs : List Nat) (n : Nat) :
    (packBits w xs).testBit n = (xs.getD (n / w) 0).testBit (n % w) := by
  induction xs generalizing n with
  | nil => simp [packBits]
  | cons x xs ih =>
    rw [packBits, Nat.add_comm, Nat.testBit_two_pow_mul_add _ (Nat.mod_lt _ (Nat.two_pow_pos w))]
    by_cases hn : n < w
    · rw [if_pos hn, Nat.testBit_mod_two_pow, Nat.div_eq_of_lt hn, Nat.mod_eq_of_lt hn]
      simp [hn]
    · obtain ⟨k, rfl⟩ := Nat.exists_eq_add_of_le' (Nat.le_of_not_lt hn)
      rw [if_neg hn, ih, Nat.add_sub_cancel, Nat.add_div_right _ hw, Nat.add_mod_right]
      rfl

theorem getD_map_range (f : Nat → Nat) {n k : Nat} : ((List.range n).map f).getD k 0 = if k < n then f k else 0 := by
  split
  · next h => simp [h]
  · next h => simp [h]

theorem getLsbD_ofPacked (v : Nat) {l j : Nat} (hl : l < 512) (hj : j < 32) :
    (lane (ofPacked v) l).getLsbD j = v.testBit (32 * l + j) := by
  rw [ofPacked, lane_map_range _ hl, BitVec.getLsbD_ofNat, Nat.testBit_div_two_pow, decide_eq_true hj, Bool.true_and,
    Nat.add_comm]

theorem testBit_asPacked (a : VReg) (n : Nat) : (asPacked a).testBit n = (lane a (n / 32)).getLsbD (n % 32) := by
  rw [asPacked, testBit_packBits (by decide), lane, BitVec.getLsbD]
  congr 1
  simp only [List.getD_eq_getElem?_getD, List.getElem?_map]
  cases a[n / 32]? <;> rfl

theorem testBit_unpackBits (w k v j : Nat) : (unpackBits w k v).testBit j = (decide (j < w) && v.testBit (w * k + j)) := by
  rw [unpackBits, Nat.testBit_mod_two_pow, Nat.testBit_div_two_pow, Nat.add_comm j]

/-! ### The bits a whole-register result leaves -/

/-- A V-slot command whose operation writes a whole register writes its bits, but for the quarters that meet a drain. -/
theorem writesBits_of_whole {o : VOp} {vd : BitVec 6} {r : Tile → VReg} {f : Tile → Nat → Nat → Bool}
    (hc : ∀ s, exec c s = .next { s with sys := issueV i p o s.sys })
    (hw : ∀ t, (execV t o).writes = wholeV (latV o) vd.toNat (r t))
    (hf : ∀ t, ∀ l < 512, ∀ j < 32, (lane (r t) l).getLsbD j = f t l j) : WritesBits c i p o vd f := by
  intro s b h hm
  obtain ⟨t, ht, hlanes⟩ := writesLanes_of_whole hc hw (fun _ _ _ => rfl) s b h hm
  refine ⟨t, ht, fun l hl j hj => ?_⟩
  rw [laneOf, hlanes l hl]
  split
  · rfl
  · exact hf _ l hl j hj

theorem vunpkOp_elements (a : VReg) {fmt : PackFmt} (hm : fmt ≠ .mxScales) (hk : fmt ≠ .k4Scales) :
    vunpkOp fmt a = (List.range 512).map fun l => BitVec.ofNat 32 (unpackBits (elemWidth fmt) l (asPacked a)) := by
  cases fmt with
  | mxScales => exact absurd rfl hm
  | k4Scales => exact absurd rfl hk
  | b4 | b6 | b8 | b16 => rfl

theorem vpackOp_mxScales (a : VReg) : vpackOp .mxScales a =
    ofPacked (packBits 8 ((List.range 16).map fun b => (lane a (32 * b)).toNat / 256)) := rfl

theorem vpackOp_k4Scales (a : VReg) : vpackOp .k4Scales a =
    ofPacked (packBits 8 ((List.range 32).map fun b => (lane a (16 * b)).toNat / 256)) := rfl

theorem vunpkOp_mxScales (a : VReg) : vunpkOp .mxScales a = (List.range 512).map fun l =>
    if l % 32 = 0 then BitVec.ofNat 32 (256 * unpackBits 8 (l / 32) (asPacked a)) else 0 := rfl

theorem vunpkOp_k4Scales (a : VReg) : vunpkOp .k4Scales a = (List.range 512).map fun l =>
    if l % 16 = 0 then BitVec.ofNat 32 (256 * unpackBits 8 (l / 16) (asPacked a)) else 0 := rfl

section
variable (a : VReg) {l j : Nat} (hl : l < 512) (hj : j < 32)
include hl hj

/-- Packed elements, by the width: bit `m` of the string is bit `m % w` of element `m / w`. -/
theorem getLsbD_packed {w n : Nat} (hw : 0 < w) (f : Nat → Nat) :
    (lane (ofPacked (packBits w ((List.range n).map f))) l).getLsbD j =
      (decide ((32 * l + j) / w < n) && (f ((32 * l + j) / w)).testBit ((32 * l + j) % w)) := by
  rw [getLsbD_ofPacked _ hl hj, testBit_packBits hw, getD_map_range]
  split
  · next h => simp [h]
  · next h => simp [h]

theorem getLsbD_vpack {fmt : PackFmt} (hm : fmt ≠ .mxScales) (hk : fmt ≠ .k4Scales) :
    (lane (vpackOp fmt a) l).getLsbD j = (decide ((32 * l + j) / elemWidth fmt < 512) &&
      (lane a ((32 * l + j) / elemWidth fmt)).getLsbD ((32 * l + j) % elemWidth fmt)) := by
  cases fmt with
  | mxScales => exact absurd rfl hm
  | k4Scales => exact absurd rfl hk
  | b4 | b6 | b8 | b16 => exact getLsbD_packed hl hj (by decide) _

theorem getLsbD_vunpk {fmt : PackFmt} (hm : fmt ≠ .mxScales) (hk : fmt ≠ .k4Scales) :
    (lane (vunpkOp fmt a) l).getLsbD j = (decide (j < elemWidth fmt) &&
      (lane a ((elemWidth fmt * l + j) / 32)).getLsbD ((elemWidth fmt * l + j) % 32)) := by
  have hlane (w : Nat) : (lane ((List.range 512).map fun l => BitVec.ofNat 32 (unpackBits w l (asPacked a))) l).getLsbD j =
      (decide (j < w) && (lane a ((w * l + j) / 32)).getLsbD ((w * l + j) % 32)) := by
    rw [lane_map_range _ hl, BitVec.getLsbD_ofNat, testBit_unpackBits, testBit_asPacked, decide_eq_true hj, Bool.true_and]
  rw [vunpkOp_elements a hm hk, hlane]

/-- The scale bytes of blocks of `n` lanes: those of bits 15 to 8 of each block's first lane. -/
theorem getLsbD_packScales (n m : Nat) :
    (lane (ofPacked (packBits 8 ((List.range m).map fun b => (lane a (n * b)).toNat / 256))) l).getLsbD j =
      (decide ((32 * l + j) / 8 < m) && (lane a (n * ((32 * l + j) / 8))).getLsbD (8 + (32 * l + j) % 8)) := by
  rw [getLsbD_packed hl hj (by decide), show 256 = 2 ^ 8 from rfl, Nat.testBit_div_two_pow, Nat.add_comm _ 8]
  rfl

theorem getLsbD_unpackScales (n : Nat) :
    (lane ((List.range 512).map fun l =>
      if l % n = 0 then BitVec.ofNat 32 (256 * unpackBits 8 (l / n) (asPacked a)) else 0) l).getLsbD j =
      (decide (l % n = 0 ∧ 8 ≤ j ∧ j < 16) &&
        (lane a ((8 * (l / n) + (j - 8)) / 32)).getLsbD ((8 * (l / n) + (j - 8)) % 32)) := by
  rw [lane_map_range _ hl]
  split
  · next h =>
    rw [BitVec.getLsbD_ofNat, show 256 = 2 ^ 8 from rfl, Nat.testBit_two_pow_mul, testBit_unpackBits, testBit_asPacked]
    by_cases h8 : 8 ≤ j
    · simp [h, h8, hj, show (j - 8 < 8) = (j < 16) from propext (by omega)]
    · simp [h8]
  · next h => simp [h]

end

theorem vfn_writes (vd va : BitVec 6) :
    (WritesLanes (.vfn i p vd va .exp2) i p (.vfn vd va .exp2) vd fun t l => exp2F (laneOf t va l)) ∧
    (WritesLanes (.vfn i p vd va .rcp) i p (.vfn vd va .rcp) vd fun t l => rcpF (tileRmode t) (laneOf t va l)) ∧
    (WritesLanes (.vfn i p vd va .rsq) i p (.vfn vd va .rsq) vd fun t l => rsqF (laneOf t va l)) ∧
    (WritesLanes (.vfn i p vd va .abs) i p (.vfn vd va .abs) vd
      fun t l => BitVec.ofNat 32 ((laneOf t va l).toNat % 2 ^ 31)) ∧
    (WritesLanes (.vfn i p vd va .neg) i p (.vfn vd va .neg) vd
      fun t l => BitVec.ofNat 32 ((laneOf t va l).toNat + 2 ^ 31)) := by
  have hwhole (f : VfnFn) (g : Tile → Nat → W32)
      (hg : ∀ t, ∀ l < 512, lane (vfnOp (tileRmode t) f (readV t.regs va.toNat)).1 l = g t l) :
      WritesLanes (.vfn i p vd va f) i p (.vfn vd va f) vd g :=
    writesLanes_of_whole (exec_vfn · i p vd va f) (fun _ => rfl) hg
  refine ⟨hwhole _ _ ?_, hwhole _ _ ?_, hwhole _ _ ?_, hwhole _ _ ?_, hwhole _ _ ?_⟩
  all_goals
    intro t l hl
    simp only [vfnOp, fpRes, lane_map1 _ _ hl]
  · rfl
  · rfl
  · rfl
  · exact and_signMask _
  · exact xor_signBit _

/-- Settles O14: each command writes the whole register its operation computes, lane by lane or bit by bit. -/
theorem vectorOpsComparesAndPacksWriteTheirLanes : Obligations.VectorOpsComparesAndPacksWriteTheirLanes := by
  refine ⟨fun i p vd va vb => ?arith, fun i p vd va vb pd cond => ⟨?compare, fun s b all h hz hn => vcmpp_writes h hz hn⟩,
    fun i p vd va fmt => ⟨fun hm hk => ⟨?pack, ?unpack⟩, ?scales⟩⟩
  case arith =>
    obtain ⟨hexp, hrcp, hrsq, habs, hneg⟩ := vfn_writes (i := i) (p := p) vd va
    refine ⟨fun f => ?_, hexp, hrcp, hrsq, habs, hneg, ?_, fun sa => ?_, ?_, ?_, fun k => ?_⟩
    · exact writesLanes_of_whole (exec_vfp · i p vd va vb f) (fun _ => rfl) fun t l hl => lane_vfpOp _ _ _ _ _ hl
    · refine writesLanes_of_whole (exec_vsel · i p vd va vb) (fun _ => rfl) fun t l hl => ?_
      simp only [vselOp, lane_map3 _ _ _ _ hl]
      exact ite_not ..
    · refine writesLanes_of_whole (exec_vsplat · i p vd sa) (fun _ => rfl) fun t l hl => ?_
      simp only [lane, List.getD_eq_getElem?_getD, List.getElem?_replicate_of_lt hl, Option.getD_some]
    · refine writesLanes_of_whole (exec_viota · i p vd) (fun _ => rfl) fun t l hl => ?_
      simp only [lane_map_range _ hl]
    · refine writesLanes_of_whole (exec_vperm · i p vd va vb) (fun _ => rfl) fun t l hl => ?_
      simp only [vpermOp, lane_map1 _ _ hl]
      rfl
    · refine writesLanes_of_whole (exec_vrot · i p vd va k) (fun _ => rfl) fun t l hl => ?_
      simp only [vrotOp, lane_map_range _ hl]
      rfl
  case compare =>
    refine writesLanes_of_whole (exec_vcmp · i p vd va vb cond) (fun _ => rfl) fun t l hl => ?_
    simp only [vcmpOp, lane_map2 _ _ _ hl, vCondHolds_eq]
    rfl
  case pack =>
    exact writesBits_of_whole (exec_vpack · i p vd va fmt) (fun _ => rfl) fun t l hl j hj => getLsbD_vpack _ hl hj hm hk
  case unpack =>
    exact writesBits_of_whole (exec_vunpk · i p vd va fmt) (fun _ => rfl) fun t l hl j hj => getLsbD_vunpk _ hl hj hm hk
  case scales =>
    rintro n (⟨rfl, rfl⟩ | ⟨rfl, rfl⟩)
    · refine ⟨writesBits_of_whole (exec_vpack · i p vd va .mxScales) (fun _ => rfl) fun t l hl j hj => ?_,
        writesBits_of_whole (exec_vunpk · i p vd va .mxScales) (fun _ => rfl) fun t l hl j hj => ?_⟩
      · rw [vpackOp_mxScales, getLsbD_packScales _ hl hj]
        rfl
      · rw [vunpkOp_mxScales, getLsbD_unpackScales _ hl hj]
        rfl
    · refine ⟨writesBits_of_whole (exec_vpack · i p vd va .k4Scales) (fun _ => rfl) fun t l hl j hj => ?_,
        writesBits_of_whole (exec_vunpk · i p vd va .k4Scales) (fun _ => rfl) fun t l hl j hj => ?_⟩
      · rw [vpackOp_k4Scales, getLsbD_packScales _ hl hj]
        rfl
      · rw [vunpkOp_k4Scales, getLsbD_unpackScales _ hl hj]
        rfl

end Sys2Proof.Machine
end

section
/-!
SUPPORT. The exact values of the number formats, and rounding at a value that a format represents (O16).
-/

namespace Sys2Proof.Machine

-- As in the tests: one proof at a time, so that the whole text keeps within the threads that the memory holds.
set_option Elab.async false

/-! ### Magnitudes as rational numbers -/

/-- The rational number that a magnitude stands for. -/
def NQ.val (q : NQ) : ℚ := q.num / q.den

theorem pow2Q_pos (e : Int) : 0 < (pow2Q e).num ∧ 0 < (pow2Q e).den := by
  unfold pow2Q
  split
  · exact ⟨Nat.two_pow_pos _, Nat.one_pos⟩
  · exact ⟨Nat.one_pos, Nat.two_pow_pos _⟩

theorem pow2Q_val (e : Int) : (pow2Q e).val = 2 ^ e := by
  unfold pow2Q
  split
  · next h =>
    obtain ⟨n, rfl⟩ := Int.eq_ofNat_of_zero_le h
    simp [NQ.val]
  · next h =>
    obtain ⟨n, hn⟩ := Int.eq_ofNat_of_zero_le (show 0 ≤ -e by omega)
    obtain rfl : e = -n := by omega
    simp [NQ.val]

theorem mulQ_val (a b : NQ) : (mulQ a b).val = a.val * b.val := by
  simp only [mulQ, NQ.val, Nat.cast_mul]
  exact mul_div_mul_comm ..

theorem divQ_val (a b : NQ) : (divQ a b).val = a.val / b.val := by
  simp only [divQ, NQ.val, Nat.cast_mul]
  exact (div_div_div_eq ..).symm

theorem ltQ_iff {a b : NQ} (ha : 0 < a.den) (hb : 0 < b.den) : ltQ a b = true ↔ a.val < b.val := by
  rw [ltQ, decide_eq_true_iff, NQ.val, NQ.val, div_lt_div_iff₀ (by exact_mod_cast ha) (by exact_mod_cast hb)]
  norm_cast

theorem NQ.val_pos {q : NQ} (hn : q.num ≠ 0) (hd : 0 < q.den) : 0 < q.val :=
  div_pos (by exact_mod_cast Nat.pos_of_ne_zero hn) (by exact_mod_cast hd)

/-- A magnitude whose value is a natural number has a numerator that its denominator divides. -/
theorem NQ.num_of_val {q : NQ} {n : Nat} (hd : 0 < q.den) (h : q.val = n) : q.num = n * q.den := by
  have hd' : (q.den : ℚ) ≠ 0 := by exact_mod_cast hd.ne'
  rw [NQ.val, div_eq_iff hd'] at h
  exact_mod_cast h

/-! ### The exponent of a magnitude -/

theorem floorLog2_eq {q : NQ} (hn : q.num ≠ 0) (hd : 0 < q.den) : floorLog2 q = Int.log 2 q.val := by
  have hv := NQ.val_pos hn hd
  have hnum : (0 : ℚ) < q.num := by exact_mod_cast Nat.pos_of_ne_zero hn
  have hden : (0 : ℚ) < q.den := by exact_mod_cast hd
  have hn1 : (2 : ℚ) ^ (Nat.log2 q.num : Int) ≤ q.num := by exact_mod_cast Nat.log2_self_le hn
  have hn2 : (q.num : ℚ) < 2 ^ ((Nat.log2 q.num : Int) + 1) := by exact_mod_cast Nat.lt_log2_self
  have hd1 : (2 : ℚ) ^ (Nat.log2 q.den : Int) ≤ q.den := by exact_mod_cast Nat.log2_self_le hd.ne'
  have hd2 : (q.den : ℚ) < 2 ^ ((Nat.log2 q.den : Int) + 1) := by exact_mod_cast Nat.lt_log2_self
  have hlow : (Nat.log2 q.num : Int) - Nat.log2 q.den - 1 ≤ Int.log 2 q.val := by
    rw [← Int.zpow_le_iff_le_log Nat.one_lt_two hv, NQ.val, le_div_iff₀ hden]
    calc (2 : ℚ) ^ ((Nat.log2 q.num : Int) - Nat.log2 q.den - 1) * q.den
        ≤ 2 ^ ((Nat.log2 q.num : Int) - Nat.log2 q.den - 1) * 2 ^ ((Nat.log2 q.den : Int) + 1) := by gcongr
      _ = 2 ^ (Nat.log2 q.num : Int) := by rw [← zpow_add₀ two_ne_zero]; congr 1; omega
      _ ≤ q.num := hn1
  have hhigh : Int.log 2 q.val < (Nat.log2 q.num : Int) - Nat.log2 q.den + 1 := by
    rw [← Int.lt_zpow_iff_log_lt Nat.one_lt_two hv, NQ.val, div_lt_iff₀ hden]
    calc (q.num : ℚ) < 2 ^ ((Nat.log2 q.num : Int) + 1) := hn2
      _ = 2 ^ ((Nat.log2 q.num : Int) - Nat.log2 q.den + 1) * 2 ^ (Nat.log2 q.den : Int) := by
        rw [← zpow_add₀ two_ne_zero]; congr 1; omega
      _ ≤ 2 ^ ((Nat.log2 q.num : Int) - Nat.log2 q.den + 1) * q.den := by gcongr
  have hlt := ltQ_iff hd (pow2Q_pos ((Nat.log2 q.num : Int) - Nat.log2 q.den)).2
  rw [pow2Q_val] at hlt
  unfold floorLog2
  dsimp only
  split
  · next h =>
    have hlog : Int.log 2 q.val < (Nat.log2 q.num : Int) - Nat.log2 q.den :=
      (Int.lt_zpow_iff_log_lt Nat.one_lt_two hv).1 (by simpa using hlt.1 h)
    omega
  · next h =>
    have hlog : (Nat.log2 q.num : Int) - Nat.log2 q.den ≤ Int.log 2 q.val :=
      (Int.zpow_le_iff_le_log Nat.one_lt_two hv).1 (by simpa using not_lt.1 (mt hlt.2 h))
    omega

/-! ### Codes of exact values (R69) -/

variable {f : Fmt} {m : RMode} {neg : Bool} {q : NQ} {e sig c : Nat}

/-- A significand at an exponent: normal, or at the smallest exponent of the format. -/
structure Fmt.Placed (f : Fmt) (e sig : Nat) : Prop where
  exponent : 1 ≤ e
  below : sig < 2 ^ (f.man + 1)
  normal : 2 ^ f.man ≤ sig ∨ e = 1

theorem two_zpow_pos (k : Int) : (0 : ℚ) < 2 ^ k := zpow_pos two_pos k

/-- The exponent that `floorCode` takes is that of a placed significand. -/
theorem max_log_of_placed (hp : f.Placed e sig) (hsig : sig ≠ 0) :
    max (Int.log 2 ((sig : ℚ) * 2 ^ ((e : Int) - f.bias - f.man))) (1 - (f.bias : Int)) = (e : Int) - f.bias := by
  obtain ⟨he, hlt, hnorm⟩ := hp
  have hv : (0 : ℚ) < sig * 2 ^ ((e : Int) - f.bias - f.man) :=
    mul_pos (by exact_mod_cast Nat.pos_of_ne_zero hsig) (two_zpow_pos _)
  have hhigh : Int.log 2 ((sig : ℚ) * 2 ^ ((e : Int) - f.bias - f.man)) < (e : Int) - f.bias + 1 := by
    rw [← Int.lt_zpow_iff_log_lt Nat.one_lt_two hv]
    calc (sig : ℚ) * 2 ^ ((e : Int) - f.bias - f.man)
        < 2 ^ ((f.man : Int) + 1) * 2 ^ ((e : Int) - f.bias - f.man) := by
          have hsig' : (sig : ℚ) < 2 ^ ((f.man : Int) + 1) := by exact_mod_cast hlt
          exact mul_lt_mul_of_pos_right hsig' (two_zpow_pos _)
      _ = 2 ^ ((e : Int) - f.bias + 1) := by rw [← zpow_add₀ two_ne_zero]; congr 1; omega
  rcases hnorm with h | rfl
  · have hlow : (e : Int) - f.bias ≤ Int.log 2 ((sig : ℚ) * 2 ^ ((e : Int) - f.bias - f.man)) := by
      rw [← Int.zpow_le_iff_le_log Nat.one_lt_two hv]
      calc (2 : ℚ) ^ ((e : Int) - f.bias) = 2 ^ (f.man : Int) * 2 ^ ((e : Int) - f.bias - f.man) := by
            rw [← zpow_add₀ two_ne_zero]; congr 1; omega
        _ ≤ sig * 2 ^ ((e : Int) - f.bias - f.man) := by
            have hsig' : (2 : ℚ) ^ (f.man : Int) ≤ sig := by exact_mod_cast h
            exact mul_le_mul_of_nonneg_right hsig' (two_zpow_pos _).le
    omega
  · omega

/-- Truncating the value of a placed significand gives its code and leaves no remainder. -/
theorem floorCode_of_placed (hp : f.Placed e sig) (hd : 0 < q.den)
    (hq : q.val = sig * 2 ^ ((e : Int) - f.bias - f.man)) :
    ∃ d, 0 < d ∧ floorCode f q = ((e - 1) * 2 ^ f.man + sig, 0, d) := by
  by_cases hn : q.num = 0
  · have hsig : sig = 0 := by
      have hz : (sig : ℚ) * 2 ^ ((e : Int) - f.bias - f.man) = 0 := by rw [← hq, NQ.val, hn]; simp
      exact_mod_cast (mul_eq_zero.1 hz).resolve_right (two_zpow_pos _).ne'
    have he : e = 1 := hp.normal.resolve_left (by rw [hsig]; exact (Nat.two_pow_pos _).not_ge)
    exact ⟨1, Nat.one_pos, by rw [floorCode, if_pos hn, he, hsig]; simp⟩
  · have hsig : sig ≠ 0 := by
      rintro rfl
      exact (NQ.val_pos hn hd).ne' (by simp [hq])
    have hexp : max (floorLog2 q) (1 - (f.bias : Int)) = (e : Int) - f.bias := by
      rw [floorLog2_eq hn hd, hq, max_log_of_placed hp hsig]
    obtain ⟨hpn, hpd⟩ := pow2Q_pos ((e : Int) - f.bias - f.man)
    have hsd : 0 < (divQ q (pow2Q ((e : Int) - f.bias - f.man))).den := Nat.mul_pos hd hpn
    have hval : (divQ q (pow2Q ((e : Int) - f.bias - f.man))).val = sig := by
      rw [divQ_val, pow2Q_val, hq, mul_div_cancel_right₀ _ (two_zpow_pos _).ne']
    have hsn := NQ.num_of_val hsd hval
    have hcode : ((e : Int) - f.bias - (1 - (f.bias : Int))).toNat = e - 1 := by
      have := hp.exponent
      omega
    refine ⟨_, hsd, ?_⟩
    unfold floorCode
    dsimp only
    rw [if_neg hn, hexp, hsn, Nat.mul_div_cancel _ hsd, Nat.mul_mod_left, hcode]

theorem roundsUp_exact {d : Nat} (code : Nat) (hd : 0 < d) : roundsUp m neg code 0 d = false := by
  cases m <;> simp [roundsUp, hd.ne']

/-- The parts of a magnitude code: its exponent field, 1 at a subnormal, and its significand. -/
theorem magQ_placed (f : Fmt) (c : Nat) : ∃ e sig, f.Placed e sig ∧ (e - 1) * 2 ^ f.man + sig = c ∧
    (magQ f c).val = sig * 2 ^ ((e : Int) - f.bias - f.man) := by
  have hpos := Nat.two_pow_pos f.man
  have hmod := Nat.mod_lt c hpos
  have hdiv := Nat.div_add_mod' c (2 ^ f.man)
  have hval (sig : Nat) (k : Int) : (mulQ ⟨sig, 1⟩ (pow2Q k)).val = sig * 2 ^ k := by
    rw [mulQ_val, pow2Q_val]
    simp [NQ.val]
  by_cases h0 : c / 2 ^ f.man = 0
  · refine ⟨1, c % 2 ^ f.man, ⟨le_rfl, by rw [pow_succ]; omega, .inr rfl⟩, by rw [h0] at hdiv; omega, ?_⟩
    simp only [magQ, h0, if_true]
    exact hval ..
  · have hone : 1 ≤ c / 2 ^ f.man := Nat.pos_of_ne_zero h0
    refine ⟨c / 2 ^ f.man, 2 ^ f.man + c % 2 ^ f.man, ⟨hone, by rw [pow_succ]; omega, .inl (Nat.le_add_right _ _)⟩, ?_, ?_⟩
    · rw [← Nat.add_assoc, ← Nat.succ_mul, Nat.succ_eq_add_one, Nat.sub_add_cancel hone]
      exact hdiv
    · simp only [magQ, h0, if_false, max_eq_left hone]
      exact hval ..

theorem magQ_den_pos (f : Fmt) (c : Nat) : 0 < (magQ f c).den := by
  unfold magQ mulQ
  exact Nat.mul_pos Nat.one_pos (pow2Q_pos _).2

/-- A value that a code represents rounds to that code under every mode. -/
theorem roundMag_of_val (hd : 0 < q.den) (hq : q.val = (magQ f c).val) (hc : c ≤ f.maxCode) : roundMag f m neg q = c := by
  obtain ⟨e, sig, hp, hcode, hval⟩ := magQ_placed f c
  obtain ⟨d, hdpos, hfloor⟩ := floorCode_of_placed hp hd (hq.trans hval)
  unfold roundMag
  rw [hfloor, hcode]
  dsimp only
  rw [roundsUp_exact _ hdpos, if_neg Bool.false_ne_true, if_neg (Nat.not_lt.2 hc)]

/-! ### FP32 (R53, R77) -/

theorem withSign_parts (f : Fmt) {x : Nat} (h : x < 2 ^ (f.signAt + 1)) :
    withSign f (x.testBit f.signAt) (x % 2 ^ f.signAt) = x := by
  have hdiv := Nat.div_add_mod x (2 ^ f.signAt)
  have hlt : x / 2 ^ f.signAt < 2 := Nat.div_lt_of_lt_mul (by rwa [← pow_succ])
  rw [withSign, Nat.testBit_eq_decide_div_mod_eq, Nat.mod_eq_of_lt hlt]
  obtain h0 | h1 := Nat.le_one_iff_eq_zero_or_eq_one.1 (Nat.lt_succ_iff.1 hlt)
  · rw [if_neg (by simp [h0])]
    rw [h0] at hdiv
    omega
  · rw [if_pos (by simp [h1])]
    rw [h1] at hdiv
    omega

/-- What an FP32 pattern stands for. -/
theorem val32_eq (x : F32) : val32 x =
    if 0x7F800001 ≤ x.toNat % 2 ^ 31 then .nan
    else if 0x7F800000 = x.toNat % 2 ^ 31 then .inf (x.toNat.testBit 31)
    else .fin (x.toNat.testBit 31) (magQ fp32 (x.toNat % 2 ^ 31)) := by
  simp only [val32, decodeF, fp32, Fmt.signAt, Option.some.injEq]

theorem val32_nan {x : F32} (h : isNaN32 x = true) : val32 x = .nan := by
  have hnan : 0x7F800001 ≤ x.toNat % 2 ^ 31 := of_decide_eq_true h
  rw [val32_eq, if_pos hnan]

theorem toF32_val32 (m : RMode) {x : F32} (h : isNaN32 x = false) : toF32 m (val32 x) = x := by
  have hnan : ¬0x7F800001 ≤ x.toNat % 2 ^ 31 := of_decide_eq_false h
  have hparts : withSign fp32 (x.toNat.testBit 31) (x.toNat % 2 ^ 31) = x.toNat := withSign_parts fp32 x.isLt
  rw [val32_eq, if_neg hnan]
  split
  · next hinf => rw [toF32, hinf, hparts, BitVec.ofNat_toNat, BitVec.setWidth_eq]
  · next hfin =>
    have hc : x.toNat % 2 ^ 31 ≤ fp32.maxCode := by
      simp only [fp32]
      omega
    rw [toF32, roundMag_of_val (magQ_den_pos _ _) rfl hc, hparts, BitVec.ofNat_toNat, BitVec.setWidth_eq]

theorem toF32_of_nan (m : RMode) {x : F32} (h : isNaN32 x = true) : toF32 m (val32 x) = 0x7FC00000 := by
  rw [val32_nan h]
  rfl

theorem addV_nan_right (m : RMode) (v : FVal) : addV m v .nan = .nan := by cases v <;> rfl

theorem mulV_nan_right (v : FVal) : mulV v .nan = .nan := by cases v <;> rfl

/-- The operations that take a NaN operand answer the canonical NaN. -/
theorem ops_of_nan (m : RMode) {x y : F32} (h : isNaN32 x = true ∨ isNaN32 y = true) :
    addF m x y = 0x7FC00000 ∧ subF m x y = 0x7FC00000 ∧ mulF m x y = 0x7FC00000 ∧ maxF x y = 0x7FC00000 ∧
      minF x y = 0x7FC00000 := by
  have hor : (isNaN32 x || isNaN32 y) = true := by simpa using h
  refine ⟨?_, ?_, ?_, if_pos hor, if_pos hor⟩
  · obtain hx | hy := h
    · rw [addF, val32_nan hx]
      rfl
    · rw [addF, val32_nan hy, addV_nan_right]
      rfl
  · obtain hx | hy := h
    · rw [subF, val32_nan hx]
      rfl
    · rw [subF, val32_nan hy, negV, addV_nan_right]
      rfl
  · obtain hx | hy := h
    · rw [mulF, val32_nan hx]
      rfl
    · rw [mulF, val32_nan hy, mulV_nan_right]
      rfl

/-! ### Narrow encodings in FP32 (R86, R137) -/

/-- A value of at most 24 significant bits, its exponent within the normal range, is an FP32 value. -/
theorem exists_fp32 {sig : Nat} {k : Int} (hsig : sig < 2 ^ 24) (hlow : -126 ≤ k) (hhigh : k ≤ 100) :
    ∃ c ≤ fp32.maxCode, (magQ fp32 c).val = sig * 2 ^ k := by
  by_cases h0 : sig = 0
  · exact ⟨0, Nat.zero_le _, by simp [h0, magQ, fp32, mulQ, NQ.val]⟩
  · have hlo := Nat.log2_self_le h0
    have hlog : Nat.log2 sig ≤ 23 := Nat.lt_succ_iff.1 ((Nat.log2_lt h0).2 hsig)
    obtain ⟨n, hn⟩ := Int.eq_ofNat_of_zero_le (show 0 ≤ Nat.log2 sig + k + 126 by omega)
    have hnorm : sig * 2 ^ (23 - Nat.log2 sig) < 2 ^ 24 := by
      have hs : sig < 2 ^ (Nat.log2 sig + 1) := Nat.lt_log2_self
      calc sig * 2 ^ (23 - Nat.log2 sig) < 2 ^ (Nat.log2 sig + 1) * 2 ^ (23 - Nat.log2 sig) := by gcongr
        _ = 2 ^ 24 := by rw [← pow_add]; congr 1; omega
    have hbig : 2 ^ 23 ≤ sig * 2 ^ (23 - Nat.log2 sig) := by
      calc 2 ^ 23 = 2 ^ Nat.log2 sig * 2 ^ (23 - Nat.log2 sig) := by rw [← pow_add]; congr 1; omega
        _ ≤ sig * 2 ^ (23 - Nat.log2 sig) := by gcongr
    obtain ⟨e, s, hp, hcode, hval⟩ := magQ_placed fp32 (n * 2 ^ 23 + sig * 2 ^ (23 - Nat.log2 sig))
    obtain ⟨hexp, hbelow, hnormal⟩ := hp
    simp only [fp32] at hcode hval hbelow hnormal
    obtain ⟨rfl, rfl⟩ : e = n + 1 ∧ s = sig * 2 ^ (23 - Nat.log2 sig) := by omega
    refine ⟨_, ?_, hval.trans ?_⟩
    · simp only [fp32]
      omega
    · rw [Nat.cast_mul, Nat.cast_pow, Nat.cast_ofNat, mul_assoc, ← zpow_natCast, ← zpow_add₀ two_ne_zero]
      congr 2
      omega

/-- A finite magnitude that FP32 represents is kept by rounding to FP32 and reading back. -/
theorem val32_toF32_fin {m : RMode} {neg : Bool} {q : NQ} {c : Nat} (hd : 0 < q.den) (hc : c ≤ fp32.maxCode)
    (hq : q.val = (magQ fp32 c).val) : val32 (toF32 m (.fin neg q)) = .fin neg (magQ fp32 c) := by
  simp only [fp32] at hc
  have hsign : withSign fp32 neg c = if neg then 2 ^ 31 + c else c := rfl
  have hx : (toF32 m (.fin neg q)).toNat = if neg then 2 ^ 31 + c else c := by
    rw [toF32, roundMag_of_val hd hq hc, BitVec.toNat_ofNat, hsign]
    split <;> omega
  have hlow : (toF32 m (.fin neg q)).toNat % 2 ^ 31 = c := by
    rw [hx]
    split <;> omega
  have hbit : (toF32 m (.fin neg q)).toNat.testBit 31 = neg := by
    rw [hx, Nat.testBit_eq_decide_div_mod_eq]
    cases neg
    · simp only [Bool.false_eq_true, if_false, decide_eq_false_iff_not]
      omega
    · simp only [if_true, decide_eq_true_eq]
      omega
  rw [val32_eq, hlow, hbit, if_neg (by omega), if_neg (by omega)]

theorem val32_toF32_inf (m : RMode) (neg : Bool) : val32 (toF32 m (.inf neg)) = .inf neg := by
  cases neg with
  | false => exact (by decide : val32 0x7F800000#32 = .inf false)
  | true => exact (by decide : val32 0xFF800000#32 = .inf true)


/-- A format whose every magnitude code is finite, an infinity or a NaN, and whose values FP32 represents. -/
structure Fmt.Narrow (f : Fmt) : Prop where
  codes : ∀ c < 2 ^ f.signAt, c ≤ f.maxCode ∨ ∃ k, f.nanFrom = some k ∧ (k ≤ c ∨ f.infCode = some c)
  man : f.man ≤ 3
  bias : f.bias ≤ 15
  ebits : f.ebits ≤ 5

theorem narrowFmt_narrow {n : Narrow} (hn : n ≠ .bf16) (hf : narrowFmt n = some f) : f.Narrow := by
  cases n with
  | bf16 => exact absurd rfl hn
  | int8 => exact absurd hf (by simp [narrowFmt])
  | e4m3 | e5m2 | e2m3 | e3m2 | e2m1 =>
    obtain rfl := Option.some.inj hf
    refine ⟨fun c hc => ?_, by decide, by decide, by decide⟩
    simp only [e4m3, e5m2, e2m3, e3m2, e2m1, Fmt.signAt, Option.some.injEq, exists_eq_left', reduceCtorEq, false_and,
      exists_false] at hc ⊢
    omega

/-- What a code of a narrow format stands for. -/
theorem decodeF_cases (hf : f.Narrow) (x : Nat) : decodeF f x = .nan ∨
    (decodeF f x = .inf (x.testBit f.signAt) ∧ f.infCode = some (x % 2 ^ f.signAt)) ∨
    (decodeF f x = .fin (x.testBit f.signAt) (magQ f (x % 2 ^ f.signAt)) ∧ x % 2 ^ f.signAt ≤ f.maxCode) := by
  have hcodes := hf.codes _ (Nat.mod_lt x (Nat.two_pow_pos f.signAt))
  unfold decodeF
  dsimp only
  cases hnan : f.nanFrom with
  | none =>
    obtain h | ⟨k, hk, -⟩ := hcodes
    · exact .inr (.inr ⟨rfl, h⟩)
    · exact absurd (hnan.symm.trans hk) (by simp)
  | some k =>
    by_cases hk : k ≤ x % 2 ^ f.signAt
    · exact .inl (if_pos hk)
    · by_cases hinf : f.infCode = some (x % 2 ^ f.signAt)
      · exact .inr (.inl ⟨(if_neg hk).trans (if_pos hinf), hinf⟩)
      · refine .inr (.inr ⟨(if_neg hk).trans (if_neg hinf), hcodes.resolve_right ?_⟩)
        rintro ⟨k', hk', h⟩
        obtain rfl := Option.some.inj (hnan.symm.trans hk')
        exact h.elim hk hinf

/-- FP32 represents every finite value of a narrow format. -/
theorem fp32_of_narrow (hf : f.Narrow) (hc : c < 2 ^ f.signAt) : ∃ k ≤ fp32.maxCode, (magQ fp32 k).val = (magQ f c).val := by
  obtain ⟨e, sig, ⟨hone, hbelow, -⟩, hcode, hval⟩ := magQ_placed f c
  have hman := hf.man
  have hbias := hf.bias
  have hsig : sig < 2 ^ 24 := hbelow.trans_le (Nat.pow_le_pow_right two_pos (by omega))
  have hexp : e - 1 < 2 ^ f.ebits := by
    refine Nat.lt_of_mul_lt_mul_right (a := 2 ^ f.man) ?_
    rw [← pow_add]
    exact (Nat.le_of_add_right_le hcode.le).trans_lt hc
  have hebits : 2 ^ f.ebits ≤ 2 ^ 5 := Nat.pow_le_pow_right two_pos hf.ebits
  obtain ⟨k, hk, hv⟩ := exists_fp32 (k := (e : Int) - f.bias - f.man) hsig (by omega) (by omega)
  exact ⟨k, hk, hv.trans hval.symm⟩

theorem narrow_roundtrip {n : Narrow} {x : Nat} (hf : narrowFmt n = some f) (hw : f.Narrow) (hx : x < 2 ^ (f.signAt + 1))
    (h : (widen n x).2 = false) : convNarrow n m (val32 (widen n x).1) = (x, false) := by
  have hparts := withSign_parts f hx
  have hwiden : widen n x = (toF32 .rne (decodeF f x), decide (decodeF f x = .nan)) := by
    simp only [widen, hf, Nat.mod_eq_of_lt hx]
  rw [hwiden] at h ⊢
  dsimp only at h ⊢
  obtain hnan | ⟨hinf, hcode⟩ | ⟨hfin, hle⟩ := decodeF_cases hw x
  · exact absurd hnan (of_decide_eq_false h)
  · rw [hinf, val32_toF32_inf]
    simp only [convNarrow, hf, hcode, Option.getD_some, hparts]
  · obtain ⟨k, hk, hv⟩ := fp32_of_narrow hw (Nat.mod_lt x (Nat.two_pow_pos f.signAt))
    rw [hfin, val32_toF32_fin (magQ_den_pos _ _) hk hv.symm]
    simp only [convNarrow, hf, roundMag_of_val (magQ_den_pos _ _) hv hle, hparts]

/-! ### INT8 (R86) -/

theorem roundInt_of_val {n : Nat} (hd : 0 < q.den) (h : q.val = n) : roundInt m neg q = n := by
  rw [roundInt, NQ.num_of_val hd h]
  rw [Nat.mul_div_cancel _ hd, Nat.mul_mod_left, roundsUp_exact _ hd, if_neg Bool.false_ne_true]

theorem int8_value {n : Nat} (hn : n < 2 ^ 24) : ∃ q : NQ, 0 < q.den ∧ q.val = n ∧
    val32 (toF32 .rne (.fin neg ⟨n, 1⟩)) = .fin neg q := by
  obtain ⟨k, hk, hv⟩ := exists_fp32 (k := 0) hn (by decide) (by decide)
  rw [zpow_zero, mul_one] at hv
  exact ⟨_, magQ_den_pos _ _, hv, val32_toF32_fin Nat.one_pos hk (by rw [hv]; simp [NQ.val])⟩

theorem int8_roundtrip {x : Nat} (hx : x < 256) : convNarrow .int8 m (val32 (widen .int8 x).1) = (x, false) := by
  by_cases h : x < 128
  · obtain ⟨q, hd, hq, hval⟩ := int8_value (neg := false) (n := x) (by omega)
    simp only [widen, narrowFmt, Nat.mod_eq_of_lt hx, if_pos h, hval, convNarrow, roundInt_of_val hd hq, int8Of,
      Bool.false_eq_true, if_false, Prod.mk.injEq, and_true]
    omega
  · obtain ⟨q, hd, hq, hval⟩ := int8_value (neg := true) (n := 256 - x) (by omega)
    simp only [widen, narrowFmt, Nat.mod_eq_of_lt hx, if_neg h, hval, convNarrow, roundInt_of_val hd hq, int8Of,
      if_true, if_neg (show 256 - x ≠ 0 by omega), Prod.mk.injEq, and_true]
    omega

/-- Settles O16: an exact value leaves no remainder at its own code, and FP32 holds every narrow value exactly. -/
theorem roundingKeepsRepresentableValuesInEveryFormat : Obligations.RoundingKeepsRepresentableValuesInEveryFormat := by
  refine ⟨⟨fun m x => toF32_val32 m, fun m x => toF32_of_nan m, fun m x y => ops_of_nan m⟩, fun m n x hn hx h => ?_⟩
  cases n with
  | bf16 => exact absurd rfl hn
  | int8 => exact int8_roundtrip hx
  | e4m3 | e5m2 | e2m3 | e3m2 | e2m1 => exact narrow_roundtrip rfl (narrowFmt_narrow hn rfl) hx h

end Sys2Proof.Machine
end
